-- ==== Sys2Proof/Word.lean ====
section
/-! DEFINITION. The word types of the T7200 and the two container types of its state. -/

namespace Sys2Proof

/-- A byte. -/
abbrev Byte := BitVec 8
/-- A 72-bit lane value (R26). -/
abbrev Lane := BitVec 72
/-- A finite map from numbers, sorted by key, no key twice. -/
abbrev Tab (α : Type) := List (Nat × α)
/-- A byte-addressed memory in canonical form: addresses strictly rising, no cell that holds 0; an unlisted
address reads 0 (assumption 6). -/
abbrev Mem := List Host.Cell

/-- The pattern of NULL (R26). -/
abbrev nullLane : Lane := 0x800000000000000000#72
/-- The largest INT72 (R26). -/
abbrev int72Max : Int := 2361183241434822606847

/-- An access path to the registers (R479): a function over PCIe, the SMBus/MCTP bridge, the Frame cores with the tiles, the Sill core, the
JTAG debug access port. A tile or Frame core shows its number (0 to 143, 144 to 147) and its function tag (R13). -/
inductive Path where
  | host (fn : Nat)
  | smbus
  | core (i fn : Nat)
  | sill
  | jtag
deriving DecidableEq, Repr

end Sys2Proof
end

