-- ==== Sys2Proof/Syntax.lean ====
section
/-! DEFINITION. The commands: one constructor per row of spec/opcode_table.json. -/

namespace Sys2Proof

/-- A command that the block takes, with its operands. -/
inductive Instr where
  /-- SQ_DB (R289): host write of a queue's SQ doorbell that advances TAIL and may supply up to four inline descriptors. -/
  | sqDb (fn q v : Nat) (slots : List (List Byte))
  /-- CQ_DB (R298): host write of CQ_DB.HEAD that releases completion-ring slots to the device. -/
  | cqDb (fn q v : Nat)
  /-- DESCRIPTOR_FETCH (R290): the queue manager fetches descriptors of an ACTIVE queue whose head lies behind its tail. -/
  | descriptorFetch
  /-- HELD_DESCRIPTOR_INSERT (R166): a descriptor held for a full flow table is inserted when a flow-table entry frees. -/
  | heldDescriptorInsert
  /-- ENTRY_WAIT_GRANT (R168): a freed scheduler entry goes to the waiter that began waiting first. -/
  | entryWaitGrant
  /-- IKEY_HELD_INSERT (R304): a descriptor held for a full key table is inserted once a key entry can be removed. -/
  | ikeyHeldInsert
  /-- IKEY_EXPIRY (R305): a completed item's key entry is removed HOLD_S seconds after completion and its stream floor rises. -/
  | ikeyExpiry
  /-- QUEUE_ENABLE (R285): a write of QM_Q_CTL.EN = 1 checks the queue configuration and starts the queue at position 0 or records ERR. -/
  | queueEnable (p : Path) (v : Nat)
  /-- RUN_PLAN (R73): item that checks its bindings and tables and requests a grant to run a loaded plan. -/
  | runPlan (id : Nat)
  /-- LOAD_PLAN (R69): item that copies, checks, digests and stores a plan image and binds a STANDING plan. -/
  | loadPlan (id : Nat)
  /-- UNLOAD_PLAN (R70): item that moves a READY or BOUND plan to UNLOADING. -/
  | unloadPlan (id : Nat)
  /-- UNLOAD_COMPLETE (R70): when the last item running the plan completes, the plan store is freed, the plan becomes ABSENT and the completion is posted. -/
  | unloadComplete (fn pid : Nat)
  /-- MOVE (R318): item that checks and runs one inline segment or a chain of DMA segments; `id` carries the item and, where the host answers a read of its segment list with an error (R319), the segment at which it does. -/
  | move (id : Nat × Option Nat)
  /-- CIPHER (R393): item that checks and submits one part of a cipher or MAC message to the cipher engine. -/
  | cipher (id : Nat)
  /-- DIGEST (R393): item that checks and submits one part of a hash or HMAC message to the digest engine. -/
  | digest (id : Nat)
  /-- CODEC_ENCODE (R59): CODEC item with DIR 0 that codes a byte stream into stream blocks or a raw stream. -/
  | codecEncode (id : Nat)
  /-- CODEC_DECODE (R60): CODEC item with DIR 1 that checks and decodes a coded stream into the output buffer. -/
  | codecDecode (id : Nat)
  /-- CAM_UPDATE (R414): item that checks every record then applies CAM entry writes and invalidations in list order. -/
  | camUpdate (id : Nat)
  /-- CAM_SEARCH (R415): item that searches a list of keys and writes a result record per key. -/
  | camSearch (id : Nat)
  /-- LEDGER_READ (R344): ledger command that reads blocks of a BLOCK volume from the drives or overlapping staging. -/
  | ledgerRead (id : Nat)
  /-- LEDGER_WRITE (R346): ledger command that atomically writes up to 64 blocks to fresh locations and forwards it under PEER or BOTH. -/
  | ledgerWrite (id : Nat)
  /-- LEDGER_APPEND (R348): ledger command that appends one record to a LOG volume's hash chain. -/
  | ledgerAppend (id : Nat)
  /-- LEDGER_FLUSH (R355): ledger command that completes when every earlier command of the volume meets its policy. -/
  | ledgerFlush (id : Nat)
  /-- LEDGER_TRIM (R351): ledger command that unmaps blocks of a BLOCK volume or moves a LOG volume's first record. -/
  | ledgerTrim (id : Nat)
  /-- LOG_READ (R350): ledger command that returns committed records and checks their chain. -/
  | logRead (id : Nat)
  /-- LEDGER_RESUME (R362): ledger command that unfreezes a volume, optionally discarding its waiting commands. -/
  | ledgerResume (id : Nat)
  /-- TABLE_APPEND (R294): item that widens and appends rows to a table and publishes them at its commit point. -/
  | tableAppend (id : Nat)
  /-- ABORT (R309): ADMIN item that aborts a target item by queue and TAG, ordered against its commit point. -/
  | abort (id : Nat)
  /-- RESUME_QUEUE (R308): ADMIN item that unfreezes a queue, optionally flushing its owned descriptors. -/
  | resumeQueue (id : Nat)
  /-- STATE_DUMP (R471): ADMIN item that writes snapshot sections of device state to host memory. -/
  | stateDump (id : Nat)
  /-- FN_RESIZE (R332): ADMIN item that checks and begins moving units of one resource kind between functions. -/
  | fnResize (id : Nat)
  /-- RESIZE_UNIT_MOVE (R333): a leaving unit moves to TO_FN once its condition is met, the last move being the resize's commit point. -/
  | resizeUnitMove (u : Nat)
  /-- SANITISE (R363): ADMIN item that empties a volume and zeroes every free data-area block. -/
  | sanitise (id : Nat)
  /-- FORMAT (R363): ADMIN item that formats a volume, or changes its policy with KEEP_DATA. -/
  | format (id : Nat)
  /-- POOL_FORMAT (R363): FORMAT with FVOL 0xFF that writes fresh superblocks and empties the commit log. -/
  | poolFormat (id : Nat)
  /-- DRIVE_REBUILD (R363): FORMAT with FVOL 0xFE that copies the pool onto a newly attached drive. -/
  | driveRebuild (id : Nat)
  /-- OP_PROGRESS_RECORD (R363): every 1 GiB and every 10 s a sanitise, format or rebuild records its progress in the superblock. -/
  | opProgressRecord (gib : Nat)
  /-- LEDGER_OP_END (R364): a sanitise, format or rebuild ends, clears OP_KIND and completes its item. -/
  | ledgerOpEnd
  /-- SPARE_REPORT (R470): ADMIN item that writes one entry per spare kind to host memory. -/
  | spareReport (id : Nat)
  /-- MODE_REQUEST (R441): ADMIN item that requests Drain, Retain, Maintain or OFF_READY. -/
  | modeRequest (item : Nat)
  /-- NOP (R312): item that does nothing and completes with status 0x0000. -/
  | nop (id : Nat)
  /-- RUN_GRANT (R74): when tiles become free of batch grants, waiting runs are granted tiles and a work area in deadline order. -/
  | runGrant
  /-- SCAN_BATCH (R93): a scan builds one batch from a block of a claimed segment, applying deletions and decoding planes. -/
  | scanBatch (id k : Nat)
  /-- FILTER_BATCH (R96): a filter evaluates its terms and postfix program on selected rows and clears rejected rows from SEL. -/
  | filterBatch (id k pos : Nat)
  /-- COMPUTE_BATCH (R105): a compute clause runs its operations on every selected row. -/
  | computeBatch (id k pos : Nat)
  /-- JOIN_BUILD_BATCH (R116): JOIN_BUILD writes selected rows to its breaker region directly or by partition. -/
  | joinBuildBatch (id k pos : Nat)
  /-- JOIN_PROBE_BATCH (R121): JOIN_PROBE looks up each selected probe row and produces output rows by join type. -/
  | joinProbeBatch (id k pos : Nat)
  /-- HASH_AGG_FOLD (R127): a PARTIAL or SINGLE aggregate folds selected rows into its table. -/
  | hashAggFold (id k pos : Nat)
  /-- HASH_AGG_MERGE (R128): a FINAL aggregate merges breaker entries into its table. -/
  | hashAggMerge (id k : Nat)
  /-- WINDOW_AGG_BATCH (R132): a window aggregate computes per-row window results from committed state and records pending updates. -/
  | windowAggBatch (id k pos : Nat)
  /-- SORT_BATCH (R142): SORT collects selected rows into a run and writes the run when it closes. -/
  | sortBatch (id k pos : Nat)
  /-- TOPN_BATCH (R148): TOPN keeps the first K rows in its heap and writes them as one run at the end. -/
  | topnBatch (id k pos : Nat)
  /-- MERGE_INTERMEDIATE (R145): an INTERMEDIATE MERGE merges a claimed group of runs into one run. -/
  | mergeIntermediate (id k : Nat)
  /-- MERGE_FINAL (R146): a FINAL MERGE computes splitters and emits its range of rows in rank order. -/
  | mergeFinal (id k : Nat)
  /-- EXCHANGE_SEND (R151): a sender builds per-destination fragments of an input batch and sends them against credits. -/
  | exchangeSend (id k pos : Nat)
  /-- EXCHANGE_FRAGMENT_RECEIVE (R152): a receiver takes an arriving fragment into its inbox and coalesces whole blocks into batches. -/
  | exchangeFragmentReceive (id k pos sender : Nat)
  /-- OUTPUT_BATCH (R514): an OUTPUT clause reserves or places row numbers and writes selected rows to the host buffer. -/
  | outputBatch (id k pos : Nat)
  /-- CHECKPOINT_TIMER (R77): CKPT_US or 64 µs of execution elapses and a checkpoint is taken at the next boundary. -/
  | checkpointTimer (id k : Nat)
  /-- CHECKPOINT_COMPLETE (R77): a checkpoint record lands at its home slice and the checkpoint becomes usable. -/
  | checkpointComplete (id k : Nat)
  /-- COMMIT_POINT (R78): an item reaches its commit point and the commit gate releases its held effects together. -/
  | commitPoint (id : Nat)
  /-- MSIX_COALESCE_TIMEOUT (R310): COAL_US elapses since the first unsignalled entry and the MSI-X message is sent. -/
  | msixCoalesceTimeout (d : Nat)
  /-- CLUSTER_WAKE_COMPLETE (R195): a power-gated cluster finishes its wake and kernel image copy and its tiles start. -/
  | clusterWakeComplete (c : Nat)
  /-- CLOCK_GATED_WAKE_DONE (R160): a clock-gated cluster finishes its 0.4 µs wake and runs the placed entry. -/
  | clockGatedWakeDone (c : Nat)
  /-- CLUSTER_POWER_GATE (R169): a cluster whose tiles have been free for SLEEP_US is power-gated unless kept warm. -/
  | clusterPowerGate (c : Nat)
  /-- SCHED_WIN_SNAPSHOT (R172): a write to SCHED_WIN_SEL copies the selected entry into SCHED_WIN_DATA0 to 4. -/
  | schedWinSnapshot (p : Path) (v : Nat)
  /-- INGEST_FRAME (R174): an ingest port receives a whole Ethernet frame and serves or drops it. -/
  | ingestFrame (port : Nat) (f : List Byte)
  /-- REPLY_CACHE_EXPIRY (R184): a DONE entry 10 s old is removed and its gateway floor rises. -/
  | replyCacheExpiry
  /-- LAYOUT_VALIDATE (R181): a write of ING_LAYOUT_CTL.VALID = 1 checks the layout and sets VALID or ERR. -/
  | layoutValidate (p : Path)
  /-- LAYOUT_INVALIDATE (R181): a write of VALID = 0 clears VALID unless the layout is bound. -/
  | layoutInvalidate (p : Path)
  /-- LAYOUT_MEM_WRITE (R181): a write to ING_LAYOUT_MEM takes effect only while VALID is 0. -/
  | layoutMemWrite (p : Path) (off : Nat) (bytes : List Byte)
  /-- GW_FLOOR_WRITE (R184): a write to ING_GW_FLOOR raises a gateway floor and is ignored when lower. -/
  | gwFloorWrite (p : Path) (v : Nat)
  /-- SYS_NOP (R198): sequencer NOP instruction. -/
  | sysNop (core : Nat)
  /-- WFE (R211): wait-for-event instruction that completes at once on an enabled pending event or stops the clock. -/
  | wfe (core : Nat)
  /-- WFE_WAKE (R211): an enabled event arrives at a core waiting in WFE and the WFE completes. -/
  | wfeWake (core : Nat)
  /-- SEV (R212): instruction that sets EVPEND.SEV on a core of the sender's group or on all. -/
  | sev (core : Nat)
  /-- WAITT (R213): instruction that waits until TIMECNT reaches a target. -/
  | waitt (core : Nat)
  /-- WAITT_DONE (R213): the WAITT target is reached and the wait completes. -/
  | waittDone (core : Nat)
  /-- TIMER_FIRE (R213): the armed timer reaches its target, sets EVPEND.TMR and disarms. -/
  | timerFire (core : Nat)
  /-- RETI (R219): return from exception that restores PC and SR. -/
  | reti (core : Nat)
  /-- TRAP (R218): service call instruction that raises TRAP n. -/
  | trap (core : Nat)
  /-- FENCE (R214): instruction that waits for earlier window stores or vector and pipe operations. -/
  | fence (core : Nat)
  /-- BREAK (R218): instruction that raises BREAK. -/
  | brk (core : Nat)
  /-- RET (R208): one-word return that pops the PC. -/
  | ret (core : Nat)
  /-- MOVC (R197): moves a control register to or from a D or A register. -/
  | movc (core : Nat)
  /-- ALU (R199): 16-bit ALU operation between D registers. -/
  | alu (core : Nat)
  /-- ALUX (R199): extended 16-bit ALU operation between D registers. -/
  | alux (core : Nat)
  /-- ALUI (R199): ALU operation with a 16-bit immediate. -/
  | alui (core : Nat)
  /-- ALUQ (R198): short ALU operation with a 5-bit immediate. -/
  | aluq (core : Nat)
  /-- AOP (R199): address-register operation. -/
  | aop (core : Nat)
  /-- ADDAI (R198): adds a sign-extended immediate to an A register. -/
  | addai (core : Nat)
  /-- LIA (R198): loads a 24-bit immediate into an A register. -/
  | lia (core : Nat)
  /-- LD (R200): loads a D or A register from memory. -/
  | ld (core : Nat)
  /-- ST (R200): stores a D or A register to memory. -/
  | st (core : Nat)
  /-- LDM (R202): loads 2 or 4 words into consecutive D registers. -/
  | ldm (core : Nat)
  /-- STM (R202): stores 2 or 4 consecutive D registers. -/
  | stm (core : Nat)
  /-- ACLD (R203): loads an accumulator's five-word image. -/
  | acld (core : Nat)
  /-- ACST (R203): stores an accumulator's five-word image. -/
  | acst (core : Nat)
  /-- ACLDN (R203): loads a PACK9 lane into an accumulator. -/
  | acldn (core : Nat)
  /-- ACSTN (R203): stores an accumulator as a PACK9 lane. -/
  | acstn (core : Nat)
  /-- ACOP (R204): 72-bit accumulator arithmetic, shift or move. -/
  | acop (core : Nat)
  /-- ACXFER (R206): moves one word between an accumulator and a D register. -/
  | acxfer (core : Nat)
  /-- BRD (R207): compares D registers and branches. -/
  | brd (core : Nat)
  /-- BRA (R207): compares A registers and branches. -/
  | bra (core : Nat)
  /-- BRAC (R205): compares accumulators and branches. -/
  | brac (core : Nat)
  /-- DBNZ (R207): decrements a D register and branches if nonzero. -/
  | dbnz (core : Nat)
  /-- JMP (R210): jumps to a 24-bit immediate address. -/
  | jmp (core : Nat)
  /-- JMPR (R210): jumps to the address in an A register. -/
  | jmpr (core : Nat)
  /-- CALL (R208): pushes masked registers and the return PC and jumps. -/
  | call (core : Nat)
  /-- RETM (R208): pops the PC and masked registers. -/
  | retm (core : Nat)
  /-- PUSHM (R209): pushes masked registers. -/
  | pushm (core : Nat)
  /-- POPM (R208): pops masked registers. -/
  | popm (core : Nat)
  /-- MOVS (R216): string move, element by element. -/
  | movs (core : Nat)
  /-- FILLS (R216): string fill with a D register value. -/
  | fills (core : Nat)
  /-- CMPS (R216): string compare that stops at a mismatch. -/
  | cmps (core : Nat)
  /-- SCANS (R216): string scan for a match or non-match. -/
  | scans (core : Nat)
  /-- ILLEGAL_OPCODE (R198): a reserved opcode, field value or word 0x0000 raises ILLEGAL with no effect. -/
  | illegalOpcode (core : Nat)
  /-- INTERRUPT_ENTRY (R219): a pending DEBUG, DISPATCH or CKPT interrupt is taken at a boundary. -/
  | interruptEntry (core : Nat) (debug : Bool)
  /-- WINDOW_LOAD_DATA (R194): data of a window load returns and the stalled core continues. -/
  | windowLoadData (core : Nat)
  /-- VARITH (R231): vector NULL-aware arithmetic. -/
  | varith (core : Nat)
  /-- VLOGIC (R230): vector bitwise and shift operations on raw patterns. -/
  | vlogic (core : Nat)
  /-- VCMP (R231): vector compare into a predicate or BOOL stream. -/
  | vcmp (core : Nat)
  /-- VSCALE (R231): vector scale up or down by a power of ten. -/
  | vscale (core : Nat)
  /-- VMULW (R232): vector exact 144-bit multiply into a register pair. -/
  | vmulw (core : Nat)
  /-- VDOT4 (R232): vector sum of four 18-bit products added into d. -/
  | vdot4 (core : Nat)
  /-- VDOT2W (R232): vector two-term 144-bit dot product accumulate. -/
  | vdot2w (core : Nat)
  /-- VDIV (R231): vector division on the tile's divider. -/
  | vdiv (core stop : Nat)
  /-- VLD (R233): vector load. -/
  | vld (core : Nat)
  /-- VST (R233): vector store. -/
  | vst (core : Nat)
  /-- VLDFF (R234): first-fault unit-stride vector load. -/
  | vldff (core : Nat)
  /-- VGATHER (R233): vector gather by index. -/
  | vgather (core : Nat)
  /-- VGATHERFF (R234): first-fault vector gather. -/
  | vgatherff (core : Nat)
  /-- VSCATTER (R233): vector scatter by index in ascending lane order. -/
  | vscatter (core : Nat)
  /-- VCOMPACT (R232): packs selected elements and sets VOUT. -/
  | vcompact (core : Nat)
  /-- VHASH (R235): vector hash step START or NEXT. -/
  | vhash (core : Nat)
  /-- VMEMB (R236): vector set membership, lookup or sorted search. -/
  | vmemb (core : Nat)
  /-- VSEL (R228): vector select by predicate. -/
  | vsel (core : Nat)
  /-- VPRED (R230): predicate register operation. -/
  | vpred (core : Nat)
  /-- VXFER (R230): moves between vectors, predicates, accumulators and D registers. -/
  | vxfer (core : Nat)
  /-- VCONV (R231): vector conversion F2D, NARROW or PTOB. -/
  | vconv (core : Nat)
  /-- VCTL (R226): reads or writes a vector control or stream register. -/
  | vctl (core : Nat)
  /-- VPIPE (R244): queues a pipe command for the codec, sort network or merge engine. -/
  | vpipe (core : Nat)
  /-- VECTOR_CHAIN (R238): a closing long-form link issues and the chain processes its elements group by group. -/
  | vectorChain (core stop : Nat)
  /-- PIPE_DECODE (R244): pipe DECODE command completes, joining decoded planes into lanes and writing STATUS. -/
  | pipeDecode (core : Nat)
  /-- PIPE_ENCODE (R244): pipe ENCODE command completes, coding a block and writing RESULT and STATUS. -/
  | pipeEncode (core : Nat)
  /-- PIPE_SORT32 (R244): pipe SORT32 command completes, ordering up to 32 rows. -/
  | pipeSort32 (core : Nat)
  /-- PIPE_MERGE (R244): pipe MERGE command completes, emitting merged rows and advancing the block. -/
  | pipeMerge (core : Nat)
  /-- PIPE_ESCPOP (R244): pipe ESCPOP command completes with the escape popcount. -/
  | pipeEscpop (core : Nat)
  /-- CACHE_ACCESS (R248): a request reaches its home slice and is served by hit, fill or pass-through; `fn` carries the tag's function and whether it marks a reservation (R16), `err` the way error met (R259) and the item the engine works for, if any (R15). -/
  | cacheAccess (init : Nat) (fn : Nat × Bool) (addr n : Nat) (bytes : Option (List Byte)) (stream : Nat) (err : Nat × Option Nat)
  /-- WAY_RETIRE_DONE (R260): the retirement copy ends and waiting accesses proceed. -/
  | wayRetireDone (slice w : Nat) (bad : List Nat)
  /-- SC_CLEAN (R255): SC_OP command CLEAN writes back dirty lines of a range. -/
  | scClean (p : Path)
  /-- SC_CLEAN_INVAL (R255): SC_OP command CLEAN_INVAL writes back and invalidates lines of a range. -/
  | scCleanInval (p : Path)
  /-- SC_LOCK_LOAD (R252): SC_OP command LOCK_LOAD places lines of a range in locked ways. -/
  | scLockLoad (p : Path)
  /-- SC_OP_DONE (R255): every write-back of a maintenance command has taken effect and OP_BUSY falls. -/
  | scOpDone
  /-- SC_LOCK_WRITE (R252): a write to SC_LOCK locks or unlocks ways, ignoring scratch and powered-down ways. -/
  | scLockWrite (p : Path) (v : Nat)
  /-- CACHE_DISABLE (R257): a write of SC_CTL.EN = 0 starts the clean of every cache way. -/
  | cacheDisable (p : Path)
  /-- CACHE_DISABLE_DONE (R257): the disable clean ends and DRAM requests pass without allocation. -/
  | cacheDisableDone
  /-- CACHE_ENABLE (R257): a write of SC_CTL.EN = 1 enables the cache and stops a disable clean. -/
  | cacheEnable (p : Path)
  /-- WAY_POWER_DOWN (R258): setting an SC_PWR.OFF bit cleans and invalidates that way and removes its power. -/
  | wayPowerDown (p : Path) (v : Nat)
  /-- WAY_POWER_OFF_DONE (R258): a named way has lost power and PWR_PENDING falls. -/
  | wayPowerOffDone (w : Nat)
  /-- WAY_POWER_UP (R258): clearing an SC_PWR.OFF bit powers the way up empty. -/
  | wayPowerUp (p : Path) (v : Nat)
  /-- SCRATCH_CONVERT (R253): a write of VALID = 1 to a scratch slot converts its way to zeroed scratch. -/
  | scratchConvert (p : Path) (q v : Nat)
  /-- SCRATCH_READY (R253): the conversion completes and READY becomes 1. -/
  | scratchReady (q : Nat)
  /-- SCRATCH_RELEASE (R253): a write of VALID = 0 returns the way to the cache, empty. -/
  | scratchRelease (p : Path) (q v : Nat)
  /-- DRAM_READ (R267): a line is read from its subchannel, decoded and handled by the line-code outcome; `l` carries the line and the request's port (R270). -/
  | dramRead (l : Nat × Nat) (d0 d1 d2 pin : Nat)
  /-- ROW_REPAIR_DONE (R277): a repair ends and the held bank is released; `bank` carries the bank and what the decoder found in each line of the row (R277 step 2). -/
  | rowRepairDone (sc : Nat) (bank : Nat × List (Nat × Nat × Nat × Nat))
  /-- DRAM_WRITE (R272): a write enters its subchannel's write queue or waits at its memory stop; `l` carries the line and the request's port (R270). -/
  | dramWrite (l : Nat × Nat) (bytes : List Byte) (bad : Bool)
  /-- WRITE_BATCH_DRAIN (R272): queued writes are drained in a batch when 48 are queued or no read waits. -/
  | writeBatchDrain (sc n : Nat)
  /-- REFRESH (R274): a due refresh of a subchannel is performed at its current rate. -/
  | refresh (sc : Nat)
  /-- REFRESH_RATE_POLL (R274): every 1 ms the controller reads each device's refresh-rate report. -/
  | refreshRatePoll (rates : List Nat)
  /-- PATROL_SCRUB_READ (R281): the patrol scrub reads its next line at port 6. -/
  | patrolScrubRead (sc d0 d1 d2 pin : Nat)
  /-- SELF_REFRESH_ENTRY (R280): in Idle a subchannel idle for SR_IDLE_US enters self-refresh. -/
  | selfRefreshEntry (sc : Nat)
  /-- DELAY_APPLY (R276): a write to DMC_DLY_APPLY sets a channel's pending bit for its shadow delays. -/
  | delayApply (p : Path) (v : Nat)
  /-- DELAY_COPY (R276): at the channel's next refresh the shadow delays and bin are copied into use. -/
  | delayCopy (ch : Nat)
  /-- DELAY_SHADOW_WRITE (R276): a write to DMC_DLY_VAL or DMC_DLY_BIN updates the shadow unless the channel is pending. -/
  | delayShadowWrite (p : Path) (bin : Bool) (v : Nat)
  /-- PPR_SOFT (R278): DMC_PPR_CMD SOFT applies a soft repair to a row. -/
  | pprSoft (p : Path) (v : Nat)
  /-- PPR_HARD (R278): DMC_PPR_CMD HARD makes a repair permanent, only in Maintain. -/
  | pprHard (p : Path) (v : Nat)
  /-- DMC_CTL_WRITE (R282): a write to DMC_CTL that leaves NRR_K unchanged when out of range. -/
  | dmcCtlWrite (p : Path) (v : Nat)
  /-- DMA_CHANNEL_GRANT (R320): a waiting transfer takes a free channel of its level. -/
  | dmaChannelGrant
  /-- DMA_SEGMENT_END (R322): a segment's count ends under its barrier and the next segment starts; `hostErr` says whether the host answered the segment's source read, and the read-back of its barrier, with an error (R319). -/
  | dmaSegmentEnd (c : Nat) (hostErr : Bool × Bool)
  /-- VF_ENABLE (R327): setting SR-IOV VF Enable brings virtual functions into existence. -/
  | vfEnable (n : Nat)
  /-- VF_ENABLE_CLEAR (R327): clearing VF Enable resets every virtual function and returns its resources to FN 0. -/
  | vfEnableClear
  /-- LEDGER_DATA_WRITE_DONE (R346): every data write of a command completes and its commit sector is issued. -/
  | ledgerDataWriteDone (u : Nat) (bad : List (Nat × Nat))
  /-- COMMIT_SECTOR_DONE (R347): a commit sector completes on every in-service drive and commits become locally durable in SEQ order. -/
  | commitSectorDone (u : Nat) (bad : Option Nat)
  /-- SNAPSHOT_DONE (R366): the snapshot's superblock is written and waiting commits proceed. -/
  | snapshotDone
  /-- LEDGER_READ_DONE (R344): blocks requested from a drive are delivered and the READ completes. -/
  | ledgerReadDone (k : Nat) (bad : List (Nat × Nat))
  /-- APPEND_GROUP_CLOSE (R349): an APPEND group closes at GROUP_US, 64 pages or a FLUSH and its pages are written. -/
  | appendGroupClose (vol : Nat)
  /-- PEER_RSP_TIMEOUT (R356): a forwarded command without RSP within RSP_TMO_MS is resent or fails with LEDGER_PEER_FAIL. -/
  | peerRspTimeout (u : Nat)
  /-- XFER_GRANT_TIMEOUT (R359): a grant window expires without the declared data and the command fails with LEDGER_UNDERRUN. -/
  | xferGrantTimeout (k : Nat)
  /-- PAYLOAD_FLIT (R371): a PAYLOAD flit is received, checked for CRC and FSEQ order, and accepted or discarded with RETRY_REQ. -/
  | payloadFlit (n : Nat) (f : List Byte) (corr uncorr : Nat)
  /-- IDLE_FLIT (R371): an IDLE flit is received and its acknowledgement and credits taken. -/
  | idleFlit (n : Nat) (f : List Byte) (corr uncorr : Nat)
  /-- RETRY_REQ (R372): a RETRY_REQ flit makes the sender resend every flit from the named FSEQ. -/
  | retryReq (n : Nat) (f : List Byte) (corr uncorr : Nat)
  /-- RETRY_REQ_REPEAT (R371): a RETRY_REQ is repeated every 2 × RTT_US until the flit arrives. -/
  | retryReqRepeat (n : Nat)
  /-- SWAP_REQ (R381): a SWAP_REQ flit makes the sender move a lane's symbols to the spare and mark SWAP_AT. -/
  | swapReq (n : Nat) (f : List Byte) (corr uncorr : Nat)
  /-- LANE_FAULT (R381): a receiver loses lock or sees excess corrections on a lane and starts a swap or takes the port DOWN. -/
  | laneFault (n lane : Nat)
  /-- TRAIN_FLIT (R379): a TRAIN flit exchanges DEVSER, credits and FSEQ and completes training to UP. -/
  | trainFlit (n devser nextF rtt : Nat)
  /-- LINK_SILENT (R378): no good flit for 10 ms takes an UP port DOWN. -/
  | linkSilent (n : Nat)
  /-- RETRAIN_DELAY (R378): the DOWN delay expires and the port enters TRAINING. -/
  | retrainDelay (n : Nat)
  /-- BRIDY_CMD (R374): a CMD packet is accepted at the target, binding a pre-grant or awaiting a bound grant. -/
  | bridyCmd (n : Nat)
  /-- XFER_RDY (R375): an XFER_RDY packet gives the initiator a pre-grant or a bound grant for its DATA. -/
  | xferRdy (n : Nat)
  /-- DATA_PACKET (R376): a DATA packet is placed in its command's bound buffer or discarded. -/
  | dataPacket (n : Nat)
  /-- RSP_PACKET (R355): an RSP packet reports a forwarded command's outcome to the Ledger engine. -/
  | rspPacket (n : Nat)
  /-- MSG_PACKET (R374): a MSG packet delivers a message between the devices' Frame firmware. -/
  | msgPacket (n : Nat)
  /-- MGMT_PACKET (R427): a MGMT packet carries a request from the peer's Sill. -/
  | mgmtPacket (n : Nat)
  /-- BRIDY_PORT_ENABLE (R378): a write of BRY_PORTn_CTL.EN = 1 starts training. -/
  | bridyPortEnable (p : Path) (n v : Nat)
  /-- BRIDY_PORT_DISABLE (R378): a write of EN = 0 disables the port and discards its replay state from HALT. -/
  | bridyPortDisable (p : Path) (n v : Nat)
  /-- TX_EPOCH_CHANGE (R382): a change of TX_EPOCH switches the sending key slot and restarts PCTR at 0. -/
  | txEpochChange (p : Path) (n v : Nat)
  /-- KEY_LOAD (R388): CIPH_KEY_CMD LOAD checks the staged key and loads the slot, zeroising the staging. -/
  | keyLoad (p : Path) (v : Nat)
  /-- KEY_ERASE (R389): CIPH_KEY_CMD ERASE makes a slot read absent to new items. -/
  | keyErase (p : Path) (v : Nat)
  /-- STAGING_ZEROISE (R388): a CIPH_KEY_CMD of another value zeroises the staging data only. -/
  | stagingZeroise (p : Path) (v : Nat)
  /-- KEY_ERASE_DONE (R389): the last user of an erasing slot ends and its key bytes are zeroised. -/
  | keyEraseDone (k : Nat)
  /-- CIPHER_MESSAGE_DONE (R398): a cipher message part ends, writes its tag or context and frees its core for the next request. -/
  | cipherMessageDone (a : Nat) (pair : Option Nat)
  /-- DIGEST_MESSAGE_DONE (R402): a digest part ends and its digest, comparison or context is written. -/
  | digestMessageDone (a : Nat) (pair : Option Nat)
  /-- CAM_WINDOW_WRITE (R408): a window write to a CAM entry takes effect, discarded for a VALID entry's fields. -/
  | camWindowWrite (init fn addr : Nat) (bytes : List Byte)
  /-- CAM_LOOKUP (R409): a clause search finds the winning matching entry of the function's blocks; `key` carries the key, the search's latency class and whether the CAM takes the next waiting search at once (R411). -/
  | camLookup (fn : Nat) (key : Nat × Nat × Bool)
  /-- CAM_SCRUB (R416): the scrubber checks entry parity and reloads or retires on error. -/
  | camScrub (ent err : Nat)
  /-- CAM_SPARE_LOAD_DONE (R416): the spare block is loaded and takes the logical block number. -/
  | camSpareLoadDone
  /-- STATUS (R427): Sill request that returns SEC_STATUS and SEC_DEVSER. -/
  | status (src : Nat) (data : List Byte)
  /-- ATTEST (R428): Sill request that returns a signed attestation report. -/
  | attest (src : Nat) (data : List Byte)
  /-- CERTS (R427): Sill request that returns the DeviceID and alias certificates. -/
  | certs (src : Nat) (data : List Byte)
  /-- FW_WRITE (R430): Sill request that writes image bytes into the inactive Frame slot. -/
  | fwWrite (src : Nat) (data : List Byte)
  /-- FW_COMMIT (R430): Sill request that verifies the new slot and sets TRY. -/
  | fwCommit (src : Nat) (data : List Byte) (faults : Nat)
  /-- FW_ACCEPT (R430): Sill request that makes the tried slot ACTIVE and blows SVN bits. -/
  | fwAccept (src : Nat) (data : List Byte)
  /-- DEBUG_OPEN (R420): Sill request that verifies a debug token, erases key slots and opens JTAG. -/
  | debugOpen (src : Nat) (data : List Byte) (fault : Bool)
  /-- POR_ASSERT (R496): assertion of POR_L takes the device to Off at once. -/
  | porAssert
  /-- POR_RELEASE (R502): release of POR_L starts start-up through Boot and Provision. -/
  | porRelease (shadowBad : Bool) (faults : Nat) (sens : List Int)
  /-- DRIVE_READY (R502): every drive reports ready and Frame sizes and fills the Ledger area. -/
  | driveReady (found : List (Nat × Bool × Option (List (Nat × Byte))))
  /-- DRIVE_READY_TIMEOUT (R502): a drive not ready 10 s after release reads absent and the pool proceeds without it. -/
  | driveReadyTimeout (found : List (Nat × Bool × Option (List (Nat × Byte))))
  /-- DRAM_FILL_DONE (R502): the fill and recovery end and Frame enters Idle or Maintain. -/
  | dramFillDone
  /-- MODE_AUTO_MOVE (R439): the mode controller moves among Idle, Serve and Batch as grants and entries change. -/
  | modeAutoMove
  /-- MODE_REQ_RESUME (R444): a TOP_MODE_REQ write of RESUME leaves Drain, Hold or Maintain if allowed. -/
  | modeReqResume (p : Path)
  /-- MODE_REQ_DRAIN (R442): a TOP_MODE_REQ write of DRAIN enters Drain. -/
  | modeReqDrain (p : Path) (stop : Bool)
  /-- MODE_REQ_RETAIN (R443): a TOP_MODE_REQ write of RETAIN enters Drain toward Retain. -/
  | modeReqRetain (p : Path)
  /-- MODE_REQ_MAINTAIN (R445): a TOP_MODE_REQ write of MAINTAIN enters Drain toward Maintain. -/
  | modeReqMaintain (p : Path)
  /-- MODE_REQ_OFF_READY (R442): a TOP_MODE_REQ write of OFF_READY enters Drain with ingest stopped. -/
  | modeReqOffReady (p : Path)
  /-- DRAIN_COMPLETE (R442): drain's conditions hold and the device enters its target mode or is refused Maintain. -/
  | drainComplete
  /-- DRAIN_TIMEOUT (R442): DRAIN_MS expires and every host item still in flight is aborted. -/
  | drainTimeout
  /-- WAKE_PIN (R443): WAKE_L low wakes the device from Retain into Boot. -/
  | wakePin (faults : Nat) (sens : List Int)
  /-- WAKE_TIMER (R443): DEVTIME reaches WAKE_AT and wakes the device from Retain. -/
  | wakeTimer (faults : Nat) (sens : List Int)
  /-- WAKE_SMBUS (R443): an SMBus transaction to the device's address wakes it from Retain. -/
  | wakeSmbus (faults : Nat) (sens : List Int)
  /-- PERST_DEASSERT (R497): PERST# deasserts, the host link trains, and it wakes the device from Retain. -/
  | perstDeassert (faults : Nat) (sens : List Int)
  /-- PERST_ASSERT (R497): PERST# asserts, taking the host link down and resetting every function. -/
  | perstAssert
  /-- THERMAL_SAMPLE (R446): every 1 ms every sensor is sampled and cluster and CAM steps are set. -/
  | thermalSample (temps : List Int)
  /-- POWER_ESTIMATE (R448): every 1 ms the power estimate lowers or raises unprotected clusters' TCLK ceilings. -/
  | powerEstimate (total : Nat) (perCl : List Nat)
  /-- DEVTIME_WRITE (R435): a write to AON_DEVTIME in Provision sets DEVTIME unless lower. -/
  | devtimeWrite
  /-- AON_POSTED_WRITE (R485): a write to an AON field is posted and takes effect at the next ACLK edge. -/
  | aonPostedWrite (p : Path) (off v : Nat)
  /-- DETECTED_ERROR (R456): a detected error is retried once and judged transient or lasting. -/
  | detectedError (cls unit form : Nat)
  /-- SPARE_TILE_REMAP (R462): the woken spare tile takes the failed logical number and threads replay on it. -/
  | spareTileRemap
  /-- TILE_BIST_DONE (R457): a restarted tile's self-test ends and it stays in service or is retired. -/
  | tileBistDone (p : Nat) (pass : Bool)
  /-- RECOVER_END (R460): every replayed thread regains its position and the device returns to the mode it left. -/
  | recoverEnd
  /-- CFG_PARITY_SCRUB (R481): the scrubber checks configuration instances against their parity. -/
  | cfgParityScrub (off inst : Nat) (mismatch : Bool)
  /-- CFG_PARITY_REWRITE (R482): a rewrite of a mismatching instance restores it and may return frozen queues to ACTIVE. -/
  | cfgParityRewrite (p : Path) (off v : Nat)
  /-- REGISTER_WRITE (R476): a write to a register without its own row, applied field by field under access codes. -/
  | registerWrite (p : Path) (a n v : Nat)
  /-- ACLK_EDGE (R435): at each ACLK edge, DEVTIME advances by 833 or 834 ns, the fabric timebase reloads, AON register copies refresh and posted AON writes take effect. -/
  | aclkEdge
  /-- SWAP_REQ_REPEAT (R381): a receiver that has not yet seen SWAP_AT resends SWAP_REQ every 10 µs. -/
  | swapReqRepeat (n : Nat)
  /-- DRIVE_STOPS_ANSWERING (R360): a drive that stops answering is retired from the pool, and commands complete on the remaining drive with DEGRADED set. -/
  | driveStopsAnswering (d : Nat)
deriving DecidableEq, Repr

end Sys2Proof
end

