-- ==== Sys2Proof/Config.lean ====
section
/-! DEFINITION. What the spec leaves open: opaque constants that no proof can evaluate, applied to the free-value counter of
the state (assumption 2). -/

namespace Sys2Proof.Machine
open Sys2Proof

/-- Tile time spent in a clause (C_BUSY_NS, Table 4-9): timing is left out, so the number is free (assumption 7). -/
opaque Config.busyNs : Nat → BitVec 64

/-- Bytes of an output buffer after a failed decode, which R60 leaves unspecified, by free-value index and offset. -/
opaque Config.freeByte : Nat → Nat → BitVec 8

/-- The bytes that a STRING handle which comes from no table names, by handle and offset (assumption 35). -/
opaque Config.looseString : Lane → Nat → BitVec 8

/-- Bytes of the device wrap key, which Sill derives from the fuse secret and nothing returns (R397). -/
opaque Config.wrapKeyByte : Nat → BitVec 8

/-- A result field that no rule gives a value (assumption 19). -/
opaque Config.freeResult : Nat → BitVec 64

/-- 64 bits of the security island's entropy (R339). -/
opaque Config.entropy : Nat → BitVec 64

/-- Whether a STANDING plan of a function (keyed fn * 65536 + plan) journals its decisions, and to which volume: the plan image
has no field for it (assumption 20). -/
opaque Config.journalVol : Nat → Option (BitVec 6)

/-- Payload length and bytes of a journal record, which no rule lays out (assumption 20). -/
opaque Config.journalLen : Nat → BitVec 12
opaque Config.journalByte : Nat → Nat → BitVec 8

/-- The mask ROM of the Sill core, by word (R192): the spec gives no firmware. -/
opaque Config.romWord : Nat → BitVec 16

/-- The boot flash as manufacture left it (Table 20-2). -/
opaque Config.flashByte : Nat → BitVec 8

/-- The fuse block: DEVSER, and the digests of its four key slots, by slot and byte (R422). -/
opaque Config.devser : BitVec 64
opaque Config.fuseDigest : Nat → Nat → BitVec 8

/-- Does the factory record verify under the DeviceID key and name DEVSER (R423 step 6)? The record's layout is not given. -/
opaque Config.factoryOk : Bool

/-- What the body of a Frame image puts into byte `a` of Frame core `k`'s memory (word addresses doubled), and byte `a` of the
tile kernel image: the layout of the body is not given (R421). -/
opaque Config.frameByte : List (BitVec 8) → Nat → Nat → BitVec 8
opaque Config.kernelByte : List (BitVec 8) → Nat → BitVec 8

/-- Does a debug token verify under the key of fuse key slot 3 and name DEVSER (R420)? Its layout is not given. -/
opaque Config.tokenOk : List (BitVec 8) → Bool

/-- A signature made by the device, by free-value index and byte; its certificates: the DeviceID certificate (0) and the alias
certificate made at a free-value index plus 1, by byte (R426, R428). -/
opaque Config.sigByte : Nat → Nat → BitVec 8
opaque Config.certLen : Nat → BitVec 12
opaque Config.certByte : Nat → Nat → BitVec 8

/-- What Sill prints on the UART console when it enters Lockdown for a cause (R432): no rule gives the text. -/
opaque Config.uartLine : Nat → List (BitVec 8)

/-- The factory delay table: bin, subchannel and pin, TX in bits [27:16] and RX in bits [11:0] (R275). -/
opaque Config.delay : Nat → Nat → Nat → BitVec 28

/-- Refreshes that LPDDR6 allows the controller to postpone (R271). -/
opaque Config.refreshLimit : BitVec 8

/-- Bytes in the staging buffer of a DMA channel, and beats it has lost to a higher level: they show timing, which is left out
(assumption 7), by free-value index and channel. -/
opaque Config.dmaStaged : Nat → Nat → BitVec 13
opaque Config.dmaLost : Nat → Nat → BitVec 32

/-- Bytes of a 64-byte checkpoint record beyond its sequence number, which R77 does not lay out (assumption 38), by free-value index. -/
opaque Config.recordByte : Nat → BitVec 8

/-- Byte `i` of the 64-byte queue context of a STATE_DUMP, whose layout Table 22-7 does not give, as a function of what it holds: the
two bases, head, latest tail, ring tail, ring HEAD, state, backlog and error (assumption 30). -/
opaque Config.queueCtxByte : List Nat → Nat → BitVec 8

end Sys2Proof.Machine
end

