-- ==== Sys2Proof/Machine/Bits.lean ====
section
/-! DEFINITION. Bit fields, byte orders, the sorted map and the sparse memory: the operations every block is built on. -/

namespace Sys2Proof.Machine
open Sys2Proof

/-! ## Bit fields of numbers -/

/-- Bits [hi:lo] of a number. -/
def fld (w hi lo : Nat) : Nat := (w >>> lo) % 2 ^ (hi + 1 - lo)
/-- Bit `i` of a number, as a Bool. -/
def bitOf (w i : Nat) : Bool := (w >>> i) % 2 == 1
/-- A Bool as 0 or 1. -/
def b2n (b : Bool) : Nat := if b then 1 else 0
/-- Replace bits [hi:lo] of a number by `v`. -/
def setFld (w hi lo v : Nat) : Nat :=
  (w >>> (hi + 1)) <<< (hi + 1) + (v % 2 ^ (hi + 1 - lo)) <<< lo + w % 2 ^ lo
/-- Count of one bits in the low `n` bits. -/
def popcount : Nat → Nat → Nat
  | 0, _ => 0
  | n + 1, w => w % 2 + popcount n (w / 2)
/-- Number of bits needed to write `w` (0 for 0), looking at the low `n` bits. -/
def bitLen : Nat → Nat → Nat
  | 0, _ => 0
  | n + 1, w => if w == 0 then 0 else bitLen n (w / 2) + 1
/-- Round up to a multiple of `m`. -/
def alignUp (x m : Nat) : Nat := (x + m - 1) / m * m
/-- Ceiling division. -/
def ceilDiv (x m : Nat) : Nat := (x + m - 1) / m
/-- A saturating count of width `w` bits (R478: a CNT field saturates at all ones). -/
def satAdd (w x k : Nat) : Nat := min (x + k) (2 ^ w - 1)
/-- Reverse the low `n` bits. -/
def bitRev : Nat → Nat → Nat
  | 0, _ => 0
  | n + 1, w => (w % 2) * 2 ^ n + bitRev n (w / 2)

/-! ## Byte strings -/

/-- The number a little-endian byte string writes (R4). -/
def leNat : List Byte → Nat
  | [] => 0
  | b :: bs => b.toNat + 256 * leNat bs
/-- `n` little-endian bytes of a number. -/
def natLE : Nat → Nat → List Byte
  | 0, _ => []
  | n + 1, v => BitVec.ofNat 8 v :: natLE n (v / 256)
/-- The number a big-endian byte string writes. -/
def beNat (bs : List Byte) : Nat := leNat bs.reverse
/-- `n` big-endian bytes of a number. -/
def natBE (n v : Nat) : List Byte := (natLE n v).reverse
/-- Bytes `a` to `a + n - 1` of a byte string; bytes past its end read 0. -/
def sub (bs : List Byte) (a n : Nat) : List Byte :=
  let t := (bs.drop a).take n
  t ++ List.replicate (n - t.length) 0#8
/-- Little-endian field of `n` bytes at offset `a`. -/
def leAt (bs : List Byte) (a n : Nat) : Nat := leNat (sub bs a n)
/-- Big-endian field of `n` bytes at offset `a`. -/
def beAt (bs : List Byte) (a n : Nat) : Nat := beNat (sub bs a n)
/-- Cut a byte string into pieces of `n` bytes, at most `k` of them. -/
def chunks (n : Nat) : Nat → List Byte → List (List Byte)
  | 0, _ => []
  | k + 1, bs => if bs.isEmpty then [] else bs.take n :: chunks n k (bs.drop n)
/-- Signed value of an `n`-bit pattern. -/
def sgn (n v : Nat) : Int := if v % 2 ^ n < 2 ^ (n - 1) then (v % 2 ^ n : Nat) else (v % 2 ^ n : Nat) - (2 ^ n : Nat)
/-- The `n`-bit two's-complement pattern of an integer. -/
def unsgn (n : Nat) (i : Int) : Nat := (i % (2 ^ n : Nat)).toNat

/-! ## The sorted map -/

/-- The entry of `k`, if there is one. -/
def tget {α : Type} (t : Tab α) (k : Nat) : Option α := List.lookup k t
/-- The entry of `k`, or the default of an entry never written. -/
def tgetD {α : Type} (t : Tab α) (k : Nat) (d : α) : α := (tget t k).getD d
/-- Write the entry of `k`, keeping the order. -/
def tset {α : Type} : Tab α → Nat → α → Tab α
  | [], k, v => [(k, v)]
  | (j, w) :: t, k, v =>
    if j < k then (j, w) :: tset t k v
    else if j = k then (k, v) :: t
    else (k, v) :: (j, w) :: t
/-- Remove the entry of `k`. -/
def terase {α : Type} (t : Tab α) (k : Nat) : Tab α := t.filter (fun p => p.1 != k)
/-- Change the entry of `k`, starting from the default when there is none. -/
def tmod {α : Type} (t : Tab α) (k : Nat) (d : α) (f : α → α) : Tab α := tset t k (f (tgetD t k d))
/-- Change the entry of `k` if there is one. -/
def tupd {α : Type} (t : Tab α) (k : Nat) (f : α → α) : Tab α :=
  match tget t k with
  | some v => tset t k (f v)
  | none => t
/-- The lowest key not in use below `n`. -/
def tfree {α : Type} (t : Tab α) (n : Nat) : Option Nat := (List.range n).find? (fun k => (tget t k).isNone)
/-- Insert into a list in order, before elements that come no earlier. -/
def insertBy {α : Type} (le : α → α → Bool) (x : α) : List α → List α
  | [] => [x]
  | y :: ys => if le x y then x :: y :: ys else y :: insertBy le x ys
/-- A list put in order; elements of equal rank keep their order. -/
def sortBy {α : Type} (le : α → α → Bool) (xs : List α) : List α := xs.foldr (insertBy le) []
/-- Replace position `i` of a list. -/
def lset {α : Type} (l : List α) (i : Nat) (v : α) : List α := l.set i v

/-! ## The sparse memory -/

/-- The canonical form: addresses strictly rising, no cell holds 0. -/
def memWfFrom : Nat → Mem → Bool
  | _, [] => true
  | lo, (a, b) :: m => decide (lo ≤ a) && (b != 0#8) && memWfFrom (a + 1) m
/-- The canonical form of a whole memory. -/
def memWf (m : Mem) : Bool := memWfFrom 0 m
/-- One byte of memory. -/
def mread (m : Mem) (a : Nat) : Byte := (List.lookup a m).getD 0#8
/-- `n` bytes of memory from address `a`. -/
def mreads (m : Mem) (a : Nat) : Nat → List Byte
  | 0 => []
  | n + 1 => mread m a :: mreads m (a + 1) n
/-- The cells of a byte string laid at `a`, zero bytes left out. -/
def cellsAt : Nat → List Byte → Mem
  | _, [] => []
  | a, b :: bs => if b = 0#8 then cellsAt (a + 1) bs else (a, b) :: cellsAt (a + 1) bs
/-- The cells of `m` with addresses from `lo` up to but not including `hi`. -/
def mslice (m : Mem) (lo hi : Nat) : Mem := m.filter (fun c => decide (lo ≤ c.1) && decide (c.1 < hi))
/-- Replace the `n` bytes from `lo` by the cells `mid` (which lie in that range). -/
def msplice (m : Mem) (lo n : Nat) (mid : Mem) : Mem :=
  m.filter (fun c => decide (c.1 < lo)) ++ mid ++ m.filter (fun c => decide (lo + n ≤ c.1))
/-- Write a byte string. -/
def mwrite (m : Mem) (a : Nat) (bs : List Byte) : Mem := msplice m a bs.length (cellsAt a bs)
/-- Fill `n` bytes from `a` with zeros. -/
def mzero (m : Mem) (a n : Nat) : Mem := msplice m a n []
/-- Move the addresses of cells that lie at or above `lo` so that `lo` lands on `dst`. -/
def mshift (m : Mem) (lo dst : Nat) : Mem := m.map (fun c => (c.1 - lo + dst, c.2))
/-- Copy `n` bytes of memory `src` at `a` to address `b` of memory `dst`. -/
def mcopy (dst src : Mem) (a b n : Nat) : Mem := msplice dst b n (mshift (mslice src a (a + n)) a b)
/-- Little-endian number of `n` bytes at `a`. -/
def mnat (m : Mem) (a n : Nat) : Nat := leNat (mreads m a n)
/-- Write `n` little-endian bytes of a number. -/
def mput (m : Mem) (a n v : Nat) : Mem := mwrite m a (natLE n v)

end Sys2Proof.Machine
end

