-- ==== Sys2Proof/Machine/Aes.lean ====
section
/-! DEFINITION. The block ciphers of the cipher engine (R385): AES (FIPS 197) and TDES (SP 800-67), on byte strings. -/

namespace Sys2Proof.Machine
open Sys2Proof

/-! ## AES -/

/-- Multiplication by x in the AES field. -/
def aesX (a : Nat) : Nat := if a < 128 then 2 * a else (2 * a - 256) ^^^ 0x1B
/-- Product in the AES field, over the low `n` bits of `b`. -/
def aesMul : Nat → Nat → Nat → Nat
  | 0, _, _ => 0
  | n + 1, a, b => (if b % 2 = 1 then a else 0) ^^^ aesMul n (aesX a) (b / 2)
/-- `a` to the power 254, its inverse, by `n` squarings: the product of a^2, a^4 … a^128. -/
def aesInv : Nat → Nat → Nat
  | 0, _ => 1
  | n + 1, a => let q := aesMul 8 a a; aesMul 8 q (aesInv n q)
/-- Rotate a byte left. -/
def rotl8 (n x : Nat) : Nat := (x * 2 ^ n) % 256 + x / 2 ^ (8 - n)
/-- The substitution of one byte. -/
def aesSub (x : Nat) : Nat :=
  let i := aesInv 7 x
  let i := if x = 0 then 0 else i
  i ^^^ rotl8 1 i ^^^ rotl8 2 i ^^^ rotl8 3 i ^^^ rotl8 4 i ^^^ 0x63
def aesSbox : List Nat := (List.range 256).map aesSub
def aesSboxInv : List Nat := (List.range 256).map (fun y => (aesSbox.findIdx (· == y)))
def sboxAt (t : List Nat) (b : Nat) : Nat := (t[b]?).getD 0
/-- The key schedule: words of four bytes, newest first. -/
def aesSched (nk : Nat) : Nat → Nat → Nat → List (List Nat) → List (List Nat)
  | 0, _, _, ws => ws
  | n + 1, i, rcon, ws =>
    let t := (ws[0]?).getD []
    let old := (ws[nk - 1]?).getD []
    let t1 := if i % nk = 0 then
        (match (t.drop 1 ++ t.take 1).map (sboxAt aesSbox) with
        | b :: r => (b ^^^ rcon) :: r
        | [] => [])
      else if nk > 6 ∧ i % nk = 4 then t.map (sboxAt aesSbox) else t
    aesSched nk n (i + 1) (if i % nk = 0 then aesX rcon else rcon) (List.zipWith (· ^^^ ·) old t1 :: ws)
/-- Round keys of a key of 16, 24 or 32 bytes, each of 16 bytes. -/
def aesKeys (key : List Byte) : List (List Nat) :=
  let nk := key.length / 4
  let ws := (chunks 4 nk key).map (·.map BitVec.toNat)
  let all := (aesSched nk (4 * (nk + 7) - nk) nk 1 ws.reverse).reverse
  (List.range (nk + 7)).map (fun r => ((all.drop (4 * r)).take 4).flatten)
def xorN (a b : List Nat) : List Nat := List.zipWith (· ^^^ ·) a b
/-- Row shift of the column-major state by `d` (1 to encrypt, 3 to decrypt). -/
def aesShift (d : Nat) (s : List Nat) : List Nat :=
  (List.range 16).map (fun k => let r := k % 4; (s[r + 4 * ((k / 4 + d * r) % 4)]?).getD 0)
/-- Multiply each column by the circulant of the coefficients. -/
def aesMix (co : List Nat) (s : List Nat) : List Nat :=
  (List.range 16).map (fun k =>
    let r := k % 4
    let col := (s.drop (4 * (k / 4))).take 4
    (List.range 4).foldl (fun a j => a ^^^ aesMul 8 ((col[j]?).getD 0) ((co[(j + 4 - r) % 4]?).getD 0)) 0)
def toN (b : List Byte) : List Nat := b.map BitVec.toNat
def ofN (b : List Nat) : List Byte := b.map (BitVec.ofNat 8)
/-- Encrypt one block under round keys. -/
def aesEnc (ks : List (List Nat)) (blk : List Byte) : List Byte :=
  let s := xorN (toN blk) (ks.headD [])
  let s := ((ks.drop 1).dropLast).foldl (fun s k => xorN (aesMix [2, 3, 1, 1] (aesShift 1 (s.map (sboxAt aesSbox)))) k) s
  ofN (xorN (aesShift 1 (s.map (sboxAt aesSbox))) (ks.getLastD []))
/-- Decrypt one block under round keys. -/
def aesDec (ks : List (List Nat)) (blk : List Byte) : List Byte :=
  let s := xorN (toN blk) (ks.getLastD [])
  let s := ((ks.drop 1).dropLast).reverse.foldl
    (fun s k => aesMix [14, 11, 13, 9] (xorN ((aesShift 3 s).map (sboxAt aesSboxInv)) k)) s
  ofN (xorN ((aesShift 3 s).map (sboxAt aesSboxInv)) (ks.headD []))

/-! ## DES and TDES -/

/-- Pick bits of an `n`-bit number by their positions from 1, the most significant first. -/
def desPick (n : Nat) (t : List Nat) (x : Nat) : Nat := t.foldl (fun a p => 2 * a + (x >>> (n - p)) % 2) 0
/-- The initial permutation: column order 2, 4, 6, 8, 1, 3, 5, 7, bottom row first. -/
def desIP : List Nat := [2, 4, 6, 8, 1, 3, 5, 7].flatMap (fun c => (List.range 8).map (fun r => 8 * (7 - r) + c))
/-- The final permutation, its inverse. -/
def desFP : List Nat := (List.range 64).map (fun k => desIP.findIdx (· == k + 1) + 1)
/-- The expansion of 32 bits to 48. -/
def desE : List Nat := (List.range 48).map (fun k => (4 * (k / 6) + k % 6 + 31) % 32 + 1)
def desP : List Nat :=
  [16, 7, 20, 21, 29, 12, 28, 17, 1, 15, 23, 26, 5, 18, 31, 10, 2, 8, 24, 14, 32, 27, 3, 9, 19, 13, 30, 6, 22, 11, 4, 25]
def desPC1 : List Nat :=
  [57, 49, 41, 33, 25, 17, 9, 1, 58, 50, 42, 34, 26, 18, 10, 2, 59, 51, 43, 35, 27, 19, 11, 3, 60, 52, 44, 36]
  ++ [63, 55, 47, 39, 31, 23, 15, 7, 62, 54, 46, 38, 30, 22, 14, 6, 61, 53, 45, 37, 29, 21, 13, 5, 28, 20, 12, 4]
def desPC2 : List Nat :=
  [14, 17, 11, 24, 1, 5, 3, 28, 15, 6, 21, 10, 23, 19, 12, 4, 26, 8, 16, 7, 27, 20, 13, 2]
  ++ [41, 52, 31, 37, 47, 55, 30, 40, 51, 45, 33, 48, 44, 49, 39, 56, 34, 53, 46, 42, 50, 36, 29, 32]
/-- The eight substitution boxes, four rows each. -/
def desRows : List (List Nat) :=
  [[14,4,13,1,2,15,11,8,3,10,6,12,5,9,0,7], [0,15,7,4,14,2,13,1,10,6,12,11,9,5,3,8],
   [4,1,14,8,13,6,2,11,15,12,9,7,3,10,5,0], [15,12,8,2,4,9,1,7,5,11,3,14,10,0,6,13]]
  ++ [[15,1,8,14,6,11,3,4,9,7,2,13,12,0,5,10], [3,13,4,7,15,2,8,14,12,0,1,10,6,9,11,5],
   [0,14,7,11,10,4,13,1,5,8,12,6,9,3,2,15], [13,8,10,1,3,15,4,2,11,6,7,12,0,5,14,9]]
  ++ [[10,0,9,14,6,3,15,5,1,13,12,7,11,4,2,8], [13,7,0,9,3,4,6,10,2,8,5,14,12,11,15,1],
   [13,6,4,9,8,15,3,0,11,1,2,12,5,10,14,7], [1,10,13,0,6,9,8,7,4,15,14,3,11,5,2,12]]
  ++ [[7,13,14,3,0,6,9,10,1,2,8,5,11,12,4,15], [13,8,11,5,6,15,0,3,4,7,2,12,1,10,14,9],
   [10,6,9,0,12,11,7,13,15,1,3,14,5,2,8,4], [3,15,0,6,10,1,13,8,9,4,5,11,12,7,2,14]]
  ++ [[2,12,4,1,7,10,11,6,8,5,3,15,13,0,14,9], [14,11,2,12,4,7,13,1,5,0,15,10,3,9,8,6],
   [4,2,1,11,10,13,7,8,15,9,12,5,6,3,0,14], [11,8,12,7,1,14,2,13,6,15,0,9,10,4,5,3]]
  ++ [[12,1,10,15,9,2,6,8,0,13,3,4,14,7,5,11], [10,15,4,2,7,12,9,5,6,1,13,14,0,11,3,8],
   [9,14,15,5,2,8,12,3,7,0,4,10,1,13,11,6], [4,3,2,12,9,5,15,10,11,14,1,7,6,0,8,13]]
  ++ [[4,11,2,14,15,0,8,13,3,12,9,7,5,10,6,1], [13,0,11,7,4,9,1,10,14,3,5,12,2,15,8,6],
   [1,4,11,13,12,3,7,14,10,15,6,8,0,5,9,2], [6,11,13,8,1,4,10,7,9,5,0,15,14,2,3,12]]
  ++ [[13,2,8,4,6,15,11,1,10,9,3,14,5,0,12,7], [1,15,13,8,10,3,7,4,12,5,6,11,0,14,9,2],
   [7,11,4,1,9,12,14,2,0,6,10,13,15,3,5,8], [2,1,14,7,4,10,8,13,15,12,9,0,3,5,6,11]]
/-- The round function. -/
def desF (r k : Nat) : Nat :=
  let x := desPick 32 desE r ^^^ k
  let y := (List.range 8).foldl (fun a i =>
    let v := fld x (47 - 6 * i) (42 - 6 * i)
    let row := 2 * (v / 32) + v % 2
    16 * a + (((desRows[4 * i + row]?).getD [])[v / 2 % 16]?).getD 0) 0
  desPick 32 desP y
/-- Left rotations of the sixteen rounds, summed. -/
def desRot : List Nat := [1, 2, 4, 6, 8, 10, 12, 14, 15, 17, 19, 21, 23, 25, 27, 28]
/-- The sixteen round keys of an 8-byte key. -/
def desKeys (key : List Byte) : List Nat :=
  let cd := desPick 64 desPC1 (beNat key)
  let rot := fun (x n : Nat) => (x <<< n) % 2 ^ 28 + x >>> (28 - n)
  desRot.map (fun n => desPick 56 desPC2 (rot (cd >>> 28) n * 2 ^ 28 + rot (cd % 2 ^ 28) n))
/-- One DES pass with round keys in the order given. -/
def desPass (ks : List Nat) (x : Nat) : Nat :=
  let x := desPick 64 desIP x
  let z := ks.foldl (fun (p : Nat × Nat) k => (p.2, p.1 ^^^ desF p.2 k)) (x >>> 32, x % 2 ^ 32)
  desPick 64 desFP (z.2 * 2 ^ 32 + z.1)
/-- Round keys of a TDES key of 16 or 24 bytes. -/
def tdesKeys (key : List Byte) : List (List Nat) :=
  [desKeys (sub key 0 8), desKeys (sub key 8 8), desKeys (if key.length ≥ 24 then sub key 16 8 else sub key 0 8)]
def tdesEnc (ks : List (List Nat)) (blk : List Byte) : List Byte :=
  match ks with
  | [a, b, c] => natBE 8 (desPass c (desPass b.reverse (desPass a (beNat blk))))
  | _ => blk
def tdesDec (ks : List (List Nat)) (blk : List Byte) : List Byte :=
  match ks with
  | [a, b, c] => natBE 8 (desPass a.reverse (desPass b (desPass c.reverse (beNat blk))))
  | _ => blk

end Sys2Proof.Machine
end

