-- ==== Sys2Proof/Machine/CipherModes.lean ====
section
/-! DEFINITION. The modes of the cipher engine (R385): CBC, CTR, CFB-8, CFB-128 and OFB (SP 800-38A), CMAC (SP 800-38B), GCM
(SP 800-38D), and AES key wrap (RFC 3394, R397). -/

namespace Sys2Proof.Machine
open Sys2Proof

/-- A keyed block cipher. -/
structure BlockCipher where
  bytes : Nat
  enc : List Byte → List Byte
  dec : List Byte → List Byte
/-- The cipher of a slot type (Table 18-2) under a key. -/
def cipherOf (typ : Nat) (key : List Byte) : BlockCipher :=
  if typ = 4 ∨ typ = 5 then let ks := tdesKeys key; ⟨8, tdesEnc ks, tdesDec ks⟩
  else let ks := aesKeys key; ⟨16, aesEnc ks, aesDec ks⟩
def xorB (a b : List Byte) : List Byte := List.zipWith (· ^^^ ·) a b
/-- What a message carries from block to block: the fields of Table 18-7 that the modes use. -/
structure MsgCtx where
  dataBytes : Nat := 0
  aadBytes : Nat := 0
  chain : List Byte := []
  acc : List Byte := []
  held : List Byte := []
deriving DecidableEq, Repr

/-! ## Confidentiality modes -/

def cbcEnc (c : BlockCipher) : List Byte → List (List Byte) → List Byte × List Byte
  | ch, [] => ([], ch)
  | ch, p :: ps =>
    let x := c.enc (xorB p ch)
    let r := cbcEnc c x ps
    (x ++ r.1, r.2)
def cbcDec (c : BlockCipher) : List Byte → List (List Byte) → List Byte × List Byte
  | ch, [] => ([], ch)
  | ch, x :: xs =>
    let r := cbcDec c x xs
    (xorB (c.dec x) ch ++ r.1, r.2)
/-- Increment the low `w` bits of a counter block. -/
def ctrInc (w : Nat) (ch : List Byte) : List Byte :=
  let v := beNat ch
  natBE ch.length (v / 2 ^ w * 2 ^ w + (v + 1) % 2 ^ w)
def ctrRun (c : BlockCipher) (w : Nat) : List Byte → List (List Byte) → List Byte × List Byte
  | ch, [] => ([], ch)
  | ch, p :: ps =>
    let r := ctrRun c w (ctrInc w ch) ps
    (xorB p (c.enc ch) ++ r.1, r.2)
def cfb8Run (c : BlockCipher) (dec : Bool) : List Byte → List Byte → List Byte × List Byte
  | ch, [] => ([], ch)
  | ch, p :: ps =>
    let o := p ^^^ (c.enc ch).headD 0#8
    let r := cfb8Run c dec (ch.drop 1 ++ [if dec then p else o]) ps
    (o :: r.1, r.2)
def cfbRun (c : BlockCipher) (dec : Bool) : List Byte → List (List Byte) → List Byte × List Byte
  | ch, [] => ([], ch)
  | ch, p :: ps =>
    let o := xorB p (c.enc ch)
    let r := cfbRun c dec (if dec then p else o) ps
    (o ++ r.1, r.2)
def ofbRun (c : BlockCipher) : List Byte → List (List Byte) → List Byte × List Byte
  | ch, [] => ([], ch)
  | ch, p :: ps =>
    let k := c.enc ch
    let r := ofbRun c k ps
    (xorB p k ++ r.1, r.2)

/-! ## CMAC -/

/-- The subkeys: `L` doubled once (K1) or twice (K2). -/
def cmacKey (c : BlockCipher) (n : Nat) : List Byte :=
  let bits := 8 * c.bytes
  let dbl := fun (x : Nat) => if x < 2 ^ (bits - 1) then 2 * x
    else (2 * x - 2 ^ bits) ^^^ (if c.bytes = 16 then 0x87 else 0x1B)
  let l := beNat (c.enc (List.replicate c.bytes 0#8))
  natBE c.bytes (if n = 1 then dbl l else dbl (dbl l))
/-- Fold full blocks into the running MAC. -/
def cmacFold (c : BlockCipher) (acc : List Byte) (bs : List (List Byte)) : List Byte := bs.foldl (fun a b => c.enc (xorB a b)) acc
/-- One part of a CMAC message: the last full block is held back for the subkey. -/
def cmacPart (c : BlockCipher) (ctx : MsgCtx) (data : List Byte) : MsgCtx :=
  let bs := chunks c.bytes (data.length / c.bytes + 3) (ctx.held ++ data)
  match bs.getLast? with
  | none => ctx
  | some h => { ctx with acc := cmacFold c ctx.acc bs.dropLast, held := h, dataBytes := ctx.dataBytes + data.length }
/-- The MAC of a message whose parts are all in. -/
def cmacEnd (c : BlockCipher) (ctx : MsgCtx) : List Byte :=
  let n := ctx.held.length
  let b := if n = c.bytes then xorB ctx.held (cmacKey c 1)
    else xorB (ctx.held ++ 0x80#8 :: List.replicate (c.bytes - n - 1) 0#8) (cmacKey c 2)
  c.enc (xorB ctx.acc b)

/-! ## GCM -/

/-- Product of `x` and `y` in the field of GHASH: `n` bits of `x` are left, `v` is `y` shifted so far. -/
def ghMul (x : Nat) : Nat → Nat → Nat → Nat
  | 0, _, z => z
  | n + 1, v, z =>
    ghMul x n (if v % 2 = 1 then (v / 2) ^^^ 0xE1000000000000000000000000000000 else v / 2) (if bitOf x n then z ^^^ v else z)
/-- Fold a byte string, padded with zeros to whole blocks, into a GHASH value. -/
def ghash (h acc : Nat) (bs : List Byte) : Nat :=
  (chunks 16 (bs.length / 16 + 1) bs).foldl (fun a b => ghMul (a ^^^ beNat (sub b 0 16)) 128 h 0) acc
def gcmH (c : BlockCipher) : Nat := beNat (c.enc (List.replicate 16 0#8))
/-- Begin a GCM message: the first counter after J0, and the additional data. -/
def gcmStart (c : BlockCipher) (iv aad : List Byte) : MsgCtx :=
  { aadBytes := aad.length, chain := sub iv 0 12 ++ natBE 4 2, acc := natBE 16 (ghash (gcmH c) 0 aad) }
/-- One part of a GCM message: output and context. -/
def gcmPart (c : BlockCipher) (dec : Bool) (ctx : MsgCtx) (data : List Byte) : List Byte × MsgCtx :=
  let r := ctrRun c 32 ctx.chain (chunks 16 (data.length / 16 + 1) data)
  let acc := ghash (gcmH c) (beNat ctx.acc) (if dec then data else r.1)
  (r.1, { ctx with chain := r.2, acc := natBE 16 acc, dataBytes := ctx.dataBytes + data.length })
/-- The full tag of a GCM message whose parts are all in. -/
def gcmEnd (c : BlockCipher) (ctx : MsgCtx) : List Byte :=
  let s := ghash (gcmH c) (beNat ctx.acc) (natBE 8 (8 * ctx.aadBytes) ++ natBE 8 (8 * ctx.dataBytes))
  xorB (natBE 16 s) (c.enc (sub ctx.chain 0 12 ++ natBE 4 1))
/-- Seal a whole message: ciphertext and tag. -/
def gcmSeal (key iv aad pt : List Byte) : List Byte × List Byte :=
  let c := cipherOf 3 key
  let r := gcmPart c false (gcmStart c iv aad) pt
  (r.1, gcmEnd c r.2)
/-- Open a whole message: plaintext and the tag it should carry. -/
def gcmOpen (key iv aad ct : List Byte) : List Byte × List Byte :=
  let c := cipherOf 3 key
  let r := gcmPart c true (gcmStart c iv aad) ct
  (r.1, gcmEnd c r.2)

/-! ## AES key wrap (RFC 3394) -/

/-- One pass over the registers, wrapping: `t` is the step counter. -/
def wrapPass (ks : List (List Nat)) : Nat → List Byte → List (List Byte) → List Byte × List (List Byte)
  | _, a, [] => (a, [])
  | t, a, r :: rs =>
    let b := aesEnc ks (a ++ r)
    let z := wrapPass ks (t + 1) (xorB (b.take 8) (natBE 8 t)) rs
    (z.1, b.drop 8 :: z.2)
/-- One pass, unwrapping, over the registers last first. -/
def unwrapPass (ks : List (List Nat)) : Nat → List Byte → List (List Byte) → List Byte × List (List Byte)
  | _, a, [] => (a, [])
  | t, a, r :: rs =>
    let b := aesDec ks (xorB a (natBE 8 t) ++ r)
    let z := unwrapPass ks (t - 1) (b.take 8) rs
    (z.1, b.drop 8 :: z.2)
def wrapIv : List Byte := List.replicate 8 0xA6#8
/-- Wrap a byte string of whole 8-byte words. -/
def keyWrap (kek data : List Byte) : List Byte :=
  let ks := aesKeys kek
  let rs := chunks 8 (data.length / 8) data
  let z := (List.range 6).foldl (fun (p : List Byte × List (List Byte)) j => wrapPass ks (j * rs.length + 1) p.1 p.2) (wrapIv, rs)
  z.1 ++ z.2.flatten
/-- Unwrap; none when the integrity check fails. -/
def keyUnwrap (kek data : List Byte) : Option (List Byte) :=
  let ks := aesKeys kek
  let rs := chunks 8 (data.length / 8) (data.drop 8)
  let z := (List.range 6).foldl (fun (p : List Byte × List (List Byte)) j =>
    unwrapPass ks ((6 - j) * rs.length) p.1 p.2) (data.take 8, rs.reverse)
  if z.1 = wrapIv then some z.2.reverse.flatten else none

end Sys2Proof.Machine
end

