-- ==== Sys2Proof/Machine/RegTable.lean ====
section
/-! DEFINITION. The register map of FN 0's BAR0 (Table 23-5) and the field layout, access code and reset value of every
register, from the register tables of the chapters. A field whose value the block computes is `live`; reserved fields
are left out and read 0 (R5). -/

namespace Sys2Proof.Machine
open Sys2Proof

/-- Access codes of Table 23-3. `live` stands for LIVE, CNT, AON fields software does not write, and RO fields the device
sets; `aonw` for AON fields software writes. -/
inductive Acc where
  | ro | rw | rwp | wo | live | aonw
deriving DecidableEq, Repr

/-- One field of a register. -/
structure RField where
  hi : Nat
  lo : Nat
  acc : Acc
  reset : Nat
deriving DecidableEq, Repr

/-! ## Offsets -/

abbrev Reg.TOP_DEVICE_ID : Nat := 0x0
abbrev Reg.TOP_MODE : Nat := 0x8
abbrev Reg.TOP_MODE_REQ : Nat := 0x10
abbrev Reg.TOP_CFG_PAR : Nat := 0x18
abbrev Reg.TOP_CFG_PAR_CNT : Nat := 0x20
abbrev Reg.AON_STATUS : Nat := 0x100000
abbrev Reg.AON_WAKE : Nat := 0x100008
abbrev Reg.AON_DEVTIME : Nat := 0x100010
abbrev Reg.PWR_CL_SEL : Nat := 0x200000
abbrev Reg.PWR_CL_STAT : Nat := 0x200008
abbrev Reg.PWR_SENS_SEL : Nat := 0x200010
abbrev Reg.PWR_SENS : Nat := 0x200018
abbrev Reg.PWR_LIMIT : Nat := 0x200020
abbrev Reg.PWR_TRIP : Nat := 0x200028
abbrev Reg.PWR_STAT : Nat := 0x200030
abbrev Reg.SCHED_LC_BUDGET0 : Nat := 0x300000
abbrev Reg.SCHED_LC_BUDGET1 : Nat := 0x300008
abbrev Reg.SCHED_LC_BUDGET2 : Nat := 0x300010
abbrev Reg.SCHED_LC_BUDGET3 : Nat := 0x300018
abbrev Reg.SCHED_WARM : Nat := 0x300020
abbrev Reg.SCHED_RSV : Nat := 0x300028
abbrev Reg.SCHED_TILE_SEL : Nat := 0x300030
abbrev Reg.SCHED_TILE_STAT : Nat := 0x300038
abbrev Reg.SCHED_WAIT_HIST0 : Nat := 0x300040
abbrev Reg.SCHED_WAIT_HIST1 : Nat := 0x300048
abbrev Reg.SCHED_WAIT_HIST2 : Nat := 0x300050
abbrev Reg.SCHED_WAIT_HIST3 : Nat := 0x300058
abbrev Reg.SCHED_WAIT_HIST4 : Nat := 0x300060
abbrev Reg.SCHED_WAIT_HIST5 : Nat := 0x300068
abbrev Reg.SCHED_WAIT_HIST6 : Nat := 0x300070
abbrev Reg.SCHED_WAIT_HIST7 : Nat := 0x300078
abbrev Reg.SCHED_WAIT_HIST8 : Nat := 0x300080
abbrev Reg.SCHED_WAIT_HIST9 : Nat := 0x300088
abbrev Reg.SCHED_WAIT_HIST10 : Nat := 0x300090
abbrev Reg.SCHED_WAIT_HIST11 : Nat := 0x300098
abbrev Reg.SCHED_WAIT_HIST12 : Nat := 0x3000a0
abbrev Reg.SCHED_WAIT_HIST13 : Nat := 0x3000a8
abbrev Reg.SCHED_WAIT_HIST14 : Nat := 0x3000b0
abbrev Reg.SCHED_WAIT_HIST15 : Nat := 0x3000b8
abbrev Reg.SCHED_MISS0 : Nat := 0x3000c0
abbrev Reg.SCHED_MISS1 : Nat := 0x3000c8
abbrev Reg.SCHED_MISS2 : Nat := 0x3000d0
abbrev Reg.SCHED_MISS3 : Nat := 0x3000d8
abbrev Reg.SCHED_OCC : Nat := 0x3000e0
abbrev Reg.SCHED_FULL_CNT : Nat := 0x3000e8
abbrev Reg.SCHED_WIN_SEL : Nat := 0x3000f0
abbrev Reg.SCHED_WIN_DATA0 : Nat := 0x3000f8
abbrev Reg.SCHED_WIN_DATA1 : Nat := 0x300100
abbrev Reg.SCHED_WIN_DATA2 : Nat := 0x300108
abbrev Reg.SCHED_WIN_DATA3 : Nat := 0x300110
abbrev Reg.SCHED_WIN_DATA4 : Nat := 0x300118
abbrev Reg.SCHED_PLAN_SEL : Nat := 0x300120
abbrev Reg.SCHED_PLAN_INFO : Nat := 0x300128
abbrev Reg.SCHED_PLAN_DIGEST0 : Nat := 0x300130
abbrev Reg.SCHED_PLAN_DIGEST1 : Nat := 0x300138
abbrev Reg.SCHED_PLAN_DIGEST2 : Nat := 0x300140
abbrev Reg.SCHED_PLAN_DIGEST3 : Nat := 0x300148
abbrev Reg.SCHED_PLAN_DIGEST4 : Nat := 0x300150
abbrev Reg.SCHED_PLAN_DIGEST5 : Nat := 0x300158
abbrev Reg.SCHED_PLAN_CNT : Nat := 0x300160
abbrev Reg.SCHED_STATE_SEL : Nat := 0x300168
abbrev Reg.SCHED_STATE_INFO : Nat := 0x300170
abbrev Reg.SCHED_STATE_CNT : Nat := 0x300178
abbrev Reg.SCHED_STATE_POOL : Nat := 0x300180
abbrev Reg.TILE_KIMG : Nat := 0x400000
abbrev Reg.SC_CTL : Nat := 0x500000
abbrev Reg.SC_STATUS : Nat := 0x500008
abbrev Reg.SC_PART0_CFG : Nat := 0x500010
abbrev Reg.SC_PART1_CFG : Nat := 0x500018
abbrev Reg.SC_PART2_CFG : Nat := 0x500020
abbrev Reg.SC_PART3_CFG : Nat := 0x500028
abbrev Reg.SC_PART4_CFG : Nat := 0x500030
abbrev Reg.SC_PART5_CFG : Nat := 0x500038
abbrev Reg.SC_PART6_CFG : Nat := 0x500040
abbrev Reg.SC_PART7_CFG : Nat := 0x500048
abbrev Reg.SC_LOCK : Nat := 0x500050
abbrev Reg.SC_PWR : Nat := 0x500058
abbrev Reg.SC_FN_SEL : Nat := 0x500060
abbrev Reg.SC_FN_PART : Nat := 0x500068
abbrev Reg.SC_SCRATCH_SLOT0 : Nat := 0x500070
abbrev Reg.SC_SCRATCH_SLOT1 : Nat := 0x500078
abbrev Reg.SC_SCRATCH_SLOT2 : Nat := 0x500080
abbrev Reg.SC_SCRATCH_SLOT3 : Nat := 0x500088
abbrev Reg.SC_SCRATCH_SLOT4 : Nat := 0x500090
abbrev Reg.SC_SCRATCH_SLOT5 : Nat := 0x500098
abbrev Reg.SC_SCRATCH_SLOT6 : Nat := 0x5000a0
abbrev Reg.SC_SCRATCH_SLOT7 : Nat := 0x5000a8
abbrev Reg.SC_SCRATCH_SLOT8 : Nat := 0x5000b0
abbrev Reg.SC_SCRATCH_SLOT9 : Nat := 0x5000b8
abbrev Reg.SC_SCRATCH_SLOT10 : Nat := 0x5000c0
abbrev Reg.SC_SCRATCH_SLOT11 : Nat := 0x5000c8
abbrev Reg.SC_OP : Nat := 0x5000d0
abbrev Reg.SC_OP_BASE : Nat := 0x5000d8
abbrev Reg.SC_OP_LEN : Nat := 0x5000e0
abbrev Reg.SC_WAY_SEL : Nat := 0x5000e8
abbrev Reg.SC_WAY_STAT : Nat := 0x5000f0
abbrev Reg.SC_ERR_CNT : Nat := 0x5000f8
abbrev Reg.SC_LOCKED_INVAL : Nat := 0x500100
abbrev Reg.SC_LOCK_MISS : Nat := 0x500108
abbrev Reg.SC_OP_DISCARD : Nat := 0x500110
abbrev Reg.DMC_CTL : Nat := 0x600000
abbrev Reg.DMC_PORT0_TGT : Nat := 0x600008
abbrev Reg.DMC_PORT1_TGT : Nat := 0x600010
abbrev Reg.DMC_PORT2_TGT : Nat := 0x600018
abbrev Reg.DMC_PORT3_TGT : Nat := 0x600020
abbrev Reg.DMC_PORT4_TGT : Nat := 0x600028
abbrev Reg.DMC_PORT5_TGT : Nat := 0x600030
abbrev Reg.DMC_PORT6_TGT : Nat := 0x600038
abbrev Reg.DMC_PORT7_TGT : Nat := 0x600040
abbrev Reg.DMC_STATUS : Nat := 0x600048
abbrev Reg.DMC_CH_SEL : Nat := 0x600050
abbrev Reg.DMC_CH_STAT : Nat := 0x600058
abbrev Reg.DMC_DLY_SEL : Nat := 0x600060
abbrev Reg.DMC_DLY_VAL : Nat := 0x600068
abbrev Reg.DMC_DLY_BIN : Nat := 0x600070
abbrev Reg.DMC_DLY_APPLY : Nat := 0x600078
abbrev Reg.DMC_DLY_PEND : Nat := 0x600080
abbrev Reg.DMC_PPR_CMD : Nat := 0x600088
abbrev Reg.DMC_PPR_SEL : Nat := 0x600090
abbrev Reg.DMC_PPR_ENT : Nat := 0x600098
abbrev Reg.DMC_EPOCH : Nat := 0x6000a0
abbrev Reg.DMC_ERR_CNT : Nat := 0x6000a8
abbrev Reg.DMC_NRR_CNT : Nat := 0x6000b0
abbrev Reg.DMC_REPAIR_CNT : Nat := 0x6000b8
abbrev Reg.QM_Q_SEL : Nat := 0x700000
abbrev Reg.QM_SQ_BASE : Nat := 0x700008
abbrev Reg.QM_CQ_BASE : Nat := 0x700010
abbrev Reg.QM_Q_CTL : Nat := 0x700018
abbrev Reg.QM_Q_CFG : Nat := 0x700020
abbrev Reg.QM_Q_STAT : Nat := 0x700028
abbrev Reg.QM_CQ_BACKLOG : Nat := 0x700030
abbrev Reg.QM_Q_ERR : Nat := 0x700038
abbrev Reg.QM_Q_CNT : Nat := 0x700040
abbrev Reg.QM_FN_INFO : Nat := 0x700048
abbrev Reg.QM_FN_STAT : Nat := 0x700050
abbrev Reg.QM_FN_EVT : Nat := 0x700058
abbrev Reg.QM_ERRLOG_STAT : Nat := 0x700060
abbrev Reg.QM_OVF_POOL : Nat := 0x700068
abbrev Reg.QM_IKEY_CTL : Nat := 0x700070
abbrev Reg.QM_IKEY_STAT : Nat := 0x700078
abbrev Reg.DMA_CTL : Nat := 0x800000
abbrev Reg.DMA_CH_SEL : Nat := 0x800008
abbrev Reg.DMA_CH_CFG : Nat := 0x800010
abbrev Reg.DMA_CH_STAT : Nat := 0x800018
abbrev Reg.DMA_CH_CNT : Nat := 0x800020
abbrev Reg.DMA_LVL_WAIT : Nat := 0x800028
abbrev Reg.FN_SEL : Nat := 0x900000
abbrev Reg.FN_RES : Nat := 0x900008
abbrev Reg.FN_STAT : Nat := 0x900010
abbrev Reg.FN_WIN_SEL : Nat := 0x900018
abbrev Reg.FN_WIN : Nat := 0x900020
abbrev Reg.FN_OWN_SEL : Nat := 0x900028
abbrev Reg.FN_OWN : Nat := 0x900030
abbrev Reg.FN_RSZ_STAT : Nat := 0x900038
abbrev Reg.ING_PORT0_CTL : Nat := 0xa00000
abbrev Reg.ING_PORT0_MAC : Nat := 0xa00008
abbrev Reg.ING_PORT0_IPV4 : Nat := 0xa00010
abbrev Reg.ING_PORT0_IPV6_HI : Nat := 0xa00018
abbrev Reg.ING_PORT0_IPV6_LO : Nat := 0xa00020
abbrev Reg.ING_PORT0_STAT : Nat := 0xa00028
abbrev Reg.ING_PORT0_DROP0 : Nat := 0xa00030
abbrev Reg.ING_PORT0_DROP1 : Nat := 0xa00038
abbrev Reg.ING_PORT0_DROP2 : Nat := 0xa00040
abbrev Reg.ING_PORT0_DROP3 : Nat := 0xa00048
abbrev Reg.ING_PORT0_DROP4 : Nat := 0xa00050
abbrev Reg.ING_PORT0_DROP5 : Nat := 0xa00058
abbrev Reg.ING_PORT0_DROP6 : Nat := 0xa00060
abbrev Reg.ING_PORT0_DROP7 : Nat := 0xa00068
abbrev Reg.ING_PORT0_DROP8 : Nat := 0xa00070
abbrev Reg.ING_PORT0_DROP9 : Nat := 0xa00078
abbrev Reg.ING_PORT0_DROP10 : Nat := 0xa00080
abbrev Reg.ING_PORT0_DROP11 : Nat := 0xa00088
abbrev Reg.ING_PORT1_CTL : Nat := 0xa00090
abbrev Reg.ING_PORT1_MAC : Nat := 0xa00098
abbrev Reg.ING_PORT1_IPV4 : Nat := 0xa000a0
abbrev Reg.ING_PORT1_IPV6_HI : Nat := 0xa000a8
abbrev Reg.ING_PORT1_IPV6_LO : Nat := 0xa000b0
abbrev Reg.ING_PORT1_STAT : Nat := 0xa000b8
abbrev Reg.ING_PORT1_DROP0 : Nat := 0xa000c0
abbrev Reg.ING_PORT1_DROP1 : Nat := 0xa000c8
abbrev Reg.ING_PORT1_DROP2 : Nat := 0xa000d0
abbrev Reg.ING_PORT1_DROP3 : Nat := 0xa000d8
abbrev Reg.ING_PORT1_DROP4 : Nat := 0xa000e0
abbrev Reg.ING_PORT1_DROP5 : Nat := 0xa000e8
abbrev Reg.ING_PORT1_DROP6 : Nat := 0xa000f0
abbrev Reg.ING_PORT1_DROP7 : Nat := 0xa000f8
abbrev Reg.ING_PORT1_DROP8 : Nat := 0xa00100
abbrev Reg.ING_PORT1_DROP9 : Nat := 0xa00108
abbrev Reg.ING_PORT1_DROP10 : Nat := 0xa00110
abbrev Reg.ING_PORT1_DROP11 : Nat := 0xa00118
abbrev Reg.ING_LAYOUT_SEL : Nat := 0xa00120
abbrev Reg.ING_LAYOUT_CTL : Nat := 0xa00128
abbrev Reg.ING_REPORT : Nat := 0xa00130
abbrev Reg.ING_GW_SEL : Nat := 0xa00138
abbrev Reg.ING_GW_FLOOR : Nat := 0xa00140
abbrev Reg.ING_CACHE_STAT : Nat := 0xa00148
abbrev Reg.LED_CTL : Nat := 0xb00000
abbrev Reg.LED_PEER : Nat := 0xb00008
abbrev Reg.LED_POOL_STAT : Nat := 0xb00010
abbrev Reg.LED_VOL_SEL : Nat := 0xb00018
abbrev Reg.LED_VOL_CFG : Nat := 0xb00020
abbrev Reg.LED_VOL_STAT : Nat := 0xb00028
abbrev Reg.LED_VOL_REC : Nat := 0xb00030
abbrev Reg.LED_VOL_FIRST : Nat := 0xb00038
abbrev Reg.LED_VOL_CNT : Nat := 0xb00040
abbrev Reg.LED_DRV_SEL : Nat := 0xb00048
abbrev Reg.LED_DRV_STAT : Nat := 0xb00050
abbrev Reg.LED_INIT_SEL : Nat := 0xb00058
abbrev Reg.LED_INIT : Nat := 0xb00060
abbrev Reg.LED_CNT : Nat := 0xb00068
abbrev Reg.BRY_PORT0_CTL : Nat := 0xc00000
abbrev Reg.BRY_PORT0_KEY : Nat := 0xc00008
abbrev Reg.BRY_PORT0_SALT : Nat := 0xc00010
abbrev Reg.BRY_PORT0_PEER : Nat := 0xc00018
abbrev Reg.BRY_PORT0_STAT : Nat := 0xc00020
abbrev Reg.BRY_PORT0_CNT0 : Nat := 0xc00028
abbrev Reg.BRY_PORT0_CNT1 : Nat := 0xc00030
abbrev Reg.BRY_PORT1_CTL : Nat := 0xc00038
abbrev Reg.BRY_PORT1_KEY : Nat := 0xc00040
abbrev Reg.BRY_PORT1_SALT : Nat := 0xc00048
abbrev Reg.BRY_PORT1_PEER : Nat := 0xc00050
abbrev Reg.BRY_PORT1_STAT : Nat := 0xc00058
abbrev Reg.BRY_PORT1_CNT0 : Nat := 0xc00060
abbrev Reg.BRY_PORT1_CNT1 : Nat := 0xc00068
abbrev Reg.CIPH_KEY_SEL : Nat := 0xd00000
abbrev Reg.CIPH_KEY_DATA0 : Nat := 0xd00008
abbrev Reg.CIPH_KEY_DATA1 : Nat := 0xd00010
abbrev Reg.CIPH_KEY_DATA2 : Nat := 0xd00018
abbrev Reg.CIPH_KEY_DATA3 : Nat := 0xd00020
abbrev Reg.CIPH_KEY_DATA4 : Nat := 0xd00028
abbrev Reg.CIPH_KEY_DATA5 : Nat := 0xd00030
abbrev Reg.CIPH_KEY_DATA6 : Nat := 0xd00038
abbrev Reg.CIPH_KEY_DATA7 : Nat := 0xd00040
abbrev Reg.CIPH_KEY_CMD : Nat := 0xd00048
abbrev Reg.CIPH_KEY_STAT : Nat := 0xd00050
abbrev Reg.CIPH_STAT : Nat := 0xd00058
abbrev Reg.CIPH_WAIT : Nat := 0xd00060
abbrev Reg.CIPH_CNT : Nat := 0xd00068
abbrev Reg.DIG_STAT : Nat := 0xe00000
abbrev Reg.DIG_CNT : Nat := 0xe00008
abbrev Reg.CAM_STAT : Nat := 0xf00000
abbrev Reg.CAM_CNT : Nat := 0xf00008
abbrev Reg.CAM_ERR_CNT : Nat := 0xf00010
abbrev Reg.SEC_STATUS : Nat := 0x1000000
abbrev Reg.SEC_DBG : Nat := 0x1000008
abbrev Reg.SEC_DEVSER : Nat := 0x1000010
abbrev Reg.SEC_DENY_CNT : Nat := 0x1000018
abbrev Reg.SEC_MBOX_CMD : Nat := 0x1000020
abbrev Reg.SEC_MBOX_STAT : Nat := 0x1000028
abbrev Reg.SEC_MBOX_PAGE : Nat := 0x1000030
abbrev Reg.RAS_SPARE_INV : Nat := 0x1100000
abbrev Reg.RAS_STATUS : Nat := 0x1100008
abbrev Reg.RAS_CL_SEL : Nat := 0x1100010
abbrev Reg.RAS_TILE_MAP : Nat := 0x1100018
abbrev Reg.RAS_CNT_SEL : Nat := 0x1100020
abbrev Reg.RAS_CNT : Nat := 0x1100028
abbrev Reg.RAS_REC : Nat := 0x1100030
abbrev Reg.TEL_EVLOG_STAT : Nat := 0x1200000

/-! ## Fields -/

def regsTOP : List (Nat × List RField) :=
  [
  (Reg.TOP_DEVICE_ID, [⟨31, 16, .ro, 29184⟩, ⟨15, 12, .live, 0⟩, ⟨11, 8, .ro, 1⟩]),
  (Reg.TOP_MODE, [⟨15, 12, .live, 0⟩, ⟨11, 8, .live, 0⟩, ⟨7, 4, .live, 0⟩, ⟨3, 0, .live, 0⟩]),
  (Reg.TOP_MODE_REQ, [⟨7, 5, .live, 0⟩, ⟨4, 4, .aonw, 0⟩, ⟨3, 0, .aonw, 0⟩]),
  (Reg.TOP_CFG_PAR, [⟨63, 63, .live, 0⟩, ⟨55, 48, .live, 0⟩, ⟨47, 32, .live, 0⟩, ⟨25, 0, .live, 0⟩]),
  (Reg.TOP_CFG_PAR_CNT, [⟨31, 0, .live, 0⟩])]

def regsAON : List (Nat × List RField) :=
  [
  (Reg.AON_STATUS, [⟨0, 0, .live, 0⟩]),
  (Reg.AON_WAKE, [⟨11, 8, .live, 0⟩, ⟨3, 0, .aonw, 9⟩]),
  (Reg.AON_DEVTIME, [⟨63, 0, .aonw, 0⟩])]

def regsPWR : List (Nat × List RField) :=
  [
  (Reg.PWR_CL_SEL, [⟨3, 0, .rw, 0⟩]),
  (Reg.PWR_CL_STAT, [⟨31, 30, .live, 0⟩, ⟨29, 29, .live, 0⟩, ⟨28, 27, .live, 0⟩, ⟨26, 20, .live, 0⟩, ⟨19, 0, .live, 0⟩]),
  (Reg.PWR_SENS_SEL, [⟨5, 0, .rw, 0⟩]),
  (Reg.PWR_SENS, [⟨11, 0, .live, 0⟩]),
  (Reg.PWR_LIMIT, [⟨8, 0, .rwp, 360⟩]),
  (Reg.PWR_TRIP, [⟨7, 0, .rwp, 125⟩]),
  (Reg.PWR_STAT, [⟨63, 32, .live, 0⟩, ⟨1, 1, .live, 0⟩, ⟨0, 0, .live, 0⟩])]

def regsSCHED : List (Nat × List RField) :=
  [
  (Reg.SCHED_LC_BUDGET0, [⟨31, 0, .rwp, 30⟩]),
  (Reg.SCHED_LC_BUDGET1, [⟨31, 0, .rwp, 1000⟩]),
  (Reg.SCHED_LC_BUDGET2, [⟨31, 0, .rwp, 100000⟩]),
  (Reg.SCHED_LC_BUDGET3, [⟨31, 0, .rwp, 10000000⟩]),
  (Reg.SCHED_WARM, [⟨31, 16, .rwp, 50⟩, ⟨3, 0, .rwp, 1⟩]),
  (Reg.SCHED_RSV, [⟨14, 0, .rwp, 4096⟩]),
  (Reg.SCHED_TILE_SEL, [⟨9, 8, .rw, 0⟩, ⟨7, 0, .rw, 0⟩]),
  (Reg.SCHED_TILE_STAT, [⟨63, 48, .live, 0⟩, ⟨47, 32, .live, 0⟩, ⟨31, 28, .live, 0⟩, ⟨14, 0, .live, 0⟩]),
  (Reg.SCHED_WAIT_HIST0, [⟨31, 0, .live, 0⟩]),
  (Reg.SCHED_WAIT_HIST1, [⟨31, 0, .live, 0⟩]),
  (Reg.SCHED_WAIT_HIST2, [⟨31, 0, .live, 0⟩]),
  (Reg.SCHED_WAIT_HIST3, [⟨31, 0, .live, 0⟩]),
  (Reg.SCHED_WAIT_HIST4, [⟨31, 0, .live, 0⟩]),
  (Reg.SCHED_WAIT_HIST5, [⟨31, 0, .live, 0⟩]),
  (Reg.SCHED_WAIT_HIST6, [⟨31, 0, .live, 0⟩]),
  (Reg.SCHED_WAIT_HIST7, [⟨31, 0, .live, 0⟩]),
  (Reg.SCHED_WAIT_HIST8, [⟨31, 0, .live, 0⟩]),
  (Reg.SCHED_WAIT_HIST9, [⟨31, 0, .live, 0⟩]),
  (Reg.SCHED_WAIT_HIST10, [⟨31, 0, .live, 0⟩]),
  (Reg.SCHED_WAIT_HIST11, [⟨31, 0, .live, 0⟩]),
  (Reg.SCHED_WAIT_HIST12, [⟨31, 0, .live, 0⟩]),
  (Reg.SCHED_WAIT_HIST13, [⟨31, 0, .live, 0⟩]),
  (Reg.SCHED_WAIT_HIST14, [⟨31, 0, .live, 0⟩]),
  (Reg.SCHED_WAIT_HIST15, [⟨31, 0, .live, 0⟩])] ++
  [
  (Reg.SCHED_MISS0, [⟨31, 0, .live, 0⟩]),
  (Reg.SCHED_MISS1, [⟨31, 0, .live, 0⟩]),
  (Reg.SCHED_MISS2, [⟨31, 0, .live, 0⟩]),
  (Reg.SCHED_MISS3, [⟨31, 0, .live, 0⟩]),
  (Reg.SCHED_OCC, [⟨48, 32, .live, 0⟩, ⟨30, 16, .live, 0⟩, ⟨14, 0, .live, 0⟩]),
  (Reg.SCHED_FULL_CNT, [⟨63, 32, .live, 0⟩, ⟨31, 0, .live, 0⟩]),
  (Reg.SCHED_WIN_SEL, [⟨31, 31, .rw, 0⟩, ⟨16, 0, .rw, 0⟩]),
  (Reg.SCHED_WIN_DATA0, [⟨63, 0, .live, 0⟩]),
  (Reg.SCHED_WIN_DATA1, [⟨63, 0, .live, 0⟩]),
  (Reg.SCHED_WIN_DATA2, [⟨63, 0, .live, 0⟩]),
  (Reg.SCHED_WIN_DATA3, [⟨63, 0, .live, 0⟩]),
  (Reg.SCHED_WIN_DATA4, [⟨63, 0, .live, 0⟩]),
  (Reg.SCHED_PLAN_SEL, [⟨23, 16, .rw, 0⟩, ⟨9, 0, .rw, 0⟩]),
  (Reg.SCHED_PLAN_INFO, [⟨63, 61, .live, 0⟩, ⟨55, 48, .live, 0⟩, ⟨47, 32, .live, 0⟩, ⟨31, 0, .live, 0⟩]),
  (Reg.SCHED_PLAN_DIGEST0, [⟨63, 0, .live, 0⟩]),
  (Reg.SCHED_PLAN_DIGEST1, [⟨63, 0, .live, 0⟩]),
  (Reg.SCHED_PLAN_DIGEST2, [⟨63, 0, .live, 0⟩]),
  (Reg.SCHED_PLAN_DIGEST3, [⟨63, 0, .live, 0⟩]),
  (Reg.SCHED_PLAN_DIGEST4, [⟨63, 0, .live, 0⟩]),
  (Reg.SCHED_PLAN_DIGEST5, [⟨63, 0, .live, 0⟩]),
  (Reg.SCHED_PLAN_CNT, [⟨63, 32, .live, 0⟩, ⟨31, 0, .live, 0⟩]),
  (Reg.SCHED_STATE_SEL, [⟨23, 16, .rw, 0⟩, ⟨5, 0, .rw, 0⟩]),
  (Reg.SCHED_STATE_INFO, [⟨63, 63, .live, 0⟩, ⟨56, 52, .live, 0⟩, ⟨51, 48, .live, 0⟩, ⟨47, 40, .live, 0⟩, ⟨39, 32, .live, 0⟩, ⟨31, 0, .live, 0⟩]),
  (Reg.SCHED_STATE_CNT, [⟨63, 32, .live, 0⟩, ⟨31, 0, .live, 0⟩])] ++
  [
  (Reg.SCHED_STATE_POOL, [⟨63, 32, .live, 0⟩, ⟨31, 0, .live, 0⟩])]

def regsTILE : List (Nat × List RField) :=
  [
  (Reg.TILE_KIMG, [⟨39, 12, .rwp, 0⟩, ⟨0, 0, .rwp, 0⟩])]

def regsSC : List (Nat × List RField) :=
  [
  (Reg.SC_CTL, [⟨7, 4, .rwp, 8⟩, ⟨1, 1, .rwp, 1⟩, ⟨0, 0, .rwp, 0⟩]),
  (Reg.SC_STATUS, [⟨9, 8, .live, 0⟩, ⟨4, 4, .live, 0⟩, ⟨3, 3, .live, 0⟩, ⟨2, 2, .live, 0⟩, ⟨1, 1, .live, 0⟩, ⟨0, 0, .live, 0⟩]),
  (Reg.SC_PART0_CFG, [⟨15, 0, .rwp, 65535⟩]),
  (Reg.SC_PART1_CFG, [⟨15, 0, .rwp, 0⟩]),
  (Reg.SC_PART2_CFG, [⟨15, 0, .rwp, 0⟩]),
  (Reg.SC_PART3_CFG, [⟨15, 0, .rwp, 0⟩]),
  (Reg.SC_PART4_CFG, [⟨15, 0, .rwp, 0⟩]),
  (Reg.SC_PART5_CFG, [⟨15, 0, .rwp, 0⟩]),
  (Reg.SC_PART6_CFG, [⟨15, 0, .rwp, 0⟩]),
  (Reg.SC_PART7_CFG, [⟨15, 0, .rwp, 0⟩]),
  (Reg.SC_LOCK, [⟨15, 0, .rwp, 0⟩]),
  (Reg.SC_PWR, [⟨15, 0, .rwp, 0⟩]),
  (Reg.SC_FN_SEL, [⟨7, 0, .rw, 0⟩]),
  (Reg.SC_FN_PART, [⟨2, 0, .rwp, 0⟩]),
  (Reg.SC_SCRATCH_SLOT0, [⟨31, 31, .rwp, 0⟩, ⟨30, 30, .ro, 0⟩, ⟨26, 24, .rwp, 0⟩, ⟨19, 16, .rwp, 0⟩, ⟨0, 0, .live, 0⟩]),
  (Reg.SC_SCRATCH_SLOT1, [⟨31, 31, .rwp, 0⟩, ⟨30, 30, .ro, 0⟩, ⟨26, 24, .rwp, 0⟩, ⟨19, 16, .rwp, 0⟩, ⟨0, 0, .live, 0⟩]),
  (Reg.SC_SCRATCH_SLOT2, [⟨31, 31, .rwp, 0⟩, ⟨30, 30, .ro, 0⟩, ⟨26, 24, .rwp, 0⟩, ⟨19, 16, .rwp, 0⟩, ⟨0, 0, .live, 0⟩]),
  (Reg.SC_SCRATCH_SLOT3, [⟨31, 31, .rwp, 0⟩, ⟨30, 30, .ro, 0⟩, ⟨26, 24, .rwp, 0⟩, ⟨19, 16, .rwp, 0⟩, ⟨0, 0, .live, 0⟩]),
  (Reg.SC_SCRATCH_SLOT4, [⟨31, 31, .rwp, 0⟩, ⟨30, 30, .ro, 0⟩, ⟨26, 24, .rwp, 0⟩, ⟨19, 16, .rwp, 0⟩, ⟨0, 0, .live, 0⟩]),
  (Reg.SC_SCRATCH_SLOT5, [⟨31, 31, .rwp, 0⟩, ⟨30, 30, .ro, 0⟩, ⟨26, 24, .rwp, 0⟩, ⟨19, 16, .rwp, 0⟩, ⟨0, 0, .live, 0⟩]),
  (Reg.SC_SCRATCH_SLOT6, [⟨31, 31, .rwp, 0⟩, ⟨30, 30, .ro, 0⟩, ⟨26, 24, .rwp, 0⟩, ⟨19, 16, .rwp, 0⟩, ⟨0, 0, .live, 0⟩]),
  (Reg.SC_SCRATCH_SLOT7, [⟨31, 31, .rwp, 0⟩, ⟨30, 30, .ro, 0⟩, ⟨26, 24, .rwp, 0⟩, ⟨19, 16, .rwp, 0⟩, ⟨0, 0, .live, 0⟩]),
  (Reg.SC_SCRATCH_SLOT8, [⟨31, 31, .rwp, 0⟩, ⟨30, 30, .ro, 0⟩, ⟨26, 24, .rwp, 0⟩, ⟨19, 16, .rwp, 0⟩, ⟨0, 0, .live, 0⟩]),
  (Reg.SC_SCRATCH_SLOT9, [⟨31, 31, .rwp, 0⟩, ⟨30, 30, .ro, 0⟩, ⟨26, 24, .rwp, 0⟩, ⟨19, 16, .rwp, 0⟩, ⟨0, 0, .live, 0⟩])] ++
  [
  (Reg.SC_SCRATCH_SLOT10, [⟨31, 31, .rwp, 0⟩, ⟨30, 30, .ro, 0⟩, ⟨26, 24, .rwp, 0⟩, ⟨19, 16, .rwp, 0⟩, ⟨0, 0, .live, 0⟩]),
  (Reg.SC_SCRATCH_SLOT11, [⟨31, 31, .rwp, 0⟩, ⟨30, 30, .ro, 0⟩, ⟨26, 24, .rwp, 0⟩, ⟨19, 16, .rwp, 0⟩, ⟨0, 0, .live, 0⟩]),
  (Reg.SC_OP, [⟨3, 0, .rw, 0⟩]),
  (Reg.SC_OP_BASE, [⟨39, 7, .rw, 0⟩]),
  (Reg.SC_OP_LEN, [⟨39, 7, .rw, 0⟩]),
  (Reg.SC_WAY_SEL, [⟨12, 8, .rw, 0⟩, ⟨4, 0, .rw, 0⟩]),
  (Reg.SC_WAY_STAT, [⟨31, 30, .live, 0⟩, ⟨29, 28, .live, 0⟩, ⟨27, 24, .live, 0⟩, ⟨12, 8, .live, 0⟩]),
  (Reg.SC_ERR_CNT, [⟨63, 32, .live, 0⟩, ⟨31, 16, .live, 0⟩, ⟨15, 0, .live, 0⟩]),
  (Reg.SC_LOCKED_INVAL, [⟨31, 0, .live, 0⟩]),
  (Reg.SC_LOCK_MISS, [⟨31, 0, .live, 0⟩]),
  (Reg.SC_OP_DISCARD, [⟨31, 0, .live, 0⟩])]

def regsDMC : List (Nat × List RField) :=
  [
  (Reg.DMC_CTL, [⟨31, 16, .rwp, 100⟩, ⟨15, 12, .rwp, 10⟩, ⟨7, 0, .rwp, 24⟩]),
  (Reg.DMC_PORT0_TGT, [⟨15, 0, .rwp, 150⟩]),
  (Reg.DMC_PORT1_TGT, [⟨15, 0, .rwp, 300⟩]),
  (Reg.DMC_PORT2_TGT, [⟨15, 0, .rwp, 1000⟩]),
  (Reg.DMC_PORT3_TGT, [⟨15, 0, .rwp, 4000⟩]),
  (Reg.DMC_PORT4_TGT, [⟨15, 0, .ro, 65535⟩]),
  (Reg.DMC_PORT5_TGT, [⟨15, 0, .rwp, 2000⟩]),
  (Reg.DMC_PORT6_TGT, [⟨15, 0, .rwp, 8000⟩]),
  (Reg.DMC_PORT7_TGT, [⟨15, 0, .rwp, 1000⟩]),
  (Reg.DMC_STATUS, [⟨4, 4, .live, 0⟩, ⟨3, 3, .live, 0⟩, ⟨2, 2, .live, 0⟩, ⟨1, 1, .live, 0⟩, ⟨0, 0, .live, 0⟩]),
  (Reg.DMC_CH_SEL, [⟨6, 0, .rw, 0⟩]),
  (Reg.DMC_CH_STAT, [⟨63, 58, .live, 0⟩, ⟨57, 56, .live, 0⟩, ⟨55, 55, .live, 0⟩, ⟨54, 51, .live, 0⟩, ⟨50, 49, .live, 0⟩, ⟨48, 44, .live, 0⟩]),
  (Reg.DMC_DLY_SEL, [⟨14, 8, .rw, 0⟩, ⟨3, 0, .rw, 0⟩]),
  (Reg.DMC_DLY_VAL, [⟨27, 16, .rwp, 0⟩, ⟨11, 0, .rwp, 0⟩]),
  (Reg.DMC_DLY_BIN, [⟨5, 0, .rwp, 0⟩]),
  (Reg.DMC_DLY_APPLY, [⟨63, 0, .wo, 0⟩]),
  (Reg.DMC_DLY_PEND, [⟨63, 0, .live, 0⟩]),
  (Reg.DMC_PPR_CMD, [⟨31, 30, .rw, 0⟩, ⟨27, 21, .rw, 0⟩, ⟨20, 17, .rw, 0⟩, ⟨16, 0, .rw, 0⟩]),
  (Reg.DMC_PPR_SEL, [⟨10, 4, .rw, 0⟩, ⟨3, 0, .rw, 0⟩]),
  (Reg.DMC_PPR_ENT, [⟨31, 30, .live, 0⟩, ⟨16, 0, .live, 0⟩]),
  (Reg.DMC_EPOCH, [⟨3, 0, .live, 0⟩]),
  (Reg.DMC_ERR_CNT, [⟨63, 32, .live, 0⟩, ⟨31, 16, .live, 0⟩, ⟨15, 0, .live, 0⟩]),
  (Reg.DMC_NRR_CNT, [⟨31, 0, .live, 0⟩]),
  (Reg.DMC_REPAIR_CNT, [⟨63, 48, .live, 0⟩, ⟨47, 32, .live, 0⟩, ⟨31, 16, .live, 0⟩, ⟨15, 0, .live, 0⟩])]

def regsQM : List (Nat × List RField) :=
  [
  (Reg.QM_Q_SEL, [⟨11, 0, .rw, 0⟩]),
  (Reg.QM_SQ_BASE, [⟨63, 12, .rwp, 0⟩]),
  (Reg.QM_CQ_BASE, [⟨63, 12, .rwp, 0⟩]),
  (Reg.QM_Q_CTL, [⟨31, 31, .rwp, 0⟩, ⟨7, 0, .live, 0⟩]),
  (Reg.QM_Q_CFG, [⟨63, 52, .rwp, 0⟩, ⟨51, 44, .rwp, 0⟩, ⟨43, 32, .rwp, 0⟩, ⟨31, 21, .rwp, 0⟩, ⟨12, 8, .rwp, 4⟩, ⟨4, 0, .rwp, 4⟩]),
  (Reg.QM_Q_STAT, [⟨63, 63, .live, 0⟩, ⟨62, 62, .live, 0⟩, ⟨61, 61, .live, 0⟩, ⟨60, 58, .live, 0⟩, ⟨47, 32, .live, 0⟩, ⟨31, 16, .live, 0⟩, ⟨15, 0, .live, 0⟩]),
  (Reg.QM_CQ_BACKLOG, [⟨10, 0, .live, 0⟩]),
  (Reg.QM_Q_ERR, [⟨63, 48, .live, 0⟩, ⟨47, 32, .live, 0⟩, ⟨31, 0, .live, 0⟩]),
  (Reg.QM_Q_CNT, [⟨63, 32, .live, 0⟩, ⟨31, 16, .live, 0⟩, ⟨15, 0, .live, 0⟩]),
  (Reg.QM_FN_INFO, [⟨43, 32, .live, 0⟩, ⟨12, 0, .live, 0⟩]),
  (Reg.QM_FN_STAT, [⟨2, 2, .live, 0⟩, ⟨1, 1, .live, 0⟩, ⟨0, 0, .live, 0⟩]),
  (Reg.QM_FN_EVT, [⟨31, 31, .rwp, 0⟩, ⟨10, 0, .rwp, 0⟩]),
  (Reg.QM_ERRLOG_STAT, [⟨63, 32, .live, 0⟩, ⟨31, 0, .live, 0⟩]),
  (Reg.QM_OVF_POOL, [⟨16, 0, .live, 0⟩]),
  (Reg.QM_IKEY_CTL, [⟨11, 0, .rwp, 60⟩]),
  (Reg.QM_IKEY_STAT, [⟨63, 32, .live, 0⟩, ⟨18, 0, .live, 0⟩])]

def regsDMA : List (Nat × List RField) :=
  [
  (Reg.DMA_CTL, [⟨1, 0, .rwp, 3⟩]),
  (Reg.DMA_CH_SEL, [⟨4, 0, .rw, 0⟩]),
  (Reg.DMA_CH_CFG, [⟨1, 0, .rwp, 0⟩]),
  (Reg.DMA_CH_STAT, [⟨63, 63, .live, 0⟩, ⟨62, 61, .live, 0⟩, ⟨60, 53, .live, 0⟩, ⟨44, 29, .live, 0⟩, ⟨13, 0, .live, 0⟩]),
  (Reg.DMA_CH_CNT, [⟨63, 32, .live, 0⟩, ⟨31, 0, .live, 0⟩]),
  (Reg.DMA_LVL_WAIT, [⟨63, 48, .live, 0⟩, ⟨47, 32, .live, 0⟩, ⟨31, 16, .live, 0⟩, ⟨15, 0, .live, 0⟩])]

def regsFN : List (Nat × List RField) :=
  [
  (Reg.FN_SEL, [⟨7, 0, .rw, 0⟩]),
  (Reg.FN_RES, [⟨63, 56, .live, 0⟩, ⟨55, 43, .live, 0⟩, ⟨42, 38, .live, 0⟩, ⟨37, 31, .live, 0⟩, ⟨30, 24, .live, 0⟩, ⟨23, 15, .live, 0⟩, ⟨14, 10, .live, 0⟩, ⟨9, 4, .live, 0⟩, ⟨3, 1, .live, 0⟩, ⟨0, 0, .live, 0⟩]),
  (Reg.FN_STAT, [⟨1, 1, .live, 0⟩, ⟨0, 0, .live, 0⟩]),
  (Reg.FN_WIN_SEL, [⟨3, 0, .rw, 0⟩]),
  (Reg.FN_WIN, [⟨63, 63, .live, 0⟩, ⟨62, 62, .live, 0⟩, ⟨58, 40, .live, 0⟩, ⟨39, 21, .live, 0⟩]),
  (Reg.FN_OWN_SEL, [⟨15, 12, .rw, 1⟩, ⟨11, 0, .rw, 0⟩]),
  (Reg.FN_OWN, [⟨8, 8, .live, 0⟩, ⟨7, 0, .live, 0⟩]),
  (Reg.FN_RSZ_STAT, [⟨63, 63, .live, 0⟩, ⟨55, 48, .live, 0⟩, ⟨47, 40, .live, 0⟩, ⟨39, 32, .live, 0⟩, ⟨31, 16, .live, 0⟩, ⟨15, 0, .live, 0⟩])]

def regsING : List (Nat × List RField) :=
  [
  (Reg.ING_PORT0_CTL, [⟨31, 31, .rwp, 0⟩, ⟨30, 30, .rwp, 0⟩, ⟨29, 29, .rwp, 0⟩, ⟨27, 16, .rwp, 0⟩, ⟨15, 0, .rwp, 0⟩]),
  (Reg.ING_PORT0_MAC, [⟨47, 0, .rwp, 0⟩]),
  (Reg.ING_PORT0_IPV4, [⟨31, 0, .rwp, 0⟩]),
  (Reg.ING_PORT0_IPV6_HI, [⟨63, 0, .rwp, 0⟩]),
  (Reg.ING_PORT0_IPV6_LO, [⟨63, 0, .rwp, 0⟩]),
  (Reg.ING_PORT0_STAT, [⟨63, 48, .live, 0⟩, ⟨47, 32, .live, 0⟩, ⟨31, 16, .live, 0⟩, ⟨15, 0, .live, 0⟩]),
  (Reg.ING_PORT0_DROP0, [⟨31, 0, .live, 0⟩]),
  (Reg.ING_PORT0_DROP1, [⟨31, 0, .live, 0⟩]),
  (Reg.ING_PORT0_DROP2, [⟨31, 0, .live, 0⟩]),
  (Reg.ING_PORT0_DROP3, [⟨31, 0, .live, 0⟩]),
  (Reg.ING_PORT0_DROP4, [⟨31, 0, .live, 0⟩]),
  (Reg.ING_PORT0_DROP5, [⟨31, 0, .live, 0⟩]),
  (Reg.ING_PORT0_DROP6, [⟨31, 0, .live, 0⟩]),
  (Reg.ING_PORT0_DROP7, [⟨31, 0, .live, 0⟩]),
  (Reg.ING_PORT0_DROP8, [⟨31, 0, .live, 0⟩]),
  (Reg.ING_PORT0_DROP9, [⟨31, 0, .live, 0⟩]),
  (Reg.ING_PORT0_DROP10, [⟨31, 0, .live, 0⟩]),
  (Reg.ING_PORT0_DROP11, [⟨31, 0, .live, 0⟩]),
  (Reg.ING_PORT1_CTL, [⟨31, 31, .rwp, 0⟩, ⟨30, 30, .rwp, 0⟩, ⟨29, 29, .rwp, 0⟩, ⟨27, 16, .rwp, 0⟩, ⟨15, 0, .rwp, 0⟩]),
  (Reg.ING_PORT1_MAC, [⟨47, 0, .rwp, 0⟩]),
  (Reg.ING_PORT1_IPV4, [⟨31, 0, .rwp, 0⟩]),
  (Reg.ING_PORT1_IPV6_HI, [⟨63, 0, .rwp, 0⟩]),
  (Reg.ING_PORT1_IPV6_LO, [⟨63, 0, .rwp, 0⟩]),
  (Reg.ING_PORT1_STAT, [⟨63, 48, .live, 0⟩, ⟨47, 32, .live, 0⟩, ⟨31, 16, .live, 0⟩, ⟨15, 0, .live, 0⟩])] ++
  [
  (Reg.ING_PORT1_DROP0, [⟨31, 0, .live, 0⟩]),
  (Reg.ING_PORT1_DROP1, [⟨31, 0, .live, 0⟩]),
  (Reg.ING_PORT1_DROP2, [⟨31, 0, .live, 0⟩]),
  (Reg.ING_PORT1_DROP3, [⟨31, 0, .live, 0⟩]),
  (Reg.ING_PORT1_DROP4, [⟨31, 0, .live, 0⟩]),
  (Reg.ING_PORT1_DROP5, [⟨31, 0, .live, 0⟩]),
  (Reg.ING_PORT1_DROP6, [⟨31, 0, .live, 0⟩]),
  (Reg.ING_PORT1_DROP7, [⟨31, 0, .live, 0⟩]),
  (Reg.ING_PORT1_DROP8, [⟨31, 0, .live, 0⟩]),
  (Reg.ING_PORT1_DROP9, [⟨31, 0, .live, 0⟩]),
  (Reg.ING_PORT1_DROP10, [⟨31, 0, .live, 0⟩]),
  (Reg.ING_PORT1_DROP11, [⟨31, 0, .live, 0⟩]),
  (Reg.ING_LAYOUT_SEL, [⟨7, 0, .rw, 0⟩]),
  (Reg.ING_LAYOUT_CTL, [⟨31, 31, .rwp, 0⟩, ⟨30, 30, .live, 0⟩, ⟨23, 16, .ro, 0⟩, ⟨15, 8, .live, 0⟩, ⟨7, 0, .live, 0⟩]),
  (Reg.ING_REPORT, [⟨63, 32, .live, 0⟩, ⟨27, 16, .rwp, 0⟩, ⟨11, 0, .rwp, 0⟩]),
  (Reg.ING_GW_SEL, [⟨15, 0, .rw, 0⟩]),
  (Reg.ING_GW_FLOOR, [⟨47, 0, .rw, 0⟩]),
  (Reg.ING_CACHE_STAT, [⟨63, 32, .live, 0⟩, ⟨20, 0, .live, 0⟩])]

def regsLED : List (Nat × List RField) :=
  [
  (Reg.LED_CTL, [⟨31, 16, .rwp, 1024⟩, ⟨15, 8, .rwp, 10⟩, ⟨7, 0, .rwp, 20⟩]),
  (Reg.LED_PEER, [⟨15, 0, .rwp, 0⟩]),
  (Reg.LED_POOL_STAT, [⟨63, 63, .live, 0⟩, ⟨62, 62, .live, 0⟩, ⟨61, 61, .live, 0⟩, ⟨60, 60, .live, 0⟩, ⟨59, 59, .live, 0⟩, ⟨58, 56, .live, 0⟩, ⟨55, 48, .live, 0⟩, ⟨47, 0, .live, 0⟩]),
  (Reg.LED_VOL_SEL, [⟨5, 0, .rw, 0⟩]),
  (Reg.LED_VOL_CFG, [⟨63, 62, .live, 0⟩, ⟨61, 60, .live, 0⟩, ⟨59, 58, .live, 0⟩, ⟨57, 57, .live, 0⟩, ⟨56, 51, .live, 0⟩, ⟨47, 40, .live, 0⟩, ⟨39, 0, .live, 0⟩]),
  (Reg.LED_VOL_STAT, [⟨63, 63, .live, 0⟩, ⟨62, 62, .live, 0⟩, ⟨47, 32, .live, 0⟩, ⟨12, 0, .live, 0⟩]),
  (Reg.LED_VOL_REC, [⟨63, 0, .live, 0⟩]),
  (Reg.LED_VOL_FIRST, [⟨63, 0, .live, 0⟩]),
  (Reg.LED_VOL_CNT, [⟨63, 32, .live, 0⟩, ⟨31, 0, .live, 0⟩]),
  (Reg.LED_DRV_SEL, [⟨0, 0, .rw, 0⟩]),
  (Reg.LED_DRV_STAT, [⟨63, 61, .live, 0⟩, ⟨31, 0, .live, 0⟩]),
  (Reg.LED_INIT_SEL, [⟨4, 0, .rw, 0⟩]),
  (Reg.LED_INIT, [⟨31, 31, .rwp, 0⟩, ⟨30, 29, .rwp, 0⟩, ⟨23, 16, .rwp, 0⟩, ⟨15, 0, .rwp, 0⟩]),
  (Reg.LED_CNT, [⟨63, 32, .live, 0⟩, ⟨31, 16, .live, 0⟩, ⟨15, 0, .live, 0⟩])]

def regsBRY : List (Nat × List RField) :=
  [
  (Reg.BRY_PORT0_CTL, [⟨31, 31, .rwp, 0⟩, ⟨29, 24, .rwp, 8⟩]),
  (Reg.BRY_PORT0_KEY, [⟨31, 31, .rwp, 0⟩, ⟨23, 18, .rwp, 0⟩, ⟨17, 12, .rwp, 0⟩, ⟨11, 6, .rwp, 0⟩, ⟨5, 0, .rwp, 0⟩]),
  (Reg.BRY_PORT0_SALT, [⟨63, 32, .rwp, 0⟩, ⟨31, 0, .rwp, 0⟩]),
  (Reg.BRY_PORT0_PEER, [⟨63, 0, .live, 0⟩]),
  (Reg.BRY_PORT0_STAT, [⟨63, 61, .live, 0⟩, ⟨60, 58, .live, 0⟩, ⟨57, 57, .live, 0⟩, ⟨56, 56, .live, 0⟩, ⟨55, 54, .live, 0⟩, ⟨53, 52, .live, 0⟩, ⟨51, 51, .live, 0⟩, ⟨31, 16, .live, 0⟩, ⟨15, 0, .live, 0⟩]),
  (Reg.BRY_PORT0_CNT0, [⟨63, 32, .live, 0⟩, ⟨31, 0, .live, 0⟩]),
  (Reg.BRY_PORT0_CNT1, [⟨63, 48, .live, 0⟩, ⟨47, 32, .live, 0⟩, ⟨31, 24, .live, 0⟩, ⟨23, 16, .live, 0⟩, ⟨15, 8, .live, 0⟩, ⟨7, 4, .live, 0⟩, ⟨3, 0, .live, 0⟩]),
  (Reg.BRY_PORT1_CTL, [⟨31, 31, .rwp, 0⟩, ⟨29, 24, .rwp, 8⟩]),
  (Reg.BRY_PORT1_KEY, [⟨31, 31, .rwp, 0⟩, ⟨23, 18, .rwp, 0⟩, ⟨17, 12, .rwp, 0⟩, ⟨11, 6, .rwp, 0⟩, ⟨5, 0, .rwp, 0⟩]),
  (Reg.BRY_PORT1_SALT, [⟨63, 32, .rwp, 0⟩, ⟨31, 0, .rwp, 0⟩]),
  (Reg.BRY_PORT1_PEER, [⟨63, 0, .live, 0⟩]),
  (Reg.BRY_PORT1_STAT, [⟨63, 61, .live, 0⟩, ⟨60, 58, .live, 0⟩, ⟨57, 57, .live, 0⟩, ⟨56, 56, .live, 0⟩, ⟨55, 54, .live, 0⟩, ⟨53, 52, .live, 0⟩, ⟨51, 51, .live, 0⟩, ⟨31, 16, .live, 0⟩, ⟨15, 0, .live, 0⟩]),
  (Reg.BRY_PORT1_CNT0, [⟨63, 32, .live, 0⟩, ⟨31, 0, .live, 0⟩]),
  (Reg.BRY_PORT1_CNT1, [⟨63, 48, .live, 0⟩, ⟨47, 32, .live, 0⟩, ⟨31, 24, .live, 0⟩, ⟨23, 16, .live, 0⟩, ⟨15, 8, .live, 0⟩, ⟨7, 4, .live, 0⟩, ⟨3, 0, .live, 0⟩])]

def regsCIPH : List (Nat × List RField) :=
  [
  (Reg.CIPH_KEY_SEL, [⟨28, 24, .rw, 0⟩, ⟨22, 16, .rw, 0⟩, ⟨11, 8, .rw, 0⟩, ⟨5, 0, .rw, 0⟩]),
  (Reg.CIPH_KEY_DATA0, [⟨63, 0, .wo, 0⟩]),
  (Reg.CIPH_KEY_DATA1, [⟨63, 0, .wo, 0⟩]),
  (Reg.CIPH_KEY_DATA2, [⟨63, 0, .wo, 0⟩]),
  (Reg.CIPH_KEY_DATA3, [⟨63, 0, .wo, 0⟩]),
  (Reg.CIPH_KEY_DATA4, [⟨63, 0, .wo, 0⟩]),
  (Reg.CIPH_KEY_DATA5, [⟨63, 0, .wo, 0⟩]),
  (Reg.CIPH_KEY_DATA6, [⟨63, 0, .wo, 0⟩]),
  (Reg.CIPH_KEY_DATA7, [⟨63, 0, .wo, 0⟩]),
  (Reg.CIPH_KEY_CMD, [⟨1, 0, .wo, 0⟩]),
  (Reg.CIPH_KEY_STAT, [⟨63, 63, .live, 0⟩, ⟨62, 62, .live, 0⟩, ⟨61, 59, .live, 0⟩, ⟨47, 44, .live, 0⟩, ⟨43, 39, .live, 0⟩, ⟨38, 32, .live, 0⟩, ⟨31, 24, .live, 0⟩, ⟨23, 0, .live, 0⟩]),
  (Reg.CIPH_STAT, [⟨31, 23, .live, 0⟩, ⟨22, 19, .live, 0⟩, ⟨18, 18, .live, 0⟩]),
  (Reg.CIPH_WAIT, [⟨59, 0, .live, 0⟩]),
  (Reg.CIPH_CNT, [⟨63, 32, .live, 0⟩, ⟨31, 0, .live, 0⟩])]

def regsDIG : List (Nat × List RField) :=
  [
  (Reg.DIG_STAT, [⟨6, 0, .live, 0⟩]),
  (Reg.DIG_CNT, [⟨63, 32, .live, 0⟩, ⟨15, 0, .live, 0⟩])]

def regsCAM : List (Nat × List RField) :=
  [
  (Reg.CAM_STAT, [⟨19, 18, .live, 0⟩, ⟨17, 17, .live, 0⟩, ⟨16, 16, .live, 0⟩, ⟨15, 15, .live, 0⟩, ⟨4, 0, .live, 0⟩]),
  (Reg.CAM_CNT, [⟨63, 32, .live, 0⟩, ⟨31, 16, .live, 0⟩, ⟨15, 0, .live, 0⟩]),
  (Reg.CAM_ERR_CNT, [⟨31, 16, .live, 0⟩, ⟨15, 0, .live, 0⟩])]

def regsSEC : List (Nat × List RField) :=
  [
  (Reg.SEC_STATUS, [⟨31, 31, .live, 0⟩, ⟨30, 27, .live, 0⟩, ⟨26, 26, .live, 0⟩, ⟨25, 25, .live, 0⟩, ⟨13, 7, .live, 0⟩, ⟨6, 0, .live, 0⟩]),
  (Reg.SEC_DBG, [⟨0, 0, .live, 0⟩]),
  (Reg.SEC_DEVSER, [⟨63, 0, .live, 0⟩]),
  (Reg.SEC_DENY_CNT, [⟨63, 32, .live, 0⟩, ⟨23, 16, .live, 0⟩, ⟨15, 8, .live, 0⟩, ⟨7, 0, .live, 0⟩]),
  (Reg.SEC_MBOX_CMD, [⟨31, 31, .rw, 0⟩, ⟨23, 16, .rw, 0⟩, ⟨12, 0, .rw, 0⟩]),
  (Reg.SEC_MBOX_STAT, [⟨63, 63, .live, 0⟩, ⟨47, 32, .live, 0⟩, ⟨31, 0, .live, 0⟩]),
  (Reg.SEC_MBOX_PAGE, [⟨3, 0, .rw, 0⟩])]

def regsRAS : List (Nat × List RField) :=
  [
  (Reg.RAS_SPARE_INV, [⟨63, 59, .live, 0⟩, ⟨58, 52, .live, 0⟩, ⟨51, 51, .live, 0⟩, ⟨50, 50, .live, 0⟩, ⟨49, 47, .live, 0⟩, ⟨46, 35, .live, 0⟩, ⟨34, 20, .live, 0⟩, ⟨19, 0, .live, 0⟩]),
  (Reg.RAS_STATUS, [⟨31, 31, .live, 0⟩, ⟨30, 30, .live, 0⟩, ⟨29, 26, .live, 0⟩]),
  (Reg.RAS_CL_SEL, [⟨3, 0, .rw, 0⟩]),
  (Reg.RAS_TILE_MAP, [⟨49, 32, .live, 0⟩, ⟨31, 0, .live, 0⟩]),
  (Reg.RAS_CNT_SEL, [⟨3, 0, .rw, 0⟩]),
  (Reg.RAS_CNT, [⟨63, 32, .live, 0⟩, ⟨31, 0, .live, 0⟩]),
  (Reg.RAS_REC, [⟨63, 32, .live, 0⟩, ⟨31, 16, .live, 0⟩, ⟨15, 0, .live, 0⟩])]

def regsTEL : List (Nat × List RField) :=
  [
  (Reg.TEL_EVLOG_STAT, [⟨63, 32, .live, 0⟩, ⟨31, 0, .live, 0⟩])]

/-- The register list of the block whose base an offset falls in (Table 23-5: blocks lie 1 MiB apart). -/
def blockRegs (off : Nat) : List (Nat × List RField) :=
  match off / 0x100000 with
  | 0 => regsTOP
  | 1 => regsAON
  | 2 => regsPWR
  | 3 => regsSCHED
  | 4 => regsTILE
  | 5 => regsSC
  | 6 => regsDMC
  | 7 => regsQM
  | 8 => regsDMA
  | 9 => regsFN
  | 10 => regsING
  | 11 => regsLED
  | 12 => regsBRY
  | 13 => regsCIPH
  | 14 => regsDIG
  | 15 => regsCAM
  | 16 => regsSEC
  | 17 => regsRAS
  | 18 => regsTEL
  | _ => []

/-- The fields of the register at a BAR0 offset; none for a reserved offset. -/
def regFields (off : Nat) : Option (List RField) := List.lookup off (blockRegs off)

/-- Reset value of a register's stored bits. -/
def fieldsReset : List RField → Nat
  | [] => 0
  | f :: fs => f.reset * 2 ^ f.lo + fieldsReset fs
/-- Reset value of the register at an offset and instance; DMA_CH_CFG.LEVEL resets to the channel div 8 (Table 15-9). -/
def regReset (off inst : Nat) : Nat :=
  if off = Reg.DMA_CH_CFG then inst / 8 else fieldsReset ((regFields off).getD [])

end Sys2Proof.Machine
end

