-- ==== Sys2Proof/Machine/TypesBridy.lean ====
section
/-! DEFINITION. State of the Bridy Link ports (spec/17_bridy_link.md). -/

namespace Sys2Proof.Machine
open Sys2Proof

/-- Packet classes: 0 LEDGER, 1 MSG, 2 MGMT. A packet whose tag verified, waiting to be handled. -/
structure BPacket where
  cls : Nat
  ptype : Nat
  body : List Byte
deriving DecidableEq, Repr

/-- Codes of Table 17-4. -/
abbrev BSt.disabled : Nat := 0
abbrev BSt.training : Nat := 1
abbrev BSt.up : Nat := 2
abbrev BSt.down : Nat := 3
abbrev BSt.halt : Nat := 4

/-- One class of a port. -/
structure BClass where
  /-- credits held for sending -/
  cred : Nat := 0
  /-- accepted flits whose credit has not gone back -/
  owed : Nat := 0
  /-- rest of the packet whose sending has begun, and the packets after it, by PTYPE and body -/
  txRest : List Byte := []
  txQ : List (Nat × List Byte) := []
  /-- received bytes of a packet not yet whole; none while the stream waits for a packet's start -/
  rx : Option (List Byte) := none
deriving DecidableEq, Repr

structure BPort where
  st : Nat := 0
  cause : Nat := 0
  spareTx : Option Nat := none
  spareRx : Option Nat := none
  /-- lane whose swap is asked for, and when SWAP_REQ was last sent -/
  swapWait : Option (Nat × Nat) := none
  rttUs : Nat := 0
  peer : Nat := 0
  lastPeer : Option Nat := none
  txFseq : Nat := 0
  /-- the replay store: unacknowledged flits with their FSEQ, oldest first -/
  unacked : List (Nat × List Byte) := []
  rxFseq : Nat := 0
  /-- RETRY_REQ last sent, while the flit it names is awaited -/
  retryAt : Option Nat := none
  classes : Tab BClass := []
  /-- flits sent since the last one of class MSG -/
  sinceMsg : Nat := 0
  inbox : List BPacket := []
  txPctr : Nat := 0
  /-- last PCTR accepted in the epoch of the last packet accepted -/
  rxPctr : Tab Nat := []
  /-- unused pre-grants of the peer, oldest first -/
  preGrants : List Nat := []
  /-- pre-grants issued here and not yet bound -/
  issued : List Nat := []
  nextGrant : Nat := 0
  /-- the pre-grants of R375 have been issued and have not lapsed -/
  granted : Bool := false
  /-- end of the DOWN delay, and the delay of the next one in ms -/
  downUntil : Nat := 0
  downMs : Nat := 1
  /-- last flit with a good CRC -/
  goodAt : Nat := 0
  fecCorr : Nat := 0
  fecUncorr : Nat := 0
  crcErr : Nat := 0
  replays : Nat := 0
  swaps : Nat := 0
  retrains : Nat := 0
  authFail : Nat := 0
  pktDiscard : Nat := 0
  dataDiscard : Nat := 0
  /-- messages delivered to the Frame firmware -/
  msgs : List (List Byte) := []
deriving DecidableEq, Repr

end Sys2Proof.Machine
end

