-- ==== Sys2Proof/Machine/TypesCache.lean ====
section
/-! DEFINITION. State of the system cache and its prefetchers (chapter 12). -/

namespace Sys2Proof.Machine
open Sys2Proof

/-- A valid cache line: its DRAM line number and whether it is dirty. -/
structure CLine where
  line : Nat
  dirty : Bool
deriving DecidableEq, Repr

/-- A stride prefetcher (R251): last demand line, stride, and whether the stride has occurred twice in a row. -/
structure Stride where
  last : Nat
  delta : Int
  armed : Bool
deriving DecidableEq, Repr

/-- A maintenance command in progress: CMD, BASE, LEN. -/
structure CacheOp where
  cmd : Nat
  base : Nat
  len : Nat
deriving DecidableEq, Repr

/-- A fabric request for DRAM or scratch (R13, R16, R251): initiator, function tag, reservation bit, address, length of a read or the
bytes of a write, tile stream (255: none), the error its array access shows, and the item on whose behalf an engine makes it. -/
structure FabReq where
  init : Nat
  fn : Nat
  resv : Bool
  addr : Nat
  len : Nat
  bytes : Option (List Byte)
  stream : Nat
  err : Nat
  item : Option Nat
deriving DecidableEq, Repr

structure Cache where
  /-- valid lines, keyed (slice * 1024 + set) * 16 + logical way -/
  lines : Tab CLine := []
  /-- replacement tree of each set, keyed slice * 1024 + set -/
  plru : Tab Nat := []
  /-- physical way behind a logical way, keyed slice * 16 + way; unlisted: the same number -/
  pway : Tab Nat := []
  /-- state of a physical way, keyed slice * 18 + way: 0 in service, 1 spare, 2 retired; unlisted: spare for 16 and 17 -/
  wstate : Tab Nat := []
  /-- logical ways without replacement, as slice * 16 + way (R261) -/
  absent : List Nat := []
  /-- times of corrected errors of a physical way in the last second -/
  ce : Tab (List Nat) := []
  /-- logical ways being retired, as slice * 16 + way -/
  retiring : List Nat := []
  op : Option CacheOp := none
  /-- the cache allocates: EN = 1, or the clean of R257 runs -/
  on : Bool := false
  /-- logical ways that have lost power -/
  lost : List Nat := []
  strides : Tab Stride := []
  /-- requests that wait for a scratch slot to be ready or a retirement copy to end, in arrival order (R253, R260) -/
  waits : List FabReq := []
deriving DecidableEq, Repr

end Sys2Proof.Machine
end

