-- ==== Sys2Proof/Machine/TypesCam.lean ====
section
/-! DEFINITION. State of the routing CAM (chapter 19). -/

namespace Sys2Proof.Machine
open Sys2Proof

/-- A search that waits (R411): function, key, and the latency class of its item. -/
structure CamReq where
  fn : Nat
  key : Nat
  lc : Nat
deriving DecidableEq, Repr

/-- What a search answers: winner, its result and priority, and the count of matches at that priority. -/
structure CamHit where
  index : Nat
  result : Nat
  prio : Nat
  count : Nat
deriving DecidableEq, Repr

/-- A change that waits for a spare load (R416): a window write at an offset, or a record of a CAM_UPDATE. -/
inductive CamWait where
  | write (off : Nat) (bytes : List Byte)
  | record (index op : Nat) (bytes : List Byte)
deriving DecidableEq, Repr

structure Cam where
  /-- the entries as stored, 64 bytes each from offset 0 (Table 19-1) -/
  mem : Mem := []
  /-- Frame's copy of the entries (R416) -/
  copy : Mem := []
  /-- searches that wait, in arrival order (R411) -/
  waiting : List CamReq := []
  /-- searches since the last whole unit of CAM_CNT.SEARCHES -/
  searchRem : Nat := 0
  /-- entries with a first parity error, absent until their reload -/
  reload : List Nat := []
  /-- entries absent for good after a second lasting fault -/
  dead : List Nat := []
  /-- block whose spare load runs -/
  load : Option Nat := none
  /-- changes to that block that wait for the end of the load, in arrival order -/
  updates : List CamWait := []
deriving DecidableEq, Repr

end Sys2Proof.Machine
end

