-- ==== Sys2Proof/Machine/TypesCipher.lean ====
section
/-! DEFINITION. State of the cipher and digest engines (spec/18_cipher_digest.md). -/

namespace Sys2Proof.Machine
open Sys2Proof

/-- A key slot (R387); `erasing` reads absent to new items and keeps its key for those that use it (R389). -/
structure KeySlot where
  typ : Nat := 0
  usage : Nat := 0
  key : List Byte := []
  erasing : Bool := false
deriving DecidableEq, Repr

/-- States of a cipher message (Table 18-8); DONE is its removal. -/
inductive CiphState where
  | waiting
  | running (core : Nat)
  | suspended
deriving DecidableEq, Repr

/-- A request of an item to the cipher engine, with the key and the context it started with. -/
structure CReq where
  item : Nat
  prio : Nat
  st : CiphState := .waiting
  /-- context slot, held from the first suspension to the end -/
  ctxSlot : Option Nat := none
  kslot : Nat
  typ : Nat
  key : List Byte
  /-- the restored context in the clear, empty for a first part -/
  ctx : List Byte
deriving DecidableEq, Repr

/-- A request to the digest engine: of an item, or (none) of the Sill core. -/
structure DReq where
  item : Option Nat
  prio : Nat
  /-- digest core, none while the request waits for a context -/
  core : Option Nat := none
  kslot : Option Nat
  key : List Byte
  ctx : List Byte
deriving DecidableEq, Repr

structure Cipher where
  slots : Tab KeySlot := []
  /-- staging data of each function: 64 bytes -/
  staging : Tab (List Byte) := []
  /-- ERR of each function's last command -/
  err : Tab Nat := []
  /-- requests by arrival -/
  creqs : Tab CReq := []
  dreqs : Tab DReq := []
  next : Nat := 0
  /-- cores in service -/
  cores : Nat := 8
  spareIn : Bool := false
  suspends : Nat := 0
  ctxFull : Nat := 0
  compares : Nat := 0
  cmpFaults : Nat := 0
  /-- the device wrap key is zeroised (R432) -/
  wrapGone : Bool := false
deriving DecidableEq, Repr

end Sys2Proof.Machine
end

