-- ==== Sys2Proof/Machine/TypesCore.lean ====
section
/-! DEFINITION. State of the sequencers and the vector units (spec/10_sequencer_isa.md, spec/11_vector_extension.md), of the
security island and of the boot flash (spec/20_sill_frame_security.md). -/

namespace Sys2Proof.Machine
open Sys2Proof

/-! ## Sequencers (R191 to R224) -/

/-- What a core does: stopped or without power; executing; its clock stopped in WFE; waiting in WAITT; stalled by a window
load; halted by a double fault. -/
inductive CRun where
  | off | run | wfe | waitt | load | halted
deriving DecidableEq, Repr

/-- A command accepted by the pipes (R244). -/
structure PipeCmd where
  /-- VPIPE function code -/
  fn : Nat
  /-- word address of the command block, and its words as read at the issue -/
  block : Nat
  words : List Nat
  /-- lowest and highest word the command may reach: the data bounds when it was issued with K = 0 (R193) -/
  lo : Nat
  hi : Nat
deriving DecidableEq, Repr

/-- Vector state of a tile (Table 11-1). -/
structure Vec where
  v : Vector (Vector (BitVec 72) 32) 16 := Vector.replicate 16 (Vector.replicate 32 0)
  p : Vector (BitVec 32) 8 := Vector.replicate 8 0
  /-- vector control registers 0 to 31 as they read (Table 11-2): VL 32 and the STRIDEs 1 at reset -/
  cr : Vector (BitVec 16) 32 :=
    ((((Vector.replicate 32 0).set 0 32).set 18 1).set 22 1).set 26 1 |>.set 30 1
  /-- commands in the pipe queue, oldest first (R244) -/
  pipes : List PipeCmd := []
  /-- word addresses of the links collected of a chain that has not issued its closing link (R238) -/
  links : List Nat := []
deriving DecidableEq, Repr

/-- One sequencer core. -/
structure Core where
  run : CRun := .off
  d : Vector (BitVec 16) 8 := Vector.replicate 8 0
  a : Vector (BitVec 24) 8 := Vector.replicate 8 0
  ac : Vector (BitVec 72) 4 := Vector.replicate 4 0
  pc : BitVec 24 := 0
  -- control registers of Table 10-5
  k : Bool := true
  ie : Bool := false
  exl : Bool := false
  emask : BitVec 16 := 0
  evpend : BitVec 16 := 0
  epc : BitVec 24 := 0
  esr : BitVec 16 := 0
  ecause : BitVec 16 := 0
  eaddr : BitVec 24 := 0
  ebase : BitVec 24 := 0x400
  winb : BitVec 16 := 0
  fntag : BitVec 8 := 0
  slim : BitVec 24 := 0x100000
  uplo : BitVec 24 := 0x4000
  uphi : BitVec 24 := 0
  udlo : BitVec 24 := 0x100000
  udhi : BitVec 24 := 0
  /-- TIME1 and TIME2 as latched by the last read of TIME0 -/
  timeHi : BitVec 32 := 0
  tmrc : Vector (BitVec 16) 3 := Vector.replicate 3 0
  mb : Vector (BitVec 24) 4 := Vector.replicate 4 0
  ml : Vector (BitVec 16) 4 := Vector.replicate 4 0
  /-- target of the armed timer (R213) -/
  timer : Option (BitVec 48) := none
  /-- interrupts that wait (R218) -/
  irqDebug : Bool := false
  irqDispatch : Bool := false
  irqCkpt : Bool := false
  /-- program and data memory: byte 2w and 2w + 1 hold word w of Table 10-2; the Sill core's mask ROM is not here -/
  mem : Mem := []
  vec : Vec := {}
deriving DecidableEq, Repr

/-! ## Security island and boot flash (R418 to R433) -/

/-- A request to Sill: its source (0 mailbox, 1 SMBus, 2 and 3 the MGMT class of Bridy port 0 and 1), its CMD and data. -/
structure SReq where
  src : Nat
  cmd : Nat
  data : List Byte
deriving DecidableEq, Repr

structure Sec where
  /-- bytes of the boot flash written since manufacture; the others hold what manufacture left, or FFH in an erased slot -/
  flash : Tab Byte := []
  /-- Frame slots erased since manufacture: 0 A, 1 B -/
  erased : List Nat := []
  /-- REVOKED bits of the four fuse key slots, and the count of blown SVN bits -/
  revoked : Nat := 0
  svnFused : Nat := 0
  /-- Frame has been verified since start-up: slot, signing slot, SVN, and measurement of the running image -/
  verified : Bool := false
  slot : Nat := 0
  keyIdx : Nat := 0
  svnRun : Nat := 0
  meas : List Byte := []
  /-- index of the free value the alias certificate is made from -/
  alias_ : Nat := 0
  /-- TRY of the boot pointer record names a slot -/
  tryPend : Bool := false
  /-- SEC_STATUS.CAUSE -/
  cause : Nat := 0
  debugOpen : Bool := false
  /-- source of the first FW_WRITE since the last FW_COMMIT -/
  fwSrc : Option Nat := none
  /-- DEVTIME of the Frame halts of the last hour (R424) -/
  halts : List Nat := []
  /-- requests that wait or are in progress, in arrival order -/
  reqs : List SReq := []
  /-- SEC_MBOX as written; the answer, and the status of the last request -/
  mbox : Mem := []
  answer : List Byte := []
  status : Nat := 0
deriving DecidableEq, Repr

end Sys2Proof.Machine
end

