-- ==== Sys2Proof/Machine/TypesDram.lean ====
section
/-! DEFINITION. State of the LPDDR6 memory controller (spec/13_dram_controller.md). -/

namespace Sys2Proof.Machine
open Sys2Proof

/-- A repair that holds a bank of a subchannel. -/
structure Repair where
  bank : Nat
  row : Nat
  hard : Bool
deriving DecidableEq, Repr

/-- A request in a subchannel's queue: its line, its port (Table 13-1) and its arrival. -/
structure MemReq where
  line : Nat
  port : Nat
  at_ : Nat
deriving DecidableEq, Repr

/-- One subchannel. -/
structure SubCh where
  /-- in self-refresh (R280) -/
  asleep : Bool := false
  /-- arrival of its last request -/
  lastReq : Nat := 0
  /-- the write queue, and the reads that wait, oldest first (R271, R272) -/
  wq : List MemReq := []
  rq : List MemReq := []
  /-- refreshes postponed (R271) -/
  owed : Nat := 0
  /-- open row of each bank -/
  opened : Tab Nat := []
  /-- queued neighbour refreshes: bank and row (R273) -/
  nrr : List (Nat × Nat) := []
  /-- code of DMC_CH_STAT.REFRESH -/
  rate : Nat := 0
  /-- marked pin (R269), and a lasting error on a second pin -/
  pin : Option Nat := none
  /-- lasting corrected errors of the last second: time, pin, line -/
  pinErrs : List (Nat × Nat × Nat) := []
  /-- used repair rows by bank: hard or soft, and the row -/
  rows : Tab (Bool × Nat) := []
  repairs : List Repair := []
  /-- next line, within the subchannel, of the patrol scrub -/
  scrub : Nat := 0
deriving DecidableEq, Repr

/-- A write that waits at its memory stop (R272), with its port and arrival; no bytes: the value already
stands in DRAM. -/
structure StopWrite where
  line : Nat
  bytes : Option (List Byte)
  bad : Bool
  port : Nat
  at_ : Nat
deriving DecidableEq, Repr

structure Dmc where
  subs : Tab SubCh := []
  /-- waiting writes of each memory stop, oldest first -/
  stops : Tab (List StopWrite) := []
  /-- channels whose DMC_DLY_PEND bit is 1 -/
  pend : List Nat := []
  /-- delays in use, keyed subchannel * 16 + pin, and bin in use of each channel -/
  delays : Tab Nat := []
  bins : Tab Nat := []
  /-- reading of its memory stop's sensor at each channel's last application, in units of 0.25 °C (R275) -/
  dlyTemp : Tab Int := []
  /-- Frame's list in the boot flash (R278): repairs as subchannel, bank, row and hard, and the marked pins by subchannel -/
  repairList : List (Nat × Nat × Nat × Bool) := []
  pinList : Tab Nat := []
  /-- a row has a lasting error and no free repair row (R279) -/
  unrepairable : Bool := false
  /-- DMC_EPOCH.CUR; VER of every line not listed in `vers` -/
  epoch : Nat := 0
  fillVer : Nat := 0
  vers : Tab Nat := []
deriving DecidableEq, Repr

end Sys2Proof.Machine
end

