-- ==== Sys2Proof/Machine/TypesHost.lean ====
section
/-! DEFINITION. State of the host side: functions, host queues, items in flight, idempotence keys, error and event logs,
MSI-X, the dispatch scheduler, the DMA engine, and the register space (chapters 08, 14, 15, 23, 25). -/

namespace Sys2Proof.Machine
open Sys2Proof

/-! ## Functions (R327 to R334) -/

/-- A DRAM region window (R329): base and size in bytes. -/
structure Window where
  base : Nat
  size : Nat
deriving DecidableEq, Repr

/-- An FN_RESIZE between consumption and commit point (R331 to R335). -/
structure Resize where
  item : Nat
  kind : Nat
  fromFn : Nat
  toFn : Nat
  zero : Bool
  left : List Nat
  moved : Nat
  /-- items of FROM_FN in flight at consumption -/
  waitFor : List Nat
deriving DecidableEq, Repr

structure Funcs where
  vfEnable : Bool := false
  numVFs : Nat := 0
  /-- holder of each logical tile, CAM block, key slot, volume, layout; an unlisted unit is held by FN 0 (R328) -/
  tileFn : Tab Nat := []
  /-- queues of each function: base and count (R329) -/
  queueRange : Tab (Nat × Nat) := [(0, (0, 4096))]
  camFn : Tab Nat := []
  keyFn : Tab Nat := []
  volFn : Tab Nat := []
  layoutFn : Tab Nat := []
  /-- MSI-X vectors of each virtual function -/
  nvec : Tab Nat := []
  windows : Tab (List Window) := []
  resize : Option Resize := none
  /-- the virtual functions are reset and their resources wait for their DMA channels -/
  clearing : Bool := false
deriving DecidableEq, Repr

/-! ## Completions, logs, MSI-X -/

/-- A completion entry as its four words (Table 14-7), with whether it raises an interrupt. -/
structure CqEntry where
  w0 : Nat
  w1 : Nat
  w2 : Nat
  w3 : Nat
  irq : Bool
deriving DecidableEq, Repr

/-- A log of 64-byte entries: next SEQ, entries overwritten, slots (R306, R488, R509). -/
structure Log where
  nextSeq : Nat := 0
  overwritten : Nat := 0
  slots : Tab (List Byte) := []
deriving DecidableEq, Repr

/-! ## Host queues (R283 to R303) -/

inductive QState where
  | disabled | active | frozen
deriving DecidableEq, Repr

structure HostQ where
  st : QState := .disabled
  /-- frozen by CFG_PARITY and by no item failure since (R482) -/
  parityFrozen : Bool := false
  /-- position of the next descriptor to consume -/
  head : Nat := 0
  /-- latest TAIL -/
  tail : Nat := 0
  /-- inline slots 0 to 3 of the doorbell page, as the host last wrote them (R288); an unlisted slot holds zeros -/
  page : Tab (List Byte) := []
  /-- inline copies by position (R289) -/
  inl : Tab (List Byte) := []
  /-- fetching waits for the next SQ doorbell after OWN = 0 (R290) -/
  notOwnWait : Bool := false
  cqTail : Nat := 0
  cqHead : Nat := 0
  overflow : List CqEntry := []
  ctlErr : Nat := 0
  errTag : Nat := 0
  errStatus : Nat := 0
  errSeq : Nat := 0
  fetched : Nat := 0
  notOwn : Nat := 0
  freezes : Nat := 0
  /-- interrupt-raising entries since the last message and DEVTIME of the first of them (R310) -/
  unsig : Nat := 0
  unsigAt : Nat := 0
deriving DecidableEq, Repr

/-- Why a fetched descriptor is held without being consumed. -/
inductive HoldWhy where
  | flowFull | entries | ikeyFull
deriving DecidableEq, Repr

/-- A descriptor fetched and held (R166, R168, R304). -/
structure HeldDesc where
  queue : Nat
  desc : List Byte
  why : HoldWhy
  /-- the reasons it has been counted for, once each -/
  counted : List HoldWhy
deriving DecidableEq, Repr

/-! ## Items in flight -/

/-- An effect held at the commit gate until the item's commit point (R78, R465). -/
inductive Effect where
  /-- bytes to internal DRAM -/
  | dram (addr : Nat) (bytes : List Byte)
  /-- bytes to host memory -/
  | host (addr : Nat) (bytes : List Byte)
  /-- a CAM_UPDATE record: entry, OP, the record's bytes (R414) -/
  | cam (entry op : Nat) (bytes : List Byte)
deriving DecidableEq, Repr

/-- Phases of an item: its thread has not run; its engine, tasks or controller work on it; its result is known and its
commit point is ahead; its commit point is reached but its completion finds no place, so its effects are held (R303); its
commit point is reached and its effects are made. -/
inductive Phase where
  | queued | running | ready | held | committed
deriving DecidableEq, Repr

/-- What a STANDING item keeps of its message (R176, R183, R185). -/
structure MsgInfo where
  port : Nat
  layout : Nat
  msgKey : Nat
  rxTime : Nat
  request : List Byte
  /-- the Ethernet, IP and UDP addressing of the frame, for the reply (R187) -/
  frame : List Byte
  row : List (Option Lane)
  cam : Option (Option Nat)
deriving DecidableEq, Repr

structure Item where
  /-- its number, in the order of consumption -/
  num : Nat := 0
  fn : Nat
  /-- device-wide queue; meaningless for a STANDING item -/
  queue : Nat
  localQ : Nat
  tag : Nat
  opcode : Nat
  subcode : Nat
  lc : Nat
  deadline : Nat
  /-- DEVTIME of its insertion, and at which it reached its commit point -/
  arrival : Nat := 0
  reachedAt : Nat := 0
  ordered : Bool
  noIrq : Bool
  flowKey : Option Nat
  ikey : Option Nat
  desc : List Byte
  /-- the parameter block of a RUN_PLAN or a CIPHER item, read at consumption (R71, R391) -/
  params : List Byte := []
  phase : Phase := .queued
  status : Nat := 0
  r0 : Nat := 0
  r1 : Nat := 0
  entry : Option Nat := none
  effects : List Effect := []
  msg : Option MsgInfo := none
  /-- marked by an ABORT while BLOCKED (R309), with the ABORT item to answer after it -/
  abortBy : List Nat := []
  /-- the original this duplicate is attached to (R304) -/
  dupOf : Option Nat := none
  /-- its completion answers a duplicate: DUP = 1 -/
  isDup : Bool := false
  /-- sequence number of the error log entry its answer repeats, for a duplicate -/
  dupErr : Nat := 0xFFFFFFFF
  /-- where a failing clause stood: clause, place valid, place kind, place, row (R89, Table 25-2) -/
  place : Nat × Nat × Nat × Nat := (0xFFFF, 0, 0, 0)
  others : Nat := 0
deriving DecidableEq, Repr

/-! ## Idempotence keys (R304, R305) -/

structure IKeyEnt where
  fn : Nat
  ikey : Nat
  opcode : Nat
  subcode : Nat
  /-- the item in flight, or the stored answer -/
  item : Option Nat
  status : Nat
  r0 : Nat
  r1 : Nat
  errSeq : Nat
  doneAt : Nat
deriving DecidableEq, Repr

structure QM where
  queues : Tab HostQ := []
  /-- device-wide queue served last by the round robin (R290) -/
  rr : Nat := 0
  items : Tab Item := []
  nextItem : Nat := 0
  held : List HeldDesc := []
  ikeys : List IKeyEnt := []
  /-- floor of each (function, STREAM), keyed fn * 65536 + stream -/
  floors : Tab Nat := []
  ikeyRemoved : Nat := 0
  errLogs : Tab Log := []
deriving DecidableEq, Repr

/-! ## MSI-X and PCIe (R310, R473) -/

structure Msix where
  /-- table bytes of each function, keyed fn * 0x8000 + offset -/
  table : Mem := []
  /-- pending bits: (function, vector) -/
  pend : List (Nat × Nat) := []
deriving DecidableEq, Repr

/-! ## Dispatch scheduler (R155 to R172) -/

inductive EState where
  | blocked | ready | running | suspended | waiting
deriving DecidableEq, Repr

/-- A ready-list entry; the codes of `kind` are those of Table 8-1. -/
structure Entry where
  st : EState
  kind : Nat
  lc : Nat
  fn : Nat
  item : Nat
  task : Option Nat := none
  flow : Option Nat := none
  deadline : Nat
  eff : Nat
  arrseq : Nat
  arrival : Nat
  /-- logical tile when RUNNING, SUSPENDED or placed on a waking cluster -/
  tile : Option Nat := none
  save : Option Nat := none
  /-- placed on a tile whose cluster is waking (R160) -/
  placed : Bool := false
  /-- eligible tiles fixed at creation (a TASK's or STANDING item's); none: the function's pool -/
  elig : Option (List Nat) := none
  /-- the context that its thread resumes from: in its save area, or in the checkpoint it is replayed from (R163, R77) -/
  ctx : Option Core := none
  /-- DEVTIME at which it last became READY or SUSPENDED (R171) -/
  since : Nat
deriving DecidableEq, Repr

/-- A flow-table entry: function, key, and its items in arrival order (R164). -/
structure Flow where
  fn : Nat
  key : Nat
  items : List Nat
deriving DecidableEq, Repr

/-- A waiter for a scheduler entry: a held descriptor of a queue, or a waiting TASK (R168). -/
inductive EntryWaiter where
  | desc (queue : Nat)
  | task (item task : Nat)
deriving DecidableEq, Repr

structure Sched where
  entries : Tab Entry := []
  flows : Tab Flow := []
  arrseq : Nat := 0
  waiters : List EntryWaiter := []
  /-- deadline misses per class -/
  misses : Tab Nat := []
  /-- waiting-time histogram, keyed (tile * 4 + lc) * 16 + bucket -/
  hist : Tab Nat := []
  rlFull : Nat := 0
  flowFull : Nat := 0
  /-- snapshot of SCHED_WIN_DATA0 to 4 per access path (R172, R479) -/
  snaps : Tab (List Nat) := []
  /-- running time of each tile: start of the present run, and closed runs of the last second (R171) -/
  busy : Tab (Option Nat × List (Nat × Nat)) := []
deriving DecidableEq, Repr

/-! ## DMA engine (R314 to R326) -/

/-- A segment entry of Table 15-1. -/
structure Seg where
  src : Nat
  dst : Nat
  aux : Nat
  cstride : Nat
  count : Nat
  dstLen : Nat
  auxLen : Nat
  ctl : Nat
deriving DecidableEq, Repr

/-- Who a transfer serves: a MOVE item, the zero fill of an FN_RESIZE, or the data of another item: of an OUTPUT clause, of CIPHER or
DIGEST, or of its Ledger command's staging or read (R320). -/
inductive XferFor where
  | move (item : Nat)
  | zero (item : Nat)
  | data (item : Nat) (cmd : Option Nat)
deriving DecidableEq, Repr

structure Xfer where
  fn : Nat
  level : Nat
  segs : List Seg
  /-- index of the segment in progress -/
  pos : Nat := 0
  written : Nat := 0
  /-- host address of the progress word; 0 for none, and for the inline form -/
  prog : Nat := 0
  chain : Bool := false
  who : XferFor
  /-- stop at the next segment boundary (R324) -/
  stop : Bool := false
deriving DecidableEq, Repr

structure Dma where
  /-- transfer of each busy channel -/
  chan : Tab Xfer := []
  /-- waiting transfers, oldest first -/
  wait : List Xfer := []
  /-- segment counts ended, by channel -/
  segs : Tab Nat := []
  /-- LEVEL writes to busy channels that take effect when the transfer ends -/
  levelNext : Tab Nat := []
deriving DecidableEq, Repr

/-! ## Register space (R473 to R488) -/

/-- A posted write to an AON register (R485). -/
structure Posted where
  path : Path
  off : Nat
  val : Nat
deriving DecidableEq, Repr

structure RegSpace where
  /-- written values of software-writable fields, keyed instance * 2^26 + offset; unlisted: the reset value -/
  vals : Tab Nat := []
  /-- selectors, keyed path number * 2^26 + offset -/
  sels : Tab Nat := []
  /-- a held low half of each path: (offset, value) (R475) -/
  halfW : Tab (Nat × Nat) := []
  /-- a latched high half of each path: (offset, value) -/
  halfR : Tab (Nat × Nat) := []
  /-- mismatching parity instances: (offset, instance), in order of detection -/
  bad : List (Nat × Nat) := []
  parCnt : Nat := 0
  posted : List Posted := []
  /-- copies of the AON registers by offset, and of the event log, as of the last ACLK edge (R484) -/
  aon : Tab Nat := []
  aonLog : Log := {}
deriving DecidableEq, Repr

end Sys2Proof.Machine
end

