-- ==== Sys2Proof/Machine/TypesIngest.lean ====
section
/-! DEFINITION. State of the ingest ports, layouts, reply cache and gateway floors (chapter 09). -/

namespace Sys2Proof.Machine
open Sys2Proof

/-- A layout and its 4 KiB of memory (R180, R181). -/
structure Layout where
  mem : Mem := []
  valid : Bool := false
  /-- the STANDING plan bound to it: function and PLAN_ID -/
  bound : Option (Nat × Nat) := none
  err : Nat := 0
  errAt : Nat := 0
deriving DecidableEq, Repr

/-- A reply-cache entry (R183): PENDING, or DONE at a time with reply frame bytes (envelope and payload) or a no-reply mark. -/
structure ReplyEnt where
  key : Nat
  doneAt : Option Nat
  reply : Option (List Byte)
deriving DecidableEq, Repr

structure PortCnt where
  keepalive : Nat := 0
  replyFit : Nat := 0
  itemFail : Nat := 0
  resent : Nat := 0
  /-- drops by reason (Table 9-3) -/
  drops : Tab Nat := []
  /-- a lasting lane fault took the port down (R459) -/
  down : Bool := false
deriving DecidableEq, Repr

structure Ingest where
  layouts : Tab Layout := []
  /-- reply cache, oldest first -/
  cache : List ReplyEnt := []
  /-- Idle has not been entered since start-up: the reply cache and the floors are cleared then (R184) -/
  toClear : Bool := false
  /-- floor of each gateway (R184) -/
  floors : Tab Nat := []
  ports : Tab PortCnt := []
  lost : Nat := 0
deriving DecidableEq, Repr

end Sys2Proof.Machine
end

