-- ==== Sys2Proof/Machine/TypesLedger.lean ====
section
/-! DEFINITION. State of the Ledger store (spec/16_ledger_store.md). -/

namespace Sys2Proof.Machine
open Sys2Proof

/-- A volume as its commits have made it: attributes, map, and for LOG its head. -/
structure VolP where
  /-- 0 unformatted, 1 BLOCK, 2 LOG -/
  kind : Nat := 0
  policy : Nat := 0
  omode : Nat := 0
  ovl : Bool := false
  peerVol : Nat := 0
  groupUs : Nat := 0
  nblocks : Nat := 0
  /-- bytes 32 to 63 of its FORMAT -/
  body : List Byte := []
  /-- physical block of each logical block or log page -/
  map : Tab Nat := []
  genesis : List Byte := []
  firstRec : Nat := 0
  nextRec : Nat := 0
  /-- CHAIN of record nextRec − 1, and of record firstRec − 1 -/
  headChain : List Byte := []
  trimChain : List Byte := []
  /-- first record and records of each committed page -/
  pages : Tab (Nat × Nat) := []
  /-- an APPEND has been committed since the FORMAT -/
  appended : Bool := false
  /-- highest commit SEQ of the volume -/
  lastSeq : Nat := 0
deriving DecidableEq, Repr

/-- A record with its number and CHAIN assigned, and the page it lies on. -/
structure GRec where
  num : Nat
  page : Nat
  chain : List Byte
  bytes : List Byte
  cmd : Nat
deriving DecidableEq, Repr

structure LVol where
  p : VolP := {}
  frozen : Bool := false
  errStatus : Nat := 0
  busy : Bool := false
  appendLost : Nat := 0
  freezes : Nat := 0
  /-- next record, CHAIN, page and used bytes of it after the last closed group -/
  recBase : Nat := 0
  chainBase : List Byte := []
  pageBase : Nat := 0
  usedBase : Nat := 0
  /-- records of the tail page in closed groups -/
  tail : List GRec := []
  /-- the open group, and DEVTIME of its first record -/
  opened : List GRec := []
  openAt : Nat := 0
deriving DecidableEq, Repr

/-- Who issued a command: a host item, the peer device on a port, a standing item of a function. -/
inductive LSrc where
  | item (id : Nat)
  | peer (port : Nat)
  | standing (fn : Nat)
deriving DecidableEq, Repr

/-- States of Table 16-5; a command that ends leaves the table. `dataDone` holds a READ for the writes that supplied it. -/
inductive LSt where
  | accepted | queued | staging | reading | writing | committing | dataDone
deriving DecidableEq, Repr

structure LCmd where
  src : LSrc
  fn : Nat
  vol : Nat
  lcmd : Nat
  lordered : Bool := false
  count : Nat := 0
  addr : Nat := 0
  bufHost : Bool := true
  bufAddr : Nat := 0
  bufLen : Nat := 0
  /-- command key; none for a standing APPEND -/
  key : Option Nat := none
  st : LSt := .accepted
  data : List Byte := []
  cu : Option Nat := none
  /-- commit units whose staging supplied a READ -/
  deps : List Nat := []
  /-- duplicates attached: host items -/
  dups : List Nat := []
  /-- a peer command: port of its latest copy, declared length, received ranges, its grant and when it was bound -/
  port : Nat := 0
  decl : Nat := 0
  got : List (Nat × Nat) := []
  grant : Option Nat := none
  /-- the port whose pre-grant it holds -/
  preGrant : Option Nat := none
  boundAt : Nat := 0
  prevChain : List Byte := []
  /-- results of a LOG_READ whose data is on its way -/
  res : Option (Nat × Nat) := none
deriving DecidableEq, Repr

/-- A command forwarded to the peer. -/
structure Fwd where
  key : Nat
  lcmd : Nat
  vol : Nat
  lordered : Bool
  count : Nat
  addr : Nat
  recFirst : Nat
  prevChain : List Byte
  data : List Byte
  port : Nat
  sentAt : Nat
  tries : Nat := 0
  /-- STATUS and results of its RSP, or the failure of its retries -/
  done : Option (Nat × Nat × Nat) := none
deriving DecidableEq, Repr

/-- Progress of a commit unit: its data writes are issued; they have completed; its commit sector is issued; the sector has
landed; it is locally durable. -/
inductive CuSt where
  | writing | ready | committing | landed | durable
deriving DecidableEq, Repr

/-- A commit unit: what one commit sector will carry. A forwarded FLUSH is a unit without a sector, CKIND 0. -/
structure CU where
  vol : Nat
  ckind : Nat
  cmds : List Nat
  st : CuSt
  /-- logical and physical block of each block written; for TRIM the first logical block and the count, PADDR all ones -/
  ents : List (Nat × Nat × Nat) := []
  /-- data to land: physical block and its 4,096 bytes -/
  data : List (Nat × List Byte) := []
  seq : Nat := 0
  /-- DEVTIME of the issue of its commit sector -/
  issuedAt : Nat := 0
  recFirst : Nat := 0
  recLast : Nat := 0
  chain : List Byte := []
  body : List Byte := []
  cmdKey : Nat := 0
  /-- acceptance number of its first command -/
  order : Nat := 0
  fwd : Option Fwd := none
  /-- a forwarded command whose CMD waits for its items' commit gates (R300, R303); its key and port are not yet given -/
  toSend : Option Fwd := none
  /-- records of an APPEND group, and where its log stood before it: CHAIN, page, used bytes and tail records -/
  recs : List GRec := []
  before : List Byte × Nat × Nat × List GRec := ([], 0, 0, [])
  /-- the unit of the operation in progress -/
  isOp : Bool := false
  /-- its commands have been answered -/
  answered : Bool := false
  waitCounted : Bool := false
deriving DecidableEq, Repr

/-- An entry of the replay table: INIT, SEQ, its source where it is known, and the command or its stored response. -/
structure REnt where
  init : Nat
  seq : Nat
  src : Option Nat
  lcmd : Nat
  vol : Nat
  cmd : Option Nat
  status : Nat := 0
  r0 : Nat := 0
  r1 : Nat := 0
  committed : Bool := false
deriving DecidableEq, Repr

/-- A map snapshot. -/
structure Snap where
  seq : Nat
  vols : Tab VolP
  rp : List REnt
  floors : List (Nat × Option Nat × Nat)
  fwdSeq : Nat
deriving DecidableEq, Repr

structure Drive where
  /-- LED_DRV_STAT.STATE -/
  st : Nat := 0
  /-- meets R338 -/
  ok : Bool := false
  blocks : Nat := 0
  /-- blocks of the drive of the pool that it replaced in its place, 0 where none is known (R501) -/
  replaces : Nat := 0
  /-- its content by byte address, the snapshot areas left out -/
  mem : Mem := []
  snaps : Tab Snap := []
deriving DecidableEq, Repr

/-- What the superblock in force says (Table 16-2). -/
structure Pool where
  poolId : Nat
  blocks : Nat
  mapBlocks : Nat
  gen : Nat
  snapArea : Nat := 0
  snapSeq : Nat := 0
  opKind : Nat := 0
  opVol : Nat := 0
  opKey : Nat := 0
  opDone : Nat := 0
  remap : List (Nat × Nat) := []
deriving DecidableEq, Repr

/-- Steps of an operation: its volume's commands in flight are ending; its commit is ahead; it runs. -/
inductive OpSt where
  | waiting | committing | running
deriving DecidableEq, Repr

structure LOp where
  kind : Nat
  vol : Nat
  item : Option Nat
  dups : List Nat := []
  key : Nat
  /-- its number in the replay table -/
  cmd : Nat := 0
  body : List Byte
  st : OpSt := .waiting
  doneGib : Nat := 0
deriving DecidableEq, Repr

structure Ledger where
  drives : Tab Drive := []
  pool : Option Pool := none
  conflict : Bool := false
  vols : Tab LVol := []
  /-- data-area and spare blocks in use, and data-area blocks retired -/
  used : List Nat := []
  retired : List Nat := []
  spareUsed : Nat := 0
  cmds : Tab LCmd := []
  nextCmd : Nat := 0
  cus : Tab CU := []
  nextCu : Nat := 0
  nextSeq : Nat := 1
  durSeq : Nat := 0
  fwdSeq : Nat := 0
  rp : List REnt := []
  /-- floors: INIT, source, SEQ -/
  floors : List (Nat × Option Nat × Nat) := []
  op : Option LOp := none
  opQ : List LOp := []
  /-- a snapshot being written -/
  snap : Option Snap := none
  /-- a CMD of the peer that waits for a slot: port, body -/
  peerWait : List (Nat × List Byte) := []
  retries : Nat := 0
  dups : Nat := 0
  logWait : Nat := 0
deriving DecidableEq, Repr

end Sys2Proof.Machine
end

