-- ==== Sys2Proof/Machine/TypesPlan.lean ====
section
/-! DEFINITION. State of plans, runs, tasks, batches, breakers and state tables (chapters 04 to 07). -/

namespace Sys2Proof.Machine
open Sys2Proof

/-! ## Batches (R86, R88) -/

/-- A selected row of a batch: its segment or producer-task region and its row within it (R89), and its batch columns. The lanes of
unselected rows are unspecified and read by no clause (R88), so a batch keeps its selected rows only. -/
structure Row where
  src : Nat
  region : Nat := 0
  cols : Tab Lane
  /-- a deleted row that an INCL_DELETED scan kept, which COUNT(*) passes over (R32, R45) -/
  del : Bool := false
  /-- TABLE slot of a STRING lane that SEL or MOV took from a column of its own, by batch column (R42) -/
  heaps : Tab Nat := []
deriving DecidableEq, Repr

/-- A batch at the input of a clause: BROWS, its selected rows in order, and where it came from. -/
structure Batch where
  brows : Nat
  rows : List Row
  /-- source of its rows: 0 a table, 1 a breaker, 2 a message (R89) -/
  placeKind : Nat
  /-- the claimed unit and the source block it came from (R151) -/
  unit : Nat
  block : Nat
deriving DecidableEq, Repr

/-- A bound parameter slot (R72). -/
structure Bind where
  present : Bool
  isNull : Bool
  lane : Lane
  addr : Nat
  len : Nat
deriving DecidableEq, Repr

/-! ## Loaded plans (R68, Table 4-7) -/

structure Plan where
  /-- code of Table 4-7 -/
  st : Nat
  image : Mem
  imageLen : Nat
  /-- where its image stands in the plan store (R68) -/
  storeAt : Nat := 0
  digest : List Byte := []
  layout : Nat := 0
  sat : Nat := 0
  wrapnull : Nat := 0
  /-- logical tiles of a STANDING plan's reservation (R81) -/
  tiles : List Nat := []
  binds : List Bind := []
  /-- the UNLOAD_PLAN items that wait for it (R70) -/
  unloaders : List Nat := []
deriving DecidableEq, Repr

/-! ## Clause state of a task -/

/-- State of one measure of an aggregate entry (R40, R126): the exact sum, a count, a minimum or maximum. -/
structure Meas where
  sum : Int := 0
  count : Nat := 0
  ext : Lane := nullLane
deriving DecidableEq, Repr

/-- A group of an aggregate table: its key lanes and its measures. -/
structure Group where
  key : List Lane
  meas : List Meas
deriving DecidableEq, Repr

/-- An entry of a join table (R113): key lanes and payload lanes. -/
structure JEntry where
  key : List Lane
  pay : List Lane
deriving DecidableEq, Repr

/-- A join table (R113): D, the entries in insertion order, and by directory slot the chain of entry indices from FIRST to LAST. -/
structure JTable where
  d : Nat
  ents : List JEntry := []
  dir : Tab (List Nat) := []
deriving DecidableEq, Repr

/-- A pending state-table update (R132): table, key, epoch, and each measure's contribution: sum and count. -/
structure WRec where
  stid : Nat
  key : List Lane
  epoch : Nat
  vals : List (Int × Nat)
deriving DecidableEq, Repr

/-- State a clause keeps across the batches of a task. -/
inductive CState where
  /-- nothing -/
  | empty
  /-- IN_SET order checks already made, by slot (R98); the tables built for IN_HASH terms, by breaker (R119) -/
  | filter (checked : List Nat) (tables : Tab JTable)
  /-- aggregate table by slot -/
  | agg (slots : Tab Group)
  /-- partition and rows staged in each 512-byte stage of a PARTITION build (R117) -/
  | stage (parts : Tab (Nat × List (List Lane)))
  /-- join probe: the built table, whether the build side holds a NULL key, and its rows in all -/
  | probe (table : JTable) (nullKey : Bool) (total : Nat)
  /-- the run in progress: its rows as lanes, and when its first row came -/
  | sort (rows : List (List Lane)) (since : Nat)
  /-- the heap's rows in rank order -/
  | topn (rows : List (List Lane))
  /-- pending records of a window clause -/
  | window (recs : List WRec)
deriving DecidableEq, Repr

/-- Tag of an exchange fragment (R151): the claim unit, the source block and a sub-index, compared in this order. -/
structure Tag where
  unit : Nat
  block : Nat
  sub : Nat
deriving DecidableEq, Repr
/-- An exchange fragment: receiver (task number), tag, whether it is the last of its block for that receiver, rows. -/
structure Frag where
  dst : Nat
  tag : Tag
  last : Bool
  rows : List Row
deriving DecidableEq, Repr

/-- A partition of a task's region (R117): its first and last page, its rows, and the rows of its last page. -/
structure PartDir where
  first : Nat := 0
  last : Nat := 0
  rows : Nat := 0
  prows : Nat := 0
deriving DecidableEq, Repr

/-- A plane as a scan keeps it for its segment: its reference and the ESC_MAP of its header (R52, R53). -/
structure PlaneView where
  ref : Nat
  esc : Nat
deriving DecidableEq, Repr
/-- A segment as a scan read its entry, once (R48): with the low and high plane of each scanned table column. -/
structure SegView where
  rowBase : Nat
  rows : Nat
  delplane : Nat
  planes : Tab (PlaneView × PlaneView)
deriving DecidableEq, Repr

/-- What a checkpoint keeps of a task (R77): its position, its clauses' state, and its write positions. -/
structure TaskSt where
  /-- the claimed unit in progress, and the next block of it -/
  claim : Option Nat := none
  block : Nat := 0
  /-- the scan has checked its table descriptor (R47); the segment under way, as its entry was read (R48) -/
  tabOk : Bool := false
  seg : Option SegView := none
  /-- the source is exhausted -/
  srcDone : Bool := false
  /-- batches waiting at the input of each clause position -/
  inq : Tab (List Batch) := []
  cst : Tab CState := []
  /-- clause positions that have flushed their end of input -/
  flushed : List Nat := []
  /-- bytes written to the task's region, by breaker -/
  outPos : Tab Nat := []
  /-- runs written to the task's region, by breaker (R143); its partitions, by breaker * 65536 + partition (R117) -/
  runCnt : Tab Nat := []
  parts : Tab PartDir := []
  /-- rows with a NULL key counted beside a build region (R116) -/
  nullRows : Nat := 0
  -- exchange (R151 to R153): highest tag taken of each sender; fragments in the inbox, by sender; fragments kept in the outbox; those
  -- built that wait for outbox space or credit; the last one of the block under way for each receiver; the next sub-index; END sent
  marks : Tab Tag := []
  inbox : List (Nat × Frag) := []
  outbox : List Frag := []
  outPend : List Frag := []
  outHold : List Frag := []
  sub : Nat := 0
  endSent : Bool := false
  /-- rows of the first block that a replay passes over: a SORT run closed before it had them all (R142) -/
  skip : Nat := 0
  -- counts (R79), by clause record
  cIn : Tab Nat := []
  cOut : Tab Nat := []
  cSat : Tab Nat := []
  cWrap : Tab Nat := []
  scanned : Nat := 0
  segments : Nat := 0
  rowsOut : Nat := 0
deriving DecidableEq, Repr

structure Task where
  pipe : Nat
  /-- its index among the tasks of its pipeline -/
  idx : Nat
  /-- logical tile of the grant; it holds the task's local state once the task has started there -/
  tile : Nat
  seated : Bool := false
  st : TaskSt := {}
  ended : Bool := false
  /-- checkpoint being written; the last complete one -/
  writing : Option TaskSt := none
  ck : TaskSt := {}
  ckSeq : Nat := 0
  /-- time of the start of execution or of the last checkpoint (R77) -/
  since : Nat := 0
  /-- OUTPUT ranges reserved since the last complete checkpoint: slot, first row, rows; and those a replay must fill first
  (R514) -/
  ranges : List (Nat × Nat × Nat) := []
  reuse : List (Nat × Nat × Nat) := []
  /-- units claimed since the last complete checkpoint, and those a replay must work through first -/
  units : List Nat := []
  redo : List Nat := []
  /-- how many of `units` and `ranges` stand before the checkpoint being written -/
  unitsW : Nat := 0
  rangesW : Nat := 0
  /-- the task as it stood before the source block under way, and before the first block of a SORT run in progress, each with the count
  of `units` then (R142) -/
  blockSt : TaskSt := {}
  blockUnits : Nat := 0
  mark : Option (TaskSt × Nat) := none
  /-- tile registers that go with the checkpoint being written, and with the last complete one (R77) -/
  ctxW : Option Core := none
  ctxCk : Option Core := none
deriving DecidableEq, Repr

/-- A run of a plan (R73 to R80), for a RUN_PLAN item, or the single task of a STANDING item. -/
structure Run where
  fn : Nat
  planId : Nat
  standing : Bool := false
  granted : List Nat := []
  /-- t, the tiles granted (R74), which size the work area; a tile lost later leaves it as it was -/
  tiles : Nat := 0
  workAddr : Nat := 0
  workLen : Nat := 0
  statsAddr : Nat := 0
  binds : List Bind := []
  /-- NSEGS of each TABLE slot, read once (R48) -/
  nsegs : Tab Nat := []
  /-- next claim of each pipeline's source (R75) -/
  claims : Tab Nat := []
  /-- tasks started of each pipeline; pipelines ended, which seals their breakers -/
  started : Tab Nat := []
  ended : List Nat := []
  tasks : Tab Task := []
  nextTask : Nat := 0
  /-- next output row of each OUTPUT slot (R514) -/
  outRows : Tab Nat := []
  /-- first scratch slot and slots held, and base offset of each breaker placed there (R76, R253) -/
  slots : List Nat := []
  scratch : Tab Nat := []
  /-- the tasks have not been granted yet -/
  waiting : Bool := true
  /-- DEVTIME when the first task started; DEVTIME of arrival -/
  startAt : Nat := 0
  arrival : Nat := 0
  replays : Nat := 0
  checkpoints : Nat := 0
  workUsed : Nat := 0
  /-- row that left the last clause of a STANDING pipeline -/
  outRow : Option Row := none
deriving DecidableEq, Repr

/-! ## State tables (R130 to R136) -/

/-- A slot of a state table as its lanes say (R131): its key, HEAD, and the buckets in turn with each measure's sum and count. -/
structure STSlot where
  key : List Lane
  head : Nat
  buckets : List (List (Int × Nat))
deriving DecidableEq, Repr

structure StateTab where
  /-- key column types -/
  keys : List Nat
  nb : Nat
  bshift : Nat
  cbits : Nat
  /-- the measures: kind, type and scale of each -/
  meas : List (Nat × Nat × Nat)
  base : Nat
  mib : Nat
  slotLines : Nat
  evict : Nat := 0
  stale : Nat := 0
deriving DecidableEq, Repr

/-- The programs of a pipeline in a tile's clause area (R64): where they stand, their words, when a task last started on them, and
whether they are pinned. -/
structure TileProg where
  fn : Nat
  plan : Nat
  pipe : Nat
  start : Nat
  words : Nat
  used : Nat
  pinned : Bool
deriving DecidableEq, Repr

structure PlanSt where
  /-- loaded plans, keyed fn * 1024 + PLAN_ID -/
  plans : Tab Plan := []
  runs : Tab Run := []
  /-- RUN_PLAN, CODEC and TABLE_APPEND items that wait for a grant (R74) -/
  grantWait : List Nat := []
  /-- tile granted to each CODEC and TABLE_APPEND item -/
  oneTile : Tab Nat := []
  /-- state tables, keyed fn * 64 + STID -/
  stabs : Tab StateTab := []
  /-- state-table pool size and free bytes in MiB units (set at start-up) -/
  poolSize : Nat := 0
  /-- base address of the pool -/
  poolBase : Nat := 0
  /-- PLANES_ADDR of each segment that a TABLE_APPEND left partly filled without SEAL (R57) -/
  openSegs : List Nat := []
  /-- programs in the clause area of each physical tile -/
  progs : Tab (List TileProg) := []
deriving DecidableEq, Repr

end Sys2Proof.Machine
end

