-- ==== Sys2Proof/Machine/TypesPower.lean ====
section
/-! DEFINITION. State of the AON domain, modes, power and temperature (chapter 21), pins and start-up (chapter 24). -/

namespace Sys2Proof.Machine
open Sys2Proof

/-- Codes of TOP_MODE.MODE (Table 21-2). -/
abbrev Mode.off : Nat := 0x0
abbrev Mode.retain : Nat := 0x1
abbrev Mode.boot : Nat := 0x2
abbrev Mode.provision : Nat := 0x3
abbrev Mode.idle : Nat := 0x4
abbrev Mode.serve : Nat := 0x5
abbrev Mode.batch : Nat := 0x6
abbrev Mode.drain : Nat := 0x7
abbrev Mode.recover : Nat := 0x8
abbrev Mode.hold : Nat := 0x9
abbrev Mode.maintain : Nat := 0xA
abbrev Mode.lockdown : Nat := 0xB

/-- A mode request in the one request slot (R441). -/
structure ModeReq where
  target : Nat
  ingestStop : Bool
  drainMs : Nat
  wakeAt : Nat
  /-- the MODE_REQUEST item, none for the register form -/
  item : Option Nat
  /-- DEVTIME at which Drain was entered for it -/
  since : Nat
  /-- the map snapshot of R442 has been begun -/
  snapBegun : Bool := false
deriving DecidableEq, Repr

/-- Cluster power states, with the codes of Table 21-1. -/
inductive ClState where
  | gated | waking | clockGated | active
deriving DecidableEq, Repr

structure Cluster where
  st : ClState := .gated
  /-- end of a wake in progress (R160) -/
  wakeEnd : Nat := 0
  /-- DEVTIME since which every tile has been free, none while one is not (R169) -/
  freeSince : Option Nat := none
  /-- thermal step of Table 21-5 -/
  step : Nat := 0
  /-- TCLK ceiling set by the power limit, in MHz (R448) -/
  limitMhz : Nat := 2000
deriving DecidableEq, Repr

structure Power where
  /-- POR_L is low -/
  por : Bool := true
  /-- PERST# is low -/
  perst : Bool := true
  /-- THERM_L is driven low -/
  therm : Bool := false
  linkRdy : Bool := false
  /-- NVMn_PERST_L is high (the drives are out of reset) -/
  drivesOut : Bool := false
  /-- DEVTIME of their release -/
  drivesAt : Nat := 0
  /-- SMB_ADDR straps and the address sampled at the release of POR_L -/
  smbStrap : Nat := 0
  smbAddr : Nat := 0
  /-- TOP_MODE fields -/
  mode : Nat := 2
  prev : Nat := 0
  holdCause : Nat := 0
  /-- mode Hold was entered from; mode Recover was entered from -/
  holdFrom : Nat := 0
  recoverFrom : Nat := 0
  req : Option ModeReq := none
  reqErr : Nat := 0
  /-- ingest keeps serving during Drain (R442) -/
  drainIngest : Bool := false
  /-- a request that waits for the end of Recover (R441) -/
  reqWait : Option ModeReq := none
  /-- queues frozen by Hold with status HOLD (R444) -/
  holdFroze : List Nat := []
  /-- a lost DRAM device keeps RESUME refused (R444) -/
  dramLost : Bool := false
  /-- Maintain was entered from Provision and ends with its operation (Table 21-3) -/
  maintAuto : Bool := false
  devtime : Nat := 0
  /-- position in the 833, 834, 833 sequence (R435) -/
  phase : Nat := 0
  /-- FCLK cycles since the last ACLK edge (R436) -/
  fclk : Nat := 0
  /-- the timebase has loaded DEVTIME since FCLK started (R436) -/
  timebaseOn : Bool := false
  /-- DEVTIME of the timer wake, 0 for none (R443) -/
  wakeAt : Nat := 0
  wakeCause : Nat := 0
  wakeEn : Nat := 9
  clusters : Tab Cluster := []
  /-- last sample of each sensor, 0.25 °C units -/
  temps : Tab Int := []
  /-- sensors whose last sample was at or above the trip threshold -/
  hot : List Nat := []
  limiting : Bool := false
  mwTotal : Nat := 0
  clusterMw : Tab Nat := []
  /-- step of R502 reached: 0 none, 3 Provision entered, 5 fill started, 6 drives sized, 7 done -/
  startStep : Nat := 0
  /-- the start-up in progress is a wake from Retain (R504) -/
  fromRetain : Bool := false
  /-- size L in GiB of the map part of the Ledger area (R500, R501) -/
  ledgerL : Nat := 0
  retention : Mem := []
  /-- events on their way to the AON event log, and events lost while 64 wait (R510) -/
  evQueue : List (List Byte) := []
  evLost : Nat := 0
  evLog : Log := {}
deriving DecidableEq, Repr

end Sys2Proof.Machine
end

