-- ==== Sys2Proof/Machine/TypesRas.lean ====
section
/-! DEFINITION. State of faults, spares and recovery (chapter 22). -/

namespace Sys2Proof.Machine
open Sys2Proof

/-- A recovery in progress (R460 to R463, R469). -/
structure Recovery where
  /-- physical and logical tile -/
  phys : Nat
  logical : Nat
  startAt : Nat
  /-- spare kind of Table 22-6 -/
  kind : Nat
  /-- repaired in place from the array's redundancy (R469) -/
  inPlace : Bool
  /-- the tile's port is fenced until its spare takes its number (R461, R462) -/
  fenced : Bool
  /-- ARRSEQ of the scheduler entries that replay -/
  replaying : List Nat
deriving DecidableEq, Repr

structure Ras where
  /-- LMAP of each cluster; unlisted: 0x7654_3210 (Table 22-9) -/
  lmap : Tab Nat := []
  /-- PSTATE of each cluster; unlisted: 0b01 for position 8 -/
  pstate : Tab Nat := []
  transient : Tab Nat := []
  lasting : Tab Nat := []
  recCount : Nat := 0
  maxUs : Nat := 0
  lastUs : Nat := 0
  rcv : Option Recovery := none
  degraded : Bool := false
  sramFree : Nat := 24576
  /-- tiles being restarted after a double fault (R457): physical tiles under self-test -/
  bist : List Nat := []
  /-- free spare SerDes lanes (R8) and free spares of the cipher engine -/
  lanesFree : Nat := 4
  ciphFree : Nat := 1
  lanesRetired : Nat := 0
  ciphRetired : Nat := 0
  /-- effects of an item already released by an interrupted release (R465): item and count -/
  released : Tab Nat := []
deriving DecidableEq, Repr

/-- LMAP and PSTATE of a cluster, with their reset values. -/
def Ras.lmapOf (r : Ras) (c : Nat) : Nat := (List.lookup c r.lmap).getD 0x76543210
def Ras.pstateOf (r : Ras) (c : Nat) : Nat := (List.lookup c r.pstate).getD 0x10000

end Sys2Proof.Machine
end

