-- ==== Sys2Proof/Machine/State.lean ====
section
/-! DEFINITION. The state of the T7200 as plain data, and the state right after reset. -/

namespace Sys2Proof.Machine
open Sys2Proof

/-- The model stops with no fault: every error of the spec is a status, an exception, an event or a mode change. -/
inductive Fault where
  /-- raised by no command; kept so that the outcome type has a fault constructor (safe) -/
  | none
deriving DecidableEq, Repr

inductive Refusal where
  /-- raised by the arm of a command that has no meaning yet (safe: nothing can be proved of it) -/
  | notModelled (mnemonic : String)
deriving DecidableEq, Repr

/-- What the block has shown the outside, oldest first (assumption 4). -/
structure Outputs where
  /-- MSI-X messages: function and vector -/
  msix : List (Nat × Nat) := []
  /-- Ethernet frames sent: port and bytes -/
  frames : List (Nat × List Byte) := []
  /-- flits sent on a Bridy port -/
  flits : List (Nat × List Byte) := []
  /-- bytes on UART_TX -/
  uart : List Byte := []
  /-- SMBus answers -/
  smbus : List (List Byte) := []
  /-- answers to fabric reads of DRAM and scratch: initiator, error mark, data (R15) -/
  resp : List (Nat × Bool × List Byte) := []
  /-- answered CAM searches that had waited, with their hit (R411) -/
  searches : List (CamReq × Option CamHit) := []
deriving DecidableEq, Repr

structure State where
  /-- the commands that wait, first in, first out -/
  pending : List Instr := []
  /-- index of the next free value (assumption 2); the model's own field -/
  freeCtr : Nat := 0
  /-- the part is a T7200-512 (R1) -/
  code512 : Bool := false
  pwr : Power := {}
  ras : Ras := {}
  regs : RegSpace := {}
  fns : Funcs := {}
  qm : QM := {}
  msix : Msix := {}
  sched : Sched := {}
  dma : Dma := {}
  ing : Ingest := {}
  plans : PlanSt := {}
  cache : Cache := {}
  cam : Cam := {}
  ciph : Cipher := {}
  bry : Tab BPort := []
  led : Ledger := {}
  dmc : Dmc := {}
  sec : Sec := {}
  /-- the cores: tiles 0 to 143, Frame cores 144 to 147, the Sill core 148 -/
  cores : Tab Core := []
  /-- DRAM and the cache scratch window, by internal address -/
  dram : Mem := []
  /-- poisoned 128-byte lines, by internal address / 128 (R259, R268) -/
  poison : List Nat := []
  /-- host memory by bus address -/
  host : Mem := []
  out : Outputs := {}
deriving DecidableEq, Repr

/-- The machine right after reset: POR_L asserted, every field at its reset value. -/
def State.reset : State := {}

end Sys2Proof.Machine
end

