-- ==== Sys2Proof/Machine/Status.lean ====
section
/-! DEFINITION. The status codes of Table 25-1 (R506, R507) and the event identifiers of Table 25-3 (R511). -/

namespace Sys2Proof.Machine

/-! ## Status codes; 0 is success -/

abbrev St.invalidField : Nat := 0x101
abbrev St.accessDenied : Nat := 0x102
abbrev St.addressRange : Nat := 0x103
abbrev St.alignment : Nat := 0x104
abbrev St.lengthInvalid : Nat := 0x105
abbrev St.bufferTooSmall : Nat := 0x106
abbrev St.tagInUse : Nat := 0x107
abbrev St.ikeyStale : Nat := 0x108
abbrev St.ikeyConflict : Nat := 0x109
abbrev St.fnNotEnabled : Nat := 0x10a
abbrev St.aborted : Nat := 0x201
abbrev St.abortTooLate : Nat := 0x202
abbrev St.queueFlushed : Nat := 0x203
abbrev St.queueDisabled : Nat := 0x204
abbrev St.hold : Nat := 0x205
abbrev St.cfgParity : Nat := 0x206
abbrev St.kernelFault : Nat := 0x207
abbrev St.dataPoisoned : Nat := 0x208
abbrev St.dmaHostError : Nat := 0x209
abbrev St.resourceUnavailable : Nat := 0x20a
abbrev St.modeBusy : Nat := 0x20b
abbrev St.modeInvalid : Nat := 0x20c
abbrev St.modeCancelled : Nat := 0x20d
abbrev St.resizeNotOwner : Nat := 0x20e
abbrev St.resizeInvalid : Nat := 0x20f
abbrev St.resizeBusy : Nat := 0x210
abbrev St.planIdInUse : Nat := 0x301
abbrev St.planFormat : Nat := 0x302
abbrev St.planStoreFull : Nat := 0x303
abbrev St.planLimit : Nat := 0x304
abbrev St.planNotLoaded : Nat := 0x305
abbrev St.planStanding : Nat := 0x306
abbrev St.paramMissing : Nat := 0x307
abbrev St.paramType : Nat := 0x308
abbrev St.workAreaSmall : Nat := 0x309
abbrev St.workAreaFull : Nat := 0x30a
abbrev St.outputOverflow : Nat := 0x30b
abbrev St.layoutBound : Nat := 0x30c
abbrev St.noLayout : Nat := 0x30d
abbrev St.tableClosed : Nat := 0x30e
abbrev St.nullViolation : Nat := 0x401
abbrev St.scaleMismatch : Nat := 0x402
abbrev St.typeMismatch : Nat := 0x403
abbrev St.arithOverflow : Nat := 0x404
abbrev St.divideByZero : Nat := 0x405
abbrev St.castInvalid : Nat := 0x406
abbrev St.dictRange : Nat := 0x407
abbrev St.stringRange : Nat := 0x408
abbrev St.descriptorInvalid : Nat := 0x409
abbrev St.setOrder : Nat := 0x40a
abbrev St.joinOverflow : Nat := 0x40b
abbrev St.aggOverflow : Nat := 0x40c
abbrev St.mergeFanin : Nat := 0x40d
abbrev St.codecFormat : Nat := 0x501
abbrev St.codecLimit : Nat := 0x502
abbrev St.codecTruncated : Nat := 0x503
abbrev St.ledgerNoKey : Nat := 0x701
abbrev St.ledgerNoInit : Nat := 0x702
abbrev St.ledgerStale : Nat := 0x703
abbrev St.ledgerConflict : Nat := 0x704
abbrev St.ledgerNotFormatted : Nat := 0x705
abbrev St.ledgerKind : Nat := 0x706
abbrev St.ledgerFrozen : Nat := 0x707
abbrev St.ledgerVolBusy : Nat := 0x708
abbrev St.ledgerTooLong : Nat := 0x709
abbrev St.ledgerRange : Nat := 0x70a
abbrev St.ledgerNoSpace : Nat := 0x70b
abbrev St.ledgerPoolInUse : Nat := 0x70c
abbrev St.ledgerLogFull : Nat := 0x70d
abbrev St.ledgerBusy : Nat := 0x70e
abbrev St.ledgerUnderrun : Nat := 0x70f
abbrev St.ledgerOverrun : Nat := 0x710
abbrev St.ledgerDiscarded : Nat := 0x711
abbrev St.ledgerMedia : Nat := 0x712
abbrev St.ledgerChain : Nat := 0x713
abbrev St.ledgerPeerFail : Nat := 0x714
abbrev St.ciphKeyAbsent : Nat := 0x801
abbrev St.ciphKeyUsage : Nat := 0x802
abbrev St.ciphLength : Nat := 0x803
abbrev St.ciphCtxInvalid : Nat := 0x804
abbrev St.ciphKeyChanged : Nat := 0x805
abbrev St.ciphCtxPolicy : Nat := 0x806
abbrev St.ciphCtrWrap : Nat := 0x807
abbrev St.digestCmpFault : Nat := 0x808
abbrev St.secDenied : Nat := 0x901
abbrev St.secBadCmd : Nat := 0x902
abbrev St.secBusy : Nat := 0x903
abbrev St.secFwVerify : Nat := 0x904
abbrev St.secFwRollback : Nat := 0x905
/-- The status of ingest drop reason `k` (Table 9-3). -/
abbrev St.ingDrop (k : Nat) : Nat := 0x600 + k

/-! ## Event identifiers -/

abbrev Ev.lc0Miss : Nat := 0x1
abbrev Ev.tileHalt : Nat := 0x2
abbrev Ev.frameHalt : Nat := 0x3
abbrev Ev.accessDenied : Nat := 0x4
abbrev Ev.cfgParity : Nat := 0x5
abbrev Ev.cacheDegraded : Nat := 0x6
abbrev Ev.dramUnrepairable : Nat := 0x7
abbrev Ev.bryLaneSwap : Nat := 0x8
abbrev Ev.bryAuthFail : Nat := 0x9
abbrev Ev.cmpFault : Nat := 0xa
abbrev Ev.camDegraded : Nat := 0xb
abbrev Ev.lockdown : Nat := 0xc
abbrev Ev.thermalTrip : Nat := 0xd
abbrev Ev.modeChange : Nat := 0xe
abbrev Ev.recovery : Nat := 0xf
abbrev Ev.spareIn : Nat := 0x10
abbrev Ev.overrun : Nat := 0xff

end Sys2Proof.Machine
end

