-- ==== Sys2Proof/Machine/Ops.lean ====
section
/-! DEFINITION. Operations every block shares: time, modes, registers, events and logs, functions and windows, MSI-X. -/

namespace Sys2Proof.Machine
open Sys2Proof

/-! ## Time and modes -/

/-- The fabric timebase: DEVTIME plus floor(5k/8) for k FCLK cycles since the edge (R436). -/
def now (s : State) : Nat := if s.pwr.timebaseOn then s.pwr.devtime + 5 * s.pwr.fclk / 8 else s.pwr.devtime
/-- The mode in force: Off while POR_L is asserted (R496), else TOP_MODE.MODE. -/
def modeOf (s : State) : Nat := if s.pwr.por then Mode.off else s.pwr.mode
/-- In Recover, fetching and ingest stay as in the mode left (R460). -/
def serviceMode (s : State) : Nat := if modeOf s = Mode.recover then s.pwr.recoverFrom else modeOf s
/-- Does the mode accept work: only Idle, Serve and Batch fetch descriptors (R438)? -/
def acceptsWork (s : State) : Bool :=
  serviceMode s == Mode.idle || serviceMode s == Mode.serve || serviceMode s == Mode.batch
/-- Take the next index of a free value (assumption 2). -/
def nextFree (s : State) : Nat × State := (s.freeCtr, { s with freeCtr := s.freeCtr + 1 })

/-- A result field that no rule gives a value. -/
def freeRes (s : State) : Nat × State := ((Config.freeResult s.freeCtr).toNat, { s with freeCtr := s.freeCtr + 1 })
/-- Bytes whose content the spec leaves unspecified. -/
def freeBytes (s : State) (n : Nat) : List Byte × State :=
  ((List.range n).map (Config.freeByte s.freeCtr), { s with freeCtr := s.freeCtr + 1 })

/-! ## Registers (R475 to R479) -/

/-- Key of a register instance. -/
def regKey (off inst : Nat) : Nat := inst * 2 ^ 26 + off
/-- Stored bits of a register instance. -/
def regGet (s : State) (off inst : Nat) : Nat := tgetD s.regs.vals (regKey off inst) (regReset off inst)
/-- A field of a register instance. -/
def rfld (s : State) (off inst hi lo : Nat) : Nat := fld (regGet s off inst) hi lo
/-- Store a register instance as it stands. -/
def regPut (s : State) (off inst v : Nat) : State :=
  { s with regs := { s.regs with vals := tset s.regs.vals (regKey off inst) v } }
/-- Set one field of a register instance. -/
def regSetFld (s : State) (off inst hi lo v : Nat) : State := regPut s off inst (setFld (regGet s off inst) hi lo v)
/-- May software write a field of this access code? -/
def accWritable : Acc → Bool
  | .rw | .rwp => true
  | _ => false
/-- A write applied field by field: fields software may not write keep their bits (R476). -/
def mergeFields (old v : Nat) : List RField → Nat
  | [] => old
  | f :: fs => mergeFields (if accWritable f.acc then setFld old f.hi f.lo (fld v f.hi f.lo) else old) v fs
/-- Write a register instance under its access codes. -/
def regWrite (s : State) (off inst v : Nat) : State :=
  regPut s off inst (mergeFields (regGet s off inst) v ((regFields off).getD []))

/-- Add to a counting field, which saturates (R478). -/
def cntAdd (s : State) (off inst hi lo k : Nat) : State :=
  regSetFld s off inst hi lo (satAdd (hi + 1 - lo) (rfld s off inst hi lo) k)
/-- Number of an access path: functions 0 to 255, then SMBus, Frame's cores, Sill (R479); JTAG has one of its own (assumption 33). -/
def pathNum : Path → Nat
  | .host f => f
  | .smbus => 256
  | .core _ _ => 257
  | .sill => 258
  | .jtag => 259
/-- The function whose registers a path reads: its own on the host path, else FN 0. -/
def pathFn : Path → Nat
  | .host f => f
  | _ => 0
/-- Function tag of a path's requests (R13). -/
def pathTag : Path → Nat
  | .host f => f
  | .core _ fn => fn
  | _ => 0
/-- The registers of the cache and of the memory controller belong to the physical function and are open to Frame, Sill and, while
debug is open, JTAG (R262, R282, R480, Table 1-4). -/
def pfPath (p : Path) : Bool :=
  match p with
  | .host f => f == 0
  | .smbus => false
  | _ => true
/-- A selector as a path holds it. -/
def selGet (s : State) (p : Path) (off : Nat) : Nat := tgetD s.regs.sels (pathNum p * 2 ^ 26 + off) (regReset off 0)
/-- Write a selector on one path. -/
def selPut (s : State) (p : Path) (off v : Nat) : State :=
  let new := mergeFields (selGet s p off) v ((regFields off).getD [])
  { s with regs := { s.regs with sels := tset s.regs.sels (pathNum p * 2 ^ 26 + off) new } }

/-! ## Events (R510, R511) and logs (R509) -/

/-- The next sequence number of a log. -/
def seqNext (n : Nat) : Nat := if n ≥ 0xFFFFFEFF then 0 else n + 1
/-- Write an entry (its bytes after SEQ) into a log of `n` slots. -/
def logPut (l : Log) (n : Nat) (rest : List Byte) : Log :=
  let slot := l.nextSeq % n
  { nextSeq := seqNext l.nextSeq,
    overwritten := if (tget l.slots slot).isSome then satAdd 32 l.overwritten 1 else l.overwritten,
    slots := tset l.slots slot (natLE 4 l.nextSeq ++ rest) }
/-- Bytes 4 to 63 of an event log entry. -/
def eventBytes (s : State) (evid fn a0 a1 a2 : Nat) : List Byte :=
  natLE 2 evid ++ natLE 1 fn ++ natLE 1 0 ++ natLE 8 (now s) ++ natLE 8 a0 ++ natLE 8 a1 ++ natLE 8 a2 ++ natLE 24 0
/-- Raise an event: it joins the queue to the AON domain, or is lost when 64 wait (R510). -/
def logEvent (s : State) (evid fn a0 a1 a2 : Nat) : State :=
  if s.pwr.evQueue.length < 64 then
    { s with pwr := { s.pwr with evQueue := s.pwr.evQueue ++ [eventBytes s evid fn a0 a1 a2] } }
  else { s with pwr := { s.pwr with evLost := s.pwr.evLost + 1 } }
/-- Write the queued events into the event log, and an OVERRUN entry after lost ones (R510). -/
def drainEvents (s : State) : State :=
  let l := s.pwr.evQueue.foldl (fun l e => logPut l 256 e) s.pwr.evLog
  let l := if s.pwr.evLost = 0 then l else logPut l 256 (eventBytes s Ev.overrun 0xFF s.pwr.evLost 0 0)
  { s with pwr := { s.pwr with evQueue := [], evLost := 0, evLog := l } }

/-- A request denied under R15: counted and recorded (R420), and logged as an event. -/
def deny (s : State) (init fn addr cls : Nat) : State :=
  let s := cntAdd s Reg.SEC_DENY_CNT 0 63 32 1
  let s := regSetFld (regSetFld (regSetFld s Reg.SEC_DENY_CNT 0 23 16 init) Reg.SEC_DENY_CNT 0 15 8 fn) Reg.SEC_DENY_CNT 0 7 0 cls
  logEvent s Ev.accessDenied fn (init * 256 + fn) addr cls

/-- Count a transient or a lasting error in its class (R456, R472). -/
def rasCount (s : State) (cls : Nat) (lasting : Bool) : State :=
  let up := fun (t : Tab Nat) => tset t cls (satAdd 32 (tgetD t cls 0) 1)
  { s with ras := if lasting then { s.ras with lasting := up s.ras.lasting } else { s.ras with transient := up s.ras.transient } }

/-! ## Functions, ownership, windows (R327 to R330) -/

/-- Does a function exist (R327)? -/
def fnExists (s : State) (fn : Nat) : Bool := fn == 0 || (s.fns.vfEnable && fn ≤ s.fns.numVFs && fn ≤ 255)
/-- Holder of a unit whose unlisted units belong to FN 0 (R328). -/
def holder (t : Tab Nat) (u : Nat) : Nat := tgetD t u 0
/-- Base and count of a function's queues. -/
def queueRange (s : State) (fn : Nat) : Nat × Nat := tgetD s.fns.queueRange fn (0, 0)
/-- Device-wide number of a local queue, if the function holds it. -/
def devQueue (s : State) (fn q : Nat) : Option Nat :=
  let r := queueRange s fn
  if q < r.2 then some (r.1 + q) else none
/-- Function that holds a device-wide queue. -/
def queueHolder (s : State) (dq : Nat) : Nat :=
  ((s.fns.queueRange.find? (fun p => decide (p.2.1 ≤ dq) && decide (dq < p.2.1 + p.2.2))).map (·.1)).getD 0
/-- MSI-X vectors of a function (R310). -/
def vectorsOf (s : State) (fn : Nat) : Nat := if fn = 0 then 2048 else tgetD s.fns.nvec fn 0
/-- Logical tiles a function's pool holds, leaving tiles of a resize left out (R170). -/
def leavingUnit (s : State) (kind unit : Nat) : Bool :=
  match s.fns.resize with
  | some r => r.kind == kind && r.left.contains unit
  | none => false
/-- Is logical tile `m` ABSENT (R462)? -/
def tileAbsent (s : State) (m : Nat) : Bool := fld (s.ras.lmapOf (m / 8)) (4 * (m % 8) + 3) (4 * (m % 8)) == 0xF
/-- Physical tile of a logical tile (R9). -/
def physTile (s : State) (m : Nat) : Nat := 9 * (m / 8) + fld (s.ras.lmapOf (m / 8)) (4 * (m % 8) + 3) (4 * (m % 8))
/-- Logical tile of a physical tile, if one maps onto it. -/
def logTile (s : State) (p : Nat) : Option Nat :=
  ((List.range 8).map (8 * (p / 9) + ·)).find? (fun m => physTile s m == p && ! tileAbsent s m)
/-- The tiles of a function's pool. -/
def poolTiles (s : State) (fn : Nat) : List Nat :=
  (List.range 128).filter (fun t => holder s.fns.tileFn t == fn && ! leavingUnit s 1 t && ! tileAbsent s t)

/-- Populated DRAM size (R1, R2). -/
def dramSize (s : State) : Nat := if s.code512 then 0x8000000000 else 0x4000000000
abbrev gib : Nat := 2 ^ 30
/-- Base of the Frame area, of the service area, of the reply cache, and of the state-table pool. -/
def frameArea (s : State) : Nat := dramSize s - gib
def serviceArea (s : State) : Nat := dramSize s - 2 * gib
def replyArea (s : State) : Nat := dramSize s - 4 * gib
/-- Size of the state-table pool in GiB. -/
def poolGib (s : State) : Nat := if s.code512 then 32 else 16
def stPoolArea (s : State) : Nat := dramSize s - (4 + poolGib s) * gib
/-- Base of the Ledger area, which is the end of FN 0's window (R500). -/
def ledgerArea (s : State) : Nat := dramSize s - (5 + poolGib s + s.pwr.ledgerL) * gib
/-- The plan store, the first 256 MiB of the service area (R68; the order inside the area is a DESIGN CHOICE, assumption 36). -/
def planStore (s : State) : Nat := serviceArea s
/-- Are the addresses from `a` to below `e` covered by windows? -/
def covered (ws : List Window) : Nat → Nat → Nat → Bool
  | 0, a, e => decide (e ≤ a)
  | n + 1, a, e =>
    if e ≤ a then true
    else match ws.find? (fun w => decide (w.base ≤ a) && decide (a < w.base + w.size)) with
      | some w => covered ws n (w.base + w.size) e
      | none => false
/-- Do `n` bytes at `a` lie inside the function's DRAM region windows and in populated DRAM (R2, R330)? -/
def winOk (s : State) (fn a n : Nat) : Bool :=
  let ws := tgetD s.fns.windows fn []
  n == 0 || (covered ws 17 a (a + n) && a + n ≤ dramSize s)
/-- Is a unit leaving the function of an item that was not in flight when the resize was consumed (R333)? -/
def leavingFor (s : State) (it : Item) (kind unit : Nat) : Bool :=
  match s.fns.resize with
  | some r => r.kind == kind && r.fromFn == it.fn && r.left.contains unit && ! r.waitFor.contains it.num
  | none => false
/-- The check of an address range by an item: new items may not name a window that is leaving (Table 15-7). -/
def winIt (s : State) (it : Item) (a n : Nat) : Bool :=
  let leaving := match s.fns.resize with
    | some r => r.kind == 9 && r.fromFn == it.fn && ! r.waitFor.contains it.num
        && r.left.any (fun u => decide (u * 0x200000 < a + n) && decide (a < (u + 1) * 0x200000))
    | none => false
  n == 0 || (winOk s it.fn a n && ! leaving)

/-! ## MSI-X (R310, R311) -/

/-- Send or, when the vector is masked, mark pending a message of a function's vector. -/
def sendMsix (s : State) (fn vec : Nat) : State :=
  if bitOf (mread s.msix.table (fn * 0x8000 + 16 * vec + 12)).toNat 0 then
    if s.msix.pend.contains (fn, vec) then s
    else { s with msix := { s.msix with pend := s.msix.pend ++ [(fn, vec)] } }
  else { s with out := { s.out with msix := s.out.msix ++ [(fn, vec)] } }
/-- The function's event vector, when enabled (R311). -/
def fnEvent (s : State) (fn : Nat) : State :=
  if rfld s Reg.QM_FN_EVT fn 31 31 = 1 then sendMsix s fn (rfld s Reg.QM_FN_EVT fn 10 0) else s

/-! ## Updates of the tables -/

def getQ (s : State) (q : Nat) : HostQ := tgetD s.qm.queues q {}
def setQ (s : State) (q : Nat) (v : HostQ) : State := { s with qm := { s.qm with queues := tset s.qm.queues q v } }
def modQ (s : State) (q : Nat) (f : HostQ → HostQ) : State := setQ s q (f (getQ s q))
def getItem (s : State) (id : Nat) : Option Item := tget s.qm.items id
def setItem (s : State) (id : Nat) (v : Item) : State := { s with qm := { s.qm with items := tset s.qm.items id v } }
def modItem (s : State) (id : Nat) (f : Item → Item) : State := { s with qm := { s.qm with items := tupd s.qm.items id f } }
def setEntry (s : State) (e : Nat) (v : Entry) : State :=
  { s with sched := { s.sched with entries := tset s.sched.entries e v } }
def modEntry (s : State) (e : Nat) (f : Entry → Entry) : State :=
  { s with sched := { s.sched with entries := tupd s.sched.entries e f } }
def getCluster (s : State) (c : Nat) : Cluster := tgetD s.pwr.clusters c {}
def setCluster (s : State) (c : Nat) (v : Cluster) : State :=
  { s with pwr := { s.pwr with clusters := tset s.pwr.clusters c v } }

/-- A host memory write. -/
def hostWrite (s : State) (a : Nat) (bs : List Byte) : State := { s with host := mwrite s.host a bs }

/-- Does a range touch a poisoned line (R259)? -/
def poisonedIn (s : State) (a n : Nat) : Bool := n != 0 && s.poison.any (fun l => decide (a / 128 ≤ l) && decide (l ≤ (a + n - 1) / 128))
/-- Lines that a write replaces whole lose their poison (R268). -/
def clearPoison (s : State) (a n : Nat) : State :=
  { s with poison := s.poison.filter (fun l => ! (decide (a ≤ l * 128) && decide (l * 128 + 128 ≤ a + n))) }
def addPoison (s : State) (l : Nat) : State := if s.poison.contains l then s else { s with poison := s.poison ++ [l] }

/-- Field of an item's descriptor: `n` little-endian bytes at `a`. -/
def Item.body (it : Item) (a n : Nat) : Nat := leAt it.desc a n

/-- The owning function's error log, and writing an entry of Table 25-2 into it. -/
def errLogOf (s : State) (fn : Nat) : Log := tgetD s.qm.errLogs fn {}
def errLogWrite (s : State) (fn : Nat) (it : Item) (standing : Bool) : State :=
  let (cl, flags, pl, row) := it.place
  let key := match it.msg with
    | some m => m.msgKey
    | none => it.ikey.getD 0
  let rest := natLE 2 it.status ++ natLE 1 (if standing then 0 else it.opcode) ++ natLE 1 (if standing then 0 else it.subcode)
    ++ natLE 2 (if standing then 0xFFFF else it.localQ) ++ natLE 2 (if standing then 0 else it.tag)
    ++ natLE 2 cl ++ natLE 1 flags ++ natLE 1 0 ++ natLE 8 (now s) ++ natLE 8 pl ++ natLE 4 row
    ++ natLE 4 (min it.others 0xFFFFFFFF) ++ natLE 8 it.r0 ++ natLE 8 key ++ natLE 8 0
  { s with qm := { s.qm with errLogs := tset s.qm.errLogs fn (logPut (errLogOf s fn) 64 rest) } }

end Sys2Proof.Machine
end

