-- ==== Sys2Proof/Machine/Dram.lean ====
section
/-! DEFINITION. The LPDDR6 memory controller (spec/13_dram_controller.md, R263 to R282). The data of a write is readable from
the instant its queue takes it (R272); times of commands are left out (assumption 7), the order of service is not. -/

namespace Sys2Proof.Machine
open Sys2Proof

/-! ## Where a line lies (R264) -/

/-- The fold of the upper line bits that the subchannel hash adds to L[6:0]. -/
def scFold (l : Nat) : Nat := (fld l 13 7) ^^^ (fld l 20 14) ^^^ (fld l 27 21) ^^^ (fld l 31 28)
def subOf (l : Nat) : Nat := (fld l 6 0) ^^^ scFold l
def localOf (l : Nat) : Nat := fld l 31 7
def bankOf (l : Nat) : Nat := (fld (localOf l) 7 4) ^^^ (fld (localOf l) 23 20)
def rowOf (s : State) (l : Nat) : Nat := if s.code512 then fld (localOf l) 24 8 else fld (localOf l) 23 8
/-- The line of a subchannel with a local number. -/
def lineAt (sc lc : Nat) : Nat := lc * 128 + (sc ^^^ scFold (lc * 128))
/-- Lines of the populated DRAM. -/
def dramLines (s : State) : Nat := dramSize s / 128

def getSub (s : State) (sc : Nat) : SubCh := tgetD s.dmc.subs sc {}
def setSub (s : State) (sc : Nat) (v : SubCh) : State := { s with dmc := { s.dmc with subs := tset s.dmc.subs sc v } }
def modSub (s : State) (sc : Nat) (f : SubCh → SubCh) : State := setSub s sc (f (getSub s sc))

/-! ## Requests: wake, activate, neighbour refresh (R273, R280) -/

/-- A request reaches a subchannel, and wakes it from self-refresh. -/
def subReq (s : State) (sc : Nat) : State := modSub s sc (fun c => { c with asleep := false, lastReq := now s })
/-- Rows of a bank. -/
def bankRows (s : State) : Nat := if s.code512 then 131072 else 65536
/-- Neighbours of a row. -/
def neighbours (s : State) (r : Nat) : List Nat := (if r = 0 then [] else [r - 1]) ++ (if r + 1 < bankRows s then [r + 1] else [])
/-- Open a row that is not open: queued neighbour refreshes of the bank are performed first, and the row's own neighbours are
queued with probability 2^-K, drawn from a free value (assumption 23). -/
def activate (s : State) (sc bank row : Nat) : State :=
  let c := getSub s sc
  if tget c.opened bank = some row then s
  else
    let due := c.nrr.filter (fun q => q.1 == bank)
    let s := cntAdd s Reg.DMC_NRR_CNT 0 31 0 due.length
    let (k, s) := nextFree s
    let hit := (Config.entropy k).toNat % 2 ^ rfld s Reg.DMC_CTL 0 15 12 == 0
    setSub s sc { c with
      opened := tset c.opened bank row,
      nrr := c.nrr.filter (fun q => q.1 != bank) ++ (if hit then (neighbours s row).map (fun r => (bank, r)) else []) }
/-- A request to a line opens its row. -/
def openLine (s : State) (l : Nat) : State := activate s (subOf l) (bankOf l) (rowOf s l)
/-- Does a repair hold the line's bank? -/
def bankHeld (s : State) (l : Nat) : Bool := (getSub s (subOf l)).repairs.any (fun r => r.bank == bankOf l)

/-! ## Lasting errors (R277, R279) -/

/-- A lasting error in a row: it is soft-repaired, or counted as unrepairable when the bank's repair row is used. -/
def repairRow (s : State) (l : Nat) : State :=
  let sc := subOf l
  let b := bankOf l
  let r := rowOf s l
  if bankHeld s l then s
  else if (tget (getSub s sc).rows b).isSome then
    let s := cntAdd s Reg.DMC_REPAIR_CNT 0 31 16 1
    logEvent { s with dmc := { s.dmc with unrepairable := true } } Ev.dramUnrepairable 0xFF sc b r
  else modSub s sc (fun c => { c with repairs := c.repairs ++ [⟨b, r, false⟩] })

/-! ## Reads and the line code (R265 to R269) -/

/-- Version of a line, and whether it is the epoch's. -/
def verOf (s : State) (l : Nat) : Nat := tgetD s.dmc.vers l s.dmc.fillVer
def verOk (s : State) (l : Nat) : Bool := verOf s l == s.dmc.epoch
/-- Lines `a` to below `b` of DRAM are written with the current epoch (R267). -/
def stampLines (s : State) (a b : Nat) : State :=
  { s with dmc := { s.dmc with
      vers := if s.dmc.epoch = s.dmc.fillVer then s.dmc.vers.filter (fun p => ! (decide (a ≤ p.1) && decide (p.1 < b)))
        else (List.range (b - a)).foldl (fun t i => tset t (a + i) s.dmc.epoch) s.dmc.vers } }
def stampVer (s : State) (l : Nat) : State := stampLines s l (l + 1)
/-- What a decode shows. -/
inductive Decode where
  | clean | one | bad
deriving DecidableEq, Repr
/-- Result of a decode (R266, R267, R269): the raw word shows 0 no error, 1 one symbol wrong, on pin `pin`, 2 several symbols wrong, all on
`pin`, 3 anything else. A marked pin is rebuilt; an error on another pin is then uncorrectable. A clean line that is not poisoned must
carry the epoch's VER. -/
def decodeOf (s : State) (l dec pin : Nat) : Decode :=
  let raw : Decode := match (getSub s (subOf l)).pin with
    | none => if dec = 0 then .clean else if dec = 1 then .one else .bad
    | some p => if dec = 0 ∨ (p = pin ∧ dec < 3) then .clean else .bad
  if raw = .clean ∧ ! s.poison.contains l ∧ ! verOk s l then .bad else raw
/-- Note a lasting corrected error on a pin; the sixteenth different line within 1 s marks the pin, and Frame records the mark. -/
def notePin (s : State) (l pin : Nat) : State :=
  let sc := subOf l
  let c := getSub s sc
  let es := (c.pinErrs.filter (fun e => decide (now s ≤ e.1 + 1000000000) && ! (e.2.1 == pin && e.2.2 == l))) ++ [(now s, pin, l)]
  let n := (es.filter (fun e => e.2.1 == pin)).length
  if c.pin.isNone ∧ n ≥ 16 then
    let s := setSub s sc { c with pinErrs := es.filter (fun e => e.2.1 != pin), pin := some pin }
    cntAdd { s with dmc := { s.dmc with pinList := tset s.dmc.pinList sc pin } } Reg.DMC_REPAIR_CNT 0 15 0 1
  else setSub s sc { c with pinErrs := es }
/-- A corrected read: the line is written back and read once more; a second correction is lasting. -/
def corrected (s : State) (l pin again : Nat) : State :=
  let s := stampVer (cntAdd s Reg.DMC_ERR_CNT 0 63 32 1) l
  if decodeOf s l again pin = .clean then rasCount s 4 false else notePin (repairRow (rasCount s 4 true) l) l pin
/-- A line that no retry reads: it is poisoned, and its row repaired. -/
def poisonLine (s : State) (l : Nat) : State :=
  repairRow (rasCount (cntAdd (stampVer (addPoison s l) l) Reg.DMC_ERR_CNT 0 15 0 1) 4 true) l
/-- Handle a read of a line under R267: `d0`, `d1`, `d2` are what its first, second and third decodes show (see decodeOf). -/
def readLine (s : State) (l d0 d1 d2 pin : Nat) : State :=
  match decodeOf s l d0 pin with
  | .clean => s
  | .one => corrected s l pin d1
  | .bad =>
    match decodeOf s l d1 pin with
    | .clean => rasCount (cntAdd s Reg.DMC_ERR_CNT 0 31 16 1) 4 false
    | .one => corrected (rasCount (cntAdd s Reg.DMC_ERR_CNT 0 31 16 1) 4 false) l pin d2
    | .bad => poisonLine s l

/-! ## Ports, urgency and the order of service (R270, R271) -/

/-- Latency target of a port. -/
def portTarget (s : State) (p : Nat) : Nat := rfld s (Reg.DMC_PORT0_TGT + 8 * p) 0 15 0
/-- Urgency of a request: prefetches always 0, and 3 on arrival with a target of 0. -/
def urgency (s : State) (q : MemReq) : Nat :=
  let t := portTarget s q.port
  let d := q.at_ + t
  if q.port = 4 then 0
  else if d ≤ now s then 3
  else if 4 * (d - now s) ≤ t then 2
  else if 2 * (d - now s) ≤ t then 1
  else 0
/-- Is the row of a line open? -/
def rowHit (s : State) (l : Nat) : Bool := tget (getSub s (subOf l)).opened (bankOf l) == some (rowOf s l)
/-- Rank of a request: its urgency, then a row hit. -/
def rank (s : State) (q : MemReq) : Nat := 2 * urgency s q + b2n (rowHit s q.line)
/-- The request served next of a queue in order of arrival: of those whose bank no repair holds, the first of the highest rank. -/
def pickReq (s : State) (qs : List MemReq) : Option MemReq :=
  let ok := qs.filter (fun q => ! bankHeld s q.line)
  ok.find? (fun q => ok.all (fun r => decide (rank s r ≤ rank s q)))
/-- Does a read of urgency 2 or 3 wait? -/
def urgentRead (s : State) (sc : Nat) : Bool := (getSub s sc).rq.any (fun q => decide (2 ≤ urgency s q))
/-- A read arrives in its subchannel's queue, unless a request for its line waits there or a queued write answers it (R272). -/
def queueRead (s : State) (l port : Nat) : State :=
  let c := getSub s (subOf l)
  if c.rq.any (fun q => q.line == l) ∨ c.wq.any (fun q => q.line == l) then s
  else modSub s (subOf l) (fun c => { c with rq := c.rq ++ [⟨l, port, now s⟩] })
/-- DRAM_READ: a request for a line on a port arrives, or is served when it is the one picked; what its decodes show is told. One to a
held bank waits (R277); one that a queued write answers reads nothing from the devices. -/
def doDramRead (l port d0 d1 d2 pin : Nat) (s : State) : State :=
  if l ≥ dramLines s ∨ pin > 11 ∨ port > 7 then s
  else
    let s := queueRead (subReq s (subOf l)) l port
    match pickReq s (getSub s (subOf l)).rq with
    | none => s
    | some q =>
      if q.line = l then
        readLine (openLine (modSub s (subOf l) (fun c => { c with rq := c.rq.filter (fun r => r.line != l) })) l) l d0 d1 d2 pin
      else s

/-! ## Repairs end (R277, R278) -/

/-- Lines of a row of a bank. -/
def rowLines (sc bank row : Nat) : List Nat :=
  (List.range 16).map (fun col => lineAt sc (row * 256 + (bank ^^^ fld (row * 256) 23 20) * 16 + col))
/-- A repair is made: the bank's repair row holds the row, it is counted and recorded in Frame's list. -/
def repairMade (s : State) (sc : Nat) (r : Repair) : State :=
  let s := modSub s sc (fun c => { c with
    repairs := c.repairs.filter (fun x => x.bank != r.bank), rows := tset c.rows r.bank (r.hard, r.row) })
  let s := { s with dmc := { s.dmc with
    repairList := s.dmc.repairList.filter (fun e => ! (e.1 == sc && e.2.1 == r.bank)) ++ [(sc, r.bank, r.row, r.hard)] } }
  if r.hard then cntAdd s Reg.DMC_REPAIR_CNT 0 47 32 1 else cntAdd s Reg.DMC_REPAIR_CNT 0 63 48 1
/-- ROW_REPAIR_DONE: the row's lines have been read under R267 and written to the repair row, and the bank is released; `decs` holds the
decodes of each line and the pin of a symbol error, in column order (a line not listed reads clean). -/
def doRowRepairDone (sc bank : Nat) (decs : List (Nat × Nat × Nat × Nat)) (s : State) : State :=
  match (getSub s sc).repairs.find? (fun r => r.bank == bank) with
  | none => s
  | some r =>
    let s := ((rowLines sc bank r.row).zip decs).foldl (fun s p => readLine s p.1 p.2.1 p.2.2.1 p.2.2.2.1 p.2.2.2.2) s
    logEvent (repairMade s sc r) Ev.spareIn 0xFF 7 (sc * 2 ^ 21 + bank * 2 ^ 17 + r.row) (sc * 16 + bank)

/-! ## Writes (R267, R272) -/

/-- A write takes its place in its subchannel's queue. -/
def enqWrite (s : State) (q : MemReq) : State := modSub s (subOf q.line) (fun c => { c with wq := c.wq ++ [q] })
/-- The bytes of a write take effect: they become readable, with the current epoch, poisoned or not. -/
def lineStore (s : State) (w : StopWrite) : State :=
  match w.bytes with
  | some b =>
    let s := stampVer { s with dram := mwrite s.dram (128 * w.line) (sub b 0 128) } w.line
    if w.bad then addPoison s w.line else clearPoison s (128 * w.line) 128
  | none => stampVer s w.line
/-- A write enters its subchannel's queue. -/
def queueWrite (s : State) (w : StopWrite) : State := enqWrite (lineStore s w) ⟨w.line, w.port, w.at_⟩
/-- Memory stop of a line: four channels, eight subchannels. -/
def stopOf (l : Nat) : Nat := subOf l / 8
/-- A write reaches its memory stop: it enters its queue, or waits there behind a full queue, a held bank or earlier writes. -/
def stopWrite (s : State) (w : StopWrite) : State :=
  let s := subReq s (subOf w.line)
  let q := tgetD s.dmc.stops (stopOf w.line) []
  if q.isEmpty ∧ (getSub s (subOf w.line)).wq.length < 64 ∧ ! bankHeld s w.line then queueWrite s w
  else { s with dmc := { s.dmc with stops := tset s.dmc.stops (stopOf w.line) (q ++ [w]) } }
/-- DRAM_WRITE: a line is written on a port, poisoned or not. -/
def doDramWrite (l port : Nat) (bytes : List Byte) (bad : Bool) (s : State) : State :=
  if l ≥ dramLines s ∨ port > 7 then s else stopWrite s ⟨l, some bytes, bad, port, now s⟩
/-- Writes that wait at a stop enter the queues in order while they fit. -/
def stopDrain : List StopWrite → State → List StopWrite × State
  | [], s => ([], s)
  | w :: rest, s =>
    if (getSub s (subOf w.line)).wq.length < 64 ∧ ! bankHeld s w.line then stopDrain rest (queueWrite s w) else (w :: rest, s)
/-- Writes that wait at a stop move up. -/
def stopMoveUp (s : State) (k : Nat) : State :=
  let z := stopDrain (tgetD s.dmc.stops k []) s
  { z.2 with dmc := { z.2.dmc with stops := if z.1.isEmpty then terase z.2.dmc.stops k else tset z.2.dmc.stops k z.1 } }
/-- Up to `n` queued writes of a subchannel are drained in the order of R271. -/
def drainWrites (sc : Nat) : Nat → State → State
  | 0, s => s
  | n + 1, s => match pickReq s (getSub s sc).wq with
    | none => s
    | some q => drainWrites sc n (modSub (openLine s q.line) sc (fun c => { c with wq := c.wq.erase q }))
/-- WRITE_BATCH_DRAIN: with 48 or more writes queued, or no read waiting, `n` of them are drained; a waiting read of urgency 2 or 3 has
stopped the batch. Those that wait at the subchannel's stop move up. -/
def doWriteBatchDrain (sc n : Nat) (s : State) : State :=
  let c := getSub s sc
  if sc > 127 ∨ urgentRead s sc ∨ (c.wq.length < 48 ∧ ! c.rq.isEmpty) then s
  else stopMoveUp (drainWrites sc (min n c.wq.length) s) (sc / 8)
/-- Every queued and waiting write is written: the controller is about to lose power (R280). -/
def flushWrites (s : State) : State :=
  let s := s.dmc.stops.foldl (fun s p => p.2.foldl lineStore s) s
  { s with dmc := { s.dmc with stops := [], subs := s.dmc.subs.map (fun p => (p.1, { p.2 with wq := [], rq := [], owed := 0 })) } }

/-! ## Writes of the device's blocks to DRAM and to the scratch window (R11, R267, R268) -/

/-- Lines `a` to below `e` of DRAM that bytes at `p` of length `n` touch. -/
def lineEnd (p n : Nat) : Nat := if n = 0 then p / 128 else (p + n - 1) / 128 + 1
/-- Bytes of DRAM are written: every line touched takes the current epoch, and one written whole loses its poison. -/
def dramStore (s : State) (a : Nat) (bs : List Byte) : State :=
  stampLines (clearPoison { s with dram := mwrite s.dram a bs } a bs.length) (a / 128) (lineEnd a bs.length)

/-! ## Refresh and delays (R274 to R276) -/

/-- Copy a channel's shadow delays and bin into use, and clear its pending bit. -/
def delayCopy (s : State) (ch : Nat) : State :=
  if ! s.dmc.pend.contains ch then s
  else
    let keys := [2 * ch, 2 * ch + 1].flatMap (fun sc => (List.range 15).map (fun p => sc * 16 + p))
    { s with dmc := { s.dmc with
        pend := s.dmc.pend.filter (· != ch),
        delays := keys.foldl (fun t k => tset t k (regGet s Reg.DMC_DLY_VAL k)) s.dmc.delays,
        bins := tset s.dmc.bins ch (rfld s Reg.DMC_DLY_BIN ch 5 0) } }
/-- REFRESH: a refresh of a subchannel falls due. While a request of urgency 2 or 3 waits it is postponed, up to the limit (R271); else the
subchannel is refreshed with what it owes, which closes its rows; at the limit one refresh is made. A pending delay copy of its channel
comes with a refresh. -/
def doRefresh (sc : Nat) (s : State) : State :=
  let c := getSub s sc
  let urgent := urgentRead s sc || c.wq.any (fun q => decide (2 ≤ urgency s q))
  if sc > 127 ∨ c.asleep then s
  else if urgent ∧ c.owed < Config.refreshLimit.toNat then modSub s sc (fun c => { c with owed := c.owed + 1 })
  else delayCopy (modSub s sc (fun c => { c with opened := [], owed := if urgent then c.owed else 0 })) (sc / 2)
/-- DELAY_COPY: the refresh of a channel whose delays are pending. -/
def doDelayCopy (ch : Nat) (s : State) : State :=
  if ch > 63 ∨ ! s.dmc.pend.contains ch then s
  else delayCopy (modSub (modSub s (2 * ch) (fun c => { c with opened := [] })) (2 * ch + 1) (fun c => { c with opened := [] })) ch
/-- Delay bin of a temperature in units of 0.25 °C (R275). -/
def delayBin (t : Int) : Nat := if t > 500 then 35 else min 35 ((t + 220) / 20).toNat
/-- Frame writes the shadow of a channel with the set of its sensor's bin, and notes the reading (R275, R276). -/
def shadowSet (s : State) (ch : Nat) (t : Int) : State :=
  let b := delayBin t
  let s := regSetFld s Reg.DMC_DLY_BIN ch 5 0 b
  let s := [2 * ch, 2 * ch + 1].foldl (fun s sc => (List.range 15).foldl (fun s p =>
    regPut s Reg.DMC_DLY_VAL (sc * 16 + p) (mergeFields 0 (Config.delay b sc p).toNat ((regFields Reg.DMC_DLY_VAL).getD []))) s) s
  { s with dmc := { s.dmc with dlyTemp := tset s.dmc.dlyTemp ch t } }
/-- Frame applies a channel's shadow: its pending bit is set (R276). -/
def shadowApply (s : State) (ch : Nat) : State :=
  if s.dmc.pend.contains ch then s else { s with dmc := { s.dmc with pend := s.dmc.pend ++ [ch] } }
/-- Frame applies a new set to each channel of a memory stop whose sensor reads at least 5 °C away from the reading at the channel's last
application (R275); while a channel's copy is pending Frame waits. -/
def retuneStop (s : State) (m : Nat) (t : Int) : State :=
  (List.range 4).foldl (fun s c =>
    let ch := 4 * m + c
    match tget s.dmc.dlyTemp ch with
    | some last => if (t - last).natAbs ≥ 20 ∧ ! s.dmc.pend.contains ch then shadowApply (shadowSet s ch t) ch else s
    | none => s) s
/-- REFRESH_RATE_POLL: each device's report sets the rate of its eight subchannels. -/
def doRefreshRatePoll (rates : List Nat) (s : State) : State :=
  (rates.zipIdx.take 16).foldl (fun s (r, d) => if r > 2 then s
    else (List.range 8).foldl (fun s k => modSub s (8 * d + k) (fun c => { c with rate := r })) s) s
/-- DELAY_APPLY: a write of DMC_DLY_APPLY sets pending bits. -/
def doDelayApply (p : Path) (v : Nat) (s : State) : State :=
  if ! pfPath p then s
  else
    let new := (List.range 64).filter (fun c => bitOf v c && ! s.dmc.pend.contains c)
    { s with dmc := { s.dmc with pend := s.dmc.pend ++ new } }
/-- Instance of a shadow register that a path's DMC_DLY_SEL shows: DMC_DLY_VAL by subchannel and pin, DMC_DLY_BIN by channel. -/
def dlyInst (s : State) (p : Path) (off : Nat) : Nat :=
  let w := selGet s p Reg.DMC_DLY_SEL
  if off = Reg.DMC_DLY_VAL then fld w 14 8 * 16 + fld w 3 0 else fld w 14 8 / 2
/-- DELAY_SHADOW_WRITE: a write of DMC_DLY_VAL or DMC_DLY_BIN; pin 15 has no delay. -/
def doDelayShadowWrite (p : Path) (bin : Bool) (v : Nat) (s : State) : State :=
  let off := if bin then Reg.DMC_DLY_BIN else Reg.DMC_DLY_VAL
  let w := selGet s p Reg.DMC_DLY_SEL
  if ! pfPath p || s.dmc.pend.contains (fld w 14 8 / 2) || (! bin && fld w 3 0 == 15) then s
  else regWrite s off (dlyInst s p off) v
/-- DMC_CTL_WRITE: an NRR_K outside 6 to 14 leaves that field as it is. -/
def doDmcCtlWrite (p : Path) (v : Nat) (s : State) : State :=
  if ! pfPath p then s
  else
    let k := fld v 15 12
    regWrite s Reg.DMC_CTL 0 (if k < 6 ∨ k > 14 then setFld v 15 12 (rfld s Reg.DMC_CTL 0 15 12) else v)

/-! ## Repair commands (R278, R279) -/

/-- Does any repair hold a bank (DMC_STATUS.REPAIRING)? -/
def repairing (s : State) : Bool := s.dmc.subs.any (fun p => ! p.2.repairs.isEmpty)
/-- Start a repair command on the bank's unused repair row, or make its soft repair hard. -/
def pprStart (s : State) (v : Nat) (hard : Bool) : State :=
  let sc := fld v 27 21
  let b := fld v 20 17
  let r := fld v 16 0
  let s := regPut s Reg.DMC_PPR_CMD 0 (mergeFields 0 v ((regFields Reg.DMC_PPR_CMD).getD []))
  if r ≥ bankRows s then s
  else match tget (getSub s sc).rows b with
    | none => modSub s sc (fun c => { c with repairs := c.repairs ++ [⟨b, r, hard⟩] })
    | some (h, old) => if hard ∧ ! h ∧ old = r then modSub s sc (fun c => { c with repairs := c.repairs ++ [⟨b, r, true⟩] }) else s
/-- PPR_SOFT: discarded while a repair runs. -/
def doPprSoft (p : Path) (v : Nat) (s : State) : State :=
  if ! pfPath p || fld v 31 30 != 1 || repairing s then s else pprStart s v false
/-- PPR_HARD: in Maintain only. -/
def doPprHard (p : Path) (v : Nat) (s : State) : State :=
  if ! pfPath p || fld v 31 30 != 2 || repairing s || modeOf s != Mode.maintain then s else pprStart s v true

/-- Frame reapplies the soft repairs and the marks of its list through DMC_PPR_CMD (R278). -/
def reapplyRepairs (s : State) : State :=
  let s := s.dmc.repairList.foldl (fun s e =>
    if e.2.2.2 ∨ (tget (getSub s e.1).rows e.2.1).isSome then s
    else
      let s := regPut s Reg.DMC_PPR_CMD 0 (2 ^ 30 + e.1 * 2 ^ 21 + e.2.1 * 2 ^ 17 + e.2.2.1)
      cntAdd (modSub s e.1 (fun c => { c with rows := tset c.rows e.2.1 (false, e.2.2.1) })) Reg.DMC_REPAIR_CNT 0 63 48 1) s
  s.dmc.pinList.foldl (fun s p => modSub s p.1 (fun c => { c with pin := some p.2 })) s

/-! ## Self-refresh and the patrol scrub (R280, R281) -/

/-- SELF_REFRESH_ENTRY: in Idle, a subchannel without a request for SR_IDLE_US. -/
def doSelfRefreshEntry (sc : Nat) (s : State) : State :=
  let idle := rfld s Reg.DMC_CTL 0 31 16
  let c := getSub s sc
  if sc < 128 ∧ modeOf s = Mode.idle ∧ idle ≠ 0 ∧ c.lastReq + 1000 * idle ≤ now s ∧ c.wq = [] ∧ c.rq = [] ∧ c.repairs = []
      ∧ (tgetD s.dmc.stops (sc / 8) []) = [] then modSub s sc (fun c => { c with asleep := true, opened := [] }) else s
/-- Wake every subchannel (R280, R439). -/
def wakeDram (s : State) : State :=
  { s with dmc := { s.dmc with subs := s.dmc.subs.map (fun p => (p.1, { p.2 with asleep := false })) } }
/-- Put every subchannel in self-refresh (R443). -/
def sleepDram (s : State) : State :=
  (List.range 128).foldl (fun s sc => modSub s sc (fun c => { c with asleep := true, opened := [], nrr := [] })) s
/-- PATROL_SCRUB_READ: the next line of a subchannel is read, when the request at port 6 is the one picked. -/
def doPatrolScrubRead (sc d0 d1 d2 pin : Nat) (s : State) : State :=
  let c := getSub s sc
  if sc > 127 ∨ rfld s Reg.DMC_CTL 0 7 0 = 0 ∨ c.asleep then s
  else
    let n := dramLines s / 128
    let l := lineAt sc (c.scrub % n)
    let q : MemReq := ⟨l, 6, now s⟩
    if pin > 11 ∨ pickReq s (c.rq ++ [q]) ≠ some q then s
    else
      let s := modSub s sc (fun c => { c with scrub := (c.scrub + 1) % n })
      if c.wq.any (fun q => q.line == l) then s else readLine (openLine s l) l d0 d1 d2 pin

/-! ## Live fields -/

/-- DMC_STATUS. -/
def dmcStatus (s : State) : Nat :=
  b2n (s.dmc.subs.any (fun p => p.2.asleep)) + 2 * b2n s.dmc.unrepairable + 4 * b2n (s.dmc.subs.any (fun p => p.2.pin.isSome))
    + 8 * b2n (repairing s) + 16 * b2n (! s.dmc.pend.isEmpty)
/-- DMC_CH_STAT of a subchannel. -/
def dmcChStat (s : State) (sc : Nat) : Nat :=
  let c := getSub s sc
  tgetD s.dmc.bins (sc / 2) 0 * 2 ^ 58 + b2n c.asleep * 2 ^ 56 + b2n c.pin.isSome * 2 ^ 55 + c.pin.getD 0 * 2 ^ 51 + c.rate * 2 ^ 49
    + (16 - c.rows.length) * 2 ^ 44
/-- DMC_PPR_ENT of a bank. -/
def dmcPprEnt (s : State) (sc bank : Nat) : Nat :=
  match tget (getSub s sc).rows bank with
  | none => 0
  | some (h, r) => (1 + b2n h) * 2 ^ 30 + r
/-- Unused repair rows (RAS_SPARE_INV.PPR). -/
def pprFree (s : State) : Nat := 2048 - s.dmc.subs.foldl (fun n p => n + p.2.rows.length) 0

end Sys2Proof.Machine
end

