-- ==== Sys2Proof/Machine/Cache.lean ====
section
/-! DEFINITION. The system cache (spec/12_system_cache.md, R246 to R262): placement, replacement, partitions, prefetch, locks,
scratch slots, maintenance, power, and way retirement. The data itself stands in `State.dram`: one value per line (R11). -/

namespace Sys2Proof.Machine
open Sys2Proof

/-! ## Placement (R247) -/

def lineOf (addr : Nat) : Nat := fld addr 38 7
def sliceOf (l : Nat) : Nat :=
  (fld l 4 0) ^^^ (fld l 9 5) ^^^ (fld l 14 10) ^^^ (fld l 19 15) ^^^ (fld l 24 20) ^^^ (fld l 29 25) ^^^ (fld l 31 30)
def setOf (l : Nat) : Nat := (fld l 14 5) ^^^ (fld l 24 15) ^^^ (fld l 31 25)
/-- Key of a line's set, and of a way of it. -/
def setKey (l : Nat) : Nat := sliceOf l * 1024 + setOf l
def wayKey (l way : Nat) : Nat := setKey l * 16 + way

/-! ## Ways -/

def slotReg (q : Nat) : Nat := Reg.SC_SCRATCH_SLOT0 + 8 * q
/-- Is a logical way converted to scratch by a slot? -/
def isScratch (s : State) (w : Nat) : Bool :=
  (List.range 12).any (fun q => rfld s (slotReg q) 0 31 31 == 1 && rfld s (slotReg q) 0 19 16 == w)
def isLocked (s : State) (w : Nat) : Bool := bitOf (regGet s Reg.SC_LOCK 0) w
def isOff (s : State) (w : Nat) : Bool := bitOf (regGet s Reg.SC_PWR 0) w
/-- Partition of a function (R249). -/
def partOf (s : State) (fn : Nat) : Nat := rfld s Reg.SC_FN_PART fn 2 0
/-- Partition of a request (R249): Frame cores, the Sill core and what runs on no function's behalf use partition 0; BAR4 carries tag 0. -/
def partFor (s : State) (init fn : Nat) (item : Option Nat) : Nat :=
  if init < 0x90 ∨ (0x95 ≤ init ∧ init ≤ 0xA1 ∧ init ≠ 0x96 ∧ item.isSome) then partOf s fn
  else if init = 0x96 then partOf s 0
  else 0
/-- Ways a partition may fill in a slice. -/
def fillWays (s : State) (part slice : Nat) : List Nat :=
  (List.range 16).filter (fun w => bitOf (regGet s (Reg.SC_PART0_CFG + 8 * part) 0) w && ! isLocked s w && ! isScratch s w
    && ! isOff s w && ! s.cache.absent.contains (slice * 16 + w))
/-- The way that holds a line. -/
def findWay (s : State) (l : Nat) : Option Nat :=
  (List.range 16).find? (fun w => (tget s.cache.lines (wayKey l w)).map (·.line) == some l)

/-! ## Replacement (R248): a tree of 15 bits, node 1 at the root, node n over nodes 2n and 2n + 1, leaves 16 to 31 -/

/-- Point the nodes above a way away from it. -/
def plruTouch (t w : Nat) : Nat :=
  [3, 2, 1, 0].foldl (fun t lvl =>
    let node := (w + 16) / 2 ^ (lvl + 1)
    setFld t (node - 1) (node - 1) (1 - (w + 16) / 2 ^ lvl % 2)) t
/-- Ways below a node. -/
def under (node : Nat) (w : Nat) : Bool := (List.range 5).any (fun k => (w + 16) / 2 ^ k == node)
/-- Follow the tree to an allowed way (DEDUCED: a side without an allowed way is passed over, assumption 13). -/
def plruVictim (t : Nat) (ok : List Nat) : Nat → Nat → Option Nat
  | 0, node => ok.find? (fun w => w + 16 == node)
  | n + 1, node =>
    let b := 2 * node + b2n (bitOf t (node - 1))
    let side := if ok.any (under b) then b else 4 * node + 1 - b
    if ok.any (under side) then plruVictim t ok n side else none

/-! ## Changes of lines -/

def setLine (s : State) (l w : Nat) (c : CLine) : State :=
  { s with cache := { s.cache with lines := tset s.cache.lines (wayKey l w) c } }
def dropLine (s : State) (l w : Nat) : State := { s with cache := { s.cache with lines := terase s.cache.lines (wayKey l w) } }
def touch (s : State) (l w : Nat) : State :=
  { s with cache := { s.cache with plru := tset s.cache.plru (setKey l) (plruTouch (tgetD s.cache.plru (setKey l) 0) w) } }
/-- Invalidate every line of a logical way, in one slice or in all; a dirty line is written back, its value already stands
in DRAM. -/
def emptyWay (s : State) (w : Nat) (slice : Option Nat) : State :=
  { s with cache := { s.cache with lines := s.cache.lines.filter (fun p =>
      ! (p.1 % 16 == w && (match slice with
        | some k => p.1 / 16384 == k
        | none => true))) } }
/-- Where an access of a line goes (R248): to the way that holds it, into the way it fills, or past the cache. -/
inductive Place where
  | hit (w : Nat)
  | fill (w : Nat)
  | pass
deriving DecidableEq, Repr
def linePlace (s : State) (part l : Nat) : Place :=
  if ! s.cache.on then .pass
  else match findWay s l with
    | some w => .hit w
    | none => match plruVictim (tgetD s.cache.plru (setKey l) 0) (fillWays s part (sliceOf l)) 4 1 with
      | some w => .fill w
      | none => .pass
/-- The access uses its place: the line stands there, dirty after a write, and counts as the most recently used. -/
def usePlace (s : State) (l : Nat) (write : Bool) : Place → State
  | .hit w =>
    let c := tgetD s.cache.lines (wayKey l w) ⟨l, false⟩
    touch (setLine s l w { c with dirty := c.dirty || write }) l w
  | .fill w => touch (setLine s l w ⟨l, write⟩) l w
  | .pass => s
/-- One access of a line, whose DRAM requests are served within the step (assumption 40). -/
def touchLine (s : State) (part l : Nat) (write : Bool) : State := usePlace s l write (linePlace s part l)
/-- The accesses of the lines of `n` bytes at `a`. -/
def touchRange (s : State) (part a n : Nat) (write : Bool) : State :=
  if ! s.cache.on then s
  else (List.range (lineEnd a n - a / 128)).foldl (fun s i => touchLine s part (a / 128 + i) write) s
/-- A read of a line reaches DRAM on its requester's port (R270). -/
def dramReq (s : State) (l port : Nat) : State := queueRead (subReq s (subOf l)) l port
/-- A line goes to DRAM: its value already stands there, and its write takes a place in the queue. -/
def writeBack (s : State) (l port : Nat) : State := stopWrite s ⟨l, none, false, port, now s⟩
/-- The DRAM requests of an access on a port (R248, R270): the write-back of the victim's dirty line at port 6; the read of a missing line,
but for a full-line write; a write that passes the cache. -/
def lineTraffic (s : State) (l port : Nat) (write full : Bool) : Place → State
  | .hit _ => s
  | .fill w =>
    let s := match tget s.cache.lines (wayKey l w) with
      | some c => if c.dirty then writeBack s c.line 6 else s
      | none => s
    if full then s else dramReq s l port
  | .pass =>
    let s := if full then s else dramReq s l port
    if write then writeBack s l port else s

/-! ## Stores -/

/-- First byte of the scratch window, and of a slot. -/
abbrev scratchBase : Nat := 0xE000000000
def slotBase (q : Nat) : Nat := scratchBase + q * 4194304
/-- The way that holds a line of the scratch window, as slice * 16 + logical way (R254). -/
def scratchWay (s : State) (l : Nat) : Nat :=
  let n := l - scratchBase / 128
  n % 32 * 16 + rfld s (slotReg (n / 32768)) 0 19 16
/-- Bytes of one line of scratch are written; those of a lost way are discarded (R261). -/
def scratchLine (s : State) (a : Nat) (bs : List Byte) : State :=
  if s.cache.absent.contains (scratchWay s (a / 128)) then s
  else clearPoison { s with dram := mwrite s.dram a bs } a bs.length
/-- Bytes of the scratch window are written, line by line. -/
def scratchStore (s : State) (a : Nat) (bs : List Byte) : State :=
  if s.cache.absent = [] then clearPoison { s with dram := mwrite s.dram a bs } a bs.length
  else (List.range (lineEnd a bs.length - a / 128)).foldl (fun s i =>
    let lo := max a ((a / 128 + i) * 128)
    let hi := min (a + bs.length) ((a / 128 + i + 1) * 128)
    scratchLine s lo ((bs.drop (lo - a)).take (hi - lo))) s
/-- The device's blocks write DRAM through the home slices, in a partition, and scratch (R11, R248, R261). -/
def dramWrite (s : State) (part a : Nat) (bs : List Byte) : State :=
  if a ≥ scratchBase then scratchStore s a bs else dramStore (touchRange s part a bs.length true) a bs
/-- Zeros are written to `n` bytes of DRAM. -/
def dramZero (s : State) (part a n : Nat) : State :=
  let s := touchRange s part a n true
  stampLines (clearPoison { s with dram := mzero s.dram a n } a n) (a / 128) (lineEnd a n)
/-- The accesses of a read of the device's blocks. -/
def dramTouch (s : State) (part a n : Nat) : State := if a ≥ scratchBase then s else touchRange s part a n false

/-- The accesses of a read that an item names, in DRAM or host memory. -/
def itemTouch (s : State) (fn : Nat) (host : Bool) (a n : Nat) : State := if host then s else dramTouch s (partOf s fn) a n

/-! ## Prefetch (R251) -/

/-- Note a demand read of a tile's stream, and fill the lines its prefetcher asks for. -/
def prefetch (s : State) (fn tile stream l : Nat) : State :=
  let k := tile * 8 + stream
  let depth := rfld s Reg.SC_CTL 0 7 4
  if rfld s Reg.SC_CTL 0 1 1 = 0 ∨ depth = 0 then s
  else
    let p := tgetD s.cache.strides k ⟨l, 0, false⟩
    let d : Int := (l : Int) - (p.last : Int)
    let armed := d == p.delta && d != 0 && d.natAbs ≤ 64
    let s := { s with cache := { s.cache with strides := tset s.cache.strides k ⟨l, d, armed⟩ } }
    if armed then
      (List.range depth).foldl (fun (s : State) (i : Nat) =>
        let t : Int := (l : Int) + d * ((i : Int) + 1)
        if t < 0 ∨ ! winOk s fn (t.toNat * 128) 128 then s
        else match linePlace s (partOf s fn) t.toNat with
          | .fill w => usePlace (lineTraffic s t.toNat 4 false false (.fill w)) t.toNat false (.fill w)
          | _ => s) s
    else s

/-! ## Errors and retirement (R259, R260) -/

/-- Physical way behind a logical way of a slice. -/
def physWay (s : State) (slice w : Nat) : Nat := tgetD s.cache.pway (slice * 16 + w) w
/-- A failing way begins its retirement. -/
def retireWay (s : State) (slice w : Nat) : State :=
  if s.cache.retiring.contains (slice * 16 + w) then s
  else regSetFld { s with cache := { s.cache with retiring := s.cache.retiring ++ [slice * 16 + w] } } Reg.SC_STATUS 0 3 3 1
/-- A line that cannot be corrected: clean is fetched again, dirty and scratch become poisoned. -/
def badLine (s : State) (slice w set : Nat) : State :=
  match (List.range 12).find? (fun q => rfld s (slotReg q) 0 31 31 == 1 && rfld s (slotReg q) 0 19 16 == w) with
  | some q => addPoison s (slotBase q / 128 + set * 32 + slice)
  | none =>
    match tget s.cache.lines ((slice * 1024 + set) * 16 + w) with
    | some c =>
      let s := { s with cache := { s.cache with lines := terase s.cache.lines ((slice * 1024 + set) * 16 + w) } }
      if c.dirty then addPoison s c.line else s
    | none => s
/-- An error detected in a way: 1 corrected, 2 transient, 3 lasting. -/
def wayError (s : State) (slice w set err : Nat) : State :=
  if err = 1 then
    let k := slice * 18 + physWay s slice w
    let ts := (tgetD s.cache.ce k []).filter (fun t => decide (now s ≤ t + 1000000000)) ++ [now s]
    let s := cntAdd { s with cache := { s.cache with ce := tset s.cache.ce k ts } } Reg.SC_ERR_CNT 0 63 32 1
    if ts.length ≥ 16 then retireWay s slice w else s
  else if err = 2 then rasCount (cntAdd s Reg.SC_ERR_CNT 0 31 16 1) 3 false
  else if err = 3 then retireWay (badLine (rasCount (cntAdd s Reg.SC_ERR_CNT 0 31 16 1) 3 true) slice w set) slice w
  else s

/-! ## The end of a retirement copy -/

/-- Lines of a slot that a slice has lost read as poisoned (R261). -/
def lostPoison (s : State) (q slice : Nat) : State :=
  (List.range 1024).foldl (fun s set => addPoison s (slotBase q / 128 + set * 32 + slice)) s
/-- A retirement copy ends (R260, R261); `bad` names the sets whose line could not be corrected. -/
def wayRetireDone (slice w : Nat) (bad : List Nat) (s : State) : State :=
  if ! s.cache.retiring.contains (slice * 16 + w) then s
  else
    let s := bad.foldl (fun s set => badLine s slice w set) s
    let s := { s with cache := { s.cache with retiring := s.cache.retiring.filter (· != slice * 16 + w) } }
    let s := if s.cache.retiring.isEmpty then regSetFld s Reg.SC_STATUS 0 3 3 0 else s
    let s := cntAdd s Reg.SC_ERR_CNT 0 15 0 1
    let old := physWay s slice w
    let retire := fun (s : State) => { s with cache := { s.cache with wstate := tset s.cache.wstate (slice * 18 + old) 2 } }
    match [16, 17].find? (fun p => tgetD s.cache.wstate (slice * 18 + p) 1 == 1) with
    | some p =>
      let s := retire s
      logEvent { s with cache := { s.cache with
          wstate := tset s.cache.wstate (slice * 18 + p) 0, pway := tset s.cache.pway (slice * 16 + w) p } }
        Ev.spareIn 0xFF 2 (slice * 18 + old) (slice * 18 + p)
    | none =>
      let s := retire s
      let s := { s with cache := { s.cache with absent := s.cache.absent ++ [slice * 16 + w] } }
      let s := match (List.range 12).find? (fun q => rfld s (slotReg q) 0 31 31 == 1 && rfld s (slotReg q) 0 19 16 == w) with
        | some q => lostPoison s q slice
        | none => emptyWay s w (some slice)
      logEvent (regSetFld s Reg.SC_STATUS 0 4 4 1) Ev.cacheDegraded 0xFF slice w 0

/-! ## Locks, maintenance -/

/-- SC_LOCK_WRITE (R252): bits of scratch and powered-down ways that the write would set stay 0. -/
def doScLockWrite (p : Path) (v : Nat) (s : State) : State :=
  if ! pfPath p then s
  else
    let old := regGet s Reg.SC_LOCK 0
    let new := (List.range 16).foldl (fun n w =>
      n + b2n (bitOf v w && (bitOf old w || ! (isScratch s w || isOff s w))) * 2 ^ w) 0
    regPut s Reg.SC_LOCK 0 new
/-- A write of SC_OP.CMD (R255). -/
def scOp (p : Path) (cmd : Nat) (s : State) : State :=
  if ! pfPath p then s
  else if s.cache.op.isSome then cntAdd s Reg.SC_OP_DISCARD 0 31 0 1
  else if cmd = 0 ∨ cmd > 3 then s
  else
    let base := regGet s Reg.SC_OP_BASE 0
    let len := regGet s Reg.SC_OP_LEN 0
    let s := regSetFld (regPut s Reg.SC_OP 0 cmd) Reg.SC_STATUS 0 9 8 0
    if len = 0 then s
    else if base + len > dramSize s then regSetFld s Reg.SC_STATUS 0 9 8 1
    else regSetFld { s with cache := { s.cache with op := some ⟨cmd, base, len⟩ } } Reg.SC_STATUS 0 1 1 1
/-- SC_CLEAN (R255). -/
def doScClean (p : Path) (s : State) : State := scOp p 1 s
/-- SC_CLEAN_INVAL (R255). -/
def doScCleanInval (p : Path) (s : State) : State := scOp p 2 s
/-- SC_LOCK_LOAD (R252, R255). -/
def doScLockLoad (p : Path) (s : State) : State := scOp p 3 s
/-- Place a line in a locked way of its set, or count a miss. -/
def lockLoad (s : State) (l : Nat) : State :=
  let locked := (List.range 16).filter (fun w => isLocked s w && ! isOff s w && ! s.cache.absent.contains (sliceOf l * 16 + w))
  match findWay s l with
  | some w =>
    if locked.contains w then s
    else match locked.find? (fun v => (tget s.cache.lines (wayKey l v)).isNone) with
      | some v => setLine (dropLine s l w) l v (tgetD s.cache.lines (wayKey l w) ⟨l, false⟩)
      | none => cntAdd s Reg.SC_LOCK_MISS 0 31 0 1
  | none =>
    match locked.find? (fun v => (tget s.cache.lines (wayKey l v)).isNone) with
    | some v => setLine s l v ⟨l, false⟩
    | none => cntAdd s Reg.SC_LOCK_MISS 0 31 0 1
/-- SC_OP_DONE (R255, R256): the lines of the range are visited and the command ends. -/
def doScOpDone (s : State) : State :=
  match s.cache.op with
  | none => s
  | some o =>
    let inRange := fun (l : Nat) => decide (o.base ≤ l * 128) && decide (l * 128 < o.base + o.len)
    let s := { s with cache := { s.cache with op := none } }
    let s := regSetFld s Reg.SC_STATUS 0 1 1 0
    if o.cmd = 1 then
      { s with cache := { s.cache with lines := s.cache.lines.map (fun p => if inRange p.2.line then (p.1, { p.2 with dirty := false }) else p) } }
    else if o.cmd = 2 then
      let n := (s.cache.lines.filter (fun p => inRange p.2.line && isLocked s (p.1 % 16))).length
      cntAdd { s with cache := { s.cache with lines := s.cache.lines.filter (fun p => ! inRange p.2.line) } } Reg.SC_LOCKED_INVAL 0 31 0 n
    else (List.range (o.len / 128)).foldl (fun s i => lockLoad s (o.base / 128 + i)) s

/-! ## Disable, power -/

/-- CACHE_DISABLE (R257): SC_CTL.EN = 0 starts the clean. -/
def doCacheDisable (p : Path) (s : State) : State :=
  if ! pfPath p then s
  else
    let s := regSetFld s Reg.SC_CTL 0 0 0 0
    if s.cache.on then regSetFld s Reg.SC_STATUS 0 0 0 1 else s
/-- CACHE_DISABLE_DONE (R257): the clean ends, every cache line is invalid. -/
def doCacheDisableDone (s : State) : State :=
  if rfld s Reg.SC_STATUS 0 0 0 = 1 then
    regSetFld { s with cache := { s.cache with lines := [], on := false } } Reg.SC_STATUS 0 0 0 0
  else s
/-- Enable the cache. -/
def cacheOn (s : State) : State :=
  regSetFld (regSetFld { s with cache := { s.cache with on := true } } Reg.SC_CTL 0 0 0 1) Reg.SC_STATUS 0 0 0 0
/-- CACHE_ENABLE (R257): EN = 1 stops a running clean. -/
def doCacheEnable (p : Path) (s : State) : State := if pfPath p then cacheOn s else s
/-- A write of SC_PWR.OFF (R258): a bit that names a scratch way stays 0; a way whose bit is cleared comes up empty. -/
def scPwr (p : Path) (v : Nat) (s : State) : State :=
  if ! pfPath p then s
  else
    let new := (List.range 16).foldl (fun n w => n + b2n (bitOf v w && ! isScratch s w) * 2 ^ w) 0
    let s := ((List.range 16).filter (fun w => isOff s w && ! bitOf new w)).foldl (fun s w => emptyWay s w none) s
    let s := regPut s Reg.SC_PWR 0 new
    let s := { s with cache := { s.cache with lost := s.cache.lost.filter (fun w => bitOf new w) } }
    regSetFld s Reg.SC_STATUS 0 2 2 (b2n ((List.range 16).any (fun w => bitOf new w && ! s.cache.lost.contains w)))
/-- WAY_POWER_DOWN (R258): a write of SC_PWR that sets bits of OFF. -/
def doWayPowerDown (p : Path) (v : Nat) (s : State) : State := scPwr p v s
/-- WAY_POWER_UP (R258): a write of SC_PWR that clears bits of OFF; a way comes up empty. -/
def doWayPowerUp (p : Path) (v : Nat) (s : State) : State := scPwr p v s
/-- WAY_POWER_OFF_DONE (R258): a way named in OFF is cleaned, invalidated and loses its power. -/
def doWayPowerOffDone (w : Nat) (s : State) : State :=
  if w < 16 ∧ isOff s w ∧ ¬ s.cache.lost.contains w then
    let s := emptyWay { s with cache := { s.cache with lost := s.cache.lost ++ [w] } } w none
    regSetFld s Reg.SC_STATUS 0 2 2 (b2n ((List.range 16).any (fun w => isOff s w && ! s.cache.lost.contains w)))
  else s

/-! ## Scratch (R253, R254) -/

/-- Return a slot's way to the cache, empty. -/
def scratchOff (s : State) (q : Nat) : State :=
  clearPoison { regPut s (slotReg q) 0 0 with dram := mzero s.dram (slotBase q) 4194304 } (slotBase q) 4194304
/-- Convert a way for a slot; the slot waits for READY. -/
def scratchOn (s : State) (q way part : Nat) (run : Bool) : State :=
  if isLocked s way ∨ isOff s way ∨ isScratch s way then s
  else emptyWay (regPut s (slotReg q) 0 (2 ^ 31 + b2n run * 2 ^ 30 + part * 2 ^ 24 + way * 2 ^ 16)) way none
/-- A write of SC_SCRATCH_SLOTq: the physical function's is discarded on a slot that a run holds; VALID = 0 releases the slot; VALID = 1 converts WAY, and
on a valid slot with the same WAY changes PART. -/
def scratchWrite (p : Path) (q v : Nat) (s : State) : State :=
  if ! pfPath p ∨ q ≥ 12 ∨ (rfld s (slotReg q) 0 30 30 = 1 ∧ p = .host 0) then s
  else if ! bitOf v 31 then
    let s := if rfld s (slotReg q) 0 31 31 = 1 then scratchOff s q else s
    regPut s (slotReg q) 0 (fld v 26 24 * 2 ^ 24 + fld v 19 16 * 2 ^ 16)
  else if rfld s (slotReg q) 0 31 31 = 1 ∧ rfld s (slotReg q) 0 19 16 = fld v 19 16 then regSetFld s (slotReg q) 0 26 24 (fld v 26 24)
  else
    let t := scratchOn s q (fld v 19 16) (fld v 26 24) false
    if rfld t (slotReg q) 0 31 31 = 1 then t else s
/-- SCRATCH_CONVERT (R253). -/
def doScratchConvert (p : Path) (q v : Nat) (s : State) : State := scratchWrite p q v s
/-- SCRATCH_RELEASE (R253). -/
def doScratchRelease (p : Path) (q v : Nat) (s : State) : State := scratchWrite p q v s
/-- The way of a slot is filled with zeros and READY becomes 1 (R253). -/
def scratchReady (q : Nat) (s : State) : State :=
  if q < 12 ∧ rfld s (slotReg q) 0 31 31 = 1 ∧ rfld s (slotReg q) 0 0 0 = 0 then
    let w := rfld s (slotReg q) 0 19 16
    let s := (s.cache.absent.filter (fun k => k % 16 == w)).foldl (fun s k => lostPoison s q (k / 16)) s
    regSetFld { s with dram := mzero s.dram (slotBase q) 4194304 } (slotReg q) 0 0 0 1
  else s

/-- First slot of `n` contiguous free slots, with ways to convert, for a run (R253); ways that are locked, powered down,
converted or absent somewhere are not taken (R261). -/
def freeSlots (s : State) (n : Nat) : Option (Nat × List Nat) :=
  let ways := (List.range 16).filter (fun w => ! isLocked s w && ! isOff s w && ! isScratch s w && ! s.cache.absent.any (fun k => k % 16 == w))
  if n = 0 ∨ ways.length < n then none
  else ((List.range (13 - n)).find? (fun q => (List.range n).all (fun i => rfld s (slotReg (q + i)) 0 31 31 == 0))).map (fun q => (q, ways.take n))

end Sys2Proof.Machine
end

