-- ==== Sys2Proof/Machine/Crc.lean ====
section
/-! DEFINITION. The cyclic redundancy checks the spec names: CRC-32C (R42, R371) and CRC-32 of Ethernet (R174). -/

namespace Sys2Proof.Machine
open Sys2Proof

/-- `n` steps of a reflected CRC register with polynomial `poly`. -/
def crcShift (poly : Nat) : Nat → Nat → Nat
  | 0, c => c
  | n + 1, c => if c % 2 == 1 then crcShift poly n ((c / 2) ^^^ poly) else crcShift poly n (c / 2)
/-- Feed bytes to a reflected 32-bit CRC register. -/
def crcFeed (poly : Nat) : List Byte → Nat → Nat
  | [], c => c
  | b :: bs, c => crcFeed poly bs (crcShift poly 8 (c ^^^ b.toNat))
/-- CRC-32C as used in iSCSI (RFC 3720). -/
def crc32c (bs : List Byte) : Nat := crcFeed 0x82F63B78 bs 0xFFFFFFFF ^^^ 0xFFFFFFFF
/-- CRC-32 of IEEE 802.3. -/
def crc32 (bs : List Byte) : Nat := crcFeed 0xEDB88320 bs 0xFFFFFFFF ^^^ 0xFFFFFFFF

end Sys2Proof.Machine
end

