-- ==== Sys2Proof/Machine/DataModel.lean ====
section
/-! DEFINITION. The 72-bit data model (spec/02_data_model.md, R26 to R50): lanes, widening, NULL, scales, overflow,
rounding, strings, and the table descriptor with its checks. -/

namespace Sys2Proof.Machine
open Sys2Proof

/-! ## Lanes (R26, R27) -/

/-- The number a lane holds, none for NULL. -/
def laneInt (l : Lane) : Option Int := if l = nullLane then none else some l.toInt
/-- The lane of an integer (its low 72 bits). -/
def intLane (i : Int) : Lane := BitVec.ofInt 72 i
/-- The lane of a natural number. -/
def natLane (n : Nat) : Lane := BitVec.ofNat 72 n
/-- Lane of an optional number. -/
def optLane : Option Int → Lane
  | some i => intLane i
  | none => nullLane
/-- Lane of a Bool column (R31). -/
def boolLane (b : Bool) : Lane := if b then 1#72 else 0#72
/-- A BOOL lane read as a truth value, none for NULL (R31). -/
def laneBool (l : Lane) : Option Bool := if l = nullLane then none else some (l != 0#72)
/-- Nine little-endian bytes (PACK9). -/
def pack9 (l : Lane) : List Byte := natLE 9 l.toNat
/-- Sixteen bytes (LANE16): PACK9 and seven zero bytes. -/
def lane16 (l : Lane) : List Byte := natLE 16 l.toNat
/-- The lane of a nine-byte string. -/
def unpack9 (bs : List Byte) : Lane := natLane (leAt bs 0 9)
/-- Low and high plane elements of the split form. -/
def laneLow (l : Lane) : Nat := l.toNat % 2 ^ 64
def laneHigh (l : Lane) : Nat := l.toNat / 2 ^ 64
/-- Join the two planes' elements. -/
def joinLane (low high : Nat) : Lane := natLane (low % 2 ^ 64 + (high % 256) * 2 ^ 64)

/-! ## Widening (R28, R29; Table 2-1) -/

/-- Bytes of a packed source value of a type code; `l16` chooses LANE16 for code 0. -/
def srcWidth (code : Nat) (l16 : Bool) : Nat :=
  match code with
  | 0x0 => if l16 then 16 else 9
  | 0x1 => 1 | 0x2 => 2 | 0x3 => 4 | 0x4 => 8
  | 0x5 => 1 | 0x6 => 2 | 0x7 => 4 | 0x8 => 8
  | 0x9 => 8 | 0xA => 1 | 0xB => 4 | 0xC => 8 | 0xD => 4 | 0xE => 8
  | _ => 0
/-- Widen one source value into a lane. -/
def widen (code : Nat) (bs : List Byte) : Lane :=
  match code with
  | 0x0 => unpack9 bs
  | 0x1 => intLane (sgn 8 (leAt bs 0 1))
  | 0x2 => intLane (sgn 16 (leAt bs 0 2))
  | 0x3 => intLane (sgn 32 (leAt bs 0 4))
  | 0x4 => intLane (sgn 64 (leAt bs 0 8))
  | 0x5 => natLane (leAt bs 0 1)
  | 0x6 => natLane (leAt bs 0 2)
  | 0x7 => natLane (leAt bs 0 4)
  | 0x8 => natLane (leAt bs 0 8)
  | 0x9 => natLane (leAt bs 0 8)
  | 0xA => boolLane (leAt bs 0 1 != 0)
  | 0xB => intLane (sgn 32 (leAt bs 0 4))
  | 0xC => intLane (sgn 64 (leAt bs 0 8))
  | 0xD => natLane (leAt bs 0 4)
  | 0xE => intLane (sgn 64 (leAt bs 0 8))
  | _ => nullLane

/-! ## Overflow modes and rounding (R36 to R39, R41) -/

/-- The outcome of narrowing an exact result: a lane with its two counted events, or a trap with a status. -/
inductive Arith where
  | val (l : Lane) (sat wrapnull : Bool)
  | trap (status : Nat)
deriving DecidableEq, Repr

/-- Narrow an exact value to a lane under an overflow mode: 0 TRAP, 1 SATURATE, 2 WRAP (Table 2-3). -/
def narrow (mode : Nat) (x : Int) : Arith :=
  if -int72Max ≤ x ∧ x ≤ int72Max then .val (intLane x) false false
  else if mode = 0 then .trap St.arithOverflow
  else if mode = 1 then .val (intLane (if x < 0 then -int72Max else int72Max)) true false
  else .val (intLane x) false (intLane x = nullLane)
/-- Narrow to a 144-bit accumulator: the clamp or wrap of R41; a wrapped 144-bit result is never NULL. -/
def acc144Max : Int := (2 ^ 143 : Nat) - 1
def narrow144 (mode : Nat) (x : Int) : Option (Int × Bool) :=
  if -acc144Max ≤ x ∧ x ≤ acc144Max then some (x, false)
  else if mode = 0 then none
  else if mode = 1 then some (if x < 0 then -acc144Max else acc144Max, true)
  else some (sgn 144 (unsgn 144 x), false)

/-- Divide with rounding: 0 HALF_EVEN, 1 HALF_UP, 2 TOWARD_ZERO (R39); the divisor is not 0. -/
def divRound (mode : Nat) (n d : Int) : Int :=
  let q := Int.tdiv n d
  let r := Int.tmod n d
  if r = 0 ∨ mode = 2 then q
  else
    let t := 2 * r.natAbs
    if t > d.natAbs ∨ (t = d.natAbs ∧ (mode = 1 ∨ q.natAbs % 2 = 1)) then q + n.sign * d.sign else q

/-- Division of two lanes (R38): NULL in gives NULL; a zero divisor traps or gives a counted NULL. -/
def divLane (omode rmode k : Nat) (n d : Lane) : Arith :=
  match laneInt n, laneInt d with
  | some a, some b =>
    if b = 0 then (if omode = 0 then .trap St.divideByZero else .val nullLane false true)
    else narrow omode (divRound rmode (a * (10 ^ k : Nat)) b)
  | _, _ => .val nullLane false false
/-- A NULL-propagating two-operand arithmetic result. -/
def arith2 (omode : Nat) (f : Int → Int → Int) (a b : Lane) : Arith :=
  match laneInt a, laneInt b with
  | some x, some y => narrow omode (f x y)
  | _, _ => .val nullLane false false

/-! ## FLOAT64 order (R30) -/

/-- A number that orders FLOAT64 lanes by the totalOrder predicate. -/
def floatKey (l : Lane) : Int :=
  let w := laneLow l
  if w < 2 ^ 63 then (w : Int) else -(((w - 2 ^ 63 : Nat) : Int) + 1)

/-! ## Strings (R42, R43; Table 2-5) -/

/-- Fields of a string handle. -/
def strPhash (l : Lane) : Nat := l.toNat / 2 ^ 60
def strLen (l : Lane) : Nat := fld l.toNat 59 40
def strOff (l : Lane) : Nat := fld l.toNat 39 0
/-- PHASH of a string. -/
def phashOf (bs : List Byte) : Nat := if bs.isEmpty then 0 else crc32c (bs.take 16) % 4096
/-- The bytes of a handle, or none when the handle leaves the heap (STRING_RANGE). -/
def strBytes (m : Mem) (heap size : Nat) (l : Lane) : Option (List Byte) :=
  if 8 * strOff l + strLen l > size then none else some (mreads m (heap + 8 * strOff l) (strLen l))
/-- Unsigned byte order, a proper prefix first. -/
def bytesLt : List Byte → List Byte → Bool
  | [], [] => false
  | [], _ :: _ => true
  | _ :: _, [] => false
  | a :: as, b :: bs => if a = b then bytesLt as bs else decide (a.toNat < b.toNat)

/-! ## Table descriptors (R46; Tables 2-6 to 2-9) -/

structure TableDesc where
  addr : Nat
  ncols : Nat
  nrows : Nat
  nsegs : Nat
  appendOpen : Bool
  coltab : Nat
  segdir : Nat
  heap : Nat
  heapSize : Nat
  generation : Nat
deriving DecidableEq, Repr

structure ColDesc where
  type : Nat
  scale : Nat
  origin : Nat
  notNull : Bool
  dictSorted : Bool
  dictAddr : Nat
  dictCount : Nat
deriving DecidableEq, Repr

structure SegDesc where
  rowBase : Nat
  rows : Nat
  deleted : Nat
  delplane : Nat
  planes : Nat
deriving DecidableEq, Repr

def readTable (m : Mem) (a : Nat) : TableDesc :=
  { addr := a, ncols := mnat m (a + 6) 2, nrows := mnat m (a + 8) 8 % 2 ^ 48, nsegs := mnat m (a + 16) 4,
    appendOpen := bitOf (mnat m (a + 20) 4) 0, coltab := mnat m (a + 24) 8, segdir := mnat m (a + 32) 8,
    heap := mnat m (a + 40) 8, heapSize := mnat m (a + 48) 8, generation := mnat m (a + 56) 8 }
def readCol (m : Mem) (t : TableDesc) (c : Nat) : ColDesc :=
  let a := t.coltab + 32 * c
  { type := mnat m a 1, scale := mnat m (a + 1) 1, origin := mnat m (a + 2) 1,
    notNull := bitOf (mnat m (a + 3) 1) 0, dictSorted := bitOf (mnat m (a + 3) 1) 1,
    dictAddr := mnat m (a + 8) 8, dictCount := mnat m (a + 16) 4 }
def readSeg (m : Mem) (t : TableDesc) (i : Nat) : SegDesc :=
  let a := t.segdir + 32 * i
  { rowBase := mnat m a 8, rows := mnat m (a + 8) 4, deleted := mnat m (a + 12) 4,
    delplane := mnat m (a + 16) 8, planes := mnat m (a + 24) 8 }

/-- The scan's checks of a table descriptor, steps 1 to 4 of R47, with ORIGIN's reserved code 0xF (R28) beside TYPE and SCALE. A
dictionary's handles stand in LANE16 form, 16 bytes each (DESIGN CHOICE, assumption 12: the spec gives the array no element size). `ok a n` says that `n` bytes at `a` lie inside the
function's windows and in populated DRAM. None when all pass. -/
def checkTable (m : Mem) (ok : Nat → Nat → Bool) (a : Nat) : Option Nat :=
  let t := readTable m a
  let cols := (List.range t.ncols).map (readCol m t)
  if ¬ ok a 64 then some St.addressRange
  else if mnat m a 4 ≠ 0x72447444 ∨ mnat m (a + 4) 2 ≠ 1 ∨ t.ncols = 0 ∨ t.ncols > 1024 ∨ a % 128 ≠ 0
      ∨ t.coltab % 128 ≠ 0 ∨ t.segdir % 128 ≠ 0 ∨ t.heap % 8 ≠ 0 then some St.descriptorInvalid
  else if ¬ ok t.coltab (32 * t.ncols) ∨ ¬ ok t.segdir (32 * t.nsegs) ∨ (t.heap ≠ 0 ∧ ¬ ok t.heap t.heapSize) then
    some St.addressRange
  else if cols.any (fun c => c.type == 0 || c.type > 8 || c.scale > 18 || (c.type != 2 && c.scale != 0) || c.origin == 0xF) then
    some St.descriptorInvalid
  else if cols.any (fun c => c.type == 7 && ! ok c.dictAddr (16 * c.dictCount)) then some St.addressRange
  else none

/-- Deletion bit of row `i` in the deletion plane at an address, 0 for none (R45). -/
def rowDeleted (m : Mem) (delplane i : Nat) : Bool :=
  delplane != 0 && bitOf (mread m (delplane + i / 8)).toNat (i % 8)

end Sys2Proof.Machine
end

