-- ==== Sys2Proof/Machine/Layout.lean ====
section
/-! DEFINITION. Layout programs and the reply payload (spec/09_message_ingest.md, R180 to R182, R185, R187, R188). -/

namespace Sys2Proof.Machine
open Sys2Proof

/-! ## Layout memory (Tables 9-4 to 9-6) -/

abbrev Lay.kind (m : Mem) : Nat := mnat m 0 1
abbrev Lay.mtiEnc (m : Mem) : Nat := mnat m 1 1
abbrev Lay.nfield (m : Mem) : Nat := mnat m 2 1
abbrev Lay.failReply (m : Mem) : Bool := bitOf (mnat m 3 1) 0
abbrev Lay.mtiCol (m : Mem) : Nat := mnat m 4 1
abbrev Lay.tsCol (m : Mem) : Nat := mnat m 5 1
abbrev Lay.nstep (m : Mem) : Nat := mnat m 6 1
abbrev Lay.litLen (m : Mem) : Nat := mnat m 10 2

/-- A field entry (Table 9-5). -/
structure LField where
  at_ : Nat
  lenType : Nat
  prefixEnc : Nat
  dataEnc : Nat
  conv : Nat
  len : Nat
  col : Nat
deriving DecidableEq, Repr
/-- A template step (Table 9-6). -/
structure LStep where
  at_ : Nat
  src : Nat
  col : Nat
  lenType : Nat
  prefixEnc : Nat
  dataEnc : Nat
  conv : Nat
  len : Nat
  litOff : Nat
  litLen : Nat
deriving DecidableEq, Repr

def Lay.field (m : Mem) (i : Nat) : LField :=
  let a := 64 + 8 * i
  let f := mnat m (a + 2) 1
  ⟨mnat m a 2, fld f 1 0, fld f 3 2, fld f 5 4, mnat m (a + 3) 1, mnat m (a + 4) 2, mnat m (a + 6) 1⟩
def Lay.fields (m : Mem) : List LField := (List.range (Lay.nfield m)).map (Lay.field m)
def Lay.step (m : Mem) (i : Nat) : LStep :=
  let a := 64 + 8 * Lay.nfield m + 12 * i
  let f := mnat m (a + 4) 1
  ⟨mnat m a 2, mnat m (a + 2) 1, mnat m (a + 3) 1, fld f 1 0, fld f 3 2, fld f 5 4, mnat m (a + 5) 1, mnat m (a + 6) 2,
    mnat m (a + 8) 2, mnat m (a + 10) 2⟩
def Lay.steps (m : Mem) : List LStep := (List.range (Lay.nstep m)).map (Lay.step m)
/-- Bytes of the literal pool. -/
def Lay.lit (m : Mem) (off n : Nat) : List Byte := mreads m (64 + 8 * Lay.nfield m + 12 * Lay.nstep m + off) n

/-! ## The check (R181) -/

/-- Bytes of a length prefix. -/
def prefixLen (lenType enc : Nat) : Nat :=
  if lenType = 1 then (if enc = 1 then 2 else 1)
  else if lenType = 2 then (if enc = 1 then 3 else 2) else 0
/-- Largest length a prefix expresses. -/
def prefixMax (lenType enc : Nat) : Nat :=
  if lenType = 1 then (if enc = 2 then 255 else 99)
  else if lenType = 2 then (if enc = 2 then 8192 else 999) else 8192
/-- Bytes of `n` units of a data encoding: digits, characters, bytes. -/
def dataBytes (enc n : Nat) : Nat := if enc = 0 then (n + 1) / 2 else n
/-- Largest encoded length of a field or step. -/
def maxBytes (lenType penc denc len : Nat) : Nat := prefixLen lenType penc + dataBytes denc len

/-- Is a list strictly rising? -/
def rising : List Nat → Bool
  | a :: b :: t => decide (a < b) && rising (b :: t)
  | _ => true
/-- Is the format of a field or step one the kind allows? -/
def fmtOk (kind lenType penc denc len : Nat) : Bool :=
  if kind = 0 then lenType ≤ 2 && penc ≤ 2 && denc ≤ 2 && len ≤ prefixMax lenType penc
  else lenType == 0 && penc ≤ 1 && denc == 2 && 1 ≤ len && len ≤ 9
def placeOk (kind at_ : Nat) : Bool := if kind = 0 then 2 ≤ at_ && at_ ≤ 128 else at_ ≤ 8191
def fieldOk (kind : Nat) (f : LField) : Bool :=
  placeOk kind f.at_ && fmtOk kind f.lenType f.prefixEnc f.dataEnc f.len && f.conv ≤ 4 && (f.conv == 0 || f.col ≤ 63)
    && (f.conv != 1 || f.dataEnc != 2)
/-- Is the format of a template step one the kind allows? R182 limits the length and coding of a FIXED layout's entries, not of its
steps. -/
def stepFmtOk (kind lenType penc denc len : Nat) : Bool :=
  if kind = 0 then fmtOk kind lenType penc denc len else lenType == 0 && penc ≤ 1 && denc ≤ 2
def stepOk (kind pool : Nat) (st : LStep) : Bool :=
  placeOk kind st.at_ && st.src ≤ 2 && stepFmtOk kind st.lenType st.prefixEnc st.dataEnc st.len
    && (st.src != 1 || (st.col ≤ 63 && 1 ≤ st.conv && st.conv ≤ 3 && (st.conv != 1 || st.dataEnc != 2)))
    && st.litLen ≤ 1024 && st.litOff + st.litLen ≤ pool
/-- Longest bytes a template step may yield. -/
def stepMax (m : Mem) (st : LStep) : Nat :=
  match st.src with
  | 0 => match (Lay.fields m).find? (fun f => f.at_ == st.at_) with
    | some f => maxBytes f.lenType f.prefixEnc f.dataEnc f.len
    | none => 0
  | 1 => max (maxBytes st.lenType st.prefixEnc st.dataEnc st.len) st.litLen
  | _ => st.litLen
/-- Payload of a FIXED reply: the largest step offset plus that step's LEN (R187). -/
def fixedSize (steps : List LStep) : Nat :=
  let top := (steps.map (·.at_)).foldl max 0
  ((steps.filter (fun st => st.at_ == top)).map (fun st => st.at_ + st.len)).foldl max 0
/-- Longest reply: envelope, MTI and bitmaps or the FIXED extent, and the steps. -/
def replyMax (m : Mem) : Nat :=
  let steps := Lay.steps m
  if Lay.kind m = 0 then
    32 + (if Lay.mtiEnc m = 1 then 4 else 2) + 8 + (if steps.any (fun st => st.at_ > 64) then 8 else 0)
      + (steps.map (stepMax m)).foldl (· + ·) 0
  else 32 + (steps.map (fun st => st.at_ + st.len)).foldl max 0
/-- The check a write of VALID = 1 makes: 0 and 0 when it passes, else ERR and ERR_AT. -/
def layoutCheck (m : Mem) : Nat × Nat :=
  let k := Lay.kind m
  let colOk := fun c => c ≤ 63 || c == 0xFF
  if k > 1 || Lay.mtiEnc m > 1 || (k == 1 && Lay.mtiEnc m != 0) || Lay.nfield m == 0 || Lay.nfield m > 128 || Lay.nstep m > 128
      || ! colOk (Lay.mtiCol m) || ! colOk (Lay.tsCol m)
      || 64 + 8 * Lay.nfield m + 12 * Lay.nstep m + Lay.litLen m > 4096 then (1, 0)
  else
    let fs := Lay.fields m
    match (List.range fs.length).find? (fun i =>
        match fs[i]? with
        | some f => ! fieldOk k f || (i != 0 && (match fs[i - 1]? with
          | some g => decide (f.at_ ≤ g.at_)
          | none => false))
        | none => false) with
    | some i => (2, i)
    | none =>
      let ss := Lay.steps m
      match (List.range ss.length).find? (fun i =>
          match ss[i]? with
          | some st => ! stepOk k (Lay.litLen m) st || (i != 0 && (match ss[i - 1]? with
            | some g => decide (st.at_ ≤ g.at_)
            | none => false))
          | none => false) with
      | some i => (3, i)
      | none => if replyMax m > 1408 then (4, 0) else (0, 0)

/-! ## Extraction (R182, R185) -/

/-- Digits of packed BCD bytes. -/
def bcdDigits (bs : List Byte) : List Nat := bs.flatMap (fun b => [b.toNat / 16, b.toNat % 16])
/-- Digits of `n` units of a BCD or ASCII value; none on a non-digit or a nonzero leading nibble of an odd count. -/
def digitsOf (denc n : Nat) (bs : List Byte) : Option (List Nat) :=
  if denc = 0 then
    let ds := bcdDigits bs
    let ds := if n % 2 = 1 then (if ds.head? == some 0 then some (ds.drop 1) else none) else some ds
    ds.bind (fun ds => if ds.all (· ≤ 9) then some ds else none)
  else if bs.all (fun b => 0x30 ≤ b.toNat && b.toNat ≤ 0x39) then some (bs.map (fun b => b.toNat - 0x30)) else none
def digitsNat (ds : List Nat) : Nat := ds.foldl (fun n d => 10 * n + d) 0
/-- Units a prefix gives. -/
def prefixVal (lenType penc : Nat) (bs : List Byte) : Option Nat :=
  if penc = 2 then some (beNat bs)
  else (digitsOf penc (if lenType = 1 then 2 else 3) bs).map digitsNat
/-- One field cut from the payload: its raw bytes with prefix, its units and its data bytes, and the rest. -/
structure Cut where
  raw : List Byte
  units : Nat
  data : List Byte
  rest : List Byte
deriving DecidableEq, Repr
def cutField (f : LField) (bs : List Byte) : Option Cut :=
  let pl := prefixLen f.lenType f.prefixEnc
  if bs.length < pl then none
  else
    let n? := if f.lenType = 0 then some f.len else prefixVal f.lenType f.prefixEnc (bs.take pl)
    n?.bind (fun n =>
      let nb := dataBytes f.dataEnc n
      if n > f.len || bs.length < pl + nb then none
      else
        let data := (bs.drop pl).take nb
        if f.dataEnc == 0 && n % 2 == 1 && (match data.head? with
            | some b => decide (b.toNat ≥ 16)
            | none => false) then none
        else some ⟨bs.take (pl + nb), n, data, bs.drop (pl + nb)⟩)
/-- The lane a conversion gives, none on failure; the outer none of SKIP is no write. -/
def convert (le : Bool) (conv denc units : Nat) (data : List Byte) : Option (Option Lane) :=
  match conv with
  | 0 => some none
  | 1 => (digitsOf denc units data).bind (fun ds =>
      if (ds.dropWhile (· == 0)).length > 21 then none else some (some (natLane (digitsNat ds))))
  | 2 => if data.length > 9 then none else some (some (natLane (if le then leNat data else beNat data)))
  | 3 => if data.length > 9 then none
    else some (some (intLane (if data.isEmpty then 0 else sgn (8 * data.length) (if le then leNat data else beNat data))))
  | _ => some (some 1#72)
/-- A row under construction: batch columns, and the raw bytes of each request field for ECHO. -/
structure Extract where
  cols : Tab Lane
  raws : Tab (List Byte)
deriving DecidableEq, Repr
def Extract.put (x : Extract) (f : LField) (raw : List Byte) (l : Option Lane) : Extract :=
  { cols := match l with
      | some v => tset x.cols f.col v
      | none => x.cols,
    raws := tset x.raws f.at_ raw }
/-- Take the fields whose numbers are listed, in order. -/
def takeFields (fs : List LField) : List Nat → List Byte → Extract → Option (Extract × List Byte)
  | [], bs, x => some (x, bs)
  | n :: ns, bs, x =>
    match fs.find? (fun f => f.at_ == n) with
    | none => none
    | some f =>
      match cutField f bs with
      | none => none
      | some c =>
        match convert false f.conv f.dataEnc c.units c.data with
        | none => none
        | some l => takeFields fs ns c.rest (x.put f c.raw l)
/-- Field numbers whose bits are set in a big-endian bitmap of `8 * n` bits, bit 1 the most significant. -/
def bitmapFields (n : Nat) (bs : List Byte) : List Nat :=
  (List.range (8 * n)).filterMap (fun i => if bitOf (beNat bs) (8 * n - 1 - i) then some (i + 1) else none)
/-- Extract a payload; none is a PARSE failure. -/
def layoutExtract (m : Mem) (rx : Nat) (payload : List Byte) : Option Extract :=
  let x0 : Extract := ⟨if Lay.tsCol m = 0xFF then [] else [(Lay.tsCol m, natLane rx)], []⟩
  if Lay.kind m = 0 then
    let ml := if Lay.mtiEnc m = 1 then 4 else 2
    if payload.length < ml + 8 then none
    else
      match digitsOf (if Lay.mtiEnc m = 1 then 1 else 0) 4 (payload.take ml) with
      | none => none
      | some ds =>
        let x0 := if Lay.mtiCol m = 0xFF then x0 else { x0 with cols := tset x0.cols (Lay.mtiCol m) (natLane (digitsNat ds)) }
        let rest := payload.drop ml
        let second := bitOf (beAt rest 0 8) 63
        if second && rest.length < 16 then none
        else
          let nb := if second then 16 else 8
          let fields := (bitmapFields nb (rest.take nb)).filter (· != 1)
          if fields.contains 65 then none
          else match takeFields (Lay.fields m) fields (rest.drop nb) x0 with
            | some (x, []) => some x
            | _ => none
  else if ((Lay.fields m).map (fun f => f.at_ + f.len)).foldl max 0 < payload.length then none
  else
    (Lay.fields m).foldl (fun x f =>
      x.bind (fun x =>
        if f.at_ + f.len > payload.length then none
        else
          let data := sub payload f.at_ f.len
          (convert (f.prefixEnc == 1) f.conv 2 f.len data).map (fun l => x.put f data l))) (some x0)
/-- The 64 batch columns of an extracted row; absent columns are NULL. -/
def extractRow (x : Extract) : List (Option Lane) := (List.range 64).map (fun c => some (tgetD x.cols c nullLane))

/-! ## The reply payload (R187, R188) -/

/-- Decimal digits of a number, most significant first, at most `n`. -/
def digitsN : Nat → Nat → List Nat
  | 0, _ => []
  | n + 1, v => digitsN n (v / 10) ++ [v % 10]
/-- Pack digits as BCD with a leading zero nibble on an odd count. -/
def packBcd (ds : List Nat) : List Byte :=
  let ds := if ds.length % 2 = 1 then 0 :: ds else ds
  natBE (ds.length / 2) (ds.foldl (fun n d => 16 * n + d) 0)
def encDigits (denc : Nat) (ds : List Nat) : List Byte :=
  if denc = 0 then packBcd ds else ds.map (fun d => BitVec.ofNat 8 (0x30 + d))
/-- A length prefix of `n` units. -/
def encPrefix (lenType penc n : Nat) : List Byte :=
  if lenType = 0 then []
  else if penc = 2 then natBE lenType n
  else encDigits penc (digitsN (if lenType = 1 then 2 else 3) n)
/-- Number of decimal digits of a value (at least 1). -/
def digitCount (v : Nat) : Nat := max 1 ((digitsN 22 v).dropWhile (· == 0)).length
/-- The bytes of a lane in a step's format, none when it does not fit. -/
def encodeCol (le : Bool) (st : LStep) (l : Lane) : Option (List Byte) :=
  match laneInt l with
  | none => none
  | some v =>
    if st.conv = 1 then
      if v < 0 ∨ v.toNat ≥ 10 ^ min st.len 22 then none
      else
        let n := if st.lenType = 0 then st.len else digitCount v.toNat
        some (encPrefix st.lenType st.prefixEnc n ++ encDigits st.dataEnc (digitsN n v.toNat))
    else
      let fits := fun n => if st.conv = 2 then 0 ≤ v ∧ v < (2 ^ (8 * n) : Nat)
        else -(2 ^ (8 * n) : Nat) ≤ 2 * v ∧ 2 * v < (2 ^ (8 * n) : Nat)
      if ¬ fits st.len then none
      else
        let n := if st.lenType = 0 then st.len else ((List.range (st.len + 1)).find? (fun n => decide (n ≥ 1 ∧ fits n))).getD st.len
        let w := unsgn (8 * n) v
        some (encPrefix st.lenType st.prefixEnc n ++ (if le then natLE n w else natBE n w))
/-- What a step yields: its bytes if any, and whether a COLUMN value did not fit. -/
def stepYield (m : Mem) (x : Extract) (row : List (Option Lane)) (st : LStep) : Option (List Byte) × Bool :=
  match st.src with
  | 0 => (tget x.raws st.at_, false)
  | 1 =>
    let v := ((row[st.col]?).getD none).getD nullLane
    match encodeCol (Lay.kind m == 1 && st.prefixEnc == 1) st v with
    | some bs => (some bs, false)
    | none => (if st.litLen = 0 then none else some (Lay.lit m st.litOff st.litLen), v != nullLane)
  | _ => (some (Lay.lit m st.litOff st.litLen), false)
/-- The reply payload and the number of values that did not fit. -/
def composePayload (m : Mem) (x : Extract) (row : List (Option Lane)) : List Byte × Nat :=
  let ys := (Lay.steps m).map (fun st => (st, stepYield m x row st))
  let misses := (ys.filter (·.2.2)).length
  if Lay.kind m = 0 then
    let fs := ys.filterMap (fun y => y.2.1.map (fun bs => (y.1.at_, bs)))
    let second := fs.any (fun f => f.1 > 64)
    let nbit := if second then 128 else 64
    let bits := (if second then 2 ^ 127 else 0) + (fs.map (fun f => 2 ^ (nbit - f.1))).foldl (· + ·) 0
    let mti := if Lay.mtiEnc m = 1 then encDigits 1 (bcdDigits (mreads m 8 2)) else mreads m 8 2
    (mti ++ natBE (nbit / 8) bits ++ fs.flatMap (·.2), misses)
  else
    let n := fixedSize (Lay.steps m)
    let buf := ys.foldl (fun b y => match y.2.1 with
      | some bs => mwrite b y.1.at_ (bs.take y.1.len)
      | none => b) ([] : Mem)
    (mreads buf 0 n, misses)

end Sys2Proof.Machine
end

