-- ==== Sys2Proof/Machine/Reply.lean ====
section
/-! DEFINITION. Frames the ingest ports parse and send, the response composer and the reply cache
(spec/09_message_ingest.md, R173 to R177, R183, R184, R187). -/

namespace Sys2Proof.Machine
open Sys2Proof

/-! ## Internet checksums -/

/-- One's-complement sum of 16-bit big-endian words. -/
def onesSum : List Byte → Nat
  | a :: b :: t => a.toNat * 256 + b.toNat + onesSum t
  | [a] => a.toNat * 256
  | [] => 0
/-- Fold carries into 16 bits. -/
def foldSum (n : Nat) : Nat :=
  let a := n / 65536 + n % 65536
  let b := a / 65536 + a % 65536
  b / 65536 + b % 65536
def inetChecksum (bs : List Byte) : Nat := 0xFFFF - foldSum (onesSum bs)

/-! ## Parsed frames -/

/-- An Ethernet frame: addresses, optional tag, EtherType, payload. -/
structure Eth where
  dst : List Byte
  src : List Byte
  tag : Option Nat
  type : Nat
  body : List Byte
deriving DecidableEq, Repr
def parseEth (f : List Byte) : Eth :=
  if beAt f 12 2 = 0x8100 then ⟨f.take 6, sub f 6 6, some (beAt f 14 2), beAt f 16 2, f.drop 18⟩
  else ⟨f.take 6, sub f 6 6, none, beAt f 12 2, f.drop 14⟩
/-- Put an Ethernet header before a body, padded to the 60 bytes of a shortest frame. -/
def buildEth (dst src : List Byte) (tag : Option Nat) (type : Nat) (body : List Byte) : List Byte :=
  let f := dst ++ src ++ (match tag with
    | some t => natBE 2 0x8100 ++ natBE 2 t
    | none => []) ++ natBE 2 type ++ body
  f ++ List.replicate (60 - f.length) 0#8

/-- Registers of port `n`: offsets are 18 slots per port. -/
def portReg (n off : Nat) : Nat := off + n * 0x90
def portMac (s : State) (n : Nat) : List Byte := natBE 6 (regGet s (portReg n Reg.ING_PORT0_MAC) 0)
def portIp4 (s : State) (n : Nat) : Nat := rfld s (portReg n Reg.ING_PORT0_IPV4) 0 31 0
def portIp6 (s : State) (n : Nat) : Nat :=
  regGet s (portReg n Reg.ING_PORT0_IPV6_HI) 0 * 2 ^ 64 + regGet s (portReg n Reg.ING_PORT0_IPV6_LO) 0
def portCtl (s : State) (n hi lo : Nat) : Nat := rfld s (portReg n Reg.ING_PORT0_CTL) 0 hi lo

def getPort (s : State) (n : Nat) : PortCnt := tgetD s.ing.ports n {}
def modPort (s : State) (n : Nat) (f : PortCnt → PortCnt) : State :=
  { s with ing := { s.ing with ports := tset s.ing.ports n (f (getPort s n)) } }
/-- A frame leaves a port. -/
def sendFrame (s : State) (n : Nat) (bs : List Byte) : State :=
  { s with out := { s.out with frames := s.out.frames ++ [(n, bs)] } }

/-! ## Replies (R187) -/

/-- Pseudo-header and datagram checksum of UDP; a computed 0 is sent as all ones. -/
def udpChecksum (pseudo udp : List Byte) : Nat :=
  let c := inetChecksum (pseudo ++ udp)
  if c = 0 then 0xFFFF else c
/-- The reply frame of a request frame with a UDP payload: addresses and ports swapped, tag and DSCP kept, TTL or hop
limit 64. -/
def replyFrame (req : List Byte) (payload : List Byte) : List Byte :=
  let e := parseEth req
  let udpLen := 8 + payload.length
  if e.type = 0x0800 then
    let b := e.body
    let ports := sub b 22 2 ++ sub b 20 2
    let src := sub b 16 4
    let dst := sub b 12 4
    let hdr := fun (ck : Nat) => natBE 1 0x45 ++ natBE 1 (beAt b 1 1 / 4 * 4) ++ natBE 2 (20 + udpLen) ++ natBE 4 0
      ++ natBE 1 64 ++ natBE 1 17 ++ natBE 2 ck ++ src ++ dst
    let udp := fun (ck : Nat) => ports ++ natBE 2 udpLen ++ natBE 2 ck ++ payload
    let ck := udpChecksum (src ++ dst ++ natBE 1 0 ++ natBE 1 17 ++ natBE 2 udpLen) (udp 0)
    buildEth e.src e.dst e.tag e.type (hdr (inetChecksum (hdr 0)) ++ udp ck)
  else
    let b := e.body
    let ports := sub b 42 2 ++ sub b 40 2
    let src := sub b 24 16
    let dst := sub b 8 16
    let tc := beAt b 0 4 / 2 ^ 20 % 256 / 4 * 4
    let udp := fun (ck : Nat) => ports ++ natBE 2 udpLen ++ natBE 2 ck ++ payload
    let ck := udpChecksum (src ++ dst ++ natBE 4 udpLen ++ natBE 4 17) (udp 0)
    buildEth e.src e.dst e.tag e.type
      (natBE 4 (6 * 2 ^ 28 + tc * 2 ^ 20) ++ natBE 2 udpLen ++ natBE 1 17 ++ natBE 1 64 ++ src ++ dst ++ udp ck)
/-- The reply envelope: REPLY set, TURN_NS, the rest copied (R187). -/
def replyEnvelope (req : List Byte) (turn plen : Nat) : List Byte :=
  sub req 0 3 ++ natBE 1 1 ++ sub req 4 1 ++ natBE 1 0 ++ natBE 2 plen ++ sub req 8 8 ++ natBE 4 (min turn 0xFFFFFFFF)
    ++ sub req 20 8 ++ natBE 4 0

/-! ## Reply cache (R183, R184) -/

def cacheFind (s : State) (key : Nat) : Option ReplyEnt := s.ing.cache.find? (fun e => e.key == key)
/-- Raise a gateway's floor to a SEQ. -/
def raiseFloor (s : State) (key : Nat) : State :=
  let gw := fld key 63 48
  { s with ing := { s.ing with floors := tset s.ing.floors gw (max (tgetD s.ing.floors gw 0) (fld key 47 0)) } }
/-- Remove an entry, raising its gateway's floor. -/
def cacheRemove (s : State) (key : Nat) : State :=
  raiseFloor { s with ing := { s.ing with cache := s.ing.cache.filter (fun e => e.key != key) } } key
/-- The DONE entry that became DONE first. -/
def oldestDone (s : State) : Option ReplyEnt :=
  s.ing.cache.foldl (fun best e => match best, e.doneAt with
    | none, some _ => some e
    | some b, some d => if d < b.doneAt.getD 0 then some e else best
    | _, none => best) none
/-- Insert a PENDING entry, removing the oldest DONE one when the cache is full; none when every entry is PENDING. -/
def cacheReserve (s : State) (key : Nat) : Option State :=
  let put := fun (s : State) => { s with ing := { s.ing with cache := s.ing.cache ++ [⟨key, none, none⟩] } }
  if s.ing.cache.length < 1048576 then some (put s)
  else (oldestDone s).map (fun e => put (cacheRemove s e.key))
/-- Make an entry DONE with its reply, or the no-reply mark. -/
def cacheDone (s : State) (key : Nat) (reply : Option (List Byte)) : State :=
  { s with ing := { s.ing with cache := s.ing.cache.map (fun e => if e.key = key then ⟨key, some (now s), reply⟩ else e) } }

/-! ## The composer (R186 to R188) -/

/-- Compose and send the reply of a STANDING item, and make its cache entry DONE first; `row` none takes every COLUMN
step as NULL. -/
def sendReply (s : State) (m : MsgInfo) (row : Option (List (Option Lane))) : State :=
  let lm := (tgetD s.ing.layouts m.layout {}).mem
  let x := (layoutExtract lm m.rxTime (m.request.drop 32)).getD ⟨[], []⟩
  let r := composePayload lm x (row.getD [])
  let udp := replyEnvelope m.request (now s - m.rxTime) r.1.length ++ r.1
  let s := modPort s m.port (fun p => { p with replyFit := satAdd 16 p.replyFit r.2 })
  let s := cacheDone s m.msgKey (some udp)
  sendFrame s m.port (replyFrame m.frame udp)
/-- End of a failed STANDING item (R186): a reply with NULL columns under FAIL_REPLY, else the no-reply mark. -/
def failReply (s : State) (m : MsgInfo) : State :=
  let lm := (tgetD s.ing.layouts m.layout {}).mem
  let s := modPort s m.port (fun p => { p with itemFail := satAdd 16 p.itemFail 1 })
  if Lay.failReply lm then sendReply s m none else cacheDone s m.msgKey none

end Sys2Proof.Machine
end

