-- ==== Sys2Proof/Machine/Rows.lean ====
section
/-! DEFINITION. What filter terms and compute operations give for one row (spec/05_scan_filter_compute.md, R95 to R108). -/

namespace Sys2Proof.Machine
open Sys2Proof

/-- Type codes of Table 2-7. -/
abbrev Ty.int72 : Nat := 1
abbrev Ty.dec72 : Nat := 2
abbrev Ty.bool : Nat := 3
abbrev Ty.date : Nat := 4
abbrev Ty.timestamp : Nat := 5
abbrev Ty.float64 : Nat := 6
abbrev Ty.dict32 : Nat := 7
abbrev Ty.string : Nat := 8

/-- What LOAD_PLAN derives of a batch column (R86, R516): type, scale, and the TABLE slot and column of origin, of which a STRING
column uses the slot alone, whose heap holds its bytes (R42). Type 0 stands for a type not known. -/
structure ColInfo where
  type : Nat
  scale : Nat
  origin : Option (Nat × Nat)
deriving DecidableEq, Repr

/-- Number a lane orders by under its type; a BOOL lane other than 0 reads as true (R31). -/
def orderKey (type : Nat) (l : Lane) : Int :=
  if type = Ty.float64 then floatKey l else if type = Ty.bool then (if l = 0#72 then 0 else 1) else l.toInt
/-- Comparison EQ, NE, LT, LE, GT, GE as codes 1 to 6; none when an input is NULL (R33). -/
def compareLanes (type op : Nat) (a b : Lane) : Option Bool :=
  if a = nullLane ∨ b = nullLane then none
  else
    let x := orderKey type a
    let y := orderKey type b
    some (match op with
      | 1 => x == y
      | 2 => x != y
      | 3 => decide (x < y)
      | 4 => decide (x ≤ y)
      | 5 => decide (y < x)
      | _ => decide (y ≤ x))
/-- AND, OR, NOT under R33. -/
def bool2 (f : Bool → Bool → Bool) (a b : Option Bool) : Option Bool :=
  match a, b with
  | some x, some y => some (f x y)
  | _, _ => none

/-! ## Filter terms (Table 5-4) -/

structure Term where
  top : Nat
  col : Nat
  src : Nat
  flags : Nat
  ascale : Nat
  ref : Nat
  a : Lane
  b : Lane
  ref2 : Nat
deriving DecidableEq, Repr
def readTerm (m : Mem) (o : Nat) : Term :=
  ⟨mnat m o 1, mnat m (o + 1) 1, mnat m (o + 2) 1, mnat m (o + 3) 1, mnat m (o + 4) 1, mnat m (o + 6) 2,
    natLane (mnat m (o + 8) 9), natLane (mnat m (o + 17) 9), mnat m (o + 26) 2⟩

/-- What evaluating terms needs of the run: bound values, the elements of each SET slot, the membership in each HASH_TABLE breaker,
the CAM's answer for a key, heap base and size of a row's batch column (none where the lane comes from no table), and a literal's bytes
by offset and length. -/
structure TermEnv where
  binds : List Bind
  sets : Nat → List Lane
  hashes : Nat → Lane → Bool
  cam : Nat → Bool
  heap : Row → Nat → Option (Nat × Nat)
  lit : Nat → Nat → List Byte
  dram : Mem
  /-- are bytes of memory poisoned? -/
  bad : Nat → Nat → Bool

def bindLane (bs : List Bind) (i : Nat) : Lane :=
  match bs[i]? with
  | some b => if b.isNull then nullLane else b.lane
  | none => nullLane
def rowCol (r : Row) (c : Nat) : Lane := tgetD r.cols c nullLane
/-- The operands A and B of a term. -/
def termA (e : TermEnv) (t : Term) (r : Row) : Lane :=
  match t.src with
  | 0 => t.a
  | 1 => bindLane e.binds t.ref
  | _ => rowCol r t.ref
def termB (e : TermEnv) (t : Term) (r : Row) : Lane :=
  match t.src with
  | 0 => t.b
  | 1 => bindLane e.binds t.ref2
  | _ => rowCol r t.ref2
/-- The 144-bit key of an IN_CAM term (R99). -/
def camKey (t : Term) (r : Row) : Nat := (rowCol r t.col).toNat * 2 ^ 72 + t.a.toNat
/-- Value of a string term: none inside for NULL; an error status when the handle leaves the heap (R101). A handle that comes from no
table names bytes that no rule gives: they are free (DESIGN CHOICE, assumption 35). -/
def termStr (e : TermEnv) (t : Term) (r : Row) : Except Nat (Option Bool) :=
  let l := rowCol r t.col
  if l = nullLane then .ok none
  else
    let lit := e.lit t.ref t.ref2
    let ne := t.top == 0x0E
    if strPhash l != phashOf lit || strLen l != t.ref2 then .ok (some ne)
    else match e.heap r t.col with
      | none => .ok (some (if (List.range t.ref2).map (Config.looseString l) == lit then !ne else ne))
      | some h => match strBytes e.dram h.1 h.2 l with
        | none => .error St.stringRange
        | some bs => if e.bad (h.1 + 8 * strOff l) (strLen l) then .error St.dataPoisoned else .ok (some (if bs == lit then !ne else ne))
/-- Value of a term on a row whose tested column has type `type`. -/
def termValue (e : TermEnv) (type : Nat) (t : Term) (r : Row) : Except Nat (Option Bool) :=
  let l := rowCol r t.col
  match t.top with
  | 0x07 =>
    .ok (bool2 and (compareLanes type (if bitOf t.flags 0 then 5 else 6) l (termA e t r))
      (compareLanes type (if bitOf t.flags 1 then 4 else 3) l (termB e t r)))
  | 0x08 => .ok (some (l == nullLane))
  | 0x09 => .ok (some (l != nullLane))
  | 0x0A => .ok (if l = nullLane then none else some ((e.sets t.ref).any (fun x => orderKey type x == orderKey type l)))
  | 0x0B => .ok (if l = nullLane then none else some (e.cam (camKey t r)))
  | 0x0C => .ok (if l = nullLane then none else some (e.hashes t.ref l))
  | 0x0D => termStr e t r
  | 0x0E => termStr e t r
  | op => .ok (compareLanes type op l (termA e t r))
/-- Run a postfix program over the values of the terms (R96). -/
def runPostfix (vals : Nat → Option Bool) : List Nat → List (Option Bool) → Option Bool
  | [], st => (st.head?).getD none
  | p :: ps, st =>
    if p < 0x10 then runPostfix vals ps (vals p :: st)
    else
      match p, st with
      | 0x10, b :: a :: st => runPostfix vals ps (bool2 and a b :: st)
      | 0x11, b :: a :: st => runPostfix vals ps (bool2 or a b :: st)
      | 0x12, a :: st => runPostfix vals ps (a.map not :: st)
      | _, _ => none
/-- Is an array strictly ascending in signed order, with no NULL (R98)? -/
def setOrdered : List Lane → Bool
  | a :: b :: t => a != nullLane && decide (a.toInt < b.toInt) && setOrdered (b :: t)
  | [a] => a != nullLane
  | [] => true

/-! ## Compute operations (Table 5-7) -/

structure COp where
  op : Nat
  dst : Nat
  sa : Nat
  sb : Nat
  sc : Nat
  rscale : Nat
  k : Nat
  imm : Lane
  immScale : Nat
  pslot : Nat
deriving DecidableEq, Repr
def readCOp (m : Mem) (o : Nat) : COp :=
  ⟨mnat m o 1, mnat m (o + 1) 1, mnat m (o + 2) 1, mnat m (o + 3) 1, mnat m (o + 4) 1, mnat m (o + 5) 1, mnat m (o + 6) 1,
    natLane (mnat m (o + 8) 9), mnat m (o + 17) 1, mnat m (o + 18) 2⟩
/-- Lane of an operand selector (R104). -/
def operand (bs : List Bind) (c : COp) (r : Row) (sel : Nat) : Lane :=
  if sel < 64 then rowCol r sel else if sel = 0xFE then bindLane bs c.pslot else c.imm

/-- Exact value of a finite binary64 pattern as numerator and denominator. -/
def floatRat (w : Nat) : Int × Int :=
  let e : Nat := w / 2 ^ 52 % 2048
  let f : Nat := w % 2 ^ 52
  let m : Int := if e = 0 then (f : Int) else ((f + 2 ^ 52 : Nat) : Int)
  let ex : Int := (if e = 0 then (1 : Int) else (e : Int)) - 1075
  let m := if w / 2 ^ 63 % 2 = 1 then -m else m
  if ex ≥ 0 then (m * (2 ^ ex.toNat : Nat), 1) else (m, ((2 ^ (-ex).toNat : Nat) : Int))
/-- CAST_F2D (R106). -/
def castF2D (ovf rnd scale : Nat) (l : Lane) : Arith :=
  if l = nullLane then .val nullLane false false
  else
    let w := laneLow l
    if w / 2 ^ 52 % 2048 = 2047 then
      if ovf = 0 then .trap St.castInvalid
      else if w % 2 ^ 52 = 0 ∧ ovf = 1 then .val (intLane (if w / 2 ^ 63 = 1 then -int72Max else int72Max)) true false
      else .val nullLane false true
    else
      let r := floatRat w
      narrow ovf (divRound rnd (r.1 * (10 ^ scale : Nat)) r.2)
/-- NARROW to K bits (R106). -/
def narrowK (ovf k : Nat) (l : Lane) : Arith :=
  match laneInt l with
  | none => .val nullLane false false
  | some x =>
    let lo : Int := -((2 ^ (k - 1) : Nat) : Int)
    let hi : Int := ((2 ^ (k - 1) : Nat) : Int) - 1
    if lo ≤ x ∧ x ≤ hi then .val l false false
    else if ovf = 0 then .trap St.arithOverflow
    else if ovf = 1 then .val (intLane (if x < 0 then lo else hi)) true false
    else .val (intLane (sgn k (unsgn k x))) false false
/-- Scale down by k with rounding; never overflows. -/
def scaleDown (rnd k : Nat) (l : Lane) : Lane := optLane ((laneInt l).map (fun x => divRound rnd x ((10 ^ k : Nat) : Int)))
/-- A one-operand arithmetic result. -/
def arith1 (ovf : Nat) (f : Int → Int) (a : Lane) : Arith :=
  match laneInt a with
  | some x => narrow ovf (f x)
  | none => .val nullLane false false
def plain (l : Lane) : Arith := .val l false false
def plainB (b : Option Bool) : Arith := plain (match b with
  | some x => boolLane x
  | none => nullLane)
/-- Value of an operation on a row; the column information of its operands gives types and scales. -/
def copValue (ovf rnd : Nat) (info : Nat → ColInfo) (bs : List Bind) (c : COp) (r : Row) : Arith :=
  let a := operand bs c r c.sa
  let b := operand bs c r c.sb
  let ta := (info c.sa).type
  match c.op with
  | 0x01 => arith2 ovf (· + ·) a b
  | 0x02 => arith2 ovf (· - ·) a b
  | 0x03 => match laneInt a, laneInt b with
    | some x, some y => narrow ovf (if c.k = 0 then x * y else divRound rnd (x * y) ((10 ^ c.k : Nat) : Int))
    | _, _ => plain nullLane
  | 0x04 => divLane ovf rnd (c.rscale + (info c.sb).scale - (info c.sa).scale) a b
  | 0x05 => arith1 ovf (fun x => -x) a
  | 0x06 => arith1 ovf (fun x => (x.natAbs : Int)) a
  | 0x07 => arith1 ovf (fun x => x * (10 ^ c.k : Nat)) a
  | 0x08 => plain (scaleDown rnd c.k a)
  | 0x09 => arith1 ovf (fun x => x * (10 ^ c.rscale : Nat)) a
  | 0x0A => plain (scaleDown rnd (info c.sa).scale a)
  | 0x0B => castF2D ovf rnd c.rscale a
  | 0x0C => narrowK ovf c.k a
  | 0x16 => plainB (bool2 and (laneBool a) (laneBool b))
  | 0x17 => plainB (bool2 or (laneBool a) (laneBool b))
  | 0x18 => plainB ((laneBool a).map not)
  | 0x19 => plain (boolLane (a == nullLane))
  | 0x1A => plain (boolLane (a != nullLane))
  | 0x1B => match laneBool a with
    | none => plain nullLane
    | some true => plain b
    | some false => plain (operand bs c r c.sc)
  | 0x1C => plain (match compareLanes ta 4 a b with
    | some true => a
    | some false => b
    | none => nullLane)
  | 0x1D => plain (match compareLanes ta 6 a b with
    | some true => a
    | some false => b
    | none => nullLane)
  | 0x1E => plain a
  | 0x1F => plain (if a = nullLane then nullLane else natLane (strLen a))
  | op => plainB (compareLanes ta (op - 0x0F) a b)

/-- TABLE slot of the heap of a selector's STRING lane in a row (R42): the row's own note, else the column's. -/
def heapSlot (info : Nat → ColInfo) (r : Row) (sel : Nat) : Option Nat :=
  if (info sel).type ≠ Ty.string then none else (tget r.heaps sel) <|> ((info sel).origin.map (·.1))
/-- A row after an operation has written its destination: MOV and SEL carry a STRING lane's heap with it. -/
def copRow (info : Nat → ColInfo) (bs : List Bind) (c : COp) (r : Row) (l : Lane) : Row :=
  let from_ : Option Nat := if c.op = 0x1E then some c.sa
    else if c.op = 0x1B then (laneBool (operand bs c r c.sa)).map (fun b => if b then c.sb else c.sc) else none
  let heaps := terase r.heaps c.dst
  { r with cols := tset r.cols c.dst l, heaps := match from_.bind (heapSlot info r) with
    | some h => tset heaps c.dst h
    | none => heaps }
/-- The result of running an operation over rows: the rows, clamps and NULLs counted; or a status and the failing row. -/
def copRows (ovf rnd : Nat) (info : Nat → ColInfo) (bs : List Bind) (c : COp) : List Row → Except (Nat × Row) (List Row × Nat × Nat)
  | [] => .ok ([], 0, 0)
  | r :: rs =>
    match copValue ovf rnd info bs c r with
    | .trap st => .error (st, r)
    | .val l sat wn =>
      match copRows ovf rnd info bs c rs with
      | .error e => .error e
      | .ok (rs', a, b) => .ok (copRow info bs c r l :: rs', a + b2n sat, b + b2n wn)
/-- Operands an operation uses: 1 SA; 2 SA and SB; 3 SA, SB and SC. -/
def copArity (op : Nat) : Nat :=
  if op = 0x1B then 3
  else if op ≤ 0x04 ∨ (0x10 ≤ op ∧ op ≤ 0x17) ∨ op = 0x1C ∨ op = 0x1D then 2 else 1
/-- Does the type or scale of an operation's result rest on an operand of no known type, one that a parameter slot gives which
R515 rejects? -/
def copUnknown (info : Nat → ColInfo) (c : COp) : Bool :=
  let no := fun (s : Nat) => (info s).type == 0
  if c.op ≤ 0x08 then no c.sa || (copArity c.op == 2 && no c.sb)
  else if c.op = 0x1B then no c.sb || no c.sc
  else decide (c.op = 0x1C ∨ c.op = 0x1D ∨ c.op = 0x1E) && no c.sa
/-- Column information an operation gives its destination, from the resolved information of its operand selectors
(Table 5-7, R516). -/
def copInfo (info : Nat → ColInfo) (c : COp) : ColInfo :=
  let a := info c.sa
  let b := info c.sb
  let intOr := fun (sc : Nat) (dec : Bool) => ColInfo.mk (if dec then Ty.dec72 else Ty.int72) sc none
  if copUnknown info c then ⟨0, 0, none⟩ else
  match c.op with
  | 0x01 => ⟨a.type, a.scale, none⟩
  | 0x02 => if a.type = b.type ∧ (a.type = Ty.date ∨ a.type = Ty.timestamp) then ⟨Ty.int72, 0, none⟩ else ⟨a.type, a.scale, none⟩
  | 0x03 => intOr (a.scale + b.scale - c.k) (a.type == Ty.dec72 || b.type == Ty.dec72)
  | 0x04 => intOr c.rscale (a.type != Ty.int72 || b.type != Ty.int72 || c.rscale != 0)
  | 0x05 => ⟨a.type, a.scale, none⟩
  | 0x06 => ⟨a.type, a.scale, none⟩
  | 0x07 => ⟨Ty.dec72, a.scale + c.k, none⟩
  | 0x08 => ⟨Ty.dec72, a.scale - c.k, none⟩
  | 0x09 => ⟨Ty.dec72, c.rscale, none⟩
  | 0x0A => ⟨Ty.int72, 0, none⟩
  | 0x0B => ⟨Ty.dec72, c.rscale, none⟩
  | 0x0C => ⟨Ty.int72, 0, none⟩
  | 0x1B =>
    let y := info c.sc
    ⟨b.type, b.scale, if b.origin = y.origin ∨ (b.type = Ty.string ∧ b.origin.map (·.1) = y.origin.map (·.1)) then b.origin else none⟩
  | 0x1C => ⟨a.type, a.scale, none⟩
  | 0x1D => ⟨a.type, a.scale, none⟩
  | 0x1E => a
  | 0x1F => ⟨Ty.int72, 0, none⟩
  | _ => ⟨Ty.bool, 0, none⟩
/-- Type an immediate takes where it is the only value operand (R104). -/
def immAlone (c : COp) : ColInfo :=
  match c.op with
  | 0x07 => ⟨Ty.dec72, c.immScale, none⟩
  | 0x08 => ⟨Ty.dec72, c.immScale, none⟩
  | 0x0A => ⟨Ty.dec72, c.immScale, none⟩
  | 0x0B => ⟨Ty.float64, c.immScale, none⟩
  | 0x18 => ⟨Ty.bool, c.immScale, none⟩
  | 0x09 => ⟨Ty.int72, c.immScale, none⟩
  | 0x0C => ⟨Ty.int72, c.immScale, none⟩
  | _ => ⟨if c.immScale = 0 then Ty.int72 else Ty.dec72, c.immScale, none⟩
/-- Information of an operand selector: a column's, a slot's, or the immediate's under R104. -/
def selInfo (cols : Nat → ColInfo) (slot : Nat → ColInfo) (c : COp) (sel : Nat) : ColInfo :=
  if sel < 64 then cols sel
  else if sel = 0xFE then slot c.pslot
  else
    let of := fun (x : Nat) => if x < 64 then cols x else slot c.pslot
    if copArity c.op = 3 then
      (if c.sa = 0xFF then ⟨Ty.bool, c.immScale, none⟩
       else ⟨(of (if c.sb = 0xFF then c.sc else c.sb)).type, c.immScale, none⟩)
    else if copArity c.op = 2 then ⟨(of (if c.sa = 0xFF then c.sb else c.sa)).type, c.immScale, none⟩
    else immAlone c
/-- Operand selectors an operation reads. -/
def copSels (c : COp) : List Nat := [c.sa, c.sb, c.sc].take (copArity c.op)

end Sys2Proof.Machine
end

