-- ==== Sys2Proof/Machine/Image.lean ====
section
/-! DEFINITION. The plan image: its parts and what each clause reads, writes and names (spec/04_plans_pipelines.md, R62 to
R67; spec/05_scan_filter_compute.md, spec/06_join_aggregate.md, spec/07_sort_exchange.md). -/

namespace Sys2Proof.Machine
open Sys2Proof

/-! ## Parts (Tables 4-1 to 4-6) -/

structure PipeEnt where
  first : Nat
  ncl : Nat
  source : Nat
  ref : Nat
  ptiles : Nat
deriving DecidableEq, Repr

/-- A clause header; `cfg` is the image offset of its configuration. -/
structure Clause where
  idx : Nat
  cfg : Nat
  kind : Nat
  ovf : Nat
  rnd : Nat
  cfgLen : Nat
  pipe : Nat
  pos : Nat
  progWords : Nat
  progStart : Nat
  stateBytes : Nat
  nin : Nat
  nout : Nat
  workBytes : Nat
deriving DecidableEq, Repr

structure BrkEnt where
  kind : Nat
  place : Nat
  producer : Nat
  consumer : Nat
  bytes : Nat
deriving DecidableEq, Repr

structure SlotEnt where
  kind : Nat
  type : Nat
  scale : Nat
  required : Bool
  nullOk : Bool
  dflt : Lane
deriving DecidableEq, Repr

structure ResReq where
  tmin : Nat
  tmax : Nat
  ls : Nat
  ways : Nat
  cam : Nat
  nstate : Nat
  ids : List Nat
deriving DecidableEq, Repr

structure Image where
  mem : Mem
  standing : Bool
  len : Nat
  layout : Nat
  ckptUs : Nat
  flowCol : Nat
  defLc : Nat
  progWords : Nat
  pipes : List PipeEnt
  clauses : List Clause
  brks : List BrkEnt
  slots : List SlotEnt
  req : ResReq
deriving DecidableEq, Repr

/-- Offsets of the clause records, each after the configuration of the one before. -/
def clauseOffs (m : Mem) : Nat → Nat → List Nat
  | 0, _ => []
  | n + 1, o => o :: clauseOffs m n (o + 32 + mnat m (o + 2) 2)
/-- End of the clause area. -/
def clauseEnd (m : Mem) : Nat → Nat → Nat
  | 0, o => o
  | n + 1, o => clauseEnd m n (o + 32 + mnat m (o + 2) 2)
def readClause (m : Mem) (i o : Nat) : Clause :=
  let md := mnat m (o + 1) 1
  { idx := i, cfg := o + 32, kind := mnat m o 1, ovf := fld md 1 0, rnd := fld md 3 2, cfgLen := mnat m (o + 2) 2,
    pipe := mnat m (o + 4) 1, pos := mnat m (o + 5) 1, progWords := mnat m (o + 6) 2, progStart := mnat m (o + 8) 4,
    stateBytes := mnat m (o + 12) 4, nin := mnat m (o + 16) 2, nout := mnat m (o + 18) 2, workBytes := mnat m (o + 20) 4 }
def readPipe (m : Mem) (o : Nat) : PipeEnt :=
  ⟨mnat m o 2, mnat m (o + 2) 1, mnat m (o + 3) 1, mnat m (o + 4) 2, mnat m (o + 6) 2⟩
def readBrk (m : Mem) (o : Nat) : BrkEnt :=
  ⟨mnat m o 1, mnat m (o + 1) 1, mnat m (o + 2) 1, mnat m (o + 3) 1, mnat m (o + 8) 8⟩
def readSlot (m : Mem) (o : Nat) : SlotEnt :=
  let f := mnat m (o + 3) 1
  ⟨mnat m o 1, mnat m (o + 1) 1, mnat m (o + 2) 1, bitOf f 0, bitOf f 1, natLane (mnat m (o + 8) 9)⟩
def readReq (m : Mem) (o : Nat) : ResReq :=
  ⟨mnat m o 2, mnat m (o + 2) 2, mnat m (o + 4) 4, mnat m (o + 8) 1, mnat m (o + 9) 1, mnat m (o + 10) 1,
    (List.range 16).map (fun i => mnat m (o + 16 + i) 1)⟩
/-- The image whose bytes stand in a memory from address 0. -/
def readImage (m : Mem) : Image :=
  let tab := fun (off n size : Nat) => (List.range n).map (fun i => mnat m off 4 + size * i)
  { mem := m, standing := bitOf (mnat m 6 2) 0, len := mnat m 8 4, layout := mnat m 13 1, ckptUs := mnat m 17 1,
    flowCol := mnat m 48 2, defLc := mnat m 50 1, progWords := mnat m 44 4,
    pipes := (tab 20 (mnat m 12 1) 16).map (readPipe m),
    clauses := ((clauseOffs m (mnat m 14 2) (mnat m 24 4)).zipIdx).map (fun p => readClause m p.2 p.1),
    brks := (tab 28 (mnat m 16 1) 16).map (readBrk m),
    slots := (tab 32 (mnat m 18 2) 32).map (readSlot m),
    req := readReq m (mnat m 36 4) }

/-! ## Looking parts up -/

abbrev Kind.scan : Nat := 0x01
abbrev Kind.filter : Nat := 0x02
abbrev Kind.compute : Nat := 0x03
abbrev Kind.build : Nat := 0x04
abbrev Kind.probe : Nat := 0x05
abbrev Kind.agg : Nat := 0x06
abbrev Kind.window : Nat := 0x07
abbrev Kind.sort : Nat := 0x08
abbrev Kind.topn : Nat := 0x09
abbrev Kind.merge : Nat := 0x0A
abbrev Kind.exchange : Nat := 0x0B
abbrev Kind.output : Nat := 0x0C

/-- Byte, and field, of a clause's configuration. -/
def Image.cb (g : Image) (c : Clause) (o : Nat) : Nat := mnat g.mem (c.cfg + o) 1
def Image.cn (g : Image) (c : Clause) (o n : Nat) : Nat := mnat g.mem (c.cfg + o) n
/-- Bytes `o` to `o + n - 1` of a configuration as numbers. -/
def Image.cbs (g : Image) (c : Clause) (o n : Nat) : List Nat := (List.range n).map (fun i => g.cb c (o + i))
def Image.pipe (g : Image) (p : Nat) : PipeEnt := (g.pipes[p]?).getD ⟨0, 0, 0, 0, 0⟩
def Image.clausesOf (g : Image) (p : Nat) : List Clause := (g.clauses.drop (g.pipe p).first).take (g.pipe p).ncl
def Image.clauseAt (g : Image) (p pos : Nat) : Option Clause := (g.clausesOf p)[pos]?
def Image.lastClause (g : Image) (p : Nat) : Option Clause := (g.clausesOf p).getLast?
def Image.brk (g : Image) (b : Nat) : BrkEnt := (g.brks[b]?).getD ⟨0, 0, 0, 0, 0⟩
def Image.slot (g : Image) (i : Nat) : SlotEnt := (g.slots[i]?).getD ⟨0, 0, 0, false, false, 0#72⟩
def Image.filterTerms (g : Image) (c : Clause) : List Term := (List.range (g.cb c 0)).map (fun i => readTerm g.mem (c.cfg + 40 + 32 * i))
def Image.post (g : Image) (c : Clause) : List Nat := (g.cbs c 8 32).take (g.cb c 1)
/-- Terms that a postfix step pushes. -/
def Image.usedTerms (g : Image) (c : Clause) : List Term :=
  ((g.filterTerms c).zipIdx.filter (fun p => (g.post c).contains p.2)).map (·.1)
def Image.cops (g : Image) (c : Clause) : List COp := (List.range (g.cb c 0)).map (fun i => readCOp g.mem (c.cfg + 8 + 24 * i))

/-- Key width and payload width of a JOIN_BUILD, SORT or TOPN clause, with their columns. -/
def Image.keyCols (g : Image) (c : Clause) : List Nat :=
  if c.kind = Kind.build then g.cbs c 8 (g.cb c 1)
  else if c.kind = Kind.sort ∨ c.kind = Kind.topn then (List.range (g.cb c 0)).map (fun i => g.cb c (8 + 2 * i))
  else if c.kind = Kind.agg then g.cbs c 8 (g.cb c 1)
  else if c.kind = Kind.window then g.cbs c 8 (g.cb c 1)
  else if c.kind = Kind.probe then g.cbs c 8 (g.cb c 1)
  else if c.kind = Kind.exchange then g.cbs c 8 (g.cb c 1)
  else []
/-- Flags of the key entries of a SORT or TOPN clause (R138). -/
def Image.keyFlags (g : Image) (c : Clause) : List Nat := (List.range (g.cb c 0)).map (fun i => g.cb c (9 + 2 * i))
def Image.payCols (g : Image) (c : Clause) : List Nat :=
  if c.kind = Kind.build then g.cbs c 12 (g.cb c 2)
  else if c.kind = Kind.sort ∨ c.kind = Kind.topn then g.cbs c 16 (g.cb c 1)
  else []

/-- An aggregate entry (R125); WIDE says something of a SUM alone (Table 6-8). -/
structure AggEnt where
  func : Nat
  src : Nat
  dst : Nat
  wide : Bool
deriving DecidableEq, Repr
def Image.aggEnts (g : Image) (c : Clause) : List AggEnt :=
  (List.range (g.cb c 2)).map (fun i => ⟨g.cb c (16 + 4 * i), g.cb c (17 + 4 * i), g.cb c (18 + 4 * i),
    bitOf (g.cb c (19 + 4 * i)) 0 && g.cb c (16 + 4 * i) == 3⟩)
/-- A measure entry: MKIND, MCOL, MDST (R131). -/
def Image.measEnts (g : Image) (c : Clause) : List (Nat × Nat × Nat) :=
  (List.range (g.cb c 4)).map (fun i => (g.cb c (16 + 4 * i), g.cb c (17 + 4 * i), g.cb c (18 + 4 * i)))

/-- Breaker that a clause writes as the last of its pipeline. -/
def Image.writesBrk (g : Image) (c : Clause) : Option Nat :=
  if c.kind = Kind.build then some (g.cb c 3)
  else if c.kind = Kind.agg ∧ g.cb c 0 = 1 then some (g.cb c 3)
  else if c.kind = Kind.sort ∨ c.kind = Kind.topn then some (g.cb c 2)
  else if c.kind = Kind.merge ∧ g.cb c 0 = 0 then some (g.cb c 2)
  else none
/-- The clause that writes a breaker. -/
def Image.producerClause (g : Image) (b : Nat) : Option Clause :=
  match g.lastClause (g.brk b).producer with
  | some c => if g.writesBrk c = some b then some c else none
  | none => none
/-- Breakers that clauses of a kind read besides a SOURCE: JOIN_PROBE and IN_HASH. -/
def Image.readsBrk (g : Image) (c : Clause) : List Nat :=
  if c.kind = Kind.probe then (if g.cb c 3 = 0xFF then [] else [g.cb c 3])
  else if c.kind = Kind.filter then ((g.filterTerms c).filter (fun t => t.top == 0x0C)).map (·.ref)
  else []

/-- Configuration length a kind requires. -/
def Image.cfgNeed (g : Image) (c : Clause) : Option Nat :=
  match c.kind with
  | 0x01 => some (8 + 8 * g.cb c 0)
  | 0x02 => some (alignUp (40 + 32 * g.cb c 0 + g.cn c 4 2) 8)
  | 0x03 => some (8 + 24 * g.cb c 0)
  | 0x04 => some 32
  | 0x05 => some 64
  | 0x06 => some (alignUp (16 + 4 * g.cb c 2) 8)
  | 0x07 => some (alignUp (16 + 4 * g.cb c 4) 8)
  | 0x08 => some 32
  | 0x09 => some 32
  | 0x0A => some 48
  | 0x0B => some 88
  | 0x0C => some (alignUp (8 + g.cb c 0) 8)
  | _ => none

/-! ## Columns a clause reads and writes (R86) -/

/-- Distinct elements, first occurrence kept. -/
def distinct (xs : List Nat) : List Nat := xs.foldl (fun acc x => if acc.contains x then acc else acc ++ [x]) []
def termReads (t : Term) : List Nat :=
  let ops := if t.src = 2 ∧ t.top ≤ 7 then (if t.top = 7 then [t.ref, t.ref2] else [t.ref]) else []
  t.col :: ops
/-- Key and payload widths of the SORT_RUNS chain that a breaker carries, and the clause that set them (R144). -/
def Image.sortRoot (g : Image) : Nat → Nat → Option Clause
  | 0, _ => none
  | n + 1, b =>
    match g.producerClause b with
    | some c => if c.kind = Kind.merge then g.sortRoot n (g.pipe c.pipe).ref else some c
    | none => none
/-- The SORT or TOPN clause behind a MERGE clause. -/
def Image.mergeRoot (g : Image) (c : Clause) : Option Clause := g.sortRoot 64 (g.pipe c.pipe).ref
def Image.reads (g : Image) (c : Clause) : List Nat :=
  match c.kind with
  | 0x02 => (g.filterTerms c).flatMap termReads
  | 0x03 => (g.cops c).flatMap (fun o => (copSels o).filter (· < 64))
  | 0x04 => g.keyCols c ++ g.payCols c
  | 0x05 => g.keyCols c
  | 0x06 => if g.cb c 0 = 2 then [] else g.keyCols c ++ ((g.aggEnts c).filter (fun e => e.func != 1)).map (·.src)
  | 0x07 => g.keyCols c ++ (if g.cb c 5 = 0 then [g.cb c 6] else []) ++ ((g.measEnts c).filter (fun e => e.1 == 2)).map (·.2.1)
  | 0x08 => g.keyCols c ++ g.payCols c
  | 0x09 => g.keyCols c ++ g.payCols c
  | 0x0B => g.keyCols c ++ g.cbs c 24 (g.cb c 2)
  | 0x0C => g.cbs c 8 (g.cb c 0) ++ (if bitOf (g.cb c 4) 0 then [g.cb c 5] else [])
  | _ => []
/-- A column list a clause writes. An EXCHANGE fills the carried columns of the batches it forms (DEDUCED, assumption 12). -/
def Image.writes (g : Image) (c : Clause) : List Nat :=
  match c.kind with
  | 0x01 => (List.range (g.cb c 0)).map (fun i => g.cb c (12 + 8 * i))
      ++ (if bitOf (g.cb c 1) 0 then [g.cb c 2] else []) ++ (if bitOf (g.cb c 1) 1 then [g.cb c 3] else [])
  | 0x03 => (g.cops c).map (·.dst)
  | 0x05 => g.cbs c 28 (g.cb c 2) ++ (if bitOf (g.cb c 4) 1 then [g.cb c 6] else [])
  | 0x06 => if g.cb c 0 = 1 then []
      else g.cbs c 12 (g.cb c 1) ++ (g.aggEnts c).flatMap (fun e => if e.wide then [e.dst, e.dst + 1] else [e.dst])
  | 0x07 => (g.measEnts c).map (·.2.2)
  | 0x0A => if g.cb c 0 = 0 then []
      else match g.mergeRoot c with
        | some r => g.cbs c 24 (g.cb r 0) ++ g.cbs c 28 (g.cb r 1) ++ (if bitOf (g.cb c 1) 1 then [g.cb c 3] else [])
        | none => []
  | 0x0B => g.cbs c 24 (g.cb c 2)
  | _ => []

/-! ## Derivation of column types and scales (R86, R516) -/

abbrev Cols := Tab ColInfo

/-- Result information of an aggregate entry that is not WIDE, on its source column's information (Table 6-8). -/
def aggInfo (e : AggEnt) (src : ColInfo) : ColInfo :=
  if e.func ≤ 2 then ⟨Ty.int72, 0, none⟩ else ⟨src.type, src.scale, none⟩
/-- Columns a JOIN_BUILD, SORT, TOPN or PARTIAL HASH_AGG clause hands to its breaker: key and payload information, from the
columns at the clause. -/
def Image.handed (g : Image) (c : Clause) (cols : Cols) : List ColInfo × List ColInfo :=
  let of := fun (x : Nat) => tgetD cols x ⟨0, 0, none⟩
  ((g.keyCols c).map of,
   if c.kind = Kind.agg then (g.aggEnts c).map (fun e => aggInfo e (of e.src)) else (g.payCols c).map of)
/-- Set columns to the information of a list. -/
def setCols (cols : Cols) (xs : List Nat) (is : List ColInfo) : Cols := (xs.zip is).foldl (fun t p => tset t p.1 p.2) cols
/-- Information of a VALUE slot; a slot that R515 rejects as an operand gives no type. -/
def Image.valInfo (g : Image) (i : Nat) : ColInfo :=
  if i < g.slots.length ∧ (g.slot i).kind = 0 then ⟨(g.slot i).type, (g.slot i).scale, none⟩ else ⟨0, 0, none⟩
/-- Columns after a clause; `brkOf` gives what a breaker carries. -/
def Image.afterClause (g : Image) (brkOf : Nat → List ColInfo × List ColInfo) (c : Clause) (cols : Cols) : Cols :=
  let of := fun (x : Nat) => tgetD cols x ⟨0, 0, none⟩
  match c.kind with
  | 0x01 =>
    let t := (List.range (g.cb c 0)).foldl (fun t i =>
      let ty := g.cb c (10 + 8 * i)
      tset t (g.cb c (12 + 8 * i)) ⟨ty, g.cb c (11 + 8 * i),
        if ty = Ty.dict32 ∨ ty = Ty.string then some ((g.pipe c.pipe).ref, g.cn c (8 + 8 * i) 2) else none⟩) cols
    let t := if bitOf (g.cb c 1) 0 then tset t (g.cb c 2) ⟨Ty.bool, 0, none⟩ else t
    if bitOf (g.cb c 1) 1 then tset t (g.cb c 3) ⟨Ty.int72, 0, none⟩ else t
  | 0x03 => (g.cops c).foldl (fun t o =>
      tset t o.dst (copInfo (selInfo (fun x => tgetD t x ⟨0, 0, none⟩) g.valInfo o) o)) cols
  | 0x05 =>
    let pay := if g.cb c 3 = 0xFF then [⟨Ty.int72, 0, none⟩] else
      (g.cbs c 12 (g.cb c 2)).map (fun i => ((brkOf (g.cb c 3)).2[i]?).getD ⟨0, 0, none⟩)
    let t := setCols cols (g.cbs c 28 (g.cb c 2)) pay
    if bitOf (g.cb c 4) 1 then tset t (g.cb c 6) ⟨Ty.bool, 0, none⟩ else t
  | 0x06 =>
    if g.cb c 0 = 1 then cols
    else
      let src := if g.cb c 0 = 2 then brkOf (g.cb c 3) else g.handed c cols
      let t := setCols cols (g.cbs c 12 (g.cb c 1)) src.1
      ((g.aggEnts c).zip src.2).foldl (fun t p =>
        if p.1.wide then tset (tset t p.1.dst ⟨Ty.int72, 0, none⟩) (p.1.dst + 1) ⟨Ty.int72, 0, none⟩ else tset t p.1.dst p.2) t
  | 0x07 => (g.measEnts c).foldl (fun t e =>
      tset t e.2.2 (if e.1 = 1 then ⟨Ty.int72, 0, none⟩ else ⟨(of e.2.1).type, (of e.2.1).scale, none⟩)) cols
  | 0x0A =>
    if g.cb c 0 = 0 then cols
    else
      let src := brkOf (g.pipe c.pipe).ref
      let t := setCols cols (g.cbs c 24 src.1.length) src.1
      let t := setCols t (g.cbs c 28 src.2.length) src.2
      if bitOf (g.cb c 1) 1 then tset t (g.cb c 3) ⟨Ty.int72, 0, none⟩ else t
  | 0x0B => cols.filter (fun p => (g.cbs c 24 (g.cb c 2)).contains p.1)
  | _ => cols
/-- Columns of an ingest row: INT72, a TIMESTAMP for TS_COL, a BOOL for a PRESENT field (DEDUCED, assumption 12). -/
def ingestCols (lay : Mem) : Cols :=
  let t : Cols := (List.range 64).map (fun i => (i, ⟨Ty.int72, 0, none⟩))
  let t := if Lay.tsCol lay < 64 then tset t (Lay.tsCol lay) ⟨Ty.timestamp, 0, none⟩ else t
  (Lay.fields lay).foldl (fun t f => if f.conv = 4 ∧ f.col < 64 then tset t f.col ⟨Ty.bool, 0, none⟩ else t) t

/-- The columns at the input of the clauses of a pipeline: before clause 0, before clause 1, …, after the last. `fuel`
bounds the depth of the breaker graph. -/
def Image.colsAlong (g : Image) (lay : Mem) : Nat → Nat → List Cols
  | 0, _ => []
  | fuel + 1, p =>
    let brkOf := fun (b : Nat) => match g.sortRoot 64 b with
      | none => ([], [])
      | some c => g.handed c (((g.colsAlong lay fuel c.pipe)[c.pos]?).getD [])
    let pe := g.pipe p
    let src : Cols :=
      if pe.source = 2 then ingestCols lay
      else if pe.source = 1 then
        let b := g.brk pe.ref
        match b.kind, g.producerClause pe.ref with
        | 0x1, _ => ((g.colsAlong lay fuel b.producer).getLast?).getD []
        | 0x2, some c => setCols [] (g.keyCols c ++ g.payCols c) ((brkOf pe.ref).1 ++ (brkOf pe.ref).2)
        | 0x5, some c => setCols [] (g.keyCols c ++ g.payCols c) ((brkOf pe.ref).1 ++ (brkOf pe.ref).2)
        | _, _ => []
      else []
    (g.clausesOf p).foldl (fun acc c => acc ++ [g.afterClause brkOf c ((acc.getLast?).getD [])]) [src]
/-- The columns at the input of clause `pos` of pipeline `p`. -/
def Image.colsAt (g : Image) (lay : Mem) (p pos : Nat) : Cols := ((g.colsAlong lay 65 p)[pos]?).getD []
/-- What a breaker carries. -/
def Image.brkInfo (g : Image) (lay : Mem) (b : Nat) : List ColInfo × List ColInfo :=
  match g.sortRoot 64 b with
  | some c => g.handed c (g.colsAt lay c.pipe c.pos)
  | none => ([], [])

end Sys2Proof.Machine
end

