-- ==== Sys2Proof/Machine/HashTable.lean ====
section
/-! DEFINITION. Keys, the hash and the local hash table (spec/06_join_aggregate.md, R110 to R114). -/

namespace Sys2Proof.Machine
open Sys2Proof

/-! ## Keys and the hash (R111, R112) -/

def hashStep (acc : Nat) (l : Lane) : Nat :=
  let x := l.toNat
  let a := ((acc ^^^ (x % 2 ^ 64) ^^^ (x / 2 ^ 64 * 2 ^ 56)) * 0x9E3779B97F4A7C15) % 2 ^ 64
  a ^^^ (a >>> 29)
def hashKey (key : List Lane) : Nat := key.foldl hashStep 0
/-- Hash table tag and state table tag of a key (Table 6-1). -/
def hashTag (key : List Lane) : Nat := fld (hashKey key) 46 24
def stateTag (key : List Lane) : Nat := fld (hashKey key) 63 41
def nullKey (key : List Lane) : Bool := key.contains nullLane
def rowKey (cols : List Nat) (r : Row) : List Lane := cols.map (rowCol r)
/-- Are two lanes of a key equal? FLOAT64 lanes compare by bits [63:0] (R30), every other lane bit by bit. -/
def sameLane (type : Nat) (a b : Lane) : Bool :=
  if type = Ty.float64 ∧ a ≠ nullLane ∧ b ≠ nullLane then laneLow a == laneLow b else a == b
/-- Are two keys equal (R111)? -/
def sameKey : List Nat → List Lane → List Lane → Bool
  | _, [], [] => true
  | ts, a :: as, b :: bs => sameLane (ts.headD 0) a b && sameKey ts.tail as bs
  | _, _, _ => false

/-! ## The local hash table (R113, R114) -/

/-- Entries and distinct keys an area admits (R114). -/
def tableMax (area d entry : Nat) : Nat := (area - 9 * 2 ^ d) / entry
def keyMax (d : Nat) : Nat := 3 * 2 ^ d / 4
/-- From slot `i` on, the directory slot that holds a key, or the unoccupied one at which lookup ends. -/
def slotFrom (types : List Nat) (t : JTable) (key : List Lane) : Nat → Nat → Option Nat
  | 0, _ => none
  | fuel + 1, i =>
    match (tget t.dir i).bind (·.head?) with
    | none => some i
    | some e =>
      let k := ((t.ents[e]?).map (·.key)).getD []
      if hashTag k = hashTag key ∧ sameKey types k key then some i else slotFrom types t key fuel ((i + 1) % 2 ^ t.d)
def slotOf (types : List Nat) (t : JTable) (key : List Lane) : Option Nat :=
  slotFrom types t key (2 ^ t.d) (hashKey key % 2 ^ t.d)
/-- Entries of a key, from FIRST to LAST. -/
def chainOf (types : List Nat) (t : JTable) (key : List Lane) : List JEntry :=
  match slotOf types t key with
  | some i => (tgetD t.dir i []).filterMap (fun e => t.ents[e]?)
  | none => []
/-- Insert an entry; none when the table would hold too many entries or distinct keys. -/
def tableInsert (types : List Nat) (nmax kmax : Nat) (t : JTable) (e : JEntry) : Option JTable :=
  match slotOf types t e.key with
  | none => none
  | some i =>
    if t.ents.length + 1 > nmax ∨ ((tget t.dir i).isNone ∧ t.dir.length + 1 > kmax) then none
    else some { t with ents := t.ents ++ [e], dir := tset t.dir i (tgetD t.dir i [] ++ [t.ents.length]) }
/-- Build a table of 2^d directory lanes; none on overflow. -/
def buildTable (types : List Nat) (area d entry : Nat) (es : List JEntry) : Option JTable :=
  es.foldl (fun t e => t.bind (fun t => tableInsert types (tableMax area d entry) (keyMax d) t e)) (some { d := d })
/-- The tables of chunked mode (R124): each is built from the rows that fit. -/
def chunkTables (types : List Nat) (area d entry : Nat) : List JEntry → JTable → List JTable
  | [], cur => if cur.ents.isEmpty then [] else [cur]
  | e :: es, cur =>
    match tableInsert types (tableMax area d entry) (keyMax d) cur e with
    | some t => chunkTables types area d entry es t
    | none => (if cur.ents.isEmpty then [] else [cur]) ++
        chunkTables types area d entry es { d := d, ents := [e], dir := [(hashKey e.key % 2 ^ d, [0])] }
/-- Payloads of the entries that match a key, in chain order; a NULL key matches none. -/
def hitsOf (types : List Nat) (table : JTable) (key : List Lane) : List (List Lane) :=
  if nullKey key then [] else (chainOf types table key).map (·.pay)
/-- Entries of build rows. -/
def buildEntries (keyw : Nat) (rows : List (List Lane)) : List JEntry := rows.map (fun l => ⟨l.take keyw, l.drop keyw⟩)

/-! ## The table as it stands in local store (R113, Table 6-2) -/

/-- NEXT of entry `e` in its chain. -/
def nextOf (t : JTable) (e : Nat) : Nat :=
  match t.dir.find? (fun p => p.2.contains e) with
  | some p => ((p.2.dropWhile (· != e))[1]?).getD 0xFFFFFF
  | none => 0xFFFFFF
def dirLane (t : JTable) (c : List Nat) : Lane :=
  let key := ((t.ents[c.headD 0]?).map (·.key)).getD []
  natLane (2 ^ 71 + hashTag key * 2 ^ 48 + c.getLastD 0 * 2 ^ 24 + c.headD 0)
/-- Bytes of a table, by offset in its area. -/
def tableBytes (t : JTable) : List (Nat × List Byte) :=
  let size := 9 * (1 + ((t.ents[0]?).map (fun e => e.key.length + e.pay.length)).getD 0)
  t.dir.map (fun p => (9 * p.1, pack9 (dirLane t p.2)))
    ++ (t.ents.zipIdx).map (fun (e, i) =>
      (9 * 2 ^ t.d + size * i, (natLane (nextOf t i) :: e.key ++ e.pay).flatMap pack9))

end Sys2Proof.Machine
end

