-- ==== Sys2Proof/Machine/Cores.lean ====
section
/-! DEFINITION. The table of cores (spec/10_sequencer_isa.md, R191, R192, R195, R196): their kinds, their registers at power-up,
and starting and stopping them. -/

namespace Sys2Proof.Machine
open Sys2Proof

/-- Kind of core `i`: 0 tile, 1 Frame core, 2 Sill core (COREID.KIND). -/
def coreKind (i : Nat) : Nat := if i < 144 then 0 else if i < 148 then 1 else 2
/-- Words of program memory (Table 10-2). -/
def progWords (i : Nat) : Nat := if coreKind i = 0 then 0x10000 else if coreKind i = 1 then 0x80000 else 0x20000
/-- First word past data memory. -/
def dataEnd (i : Nat) : Nat := if coreKind i = 0 then 0x1C0000 else 0x140000
/-- Initiator identity of a core (Table 1-3): its number. -/
def coreInitiator (i : Nat) : Nat := i
/-- A core at power-up (R196, Table 10-5): A7 and the control registers at their reset values; the registers the spec gives no
reset value read 0 (assumption 3). -/
def coreInit (i : Nat) : Core :=
  { a := (Vector.replicate 8 0).set 7 (BitVec.ofNat 24 (dataEnd i)),
    uphi := BitVec.ofNat 24 (progWords i - 1), udhi := BitVec.ofNat 24 (dataEnd i - 1) }
def getCore (s : State) (i : Nat) : Core := tgetD s.cores i (coreInit i)
def setCore (s : State) (i : Nat) (c : Core) : State := { s with cores := tset s.cores i c }
def modCore (s : State) (i : Nat) (f : Core → Core) : State := setCore s i (f (getCore s i))
/-- Number of the core of a Frame core, and of the Sill core. -/
abbrev frameCore (k : Nat) : Nat := 144 + k
abbrev sillCore : Nat := 148

/-- A physical tile is in service (RAS_TILE_MAP.PSTATE, Table 22-9). -/
def tileInService (s : State) (p : Nat) : Bool :=
  fld (s.ras.pstateOf (p / 9)) (2 * (p % 9) + 1) (2 * (p % 9)) == 0
/-- No pipeline's programs stand in a tile's program memory any more (R64). -/
def forgetProgs (s : State) (p : Nat) : State := { s with plans := { s.plans with progs := terase s.plans.progs p } }
/-- A tile starts (R195): its memories are as power-up left them but for the kernel image; it starts at PC 0 with K = 1. -/
def tileStart (s : State) (p : Nat) : State :=
  let base := rfld s Reg.TILE_KIMG 0 39 12 * 4096
  setCore (forgetProgs s p) p { coreInit p with run := .run, mem := mcopy [] s.dram base 0 32768 }
/-- A core loses power: its registers and memories are lost. -/
def coreOff (s : State) (p : Nat) : State := forgetProgs { s with cores := terase s.cores p } p
/-- A core is stopped where it stands. -/
def coreStop (s : State) (p : Nat) : State := modCore s p (fun c => { c with run := .off })
/-- Physical tiles of a cluster. -/
def clusterTiles (c : Nat) : List Nat := (List.range 9).map (9 * c + ·)
/-- The scheduler has work for a tile (R211, R218): EVPEND.DSP is set and the DISPATCH interrupt is pending. -/
def notifyTile (s : State) (p : Nat) : State :=
  modCore s p (fun c => { c with evpend := c.evpend ||| 1, irqDispatch := true })

end Sys2Proof.Machine
end

