-- ==== Sys2Proof/Machine/LoadCheck.lean ====
section
/-! DEFINITION. The checks LOAD_PLAN makes of an image, steps 4 to 8 of R69 (spec/04_plans_pipelines.md, R62 to R67, R515;
R86, R87, R90 to R106, R513, R516; R110 to R131; R138 to R149). -/

namespace Sys2Proof.Machine
open Sys2Proof

/-- The first status of a list of checks, each a breach with its status. -/
def firstFail : List (Bool × Nat) → Option Nat
  | [] => none
  | (b, st) :: r => if b then some st else firstFail r
/-- The first status that a check gives over a list. -/
def firstOf {α : Type} (f : α → Option Nat) : List α → Option Nat
  | [] => none
  | a :: as => match f a with
    | some st => some st
    | none => firstOf f as

/-! ## Step 4: the header and the parts -/

/-- Do the parts (offset, length) overlap pairwise? -/
def partsOverlap : List (Nat × Nat) → Bool
  | [] => false
  | (o, n) :: r => r.any (fun p => decide (o < p.1 + p.2) && decide (p.1 < o + n)) || partsOverlap r
/-- Step 4: true when the image is well formed. LAYOUT, CKPT_US and DEF_LC are held to their ranges of Table 4-1 as the counts are
(DESIGN CHOICE, assumption 38). -/
def step4Ok (m : Mem) (bytes : Nat) : Bool :=
  let np := mnat m 12 1
  let nc := mnat m 14 2
  let nb := mnat m 16 1
  let ns := mnat m 18 2
  let co := mnat m 24 4
  let pw := mnat m 44 4
  let parts := [(0, 64), (mnat m 20 4, 16 * np), (co, clauseEnd m nc co - co), (mnat m 36 4, 32), (mnat m 40 4, 2 * pw)]
    ++ (if nb = 0 then [] else [(mnat m 28 4, 16 * nb)]) ++ (if ns = 0 then [] else [(mnat m 32 4, 32 * ns)])
  let offs := [mnat m 20 4, co, mnat m 36 4] ++ (if nb = 0 then [] else [mnat m 28 4]) ++ (if ns = 0 then [] else [mnat m 32 4])
  let standing := bitOf (mnat m 6 2) 0
  let fc := mnat m 48 2
  mnat m 0 4 == 0x6E616C50 && mnat m 4 2 == 1 && mnat m 6 2 ≤ 1 && mnat m 8 4 == bytes && 256 ≤ bytes && bytes ≤ 16777216
    && 1 ≤ np && np ≤ 64 && 1 ≤ nc && nc ≤ 1024 && nb ≤ 128 && 8 ≤ mnat m 17 1 && mnat m 17 1 ≤ 64 && ns ≤ 256
    && 1 ≤ pw && pw ≤ 1048576 && mnat m 50 1 ≤ 3 && (standing || mnat m 13 1 == 0)
    && (fc == 0xFFFF || (standing && decide (fc < 64)))
    && offs.all (fun o => o % 8 == 0) && mnat m 40 4 % 2 == 0
    && parts.all (fun p => p.1 + p.2 ≤ bytes) && ! partsOverlap parts

/-! ## Step 5: pipelines, clauses, breakers, parameters, references -/

/-- Pipelines reachable from a set, by repeated closure. -/
def closure (g : Image) : Nat → List Nat → List Nat
  | 0, xs => xs
  | n + 1, xs =>
    let ys := distinct (xs ++ (g.brks.filter (fun k => xs.contains k.producer)).map (·.consumer))
    if ys.length = xs.length then xs else closure g n ys
/-- Does the breaker graph have a cycle? -/
def brkCycle (g : Image) : Bool :=
  (List.range g.pipes.length).any (fun p =>
    (closure g 65 (distinct ((g.brks.filter (fun k => k.producer == p)).map (·.consumer)))).contains p)

def step5Ok (g : Image) : Bool :=
  let np := g.pipes.length
  let nc := g.clauses.length
  let nb := g.brks.length
  let owners := (List.range np).flatMap (fun p => (List.range (g.pipe p).ncl).map (fun i => ((g.pipe p).first + i, p, i)))
  g.pipes.all (fun p => 1 ≤ p.ncl && p.ncl ≤ 32 && p.first + p.ncl ≤ nc && 1 ≤ p.ptiles && p.ptiles ≤ 128
      && (p.source != 1 || (p.ref < nb))
      && (p.source != 0 || (p.ref < g.slots.length && (g.slot p.ref).kind == 2))
      && (p.source != 2 || (g.standing && p.ref == 0)))
    && owners.length == nc
    && g.clauses.all (fun c => owners.contains (c.idx, c.pipe, c.pos) && 1 ≤ c.progWords && c.progWords ≤ 16384
      && c.progStart + c.progWords ≤ g.progWords && c.nin ≤ 64 && c.nout ≤ 64
      && (match g.cfgNeed c with
        | some n => c.cfgLen == n
        | none => true) && c.cfgLen ≤ 4064 && c.cfgLen % 8 == 0
      && (match g.writesBrk c with
        | some b => decide (b < nb)
        | none => true)
      && (g.readsBrk c).all (fun b => b < nb && (g.brk b).consumer == c.pipe)
      && (c.kind != Kind.agg || g.cb c 0 != 2 || g.cb c 3 < nb))
    && (List.range np).all (fun p => ((g.clausesOf p).map (·.progWords)).foldl (· + ·) 0 ≤ 16384
      && ((g.pipe p).source != 1 || (g.brk (g.pipe p).ref).consumer == p))
    && g.brks.all (fun b => b.producer < np && b.consumer < np && b.producer != b.consumer && 1 ≤ b.bytes && b.bytes < 2 ^ 40)
    && ! brkCycle g
    && g.slots.all (fun s => (s.kind != 2 && s.kind != 3) || s.required)

/-! ## Step 6: reserved values and ranges -/

def colOk (xs : List Nat) : Bool := xs.all (· < 64)
def step6Clause (g : Image) (c : Clause) : Bool :=
  let b := g.cb c
  c.ovf < 3 && c.rnd < 3 &&
  match c.kind with
  | 0x01 => 1 ≤ b 0 && b 0 ≤ 64 && colOk (g.writes c)
      && (List.range (b 0)).all (fun i => 1 ≤ b (10 + 8 * i) && b (10 + 8 * i) ≤ 8 && g.cn c (8 + 8 * i) 2 ≤ 1023)
  | 0x02 => 1 ≤ b 0 && b 0 ≤ 16 && 1 ≤ b 1 && b 1 ≤ 32 && g.cn c 2 2 ≤ 512 && g.cn c 4 2 ≤ 1024
      && (g.post c).all (fun p => p < 0x13)
      && (g.filterTerms c).all (fun t => 1 ≤ t.top && t.top ≤ 0x0E && t.src ≤ 2 && colOk (termReads t)
        && (t.top < 0x0D || t.ref2 ≤ 1024))
  | 0x03 => 1 ≤ b 0 && b 0 ≤ 32 && (g.cops c).all (fun o =>
      ((1 ≤ o.op && o.op ≤ 0x0C) || (0x10 ≤ o.op && o.op ≤ 0x1F)) && o.dst < 64
      && (copSels o).all (fun s => s < 64 || s ≥ 0xFE)
      && ([o.sa, o.sb, o.sc].drop (copArity o.op)).all (· == 0)
      && (o.op != 0x0C || [8, 16, 32, 64].contains o.k))
  | 0x04 => b 0 ≤ 1 && 1 ≤ b 1 && b 1 ≤ 4 && b 2 ≤ 16 && colOk (g.reads c)
      && (if b 0 = 1 then b 4 ≤ 16 && 1 ≤ b 5 && b 5 ≤ 10 && b 4 + b 5 ≤ 17 else b 4 == 0 && b 5 == 0)
  | 0x05 => b 0 ≤ 3 && 1 ≤ b 1 && b 1 ≤ 4 && b 2 ≤ 16 && (b 3 == 0xFF || (8 ≤ b 5 && b 5 ≤ 17))
      && colOk (g.reads c) && colOk (g.writes c) && g.cn c 44 4 % 8 == 0
  | 0x06 => b 0 ≤ 2 && b 1 ≤ 4 && 1 ≤ b 2 && b 2 ≤ 16
      && (if b 1 = 0 then b 4 == 0 else 8 ≤ b 4 && b 4 ≤ 17) && (if b 0 = 1 then b 5 ≤ 10 else b 5 == 0)
      && colOk (g.reads c) && colOk (g.writes c) && (g.aggEnts c).all (fun e => 1 ≤ e.func && e.func ≤ 5 && e.src < 64 && e.dst < 64)
  | 0x07 => b 0 ≤ 63 && 1 ≤ b 1 && b 1 ≤ 2 && 1 ≤ b 2 && b 2 ≤ 16 && 20 ≤ b 3 && b 3 ≤ 46 && 1 ≤ b 4 && b 4 ≤ 4
      && b 5 ≤ 1 && 10 ≤ b 7 && b 7 ≤ 28 && colOk (g.reads c) && colOk (g.writes c)
      && (g.measEnts c).all (fun e => 1 ≤ e.1 && e.1 ≤ 2)
  | 0x08 => 1 ≤ b 0 && b 0 ≤ 4 && b 1 ≤ 16 && 9 ≤ b 3 && b 3 ≤ 14 && colOk (g.reads c)
  | 0x09 => 1 ≤ b 0 && b 0 ≤ 4 && b 1 ≤ 16 && 1 ≤ g.cn c 4 4 && g.cn c 4 4 ≤ 65536 && colOk (g.reads c)
  | 0x0A => b 0 ≤ 1 && 2 ≤ g.cn c 4 2 && g.cn c 4 2 ≤ 512 && g.cn c 8 8 < 2 ^ 48 && g.cn c 16 8 < 2 ^ 48 && colOk (g.writes c)
  | 0x0B => b 0 ≤ 3 && (if b 0 = 0 then 1 ≤ b 1 && b 1 ≤ 4 else if b 0 = 1 then b 1 == 1 else b 1 == 0)
      && 1 ≤ b 2 && b 2 ≤ 64 && g.cn c 12 4 % 4096 == 0 && g.cn c 16 4 % 4096 == 0 && colOk (g.reads c)
  | 0x0C => 1 ≤ b 0 && b 0 ≤ 64 && b 1 ≤ 1 && b 4 ≤ 1 && colOk (g.reads c)
  | _ => false
def step6Ok (g : Image) : Bool :=
  g.pipes.all (fun p => p.source ≤ 2)
    && g.brks.all (fun b => 1 ≤ b.kind && b.kind ≤ 5 && b.place ≤ 1)
    && g.slots.all (fun s => s.kind ≤ 3 && (if s.kind ≤ 1 then 1 ≤ s.type && s.type ≤ 8 else s.type == 0))
    && g.clauses.all (step6Clause g)

/-! ## Step 7: types, scales, and what the chapters reject -/

/-- May two columns be compared, or be key columns of one join (R97, R110)? -/
def sameType (a b : ColInfo) : Option Nat :=
  if a.type = 0 ∨ b.type = 0 then none
  else if a.type ≠ b.type then some St.typeMismatch else if a.type = Ty.dec72 ∧ a.scale ≠ b.scale then some St.scaleMismatch else none
/-- Type checks of a filter term (R97 to R101). -/
def termCheck (g : Image) (lay : Mem) (cols : Cols) (t : Term) : Option Nat :=
  let ci := tgetD cols t.col ⟨0, 0, none⟩
  let opd := fun (ref : Nat) => match t.src with
    | 0 => ColInfo.mk ci.type t.ascale none
    | 1 => g.valInfo ref
    | _ => tgetD cols ref ⟨0, 0, none⟩
  let one := fun (ref : Nat) =>
    let o := opd ref
    if o.type = 0 then none
    else match sameType ci o with
    | some st => some st
    | none =>
      if t.src = 0 ∧ ci.type ≠ Ty.dec72 ∧ t.ascale ≠ 0 then some St.scaleMismatch
      else if ci.type = Ty.dict32 ∧ 3 ≤ t.top ∧ (ci.origin.isNone ∨ (t.src = 2 ∧ o.origin ≠ ci.origin)) then some St.typeMismatch
      else none
  if ci.type = 0 then none else
  match t.top with
  | 0x07 => if ci.type = Ty.string then some St.typeMismatch else firstOf one [t.ref, t.ref2]
  | 0x08 => none
  | 0x09 => none
  | 0x0A =>
    let sl := g.slot t.ref
    if t.ref ≥ g.slots.length ∨ sl.kind ≠ 1 then none
    else if [1, 2, 3, 4, 5, 7].contains sl.type then sameType ci ⟨sl.type, sl.scale, none⟩ else some St.typeMismatch
  | 0x0B => if ci.type = Ty.string then some St.typeMismatch else none
  | 0x0C =>
    let k := (g.brkInfo lay t.ref).1
    if k.length ≠ 1 then none
    else if sameType ci ((k[0]?).getD ⟨0, 0, none⟩) = none then none else some St.typeMismatch
  | 0x0D => if ci.type = Ty.string then none else some St.typeMismatch
  | 0x0E => if ci.type = Ty.string then none else some St.typeMismatch
  | _ => if ci.type = Ty.string then some St.typeMismatch else one t.ref
/-- Type and scale checks of a compute operation (R104, R105; Tables 2-2, 5-7). -/
def copCheck (g : Image) (cols : Cols) (o : COp) : Option Nat :=
  let info := selInfo (fun x => tgetD cols x ⟨0, 0, none⟩) g.valInfo o
  if (copSels o).any (fun x => (info x).type == 0) then none else
  let a := info o.sa
  let b := info o.sb
  let tm := fun (ok : Bool) => if ok then none else some St.typeMismatch
  let sm := fun (ok : Bool) => if ok then none else some St.scaleMismatch
  let num := fun (x : ColInfo) => x.type == Ty.int72 || x.type == Ty.dec72
  let andThen := fun (x y : Option Nat) => match x with
    | some st => some st
    | none => y
  let immBad := (copSels o).any (fun s => s == 0xFF && (if (info s).type = Ty.dec72 then decide (18 < o.immScale) else o.immScale != 0))
  andThen (sm (! immBad)) <|
  match o.op with
  | 0x01 => if num a then sameType a b else tm ((a.type == Ty.date || a.type == Ty.timestamp) && b.type == Ty.int72)
  | 0x02 => if num a then sameType a b
      else tm ((a.type == Ty.date || a.type == Ty.timestamp) && (b.type == Ty.int72 || b.type == a.type))
  | 0x03 => andThen (tm (num a && num b)) (sm (o.k ≤ 18 && o.k ≤ a.scale + b.scale && a.scale + b.scale ≤ 18 + o.k))
  | 0x04 => andThen (tm (num a && num b)) (sm (o.rscale ≤ 18 && a.scale ≤ o.rscale + b.scale && o.rscale + b.scale ≤ 18 + a.scale))
  | 0x05 => tm (num a)
  | 0x06 => tm (num a)
  | 0x07 => andThen (tm (a.type == Ty.dec72)) (sm (1 ≤ o.k && o.k ≤ 18 && a.scale + o.k ≤ 18))
  | 0x08 => andThen (tm (a.type == Ty.dec72)) (sm (1 ≤ o.k && o.k ≤ 18 && o.k ≤ a.scale))
  | 0x09 => andThen (tm (a.type == Ty.int72)) (sm (o.rscale ≤ 18))
  | 0x0A => tm (a.type == Ty.dec72)
  | 0x0B => andThen (tm (a.type == Ty.float64)) (sm (o.rscale ≤ 18))
  | 0x0C => tm (a.type == Ty.int72)
  | 0x16 => tm (a.type == Ty.bool && b.type == Ty.bool)
  | 0x17 => tm (a.type == Ty.bool && b.type == Ty.bool)
  | 0x18 => tm (a.type == Ty.bool)
  | 0x19 => none
  | 0x1A => none
  | 0x1B => andThen (tm (a.type == Ty.bool)) (sameType b (info o.sc))
  | 0x1C => andThen (tm (a.type != Ty.string && a.type != Ty.dict32)) (sameType a b)
  | 0x1D => andThen (tm (a.type != Ty.string && a.type != Ty.dict32)) (sameType a b)
  | 0x1E => none
  | 0x1F => tm (a.type == Ty.string && o.sa != 0xFF)
  | op =>
    andThen (tm (a.type != Ty.string)) <| andThen (sameType a b)
      (tm (! (a.type == Ty.dict32 && op ≥ 0x12) ||
        (if o.sa ≥ 64 then b.origin.isSome else a.origin.isSome && (o.sb ≥ 64 || b.origin == a.origin))))
/-- Type checks of key columns (R110, R138). -/
def keyCheck (sort : Bool) (cols : Cols) (xs : List Nat) : Option Nat :=
  firstOf (fun x =>
    let i := tgetD cols x ⟨0, 0, none⟩
    if i.type = Ty.string ∨ (sort ∧ i.type = Ty.dict32 ∧ i.origin.isNone) then some St.typeMismatch else none) xs
/-- Derivation at one clause (R86): columns read must be written, NIN and NOUT must agree, operand types and scales fit. -/
def deriveClause (g : Image) (lay : Mem) (c : Clause) : Option Nat :=
  let cols := g.colsAt lay c.pipe c.pos
  let of := fun (x : Nat) => tgetD cols x ⟨0, 0, none⟩
  let unread := if c.kind = Kind.compute then
      ((g.cops c).foldl (fun (p : List Nat × Bool) o =>
        (o.dst :: p.1, p.2 || ((copSels o).filter (· < 64)).any (fun x => ! p.1.contains x))) (cols.map (·.1), false)).2
    else (g.reads c).any (fun x => (tget cols x).isNone)
  if unread ∨ c.nin ≠ (distinct (g.reads c)).length ∨ c.nout ≠ (distinct (g.writes c)).length then some St.planFormat
  else
    match c.kind with
    | 0x02 => firstOf (termCheck g lay cols) (g.filterTerms c)
    | 0x03 => ((g.cops c).foldl (fun (p : Cols × Option Nat) o =>
        match p.2 with
        | some st => (p.1, some st)
        | none => (tset p.1 o.dst (copInfo (selInfo (fun x => tgetD p.1 x ⟨0, 0, none⟩) g.valInfo o) o), copCheck g p.1 o)) (cols, none)).2
    | 0x04 => keyCheck false cols (g.keyCols c)
    | 0x05 =>
      match keyCheck false cols (g.keyCols c) with
      | some st => some st
      | none => if g.cb c 3 = 0xFF then none else
          firstOf (fun p => sameType (of p.1) p.2) ((g.keyCols c).zip (g.brkInfo lay (g.cb c 3)).1)
    | 0x06 =>
      if g.cb c 0 = 2 then none
      else match keyCheck false cols (g.keyCols c) with
        | some st => some st
        | none => firstOf (fun e =>
            let t := (of e.src).type
            if t = 0 then none
            else if e.func = 3 ∧ t ≠ Ty.int72 ∧ t ≠ Ty.dec72 then some St.typeMismatch
            else if 4 ≤ e.func ∧ (t = Ty.string ∨ t = Ty.dict32) then some St.typeMismatch else none) (g.aggEnts c)
    | 0x07 =>
      match keyCheck false cols (g.keyCols c) with
      | some st => some st
      | none =>
        if g.cb c 5 = 0 ∧ (of (g.cb c 6)).type ≠ Ty.timestamp ∧ (of (g.cb c 6)).type ≠ 0 then some St.typeMismatch
        else firstOf (fun e => if e.1 = 2 ∧ ! [0, Ty.int72, Ty.dec72].contains (of e.2.1).type then some St.typeMismatch
          else none) (g.measEnts c)
    | 0x08 => keyCheck true cols (g.keyCols c)
    | 0x09 => keyCheck true cols (g.keyCols c)
    | 0x0B => if g.cb c 0 = 0 ∨ g.cb c 0 = 1 then keyCheck false cols (g.keyCols c) else none
    | 0x0C => if bitOf (g.cb c 4) 0 ∧ ! [0, Ty.int72].contains (of (g.cb c 5)).type then some St.typeMismatch else none
    | _ => none
/-- Parameter slots that a clause names, with the kind each must have (R515). -/
def slotRefs (g : Image) (c : Clause) : List (Nat × Nat) :=
  match c.kind with
  | 0x02 => (g.filterTerms c).flatMap (fun t =>
      if t.top = 0x0A then [(t.ref, 1)]
      else if t.src = 1 ∧ t.top ≤ 7 then (if t.top = 7 then [(t.ref, 0), (t.ref2, 0)] else [(t.ref, 0)]) else [])
  | 0x03 => (g.cops c).flatMap (fun o => if (copSels o).contains 0xFE then [(o.pslot, 0)] else [])
  | 0x0B => if g.cb c 0 = 1 then [(g.cn c 4 2, 1)] else []
  | 0x0C => [(g.cn c 2 2, 3)]
  | _ => []
/-- Depth of the value stack while a postfix program runs; none when a step finds too few values. -/
def postDepth (nterms : Nat) : List Nat → Nat → Option Nat
  | [], d => some d
  | p :: ps, d =>
    let d' := if p < 0x10 then (if p < nterms ∧ d < 8 then some (d + 1) else none)
      else if p = 0x12 then (if d ≥ 1 then some d else none) else (if d ≥ 2 then some (d - 1) else none)
    match d' with
    | some k => postDepth nterms ps k
    | none => none
/-- State lanes of an aggregate function (Table 6-8), and lanes of a slot (R126). -/
def aggLanes (e : AggEnt) : Nat := if e.func = 3 then 3 else 1
def Image.slotLanes (g : Image) (c : Clause) : Nat :=
  alignUp (1 + g.cb c 1 + ((g.aggEnts c).map aggLanes).foldl (· + ·) 0) 2
/-- Distinct batch columns a pipeline uses (R87). -/
def Image.pipeCols (g : Image) (p : Nat) : Nat := (distinct ((g.clausesOf p).flatMap (fun c => g.reads c ++ g.writes c))).length
/-- Bytes of an entry of the table built from a breaker (R113). -/
def Image.tableEntry (g : Image) (b : Nat) : Nat :=
  ((g.producerClause b).map (fun k => 9 * (1 + g.cb k 1 + g.cb k 2))).getD 9
/-- The other checks of a clause's chapter, in table order. -/
def chapterCheck (g : Image) (lay : Mem) (c : Clause) : Option Nat :=
  let b := g.cb c
  let last := c.pos + 1 == (g.pipe c.pipe).ncl
  let pf := fun (bad : Bool) => (bad, St.planFormat)
  let pl := fun (bad : Bool) => (bad, St.planLimit)
  let prod := fun (bk : Nat) (kind : Nat) => last && (g.brk bk).producer == c.pipe && (g.brk bk).kind == kind
  match c.kind with
  | 0x01 => firstFail [pf (c.pos != 0 || (g.pipe c.pipe).source != 0), pf ((distinct (g.writes c)).length != (g.writes c).length),
      ((List.range (b 0)).any (fun i => b (11 + 8 * i) > 18 || (b (10 + 8 * i) != 2 && b (11 + 8 * i) != 0)), St.scaleMismatch)]
  | 0x02 => firstFail [pf (postDepth (b 0) (g.post c) 0 != some 1),
      pf ((g.filterTerms c).any (fun t => (t.top == 0x0D || t.top == 0x0E) && t.ref + t.ref2 > g.cn c 4 2)),
      pf ((g.filterTerms c).any (fun t => t.top == 0x0C && (g.brkInfo lay t.ref).1.length != 1 || t.top == 0x0C && (g.brk t.ref).kind != 2)),
      pl ((g.filterTerms c).any (fun t => t.top == 0x0B) && g.req.cam == 0),
      pl ((g.filterTerms c).any (fun t => t.top == 0x0C && decide (c.stateBytes < 9 * 2 ^ 8 + g.tableEntry t.ref)))]
  | 0x03 => firstFail [pf ((g.cops c).any (fun o => ((copSels o).filter (· ≥ 0xFE)).length > 1))]
  | 0x04 => firstFail [pf (! prod (b 3) (if b 0 = 0 then 2 else 5)), pl (b 0 == 1 && c.stateBytes < 512 * 2 ^ b 5)]
  | 0x05 =>
    let kinds := [pf (b 2 > 0 && b 0 ≥ 2), pf (bitOf (b 4) 0 && b 0 != 3), pf (bitOf (b 4) 1 && b 0 != 1)]
    if b 3 = 0xFF then firstFail (kinds ++ [pl (b 2 > 1 || g.req.cam == 0), pf (b 1 != 1)])
    else
      let pc := g.producerClause (b 3)
      let pw := (pc.map (fun k => g.cb k 2)).getD 0
      let pk := (pc.map (fun k => g.cb k 1)).getD 0
      let src := g.brk (g.pipe c.pipe).ref
      let both := (g.brk (b 3)).kind == 5 && (g.pipe c.pipe).source == 1 && src.kind == 5
      let bits := fun (k : Option Clause) => (k.map (fun k => g.cb k 4 + g.cb k 5)).getD 0
      firstFail (kinds ++ [pf (match pc with
          | some k => k.kind != Kind.build
          | none => true),
        pf (pk != b 1), pf ((g.cbs c 12 (b 2)).any (fun i => i ≥ pw)),
        pf (both && bits pc != bits (g.producerClause (g.pipe c.pipe).ref)),
        pl (c.stateBytes < 9 * 2 ^ b 5 + 9 * (1 + b 1 + pw) + g.cn c 44 4)])
  | 0x06 =>
    let pc := g.producerClause (b 3)
    firstFail [pf (b 0 == 1 && ! prod (b 3) 3), pf (b 0 == 0 && (b 3 != 0 || (g.pipe c.pipe).ptiles != 1)),
      pf (b 0 == 2 && (c.pos != 0 || (g.pipe c.pipe).source != 1 || (g.pipe c.pipe).ref != b 3 || (g.brk (b 3)).kind != 3
        || (match pc with
          | some k => k.kind != Kind.agg || g.cb k 1 != b 1 || (g.aggEnts k).map (·.func) != (g.aggEnts c).map (·.func)
          | none => true))),
      pl (c.stateBytes < 9 * g.slotLanes c * (if b 1 = 0 then 1 else 2 ^ b 4))]
  | 0x08 => firstFail [pf (! prod (b 2) 4), pl (c.workBytes < 2 * 2 ^ b 3 * 9 * (b 0 + b 1) + 8192)]
  | 0x09 => firstFail [pf (! prod (b 2) 4), pl (c.stateBytes < g.cn c 4 4 * 9 * (b 0 + b 1) + 64)]
  | 0x0A => firstFail [
      pf (c.pos != 0 || (g.pipe c.pipe).source != 1 || (g.brk (g.pipe c.pipe).ref).kind != 4 || (g.mergeRoot c).isNone),
      pf (b 0 == 0 && ((g.pipe c.pipe).ncl != 1 || ! prod (b 2) 4)), pl (c.workBytes < 2048 * g.cn c 4 2 + 65536)]
  | 0x0B =>
    let later := ((g.clausesOf c.pipe).drop (c.pos + 1)).flatMap (fun k => g.reads k)
    let made := ((g.clausesOf c.pipe).drop (c.pos + 1)).flatMap (fun k => g.writes k)
    firstFail [pf (((g.clausesOf c.pipe).filter (fun k => k.kind == Kind.exchange)).length != 1 || g.standing),
      pf (later.any (fun x => ! (g.cbs c 24 (b 2)).contains x && ! made.contains x)),
      pf (c.stateBytes < g.cn c 12 4 + g.cn c 16 4), pl (g.cn c 12 4 < 65536 || g.cn c 16 4 < 65536)]
  | 0x0C => firstFail [pf (! last),
      pf ((g.clauses.filter (fun k => k.kind == Kind.output && g.cn k 2 2 == g.cn c 2 2)).length != 1)]
  | _ => none
/-- Layout a WINDOW_AGG clause declares for its state table (R130): key types, NB, BSHIFT, CBITS, measures. -/
structure StLayout where
  keys : List Nat
  nb : Nat
  bshift : Nat
  cbits : Nat
  meas : List (Nat × Nat × Nat)
deriving DecidableEq, Repr
def Image.stLayout (g : Image) (lay : Mem) (c : Clause) : StLayout :=
  let cols := g.colsAt lay c.pipe c.pos
  let of := fun (x : Nat) => tgetD cols x ⟨0, 0, none⟩
  ⟨(g.keyCols c).map (fun x => (of x).type), g.cb c 2, g.cb c 3, g.cb c 7,
    (g.measEnts c).map (fun e => (e.1, if e.1 = 1 then 1 else (of e.2.1).type, if e.1 = 1 then 0 else (of e.2.1).scale))⟩
def Image.windows (g : Image) : List Clause := g.clauses.filter (fun c => c.kind == Kind.window)
/-- State tables that the request lists. -/
def Image.stids (g : Image) : List Nat := g.req.ids.take g.req.nstate
/-- R130: one layout per table, every listed table named, every named table listed; `held` gives the layout of a table that is
allocated. -/
def stCheck (g : Image) (lay : Mem) (held : Nat → Option StLayout) : Bool :=
  g.windows.any (fun c => ! g.stids.contains (g.cb c 0)
      || g.windows.any (fun k => g.cb k 0 == g.cb c 0 && g.stLayout lay k != g.stLayout lay c)
      || (match held (g.cb c 0) with
        | some h => h != g.stLayout lay c
        | none => false))
    || (g.req.nstate ≤ 16 && g.stids.any (fun i => i < 64 && ! g.windows.any (fun c => g.cb c 0 == i)))
def step7 (g : Image) (lay : Mem) (held : Nat → Option StLayout) : Option Nat :=
  match firstOf (deriveClause g lay) g.clauses with
  | some st => some st
  | none =>
    if g.clauses.any (fun c => (slotRefs g c).any (fun r => r.1 ≥ g.slots.length || (g.slot r.1).kind != r.2)) then some St.planFormat
    else if g.slots.any (fun s => s.scale > 18 || (s.type != 2 && s.scale != 0)) then some St.scaleMismatch
    else if (List.range g.pipes.length).any (fun p => (g.pipe p).source == 0 &&
        ((g.clauseAt p 0).map (·.kind)) != some Kind.scan) then some St.planFormat
    else match firstOf (chapterCheck g lay) g.clauses with
      | some st => some st
      | none =>
        if stCheck g lay held then some St.planFormat
        else if (List.range g.pipes.length).any (fun p =>
            ((g.clauseAt p 0).map (·.workBytes)).getD 0 < 9216 * g.pipeCols p + 128) then some St.planLimit
        else none

/-! ## Step 8: the resource request -/

def sumBy {α : Type} (f : α → Nat) (xs : List α) : Nat := xs.foldl (fun n x => n + f x) 0
def step8Ok (g : Image) : Bool :=
  let r := g.req
  1 ≤ r.tmin && r.tmin ≤ 128 && r.tmin ≤ r.tmax && r.tmax ≤ 128 && r.ls ≤ 1507328 && r.ways ≤ 8 && r.cam ≤ 16 && r.nstate ≤ 16
    && g.stids.all (· < 64) && (distinct g.stids).length == g.stids.length && (r.ids.drop r.nstate).all (· == 0xFF)
    && (List.range g.pipes.length).all (fun p => sumBy (fun c => c.stateBytes + c.workBytes) (g.clausesOf p) ≤ r.ls)
/-- Steps 4 to 8 on an image of `bytes` bytes: the status of the first failure. -/
def imageCheck (m : Mem) (bytes : Nat) (lay : Mem) (held : Nat → Option StLayout) : Option Nat :=
  if ¬ step4Ok m bytes then some St.planFormat
  else
    let g := readImage m
    if ¬ step5Ok g then some St.planFormat
    else if ¬ step6Ok g then some St.invalidField
    else match step7 g lay held with
      | some st => some st
      | none => if step8Ok g then none else some St.planLimit

end Sys2Proof.Machine
end

