-- ==== Sys2Proof/Machine/Programs.lean ====
section
/-! DEFINITION. Loaded plans and their runs as State holds them, and the programs of pipelines in the clause area of a tile's program
memory (spec/04_plans_pipelines.md, R64). -/

namespace Sys2Proof.Machine
open Sys2Proof

/-! ## Plans and runs -/

def planKey (fn id : Nat) : Nat := fn * 1024 + id
def getPlan (s : State) (fn id : Nat) : Option Plan := if id < 1024 then tget s.plans.plans (planKey fn id) else none
def setPlan (s : State) (fn id : Nat) (p : Plan) : State :=
  { s with plans := { s.plans with plans := tset s.plans.plans (planKey fn id) p } }
def planImage (s : State) (fn id : Nat) : Image := readImage (((getPlan s fn id).map (·.image)).getD [])
/-- Code of a plan's state (Table 4-7). -/
def planState (s : State) (fn id : Nat) : Nat := ((getPlan s fn id).map (·.st)).getD 0
def getRun (s : State) (id : Nat) : Option Run := tget s.plans.runs id
def setRun (s : State) (id : Nat) (r : Run) : State := { s with plans := { s.plans with runs := tset s.plans.runs id r } }
def modTask (s : State) (id k : Nat) (f : Task → Task) : State :=
  match getRun s id with
  | some r => setRun s id { r with tasks := tupd r.tasks k f }
  | none => s
def getTask (s : State) (id k : Nat) : Option Task := (getRun s id).bind (fun r => tget r.tasks k)

/-! ## The clause area (R64) -/

def setProgs (s : State) (p : Nat) (l : List TileProg) : State := { s with plans := { s.plans with progs := tset s.plans.progs p l } }
/-- Lowest word of the clause area from which `n` words are free: 0x4000, or the end of a program. -/
def progGap (l : List TileProg) (n : Nat) : Option Nat :=
  (sortBy (fun a b => decide (a ≤ b)) (0x4000 :: l.map (fun q => q.start + q.words))).find? (fun a =>
    decide (a + n ≤ 0x10000) && l.all (fun q => decide (a + n ≤ q.start) || decide (q.start + q.words ≤ a)))
/-- The least recently used programs that are not pinned. -/
def oldestProg (l : List TileProg) : Option TileProg :=
  (l.filter (fun q => ! q.pinned)).foldl (fun b q => match b with
    | none => some q
    | some o => if q.used < o.used then some q else some o) none
/-- Evict the least recently used programs until `n` words are free together. -/
def progRoom (n : Nat) : Nat → List TileProg → List TileProg
  | 0, l => l
  | k + 1, l =>
    if (progGap l n).isSome then l
    else match oldestProg l with
      | some o => progRoom n k (l.filter (· != o))
      | none => l
/-- The words of a pipeline's programs, clause by clause. -/
def pipeProgram (g : Image) (p : Nat) : List Byte :=
  (g.clausesOf p).flatMap (fun c => mreads g.mem (mnat g.mem 40 4 + 2 * c.progStart) (2 * c.progWords))
/-- Programs close ranks: they stand one after another from the foot of the clause area. -/
def closeRanks : Nat → List TileProg → List TileProg
  | _, [] => []
  | a, q :: qs => { q with start := a } :: closeRanks (a + q.words) qs
/-- Copy programs to where their list says. -/
def copyProgs (s : State) (p : Nat) (l : List TileProg) : State :=
  l.foldl (fun s q => modCore s p (fun c => { c with mem := mwrite c.mem (2 * q.start) (pipeProgram (planImage s q.fn q.plan) q.pipe) })) (setProgs s p l)
/-- The kernel copies a pipeline's programs into the clause area when a task of it first starts on a tile (R64). They stand at the
lowest room; programs close ranks when only room in pieces is left (DESIGN CHOICE, assumption 37). -/
def loadPrograms (s : State) (p fn plan pipe : Nat) : State :=
  let l := tgetD s.plans.progs p []
  if l.any (fun q => q.fn == fn && q.plan == plan && q.pipe == pipe) then
    setProgs s p (l.map (fun q => if q.fn = fn ∧ q.plan = plan ∧ q.pipe = pipe then { q with used := now s } else q))
  else
    let g := planImage s fn plan
    let n := (pipeProgram g pipe).length / 2
    let l := progRoom n l.length l
    let new : TileProg := { fn := fn, plan := plan, pipe := pipe, start := 0x4000, words := n, used := now s, pinned := g.standing }
    match progGap l n with
    | some a =>
      let q := { new with start := a }
      setProgs (modCore s p (fun c => { c with mem := mwrite c.mem (2 * a) (pipeProgram g pipe) })) p (l ++ [q])
    | none => copyProgs s p (closeRanks 0x4000 (l ++ [new]))
/-- The programs of a plan leave the clause areas. -/
def dropPrograms (s : State) (fn plan : Nat) : State :=
  { s with plans := { s.plans with progs := s.plans.progs.map (fun p => (p.1, p.2.filter (fun q => ! (q.fn == fn && q.plan == plan)))) } }
/-- A STANDING plan's programs are pinned on its reserved tiles, and on no other (R81, R334). -/
def pinPlan (s : State) (fn plan : Nat) (tiles : List Nat) : State :=
  let pipes := List.range (planImage s fn plan).pipes.length
  tiles.foldl (fun s t => pipes.foldl (fun s p => loadPrograms s (physTile s t) fn plan p) s) (dropPrograms s fn plan)
/-- The programs that an entry's thread runs, as it starts on a tile. -/
def startPrograms (s : State) (e : Entry) (p : Nat) : State :=
  match getRun s e.item with
  | none => s
  | some r =>
    match e.task with
    | none => loadPrograms s p r.fn r.planId 0
    | some k => match tget r.tasks k with
      | some t => loadPrograms s p r.fn r.planId t.pipe
      | none => s

end Sys2Proof.Machine
end

