-- ==== Sys2Proof/Machine/LocalStore.lean ====
section
/-! DEFINITION. Clause state as it stands in a tile's local store (spec/06_join_aggregate.md, R113, R117, R126, R132;
spec/07_sort_exchange.md, R148). The spec lays out the slots and the tables; where a clause's area lies in the local store, and the order of
what a heap, a stage and a set of pending records hold, are the model's (DESIGN CHOICE, assumption 39). -/

namespace Sys2Proof.Machine
open Sys2Proof

/-! ## Aggregate slots (R126) -/

/-- State lanes of a measure, and a measure read back from them. -/
def measLanes (e : AggEnt) (m : Meas) : List Lane :=
  if e.func ≤ 2 then [natLane m.count]
  else if e.func = 3 then [intLane (m.sum / 2 ^ 72), intLane m.sum, natLane m.count]
  else [m.ext]
def readMeas : List AggEnt → List Lane → List Meas
  | [], _ => []
  | e :: es, ls =>
    let l := fun (i : Nat) => (ls[i]?).getD 0#72
    let m : Meas := if e.func ≤ 2 then { count := (l 0).toNat }
      else if e.func = 3 then { sum := (l 0).toInt * 2 ^ 72 + ((l 1).toNat : Int), count := (l 2).toNat }
      else { ext := l 0 }
    m :: readMeas es (ls.drop (aggLanes e))
/-- The lanes of an occupied slot (R126). -/
def groupLanes (g : Image) (c : Clause) (gr : Group) : List Lane :=
  let ls := natLane (2 ^ 71 + hashTag gr.key * 2 ^ 48) :: gr.key
    ++ ((g.aggEnts c).zip gr.meas).flatMap (fun p => measLanes p.1 p.2)
  ls ++ List.replicate (g.slotLanes c - ls.length) 0#72

/-! ## A clause's area -/

/-- Lanes of a pending record: its epoch, its key, and each measure's sum and count. -/
def recLanes (w : WRec) : List Lane :=
  natLane w.epoch :: w.key ++ w.vals.flatMap (fun v => [intLane (v.1 / 2 ^ 72), intLane v.1, natLane v.2])
/-- Bytes of a clause's state, by offset in its STATE_BYTES; every other byte of it is 0. -/
def clauseBytes (g : Image) (c : Clause) : CState → List (Nat × List Byte)
  | .agg slots => slots.map (fun p => (9 * g.slotLanes c * p.1, (groupLanes g c p.2).flatMap pack9))
  | .probe t _ _ => tableBytes t
  | .filter _ ts => (ts.head?.map (fun t => tableBytes t.2)).getD []
  | .stage ps => ps.map (fun p => (512 * p.1, p.2.2.flatMap (fun r => r.flatMap pack9)))
  | .topn rows => (rows.zipIdx).map (fun (r, i) => (64 + 9 * r.length * i, r.flatMap pack9))
  | .window recs => (recs.zipIdx).map (fun (w, i) => (64 + 9 * (recLanes w).length * i, (recLanes w).flatMap pack9))
  | .sort _ _ => []
  | .empty => []
/-- First byte of a plan's share of a tile's local store: a run's ends where the local store ends; the reservations of STANDING plans stand
above the kernel's 64 KiB in the order of their functions and PLAN_IDs. -/
def lsBase (s : State) (r : Run) (g : Image) (tile : Nat) : Nat :=
  if r.standing then
    65536 + sumBy (fun p => (readImage p.2.image).req.ls) (s.plans.plans.filter (fun p => p.2.tiles.contains tile && decide (p.1 < planKey r.fn r.planId)))
  else 1572864 - g.req.ls
/-- A clause's area stands after those of the clauses before it. -/
def clauseOff (g : Image) (c : Clause) : Nat := sumBy (·.stateBytes) ((g.clausesOf c.pipe).take c.pos)
/-- Write a clause's state into a tile's local store, which data memory begins with at word 0x100000. -/
def storeClause (s : State) (r : Run) (g : Image) (tile : Nat) (c : Clause) (v : CState) : State :=
  let a := 0x200000 + lsBase s r g tile + clauseOff g c
  modCore s (physTile s tile) (fun k => { k with mem := (clauseBytes g c v).foldl (fun m p => mwrite m (a + p.1) p.2) (mzero k.mem a c.stateBytes) })
/-- A task's clause state is brought into the local store of the tile it starts on: empty, or as its checkpoint has it. -/
def storeTask (s : State) (r : Run) (t : Task) (tile : Nat) : State :=
  let g := planImage s r.fn r.planId
  ((g.clausesOf t.pipe).filter (fun c => c.stateBytes > 0)).foldl (fun s c => storeClause s r g tile c (tgetD t.st.cst c.pos .empty)) s
/-- A task takes its seat on a tile of its grant; a task not yet started that was meant for it takes the other's place. -/
def seatTask (s : State) (id k tile : Nat) : State :=
  match getRun s id with
  | none => s
  | some r => match tget r.tasks k with
    | none => s
    | some t => setRun s id { r with tasks := r.tasks.map (fun q =>
        if q.1 = k then (k, { q.2 with tile := tile, seated := true })
        else if q.2.tile = tile ∧ ! q.2.ended ∧ ! q.2.seated then (q.1, { q.2 with tile := t.tile }) else q) }
/-- What a save area keeps of a context (R163, R221, R243): the registers and the control registers that software writes, EPC and ESR, the
predicates, the vector control registers, and each live vector register. -/
def loadContext (c saved : Core) : Core :=
  { c with
      d := saved.d, a := saved.a, ac := saved.ac, pc := saved.pc, k := saved.k, ie := saved.ie, exl := saved.exl, epc := saved.epc,
      esr := saved.esr, winb := saved.winb, mb := saved.mb, ml := saved.ml,
      vec := { c.vec with p := saved.vec.p, cr := saved.vec.cr, v := Vector.ofFn (fun (n : Fin 16) =>
        if bitOf saved.vec.cr[4].toNat n then saved.vec.v[n] else c.vec.v[n]) } }
/-- The context of a tile's thread, laid over registers of zeros; the tile's memories stay in place. -/
def tileContext (s : State) (tile : Nat) : Core := loadContext (coreInit 0) (getCore s (physTile s tile))
/-- A thread resumes: its context is restored, and the time it was suspended is no part of its checkpoint interval (R163). -/
def resumeThread (s : State) (e : Entry) (tile : Nat) : State :=
  let s := match e.ctx with
    | some c => modCore s (physTile s tile) (fun k => loadContext k c)
    | none => s
  match e.st, e.task with
  | .suspended, some k => modTask s e.item k (fun t => { t with since := t.since + (now s - e.since) })
  | _, _ => s
/-- A READY thread starts on logical tile `tile`: its programs are there or are copied (R64), and its clause state stands in place. -/
def startThread (s : State) (e : Entry) (tile : Nat) : State :=
  let s := startPrograms s e (physTile s tile)
  if e.st ≠ .ready then resumeThread s e tile
  else
    let s := seatTask s e.item (e.task.getD 0) tile
    resumeThread (match getRun s e.item with
    | none => s
    | some r => match tget r.tasks (e.task.getD 0) with
      | some t => storeTask s r t tile
      | none => s) e tile

end Sys2Proof.Machine
end

