-- ==== Sys2Proof/Machine/Sched.lean ====
section
/-! DEFINITION. The dispatch scheduler (spec/08_dispatch_scheduler.md, R155 to R172): entries, flows, selection,
pre-emption, cluster wakes, and the histogram. -/

namespace Sys2Proof.Machine
open Sys2Proof

/-! ## Entries -/

/-- Tiles of a task's thread: the one that holds its local state once it has started, else those of the grant on which no other task of the
run has started; the tasks of an EXCHANGE keep the tiles they were started for (R150). -/
def taskTiles (s : State) (r : Run) (t : Task) (elig : Option (List Nat)) : List Nat :=
  if t.seated then [t.tile]
  else if r.standing then elig.getD []
  else if ((planImage s r.fn r.planId).clausesOf t.pipe).any (fun c => c.kind == Kind.exchange) then [t.tile]
  else r.granted.filter (fun m => ! r.tasks.any (fun q => q.2.seated && ! q.2.ended && q.2.tile == m))
/-- Tiles an entry may run on (Table 8-1), in ascending order: those of its task, those fixed at its creation, or the function's pool. -/
def eligTiles (s : State) (e : Entry) : List Nat :=
  match e.st, e.tile with
  | .suspended, some t => [t]
  | _, _ =>
    let own := match getRun s e.item, e.task with
      | some r, some k => (tget r.tasks k).map (fun t => taskTiles s r t e.elig)
      | _, _ => none
    (sortBy (fun a b => decide (a ≤ b)) (own.getD (e.elig.getD (poolTiles s e.fn)))).filter (fun t => ! tileAbsent s t)
/-- Is a tile fenced: quiesced in Recover and not yet remapped (R461), or in its self-test (R457)? -/
def tileFenced (s : State) (t : Nat) : Bool :=
  s.ras.rcv.any (fun r => r.logical == t && r.fenced) || s.ras.bist.contains (physTile s t)
/-- Is a tile occupied by a running or placed entry, or fenced? -/
def tileBusy (s : State) (t : Nat) : Bool :=
  tileFenced s t || s.sched.entries.any (fun p => p.2.tile == some t && (p.2.st == .running || p.2.placed))
/-- The entry running on a tile. -/
def runningOn (s : State) (t : Nat) : Option (Nat × Entry) :=
  s.sched.entries.find? (fun p => p.2.tile == some t && p.2.st == .running)
/-- A free save area of a tile (R163: 8 of them). -/
def freeSave (s : State) (t : Nat) : Option Nat :=
  (List.range 8).find? (fun a => ! s.sched.entries.any (fun p => p.2.st == .suspended && p.2.tile == some t && p.2.save == some a))
/-- Entry order of selection: earliest effective deadline, then lower ARRSEQ (R160). -/
def entryBefore (a b : Entry) : Bool := a.eff < b.eff || (a.eff == b.eff && a.arrseq < b.arrseq)
/-- Insert into a list sorted by selection order. -/
def insertCand (x : Nat × Entry) : List (Nat × Entry) → List (Nat × Entry)
  | [] => [x]
  | y :: ys => if entryBefore x.2 y.2 then x :: y :: ys else y :: insertCand x ys
/-- Candidates for a tile: READY entries not yet placed and SUSPENDED ones, in selection order. -/
def candidates (s : State) : List (Nat × Entry) :=
  (s.sched.entries.filter (fun p => (p.2.st == .ready && ! p.2.placed) || p.2.st == .suspended)).foldl
    (fun acc x => insertCand x acc) []

/-! ## Waiting times (R171) -/

/-- Histogram bucket of a wait in ns. -/
def waitBucket (w : Nat) : Nat := if w < 128 then 0 else min 15 (bitLen 64 w - 7)
/-- Count one dispatch or resume of an entry on a tile. -/
def countWait (s : State) (e : Entry) (t : Nat) : State :=
  let k := (t * 4 + e.lc) * 16 + waitBucket (now s - e.since)
  { s with sched := { s.sched with hist := tset s.sched.hist k (satAdd 32 (tgetD s.sched.hist k 0) 1) } }

/-! ## Placement (R160) -/

/-- Start or resume entry `i` on tile `t`, whose core is told (R211). -/
def dispatch (s : State) (i : Nat) (e : Entry) (t : Nat) : State :=
  let s := startThread (notifyTile (countWait s e t) (physTile s t)) e t
  setEntry s i { e with st := .running, tile := some t, save := none, placed := false, ctx := none }
/-- Place entry `i` on tile `t` of a waking cluster. -/
def placeOn (s : State) (i : Nat) (e : Entry) (t : Nat) : State := setEntry s i { e with tile := some t, placed := true }
/-- Free tiles of a list whose cluster is in a state. -/
def freeIn (s : State) (ts : List Nat) (st : ClState) : List Nat :=
  ts.filter (fun t => (getCluster s (t / 8)).st == st && ! tileBusy s t)
/-- The victim of a pre-emption: latest effective deadline, then higher ARRSEQ, among tiles with a free save area whose
running entry has a later effective deadline. -/
def victim (s : State) (ts : List Nat) (e : Entry) : Option (Nat × Nat × Entry) :=
  (ts.filterMap (fun t => match runningOn s t with
    | some (j, v) => if e.eff < v.eff && (freeSave s t).isSome then some (t, j, v) else none
    | none => none)).foldl
    (fun best x => match best with
      | none => some x
      | some b => if entryBefore b.2.2 x.2.2 then some x else some b) none
/-- Suspend the running entry `j` of tile `t` into a save area (R163). -/
def suspend (s : State) (j : Nat) (v : Entry) (t : Nat) : State :=
  setEntry s j { v with st := .suspended, save := freeSave s t, since := now s, ctx := some (tileContext s t) }
/-- Tile in a waking cluster whose wake ends first. -/
def firstWake (s : State) (ts : List Nat) : Option Nat :=
  ts.foldl (fun best t => match best with
    | none => some t
    | some b => if (getCluster s (t / 8)).wakeEnd < (getCluster s (b / 8)).wakeEnd then some t else some b) none
/-- No cluster powers up while TILE_KIMG.VALID is 0 (R195). -/
def kimgValid (s : State) : Bool := rfld s Reg.TILE_KIMG 0 0 0 == 1
/-- Start the wake of a power-gated cluster (R160). -/
def wakeCluster (s : State) (c : Nat) : State :=
  let cl := getCluster s c
  if cl.st = .gated ∧ kimgValid s then setCluster s c { cl with st := .waking, wakeEnd := now s + 18000 } else s
/-- Try the four placements of R160 for one candidate; none when no one applies. -/
def place (s : State) (i : Nat) (e : Entry) : Option State :=
  let ts := eligTiles s e
  match freeIn s ts .active with
  | t :: _ => some (dispatch s i e t)
  | [] =>
    match freeIn s ts .clockGated with
    | t :: _ =>
      let c := getCluster s (t / 8)
      let s := if c.wakeEnd > now s then s else setCluster s (t / 8) { c with wakeEnd := now s + 400 }
      some (placeOn s i e t)
    | [] =>
      match victim s ts e with
      | some (t, j, v) => some (dispatch (suspend s j v t) i e t)
      | none =>
        match firstWake s (freeIn s ts .waking) with
        | some t => some (placeOn s i e t)
        | none =>
          match freeIn s ts .gated with
          | t :: _ => if kimgValid s then some (placeOn (wakeCluster s (t / 8)) i e t) else none
          | [] => none
/-- The first candidate that can be placed is placed. -/
def scheduleOne (s : State) : List (Nat × Entry) → Option State
  | [] => none
  | (i, e) :: rest =>
    match place s i e with
    | some s' => some s'
    | none => scheduleOne s rest
/-- Place candidates until none can be placed. -/
def scheduleN : Nat → State → State
  | 0, s => s
  | n + 1, s =>
    match scheduleOne s (candidates s) with
    | some s' => scheduleN n s'
    | none => s
/-- Open and close the running intervals of the tiles (R171), keeping one second of them. -/
def noteBusy (s : State) : State :=
  let run := (s.sched.entries.filter (fun p => p.2.st == .running)).filterMap (·.2.tile)
  let t := now s
  let closed := s.sched.busy.map (fun p => match p.2.1 with
    | some a => if run.contains p.1 then p
      else (p.1, none, p.2.2.filter (fun iv => decide (t < iv.2 + 1000000000)) ++ [(a, t)])
    | none => p)
  let busy := run.foldl (fun b m => match tget b m with
    | some (some _, _) => b
    | some (none, l) => tset b m (some t, l)
    | none => tset b m (some t, [])) closed
  { s with sched := { s.sched with busy := busy } }
/-- Note since when every tile of each active cluster has been free (R169). -/
def noteFree (s : State) : State :=
  let cl := s.pwr.clusters.map (fun p =>
    if p.2.st = .active ∨ p.2.st = .clockGated then
      if (List.range 8).any (fun k => tileBusy s (8 * p.1 + k)) then (p.1, { p.2 with freeSince := none })
      else (p.1, { p.2 with freeSince := some (p.2.freeSince.getD (now s)) })
    else p)
  { s with pwr := { s.pwr with clusters := cl } }

/-! ## Warm clusters (R169) -/

/-- Tiles that hold a STANDING reservation. -/
def standingTiles (s : State) : List Nat := s.plans.plans.flatMap (fun p => p.2.tiles)
/-- Tiles of a cluster eligible for a class: for LC0 a tile with a STANDING reservation, else any tile of a pool. -/
def classTiles (s : State) (lc c : Nat) : List Nat :=
  ((List.range 8).map (8 * c + ·)).filter (fun t => ! tileAbsent s t && (lc != 0 || (standingTiles s).contains t))
/-- Clusters kept warm for a class among `cs`, in ascending order: the lowest that holds an eligible tile, and the next one while
every eligible tile of those before is busy. -/
def warmFor (s : State) (lc : Nat) : List Nat → List Nat
  | [] => []
  | c :: cs =>
    let ts := classTiles s lc c
    if ts.isEmpty then warmFor s lc cs
    else if ts.all (tileBusy s) then c :: warmFor s lc cs
    else [c]
/-- Clusters warm for the enabled classes. -/
def warmClusters (s : State) : List Nat :=
  ((List.range 4).filter (fun k => bitOf (rfld s Reg.SCHED_WARM 0 3 0) k)).flatMap (fun k => warmFor s k (List.range 16))
/-- Does a cluster hold a STANDING reservation? -/
def holdsStanding (s : State) (c : Nat) : Bool := (standingTiles s).any (fun t => t / 8 == c)
/-- Is a cluster only clock-gated when its tiles are free? -/
def keptWarm (s : State) (c : Nat) : Bool := holdsStanding s c || (warmClusters s).contains c
/-- Wake warm clusters that are power-gated, in the modes that accept work. -/
def warmWake (s : State) : State :=
  if acceptsWork s then (warmClusters s).foldl wakeCluster s else s
/-- The scheduler's selection after any change of entries or tiles. -/
def schedule (s : State) : State := warmWake (noteFree (noteBusy (scheduleN (2 * s.sched.entries.length + 2) s)))
/-- Busy fraction of a tile over the last `w` ns, in units of 1/65,536 (R171). -/
def busyFrac (s : State) (m w : Nat) : Nat :=
  let t := now s
  let lo := t - w
  let b := tgetD s.sched.busy m (none, [])
  let open_ := match b.1 with
    | some a => t - max a lo
    | none => 0
  let sum := b.2.foldl (fun n iv => n + (iv.2 - max iv.1 lo)) open_
  min 0xFFFF (sum * 65536 / w)

/-! ## Flows (R164 to R166) -/

/-- Index of a function's flow. -/
def findFlow (s : State) (fn key : Nat) : Option Nat :=
  (s.sched.flows.find? (fun p => p.2.fn == fn && p.2.key == key)).map (·.1)
/-- The earliest own deadline among the head of a flow and its other items, items marked by an ABORT left out (R164). -/
def flowDeadline (s : State) (fl : Flow) : Nat :=
  fl.items.foldl (fun m id => match getItem s id with
    | some it => if it.abortBy.isEmpty ∨ fl.items.head? = some id then min m it.deadline else m
    | none => m) (2 ^ 64 - 1)
/-- Effective deadline of an item (R160, R164). -/
def effDeadline (s : State) (id : Nat) : Nat :=
  match getItem s id with
  | none => 0
  | some it =>
    match it.flowKey.bind (findFlow s it.fn) with
    | none => it.deadline
    | some f =>
      let fl := tgetD s.sched.flows f ⟨0, 0, []⟩
      if fl.items.head? = some id then flowDeadline s fl else it.deadline
/-- Is an item without a flow, or the head of its flow (R164)? -/
def headOfFlow (s : State) (id : Nat) (it : Item) : Bool :=
  match it.flowKey.bind (findFlow s it.fn) with
  | none => true
  | some f => (tgetD s.sched.flows f ⟨0, 0, []⟩).items.head? == some id
/-- Recompute the effective deadline of the head of flow `f`: the earliest own deadline among the head and every BLOCKED
item, items marked by an ABORT left out. -/
def recalcFlow (s : State) (f : Nat) : State :=
  match tget s.sched.flows f with
  | none => s
  | some fl =>
    match fl.items with
    | [] => s
    | h :: _ =>
      let eff := flowDeadline s fl
      { s with sched := { s.sched with
          entries := s.sched.entries.map (fun p => if p.2.item == h then (p.1, { p.2 with eff := eff }) else p) } }

/-! ## Insertion (R157, R168) -/

def standingCount (s : State) : Nat := (s.sched.entries.filter (fun p => p.2.kind == 1)).length
/-- May an entry of this kind be taken (R168)? -/
def entryFree (s : State) (kind : Nat) : Bool :=
  if kind == 1 then s.sched.entries.length < 16384
  else s.sched.entries.length - standingCount s + max (rfld s Reg.SCHED_RSV 0 14 0) (standingCount s) < 16384
/-- Entries free for any kind of thread. -/
def sharedFree (s : State) : Nat :=
  16384 - (s.sched.entries.length - standingCount s + max (rfld s Reg.SCHED_RSV 0 14 0) (standingCount s))
/-- May a thread that has not waited take an entry? Those that wait come first (R168). -/
def entryOpen (s : State) (kind : Nat) : Bool :=
  if kind == 1 then s.sched.entries.length + min s.sched.waiters.length (sharedFree s) < 16384
  else s.sched.waiters.length < sharedFree s
/-- Own deadline of a host item (R157). -/
def ownDeadline (s : State) (explicit lc : Nat) : Nat :=
  if explicit != 0 then explicit else now s + 1000 * rfld s (Reg.SCHED_LC_BUDGET0 + 8 * lc) 0 31 0
/-- Make a thread's entry: its item's ARRIVAL, the next ARRSEQ, and READY or BLOCKED by its flow. The item already stands in its
flow. -/
def insertEntry (s : State) (kind id : Nat) (it : Item) (task : Option Nat) (flow : Option Nat) (elig : Option (List Nat)) : State :=
  match tfree s.sched.entries 16384 with
  | none => s
  | some i =>
    let head := match flow with
      | none => true
      | some f => match tget s.sched.flows f with
        | some fl => fl.items.head? == some id
        | none => true
    let e : Entry :=
      { st := if head then .ready else .blocked, kind := kind, lc := it.lc, fn := it.fn, item := id, task := task,
        flow := flow, deadline := it.deadline, eff := it.deadline, arrseq := s.sched.arrseq, arrival := it.arrival,
        elig := elig, since := now s }
    let s := setEntry s i e
    let s := { s with sched := { s.sched with arrseq := (s.sched.arrseq + 1) % 2 ^ 64 } }
    let s := modItem s id (fun it => { it with entry := it.entry <|> some i })
    match flow with
    | some f => recalcFlow s f
    | none => s
/-- Join a flow, or take a flow-table entry for it; none when the table is full (R166). -/
def joinFlow (s : State) (fn key id : Nat) : Option (Nat × State) :=
  match findFlow s fn key with
  | some f => some (f, { s with sched := { s.sched with flows := tupd s.sched.flows f (fun fl => { fl with items := fl.items ++ [id] }) } })
  | none =>
    match tfree s.sched.flows 65536 with
    | some f => some (f, { s with sched := { s.sched with flows := tset s.sched.flows f ⟨fn, key, [id]⟩ } })
    | none => none

/-! ## Ends of threads -/

/-- End every thread of an item: its entries become FREE. -/
def endEntries (s : State) (id : Nat) : State :=
  { s with sched := { s.sched with entries := s.sched.entries.filter (fun p => p.2.item != id) } }
/-- End one entry. -/
def endEntry (s : State) (i : Nat) : State := { s with sched := { s.sched with entries := terase s.sched.entries i } }
/-- A thread hands its work to an engine: WAITING, its tile freed (R155). -/
def entryWait (s : State) (i : Nat) : State := modEntry s i (fun e => { e with st := .waiting, tile := none, placed := false })
/-- The engine of a WAITING thread finishes: READY as a CONTINUATION (Table 8-2). -/
def entryResume (s : State) (i : Nat) : State :=
  modEntry s i (fun e => if e.st = .waiting then { e with st := .ready, kind := 3, since := now s } else e)
/-- Take an item out of its flow; the next item becomes head and READY (R165). -/
def leaveFlow (s : State) (fn : Nat) (key : Option Nat) (id : Nat) : State :=
  match key with
  | none => s
  | some k =>
    match findFlow s fn k with
    | none => s
    | some f =>
      let items := ((tgetD s.sched.flows f ⟨fn, k, []⟩).items).filter (· != id)
      match items with
      | [] => { s with sched := { s.sched with flows := terase s.sched.flows f } }
      | h :: _ =>
        let entries := s.sched.entries.map (fun p =>
          if p.2.item == h && p.2.st == .blocked then (p.1, { p.2 with st := .ready, since := now s }) else p)
        recalcFlow { s with sched := { s.sched with flows := tset s.sched.flows f ⟨fn, k, items⟩, entries := entries } } f
/-- Is the item's thread RUNNING on a tile, or has it no entry (a duplicate, a controller's item)? -/
def itemOnTile (s : State) (it : Item) : Bool :=
  match it.entry with
  | none => true
  | some i => match tget s.sched.entries i with
    | some e => e.st == .running
    | none => true

/-! ## The snapshot window (R172) -/

def estCode : EState → Nat
  | .blocked => 1
  | .ready => 2
  | .running => 3
  | .suspended => 4
  | .waiting => 5
/-- SCHED_WIN_DATA0 to 4 for an entry (Table 8-14). -/
def entrySnap (s : State) (e : Entry) : List Nat :=
  let it := getItem s e.item
  let ingest := match it with
    | some x => x.msg.isSome
    | none => false
  let q := if ingest then 0 else (it.map (·.queue)).getD 0
  let tag := if ingest then 0 else (it.map (·.tag)).getD 0
  let tile := if e.st = .running ∨ e.st = .suspended then e.tile.getD 0xFF else 0xFF
  [estCode e.st * 2 ^ 61 + e.kind * 2 ^ 58 + e.lc * 2 ^ 56 + e.fn * 2 ^ 48 + tile * 2 ^ 40
    + (if e.st = .suspended then e.save.getD 0 else 0) * 2 ^ 37 + b2n e.flow.isSome * 2 ^ 36 + e.flow.getD 0,
   e.deadline, e.eff, e.arrseq, q * 2 ^ 52 + tag * 2 ^ 36 + b2n ingest * 2 ^ 35]
/-- The same for a flow entry (Table 8-15). -/
def flowSnap (s : State) (f : Flow) : List Nat :=
  let blocked := (f.items.drop 1).length
  let first := (s.sched.entries.filter (fun p => some p.2.item == f.items.head?)).foldl (fun b p => match b with
    | some q => if p.2.arrseq < q.2.arrseq then some p else some q
    | none => some p) (none : Option (Nat × Entry))
  let head := (first.map (·.1)).getD 0
  [2 ^ 63 + f.fn * 2 ^ 48 + blocked * 2 ^ 32 + head, f.key, 0, 0, 0]
/-- The snapshot a write of SCHED_WIN_SEL takes. -/
def schedSnap (s : State) (sel : Nat) : List Nat :=
  let idx := fld sel 16 0
  if bitOf sel 31 then (match tget s.sched.flows idx with
    | some f => flowSnap s f
    | none => [0, 0, 0, 0, 0])
  else match tget s.sched.entries idx with
    | some e => entrySnap s e
    | none => [if idx < 16384 then 0xFF * 2 ^ 40 else 0, 0, 0, 0, 0]

/-! ## Commands of the scheduler -/

/-- SCHED_WIN_SNAPSHOT (R172): a write of SCHED_WIN_SEL takes one snapshot for its access path. -/
def doSchedWinSnapshot (p : Path) (v : Nat) (s : State) : State :=
  let s := selPut s p Reg.SCHED_WIN_SEL v
  { s with sched := { s.sched with snaps := tset s.sched.snaps (pathNum p) (schedSnap s (selGet s p Reg.SCHED_WIN_SEL)) } }

/-- Entries placed on the tiles of a cluster start. -/
def startPlaced (s : State) (c : Nat) : State :=
  (s.sched.entries.filter (fun p => p.2.placed && (match p.2.tile with
    | some t => t / 8 == c
    | none => false))).foldl
    (fun s p => dispatch s p.1 p.2 (p.2.tile.getD 0)) s

/-- CLUSTER_WAKE_COMPLETE (R195, R160): a waking cluster's wake ends: its in-service tiles load the kernel image and start, and
placed entries start. A cluster on which nothing is placed is clock-gated. -/
def doClusterWakeComplete (c : Nat) (s : State) : State :=
  let cl := getCluster s c
  if c < 16 ∧ cl.st = .waking ∧ cl.wakeEnd ≤ now s ∧ kimgValid s then
    let s := ((clusterTiles c).filter (tileInService s)).foldl tileStart s
    let placed := s.sched.entries.any (fun p => p.2.placed && (p.2.tile.map (· / 8)) == some c)
    schedule (startPlaced (setCluster s c
      { cl with st := if placed then .active else .clockGated, wakeEnd := 0, freeSince := if placed then none else some (now s) }) c)
  else s
/-- CLUSTER_POWER_GATE (R169): a cluster whose tiles have all been free for SLEEP_US is power-gated, or only clock-gated when it is
kept warm. -/
def doClusterPowerGate (c : Nat) (s : State) : State :=
  let cl := getCluster s c
  let due : Bool := match cl.freeSince with
    | some t => decide (t + 1000 * rfld s Reg.SCHED_WARM 0 31 16 ≤ now s)
    | none => false
  if c < 16 ∧ (cl.st = .active ∨ cl.st = .clockGated) ∧ due then
    if keptWarm s c then setCluster s c { cl with st := .clockGated }
    else (clusterTiles c).foldl coreOff (setCluster s c { cl with st := .gated, freeSince := none })
  else s

/-- CLOCK_GATED_WAKE_DONE (R160): a clock-gated cluster finishes its wake and runs the placed entries. -/
def doClockGatedWakeDone (c : Nat) (s : State) : State :=
  let cl := getCluster s c
  if cl.st = .clockGated ∧ s.sched.entries.any (fun p => p.2.placed && (p.2.tile.map (· / 8)) == some c) then
    schedule (startPlaced (setCluster s c { cl with st := .active, wakeEnd := 0 }) c)
  else s

end Sys2Proof.Machine
end

