-- ==== Sys2Proof/Machine/Items.lean ====
section
/-! DEFINITION. Items and their completions (spec/14_host_queues.md, R291, R296 to R311): rings, overflow, freezes,
idempotence keys, and the end of an item. -/

namespace Sys2Proof.Machine
open Sys2Proof

/-! ## Completion rings -/

/-- The queue whose completion ring receives a queue's completions (QM_Q_CFG.CQ_OF is a local number of the holder). -/
def ringOf (s : State) (q : Nat) : Nat :=
  (queueRange s (queueHolder s q)).1 + rfld s Reg.QM_Q_CFG q 63 52
def cqSize (s : State) (r : Nat) : Nat := 2 ^ rfld s Reg.QM_Q_CFG r 12 8
def sqSize (s : State) (q : Nat) : Nat := 2 ^ rfld s Reg.QM_Q_CFG q 4 0
def sqBase (s : State) (q : Nat) : Nat := rfld s Reg.QM_SQ_BASE q 63 12 * 4096
def cqBase (s : State) (r : Nat) : Nat := rfld s Reg.QM_CQ_BASE r 63 12 * 4096
/-- The ring is full when its tail lies one slot behind HEAD (R298). -/
def ringFull (s : State) (r : Nat) : Bool := ((getQ s r).cqTail + 1) % cqSize s r == (getQ s r).cqHead
/-- Overflow entries in use device-wide (R301). -/
def ovfUsed (s : State) : Nat := (s.qm.queues.map (fun p => p.2.overflow.length)).foldl (· + ·) 0
/-- Can ring `r` take one more completion, in its slots or in overflow (R303)? -/
def ringRoom (s : State) (r : Nat) : Bool :=
  ((getQ s r).overflow.isEmpty && ! ringFull s r) || ((getQ s r).overflow.length < 1024 && ovfUsed s < 65536)
/-- Can the completion of an item of queue `q` be posted? -/
def canPost (s : State) (q : Nat) : Bool := ringRoom s (ringOf s q)

/-- Signal the message of ring `r` (R310). -/
def signalRing (s : State) (r : Nat) : State :=
  let s := modQ s r (fun q => { q with unsig := 0 })
  sendMsix s (queueHolder s r) (rfld s Reg.QM_Q_CFG r 31 21)
/-- Count an interrupt-raising entry written into ring `r`, and signal at COAL_N. -/
def countIrq (s : State) (r : Nat) : State :=
  let q := getQ s r
  let s := setQ s r { q with unsig := q.unsig + 1, unsigAt := if q.unsig = 0 then now s else q.unsigAt }
  let n := rfld s Reg.QM_Q_CFG r 51 44
  if n = 0 ∨ q.unsig + 1 ≥ n ∨ rfld s Reg.QM_Q_CFG r 43 32 = 0 then signalRing s r else s
/-- Write one entry at the ring's tail. -/
def ringPut (s : State) (r : Nat) (e : CqEntry) : State :=
  let q := getQ s r
  let s := hostWrite s (cqBase s r + 32 * q.cqTail) (natLE 8 e.w0 ++ natLE 8 e.w1 ++ natLE 8 e.w2 ++ natLE 8 e.w3)
  let s := setQ s r { q with cqTail := (q.cqTail + 1) % cqSize s r }
  if e.irq then countIrq s r else s
/-- Place a completion: in the ring, or behind the overflow entries (R298, R301); the start of overflow is an event. -/
def placeEntry (s : State) (r : Nat) (e : CqEntry) : State :=
  let q := getQ s r
  if q.overflow.isEmpty && ! ringFull s r then ringPut s r e
  else
    let s := setQ s r { q with overflow := q.overflow ++ [e] }
    if q.overflow.isEmpty then fnEvent s (queueHolder s r) else s
/-- Move overflow entries into freed slots in their order of entry (R302). -/
def moveOverflow : Nat → State → Nat → State
  | 0, s, _ => s
  | n + 1, s, r =>
    match (getQ s r).overflow with
    | [] => s
    | e :: rest =>
      if ringFull s r then s
      else moveOverflow n (ringPut (modQ s r (fun q => { q with overflow := rest })) r e) r

/-! ## Statuses, freezes -/

/-- Does a status freeze its item's queue (R307)? -/
def freezes (status : Nat) (dup : Bool) : Bool :=
  status != 0 && status != St.aborted && status != St.abortTooLate && status != St.queueFlushed && ! dup
/-- Freeze a queue for a failing item (R307): error log entry, QM_Q_ERR, FROZEN, the function's event. -/
def freezeQueue (s : State) (it : Item) : State :=
  let seq := (errLogOf s it.fn).nextSeq
  let s := errLogWrite s it.fn it false
  let s := modQ s it.queue (fun q =>
    { q with
        errTag := it.tag, errStatus := it.status, errSeq := seq, parityFrozen := false,
        freezes := if q.st = .active then satAdd 16 q.freezes 1 else q.freezes,
        st := if q.st = .active then .frozen else q.st })
  fnEvent s it.fn

/-- The completion entry of an item (Table 14-7). -/
def cqEntryOf (s : State) (it : Item) (errSeq : Nat) : CqEntry :=
  { w0 := 2 ^ 63 + b2n it.isDup * 2 ^ 61 + it.localQ % 4096 * 2 ^ 48 + it.tag * 2 ^ 32 + it.status * 2 ^ 16
      + it.subcode * 2 ^ 8 + it.opcode,
    w1 := it.r0 % 2 ^ 64, w2 := it.r1 % 2 ^ 64, w3 := (getQ s it.queue).head * 2 ^ 48 + errSeq, irq := ! it.noIrq }

/-! ## Idempotence entries at completion (R304) -/

/-- Store the answer of a completed keyed item. -/
def ikeyDone (s : State) (id : Nat) (it : Item) (errSeq : Nat) : State :=
  { s with qm := { s.qm with ikeys := s.qm.ikeys.map (fun k =>
      if k.item = some id then
        { k with item := none, status := it.status, r0 := it.r0, r1 := it.r1, errSeq := errSeq, doneAt := now s }
      else k) } }

/-- An item whose commit point came at DEVTIME `reached` after its own deadline is a miss, counted, and logged for LC0 (R159). -/
def deadlineCheck (s : State) (it : Item) (reached : Nat) : State :=
  if reached > it.deadline then
    let s := { s with sched := { s.sched with misses := tset s.sched.misses it.lc (satAdd 32 (tgetD s.sched.misses it.lc 0) 1) } }
    if it.lc = 0 then logEvent s Ev.lc0Miss it.fn (it.flowKey.getD 0) it.deadline reached else s
  else s

/-! ## The end of an item -/

/-- Every earlier-consumed item of the queue has posted its completion (R300); items are numbered in consumption order. -/
def orderedMay (s : State) (id : Nat) (it : Item) : Bool :=
  ! it.ordered || ! s.qm.items.any (fun p => p.1 < id && p.2.queue == it.queue && p.2.msg.isNone)
/-- Is there a place for an item's completion? A STANDING item posts none. -/
def hasPlace (s : State) (it : Item) : Bool := it.msg.isSome || canPost s it.queue
/-- The items of a flow complete in its order (R165): has every earlier one gone? -/
def flowMay (s : State) (id : Nat) (it : Item) : Bool :=
  it.flowKey.isNone || ! s.qm.items.any (fun p => p.1 < id && p.2.fn == it.fn && p.2.flowKey == it.flowKey)
/-- May an item that takes effect in one step reach its commit point now (R300, R303)? -/
def gateOpen (s : State) (id : Nat) (it : Item) : Bool := orderedMay s id it && hasPlace s it
/-- The item whose data a transfer carries. -/
def xferItem : XferFor → Option Nat
  | .move i => some i
  | .data i _ => some i
  | .zero _ => none
/-- Does the DMA engine still carry data of an item? Its completion entry comes after its writes (R297, R322). -/
def dataMoving (s : State) (id : Nat) : Bool :=
  s.dma.wait.any (fun x => xferItem x.who == some id) || s.dma.chan.any (fun c => xferItem c.2.who == some id)
/-- A transfer of `n` bytes of an item's data joins the queue of a level; `src` says that it reads host memory. The bytes themselves move
within the step of the requester (assumption 43). -/
def xferAt (s : State) (id fn level : Nat) (cmd : Option Nat) (src : Bool) (n : Nat) : State :=
  if n = 0 then s
  else { s with dma := { s.dma with wait := s.dma.wait ++
    [{ fn := fn, level := level, segs := [⟨0, 0, 0, 0, n, n, 0, 2 ^ 13 * b2n src⟩], who := .data id cmd }] } }
/-- A transfer of an item's data takes the item's latency class as its level (R320). -/
def dataXfer (s : State) (id : Nat) (cmd : Option Nat) (src : Bool) (n : Nat) : State :=
  match getItem s id with
  | none => s
  | some it => xferAt s id it.fn it.lc cmd src n
/-- Remove an item: its threads end, its flow moves on, its record goes. -/
def dropItem (s : State) (id : Nat) (it : Item) : State :=
  let s := { s with
    qm := { s.qm with items := terase s.qm.items id },
    plans := { s.plans with oneTile := terase s.plans.oneTile id, grantWait := s.plans.grantWait.filter (· != id) } }
  leaveFlow (endEntries s id) it.fn it.flowKey id
/-- RESULT0 of an ABORT holds TQUEUE and TTAG whatever ends it (Table 14-8). -/
def abortResult (it : Item) : Item :=
  if it.opcode = 0x60 ∧ it.subcode = 1 ∧ it.msg.isNone then { it with r0 := it.body 32 2 % 4096 + it.body 34 2 * 65536, r1 := 0 } else it
/-- Post the completion of a host item, or end a failed STANDING item (R186, R297). -/
def finishOne (s : State) (id : Nat) (it : Item) : State :=
  let it := abortResult it
  match it.msg with
  | some m =>
    if it.status = 0 then dropItem s id it
    else
      let s := errLogWrite s it.fn it true
      dropItem (failReply (fnEvent s it.fn) m) id it
  | none =>
    let frz := freezes it.status it.isDup
    let errSeq := if it.isDup then it.dupErr else if frz then (errLogOf s it.fn).nextSeq else 0xFFFFFFFF
    let s := if frz then freezeQueue s it else s
    let s := placeEntry s (ringOf s it.queue) (cqEntryOf s it errSeq)
    dropItem (ikeyDone s id it errSeq) id it
/-- Items that become ready when item `id` has completed: its attached duplicates, which complete with it, and the ABORT items
that named it, whose threads resume (R304, R309). -/
def wakeFollowers (s : State) (id : Nat) (it : Item) (errSeq : Nat) : State × List Nat :=
  let dups := (s.qm.items.filter (fun p => p.2.dupOf == some id)).map (·.1)
  let s := dups.foldl (fun s d => modItem s d (fun x =>
    { x with dupOf := none, isDup := true, dupErr := errSeq, status := it.status, r0 := it.r0, r1 := it.r1, phase := .ready })) s
  let s := it.abortBy.foldl (fun s a => match getItem s a with
    | some x =>
      if x.phase = .running then (x.entry.map (entryResume (setItem s a { x with phase := .ready }))).getD s else s
    | none => s) s
  (s, dups)
/-- The new head of a flow, when an ABORT marked it while it was BLOCKED: it completes with ABORTED without running (R309). -/
def abortedHead (s : State) (fn : Nat) (key : Option Nat) : State × List Nat :=
  match key.bind (findFlow s fn) with
  | none => (s, [])
  | some f =>
    match (tgetD s.sched.flows f ⟨0, 0, []⟩).items with
    | [] => (s, [])
    | h :: _ =>
      match getItem s h with
      | some x =>
        if x.abortBy.isEmpty || x.phase != .queued then (s, [])
        else (setItem s h { x with status := St.aborted, r0 := 0, r1 := 0, phase := .ready }, [h])
      | none => (s, [])
/-- Complete items of a work list, each posting when its order and its ring allow, and its followers after it. An item
that may not post yet stays ready. -/
def completeList : Nat → State → List Nat → State
  | 0, s, _ => s
  | _, s, [] => s
  | n + 1, s, id :: rest =>
    match getItem s id with
    | none => completeList n s rest
    | some it =>
      if (it.phase == .ready || it.phase == .committed) && orderedMay s id it && flowMay s id it && hasPlace s it && ! dataMoving s id then
        let errSeq := if freezes it.status it.isDup then (errLogOf s it.fn).nextSeq else 0xFFFFFFFF
        let s := finishOne s id it
        let (s, more) := wakeFollowers s id it errSeq
        let (s, marked) := abortedHead s it.fn it.flowKey
        completeList n s (more ++ marked ++ rest)
      else completeList n s rest
/-- Complete one item and what follows from it; the scheduler then selects. -/
def complete (s : State) (id : Nat) : State := schedule (completeList (s.qm.items.length + 1) s [id])
/-- Does an item's thread wait for its engine? -/
def threadWaits (s : State) (it : Item) : Bool :=
  match it.entry.bind (fun e => tget s.sched.entries e) with
  | some e => e.st == .waiting
  | none => false
/-- Must a CONTINUATION of the item still run? -/
def continues (s : State) (it : Item) : Bool :=
  match it.entry.bind (fun e => tget s.sched.entries e) with
  | some e => e.kind == 3 && e.st != .running
  | none => false
/-- The end of an item is decided: a thread that waited for it becomes READY as a CONTINUATION and ends it later (R155); else it ends now. -/
def closeItem (s : State) (id : Nat) : State :=
  match getItem s id with
  | none => s
  | some it => if threadWaits s it then schedule ((it.entry.map (entryResume s)).getD s) else complete s id
/-- An item fails or is refused before its commit point: its effects are discarded and its completion is posted when it
may be (R78, R307). -/
def failItem (s : State) (id st r0 r1 : Nat) : State :=
  let s := modItem s id (fun it => { it with status := st, r0 := r0, r1 := r1, phase := .ready, effects := [] })
  complete s id
/-- An item's effect on the device is made at this instant, its commit point, and its completion is posted when it may be. -/
def commitNow (s : State) (id r0 r1 : Nat) : State :=
  match getItem s id with
  | none => s
  | some it =>
    let s := modItem (deadlineCheck s it (now s)) id (fun it => { it with r0 := r0, r1 := r1, phase := .committed })
    closeItem (leaveFlow s it.fn it.flowKey id) id
/-- An item's thread is done and its result known; its commit point is ahead. -/
def itemReady (s : State) (id r0 r1 : Nat) : State :=
  modItem s id (fun it => { it with r0 := r0, r1 := r1, phase := .ready })
/-- The item's thread hands its work to an engine (R155). -/
def toEngine (s : State) (id : Nat) : State :=
  match getItem s id with
  | none => s
  | some it =>
    let s := modItem s id (fun it => { it with phase := .running })
    match it.entry with
    | some e => schedule (entryWait s e)
    | none => s
/-- An engine finishes an item: its continuation becomes READY, its commit point is ahead (R155). -/
def engineDone (s : State) (id r0 r1 : Nat) : State :=
  match getItem s id with
  | none => s
  | some it =>
    let s := itemReady s id r0 r1
    match it.entry with
    | some e => schedule (entryResume s e)
    | none => s
/-- An engine fails an item: its effects are discarded, and its continuation ends it. -/
def engineFail (s : State) (id st r0 r1 : Nat) : State :=
  closeItem (modItem s id (fun it => { it with status := st, r0 := r0, r1 := r1, phase := .ready, effects := [] })) id

/-- The item that a command names, when its thread runs, it has not been handed on, and it is of this opcode. -/
def itemAt (s : State) (id op sub : Nat) : Option Item :=
  match getItem s id with
  | some it => if it.phase = .queued ∧ it.opcode = op ∧ it.subcode = sub ∧ it.dupOf = none ∧ it.msg = none ∧ it.abortBy = []
      ∧ it.entry.isSome ∧ itemOnTile s it then some it else none
  | none => none

end Sys2Proof.Machine
end

