-- ==== Sys2Proof/Machine/Cam.lean ====
section
/-! DEFINITION. The routing CAM (spec/19_routing_cam.md, R404 to R417). -/

namespace Sys2Proof.Machine
open Sys2Proof

/-! ## Entries and matching (R404, R405, R409) -/

/-- Number of 18 bytes in two PACK9 halves. -/
def key144 (bs : List Byte) : Nat := leAt bs 0 9 + leAt bs 9 9 * 2 ^ 72
def camEntry (s : State) (i : Nat) : List Byte := mreads s.cam.mem (64 * i) 64
def camValid (s : State) (i : Nat) : Bool := bitOf (leAt (camEntry s i) 44 1) 0 && ! s.cam.reload.contains i && ! s.cam.dead.contains i
/-- Does entry `i` match key `k`? -/
def camMatches (s : State) (k i : Nat) : Bool :=
  let e := camEntry s i
  camValid s i && ((k ^^^ key144 e) &&& key144 (e.drop 18)) == 0
def camPrio (s : State) (i : Nat) : Nat := leAt (camEntry s i) 36 2
/-- Entries that hold any byte, in ascending order: an entry of zeros is not VALID. -/
def camUsed (s : State) : List Nat := s.cam.mem.foldl (fun acc c => if acc.contains (c.1 / 64) then acc else acc ++ [c.1 / 64]) []
/-- The search of a function for a key (R409). -/
def camFind (s : State) (fn k : Nat) : Option CamHit :=
  let ms := (camUsed s).filter (fun i => holder s.fns.camFn (i / 8192) == fn && ! leavingUnit s 5 (i / 8192) && camMatches s k i)
  let best := ms.foldl (fun m i => max m (camPrio s i)) 0
  match ms.filter (fun i => camPrio s i == best) with
  | [] => none
  | i :: r => some ⟨i, leAt (camEntry s i) 40 4, best, min 65535 (r.length + 1)⟩
/-- Count searches made (Table 19-5). -/
def camCount (s : State) (n multi : Nat) : State :=
  let t := s.cam.searchRem + n
  let s := { s with cam := { s.cam with searchRem := t % 65536 } }
  cntAdd (cntAdd s Reg.CAM_CNT 0 63 32 (t / 65536)) Reg.CAM_CNT 0 31 16 multi
/-- The waiting search served next: the lowest class first, in arrival order within a class (R411). -/
def camPick (qs : List CamReq) : Option CamReq := qs.find? (fun q => qs.all (fun r => decide (q.lc ≤ r.lc)))
/-- Count one search by what it found. -/
def camCountHit (s : State) (h : Option CamHit) : State :=
  camCount s 1 (match h with
    | some x => b2n (decide (x.count > 1))
    | none => 0)
/-- A waiting search is served: it leaves the queue, is counted, and its answer is shown. -/
def camServe (s : State) (q : CamReq) : State :=
  let h := camFind s q.fn q.key
  let s := camCountHit { s with cam := { s.cam with waiting := s.cam.waiting.erase q } } h
  { s with out := { s.out with searches := s.out.searches ++ [(q, h)] } }
/-- The next search is served, when one waits. -/
def camNext (s : State) : State :=
  match camPick s.cam.waiting with
  | some q => camServe s q
  | none => s
/-- Waiting searches of a class up to `lc` go before one of class `lc` that arrives now. -/
def camBefore (lc : Nat) (s : State) : State :=
  (List.range s.cam.waiting.length).foldl (fun s _ => match camPick s.cam.waiting with
    | some q => if q.lc ≤ lc then camServe s q else s
    | none => s) s
/-- One search of a clause or of ingest, of a class, with its counting. -/
def camSearch (s : State) (lc fn k : Nat) : State × Option CamHit :=
  let h := camFind s fn k
  (camCountHit (camBefore lc s) h, h)
/-- CAM_LOOKUP (R409 to R412): a search of a class reaches the CAM's stop; when the search step lets the CAM take one now (`take`), the next
waiting search is served. -/
def doCamLookup (fn key lc : Nat) (take : Bool) (s : State) : State :=
  let s := { s with cam := { s.cam with waiting := s.cam.waiting ++ [⟨fn, key, lc⟩] } }
  if take then camNext s else s

/-! ## Changing an entry (R407, R408, R416) -/

/-- Store bytes of the entry window, in the CAM and in Frame's copy. -/
def camStore (s : State) (off : Nat) (bs : List Byte) : State :=
  { s with cam := { s.cam with mem := mwrite s.cam.mem off bs, copy := mwrite s.cam.copy off bs } }
/-- A WRITE record: invalidate, write the fields, and validate when the record's VALID is 1. -/
def camWrite (s : State) (i : Nat) (rec : List Byte) : State :=
  let s := camStore s (64 * i + 44) [0#8]
  let s := camStore s (64 * i) (sub rec 0 44)
  if bitOf (leAt rec 44 1) 0 then camStore s (64 * i + 44) [1#8] else s
/-- Is an entry's block waiting for its spare load? -/
def camLoading (s : State) (i : Nat) : Bool := s.cam.load == some (i / 8192)
/-- Have a change wait for the end of the spare load. -/
def camHold (s : State) (w : CamWait) : State := { s with cam := { s.cam with updates := s.cam.updates ++ [w] } }
/-- Apply a CAM_UPDATE record. -/
def camRecord (s : State) (i op : Nat) (rec : List Byte) : State :=
  if op = 1 then camWrite s i rec else camStore s (64 * i + 44) [0#8]
/-- Release a CAM_UPDATE record (R414); it waits while its block is loaded. -/
def camApply (s : State) (i op : Nat) (rec : List Byte) : State :=
  if camLoading s i then camHold s (.record i op rec) else camRecord s i op rec
/-- Is VALID of an entry 1 as stored? -/
def camStoredValid (s : State) (i : Nat) : Bool := bitOf (leAt (camEntry s i) 44 1) 0
/-- A window write lands: on bytes 0 to 43 of a VALID entry it is discarded and counted (R408). -/
def camLand (s : State) (off : Nat) (bytes : List Byte) : State :=
  if camStoredValid s (off / 64) ∧ off % 64 < 44 then cntAdd s Reg.CAM_CNT 0 15 0 1 else camStore s off bytes
/-- A change that waited takes effect. -/
def camResume (s : State) : CamWait → State
  | .write off bs => camLand s off bs
  | .record i op bs => camRecord s i op bs
/-- CAM_WINDOW_WRITE (R406, R408): a write through the entry window by an initiator with a function tag. -/
def doCamWindowWrite (init fn addr : Nat) (bytes : List Byte) (s : State) : State :=
  let off := addr - 0xFA00000000
  let i := off / 64
  if addr < 0xFA00000000 ∨ i ≥ 131072 ∨ (init ≠ 0x94 ∧ (init > 0x93 ∨ holder s.fns.camFn (i / 8192) ≠ fn)) then deny s init fn addr 0
  else if camLoading s i then camHold s (.write off bytes)
  else camLand s off bytes

/-! ## Host items (R413 to R415) -/

/-- Read `n` bytes a body names, from host memory or from DRAM. -/
def itemRead (s : State) (host : Bool) (a n : Nat) : List Byte := if host then mreads s.host a n else mreads s.dram a n
/-- An effect that writes bytes to host memory or DRAM. -/
def writeEff (host : Bool) (a : Nat) (bs : List Byte) : Effect := if host then .host a bs else .dram a bs
/-- Add effects to an item. -/
def addEffects (s : State) (id : Nat) (es : List Effect) : State := modItem s id (fun it => { it with effects := it.effects ++ es })
/-- The first record of a CAM_UPDATE that fails, with its status. -/
def camRecFail (s : State) (fn : Nat) : List (List Byte) → Nat → Option (Nat × Nat)
  | [], _ => none
  | r :: rs, n =>
    let idx := leAt r 48 4
    if leAt r 45 1 = 0 ∨ leAt r 45 1 > 2 ∨ leAt r 44 1 > 1 ∨ idx > 131071 then some (St.invalidField, n)
    else if holder s.fns.camFn (idx / 8192) ≠ fn then some (St.accessDenied, n)
    else camRecFail s fn rs (n + 1)
/-- CAM_UPDATE (R414): every record is read and checked; they apply at the commit point. -/
def doCamUpdate (id : Nat) (s : State) : State :=
  match itemAt s id 0x30 0 with
  | none => s
  | some it =>
    let a := it.body 32 8
    let n := it.body 48 4
    let host := bitOf (it.body 56 1) 0
    if a % 64 ≠ 0 then failItem s id St.alignment 0 0
    else if it.body 56 1 > 1 then failItem s id St.invalidField 0 0
    else if ¬ host ∧ ¬ winIt s it a (64 * n) then failItem s id St.addressRange 0 0
    else if ¬ host ∧ poisonedIn s a (64 * n) then failItem s id St.dataPoisoned 0 0
    else
      let recs := chunks 64 n (itemRead s host a (64 * n))
      let s := itemTouch s it.fn host a (64 * n)
      match camRecFail s it.fn recs 0 with
      | some (st, k) => failItem s id st k 0
      | none => itemReady (addEffects s id (recs.map (fun r => .cam (leAt r 48 4) (leAt r 45 1) r))) id n 0
/-- Result record of a search (Table 19-4). -/
def camResult (h : Option CamHit) : List Byte :=
  match h with
  | some x => natLE 4 x.result ++ natLE 4 x.index ++ natLE 2 x.prio ++ natLE 1 (1 + 2 * b2n (decide (x.count > 1))) ++ natLE 1 0
      ++ natLE 2 x.count ++ natLE 2 0
  | none => natLE 4 0 ++ natLE 4 0xFFFFFFFF ++ natLE 8 0
/-- CAM_SEARCH (R415). -/
def doCamSearch (id : Nat) (s : State) : State :=
  match itemAt s id 0x31 0 with
  | none => s
  | some it =>
    let ka := it.body 32 8
    let oa := it.body 40 8
    let n := it.body 48 4
    let len := it.body 52 4
    let kh := bitOf (it.body 56 1) 0
    let oh := bitOf (it.body 56 1) 1
    if ka % 64 ≠ 0 ∨ oa % 64 ≠ 0 then failItem s id St.alignment 0 0
    else if len = 0xFFFFFFFF then failItem s id St.lengthInvalid 0 0
    else if len < 16 * n then failItem s id St.bufferTooSmall 0 0
    else if (¬ kh ∧ ¬ winIt s it ka (32 * n)) ∨ (¬ oh ∧ ¬ winIt s it oa (16 * n)) then failItem s id St.addressRange 0 0
    else if ¬ kh ∧ poisonedIn s ka (32 * n) then failItem s id St.dataPoisoned 0 0
    else
      let hits := (chunks 32 n (itemRead s kh ka (32 * n))).map (fun r => camFind s it.fn (key144 r))
      let multi := (hits.filter (fun h => match h with
        | some x => decide (x.count > 1)
        | none => false)).length
      let s := camCount (camBefore it.lc (itemTouch s it.fn kh ka (32 * n))) n multi
      let s := if n = 0 then s else addEffects s id [writeEff oh oa (hits.flatMap camResult)]
      itemReady s id (hits.filter (·.isSome)).length multi

/-! ## Errors and the spare block (R416) -/

/-- CAM_STAT.LOADING follows the reloads and the spare load. -/
def camStat (s : State) : State := regSetFld s Reg.CAM_STAT 0 16 16 (b2n (! s.cam.reload.isEmpty || s.cam.load.isSome))
/-- CAM_SCRUB: the parity check of an entry, by a window read or the scrubber, and what it showed: 0 a clean check, 1 a first
error, 2 a repeated error. A first error makes the entry absent until its reload; a clean re-check makes it transient. -/
def doCamScrub (i err : Nat) (s : State) : State :=
  let inReload := s.cam.reload.contains i
  let out := { s with cam := { s.cam with reload := s.cam.reload.filter (· != i) } }
  if i ≥ 131072 then s
  else if err = 0 then
    if inReload then
      rasCount (camStat (cntAdd { out with cam := { out.cam with
        mem := mwrite s.cam.mem (64 * i) (mreads s.cam.copy (64 * i) 64) } } Reg.CAM_ERR_CNT 0 31 16 1)) 5 false
    else s
  else if err = 1 then
    if inReload then s else camStat { s with cam := { s.cam with reload := s.cam.reload ++ [i] } }
  else
    let s := rasCount (cntAdd out Reg.CAM_ERR_CNT 0 15 0 1) 5 true
    if rfld s Reg.CAM_STAT 0 17 17 = 0 ∧ (s.cam.load = none ∨ s.cam.load = some (i / 8192)) then
      camStat { s with cam := { s.cam with reload := s.cam.reload ++ [i], load := some (i / 8192) } }
    else
      let s := { s with cam := { s.cam with dead := if s.cam.dead.contains i then s.cam.dead else s.cam.dead ++ [i] } }
      logEvent (camStat (regSetFld s Reg.CAM_STAT 0 15 15 1)) Ev.camDegraded 0xFF (i / 8192) i 0
/-- CAM_SPARE_LOAD_DONE (R416): the spare takes the failing block's number at one instant. -/
def doCamSpareLoadDone (s : State) : State :=
  match s.cam.load with
  | none => s
  | some b =>
    let s := { s with cam := { s.cam with
      load := none, reload := s.cam.reload.filter (fun i => i / 8192 != b),
      mem := mcopy s.cam.mem s.cam.copy (b * 524288) (b * 524288) 524288 } }
    let s := regSetFld (regSetFld s Reg.CAM_STAT 0 17 17 1) Reg.CAM_STAT 0 4 0 b
    let held := s.cam.updates
    held.foldl camResume (logEvent (camStat { s with cam := { s.cam with updates := [] } }) Ev.spareIn 0xFF 3 b 16)

end Sys2Proof.Machine
end

