-- ==== Sys2Proof/Machine/Dma.lean ====
section
/-! DEFINITION. The DMA engine and MOVE (spec/15_dma_and_functions.md, R314 to R325). A transfer's data moves when its segment's
count ends (assumption 7). -/

namespace Sys2Proof.Machine
open Sys2Proof

/-! ## Segments (Tables 15-1 to 15-3) -/

def Seg.xform (g : Seg) : Nat := fld g.ctl 3 0
def Seg.ncols (g : Seg) : Nat := fld g.ctl 7 4 + 1
def Seg.ew (g : Seg) : Nat := ([1, 2, 4, 8, 9, 16][fld g.ctl 10 8]?).getD 0
def Seg.srcHost (g : Seg) : Bool := bitOf g.ctl 13
def Seg.dstHost (g : Seg) : Bool := bitOf g.ctl 14
/-- Element bytes of COPY and the swaps. -/
def swapBytes (x : Nat) : Nat := if x = 0 then 1 else 2 ^ x
/-- Bytes read at SRC and at AUX, written at DST and at AUX (Table 15-3). -/
def Seg.sizes (g : Seg) : Nat × Nat × Nat × Nat :=
  let c := g.count
  match g.xform with
  | 0x4 => (9 * c, 0, 8 * c, c)
  | 0x5 => (16 * c, 0, 8 * c, c)
  | 0x6 => (8 * c, c, 9 * c, 0)
  | 0x7 => (8 * c, c, 16 * c, 0)
  | 0x8 => (g.ncols * g.ew * c, 0, if c = 0 then 0 else (g.ncols - 1) * g.cstride + g.ew * c, 0)
  | 0x9 => (if c = 0 then 0 else (g.ncols - 1) * g.cstride + g.ew * c, 0, g.ncols * g.ew * c, 0)
  | _ => (c, 0, c, 0)
/-- The segment whose 64-byte entry stands in a list. -/
def readSegEnt (bs : List Byte) : Seg :=
  ⟨leAt bs 0 8, leAt bs 8 8, leAt bs 16 8, leAt bs 24 8, leAt bs 32 4, leAt bs 36 4, leAt bs 40 4, leAt bs 44 4⟩
/-- Does internal memory allow `n` bytes at `a` for a function? -/
def intOk (s : State) (it : Item) (host : Bool) (a n : Nat) : Bool := host || winIt s it a n
/-- The checks of one segment (R318 step 3). -/
def segFail (s : State) (it : Item) (g : Seg) : Option Nat :=
  let x := g.xform
  let planes := 4 ≤ x && x ≤ 7
  let split := x == 4 || x == 5
  let cols := x == 8 || x == 9
  let (rs, ra, ws, wa) := g.sizes
  firstFail [
    (decide (x > 9) || decide (fld g.ctl 10 8 > 5) || fld g.ctl 12 11 == 3
      || (! planes && g.aux != 0) || (! cols && (g.cstride != 0 || fld g.ctl 10 4 != 0)) || (! split && g.auxLen != 0)
      || (decide (x ≤ 3) && g.count % swapBytes x != 0) || (cols && decide (g.cstride < g.ew * g.count)), St.invalidField),
    ((decide (x ≤ 3) && g.count == 0xFFFFFFFF) || g.dstLen == 0xFFFFFFFF || g.auxLen == 0xFFFFFFFF, St.lengthInvalid),
    (decide (ws > g.dstLen) || decide (wa > g.auxLen), St.bufferTooSmall),
    (! intOk s it g.srcHost g.src rs || ! intOk s it g.srcHost g.aux ra || ! intOk s it g.dstHost g.dst ws
      || ! intOk s it g.dstHost g.aux wa, St.addressRange)]
/-- The first failing segment of a list: its status and index. -/
def segsFail (s : State) (it : Item) : List Seg → Nat → Option (Nat × Nat)
  | [], _ => none
  | g :: r, i => match segFail s it g with
    | some st => some (st, i)
    | none => segsFail s it r (i + 1)

/-! ## What a segment writes (R316) -/

/-- Reverse the bytes of each element of `n` bytes. -/
def swapElems (n : Nat) (bs : List Byte) : List Byte := (chunks n (bs.length / n + 1) bs).flatMap List.reverse
/-- The writes of a segment at DST and AUX: address and bytes of each. -/
def segWrites (s : State) (g : Seg) : List (Nat × List Byte) :=
  let rd := itemRead s g.srcHost
  let c := g.count
  let rows := List.range c
  let e := g.ew
  match g.xform with
  | 0x4 => let ls := chunks 9 c (rd g.src (9 * c)); [(g.dst, ls.flatMap (·.take 8)), (g.aux, ls.flatMap (·.drop 8))]
  | 0x5 => let ls := chunks 16 c (rd g.src (16 * c)); [(g.dst, ls.flatMap (·.take 8)), (g.aux, ls.flatMap (sub · 8 1))]
  | 0x6 => [(g.dst, rows.flatMap (fun i => rd (g.src + 8 * i) 8 ++ rd (g.aux + i) 1))]
  | 0x7 => [(g.dst, rows.flatMap (fun i => rd (g.src + 8 * i) 8 ++ rd (g.aux + i) 1 ++ natLE 7 0))]
  | 0x8 => (List.range g.ncols).map (fun k =>
      (g.dst + k * g.cstride, rows.flatMap (fun j => rd (g.src + (j * g.ncols + k) * e) e)))
  | 0x9 => [(g.dst, rows.flatMap (fun j => (List.range g.ncols).flatMap (fun k => rd (g.src + k * g.cstride + e * j) e)))]
  | 0x0 => [(g.dst, rd g.src c)]
  | x => [(g.dst, swapElems (swapBytes x) (rd g.src c))]
/-- Write bytes to host memory or to DRAM. -/
def memWrite (s : State) (part : Nat) (host : Bool) (a : Nat) (bs : List Byte) : State :=
  if host then hostWrite s a bs else dramWrite s part a bs
/-- Do `n` bytes at `a` and `m` bytes at `b` meet? -/
def meets (a n b m : Nat) : Bool := n != 0 && m != 0 && decide (a < b + m) && decide (b < a + n)
/-- Does a segment's destination overlap its source, but for COPY and the swaps in place? Its results are then unspecified (R325). -/
def Seg.overlaps (g : Seg) : Bool :=
  let z := g.sizes
  let src := [(g.src, z.1), (g.aux, z.2.1)]
  let dst := [(g.dst, z.2.2.1), (g.aux, z.2.2.2)]
  g.srcHost == g.dstHost && ! (decide (g.xform ≤ 3) && g.src == g.dst)
    && dst.any (fun d => src.any (fun r => meets d.1 d.2 r.1 r.2))
/-- Move a segment's data, on behalf of an item of a partition: what an overlapping segment writes are free values. -/
def segMove (s : State) (part : Nat) (g : Seg) : State :=
  let z := g.sizes
  let u := if g.srcHost then s else dramTouch (dramTouch s part g.src z.1) part g.aux z.2.1
  (segWrites s g).foldl (fun s w =>
    if g.overlaps then
      let f := freeBytes s w.2.length
      memWrite f.2 part g.dstHost w.1 f.1
    else memWrite s part g.dstHost w.1 w.2) u
/-- Does a segment read poisoned DRAM (R319)? -/
def segPoisoned (s : State) (g : Seg) : Bool :=
  let z := g.sizes
  ! g.srcHost && (poisonedIn s g.src z.1 || poisonedIn s g.aux z.2.1)

/-! ## MOVE (R317, R318) -/

/-- The segments of a MOVE, or the status of steps 1 and 2 of R318. -/
def moveSegs (s : State) (it : Item) : Except Nat (List Seg) :=
  let c := it.body 56 4
  if ! bitOf c 16 then
    if fld c 31 17 ≠ 0 ∨ fld c 3 0 > 3 then .error St.invalidField
    else .ok [⟨it.body 32 8, it.body 40 8, 0, 0, it.body 48 4, it.body 52 4, 0, fld c 14 0⟩]
  else
    let n := it.body 48 2
    let host := bitOf c 17
    let a := it.body 32 8
    if fld c 31 18 ≠ 0 ∨ fld c 15 0 ≠ 0 then .error St.invalidField
    else if a % 64 ≠ 0 then .error St.alignment
    else if ! intOk s it host a (64 * n) then .error St.addressRange
    else if ! host ∧ poisonedIn s a (64 * n) then .error St.dataPoisoned
    else .ok ((chunks 64 n (itemRead s host a (64 * n))).map readSegEnt)
/-- The entry at which the read of a segment list in host memory fails, when `listErr` names one of its entries (R319). -/
def listFails (it : Item) (segs : List Seg) (listErr : Option Nat) : Option Nat :=
  if bitOf (it.body 56 4) 16 ∧ bitOf (it.body 56 4) 17 then listErr.filter (fun k => decide (k < segs.length)) else none
/-- MOVE: its checks, and its transfer joins the queue of its level. `listErr` is the entry of a list in host memory whose read
fails. -/
def doMove (id : Nat) (listErr : Option Nat) (s : State) : State :=
  match itemAt s id 0x10 0 with
  | none => s
  | some it =>
    match moveSegs s it with
    | .error st => failItem s id st 0 0
    | .ok segs =>
      match (listFails it segs listErr).map (fun k => (St.dmaHostError, k)) <|> segsFail s it segs 0 with
      | some (st, i) => failItem s id st i 0
      | none =>
        if segs.isEmpty then itemReady s id 0 0
        else
          let chain := bitOf (it.body 56 4) 16
          let x : Xfer := { fn := it.fn, level := it.lc, segs := segs, prog := if chain then it.body 40 8 else 0, chain := chain,
                            who := .move id }
          toEngine { s with dma := { s.dma with wait := s.dma.wait ++ [x] } } id

/-! ## Channels (R320, R336) -/

def chanLevel (s : State) (c : Nat) : Nat := rfld s Reg.DMA_CH_CFG c 1 0
/-- The lowest-numbered free channel of a level. -/
def freeChan (s : State) (level : Nat) : Option Nat :=
  (List.range 32).find? (fun c => (tget s.dma.chan c).isNone && chanLevel s c == level)
/-- Give channels to waiting transfers, oldest first, each level on its own. -/
def grantChans : List Xfer → State → State
  | [], s => s
  | x :: rest, s =>
    match freeChan s x.level with
    | some c => grantChans rest { s with dma := { s.dma with chan := tset s.dma.chan c x } }
    | none => grantChans rest { s with dma := { s.dma with wait := s.dma.wait ++ [x] } }
/-- DMA_CHANNEL_GRANT: waiting transfers take the free channels of their levels. -/
def doDmaChannelGrant (s : State) : State := grantChans s.dma.wait { s with dma := { s.dma with wait := [] } }
/-- A channel's transfer ends: a LEVEL write that waited for it takes effect. -/
def freeChannel (s : State) (c : Nat) : State :=
  let s := match tget s.dma.levelNext c with
    | some l => regSetFld s Reg.DMA_CH_CFG c 1 0 l
    | none => s
  { s with dma := { s.dma with chan := terase s.dma.chan c, levelNext := terase s.dma.levelNext c } }

end Sys2Proof.Machine
end

