-- ==== Sys2Proof/Machine/Sha.lean ====
section
/-! DEFINITION. The SHA-2 hash functions and HMAC (R69 step 10, R402 to R406), on numbers. -/

namespace Sys2Proof.Machine
open Sys2Proof

/-- Largest `x` below 2^(n) with `x ^ k ≤ v`, built from bit `n - 1` down. -/
def rootBits (k v : Nat) : Nat → Nat → Nat
  | 0, x => x
  | n + 1, x => rootBits k v n (if (x + 2 ^ n) ^ k ≤ v then x + 2 ^ n else x)
/-- The first 80 primes. -/
def primes80 : List Nat :=
  (List.range 410).filter (fun n => decide (2 ≤ n) && (List.range n).all (fun d => decide (d < 2) || n % d != 0))
/-- First 64 bits of the fractional part of the `k`-th root of `p`. -/
def rootFrac (k p : Nat) : Nat := rootBits k (p * 2 ^ (64 * k)) 69 0 % 2 ^ 64
/-- The 64-bit round constants; the 32-bit ones are their upper halves. -/
def shaK : List Nat := primes80.map (rootFrac 3)
/-- Initial values of SHA-512, and of SHA-384. -/
def shaIv512 : List Nat := (primes80.take 8).map (rootFrac 2)
def shaIv384 : List Nat := ((primes80.drop 8).take 8).map (rootFrac 2)

/-- Word width and the rotation counts of a SHA-2 function. -/
structure ShaPar where
  w : Nat
  rounds : Nat
  s0 : Nat × Nat × Nat
  s1 : Nat × Nat × Nat
  m0 : Nat × Nat × Nat
  m1 : Nat × Nat × Nat
deriving DecidableEq, Repr
def sha32 : ShaPar := ⟨32, 64, (2, 13, 22), (6, 11, 25), (7, 18, 3), (17, 19, 10)⟩
def sha64 : ShaPar := ⟨64, 80, (28, 34, 39), (14, 18, 41), (1, 8, 7), (19, 61, 6)⟩

/-- Rotate a `w`-bit word right. -/
def rotr (w n x : Nat) : Nat := (x >>> n) ||| (x <<< (w - n)) % 2 ^ w
/-- The sigma functions: three rotations, and two with a shift. -/
def bigSig (w : Nat) (r : Nat × Nat × Nat) (x : Nat) : Nat := rotr w r.1 x ^^^ rotr w r.2.1 x ^^^ rotr w r.2.2 x
def smallSig (w : Nat) (r : Nat × Nat × Nat) (x : Nat) : Nat := rotr w r.1 x ^^^ rotr w r.2.1 x ^^^ (x >>> r.2.2)
/-- Extend the message schedule, newest word first. -/
def shaSched (p : ShaPar) : Nat → List Nat → List Nat
  | 0, ws => ws
  | n + 1, ws =>
    let at_ := fun (i : Nat) => (ws[i]?).getD 0
    shaSched p n (((smallSig p.w p.m1 (at_ 1) + at_ 6 + smallSig p.w p.m0 (at_ 14) + at_ 15) % 2 ^ p.w) :: ws)
/-- One round on the eight working words. -/
def shaRound (p : ShaPar) (v : List Nat) (kw : Nat × Nat) : List Nat :=
  match v with
  | [a, b, c, d, e, f, g, h] =>
    let m := 2 ^ p.w
    let ch := (e &&& f) ^^^ ((m - 1 - e) &&& g)
    let maj := (a &&& b) ^^^ (a &&& c) ^^^ (b &&& c)
    let t1 := h + bigSig p.w p.s1 e + ch + kw.1 + kw.2
    let t2 := bigSig p.w p.s0 a + maj
    [(t1 + t2) % m, a, b, c, (d + t1) % m, e, f, g]
  | _ => v
/-- Compress one block of `2 w` bytes. -/
def shaBlock (p : ShaPar) (hs : List Nat) (blk : List Byte) : List Nat :=
  let ws := (chunks (p.w / 8) 16 blk).map beNat
  let sched := (shaSched p (p.rounds - 16) ws.reverse).reverse
  let ks := if p.w = 32 then shaK.map (· / 2 ^ 32) else shaK
  let v := (ks.zip sched).foldl (shaRound p) hs
  (hs.zip v).map (fun q => (q.1 + q.2) % 2 ^ p.w)
/-- The padding that follows `n` message bytes. -/
def shaPad (p : ShaPar) (n : Nat) : List Byte :=
  let b := 2 * p.w
  let len := p.w / 4
  0x80#8 :: (List.replicate ((b - (n + 1 + len) % b) % b) 0#8 ++ natBE len (8 * n))
/-- Hash the blocks of a byte string. -/
def shaRun (p : ShaPar) (hs : List Nat) (bs : List Byte) : List Nat :=
  (chunks (2 * p.w) (bs.length / (2 * p.w) + 1) bs).foldl (shaBlock p) hs
def shaOut (p : ShaPar) (hs : List Nat) : List Byte := hs.flatMap (natBE (p.w / 8))
def sha256 (bs : List Byte) : List Byte := shaOut sha32 (shaRun sha32 (shaIv512.map (· / 2 ^ 32)) (bs ++ shaPad sha32 bs.length))
def sha384 (bs : List Byte) : List Byte := (shaOut sha64 (shaRun sha64 shaIv384 (bs ++ shaPad sha64 bs.length))).take 48
def sha512 (bs : List Byte) : List Byte := shaOut sha64 (shaRun sha64 shaIv512 (bs ++ shaPad sha64 bs.length))
/-- HMAC over a hash with blocks of `b` bytes. -/
def hmac (h : List Byte → List Byte) (b : Nat) (key msg : List Byte) : List Byte :=
  let k := if key.length > b then h key else key
  let k := k ++ List.replicate (b - k.length) 0#8
  h (k.map (· ^^^ 0x5C#8) ++ h (k.map (· ^^^ 0x36#8) ++ msg))

end Sys2Proof.Machine
end

