-- ==== Sys2Proof/Machine/Cipher.lean ====
section
/-! DEFINITION. The cipher and digest engines (spec/18_cipher_digest.md, R385 to R403). A message's data moves when its part
ends (assumption 7). -/

namespace Sys2Proof.Machine
open Sys2Proof

/-! ## Key slots (R387 to R390) -/

def keySlot (s : State) (k : Nat) : KeySlot := tgetD s.ciph.slots k {}
/-- Messages and contexts that use a slot. -/
def slotUsers (s : State) (k : Nat) : Nat :=
  (s.ciph.creqs.filter (fun p => p.2.kslot == k)).length + (s.ciph.dreqs.filter (fun p => p.2.kslot == some k)).length
/-- Does a slot hold a key for items that start now? -/
def slotPresent (s : State) (k : Nat) : Bool := (keySlot s k).typ != 0 && ! (keySlot s k).erasing
def isAes (typ : Nat) : Bool := decide (1 ≤ typ) && decide (typ ≤ 3)
def isTdes (typ : Nat) : Bool := typ == 4 || typ == 5
/-- The key check value: three bytes (R390). -/
def kcvOf (typ : Nat) (key : List Byte) : List Byte :=
  if typ = 0 then [0, 0, 0]
  else if typ = 6 then (hmac sha256 64 key []).take 3
  else let c := cipherOf typ key; (c.enc (List.replicate c.bytes 0#8)).take 3
/-- KLEN of a type, 0 for HMAC, whose keys are 1 to 64 bytes long (Table 18-2). -/
def klenOf (typ : Nat) : Nat := ([0, 16, 24, 32, 16, 24, 0][typ]?).getD 0
/-- Usage bits a type admits. -/
def usageMask (typ : Nat) : Nat := if typ = 0 then 0 else if typ = 6 then 0b11000 else 0b10111
/-- The checks of a LOAD (Table 18-3), 0 for none. -/
def keyLoadErr (s : State) (fn slot typ klen usage : Nat) (data : List Byte) : Nat :=
  let k := fun i => sub data (8 * i) 8
  if holder s.fns.keyFn slot ≠ fn then 1
  else if slotUsers s slot ≠ 0 ∨ (keySlot s slot).erasing then 2
  else if typ > 6 ∨ usage &&& usageMask typ ≠ usage then 3
  else if (if typ = 6 then klen = 0 ∨ klen > 64 else klen ≠ klenOf typ) then 4
  else if isTdes typ ∧ (k 0 = k 1 ∨ (typ = 5 ∧ k 1 = k 2)) then 5
  else 0
def setSlot (s : State) (k : Nat) (v : KeySlot) : State := { s with ciph := { s.ciph with slots := tset s.ciph.slots k v } }
/-- Every write of CIPH_KEY_CMD zeroises the staging data and leaves its error code. -/
def keyCmdEnd (s : State) (fn err : Nat) : State :=
  { s with ciph := { s.ciph with staging := terase s.ciph.staging fn, err := tset s.ciph.err fn err } }
def keySelOf (s : State) (p : Path) : Nat := selGet s p Reg.CIPH_KEY_SEL
/-- KEY_LOAD (R388): a write of CIPH_KEY_CMD with CMD = LOAD. -/
def doKeyLoad (p : Path) (v : Nat) (s : State) : State :=
  if fld v 1 0 ≠ 1 then s
  else
    let w := keySelOf s p
    let fn := pathFn p
    let slot := fld w 5 0
    let data := sub (tgetD s.ciph.staging fn []) 0 64
    let e := keyLoadErr s fn slot (fld w 11 8) (fld w 22 16) (fld w 28 24) data
    let s := if e = 0 then setSlot s slot { typ := fld w 11 8, usage := fld w 28 24, key := data.take (fld w 22 16) } else s
    keyCmdEnd s fn e
/-- Erase a slot: it reads absent, and its key goes when its users have ended (R389). -/
def eraseSlot (s : State) (k : Nat) : State :=
  if (keySlot s k).typ = 0 then s else setSlot s k { keySlot s k with erasing := true }
/-- KEY_ERASE (R389): a write of CIPH_KEY_CMD with CMD = ERASE. -/
def doKeyErase (p : Path) (v : Nat) (s : State) : State :=
  if fld v 1 0 ≠ 2 then s
  else
    let fn := pathFn p
    let slot := fld (keySelOf s p) 5 0
    if holder s.fns.keyFn slot ≠ fn then keyCmdEnd s fn 1 else keyCmdEnd (eraseSlot s slot) fn 0
/-- STAGING_ZEROISE (R388): any other value of CMD zeroises the staging data only. -/
def doStagingZeroise (p : Path) (v : Nat) (s : State) : State :=
  if fld v 1 0 = 1 ∨ fld v 1 0 = 2 then s
  else keyCmdEnd s (pathFn p) (tgetD s.ciph.err (pathFn p) 0)
/-- KEY_ERASE_DONE (R389): the last user of an erasing slot has ended, and its key bytes are zeroised. -/
def doKeyEraseDone (k : Nat) (s : State) : State :=
  if (keySlot s k).erasing ∧ slotUsers s k = 0 then { s with ciph := { s.ciph with slots := terase s.ciph.slots k } } else s

/-! ## The cipher scheduler (R398, R399) -/

/-- The core a request runs on. -/
def CReq.core (r : CReq) : Option Nat :=
  match r.st with
  | .running c => some c
  | _ => none
def setCReq (s : State) (a : Nat) (r : CReq) : State := { s with ciph := { s.ciph with creqs := tset s.ciph.creqs a r } }
/-- A core in service that runs no message. -/
def ciphFreeCore (s : State) : Option Nat :=
  (List.range s.ciph.cores).find? (fun c => ! s.ciph.creqs.any (fun p => p.2.core == some c))
/-- A free context slot of the 256. -/
def ciphFreeCtx (s : State) : Option Nat :=
  (List.range 256).find? (fun c => ! s.ciph.creqs.any (fun p => p.2.ctxSlot == some c))
/-- The next request a free core takes: the lowest priority number, and the earliest arrival within it. -/
def ciphNext (s : State) : Option (Nat × CReq) :=
  (s.ciph.creqs.filter (fun p => p.2.core.isNone)).foldl (fun best p => match best with
    | none => some p
    | some b => if p.2.prio < b.2.prio then some p else some b) none
/-- Free cores take requests. -/
def ciphStart : Nat → State → State
  | 0, s => s
  | n + 1, s =>
    match ciphFreeCore s, ciphNext s with
    | some c, some (a, r) => ciphStart n (setCReq s a { r with st := .running c })
    | _, _ => s
/-- The message a request of priority `p` suspends: the largest priority number above `p`, and the latest arrival within
it. -/
def ciphVictim (s : State) (p : Nat) : Option (Nat × CReq) :=
  (s.ciph.creqs.filter (fun x => x.2.core.isSome && decide (p < x.2.prio))).foldl (fun best x => match best with
    | none => some x
    | some b => if b.2.prio ≤ x.2.prio then some x else some b) none
/-- Make room for a request of priority `p` when no core is free: suspend the victim into a context slot, or count that
none is free. -/
def ciphMakeRoom (s : State) (p : Nat) : State :=
  if (ciphFreeCore s).isSome then s
  else match ciphVictim s p with
    | none => s
    | some (a, r) =>
      match r.ctxSlot.or (ciphFreeCtx s) with
      | none => { s with ciph := { s.ciph with ctxFull := satAdd 32 s.ciph.ctxFull 1 } }
      | some c =>
        let s := setCReq s a { r with st := .suspended, ctxSlot := some c }
        { s with ciph := { s.ciph with suspends := satAdd 32 s.ciph.suspends 1 } }
/-- A request arrives: it takes a core, or suspends a message of a larger priority number, or waits. -/
def ciphArrive (s : State) (r : CReq) : State :=
  let s := ciphMakeRoom s r.prio
  let r := match ciphFreeCore s with
    | some c => { r with st := .running c }
    | none => r
  { s with ciph := { s.ciph with creqs := tset s.ciph.creqs s.ciph.next r, next := s.ciph.next + 1 } }
/-- A packet of a Bridy port passes through at priority 0 within its command: it may suspend a message, and the core goes
back to the earliest of the lowest priority number (R382, R399). -/
def ciphPacket (s : State) : State := let s := ciphMakeRoom s 0; ciphStart s.ciph.cores s
/-- A request ends: its core and its context slot are free. -/
def ciphEnd (s : State) (a : Nat) : State :=
  let s := { s with ciph := { s.ciph with creqs := terase s.ciph.creqs a } }
  ciphStart s.ciph.cores s

/-! ## Contexts (R397) -/

/-- The device wrap key. -/
def wrapKey (s : State) : List Byte :=
  if s.ciph.wrapGone then List.replicate 32 0#8 else (List.range 32).map Config.wrapKeyByte
/-- The clear form of a context. -/
def ctxBytes (kind kslot fn : Nat) (kcv : List Byte) (dir : Bool) (dataBytes : Nat) (rest : List Byte) : List Byte :=
  natLE 1 1 ++ natLE 1 kind ++ natLE 1 kslot ++ natLE 1 fn ++ sub kcv 0 3 ++ natLE 1 (b2n dir) ++ natLE 8 dataBytes ++ sub rest 0 80
/-- The stored context of an item, in the clear; none when it does not unwrap. -/
def ctxRead (s : State) (addr : Nat) (wrap : Bool) : Option (List Byte) :=
  if wrap then keyUnwrap (wrapKey s) (mreads s.host addr 104) else some (mreads s.host addr 96)
def ctxWrite (s : State) (addr : Nat) (wrap : Bool) (ctx : List Byte) : State :=
  hostWrite s addr (if wrap then keyWrap (wrapKey s) ctx else ctx)
/-- The check of a restored context: its status. -/
def ctxCheck (ctx : Option (List Byte)) (kind kslot fn : Nat) (kcv : List Byte) : Option Nat :=
  match ctx with
  | none => some St.ciphCtxInvalid
  | some c =>
    if leAt c 0 1 ≠ 1 ∨ leAt c 3 1 ≠ fn ∨ leAt c 1 1 ≠ kind ∨ leAt c 2 1 ≠ kslot then some St.ciphCtxInvalid
    else if sub c 4 3 ≠ kcv then some St.ciphKeyChanged
    else none

/-! ## CIPHER (R391 to R393) -/

/-- Body and parameter block of a CIPHER item (Tables 18-4, 18-6). -/
structure CBody where
  mode : Nat
  flags : Nat
  kslot : Nat
  tagLen : Nat
  len : Nat
  src : Nat
  dst : Nat
  iv : List Byte
  aadAddr : Nat
  aadLen : Nat
  ctrw : Nat
  ctxAddr : Nat
  tagAddr : Nat
  resv : Nat
deriving DecidableEq, Repr
def cBody (it : Item) : CBody :=
  let p := it.params
  ⟨it.body 32 1, it.body 33 1, it.body 34 1, it.body 35 1, it.body 36 4, it.body 40 8, it.body 48 8, sub p 0 16, leAt p 16 8,
   leAt p 24 4, leAt p 28 1, leAt p 32 8, leAt p 40 8, leAt p 29 3 + leAt p 48 16⟩
def CBody.dir (b : CBody) : Bool := bitOf b.flags 0
def CBody.first (b : CBody) : Bool := bitOf b.flags 1
def CBody.last (b : CBody) : Bool := bitOf b.flags 2
def CBody.srcHost (b : CBody) : Bool := bitOf b.flags 3
def CBody.dstHost (b : CBody) : Bool := bitOf b.flags 4
def CBody.wrap (b : CBody) : Bool := bitOf b.flags 5
def CBody.verify (b : CBody) : Bool := bitOf b.flags 6
/-- Does the mode make a tag? -/
def CBody.mac (b : CBody) : Bool := b.mode == 6 || b.mode == 7
/-- Is a tag length in the range of R385? -/
def tagLenOk (mode typ n : Nat) : Bool :=
  if mode = 7 then n == 4 || n == 8 || (decide (12 ≤ n) && decide (n ≤ 16))
  else if mode = 6 then (if isTdes typ then n == 8 else decide (8 ≤ n) && decide (n ≤ 16))
  else n == 0
/-- Step 1 of R393 for CIPHER. -/
def cipherInvalid (b : CBody) (typ : Nat) : Bool :=
  b.mode == 0 || decide (b.mode > 7) || bitOf b.flags 7 || decide (b.kslot > 63) || b.resv != 0
  || ! tagLenOk b.mode typ b.tagLen
  || (b.verify && (! b.mac || ! b.last))
  || (b.mode == 6 && (b.dst != 0 || (b.first && leNat b.iv != 0)))
  || (b.mode != 7 && (b.aadAddr != 0 || b.aadLen != 0)) || (! b.mac && b.tagAddr != 0)
  || (b.first && b.last && b.ctxAddr != 0)
  || (if b.mode = 2 then decide (b.ctrw > 2) else b.ctrw != 0)
/-- Do a slot’s type and usage allow the mode and the direction? CTR takes ENC in either direction (R387). -/
def usageOk (b : CBody) (k : KeySlot) : Bool :=
  let enc := bitOf k.usage 0
  let dec := bitOf k.usage 1
  (isAes k.typ || (isTdes k.typ && b.mode != 4 && b.mode != 7))
  && (if b.mode = 6 then bitOf k.usage 2 else if b.dir then dec || (b.mode == 2 && enc) else enc)
/-- Block bytes of a slot type, and the unit of a part that is not the last (R392). -/
def blockOf (typ : Nat) : Nat := if isTdes typ then 8 else 16
def partUnit (b : CBody) (typ : Nat) : Nat := if b.mode = 3 then 1 else blockOf typ
/-- Counter bits of a CTR part. -/
def ctrBits (b : CBody) (typ : Nat) : Nat := min (32 * 2 ^ b.ctrw) (8 * blockOf typ)
/-- The counter a CTR part begins with. -/
def ctrBegin (b : CBody) (typ : Nat) (ctx : List Byte) : List Byte := sub (if b.first then b.iv else sub ctx 24 16) 0 (blockOf typ)
/-- The context a part restores, in the clear; empty for a first part. -/
def restored (s : State) (first wrap : Bool) (addr : Nat) : Option (List Byte) :=
  if first then some [] else ctxRead s addr wrap
/-- The checks of R393, in order. -/
def cipherCheck (s : State) (it : Item) (b : CBody) : Option Nat :=
  let own := holder s.fns.keyFn b.kslot == it.fn && ! leavingFor s it 6 b.kslot
  let k := keySlot s b.kslot
  let ctx := restored s b.first b.wrap b.ctxAddr
  let c := ctx.getD []
  let base := firstFail [
    (cipherInvalid b (if own then k.typ else 0), St.invalidField),
    (! own, St.accessDenied),
    (! slotPresent s b.kslot, St.ciphKeyAbsent),
    (! usageOk b k, St.ciphKeyUsage),
    (b.len == 0xFFFFFFFF || b.aadLen == 0xFFFFFFFF, St.lengthInvalid),
    ((b.mode == 1 && b.len % blockOf k.typ != 0) || (! b.last && b.len % partUnit b k.typ != 0)
      || (b.mode == 7 && ((! b.first && b.aadLen != 0) || decide (leAt c 8 8 + b.len > 2 ^ 36 - 32))), St.ciphLength)]
  base <|> (if b.first then none else ctxCheck ctx b.mode b.kslot it.fn (kcvOf k.typ k.key)) <|> firstFail [
    (! b.last && ! b.wrap && bitOf k.usage 4, St.ciphCtxPolicy),
    (b.mode == 2 && decide (beNat (ctrBegin b k.typ c) % 2 ^ ctrBits b k.typ + ceilDiv b.len (blockOf k.typ) > 2 ^ ctrBits b k.typ),
      St.ciphCtrWrap),
    ((! b.srcHost && (! winIt s it b.src b.len || ! winIt s it b.aadAddr b.aadLen))
      || (! b.dstHost && ((b.mode != 6 && ! winIt s it b.dst b.len)
        || (b.mac && b.last && ! winIt s it b.tagAddr b.tagLen))), St.addressRange)]
/-- CIPHER: the checks, and the request joins the engine. A part with no data and no tag to make completes. -/
def doCipher (id : Nat) (s : State) : State :=
  match itemAt s id 0x20 0 with
  | none => s
  | some it =>
    let b := cBody it
    match cipherCheck s it b with
    | some st => failItem s id st 0 0
    | none =>
      if b.len = 0 ∧ ! (b.mac && b.last) then itemReady s id 0 0
      else
        let k := keySlot s b.kslot
        let rq : CReq := { item := id, prio := 1 + it.lc, kslot := b.kslot, typ := k.typ, key := k.key,
                           ctx := (restored s b.first b.wrap b.ctxAddr).getD [] }
        toEngine (ciphArrive (if b.srcHost then dataXfer s id none true (b.len + b.aadLen) else s) rq) id

/-! ## The end of a cipher message (R394 to R398) -/

/-- The running context a part begins with. -/
def msgBegin (s : State) (b : CBody) (r : CReq) (c : BlockCipher) : MsgCtx :=
  if b.first then
    (if b.mode = 7 then gcmStart c b.iv (itemRead s b.srcHost b.aadAddr b.aadLen)
    else { chain := sub b.iv 0 c.bytes, acc := List.replicate c.bytes 0#8 })
  else
    let n := leAt r.ctx 8 8
    { dataBytes := n, aadBytes := leAt r.ctx 16 8, chain := sub r.ctx 24 c.bytes, acc := sub r.ctx 40 c.bytes,
      held := if n = 0 then [] else sub r.ctx 56 c.bytes }
/-- Run a part's data: output and context. -/
def msgRun (b : CBody) (c : BlockCipher) (m : MsgCtx) (data : List Byte) : List Byte × MsgCtx :=
  let bs := chunks c.bytes (data.length / c.bytes + 1) data
  let z := fun (p : List Byte × List Byte) => (p.1, { m with chain := p.2, dataBytes := m.dataBytes + data.length })
  match b.mode with
  | 1 => z (if b.dir then cbcDec c m.chain bs else cbcEnc c m.chain bs)
  | 2 => z (ctrRun c (min (32 * 2 ^ b.ctrw) (8 * c.bytes)) m.chain bs)
  | 3 => z (cfb8Run c b.dir m.chain data)
  | 4 => z (cfbRun c b.dir m.chain bs)
  | 5 => z (ofbRun c m.chain bs)
  | 6 => ([], cmacPart c m data)
  | _ => gcmPart c b.dir m data
/-- The verification pair (R395): `pair` is what comparators that disagree write. -/
def cmpPair (equal : Bool) (pair : Option Nat) : Nat :=
  match pair with
  | some p => if p = 0x5AA5 ∨ p = 0xC33C then (if equal then 0x5AA5 else 0xC33C) else p % 65536
  | none => if equal then 0x5AA5 else 0xC33C
def cmpFaulty (p : Nat) : Bool := p != 0x5AA5 && p != 0xC33C
/-- Count a comparison, and the comparators' fault (R396). -/
def countCmp (s : State) (fn p : Nat) : State :=
  let s := { s with ciph := { s.ciph with compares := satAdd 32 s.ciph.compares 1 } }
  if cmpFaulty p then
    logEvent { s with ciph := { s.ciph with cmpFaults := satAdd 16 s.ciph.cmpFaults 1 } } Ev.cmpFault fn p 0 0
  else s
/-- Write a context of a part that is not the last (R392). -/
def saveCtx (s : State) (it : Item) (b : CBody) (r : CReq) (m : MsgCtx) : State :=
  ctxWrite s b.ctxAddr b.wrap (ctxBytes b.mode b.kslot it.fn (kcvOf r.typ r.key) b.dir m.dataBytes
    (natLE 8 m.aadBytes ++ sub m.chain 0 16 ++ sub m.acc 0 16 ++ sub m.held 0 16))
/-- A message's part ends with its data at hand: output, tag or context, and the item's result. -/
def cipherFinish (s : State) (id : Nat) (it : Item) (b : CBody) (r : CReq) (pair : Option Nat) : State :=
  let c := cipherOf r.typ r.key
  let z := msgRun b c (msgBegin s b r c) (itemRead s b.srcHost b.src b.len)
  let n := z.1.length
  let s := itemTouch s it.fn b.srcHost b.src b.len
  let part := partOf s it.fn
  let s := memWrite s part b.dstHost b.dst z.1
  let s := if b.dstHost then dataXfer s id none false n else s
  if ! b.last then engineDone (saveCtx s it b r z.2) id n 0
  else if ! b.mac then engineDone s id n 0
  else
    let tag := (if b.mode = 6 then cmacEnd c z.2 else gcmEnd c z.2).take b.tagLen
    if ! b.verify then engineDone (memWrite s part b.dstHost b.tagAddr tag) id n 0
    else
      let eq := itemRead s b.dstHost b.tagAddr b.tagLen == tag
      let p := cmpPair eq pair
      let s := countCmp s it.fn p
      let s := if eq then s
        else
          let f := freeBytes s n
          memWrite f.2 part b.dstHost b.dst f.1
      if cmpFaulty p then engineFail s id St.digestCmpFault n p else engineDone s id n p
/-- CIPHER_MESSAGE_DONE: the running request `a` ends. -/
def doCipherMessageDone (a : Nat) (pair : Option Nat) (s : State) : State :=
  match tget s.ciph.creqs a with
  | none => s
  | some r =>
    if r.core.isNone ∨ dataMoving s r.item then s
    else
      let s := ciphEnd s a
      match getItem s r.item with
      | none => s
      | some it =>
        let b := cBody it
        if (! b.srcHost && (poisonedIn s b.src b.len || (b.first && poisonedIn s b.aadAddr b.aadLen)))
            || (! b.dstHost && b.verify && poisonedIn s b.tagAddr b.tagLen) then engineFail s r.item St.dataPoisoned 0 0
        else cipherFinish s r.item it b r pair

/-! ## DIGEST (R386, R391 to R393, R402) -/

/-- Body of a DIGEST item (Table 18-5). -/
structure DBody where
  alg : Nat
  flags : Nat
  kslot : Nat
  outLen : Nat
  len : Nat
  src : Nat
  outAddr : Nat
  ctxAddr : Nat
deriving DecidableEq, Repr
def dBody (it : Item) : DBody :=
  ⟨it.body 32 1, it.body 33 1, it.body 34 1, it.body 35 1, it.body 36 4, it.body 40 8, it.body 48 8, it.body 56 8⟩
def DBody.first (b : DBody) : Bool := bitOf b.flags 1
def DBody.last (b : DBody) : Bool := bitOf b.flags 2
def DBody.srcHost (b : DBody) : Bool := bitOf b.flags 3
def DBody.wrap (b : DBody) : Bool := bitOf b.flags 5
def DBody.compare (b : DBody) : Bool := bitOf b.flags 6
def DBody.hmac (b : DBody) : Bool := decide (b.alg ≥ 0x10)
/-- 1 SHA-256, 2 SHA-384, 3 SHA-512. -/
def DBody.hash (b : DBody) : Nat := b.alg % 16
def hashSize (h : Nat) : Nat := if h = 1 then 32 else if h = 2 then 48 else 64
def hashBlock (h : Nat) : Nat := if h = 1 then 64 else 128
def hashPar (h : Nat) : ShaPar := if h = 1 then sha32 else sha64
def hashIv (h : Nat) : List Nat := if h = 1 then shaIv512.map (· / 2 ^ 32) else if h = 2 then shaIv384 else shaIv512
/-- Step 1 of R393 for DIGEST. -/
def digestInvalid (b : DBody) : Bool :=
  ! [1, 2, 3, 0x11, 0x12, 0x13].contains b.alg || b.flags &&& 0x91 != 0 || decide (b.kslot > 63) || (! b.hmac && b.kslot != 0)
  || decide (b.outLen < 16) || decide (b.outLen > hashSize b.hash) || (b.compare && ! b.last)
  || (b.first && b.last && b.ctxAddr != 0)
/-- KSLOT byte and KCV of a digest's context. -/
def dCtxSlot (b : DBody) : Nat := if b.hmac then b.kslot else 0xFF
def dCtxKcv (s : State) (b : DBody) : List Byte :=
  if b.hmac then kcvOf (keySlot s b.kslot).typ (keySlot s b.kslot).key else [0, 0, 0]
/-- The checks of R393, in order, where they apply. -/
def digestCheck (s : State) (it : Item) (b : DBody) : Option Nat :=
  let k := keySlot s b.kslot
  let ctx := restored s b.first b.wrap b.ctxAddr
  let base := firstFail [
    (digestInvalid b, St.invalidField),
    (b.hmac && (holder s.fns.keyFn b.kslot != it.fn || leavingFor s it 6 b.kslot), St.accessDenied),
    (b.hmac && ! slotPresent s b.kslot, St.ciphKeyAbsent),
    (b.hmac && (k.typ != 6 || ! bitOf k.usage 3), St.ciphKeyUsage),
    (b.len == 0xFFFFFFFF, St.lengthInvalid),
    (! b.last && b.len % hashBlock b.hash != 0, St.ciphLength)]
  base <|> (if b.first then none else ctxCheck ctx (0x80 + b.alg) (dCtxSlot b) it.fn (dCtxKcv s b)) <|> firstFail [
    (! b.last && ! b.wrap && b.hmac, St.ciphCtxPolicy),
    (! b.srcHost && ! winIt s it b.src b.len, St.addressRange)]
/-- Digest contexts in use on a core. -/
def digOn (s : State) (c : Nat) : Nat := (s.ciph.dreqs.filter (fun p => p.2.core == some c)).length
/-- The core whose free contexts are most, the lowest on a tie; none when all 64 are in use. -/
def digCore (s : State) : Option Nat :=
  let c := (List.range 4).foldl (fun best c => if digOn s c < digOn s best then c else best) 0
  if digOn s c < 16 then some c else none
/-- The waiting digest request served next. -/
def digNext (s : State) : Option (Nat × DReq) :=
  (s.ciph.dreqs.filter (fun p => p.2.core.isNone)).foldl (fun best p => match best with
    | none => some p
    | some b => if p.2.prio < b.2.prio then some p else some b) none
/-- Waiting digest requests take free contexts. -/
def digStart : Nat → State → State
  | 0, s => s
  | n + 1, s =>
    match digCore s, digNext s with
    | some c, some (a, r) => digStart n { s with ciph := { s.ciph with dreqs := tset s.ciph.dreqs a { r with core := some c } } }
    | _, _ => s
def digArrive (s : State) (r : DReq) : State :=
  digStart 1 { s with ciph := { s.ciph with dreqs := tset s.ciph.dreqs s.ciph.next r, next := s.ciph.next + 1 } }
def digEnd (s : State) (a : Nat) : State := digStart 1 { s with ciph := { s.ciph with dreqs := terase s.ciph.dreqs a } }
/-- Bytes hashed by earlier parts. -/
def digDone (ctx : List Byte) : Nat := leAt ctx 8 8
/-- DIGEST: the checks, and the request joins the engine. -/
def doDigest (id : Nat) (s : State) : State :=
  match itemAt s id 0x21 0 with
  | none => s
  | some it =>
    let b := dBody it
    match digestCheck s it b with
    | some st => failItem s id st 0 0
    | none =>
      let ctx := (restored s b.first b.wrap b.ctxAddr).getD []
      if b.len = 0 ∧ ! b.last then itemReady s id (digDone ctx) 0
      else
        let rq : DReq := { item := some id, prio := 1 + it.lc, kslot := if b.hmac then some b.kslot else none,
                           key := if b.hmac then (keySlot s b.kslot).key else [], ctx := ctx }
        toEngine (digArrive (if b.srcHost then dataXfer s id none true b.len else s) rq) id
/-- The key block of HMAC, xored with a pad byte. -/
def hmacPad (h : Nat) (key : List Byte) (x : Byte) : List Byte :=
  (key ++ List.replicate (hashBlock h - key.length) 0#8).map (· ^^^ x)
/-- Hash state before a part's data. -/
def digBegin (b : DBody) (r : DReq) : List Nat :=
  let p := hashPar b.hash
  if b.first then
    (if b.hmac then shaRun p (hashIv b.hash) (hmacPad b.hash r.key 0x36#8) else hashIv b.hash)
  else (chunks (p.w / 8) 8 (sub r.ctx 24 p.w)).map beNat
/-- The digest of a message whose data ends here. -/
def digFinal (b : DBody) (r : DReq) (hs : List Nat) (data : List Byte) : List Byte :=
  let p := hashPar b.hash
  let total := digDone r.ctx + data.length + (if b.hmac then hashBlock b.hash else 0)
  let inner := (shaOut p (shaRun p hs (data ++ shaPad p total))).take (hashSize b.hash)
  if b.hmac then
    let o := hmacPad b.hash r.key 0x5C#8 ++ inner
    (shaOut p (shaRun p (hashIv b.hash) (o ++ shaPad p o.length))).take (hashSize b.hash)
  else inner
/-- A digest part ends with its data at hand. -/
def digestFinish (s : State) (id : Nat) (it : Item) (b : DBody) (r : DReq) (pair : Option Nat) : State :=
  let data := itemRead s b.srcHost b.src b.len
  let s := itemTouch s it.fn b.srcHost b.src b.len
  let n := digDone r.ctx + data.length
  let hs := digBegin b r
  if ! b.last then
    let p := hashPar b.hash
    let ctx := ctxBytes (0x80 + b.alg) (dCtxSlot b) it.fn (if b.hmac then kcvOf 6 r.key else [0, 0, 0]) false n
      (natLE 8 0 ++ shaOut p (shaRun p hs data))
    engineDone (ctxWrite s b.ctxAddr b.wrap ctx) id n 0
  else
    let d := (digFinal b r hs data).take b.outLen
    if ! b.compare then engineDone (dataXfer (hostWrite s b.outAddr d) id none false d.length) id n 0
    else
      let p := cmpPair (mreads s.host b.outAddr b.outLen == d) pair
      let s := countCmp s it.fn p
      if cmpFaulty p then engineFail s id St.digestCmpFault n p else engineDone s id n p
/-- A digest request of an item ends. -/
def digestItemDone (s : State) (id : Nat) (r : DReq) (pair : Option Nat) : State :=
  match getItem s id with
  | none => s
  | some it =>
    let b := dBody it
    if ! b.srcHost && poisonedIn s b.src b.len then engineFail s id St.dataPoisoned 0 0
    else digestFinish s id it b r pair
/-- Drop the requests of an item, its context discarded (R400). -/
def ciphDrop (s : State) (id : Nat) : State :=
  let s := { s with ciph := { s.ciph with
      creqs := s.ciph.creqs.filter (fun p => p.2.item != id), dreqs := s.ciph.dreqs.filter (fun p => p.2.item != some id) } }
  digStart 64 (ciphStart s.ciph.cores s)

end Sys2Proof.Machine
end

