-- ==== Sys2Proof/Machine/Bridy.lean ====
section
/-! DEFINITION. The Bridy Link ports: flits, acknowledgement and replay, credits, states, lanes, encryption (spec/17_bridy_link.md,
R368 to R384). A flit is sent as soon as its sender has its data and its credit (assumption 7). -/

namespace Sys2Proof.Machine
open Sys2Proof

def bryPort (s : State) (n : Nat) : BPort := tgetD s.bry n {}
def setBry (s : State) (n : Nat) (p : BPort) : State := { s with bry := tset s.bry n p }
def modBry (s : State) (n : Nat) (f : BPort → BPort) : State := setBry s n (f (bryPort s n))
def BPort.cls (p : BPort) (c : Nat) : BClass := tgetD p.classes c {}
def BPort.setCls (p : BPort) (c : Nat) (v : BClass) : BPort := { p with classes := tset p.classes c v }
/-- Registers of port `n`. -/
def bryReg (off n : Nat) : Nat := off + 0x38 * n
def bryEn (s : State) (n : Nat) : Bool := rfld s (bryReg Reg.BRY_PORT0_CTL n) 0 31 31 == 1
def bryEpoch (s : State) (n : Nat) : Nat := rfld s (bryReg Reg.BRY_PORT0_KEY n) 0 31 31
def bryTxSlot (s : State) (n e : Nat) : Nat :=
  if e = 0 then rfld s (bryReg Reg.BRY_PORT0_KEY n) 0 23 18 else rfld s (bryReg Reg.BRY_PORT0_KEY n) 0 17 12
def bryRxSlot (s : State) (n e : Nat) : Nat :=
  if e = 0 then rfld s (bryReg Reg.BRY_PORT0_KEY n) 0 11 6 else rfld s (bryReg Reg.BRY_PORT0_KEY n) 0 5 0
/-- The key of a link slot: an AES-256 slot held by FN 0 (R382); none reads as an empty slot. -/
def bryKey (s : State) (slot : Nat) : Option (List Byte) :=
  let k := keySlot s slot
  if slotPresent s slot ∧ k.typ = 3 ∧ holder s.fns.keyFn slot = 0 then some k.key else none
/-- Both ports are UP with the same peer (R380). -/
def samePeer (s : State) : Bool := (bryPort s 0).st == BSt.up && (bryPort s 1).st == BSt.up && (bryPort s 0).peer == (bryPort s 1).peer

/-! ## Flits (Table 17-1) -/

def fseqMod : Nat := 2 ^ 24
/-- The ACK_SEQ of a flit: the highest FSEQ received intact and in order. -/
def ackSeq (p : BPort) : Nat := (p.rxFseq + fseqMod - 1) % fseqMod
/-- Receive-buffer flits a class still occupies: bytes of packets not yet handled. -/
def heldFlits (p : BPort) (c : Nat) : Nat :=
  ceilDiv (((p.cls c).rx.getD []).length + ((p.inbox.filter (fun k => k.cls == c)).map (fun k => k.body.length + 32)).foldl (· + ·) 0) 240
/-- Credits of a class that may go back now. -/
def crdOf (p : BPort) (c : Nat) : Nat := min 255 ((p.cls c).owed - heldFlits p c)
/-- Build a flit. -/
def mkFlit (ftype cls first fseq ack : Nat) (crd : List Nat) (lflags : Nat) (pay : List Byte) : List Byte :=
  let h := natBE 1 (ftype * 16 + cls * 4) ++ natBE 1 first ++ natBE 3 fseq ++ natBE 3 ack ++ crd.flatMap (natBE 1) ++ natBE 1 lflags
  let pay := sub pay 0 240
  h ++ natBE 4 (crc32 (h ++ pay)) ++ pay
/-- Give back the credits that a flit carries. -/
def payCrd (p : BPort) (crd : List Nat) : BPort :=
  (crd.zipIdx).foldl (fun p x => p.setCls x.2 { p.cls x.2 with owed := (p.cls x.2).owed - x.1 }) p
def emitFlit (s : State) (n : Nat) (f : List Byte) : State := { s with out := { s.out with flits := s.out.flits ++ [(n, f)] } }
/-- Send a control flit: it carries ACK_SEQ and credits, and is not replayed. -/
def sendCtl (s : State) (n ftype fseq lflags : Nat) : State :=
  let p := bryPort s n
  let crd := [crdOf p 0, crdOf p 1, crdOf p 2]
  setBry (emitFlit s n (mkFlit ftype 0 0xFF fseq (ackSeq p) crd lflags [])) n (payCrd p crd)
/-- A packet as sent (R373, R382): header, body sealed with AES-256-GCM under the slot of the send epoch, tag. An empty key slot
sends nothing (assumption 18). -/
def sealPacket (s : State) (n pctr : Nat) (k : Nat × List Byte) : List Byte :=
  let e := bryEpoch s n
  match bryKey s (bryTxSlot s n e) with
  | none => []
  | some key =>
    let h := natBE 1 k.1 ++ natBE 1 e ++ natBE 2 k.2.length ++ natBE 8 pctr ++ natBE 4 0
    let z := gcmSeal key (natBE 4 (rfld s (bryReg Reg.BRY_PORT0_SALT n) 0 63 32) ++ natBE 8 pctr) h k.2
    h ++ z.1 ++ z.2
/-- What a flit takes of a class's stream: its payload, the offset of the first packet start, and the class and PCTR after. -/
structure TxTake where
  pay : List Byte
  first : Nat
  cls : BClass
  pctr : Nat
/-- Take up to `room` bytes of a class's stream. A packet takes its PCTR and is sealed as its sending begins. -/
def takePay (pack : Nat → Nat × List Byte → List Byte) : Nat → Nat → Nat → BClass → TxTake
  | 0, _, pctr, c => ⟨[], 0xFF, c, pctr⟩
  | fuel + 1, room, pctr, c =>
    if room = 0 then ⟨[], 0xFF, c, pctr⟩
    else if ! c.txRest.isEmpty then
      let t := c.txRest.take room
      let z := takePay pack fuel (room - t.length) pctr { c with txRest := c.txRest.drop room }
      { z with pay := t ++ z.pay, first := if z.first = 0xFF then 0xFF else z.first + t.length }
    else match c.txQ with
      | [] => ⟨[], 0xFF, c, pctr⟩
      | k :: ks =>
        let b := pack pctr k
        if b.isEmpty then takePay pack fuel room pctr { c with txQ := ks }
        else { takePay pack fuel room (pctr + 1) { c with txRest := b, txQ := ks } with first := 0 }
/-- Has a class something to send, and a credit? -/
def clsReady (p : BPort) (c : Nat) : Bool := let k := p.cls c; (! k.txRest.isEmpty || ! k.txQ.isEmpty) && k.cred != 0
/-- The class served next (R377): MGMT, then LEDGER, and MSG at least once in 16. -/
def nextClass (p : BPort) : Option Nat :=
  if clsReady p 1 && decide (p.sinceMsg ≥ 15) then some 1
  else if clsReady p 2 then some 2
  else if clsReady p 0 then some 0
  else if clsReady p 1 then some 1
  else none
/-- Send new PAYLOAD flits while data, credits and the replay store allow (R372, R377). -/
def txPump : Nat → State → Nat → State
  | 0, s, _ => s
  | fuel + 1, s, n =>
    let p := bryPort s n
    if p.st ≠ BSt.up ∨ p.unacked.length ≥ 262144 then s
    else match nextClass p with
      | none => s
      | some c =>
        let z := takePay (sealPacket s n) 64 240 p.txPctr (p.cls c)
        let s := (List.range (z.pctr - p.txPctr)).foldl (fun s _ => ciphPacket s) s
        if z.pay.isEmpty then txPump fuel (setBry s n (p.setCls c z.cls)) n
        else
        let crd := [crdOf p 0, crdOf p 1, crdOf p 2]
        let f := mkFlit 1 c z.first p.txFseq (ackSeq p) crd 0 z.pay
        let p := payCrd (p.setCls c { z.cls with cred := z.cls.cred - 1 }) crd
        let p := { p with
          txPctr := z.pctr, txFseq := (p.txFseq + 1) % fseqMod, unacked := p.unacked ++ [(p.txFseq, f)],
          sinceMsg := if c = 1 then 0 else p.sinceMsg + 1 }
        txPump fuel (setBry (emitFlit s n f) n p) n
/-- Flits that the waiting data of a port can fill. -/
def pumpFuel (p : BPort) : Nat :=
  (p.classes.map (fun c => (c.2.txRest.length + (c.2.txQ.map (fun k => k.2.length + 32)).foldl (· + ·) 0) / 240 + 1 + c.2.txQ.length / 64)).foldl (· + ·) 1
def pump (s : State) (n : Nat) : State := txPump (pumpFuel (bryPort s n)) s n

/-! ## Packets out (Tables 17-2, 17-3, R382) -/

/-- Send a packet: it joins the stream of its class. -/
def sendPacket (s : State) (n cls ptype : Nat) (body : List Byte) : State :=
  let p := bryPort s n
  let k := p.cls cls
  pump (setBry s n (p.setCls cls { k with txQ := k.txQ ++ [(ptype, body)] })) n
def sendRdy (s : State) (n key grant : Nat) : State := sendPacket s n 0 2 (natBE 8 key ++ natBE 4 grant ++ natBE 4 262144 ++ natBE 16 0)
/-- Issue one pre-grant. -/
def issuePre (s : State) (n : Nat) : State :=
  let g := (bryPort s n).nextGrant
  sendRdy (modBry s n (fun p => { p with nextGrant := (g + 1) % 0xFFFFFFFF, issued := p.issued ++ [g] })) n 0 g
/-- Issue `k` pre-grants. -/
def issueAll : Nat → State → Nat → State
  | 0, s, _ => s
  | k + 1, s, n => issueAll k (issuePre s n) n

/-! ## States (R378) -/

/-- The pre-grants of a port lapse: commands bound to one bring no new one (R375). -/
def lapseGrants (s : State) (n : Nat) : State :=
  { s with led := { s.led with cmds := s.led.cmds.map (fun c => if c.2.preGrant = some n then (c.1, { c.2 with preGrant := none }) else c) } }
/-- Enter DOWN with a cause. -/
def bryDown (s : State) (n cause : Nat) : State :=
  modBry s n (fun p => { p with st := BSt.down, cause := cause, swapWait := none, retryAt := none,
                                 downUntil := now s + 1000000 * p.downMs, downMs := min 1000 (2 * p.downMs) })
/-- Enter HALT: what the port holds is discarded only when software disables it. -/
def bryHalt (s : State) (n cause : Nat) : State := modBry (lapseGrants s n) n (fun p => { p with
    st := BSt.halt, cause := cause, swapWait := none, retryAt := none, preGrants := [], issued := [], granted := false })
/-- Has the port a good key for each direction in its epoch? -/
def bryKeys (s : State) (n : Nat) : Bool :=
  (bryKey s (bryTxSlot s n (bryEpoch s n))).isSome && (bryKey s (bryRxSlot s n (bryEpoch s n))).isSome
/-- Enter TRAINING. -/
def bryTrain (s : State) (n : Nat) : State :=
  modBry s n (fun p => { p with st := BSt.training, cause := if bryKeys s n then p.cause else 5 })
/-- Write BRY_PORTn_CTL or another register of the port. -/
def bryCtlWrite (s : State) (n v : Nat) : State := regWrite s (bryReg Reg.BRY_PORT0_CTL n) 0 v
/-- BRIDY_PORT_ENABLE: EN goes from 0 to 1. -/
def doBridyPortEnable (_p : Path) (n v : Nat) (s : State) : State :=
  if n ≥ 2 ∨ ! bitOf v 31 then s
  else
    let s := bryCtlWrite s n v
    if (bryPort s n).st = BSt.disabled then bryTrain (modBry s n (fun p => { p with downMs := 1 })) n else s
/-- Disabling ends the pre-grants; from HALT it also discards the replay store and the FSEQ state. -/
def bryDisable (s : State) (n : Nat) : State :=
  modBry (lapseGrants s n) n (fun p =>
    let q := if p.st = BSt.halt then
        { p with unacked := [], txFseq := 0, rxFseq := 0, classes := [], inbox := [], sinceMsg := 0, lastPeer := none }
      else p
    { q with st := BSt.disabled, preGrants := [], issued := [], granted := false, swapWait := none, retryAt := none })
/-- BRIDY_PORT_DISABLE: EN written 0. -/
def doBridyPortDisable (_p : Path) (n v : Nat) (s : State) : State :=
  if n ≥ 2 ∨ bitOf v 31 then s else bryDisable (bryCtlWrite s n v) n
/-- RETRAIN_DELAY: the DOWN delay has run. -/
def doRetrainDelay (n : Nat) (s : State) : State :=
  let p := bryPort s n
  if p.st = BSt.down ∧ p.downUntil ≤ now s then
    bryTrain (modBry s n (fun p => { p with retrains := satAdd 8 p.retrains 1 })) n
  else s
/-- LINK_SILENT: no flit with a good CRC for 10 ms. -/
def doLinkSilent (n : Nat) (s : State) : State :=
  let p := bryPort s n
  if p.st = BSt.up ∧ p.goodAt + 10000000 ≤ now s then bryDown s n 2 else s
/-- TX_EPOCH_CHANGE: a write of BRY_PORTn_KEY; a changed TX_EPOCH restarts PCTR at 0. -/
def doTxEpochChange (_p : Path) (n v : Nat) (s : State) : State :=
  if n ≥ 2 then s
  else
    let old := bryEpoch s n
    let s := regWrite s (bryReg Reg.BRY_PORT0_KEY n) 0 v
    if bryEpoch s n = old then s else modBry s n (fun p => { p with txPctr := 0 })

/-! ## Reception -/

/-- FEC counts that come with a flit. -/
def fecCount (s : State) (n corr uncorr : Nat) : State :=
  modBry s n (fun p => { p with fecCorr := satAdd 32 p.fecCorr corr, fecUncorr := satAdd 32 p.fecUncorr uncorr })
/-- Is a flit whole, with a good CRC? -/
def flitGood (f : List Byte) : Bool := f.length == 256 && beAt f 12 4 == crc32 (f.take 12 ++ f.drop 16)
def flitType (f : List Byte) : Nat := fld (beAt f 0 1) 7 4
/-- Drop acknowledged flits from the replay store. -/
def dropAcked (ack : Nat) (u : List (Nat × List Byte)) : List (Nat × List Byte) :=
  match u.findIdx? (fun x => x.1 == ack) with
  | some i => u.drop (i + 1)
  | none => u
/-- A lane swap happens in a direction: counted, logged, and the spare of the inventory used (R381, R8). -/
def laneSwapped (s : State) (n dir lane : Nat) : State :=
  let s := modBry s n (fun p => { p with swaps := satAdd 8 p.swaps 1 })
  let s := rasCount { s with ras := { s.ras with lanesFree := s.ras.lanesFree - 1, lanesRetired := s.ras.lanesRetired + 1 } } 9 true
  logEvent (logEvent s Ev.bryLaneSwap 0xFF n dir lane) Ev.spareIn 0xFF 5 (n * 10 + dir * 5 + lane) (n * 10 + dir * 5 + 4)
/-- Take what every good flit carries: the acknowledgement, the credits, and SWAP_AT. -/
def takeLink (s : State) (n : Nat) (f : List Byte) : State :=
  let s := modBry s n (fun p =>
    let p := { p with goodAt := now s, unacked := dropAcked (beAt f 5 3) p.unacked }
    (List.range 3).foldl (fun p c => p.setCls c { p.cls c with cred := (p.cls c).cred + beAt f (8 + c) 1 }) p)
  let p := bryPort s n
  if bitOf (beAt f 11 1) 0 ∧ p.swapWait.isSome then
    let lane := fld (beAt f 11 1) 2 1
    laneSwapped (setBry s n { p with swapWait := none, spareRx := some lane }) n 1 lane
  else s
/-- What each flit type needs first: the port UP, the flit of the type and its CRC good. -/
def flitAt (s : State) (n : Nat) (f : List Byte) (ty : Nat) : Bool := (bryPort s n).st == BSt.up && flitType f == ty && flitGood f
/-- IDLE_FLIT: acknowledgement and credits are taken. -/
def doIdleFlit (n : Nat) (f : List Byte) (corr uncorr : Nat) (s : State) : State :=
  let s := fecCount s n corr uncorr
  if flitAt s n f 0 then pump (takeLink s n f) n else s
/-- RETRY_REQ: every flit from the named FSEQ is sent again, unchanged and in order (R372). -/
def doRetryReq (n : Nat) (f : List Byte) (corr uncorr : Nat) (s : State) : State :=
  let s := fecCount s n corr uncorr
  if flitAt s n f 2 then
    let s := takeLink s n f
    let p := bryPort s n
    let again := match p.unacked.findIdx? (fun x => x.1 == beAt f 2 3) with
      | some i => p.unacked.drop i
      | none => []
    let s := again.foldl (fun s x => emitFlit s n x.2) s
    pump (modBry s n (fun p => { p with replays := satAdd 16 p.replays 1 })) n
  else s
/-- Ask for the expected flit. -/
def askRetry (s : State) (n : Nat) : State :=
  sendCtl (modBry s n (fun p => { p with retryAt := some (now s) })) n 2 (bryPort s n).rxFseq 0
/-- RETRY_REQ_REPEAT: the flit asked for has not arrived in 2 × RTT_US. -/
def doRetryReqRepeat (n : Nat) (s : State) : State :=
  let p := bryPort s n
  match p.retryAt with
  | some t => if p.st = BSt.up ∧ t + 2000 * p.rttUs ≤ now s then askRetry s n else s
  | none => s
/-- SWAP_REQ: the sender moves the named lane to its spare and marks a flit with SWAP_AT. A repeated request for the lane on
the spare is answered again. -/
def doSwapReq (n : Nat) (f : List Byte) (corr uncorr : Nat) (s : State) : State :=
  let s := fecCount s n corr uncorr
  if flitAt s n f 3 then
    let s := takeLink s n f
    let lane := fld (beAt f 11 1) 2 1
    let mark := fun (s : State) => sendCtl s n 0 0 (1 + 2 * lane)
    match (bryPort s n).spareTx with
    | none => mark (laneSwapped (modBry s n (fun p => { p with spareTx := some lane })) n 0 lane)
    | some l => if l = lane then mark s else s
  else s
/-- LANE_FAULT: an active lane of the receiver loses lock or shows too many corrections. -/
def doLaneFault (n lane : Nat) (s : State) : State :=
  let p := bryPort s n
  if p.st ≠ BSt.up ∨ lane ≥ 4 then s
  else if p.spareRx.isSome ∨ (p.swapWait.isSome ∧ p.swapWait.map (·.1) ≠ some lane) then bryDown s n 1
  else if p.swapWait.isSome then s
  else sendCtl (setBry s n { p with swapWait := some (lane, now s) }) n 3 0 (2 * lane)
/-- SWAP_REQ_REPEAT: SWAP_AT has not been seen 10 µs after the last SWAP_REQ. -/
def doSwapReqRepeat (n : Nat) (s : State) : State :=
  let p := bryPort s n
  match p.swapWait with
  | some (lane, t) =>
    if p.st = BSt.up ∧ t + 10000 ≤ now s then sendCtl (setBry s n { p with swapWait := some (lane, now s) }) n 3 0 (2 * lane) else s
  | none => s
/-- Enter UP: credits are granted anew, unacknowledged flits are sent again from the peer's next expected FSEQ, and
the pre-grants are issued unless they have survived (R375, R377, R379). -/
def bryUp (s : State) (n devser nextF rtt : Nat) : State :=
  let again := fun (p : BPort) => match p.unacked.findIdx? (fun x => x.1 == nextF) with
    | some i => p.unacked.drop i
    | none => ([] : List (Nat × List Byte))
  let first := ! (bryPort s n).granted
  let s := modBry s n (fun p =>
    let p := (List.range 3).foldl (fun p c => p.setCls c { p.cls c with
      cred := ([262144, 16384, 1024][c]?).getD 0, owed := 0 }) p
    { p with st := BSt.up, peer := devser, lastPeer := some devser, rttUs := min rtt 0xFFFF, goodAt := now s, downMs := 1,
             unacked := again p, retryAt := none, granted := true })
  let s := (bryPort s n).unacked.foldl (fun s x => emitFlit s n x.2) s
  let want := min 32 (rfld s (bryReg Reg.BRY_PORT0_CTL n) 0 29 24)
  pump (if first then issueAll want s n else s) n
/-- TRAIN_FLIT (R379): what the peer's TRAIN flits bring, its DEVSER, its next expected FSEQ, and the round trip its echo
measured. -/
def doTrainFlit (n devser nextF rtt : Nat) (s : State) : State :=
  let p := bryPort s n
  if n ≥ 2 ∨ p.st ≠ BSt.training then s
  else if ! bryKeys s n then modBry s n (fun p => { p with cause := 5 })
  else if p.lastPeer.any (fun d => d != devser) then bryHalt s n 4
  else bryUp s n devser nextF rtt

/-! ## Packets in (R373, R382) -/

/-- A packet fails its check: counted, logged, and the port halts. -/
def authFailed (s : State) (n pctr e : Nat) : State :=
  let s := modBry s n (fun p => { p with authFail := satAdd 8 p.authFail 1 })
  bryHalt (logEvent s Ev.bryAuthFail 0xFF n pctr e) n 3
/-- Is a PTYPE of the class? -/
def ptypeOk (cls ptype : Nat) : Bool :=
  (cls == 0 && decide (1 ≤ ptype) && decide (ptype ≤ 4)) || (cls == 1 && ptype == 8) || (cls == 2 && ptype == 9)
/-- PACKET_AUTH_CHECK: a whole packet is opened and joins the port's inbox, or is discarded, or halts the port. -/
def takePacket (s : State) (n cls : Nat) (pkt : List Byte) : State :=
  let pt := beAt pkt 0 1
  if ! ptypeOk cls pt then modBry s n (fun p => { p with pktDiscard := satAdd 4 p.pktDiscard 1 })
  else
    let e := beAt pkt 1 1 % 2
    let pctr := beAt pkt 4 8
    let len := beAt pkt 2 2
    let s := ciphPacket s
    let iv := natBE 4 (rfld s (bryReg Reg.BRY_PORT0_SALT n) 0 31 0) ++ natBE 8 pctr
    let fresh := (tget (bryPort s n).rxPctr e).all (fun l => decide (l < pctr))
    match bryKey s (bryRxSlot s n e) with
    | none => authFailed s n pctr e
    | some key =>
      let z := gcmOpen key iv (pkt.take 16) (sub pkt 16 len)
      if fresh && z.2 == sub pkt (16 + len) 16 then
        modBry s n (fun p => { p with rxPctr := [(e, pctr)], inbox := p.inbox ++ [⟨cls, pt, z.1⟩] })
      else authFailed s n pctr e
/-- Take whole packets from a class's received bytes. A first byte of 0 is padding to the end of its flit (assumption 18); a
BODY_LEN out of range loses the place until the next packet start. -/
def rxParse : Nat → State → Nat → Nat → List Byte → State
  | 0, s, _, _, _ => s
  | fuel + 1, s, n, c, bs =>
    let keep := fun (s : State) (r : Option (List Byte)) => modBry s n (fun p => p.setCls c { p.cls c with rx := r })
    if (bryPort s n).st ≠ BSt.up then s
    else if bs.isEmpty ∨ beAt bs 0 1 = 0 then keep s none
    else if bs.length < 4 then keep s (some bs)
    else
      let len := beAt bs 2 2
      if len < 16 ∨ len > 8208 then keep (modBry s n (fun p => { p with pktDiscard := satAdd 4 p.pktDiscard 1 })) none
      else if bs.length < len + 32 then keep s (some bs)
      else rxParse fuel (takePacket s n c (bs.take (len + 32))) n c (bs.drop (len + 32))
/-- An accepted PAYLOAD flit's payload joins its class's stream. -/
def rxPayload (s : State) (n : Nat) (f : List Byte) : State :=
  let c := fld (beAt f 0 1) 3 2
  let k := (bryPort s n).cls c
  let first := beAt f 1 1
  let pay := f.drop 16
  match k.rx with
  | some r => rxParse 16 s n c (r ++ pay)
  | none => if first < 240 then rxParse 16 s n c (pay.drop first) else s
/-- PAYLOAD_FLIT (R371): accepted in FSEQ order, or discarded with a RETRY_REQ; an accepted flit is acknowledged by the next
flit sent. -/
def doPayloadFlit (n : Nat) (f : List Byte) (corr uncorr : Nat) (s : State) : State :=
  let s := fecCount s n corr uncorr
  let p := bryPort s n
  if p.st ≠ BSt.up ∨ flitType f ≠ 1 then s
  else
    let bad := fun (s : State) => askRetry (modBry s n (fun p => { p with crcErr := satAdd 16 p.crcErr 1 })) n
    if ! flitGood f then bad s
    else
      let s := takeLink s n f
      if beAt f 2 3 ≠ p.rxFseq then bad s
      else
        let c := fld (beAt f 0 1) 3 2
        let s := modBry s n (fun p => { p.setCls c { p.cls c with owed := (p.cls c).owed + 1 } with
          rxFseq := (p.rxFseq + 1) % fseqMod, retryAt := none })
        let sent := s.out.flits.length
        let s := pump (rxPayload s n f) n
        if s.out.flits.length = sent ∧ (bryPort s n).st = BSt.up then sendCtl s n 0 0 0 else s
/-- The next packet of a class in the inbox, and the state without it. -/
def takeInbox (s : State) (n cls ptype : Nat) : Option (BPacket × State) :=
  match (bryPort s n).inbox.find? (fun k => k.cls == cls) with
  | some k => if k.ptype = ptype then some (k, modBry s n (fun p => { p with inbox := p.inbox.erase k })) else none
  | none => none
/-- MSG_PACKET: a message is delivered to the Frame firmware. -/
def doMsgPacket (n : Nat) (s : State) : State :=
  match takeInbox s n 1 8 with
  | some (k, s) => modBry s n (fun p => { p with msgs := p.msgs ++ [k.body] })
  | none => s

end Sys2Proof.Machine
end

