-- ==== Sys2Proof/Machine/LedgerPool.lean ====
section
/-! DEFINITION. The pool of the Ledger store: drive layout, superblocks, commit sectors, log pages, allocation, and recovery
(spec/16_ledger_store.md, R338 to R341, R346 to R349, R358, R360, R365, R366). -/

namespace Sys2Proof.Machine
open Sys2Proof

def setLed (s : State) (l : Ledger) : State := { s with led := l }
def led (s : State) (f : Ledger → Ledger) : State := { s with led := f s.led }
def getVol (s : State) (v : Nat) : LVol := tgetD s.led.vols v {}
def modVol (s : State) (v : Nat) (f : LVol → LVol) : State := led s (fun l => { l with vols := tset l.vols v (f (tgetD l.vols v {})) })

/-! ## Layout (Table 16-1) -/

def commitLog : Nat := 262144
/-- Data-area blocks of a pool of `p` blocks with snapshots of `m` blocks. -/
def dataOf (p m : Nat) : Nat := let r := p - 2 - commitLog - 2 * m; r - ceilDiv r 100
/-- Are snapshots of `m` blocks large enough? -/
def mapFits (p m : Nat) : Bool := decide (8 * dataOf p m + 32 * 2 ^ 20 ≤ 4096 * m)
/-- The smallest MAP_BLOCKS that holds its content, found from the top bit down. -/
def mapBlocksFrom (p : Nat) : Nat → Nat → Nat
  | 0, lo => lo + 1
  | n + 1, lo => mapBlocksFrom p n (if mapFits p (lo + 2 ^ n) then lo else lo + 2 ^ n)
def mapBlocksOf (p : Nat) : Nat := mapBlocksFrom p 31 0
def spareBase (q : Pool) : Nat := 2 + commitLog + 2 * q.mapBlocks
def spareCount (q : Pool) : Nat := ceilDiv (q.blocks - spareBase q) 100
def dataBase (q : Pool) : Nat := spareBase q + spareCount q
def dataBlocks (q : Pool) : Nat := q.blocks - dataBase q
def spareFree (s : State) : Nat :=
  match s.led.pool with
  | some q => spareCount q - s.led.spareUsed
  | none => 0

/-! ## Writing drives -/

/-- Drives that take writes: in service or rebuilding. -/
def liveDrives (s : State) : List Nat := (s.led.drives.filter (fun d => d.2.st == 1 || d.2.st == 2)).map (·.1)
/-- Drives in service. -/
def inService (s : State) : List Nat := (s.led.drives.filter (fun d => d.2.st == 1)).map (·.1)
/-- Write bytes at a block of every drive that takes writes. -/
def drvWrite (s : State) (blk : Nat) (bs : List Byte) : State :=
  led s (fun l => { l with drives := l.drives.map (fun d =>
    if d.2.st = 1 ∨ d.2.st = 2 then (d.1, { d.2 with mem := mwrite d.2.mem (4096 * blk) bs }) else d) })
/-- A 4 KiB structure whose last 48 bytes are the SHA-384 of the rest. -/
def sealed (bs : List Byte) : List Byte := let b := sub bs 0 4048; b ++ sha384 b
def sealOk (bs : List Byte) : Bool := bs.drop 4048 == sha384 (bs.take 4048)
/-- The superblock (Table 16-2). -/
def superBytes (q : Pool) (drive : Nat) : List Byte :=
  sealed (natLE 4 0x4C534250 ++ natLE 2 1 ++ natLE 1 drive ++ natLE 1 0 ++ natLE 8 q.gen ++ natLE 8 q.poolId ++ natLE 8 q.blocks
    ++ natLE 4 q.mapBlocks ++ natLE 1 q.snapArea ++ natLE 1 q.opKind ++ natLE 1 q.opVol ++ natLE 1 0 ++ natLE 8 q.snapSeq
    ++ natLE 8 q.opKey ++ natLE 4 q.opDone ++ natLE 4 0 ++ q.remap.flatMap (fun r => natLE 8 r.1 ++ natLE 8 r.2))
/-- Write the superblock: GEN rises by 1, and copy GEN mod 2 is written on every drive. -/
def superWrite (s : State) (q : Pool) : State :=
  let q := { q with gen := q.gen + 1 }
  led s (fun l => { l with pool := some q, drives := l.drives.map (fun d =>
    if d.2.st = 1 ∨ d.2.st = 2 then (d.1, { d.2 with mem := mwrite d.2.mem (4096 * (q.gen % 2)) (superBytes q d.1) }) else d) })
def superMod (s : State) (f : Pool → Pool) : State :=
  match s.led.pool with
  | some q => superWrite s (f q)
  | none => s
/-- Read a superblock copy, if it is valid. -/
def superRead (bs : List Byte) : Option Pool :=
  if leAt bs 0 4 = 0x4C534250 ∧ leAt bs 4 2 = 1 ∧ sealOk bs then
    some { poolId := leAt bs 16 8, blocks := leAt bs 24 8, mapBlocks := leAt bs 32 4, gen := leAt bs 8 8, snapArea := leAt bs 36 1,
           snapSeq := leAt bs 40 8, opKind := leAt bs 37 1, opVol := leAt bs 38 1, opKey := leAt bs 48 8, opDone := leAt bs 56 4,
           remap := ((List.range 128).map (fun i => (leAt bs (64 + 16 * i) 8, leAt bs (72 + 16 * i) 8))).filter (·.1 != 0) }
  else none

/-! ## Commit sectors (Table 16-6) -/

def allOnes : Nat := 2 ^ 64 - 1
/-- The fields of a commit sector. -/
structure Sector where
  ckind : Nat
  vol : Nat
  seq : Nat
  cmdKey : Nat
  fwdKey : Nat
  ents : List (Nat × Nat × Nat)
  recFirst : Nat
  recLast : Nat
  chain : List Byte
  body : List Byte
deriving DecidableEq, Repr
/-- Bytes of a sector issued at a time. -/
def sectorBytes (c : Sector) (poolId time : Nat) : List Byte :=
  sealed (natLE 4 0x4C434F4D ++ natLE 2 1 ++ natLE 1 c.ckind ++ natLE 1 c.vol ++ natLE 8 c.seq ++ natLE 8 poolId ++ natLE 8 c.cmdKey
    ++ natLE 8 c.fwdKey ++ natLE 8 time ++ natLE 2 c.ents.length ++ natLE 6 0 ++ natLE 8 c.recFirst ++ natLE 8 c.recLast
    ++ sub c.chain 0 48 ++ natLE 8 0
    ++ (if c.ckind = 4 then sub c.body 0 32 else c.ents.flatMap (fun e => natLE 8 e.1 ++ natLE 4 e.2.1 ++ natLE 4 0 ++ natLE 8 e.2.2)))
/-- Read the sector of SEQ `seq`, if it is valid. -/
def sectorRead (bs : List Byte) (poolId seq : Nat) : Option Sector :=
  if leAt bs 0 4 = 0x4C434F4D ∧ leAt bs 4 2 = 1 ∧ leAt bs 16 8 = poolId ∧ leAt bs 8 8 = seq ∧ sealOk bs then
    some { ckind := leAt bs 6 1, vol := leAt bs 7 1, seq := seq, cmdKey := leAt bs 24 8, fwdKey := leAt bs 32 8,
           ents := (List.range (min 64 (leAt bs 48 2))).map (fun i =>
             (leAt bs (128 + 24 * i) 8, leAt bs (136 + 24 * i) 4, leAt bs (144 + 24 * i) 8)),
           recFirst := leAt bs 56 8, recLast := leAt bs 64 8, chain := sub bs 72 48, body := sub bs 128 32 }
  else none
def sectorSlot (seq : Nat) : Nat := 2 + seq % commitLog
/-- Join single blocks into runs that rise together: entries of a sector. -/
def joinRuns : List (Nat × Nat) → List (Nat × Nat × Nat)
  | [] => []
  | (l, p) :: r =>
    match joinRuns r with
    | (l', n, p') :: t => if l' = l + 1 ∧ p' = p + 1 then (l, n + 1, p) :: t else (l, 1, p) :: (l', n, p') :: t
    | [] => [(l, 1, p)]

/-! ## Log pages (R348) -/

def recordBytes (num flags : Nat) (chain payload : List Byte) : List Byte :=
  natLE 8 num ++ natLE 2 payload.length ++ natLE 2 flags ++ natLE 4 0 ++ sub chain 0 48 ++ payload
/-- CHAIN of a record. -/
def chainNext (prev : List Byte) (num : Nat) (payload : List Byte) : List Byte :=
  sha384 (sub prev 0 48 ++ natLE 8 num ++ natLE 2 payload.length ++ payload)
/-- A page that holds records. -/
def pageBytes (rs : List GRec) : List Byte :=
  let body := rs.flatMap (·.bytes)
  sub (natLE 8 ((rs.head?.map (·.num)).getD 0) ++ natLE 2 rs.length ++ natLE 2 body.length ++ natLE 4 0 ++ body) 0 4096
/-- Records on a page's bytes after its header: `n` of them. -/
def pageRecs (page : Nat) : Nat → List Byte → List GRec
  | 0, _ => []
  | n + 1, bs =>
    let len := 64 + leAt bs 8 2
    ⟨leAt bs 0 8, page, sub bs 16 48, sub bs 0 len, 0⟩ :: pageRecs page n (bs.drop len)
def readPage (page : Nat) (bs : List Byte) : List GRec := pageRecs page (leAt bs 8 2) (bs.drop 16)

/-! ## The effect of a commit (R340, R346, R348, R351, R355, R363) -/

/-- Block bytes on the first drive in service. -/
def blockAt (s : State) (p : Nat) : List Byte :=
  match inService s with
  | d :: _ => mreads (tgetD s.led.drives d {}).mem (4096 * p) 4096
  | [] => List.replicate 4096 0#8
/-- The blocks of an entry, logical and physical. -/
def entBlocks (e : Nat × Nat × Nat) : List (Nat × Nat) := (List.range e.2.1).map (fun i => (e.1 + i, e.2.2 + i))
/-- A volume after a commit; `page` reads a block. -/
def applySector (page : Nat → List Byte) (v : VolP) (c : Sector) : VolP :=
  let v := { v with lastSeq := c.seq }
  let blocks := (c.ents.filter (fun e => e.2.2 != allOnes)).flatMap entBlocks
  let mapped := blocks.foldl (fun m b => tset m b.1 b.2) v.map
  let unmap := fun (m : Tab Nat) => c.ents.foldl (fun m e =>
    if e.2.2 = allOnes then m.filter (fun b => ! (decide (e.1 ≤ b.1) && decide (b.1 < e.1 + e.2.1))) else m) m
  match c.ckind with
  | 1 => { v with map := mapped }
  | 2 =>
    if v.kind = 2 then
      let m := unmap v.map
      { v with map := m, firstRec := c.recFirst, trimChain := c.chain, pages := v.pages.filter (fun p => (tget m p.1).isSome) }
    else { v with map := unmap v.map }
  | 3 => { v with map := mapped, nextRec := c.recLast + 1, headChain := c.chain, appended := true,
                  pages := blocks.foldl (fun t b => let bs := page b.2; tset t b.1 (leAt bs 0 8, leAt bs 8 2)) v.pages }
  | 4 =>
    let modes := leAt c.body 3 1
    let base := { v with policy := leAt c.body 2 1, omode := modes % 4, ovl := bitOf modes 2, peerVol := leAt c.body 4 1,
                         groupUs := leAt c.body 5 1 }
    if bitOf modes 3 then { base with body := c.body.take 3 ++ natLE 1 (modes % 8) ++ c.body.drop 4 }
    else { base with kind := leAt c.body 1 1, nblocks := leAt c.body 8 8, body := c.body, map := [], genesis := c.chain,
                     firstRec := 0, nextRec := 0, headChain := c.chain, trimChain := c.chain, pages := [], appended := false }
  | _ => { v with map := [], pages := [], firstRec := v.nextRec, trimChain := v.headChain }
/-- Page and used bytes where the next record of a volume goes, and the records of its tail page. -/
def logTail (page : Nat → List Byte) (v : VolP) : Nat × Nat × List GRec :=
  match v.pages.getLast? with
  | some (k, _) =>
    let rs := readPage k (page ((tget v.map k).getD 0))
    (k, ((rs.map (·.bytes.length)).foldl (· + ·) 0), rs)
  | none => (0, 0, [])
/-- A volume at rest: its assigned records are its committed ones. -/
def restVol (page : Nat → List Byte) (old : LVol) (p : VolP) : LVol :=
  let t := logTail page p
  { old with p := p, recBase := p.nextRec, chainBase := p.headChain, pageBase := t.1, usedBase := t.2.1, tail := t.2.2, opened := [] }

/-! ## Allocation (R346, R358, R360) -/

/-- The `n` lowest blocks from `b` on that are not in the two lists. -/
def allocFrom (used retired : List Nat) (lim : Nat) : Nat → Nat → Nat → List Nat
  | 0, _, _ => []
  | fuel + 1, n, b =>
    if n = 0 ∨ b ≥ lim then []
    else if used.contains b || retired.contains b then allocFrom used retired lim fuel n (b + 1)
    else b :: allocFrom used retired lim fuel (n - 1) (b + 1)
/-- Take `n` fresh data-area blocks. -/
def allocBlocks (s : State) (n : Nat) : List Nat × State :=
  match s.led.pool with
  | none => ([], s)
  | some q =>
    let bs := allocFrom s.led.used s.led.retired q.blocks (n + s.led.used.length + s.led.retired.length) n (dataBase q)
    (bs, led s (fun l => { l with used := bs ++ l.used }))
def freeBlocks (s : State) (bs : List Nat) : State := led s (fun l => { l with used := l.used.filter (fun b => ! bs.contains b) })
/-- A drive leaves the pool (R360); DEGRADED follows from the drives' states. -/
def retireDrive (s : State) (d : Nat) : State :=
  let s := led s (fun l => { l with drives := tupd l.drives d (fun x => { x with st := 3 }) })
  s
/-- Replace a failing block from the spare area; with none left the failing drive is retired. -/
def spareBlock (s : State) (d : Nat) : Option Nat × State :=
  match s.led.pool with
  | none => (none, s)
  | some q =>
    if s.led.spareUsed < spareCount q then
      let b := spareBase q + s.led.spareUsed
      (some b, led s (fun l => { l with spareUsed := l.spareUsed + 1, used := b :: l.used }))
    else (none, retireDrive s d)
/-- The place of a metadata block, through REMAP. -/
def metaBlock (s : State) (b : Nat) : Nat :=
  match s.led.pool with
  | some q => ((q.remap.find? (fun r => r.1 == b)).map (·.2)).getD b
  | none => b
/-- Remap a metadata block that failed twice. -/
def remapMeta (s : State) (d b : Nat) : State :=
  let z := spareBlock s d
  match z.1 with
  | some r => superMod z.2 (fun q => { q with remap := (q.remap.filter (fun x => x.1 != b) ++ [(b, r)]).take 128 })
  | none => z.2

/-! ## Snapshots (R366) -/

/-- The snapshot of the map as of the latest durable SEQ. -/
def takeSnap (s : State) : Snap :=
  { seq := s.led.durSeq, vols := s.led.vols.map (fun v => (v.1, v.2.p)),
    rp := s.led.rp.filter (fun e => e.cmd.isNone && e.committed), floors := s.led.floors, fwdSeq := s.led.fwdSeq }
/-- Begin a snapshot unless one is being written. -/
def beginSnap (s : State) : State := if s.led.snap.isSome ∨ s.led.pool.isNone then s else led s (fun l => { l with snap := some (takeSnap s) })

/-! ## Recovery (R365) -/

/-- The superblock in force on a drive. -/
def driveSuper (d : Drive) : Option Pool :=
  match superRead (mreads d.mem 0 4096), superRead (mreads d.mem 4096 4096) with
  | some a, some b => if a.gen < b.gen then some b else some a
  | some a, none => some a
  | none, b => b
/-- Valid commit sectors of a drive from `seq` upward. -/
def driveSectors (d : Drive) (q : Pool) : Nat → Nat → List Sector
  | 0, _ => []
  | n + 1, seq =>
    let blk := ((q.remap.find? (fun r => r.1 == sectorSlot seq)).map (·.2)).getD (sectorSlot seq)
    match sectorRead (mreads d.mem (4096 * blk) 4096) q.poolId seq with
    | some c => c :: driveSectors d q n (seq + 1)
    | none => []
/-- The replay entry of a committed sector. -/
def sectorEntry (c : Sector) : List REnt :=
  if c.cmdKey = 0 then []
  else [{ init := fld c.cmdKey 63 48, seq := fld c.cmdKey 47 0, src := none,
          lcmd := ([0, 2, 5, 3, 0x106, 0x105][c.ckind]?).getD 0, vol := c.vol, cmd := none, committed := true }]
/-- Is a newly attached drive larger, within the 8 TiB limit, than the drive it replaces (R501)? Where the place held no known drive, the
pool's blocks per drive stand for it (DEDUCED, assumption 20). -/
def Drive.tooLarge (d : Drive) (poolBlocks : Nat) : Bool :=
  decide (min (2 ^ 31) (if d.replaces = 0 then poolBlocks else d.replaces) < min (2 ^ 31) d.blocks)
/-- Recover the pool: the state that serves from here on, volatile parts empty. -/
def ledRecover (s : State) : State :=
  let cand := s.led.drives.filter (fun d => d.2.ok)
  let supers := cand.filterMap (fun d => (driveSuper d.2).map (fun q => (d.1, d.2, q)))
  let setSt := fun (f : Nat → Drive → Nat) => s.led.drives.map (fun d => (d.1, { d.2 with st := f d.1 d.2 }))
  let conflict := match supers with
    | [a, b] => a.2.2.poolId != b.2.2.poolId
    | _ => false
  match supers with
  | [] => led s (fun _ => { drives := setSt (fun _ d => if d.ok then 1 else if d.blocks = 0 then 0 else 4) })
  | a :: rest =>
    if conflict then
      led s (fun _ => { drives := setSt (fun _ d => if d.ok then 1 else if d.blocks = 0 then 0 else 4), conflict := true })
    else
      let q := rest.foldl (fun q x => if q.gen < x.2.2.gen then x.2.2 else q) a.2.2
      let best := supers.foldl (fun (b : List Sector × Drive) x =>
        let l := driveSectors x.2.1 q commitLog (q.snapSeq + 1)
        if b.1.length < l.length then (l, x.2.1) else b) ([], a.2.1)
      let snap := (tget best.2.snaps q.snapArea).getD ⟨0, [], [], [], 0⟩
      let page := fun (b : Nat) => mreads best.2.mem (4096 * b) 4096
      let vols := best.1.foldl (fun t c => tmod t c.vol {} (fun v => applySector page v c)) snap.vols
      let lvols : Tab LVol := vols.map (fun v => (v.1, restVol page { busy := q.opKind != 0 && q.opVol == v.1 } v.2))
      let mapped := vols.flatMap (fun v => v.2.map.map (·.2))
      let fresh := best.1.flatMap sectorEntry
      let rp := snap.rp.filter (fun e => ! fresh.any (fun f => f.init == e.init && f.seq == e.seq)) ++ fresh
      let drv := setSt (fun k d => if ! d.ok then (if d.blocks = 0 then 0 else 4) else if supers.any (fun x => x.1 == k) then 1
        else if d.tooLarge q.blocks then 4 else 3)
      let drv := drv.map (fun d => if d.2.st = 1 then (d.1, { d.2 with
        mem := best.1.foldl (fun m c => mcopy m best.2.mem (4096 * sectorSlot c.seq) (4096 * sectorSlot c.seq) 4096) d.2.mem }) else d)
      let last := q.snapSeq + best.1.length
      led s (fun _ =>
        { drives := drv, pool := some q, vols := lvols, used := mapped,
          spareUsed := (mapped.filter (fun b => decide (b < dataBase q))).length + q.remap.length,
          nextSeq := last + 1, durSeq := last, rp := rp, floors := snap.floors,
          fwdSeq := best.1.foldl (fun m c => max m (fld c.fwdKey 47 0)) snap.fwdSeq,
          op := if q.opKind = 0 then none
            else some { kind := q.opKind, vol := q.opVol, item := none, key := q.opKey, body := [],
                        st := if q.opKind = 2 then .waiting else .running, doneGib := q.opDone } })

end Sys2Proof.Machine
end

