-- ==== Sys2Proof/Machine/Ledger.lean ====
section
/-! DEFINITION. The Ledger engine: commands, their order, commits, durability and forwarding (spec/16_ledger_store.md, R342 to
R364). Data moves within the step that needs it (assumption 7). -/

namespace Sys2Proof.Machine
open Sys2Proof

def getCmd (s : State) (c : Nat) : Option LCmd := tget s.led.cmds c
def setCmd (s : State) (c : Nat) (v : LCmd) : State := led s (fun l => { l with cmds := tset l.cmds c v })
def modCmd (s : State) (c : Nat) (f : LCmd → LCmd) : State := led s (fun l => { l with cmds := tupd l.cmds c f })
def modCu (s : State) (u : Nat) (f : CU → CU) : State := led s (fun l => { l with cus := tupd l.cus u f })

/-! ## Freezes (R361) and the replay table (R357) -/

def volFreezes (st : Nat) : Bool := st == St.ledgerMedia || st == St.ledgerChain || st == St.ledgerPeerFail
def freezeVol (s : State) (v st : Nat) : State :=
  modVol s v (fun x => if x.frozen then x else { x with frozen := true, errStatus := st, freezes := satAdd 32 x.freezes 1 })
/-- Freeze what a failing command freezes: its volume, or every volume. -/
def freezeFor (s : State) (v st : Nat) : State :=
  if st = St.ledgerMedia then (s.led.vols.filter (fun x => x.2.p.kind != 0)).foldl (fun s x => freezeVol s x.1 st) s
  else if volFreezes st then freezeVol s v st else s
/-- Source code of an initiator: the function, or 256 and more for a Bridy port. -/
def srcMatch (e : Option Nat) (src : Nat) : Bool := e.all (fun x => x == src)
def ledInit (s : State) (i : Nat) : Nat := regGet s Reg.LED_INIT i
/-- Is there a valid slot of the source code and INIT (R357)? -/
def initSlot (s : State) (src init : Nat) : Bool :=
  (List.range 32).any (fun i =>
    let w := ledInit s i
    bitOf w 31 && fld w 15 0 == init && (if src < 256 then fld w 30 29 == 0 && fld w 23 16 == src else fld w 30 29 == src - 255))
def rpFind (s : State) (src key : Nat) : Option REnt :=
  s.led.rp.find? (fun e => e.init == fld key 63 48 && e.seq == fld key 47 0 && srcMatch e.src src)
def rpFloor (s : State) (src init : Nat) : Nat :=
  (s.led.floors.filter (fun f => f.1 == init && srcMatch f.2.1 src)).foldl (fun m f => max m f.2.2) 0
/-- What the replay check finds. -/
inductive RpCase where
  | go | fail (st : Nat) | attach (cmd : Nat) | stored (e : REnt)
deriving DecidableEq, Repr
def rpCase (s : State) (src key lcmd vol : Nat) : RpCase :=
  match rpFind s src key with
  | none => if fld key 47 0 ≤ rpFloor s src (fld key 63 48) then .fail St.ledgerStale else .go
  | some e =>
    if e.lcmd ≠ lcmd ∨ e.vol ≠ vol then .fail St.ledgerConflict
    else match e.cmd with
      | some c => .attach c
      | none => .stored e
/-- Make an entry; a full slot gives up its oldest completed entry, and the floor rises. -/
def rpMake (s : State) (src key lcmd vol cmd : Nat) : State :=
  let init := fld key 63 48
  let mine := s.led.rp.filter (fun e => e.init == init && srcMatch e.src src)
  let s := if mine.length < 65536 then s
    else match mine.find? (fun e => e.cmd.isNone) with
      | some e => led s (fun l => { l with
          rp := l.rp.erase e,
          floors := l.floors.filter (fun f => ! (f.1 == init && f.2.1 == some src)) ++ [(init, some src, max (rpFloor s src init) e.seq)] })
      | none => s
  led s (fun l => { l with rp := l.rp ++ [{ init := init, seq := fld key 47 0, src := some src, lcmd := lcmd, vol := vol, cmd := some cmd }] })
/-- Store the response of a command, as the newest completed entry. -/
def rpDone (s : State) (c st r0 r1 : Nat) (committed : Bool) : State :=
  led s (fun l =>
    let mine := l.rp.filter (fun e => e.cmd == some c)
    { l with rp := l.rp.filter (fun e => ! (e.cmd == some c))
        ++ mine.map (fun e => { e with cmd := none, status := st, r0 := r0, r1 := r1, committed := committed }) })
def countDup (s : State) : State := led s (fun l => { l with dups := satAdd 16 l.dups 1 })

/-! ## The end of a command (R344, R345) -/

/-- A RSP to the peer. -/
def sendRsp (s : State) (n key st r0 r1 : Nat) : State :=
  sendPacket s n 0 4 (natBE 8 key ++ natBE 2 st ++ natBE 6 0 ++ natBE 8 r0 ++ natBE 8 r1)
/-- A host item is at its commit point: the deadline check, its phase, and its flow moves on (R165). -/
def ledCommitItem (s : State) (id : Nat) : State :=
  match getItem s id with
  | some it =>
    if it.phase = .running ∨ it.phase = .queued then
      schedule (leaveFlow (modItem (deadlineCheck s it (now s)) id (fun x => { x with phase := .committed })) it.fn it.flowKey id)
    else s
  | none => s
/-- A host item of the engine ends. A command that commits nothing is at its commit point only now. -/
def ledItemEnd (s : State) (id st r0 r1 : Nat) (dup : Bool) : State :=
  let s := if dup then modItem s id (fun x => { x with isDup := true }) else s
  if st ≠ 0 then engineFail s id st r0 r1
  else match getItem s id with
    | some it =>
      if it.phase = .committed then closeItem (modItem s id (fun x => { x with r0 := r0, r1 := r1 })) id
      else engineDone s id r0 r1
    | none => s
/-- Answer a command's issuer and its duplicates. -/
def ledAnswer (s : State) (c : LCmd) (st r0 r1 : Nat) : State :=
  let s := match c.src with
    | .item id => ledItemEnd s id st r0 r1 false
    | .peer _ =>
      let s := sendRsp s c.port (c.key.getD 0) st r0 r1
      (c.preGrant.map (issuePre s)).getD s
    | .standing _ => s
  c.dups.foldl (fun s d => ledItemEnd s d st r0 r1 true) s
/-- End a command: its slot is freed, its response stored, its issuer answered, and what it freezes is frozen. -/
def endCmd (s : State) (k st r0 r1 : Nat) : State :=
  match getCmd s k with
  | none => s
  | some c =>
    let s := led s (fun l => { l with cmds := terase l.cmds k })
    let s := rpDone s k st r0 r1 (st == 0 && (c.lcmd == 2 || c.lcmd == 3 || c.lcmd == 5))
    ledAnswer (if st = 0 then s else freezeFor s c.vol st) c st r0 r1
/-- End a command with success and results that no rule gives. -/
def endCmdFree (s : State) (k : Nat) : State :=
  let a := freeRes s
  let b := freeRes a.2
  endCmd b.2 k 0 a.1 b.1

/-! ## Order (R352 to R354) -/

def isWr (c : LCmd) : Bool := c.lcmd == 2 || c.lcmd == 5
/-- Do two commands overlap: their ranges meet and one of them writes or trims? -/
def overlaps (a b : LCmd) : Bool :=
  (a.lcmd == 1 || isWr a) && (b.lcmd == 1 || isWr b) && (isWr a || isWr b)
  && decide (a.addr < b.addr + b.count) && decide (b.addr < a.addr + a.count)
/-- Commands of the volume accepted before `k`. -/
def earlier (s : State) (k vol : Nat) : List (Nat × LCmd) := s.led.cmds.filter (fun p => decide (p.1 < k) && p.2.vol == vol)
/-- Page of the record that would follow the open group, and whether the group has room for it. -/
def nextPlace (v : LVol) (len : Nat) : Nat × Nat :=
  let z := v.opened.foldl (fun (_ : Nat × Nat) r => (r.page, 0)) (v.pageBase, v.usedBase)
  let used := if v.opened.isEmpty then v.usedBase
    else (((v.tail ++ v.opened).filter (fun r => r.page == z.1)).map (·.bytes.length)).foldl (· + ·) 0
  if used + 64 + len > 4080 then (z.1 + 1, 0) else (z.1, used)
/-- Pages that the open group has begun. -/
def openPages (v : LVol) (page : Nat) : Nat := page + 1 - ((v.opened.head?.map (·.page)).getD page)
/-- Does a record of `len` bytes still join the open group (R349)? -/
def groupRoom (v : LVol) (len : Nat) : Bool := decide (openPages v (nextPlace v len).1 ≤ 64)
/-- First page that holds live records. -/
def firstPage (v : LVol) : Nat := (v.p.pages.head?.map (·.1)).getD 0
/-- Would a record of `len` bytes need a page beyond NBLOCKS pages of live records (R351)? -/
def logFull (v : LVol) (len : Nat) : Bool := decide ((nextPlace v len).1 + 1 - firstPage v > v.p.nblocks)
/-- Is an ACCEPTED command admitted (R353, R354)? -/
def admitted (s : State) (k : Nat) (c : LCmd) : Bool :=
  let v := getVol s c.vol
  let es := earlier s k c.vol
  ! v.frozen && ! (c.lordered && ! es.isEmpty) && ! es.any (fun p => p.2.lordered)
  && ! (v.p.ovl && es.any (fun p => overlaps p.2 c))
  && ! (c.lcmd == 3 && (es.any (fun p => p.2.lcmd == 3 && p.2.st == .accepted)
        || (match c.src with
          | .peer _ => false
          | _ => ! groupRoom v c.data.length)))
  && ! (c.lcmd == 5 && v.p.kind == 2 && decide (v.p.nextRec < c.addr))

/-! ## Records (R348) -/

/-- Assign the next number, page and CHAIN to a record and put it into the open group. -/
def putRec (s : State) (vol k flags : Nat) (payload : List Byte) : State :=
  let v := getVol s vol
  let num := v.recBase + v.opened.length
  let ch := chainNext ((v.opened.getLast?.map (·.chain)).getD v.chainBase) num payload
  let pl := nextPlace v payload.length
  modVol s vol (fun x => { x with
    opened := x.opened ++ [⟨num, pl.1, ch, recordBytes num flags ch payload, k⟩],
    openAt := if x.opened.isEmpty then now s else x.openAt })
/-- Take the records of some commands out of the open group; those after them are assigned anew. -/
def dropRecs (s : State) (vol : Nat) (gone : Nat → Bool) : State :=
  let v := getVol s vol
  let keep := v.opened.filter (fun r => ! gone r.cmd)
  let t := v.openAt
  let s := modVol s vol (fun x => { x with opened := [] })
  let s := keep.foldl (fun s r => putRec s vol r.cmd (leAt r.bytes 10 2) (r.bytes.drop 64)) s
  modVol s vol (fun x => { x with openAt := t })

/-! ## Forwarding (R355, R374 to R376, R380) -/

/-- The port a forwarded command takes: port 0 while it is UP, else port 1; `not` the port to avoid if the other is UP. -/
def fwdPort (s : State) : Nat := if (bryPort s 0).st = BSt.up then 0 else 1
/-- DATA packets of a forwarded command. -/
def sendData (s : State) (n key : Nat) (data : List Byte) : State :=
  ((chunks 8192 (data.length / 8192 + 1) data).zipIdx).foldl (fun s x =>
    sendPacket s n 0 3 (natBE 8 key ++ natBE 4 (8192 * x.2) ++ natBE 4 x.1.length ++ x.1)) s
/-- Send a forwarded command on a port: its CMD, and its DATA when a pre-grant is at hand. -/
def sendFwd (s : State) (f : Fwd) (n : Nat) : State :=
  let need := ! f.data.isEmpty
  let g := if need then (bryPort s n).preGrants.head? else none
  let s := if g.isSome then modBry s n (fun p => { p with preGrants := p.preGrants.drop 1 }) else s
  let s := sendPacket s n 0 1 (natBE 8 f.key ++ natBE 1 f.lcmd ++ natBE 1 f.vol ++ natBE 1 (b2n f.lordered) ++ natBE 1 0
    ++ natBE 4 (g.getD 0xFFFFFFFF) ++ natBE 4 f.data.length ++ natBE 4 f.count ++ natBE 8 f.addr ++ natBE 8 f.recFirst
    ++ sub f.prevChain 0 48 ++ natBE 8 0)
  if g.isSome then sendData s n f.key f.data else s
/-- The host item that issued a command. -/
def cmdItem (s : State) (k : Nat) : Option Nat :=
  match getCmd s k with
  | some c => (match c.src with
    | .item id => some id
    | _ => none)
  | none => none
/-- May an item of the engine be at its commit point: it is already, or its gate lets it (R300, R303, R345)? -/
def ledGate (s : State) (id : Nat) : Bool := (getItem s id).all (fun it => it.phase == .committed || gateOpen s id it)
/-- The same of the items that issued some commands. -/
def cmdsGate (s : State) (ks : List Nat) : Bool := ks.all (fun k => (cmdItem s k).all (ledGate s))
/-- Send the CMD of a forwarded unit: it takes the next key, and its items are at their commit point; a FLUSH commits nothing
(R345). -/
def fwdNow (s : State) (u : Nat) (c : CU) (f : Fwd) : State :=
  let seq := s.led.fwdSeq + 1
  let f := { f with key := rfld s Reg.LED_PEER 0 15 0 * 2 ^ 48 + seq, port := fwdPort s, sentAt := now s }
  let s := led s (fun l => { l with fwdSeq := seq })
  let s := modCu s u (fun c => { c with fwd := some f, toSend := none })
  let s := if c.ckind = 0 then s else c.cmds.foldl (fun s k => ((cmdItem s k).map (ledCommitItem s)).getD s) s
  sendFwd s f f.port
/-- Forward a unit's command when the volume's policy asks for it: its CMD is sent once its items' commit gates let it. -/
def forward (s : State) (u : Nat) (f : Fwd) : State :=
  match tget s.led.cus u with
  | none => s
  | some c => if (getVol s c.vol).p.policy = 0 then s else modCu s u (fun c => { c with toSend := some f })
def addCu (s : State) (c : CU) : Nat × State :=
  (s.led.nextCu, led s (fun l => { l with cus := tset l.cus l.nextCu c, nextCu := l.nextCu + 1 }))

/-- How far received ranges reach from an offset. -/
def reach (got : List (Nat × Nat)) : Nat → Nat → Nat
  | 0, p => p
  | n + 1, p => match got.find? (fun g => decide (g.1 ≤ p) && decide (p < g.1 + g.2)) with
    | some g => reach got n (g.1 + g.2)
    | none => p
/-- Has all of a peer command's declared data arrived? -/
def gotAll (c : LCmd) : Bool := decide (c.decl ≤ reach c.got (c.got.length + 1) 0)

/-! ## Starting a QUEUED command (R344, R346, R349, R354) -/

/-- Does a READ wait: an earlier overlapping write or trim has no staging or unit yet (R352, R354)? -/
def readWaits (s : State) (k : Nat) (c : LCmd) : Bool :=
  c.lcmd == 1 && (earlier s k c.vol).any (fun p => isWr p.2 && overlaps p.2 c && p.2.cu.isNone)
/-- Bytes of a block for a READ: the staging of the latest earlier accepted, uncommitted write under WBUF, zeros where that is a TRIM, or
the drive. -/
def readBlock (s : State) (k : Nat) (c : LCmd) (b : Nat) : List Byte × Option Nat × Option Nat :=
  let v := getVol s c.vol
  let ws := (earlier s k c.vol).filter (fun p => isWr p.2 && decide (p.2.addr ≤ b) && decide (b < p.2.addr + p.2.count))
  match ws.getLast? with
  | some (_, w) => (if w.lcmd = 2 then sub w.data (4096 * (b - w.addr)) 4096 else List.replicate 4096 0#8, w.cu, none)
  | none => match tget v.p.map b with
    | some p => (blockAt s p, none, some p)
    | none => (List.replicate 4096 0#8, none, none)
/-- Pairs of block and physical place for a WRITE. -/
def placeBlocks (addr : Nat) (bs : List Nat) : List (Nat × Nat) := (bs.zipIdx).map (fun x => (addr + x.2, x.1))
/-- A WRITE's data is in staging: its blocks are taken and written, and it is forwarded. -/
def startWrite (s : State) (k : Nat) (c : LCmd) (data : List Byte) : State :=
  let z := allocBlocks s c.count
  let u : CU := { vol := c.vol, ckind := 1, cmds := [k], st := .writing, ents := joinRuns (placeBlocks c.addr z.1),
                  data := (z.1.zipIdx).map (fun x => (x.1, sub data (4096 * x.2) 4096)), cmdKey := c.key.getD 0, order := k }
  let w := addCu z.2 u
  let s := setCmd w.2 k { c with st := .writing, data := data, cu := some w.1 }
  forward s w.1 ⟨0, 2, (getVol s c.vol).p.peerVol, c.lordered, c.count, c.addr, 0, [], data, 0, 0, 0, none⟩
/-- A TRIM has no data: its unit waits for its commit sector. -/
def startTrim (s : State) (k : Nat) (c : LCmd) : State :=
  let v := getVol s c.vol
  let log := v.p.kind = 2
  let gone := v.p.pages.filter (fun p => decide (p.2.1 + p.2.2 ≤ c.addr))
  let ent := if log then (match gone.head?, gone.getLast? with
      | some a, some b => [(a.1, b.1 + 1 - a.1, allOnes)]
      | _, _ => [])
    else [(c.addr, c.count, allOnes)]
  let recs := v.p.pages.flatMap (fun p => readPage p.1 (blockAt s ((tget v.p.map p.1).getD 0)))
  let ch := ((recs.find? (fun r => r.num + 1 == c.addr)).map (·.chain)).getD (if c.addr = v.p.firstRec then v.p.trimChain else v.p.headChain)
  let u : CU := { vol := c.vol, ckind := 2, cmds := [k], st := .ready, ents := ent, cmdKey := c.key.getD 0, order := k,
                  recFirst := if log then c.addr else 0, chain := if log then ch else [] }
  let w := addCu s u
  let s := setCmd w.2 k { c with st := .writing, cu := some w.1 }
  forward s w.1 ⟨0, 5, v.p.peerVol, c.lordered, c.count, c.addr, 0, [], [], 0, 0, 0, none⟩
/-- Records of the open group whose data is in staging, from its first on. -/
def groupReady (s : State) (vol : Nat) : List GRec :=
  (getVol s vol).opened.takeWhile (fun r => (getCmd s r.cmd).all (fun c => c.st == .writing))
/-- Close the open group (R349): the pages it filled and its last page go to fresh blocks. Records whose data is still on its way
begin the next group. -/
def closeGroup (s : State) (vol : Nat) : State :=
  let v := getVol s vol
  let mine := groupReady s vol
  match mine.head?, mine.getLast? with
  | some a, some b =>
    let all := v.tail ++ mine
    let pages := (List.range (b.page + 1 - a.page)).map (a.page + ·)
    let z := allocBlocks s pages.length
    let pl := pages.zip z.1
    let cmds := mine.map (·.cmd)
    let keys := cmds.filterMap (fun k => (getCmd s k).bind (·.key))
    let u : CU := { vol := vol, ckind := 3, cmds := cmds, st := .writing, ents := joinRuns pl,
                    data := pl.map (fun x => (x.2, pageBytes (all.filter (fun r => r.page == x.1)))),
                    recFirst := a.num, recLast := b.num, chain := b.chain, cmdKey := (keys.getLast?).getD 0,
                    recs := mine, before := (v.chainBase, v.pageBase, v.usedBase, v.tail),
                    order := (cmds.head?).getD 0 }
    let w := addCu z.2 u
    let s := cmds.foldl (fun s k => modCmd s k (fun c => { c with st := .writing, cu := some w.1 })) w.2
    let prev := v.chainBase
    let s := modVol s vol (fun x => { x with
      recBase := b.num + 1, chainBase := b.chain, pageBase := b.page, opened := x.opened.drop mine.length, openAt := now s,
      tail := all.filter (fun r => r.page == b.page),
      usedBase := (((all.filter (fun r => r.page == b.page)).map (·.bytes.length)).foldl (· + ·) 0) })
    forward s w.1 ⟨0, 3, v.p.peerVol, false, mine.length, 0, a.num, prev, mine.flatMap (·.bytes), 0, 0, 0, none⟩
  | _, _ => s
/-- A forwarded APPEND arrives whole at the target: it adopts a GENESIS, is refused, or is a group of its own (R355). -/
def peerAppend (s : State) (k : Nat) (c : LCmd) : State :=
  let s := closeGroup s c.vol
  let v := getVol s c.vol
  let adopt := v.recBase = 0 ∧ ! v.p.appended ∧ c.addr = 0
  if ! adopt ∧ (c.addr ≠ v.recBase ∨ c.prevChain ≠ sub v.chainBase 0 48) then endCmd s k St.ledgerChain 0 0
  else
    let s := if adopt ∧ c.prevChain ≠ sub v.chainBase 0 48 then
        let u : CU := { vol := c.vol, ckind := 4, cmds := [], st := .ready, chain := c.prevChain, body := v.p.body, order := k }
        modVol (addCu s u).2 c.vol (fun x => { x with chainBase := c.prevChain })
      else s
    let recs := pageRecs 0 c.count c.data
    if recs.any (fun r => decide (r.bytes.length < 64)) then endCmd s k St.ledgerChain 0 0
    else
      let full := recs.foldl (fun s r => putRec s c.vol k (leAt r.bytes 10 2) (r.bytes.drop 64)) (setCmd s k { c with st := .writing })
      let v := getVol full c.vol
      if v.opened.any (fun r => decide (r.page + 1 - firstPage v > v.p.nblocks)) then endCmd s k St.ledgerLogFull 0 0
      else closeGroup full c.vol
/-- The data of a host item's WRITE or APPEND goes to staging by the DMA engine. -/
def stageData (s : State) (k : Nat) (c : LCmd) : State :=
  match c.src with
  | .item id => dataXfer (setCmd s k { c with st := .staging }) id (some k) c.bufHost (if c.lcmd = 2 then 4096 * c.count else c.data.length)
  | _ => s
/-- Has the DMA engine data of command `k` still to carry? -/
def cmdMoving (s : State) (k : Nat) : Bool :=
  let mine := fun (w : XferFor) => match w with
    | .data _ c => c == some k
    | _ => false
  s.dma.wait.any (fun x => mine x.who) || s.dma.chan.any (fun c => mine c.2.who)
/-- Are the data of all records of the open group in staging? -/
def groupStaged (s : State) (vol : Nat) : Bool :=
  (getVol s vol).opened.all (fun r => (getCmd s r.cmd).all (fun c => c.st == .writing))
/-- Is a command's data in staging? A forwarded group also waits for the records before it. -/
def staged (s : State) (k : Nat) (c : LCmd) : Bool :=
  match c.src with
  | .peer _ => gotAll c && (c.lcmd != 3 || groupStaged s c.vol)
  | .item _ => c.st == .staging && ! cmdMoving s k
  | .standing _ => true
/-- An ACCEPTED command enters QUEUED; an APPEND takes its record number and CHAIN then (R348), or finds the log full (R351). -/
def enqueueCmd (s : State) (k : Nat) (c : LCmd) : State :=
  let t := setCmd s k { c with st := .queued }
  match c.lcmd, c.src with
  | 3, .peer _ => t
  | 3, src =>
    if logFull (getVol s c.vol) c.data.length then endCmd s k St.ledgerLogFull 0 0
    else putRec t c.vol k (match src with
      | .standing _ => 1
      | _ => 0) c.data
  | _, _ => t
/-- Start a QUEUED command whose volume is not frozen; a WRITE or an APPEND goes through STAGING. -/
def startCmd (s : State) (k : Nat) (c : LCmd) : State :=
  let peer := match c.src with
    | .peer _ => true
    | _ => false
  match c.lcmd with
  | 1 =>
    let bs := (List.range c.count).map (fun i => readBlock s k c (c.addr + i))
    setCmd s k { c with st := .reading, data := bs.flatMap (·.1), deps := bs.filterMap (·.2.1) }
  | 2 =>
    if peer then (if gotAll c then startWrite s k c c.data else setCmd s k { c with st := .staging })
    else if ! staged s k c then stageData s k c
    else if ! c.bufHost ∧ poisonedIn s c.bufAddr (4096 * c.count) then endCmd s k St.dataPoisoned 0 0
    else startWrite (itemTouch s c.fn c.bufHost c.bufAddr (4096 * c.count)) k c (itemRead s c.bufHost c.bufAddr (4096 * c.count))
  | 3 =>
    if peer then (if staged s k c then peerAppend s k c else setCmd s k { c with st := .staging })
    else if ! staged s k c then stageData s k c
    else setCmd s k { c with st := .writing }
  | 4 =>
    let w := addCu s { vol := c.vol, ckind := 0, cmds := [k], st := .durable, order := k }
    let s := setCmd w.2 k { c with st := .committing, cu := some w.1 }
    forward s w.1 ⟨0, 4, (getVol s c.vol).p.peerVol, c.lordered, 0, 0, 0, [], [], 0, 0, 0, none⟩
  | 5 => startTrim s k c
  | _ => setCmd s k { c with st := .reading }

/-! ## Commits (R346, R347, R366) -/

/-- May a unit's commit sector be issued: earlier overlapping writes, or earlier writes under READ_PASS, and earlier units of a
log, have been issued, and its items' commit gates let it? -/
def mayIssue (s : State) (u : Nat) (c : CU) : Bool :=
  let v := getVol s c.vol
  c.toSend.isNone && cmdsGate s c.cmds && (! c.isOp || (s.led.op.bind (·.item)).all (ledGate s)) &&
  let mine := (c.cmds.head?).bind (getCmd s)
  let before := s.led.cus.filter (fun p => p.2.vol == c.vol && decide (p.1 ≠ u) && (p.2.st == .writing || p.2.st == .ready)
    && (decide (p.2.order < c.order) || (p.2.order == c.order && decide (p.1 < u))))
  if v.p.kind = 2 ∨ c.ckind ≥ 4 then before.isEmpty
  else
    let es := (earlier s c.order c.vol).filter (fun p => isWr p.2 && (p.2.st == .accepted || p.2.st == .queued || p.2.st == .staging
      || (p.2.st == .writing && (p.2.cu.bind (tget s.led.cus)).any (fun x => x.st == .writing || x.st == .ready))))
    ! es.any (fun p => v.p.omode == 1 || mine.any (overlaps p.2))
def cusInFlight (s : State) : Nat := (s.led.cus.filter (fun p => p.2.st == .committing)).length
/-- The ring slot of the next SEQ is still needed by recovery (R366). -/
def ringHeld (s : State) : Bool := s.led.pool.any (fun q => decide (q.snapSeq + commitLog < s.led.nextSeq))
/-- Issue a unit's commit sector: it takes the next SEQ, and its items are at their commit point (R345). -/
def issueCu (s : State) (u : Nat) (c : CU) : State :=
  let s := led s (fun l => { l with cus := tset l.cus u { c with st := .committing, seq := l.nextSeq, issuedAt := now s }, nextSeq := l.nextSeq + 1 })
  let s := c.cmds.foldl (fun s k =>
    let s := modCmd s k (fun x => { x with st := .committing })
    ((cmdItem s k).map (ledCommitItem s)).getD s) s
  if c.isOp then (match s.led.op.bind (·.item) with
    | some id => ledCommitItem s id
    | none => s)
  else s
/-- Has a unit met its volume's policy (R355)? -/
def policyMet (s : State) (c : CU) : Bool :=
  let rsp := c.toSend.isNone && c.fwd.all (fun f => f.done.any (fun d => d.1 == 0))
  let loc := c.st == .durable
  if (getVol s c.vol).p.policy = 1 ∧ c.fwd.isSome then rsp else loc && rsp
/-- Blocks that a sector unmaps or replaces. -/
def displaced (v : VolP) (c : Sector) : List Nat :=
  if c.ckind = 5 ∨ (c.ckind = 4 ∧ ! bitOf (leAt c.body 3 1) 3) then v.map.map (·.2)
  else c.ents.flatMap (fun e =>
    (v.map.filter (fun b => decide (e.1 ≤ b.1) && decide (b.1 < e.1 + e.2.1))).map (·.2))
def sectorOf (c : CU) : Sector :=
  ⟨c.ckind, c.vol, c.seq, c.cmdKey, (c.fwd.map (·.key)).getD 0, c.ents, c.recFirst, c.recLast, c.chain, c.body⟩
/-- A unit is locally durable: its map delta takes effect and the blocks it displaced are free (R346). -/
def makeDurable (s : State) (u : Nat) (c : CU) : State :=
  let x := sectorOf c
  let old := (getVol s c.vol).p
  let s := freeBlocks s (displaced old x)
  let p := applySector (blockAt s) old x
  let s := if c.ckind = 4 ∨ c.ckind = 5 then modVol s c.vol (fun v =>
      if c.ckind = 4 ∧ bitOf (leAt c.body 3 1) 3 then { v with p := p }
      else if c.cmds.isEmpty ∧ ! c.isOp then { v with p := p }
      else restVol (blockAt s) v p)
    else modVol s c.vol (fun v => { v with p := p })
  let s := led s (fun l => { l with cus := tset l.cus u { c with st := .durable }, durSeq := c.seq })
  if c.isOp then led s (fun l => { l with op := l.op.map (fun o => { o with st := .running }) }) else s
/-- Landed units become locally durable in SEQ order (R347), and a snapshot begins when the log has grown (R366). -/
def advanceDurable : Nat → State → State
  | 0, s => s
  | n + 1, s =>
    match s.led.cus.find? (fun p => p.2.st == .landed && p.2.seq == s.led.durSeq + 1) with
    | some (u, c) =>
      let s := makeDurable s u c
      let grown := s.led.pool.any (fun q => decide (q.snapSeq + 131072 ≤ s.led.durSeq))
      advanceDurable n (if grown then beginSnap s else s)
    | none => s

/-! ## What moves next -/

/-- Does a FLUSH see every earlier command of its volume ended, and every earlier record committed? -/
def flushMet (s : State) (k vol : Nat) : Bool :=
  (earlier s k vol).isEmpty && ! (getVol s vol).opened.any (fun r => decide (r.cmd < k))
/-- The command that stands in the open group or unit goes on or ends; none when it cannot. -/
def cmdMove (s : State) (k : Nat) (c : LCmd) : Option State :=
  match c.st with
  | .accepted => if admitted s k c then some (enqueueCmd s k c) else none
  | .queued => if (getVol s c.vol).frozen || readWaits s k c then none else some (startCmd s k c)
  | .staging => if staged s k c then some (startCmd s k c) else none
  | .dataDone =>
    if cmdMoving s k || c.deps.any (fun u => (tget s.led.cus u).any (fun x => x.st != .durable)) then none
    else some (match c.res with
      | some r => endCmd s k 0 r.1 r.2
      | none => endCmdFree s k)
  | .committing =>
    if c.lcmd = 4 ∧ flushMet s k c.vol ∧ (c.cu.bind (tget s.led.cus)).all (policyMet s) then
      let v := getVol s c.vol
      let a := freeRes s
      let s := led a.2 (fun l => { l with cus := (c.cu.map (terase l.cus)).getD l.cus })
      some (endCmd s k 0 (if v.p.kind = 2 then v.p.nextRec - 1 else v.p.lastSeq) a.1)
    else none
  | _ => none
/-- The unit issues its sector, answers its commands or leaves. -/
def cuMove (s : State) (u : Nat) (c : CU) : Option State :=
  match c.toSend with
  | some f => if c.ckind = 0 ∨ cmdsGate s c.cmds then some (fwdNow s u c f) else none
  | none =>
  if c.st = .ready ∧ mayIssue s u c ∧ cusInFlight s < 64 then
    if ! ringHeld s then some (issueCu s u c)
    else if c.waitCounted then none
    else some (modCu (led s (fun l => { l with logWait := satAdd 16 l.logWait 1 })) u (fun c => { c with waitCounted := true }))
  else if c.ckind ≠ 0 ∧ ! c.answered ∧ (c.st = .committing ∨ c.st = .landed ∨ c.st = .durable ∨ c.fwd.isSome) ∧ policyMet s c then
    some (c.cmds.foldl endCmdFree (modCu s u (fun c => { c with answered := true })))
  else if c.ckind ≠ 0 ∧ c.st = .durable ∧ c.fwd.all (fun f => f.done.isSome) ∧ (c.answered ∨ c.cmds.isEmpty ∨ c.fwd.isSome) then
    some (led s (fun l => { l with cus := terase l.cus u }))
  else none
/-- The operation waits for its volume's commands in flight, then commits (R363). -/
def opMove (s : State) : Option State :=
  match s.led.op with
  | some o =>
    if o.st ≠ .waiting ∨ s.led.cmds.any (fun p => p.2.vol == o.vol) ∨ s.led.cus.any (fun p => p.2.vol == o.vol) then none
    else
      let v := getVol s o.vol
      let keep := bitOf (leAt o.body 3 1) 3
      let gen := if o.kind = 1 ∧ leAt o.body 1 1 = 2 ∧ ! keep then
          sha384 (natLE 8 ((s.led.pool.map (·.poolId)).getD 0) ++ natLE 1 o.vol ++ natLE 8 (now s))
        else []
      let u : CU := { vol := o.vol, ckind := if o.kind = 1 then 4 else 5, cmds := [], st := .ready, chain := gen, isOp := true,
                      body := if keep then natLE 4 (leAt o.body 0 4) ++ sub o.body 4 4 ++ natLE 8 v.p.nblocks ++ natLE 16 0 else o.body,
                      cmdKey := o.key }
      some (addCu (led s (fun l => { l with op := some { o with st := .committing } })) u).2
  | none => none
def firstMove : List (Nat × LCmd) → State → Option State
  | [], _ => none
  | p :: ps, s => (cmdMove s p.1 p.2).or (firstMove ps s)
def firstCu : List (Nat × CU) → State → Option State
  | [], _ => none
  | p :: ps, s => (cuMove s p.1 p.2).or (firstCu ps s)
/-- Move commands, units and the operation until nothing moves. -/
def ledAdvance : Nat → State → State
  | 0, s => s
  | n + 1, s =>
    match (firstMove s.led.cmds s).or ((firstCu s.led.cus s).or (opMove s)) with
    | some s => ledAdvance n s
    | none => s
def ledRun (s : State) : State := ledAdvance (7 * s.led.cmds.length + 7 * s.led.cus.length + 16) s

end Sys2Proof.Machine
end

