-- ==== Sys2Proof/Machine/LedgerItems.lean ====
section
/-! DEFINITION. Commands of the Ledger store: host items, drive and peer events, operations (spec/16_ledger_store.md, R342 to
R364; spec/17_bridy_link.md, R374 to R376). -/

namespace Sys2Proof.Machine
open Sys2Proof

/-! ## Acceptance -/

def standingCmds (s : State) : Nat := (s.led.cmds.filter (fun p => p.2.key.isNone)).length
/-- Is a command slot free (R344)? -/
def slotFree (s : State) (standing : Bool) : Bool :=
  if standing then decide (s.led.cmds.length < 4096)
  else decide (s.led.cmds.length - standingCmds s + max (rfld s Reg.LED_CTL 0 31 16) (standingCmds s) < 4096)
/-- Accept a command into a slot. -/
def acceptCmd (s : State) (c : LCmd) : Nat × State :=
  (s.led.nextCmd, led s (fun l => { l with cmds := tset l.cmds l.nextCmd c, nextCmd := l.nextCmd + 1 }))
/-- Number of an initiator port (R380). -/
def peerSrc (s : State) (n : Nat) : Nat := if samePeer s then 256 else 256 + n
/-- Steps 5 and 6 of R343 for a command of a volume. -/
def volCheck (s : State) (vol lcmd : Nat) : Option Nat :=
  let v := getVol s vol
  let served := if v.p.kind = 1 then [1, 2, 4, 5, 9] else [3, 4, 5, 8, 9]
  firstFail [
    (s.led.conflict || v.p.kind == 0, St.ledgerNotFormatted),
    (! served.contains lcmd, St.ledgerKind),
    (v.frozen && lcmd != 9, St.ledgerFrozen),
    (v.busy, St.ledgerVolBusy)]

/-! ## Host LEDGER items (Table 16-3, R343) -/

structure LBody where
  lcmd : Nat
  vol : Nat
  flags : Nat
  count : Nat
  addr : Nat
  bufAddr : Nat
  bufLen : Nat
  resv : Nat
deriving DecidableEq, Repr
def lBody (it : Item) : LBody :=
  ⟨it.body 32 1, it.body 33 1, it.body 34 1, it.body 36 4, it.body 40 8, it.body 48 8, it.body 56 4, it.body 35 1 + it.body 60 4⟩
def LBody.bufInt (b : LBody) : Bool := bitOf b.flags 1
def ledCmds : List Nat := [1, 2, 3, 4, 5, 8, 9]
/-- Step 1 of R343; `kind` is the volume's. -/
def ledInvalid (b : LBody) (kind : Nat) : Bool :=
  let noBuf := b.lcmd == 4 || b.lcmd == 5 || b.lcmd == 9
  ! ledCmds.contains b.lcmd || decide (b.vol > 63) || decide (b.flags > 7) || b.resv != 0 || (bitOf b.flags 2 && b.lcmd != 9)
  || (noBuf && (b.bufAddr != 0 || b.bufLen != 0 || b.bufInt))
  || ((b.lcmd == 4 || b.lcmd == 9 || (b.lcmd == 5 && kind == 2)) && b.count != 0)
  || ((b.lcmd == 3 || b.lcmd == 4 || b.lcmd == 9) && b.addr != 0)
/-- Bytes that a command transfers (R343 step 8). -/
def ledXfer (s : State) (b : LBody) : Nat :=
  match b.lcmd with
  | 1 | 2 => 4096 * b.count
  | 3 => b.count
  | 8 =>
    let v := (getVol s b.vol).p
    let recs := (v.pages.filter (fun p => decide (p.2.1 ≤ b.addr) && decide (b.addr < p.2.1 + p.2.2))).flatMap
      (fun p => readPage p.1 (blockAt s ((tget v.map p.1).getD 0)))
    if b.count = 0 then 0 else ((recs.find? (fun r => r.num == b.addr)).map (·.bytes.length)).getD 0
  | _ => 0
/-- Step 7 of R343. -/
def ledRange (s : State) (b : LBody) : Option Nat :=
  let v := getVol s b.vol
  firstFail [
    (((b.lcmd == 1 || b.lcmd == 2) && decide (b.count > 64)) || (b.lcmd == 3 && decide (b.count > 4016)), St.ledgerTooLong),
    (b.bufLen == 0xFFFFFFFF, St.lengthInvalid),
    (((b.lcmd == 1 || b.lcmd == 2 || (b.lcmd == 5 && v.p.kind == 1)) && decide (b.addr + b.count > v.p.nblocks))
      || (b.lcmd == 5 && v.p.kind == 2 && (decide (b.addr > v.recBase + v.opened.length) || decide (b.addr < v.p.firstRec)))
      || (b.lcmd == 8 && (decide (b.addr < v.p.firstRec) || decide (b.addr > v.p.nextRec))), St.ledgerRange)]
/-- Step 8 of R343. -/
def ledBuf (s : State) (it : Item) (b : LBody) : Option Nat :=
  firstFail [
    (decide (b.bufLen < ledXfer s b), St.bufferTooSmall),
    (b.bufInt && ! winIt s it b.bufAddr (max b.bufLen (ledXfer s b)), St.addressRange)]
/-- What the checks of an item lead to. -/
inductive LedCase where
  | fail (st : Nat) | attach (cmd : Nat) | stored (e : REnt) | none0 | go
deriving DecidableEq, Repr
/-- Steps 2 to 4 of R343 for a host item: `lcmd` is the code the replay table keeps. -/
def ledKeyCase (s : State) (it : Item) (vol lcmd : Nat) (own : Bool) : LedCase :=
  match it.ikey with
  | none => .fail St.ledgerNoKey
  | some key =>
    if ! initSlot s it.fn (fld key 63 48) then .fail St.ledgerNoInit
    else if ! own then .fail St.accessDenied
    else match rpCase s it.fn key lcmd vol with
      | .fail st => .fail st
      | .attach c => .attach c
      | .stored e => .stored e
      | .go => .go
/-- Does a function hold a volume that is not leaving it? -/
def ownsVol (s : State) (it : Item) (vol : Nat) : Bool := holder s.fns.volFn vol == it.fn && ! leavingFor s it 7 vol
def ledCase (s : State) (it : Item) (b : LBody) : LedCase :=
  if ledInvalid b (getVol s b.vol).p.kind then .fail St.invalidField
  else match ledKeyCase s it b.vol b.lcmd (ownsVol s it b.vol) with
    | .go =>
      (match (volCheck s b.vol b.lcmd).or ((ledRange s b).or (ledBuf s it b)) with
      | some st => .fail st
      | none => if b.count = 0 ∧ (b.lcmd ≤ 3 ∨ b.lcmd = 8 ∨ (b.lcmd = 5 ∧ (getVol s b.vol).p.kind = 1)) then .none0 else .go)
    | z => z
/-- Attach a duplicate item to a command or an operation in progress. -/
def ledAttach (s : State) (id c : Nat) : State :=
  let s := toEngine (countDup s) id
  led s (fun l =>
    let at_ := fun (o : LOp) => if o.cmd = c then { o with dups := o.dups ++ [id] } else o
    { l with cmds := tupd l.cmds c (fun x => { x with dups := x.dups ++ [id] }), op := l.op.map at_, opQ := l.opQ.map at_ })
/-- Answer an item from the stored response. -/
def ledStored (s : State) (id : Nat) (e : REnt) : State :=
  let s := modItem (countDup s) id (fun x => { x with isDup := true })
  if e.status ≠ 0 then failItem s id e.status e.r0 e.r1 else itemReady s id e.r0 e.r1
/-- A command with nothing to do completes with status 0 and commits nothing. -/
def ledNothing (s : State) (id : Nat) : State := let a := freeRes s; let b := freeRes a.2; itemReady b.2 id a.1 b.1

/-! ## Commands of the peer (R344, R374 to R376) -/

/-- The checks of a CMD body: its RSP status, or the case of its key. -/
def peerCase (s : State) (n : Nat) (p : List Byte) : LedCase :=
  let key := beAt p 0 8
  let lcmd := beAt p 8 1
  let vol := beAt p 9 1
  let v := getVol s vol
  let src := peerSrc s n
  if lcmd < 2 ∨ lcmd > 5 then .fail St.invalidField
  else if beAt p 16 4 > 262144 then .fail St.ledgerTooLong
  else
    if beAt p 10 1 > 1 ∨ vol > 63 ∨ (lcmd = 2 ∧ beAt p 16 4 ≠ 4096 * beAt p 20 4 ∧ beAt p 20 4 ≤ 64) then .fail St.invalidField
    else if ! initSlot s src (fld key 63 48) then .fail St.ledgerNoInit
    else match rpCase s src key lcmd vol with
      | .fail st => .fail st
      | .attach c => .attach c
      | .stored e => .stored e
      | .go =>
        match (volCheck s vol lcmd).or (firstFail [
            (lcmd == 2 && decide (beAt p 20 4 > 64), St.ledgerTooLong),
            ((lcmd == 2 || (lcmd == 5 && v.p.kind == 1)) && decide (beAt p 24 8 + beAt p 20 4 > v.p.nblocks), St.ledgerRange),
            (lcmd == 5 && v.p.kind == 2 && (decide (beAt p 24 8 > v.recBase) || decide (beAt p 24 8 < v.p.firstRec)), St.ledgerRange)]) with
        | some st => .fail st
        | none => if beAt p 20 4 = 0 ∧ (lcmd = 2 ∨ lcmd = 3 ∨ (lcmd = 5 ∧ v.p.kind = 1)) then .none0 else .go
/-- Accept a CMD: its pre-grant is bound, or a grant is bound to its key when it has data (R375). -/
def peerAccept (s : State) (n : Nat) (p : List Byte) : State :=
  let key := beAt p 0 8
  let lcmd := beAt p 8 1
  let g := beAt p 12 4
  let decl := beAt p 16 4
  let pre := (bryPort s n).issued.contains g
  let own := (bryPort s n).nextGrant
  let s := if pre then modBry s n (fun x => { x with issued := x.issued.erase g })
    else if decl = 0 then s
    else sendRdy (modBry s n (fun x => { x with nextGrant := (own + 1) % 0xFFFFFFFF })) n key own
  let c : LCmd := { src := .peer n, fn := 0, vol := beAt p 9 1, lcmd := lcmd, lordered := bitOf (beAt p 10 1) 0, count := beAt p 20 4,
                    addr := if lcmd = 3 then beAt p 32 8 else beAt p 24 8, key := some key, port := n, decl := decl,
                    data := List.replicate decl 0#8,
                    grant := if pre then some g else if decl = 0 then none else some own, preGrant := if pre then some n else none, boundAt := now s,
                    prevChain := sub p 40 48 }
  let z := acceptCmd s c
  rpMake z.2 (peerSrc s n) key lcmd c.vol z.1
/-- A further copy of a command in progress: XFER_RDY and RSP go on its port from here on (R376). A pre-grant that it names takes no
buffer, and a new one is issued in its place; a copy that names none has its data asked for while bytes are missing (R357). -/
def peerAttach (s : State) (n : Nat) (p : List Byte) (k : Nat) : State :=
  let g := beAt p 12 4
  let s := modCmd s k (fun x => { x with port := n })
  if (bryPort s n).issued.contains g then issuePre (modBry s n (fun x => { x with issued := x.issued.erase g })) n
  else match getCmd s k with
    | some c => (match c.grant with
      | some own => if gotAll c then s else sendRdy s n (beAt p 0 8) own
      | none => s)
    | none => s
/-- Handle a CMD body; it waits while no slot is free. -/
def peerCmd (s : State) (n : Nat) (p : List Byte) : State :=
  let key := beAt p 0 8
  match peerCase s n p with
  | .fail st => sendRsp s n key st 0 0
  | .attach c => peerAttach (countDup s) n p c
  | .stored e => sendRsp (countDup s) n key e.status e.r0 e.r1
  | .none0 => let a := freeRes s; let b := freeRes a.2; sendRsp b.2 n key 0 a.1 b.1
  | .go => if slotFree s false then peerAccept s n p else led s (fun l => { l with peerWait := l.peerWait ++ [(n, p)] })
/-- Commands of the peer that waited take freed slots. -/
def peerRetry : Nat → State → State
  | 0, s => s
  | k + 1, s =>
    match s.led.peerWait with
    | x :: rest => if slotFree s false then peerRetry k (ledRun (peerCmd (led s (fun l => { l with peerWait := rest })) x.1 x.2)) else s
    | [] => s
/-- Whatever a change lets go on goes on. -/
def ledTick (s : State) : State := peerRetry s.led.peerWait.length (ledRun s)

/-! ## The item commands -/

/-- Accept a host item's command. -/
def ledAccept (s : State) (id : Nat) (it : Item) (b : LBody) (data : List Byte) : State :=
  let c : LCmd := { src := .item id, fn := it.fn, vol := b.vol, lcmd := b.lcmd, lordered := bitOf b.flags 0, count := b.count,
                    addr := b.addr, bufHost := ! b.bufInt, bufAddr := b.bufAddr, bufLen := b.bufLen, key := it.ikey, data := data }
  let z := acceptCmd s c
  ledTick (toEngine (rpMake z.2 it.fn (it.ikey.getD 0) b.lcmd b.vol z.1) id)
/-- A LEDGER item of one of the codes: its checks, and what `go` makes of it. -/
def ledItem (id : Nat) (codes : Nat → Bool) (go : State → Item → LBody → State) (s : State) : State :=
  match itemAt s id 0x40 0 with
  | none => s
  | some it =>
    let b := lBody it
    if ! codes b.lcmd then s
    else match ledCase s it b with
      | .fail st => failItem s id st 0 0
      | .attach c => ledAttach s id c
      | .stored e => ledStored s id e
      | .none0 => ledNothing s id
      | .go => if slotFree s false then go s it b else s
/-- LEDGER_READ; an item whose LCMD is reserved is checked here too. -/
def doLedgerRead (id : Nat) (s : State) : State :=
  ledItem id (fun c => c == 1 || ! ledCmds.contains c) (fun s it b => ledAccept s id it b []) s
def doLedgerWrite (id : Nat) (s : State) : State := ledItem id (· == 2) (fun s it b => ledAccept s id it b []) s
/-- LEDGER_APPEND: the payload is taken for its CHAIN. -/
def doLedgerAppend (id : Nat) (s : State) : State :=
  ledItem id (· == 3) (fun s it b =>
    if b.bufInt && poisonedIn s b.bufAddr b.count then failItem s id St.dataPoisoned 0 0
    else ledAccept (itemTouch s it.fn (! b.bufInt) b.bufAddr b.count) id it b (itemRead s (! b.bufInt) b.bufAddr b.count)) s
def doLedgerFlush (id : Nat) (s : State) : State := ledItem id (· == 4) (fun s it b => ledAccept s id it b []) s
def doLedgerTrim (id : Nat) (s : State) : State := ledItem id (· == 5) (fun s it b => ledAccept s id it b []) s
def doLogRead (id : Nat) (s : State) : State := ledItem id (· == 8) (fun s it b => ledAccept s id it b []) s
/-- Waiting commands of a volume: ACCEPTED or QUEUED. -/
def waitingCmds (s : State) (vol : Nat) : List (Nat × LCmd) :=
  s.led.cmds.filter (fun p => p.2.vol == vol && (p.2.st == .accepted || p.2.st == .queued))
/-- LEDGER_RESUME (R362). -/
def doLedgerResume (id : Nat) (s : State) : State :=
  ledItem id (· == 9) (fun s it b =>
    let v := getVol s b.vol
    let ws := if v.frozen ∧ bitOf b.flags 2 then waitingCmds s b.vol else []
    let n := s.led.nextCmd
    let s := rpMake (led s (fun l => { l with nextCmd := n + 1 })) it.fn (it.ikey.getD 0) 9 b.vol n
    let s := modVol s b.vol (fun x => { x with
      frozen := false, appendLost := satAdd 32 x.appendLost (ws.filter (fun p => p.2.key.isNone)).length })
    let s := dropRecs s b.vol (fun k => ws.any (fun p => p.1 == k))
    let s := ws.foldl (fun s p => endCmd s p.1 St.ledgerDiscarded 0 0) s
    let r0 := b2n v.frozen + ws.length * 65536
    let a := freeRes s
    ledTick (itemReady (rpDone a.2 n 0 r0 a.1 false) id r0 a.1)) s

/-! ## Standing APPENDs (R23, R344, R361) -/

/-- Reserve and release the journal record of a standing item at its commit point: the status that fails it, or the state. -/
def journalRelease (s : State) (it : Item) (vol : Nat) (payload : List Byte) : Except Nat State :=
  match (if ownsVol s it vol then none else some St.accessDenied).or ((volCheck s vol 3).or
      (if logFull (getVol s vol) payload.length then some St.ledgerLogFull
      else if slotFree s true then none else some St.ledgerBusy)) with
  | some st => .error st
  | none => .ok (ledTick (acceptCmd s { src := .standing it.fn, fn := it.fn, vol := vol, lcmd := 3, count := payload.length, data := payload }).2)

/-! ## Events of the drives (R344 to R347, R349, R360, R366) -/

/-- No drive is left in service: commands at work fail, and every volume freezes. -/
def mediaFail (s : State) : State :=
  let at_ := (s.led.cmds.filter (fun p => p.2.st != .accepted && p.2.st != .queued)).map (·.1)
  let s := at_.foldl (fun s k => endCmd s k St.ledgerMedia 0 0) s
  let s := (s.led.vols.map (·.1)).foldl (fun s v => dropRecs s v (fun k => at_.contains k)) s
  freezeFor (led s (fun l => { l with cus := [] })) 0 St.ledgerMedia
/-- Count a lasting drive fault (RAS_CNT class 10). -/
def driveFault (s : State) : State := rasCount s 10 true
def afterDrives (s : State) : State := if (inService s).isEmpty then mediaFail s else s
/-- LEDGER_DATA_WRITE_DONE: every data write of unit `u` has completed; `bad` names the writes that failed twice, by drive and
position. A unit whose writes have completed offers its commit sector again. -/
def doLedgerDataWriteDone (u : Nat) (bad : List (Nat × Nat)) (s : State) : State :=
  match tget s.led.cus u with
  | none => s
  | some c =>
    if c.st = .ready then ledTick s
    else if c.st ≠ .writing then s
    else
      let step := fun (z : List (Nat × List Byte) × List (Nat × Nat) × State) (x : Nat × Nat) =>
        match z.1[x.2]? with
        | none => z
        | some d =>
          let r := spareBlock (driveFault z.2.2) x.1
          match r.1 with
          | none => (z.1, z.2.1, r.2)
          | some b => (z.1.set x.2 (b, d.2), z.2.1 ++ [(d.1, b)],
                       led r.2 (fun l => { l with retired := d.1 :: l.retired, used := l.used.filter (· != d.1) }))
      let z := bad.foldl step (c.data, [], s)
      let moved := fun (p : Nat) => ((z.2.1.find? (fun m => m.1 == p)).map (·.2)).getD p
      let ents := joinRuns ((c.ents.flatMap entBlocks).map (fun b => (b.1, moved b.2)))
      let s := z.1.foldl (fun s d => drvWrite s d.1 d.2) z.2.2
      ledTick (afterDrives (modCu s u (fun c => { c with st := .ready, data := z.1, ents := if c.ckind = 2 then c.ents else ents })))
/-- COMMIT_SECTOR_DONE: unit `u`'s commit sector completes on every in-service drive; `bad` is the drive whose block failed
twice, which is remapped. -/
def doCommitSectorDone (u : Nat) (bad : Option Nat) (s : State) : State :=
  match tget s.led.cus u with
  | none => s
  | some c =>
    if c.st ≠ .committing then s
    else
      let slot := sectorSlot c.seq
      let s := match bad with
        | some d => remapMeta (driveFault s) d slot
        | none => s
      let s := drvWrite s (metaBlock s slot) (sectorBytes (sectorOf c) ((s.led.pool.map (·.poolId)).getD 0) c.issuedAt)
      let s := modCu s u (fun c => { c with st := .landed })
      ledTick (afterDrives (advanceDurable s.led.cus.length s))
/-- SNAPSHOT_DONE: the superblock that puts the snapshot in force is written. -/
def doSnapshotDone (s : State) : State :=
  match s.led.snap, s.led.pool with
  | some x, some q =>
    let area := 1 - q.snapArea
    let s := led s (fun l => { l with snap := none, drives := l.drives.map (fun d =>
      if d.2.st = 1 ∨ d.2.st = 2 then (d.1, { d.2 with snaps := tset d.2.snaps area x }) else d) })
    ledTick (superMod s (fun q => { q with snapArea := area, snapSeq := x.seq }))
  | _, _ => s
/-- Committed records of a volume from a record on. -/
def recsFrom (s : State) (v : VolP) (a : Nat) : List GRec :=
  ((v.pages.filter (fun p => decide (a < p.2.1 + p.2.2))).flatMap (fun p => readPage p.1 (blockAt s ((tget v.map p.1).getD 0)))).filter
    (fun r => decide (a ≤ r.num) && decide (r.num < v.nextRec))
/-- CHAIN of the record before `a`. -/
def chainBefore (s : State) (v : VolP) (a : Nat) : List Byte :=
  if a = v.firstRec then v.trimChain
  else (((v.pages.flatMap (fun p => readPage p.1 (blockAt s ((tget v.map p.1).getD 0)))).find? (fun r => r.num + 1 == a)).map (·.chain)).getD []
/-- Whole records that fit in a buffer. -/
def fitRecs : Nat → List GRec → List GRec
  | _, [] => []
  | room, r :: rs => if r.bytes.length ≤ room then r :: fitRecs (room - r.bytes.length) rs else []
/-- Does each record's CHAIN follow from its predecessor's? -/
def chainOk : List Byte → List GRec → Bool
  | _, [] => true
  | prev, r :: rs => r.chain == chainNext prev r.num (r.bytes.drop 64) && chainOk r.chain rs
/-- Can every one of `n` blocks be read on some drive in service? -/
def readable (s : State) (n : Nat) (bad : List (Nat × Nat)) : Bool :=
  (List.range n).all (fun i => (inService s).any (fun d => ! bad.contains (d, i)))
/-- What a READ or LOG_READ delivers goes out by the DMA engine. -/
def readOut (s : State) (k : Nat) (c : LCmd) (n : Nat) : State :=
  match c.src with
  | .item id => dataXfer s id (some k) false n
  | _ => s
/-- LEDGER_READ_DONE: the blocks of a READ or LOG_READ are delivered; `bad` names the reads that failed twice, by drive and
position; a copy that failed is written again from the good one. -/
def doLedgerReadDone (k : Nat) (bad : List (Nat × Nat)) (s : State) : State :=
  match getCmd s k with
  | none => s
  | some c =>
    if c.st ≠ .reading then s
    else
      let n := if c.lcmd = 1 then c.count else (getVol s c.vol).p.pages.length
      if ! readable s n bad then ledTick (endCmd s k St.ledgerMedia 0 0)
      else if c.lcmd = 1 then
        let s := memWrite s (partOf s c.fn) c.bufHost c.bufAddr c.data
        ledTick (readOut (setCmd s k { c with st := .dataDone }) k c c.data.length)
      else
        let v := (getVol s c.vol).p
        let rs := fitRecs c.bufLen ((recsFrom s v c.addr).take c.count)
        if ! chainOk (chainBefore s v c.addr) rs then ledTick (endCmd s k St.ledgerChain 0 0)
        else
          let bs := rs.flatMap (·.bytes)
          let s := memWrite s (partOf s c.fn) c.bufHost c.bufAddr bs
          ledTick (readOut (setCmd s k { c with st := .dataDone, res := some (rs.length, c.addr + rs.length) }) k c bs.length)
/-- APPEND_GROUP_CLOSE: GROUP_US has run, 64 pages are filled, or a FLUSH waits (R349). -/
def doAppendGroupClose (vol : Nat) (s : State) : State :=
  let v := getVol s vol
  match v.opened.head?, v.opened.getLast? with
  | some a, some b =>
    let flush := s.led.cmds.any (fun p => p.2.vol == vol && p.2.lcmd == 4 && p.2.st != .accepted && decide (a.cmd < p.1))
    let next := s.led.cmds.any (fun p => p.2.vol == vol && p.2.lcmd == 3 && p.2.st == .accepted && ! groupRoom v p.2.data.length)
    if (v.openAt + 1000 * v.p.groupUs ≤ now s ∨ b.page - a.page ≥ 64 ∨ flush ∨ next) then ledTick (closeGroup s vol) else s
  | _, _ => s
/-- DRIVE_STOPS_ANSWERING (R360): the drive is retired from the pool. -/
def doDriveStopsAnswering (d : Nat) (s : State) : State :=
  match tget s.led.drives d with
  | some x => if x.st = 1 ∨ x.st = 2 then ledTick (afterDrives (retireDrive (driveFault s) d)) else s
  | none => s

/-! ## Events of the peer (R355, R356, R359, R375, R376) -/

/-- A forwarded command has failed: its local commands fail, and the volume freezes. -/
def fwdFail (s : State) (u st : Nat) : State :=
  match tget s.led.cus u with
  | none => s
  | some c =>
    let s := modCu s u (fun c => { c with fwd := c.fwd.map (fun f => { f with done := some (st, 0, 0) }), answered := true })
    let s := freezeVol s c.vol St.ledgerPeerFail
    let s := c.cmds.foldl (fun s k => endCmd s k St.ledgerPeerFail st 0) s
    if c.ckind = 0 then led s (fun l => { l with cus := terase l.cus u }) else s
/-- PEER_RSP_TIMEOUT: sent again with the same key up to 3 times, then failed. -/
def doPeerRspTimeout (u : Nat) (s : State) : State :=
  match (tget s.led.cus u).bind (·.fwd) with
  | none => s
  | some f =>
    if f.done.isSome ∨ now s < f.sentAt + 1000000 * rfld s Reg.LED_CTL 0 7 0 then s
    else if f.tries ≥ 3 then ledTick (fwdFail s u 0xFFFF)
    else
      let n := if (bryPort s f.port).st = BSt.up then f.port else if (bryPort s (1 - f.port)).st = BSt.up then 1 - f.port else f.port
      let f := { f with tries := f.tries + 1, sentAt := now s, port := n }
      let s := modCu s u (fun c => { c with fwd := some f })
      sendFwd (led s (fun l => { l with retries := satAdd 32 l.retries 1 })) f n
/-- XFER_GRANT_TIMEOUT: the grant window has run without the declared length. -/
def doXferGrantTimeout (k : Nat) (s : State) : State :=
  match getCmd s k with
  | none => s
  | some c =>
    if c.grant.isSome ∧ ! gotAll c ∧ c.boundAt + 1000000 * rfld s Reg.LED_CTL 0 15 8 ≤ now s then
      ledTick (endCmd s k St.ledgerUnderrun 0 0)
    else s
/-- BRIDY_CMD: the next LEDGER packet of the port is a CMD. -/
def doBridyCmd (n : Nat) (s : State) : State :=
  match takeInbox s n 0 1 with
  | some (p, s) => ledTick (peerCmd s n p.body)
  | none => s
/-- XFER_RDY: a pre-grant, or the grant of a forwarded command, whose DATA is all sent again. -/
def doXferRdy (n : Nat) (s : State) : State :=
  match takeInbox s n 0 2 with
  | none => s
  | some (p, s) =>
    let key := beAt p.body 0 8
    if key = 0 then modBry s n (fun x => { x with preGrants := x.preGrants ++ [beAt p.body 8 4] })
    else match s.led.cus.find? (fun c => c.2.fwd.any (fun f => f.key == key && f.done.isNone)) with
      | some (_, c) => sendData s n key ((c.fwd.map (·.data)).getD [])
      | none => s
/-- Put received bytes at an offset, those at received offsets discarded. -/
def placeData (c : LCmd) (off : Nat) (bs : List Byte) : LCmd :=
  let had := fun (i : Nat) => c.got.any (fun g => decide (g.1 ≤ i) && decide (i < g.1 + g.2))
  let mid := ((bs.zip (sub c.data off bs.length)).zipIdx).map (fun x => if had (off + x.2) then x.1.2 else x.1.1)
  { c with data := c.data.take off ++ mid ++ c.data.drop (off + bs.length), got := c.got ++ [(off, bs.length)] }
/-- DATA_PACKET: placed in the bound buffer of its key, or discarded. -/
def doDataPacket (n : Nat) (s : State) : State :=
  match takeInbox s n 0 3 with
  | none => s
  | some (p, s) =>
    let key := beAt p.body 0 8
    let off := beAt p.body 8 4
    let len := beAt p.body 12 4
    let peer := fun (c : LCmd) => match c.src with
      | .peer _ => true
      | _ => false
    match s.led.cmds.find? (fun c => c.2.key == some key && peer c.2 && c.2.grant.isSome) with
    | none => modBry s n (fun x => { x with dataDiscard := satAdd 4 x.dataDiscard 1 })
    | some (k, c) =>
      if off + len > c.decl then ledTick (endCmd s k St.ledgerOverrun 0 0)
      else ledTick (setCmd s k (placeData c off (sub p.body 16 len)))
/-- RSP_PACKET: a forwarded command's outcome. -/
def doRspPacket (n : Nat) (s : State) : State :=
  match takeInbox s n 0 4 with
  | none => s
  | some (p, s) =>
    let key := beAt p.body 0 8
    let st := beAt p.body 8 2
    match s.led.cus.find? (fun c => c.2.fwd.any (fun f => f.key == key && f.done.isNone)) with
    | none => s
    | some (u, _) =>
      if st ≠ 0 then ledTick (fwdFail s u st)
      else ledTick (modCu s u (fun c => { c with fwd := c.fwd.map (fun f =>
        { f with done := some (0, beAt p.body 16 8, beAt p.body 24 8) }) }))

/-! ## Sanitise, format, rebuild (R341, R363, R364) -/

def codeFormat : Nat := 0x106
def codeSanitise : Nat := 0x105
/-- Step 1 of R343 for FORMAT of a volume. -/
def formatInvalid (b : List Byte) (v : VolP) : Bool :=
  let kind := leAt b 1 1
  let pol := leAt b 2 1
  let modes := leAt b 3 1
  let nb := leAt b 8 8
  let g := leAt b 5 1
  decide (leAt b 0 1 > 63) || ! (kind == 1 || kind == 2) || decide (pol > 2) || decide (modes % 4 > 1) || decide (modes > 15)
  || decide (leAt b 4 1 > 63) || (pol == 0 && leAt b 4 1 != 0) || (if kind = 2 then g == 0 else g != 0) || leAt b 6 2 != 0
  || nb == 0 || decide (nb ≥ 2 ^ 40) || leAt b 16 16 != 0
  || (bitOf modes 3 && (v.kind != kind || v.nblocks != nb))
/-- Blocks that the formatted volumes would hold after a FORMAT (R341). -/
def formatBlocks (s : State) (vol nb : Nat) : Nat :=
  (s.led.vols.filter (fun v => v.1 != vol && v.2.p.kind != 0)).foldl (fun n v => n + v.2.p.nblocks) nb
/-- Start an operation: it is recorded in the superblock, and its volume is busy. -/
def startOp (s : State) (o : LOp) : State :=
  let s := superMod (led s (fun l => { l with op := some o })) (fun q => { q with
    opKind := o.kind, opVol := o.vol, opKey := o.key, opDone := 0 })
  if o.vol ≥ 64 then (match o.item with
    | some id => ledCommitItem s id
    | none => s)
  else s
/-- Queue an operation behind the one that runs. -/
def queueOp (s : State) (id : Nat) (it : Item) (kind vol lcmd : Nat) (body : List Byte) (st : OpSt) : State :=
  let n := s.led.nextCmd
  let s := rpMake (led s (fun l => { l with nextCmd := n + 1 })) it.fn (it.ikey.getD 0) lcmd vol n
  let s := if vol < 64 then modVol s vol (fun v => { v with busy := true }) else s
  let o : LOp := { kind := kind, vol := vol, item := some id, key := it.ikey.getD 0, cmd := n, body := body, st := st }
  let s := toEngine s id
  ledTick (if s.led.op.isSome then led s (fun l => { l with opQ := l.opQ ++ [o] }) else startOp s o)
/-- Run the checks of a Ledger ADMIN item and go on. -/
def opItem (s : State) (id : Nat) (it : Item) (bad own : Bool) (vol lcmd : Nat) (post : Option Nat) (go : State → State) : State :=
  if bad then failItem s id St.invalidField 0 0
  else
    let resumed := s.led.op.any (fun o => o.item.isNone && some o.key == it.ikey && it.ikey.isSome && o.vol == vol)
    if resumed then
      toEngine (led (countDup s) (fun l => { l with op := l.op.map (fun o => { o with dups := o.dups ++ [id] }) })) id
    else match ledKeyCase s it vol lcmd own with
      | .fail st => failItem s id st 0 0
      | .attach c => ledAttach s id c
      | .stored e => ledStored s id e
      | .none0 => s
      | .go => (match post with
        | some st => failItem s id st 0 0
        | none => go s)
/-- SANITISE (ADMIN 0x05). -/
def doSanitise (id : Nat) (s : State) : State :=
  match itemAt s id 0x60 5 with
  | none => s
  | some it =>
    let vol := it.body 32 1
    let v := getVol s vol
    let body := sub it.desc 32 32
    opItem s id it (decide (vol > 63) || leAt body 1 31 != 0) (ownsVol s it vol) vol codeSanitise
      (firstFail [(s.led.conflict || v.p.kind == 0, St.ledgerNotFormatted), (v.frozen, St.ledgerFrozen), (v.busy, St.ledgerVolBusy)])
      (fun s => queueOp s id it 2 vol codeSanitise body .waiting)
/-- FORMAT of a volume (ADMIN 0x06). -/
def doFormat (id : Nat) (s : State) : State :=
  match itemAt s id 0x60 6 with
  | none => s
  | some it =>
    let vol := it.body 32 1
    if vol = 0xFF ∨ vol = 0xFE then s
    else
      let v := getVol s vol
      let body := sub it.desc 32 32
      let keep := bitOf (leAt body 3 1) 3
      opItem s id it (formatInvalid body v.p) (ownsVol s it vol) vol codeFormat
        (firstFail [(s.led.conflict, St.ledgerNotFormatted), (v.frozen, St.ledgerFrozen), (v.busy, St.ledgerVolBusy),
          (! keep && decide (formatBlocks s vol (leAt body 8 8) + 262144 > (s.led.pool.map dataBlocks).getD 0), St.ledgerNoSpace)])
        (fun s => queueOp s id it 1 vol codeFormat body .waiting)
/-- Fresh superblocks with a new POOL_ID and an empty commit log, on every drive that meets R338. -/
def freshPool (s : State) : State :=
  let ds := s.led.drives.filter (fun d => d.2.ok)
  let size := min (2 ^ 31) (ds.foldl (fun m d => min m d.2.blocks) (2 ^ 64))
  if ds.isEmpty then s
  else
    let pid := (Config.entropy s.freeCtr).toNat
    let s := { s with freeCtr := s.freeCtr + 1 }
    let q : Pool := { poolId := pid, blocks := size, mapBlocks := mapBlocksOf size, gen := 0 }
    let s := led s (fun l => { l with
      conflict := false, pool := some q, vols := [], used := [], retired := [], spareUsed := 0, nextSeq := 1, durSeq := 0, snap := none,
      drives := l.drives.map (fun d => if d.2.ok then (d.1, { d.2 with
        st := 1, snaps := [], mem := mzero d.2.mem 0 (4096 * (2 + commitLog)) }) else d) })
    superWrite (superWrite s q) { q with gen := 1 }
/-- POOL_FORMAT: FORMAT with FVOL 0xFF. -/
def doPoolFormat (id : Nat) (s : State) : State :=
  match itemAt s id 0x60 6 with
  | none => s
  | some it =>
    if it.body 32 1 ≠ 0xFF then s
    else
      let body := sub it.desc 32 32
      opItem s id it (leAt body 1 31 != 0) (it.fn == 0) 0xFF codeFormat
        (if ! s.led.conflict && s.led.vols.any (fun v => v.2.p.kind != 0) then some St.ledgerPoolInUse else none)
        (fun s => if gateOpen s id it then queueOp (freshPool s) id it 1 0xFF codeFormat body .running else s)
/-- DRIVE_REBUILD: FORMAT with FVOL 0xFE. A newly attached drive takes every new write from here on. -/
def doDriveRebuild (id : Nat) (s : State) : State :=
  match itemAt s id 0x60 6 with
  | none => s
  | some it =>
    if it.body 32 1 ≠ 0xFE then s
    else
      let body := sub it.desc 32 32
      opItem s id it (leAt body 1 31 != 0) (it.fn == 0) 0xFE codeFormat none (fun s =>
        if ! gateOpen s id it then s
        else
        let s := led s (fun l => { l with drives := l.drives.map (fun d =>
          if d.2.ok ∧ d.2.st = 3 ∧ l.pool.any (fun q => decide (q.blocks ≤ d.2.blocks)) then (d.1, { d.2 with st := 2 }) else d) })
        queueOp s id it 3 0xFE codeFormat body .running)
/-- OP_PROGRESS_RECORD: the operation's progress is recorded in the superblock. -/
def doOpProgressRecord (gib : Nat) (s : State) : State :=
  match s.led.op with
  | some o =>
    if o.st ≠ .running ∨ gib < o.doneGib then s
    else superMod (led s (fun l => { l with op := some { o with doneGib := gib } })) (fun q => { q with opDone := gib })
  | none => s
/-- What the work of an operation leaves on the drives: a sanitise zeroes every free data-area block, a rebuild copies the pool. -/
def opWork (s : State) (o : LOp) : State :=
  match s.led.pool with
  | none => s
  | some q =>
    if o.kind = 2 then
      led s (fun l => { l with drives := l.drives.map (fun d =>
        if d.2.st = 1 ∨ d.2.st = 2 then
          (d.1, { d.2 with mem := d.2.mem.filter (fun c => decide (c.1 < 4096 * dataBase q) || l.used.contains (c.1 / 4096)) })
        else d) })
    else if o.kind = 3 then
      match s.led.drives.find? (fun d => d.2.st == 1) with
      | some (_, src) => led s (fun l => { l with drives := l.drives.map (fun d =>
          if d.2.st = 2 then (d.1, { d.2 with st := 1, mem := src.mem, snaps := src.snaps }) else d) })
      | none => s
    else s
/-- LEDGER_OP_END: the operation ends, OP_KIND is cleared, and its item completes (R364). -/
def doLedgerOpEnd (s : State) : State :=
  match s.led.op with
  | none => s
  | some o =>
    if o.st ≠ .running then s
    else
      let s := opWork s o
      let s := superMod (led s (fun l => { l with op := none })) (fun q => { q with opKind := 0, opVol := 0, opKey := 0, opDone := 0 })
      let s := if o.vol < 64 then modVol s o.vol (fun v => { v with busy := false }) else s
      let a := freeRes s
      let b := freeRes a.2
      let s := rpDone b.2 o.cmd 0 a.1 b.1 true
      let s := match o.item with
        | some id => ledItemEnd s id 0 a.1 b.1 false
        | none => s
      let s := o.dups.foldl (fun s d => ledItemEnd s d 0 a.1 b.1 true) s
      match s.led.opQ with
      | x :: rest => ledTick (startOp (led s (fun l => { l with opQ := rest })) x)
      | [] => ledTick s

/-! ## ABORT of a Ledger item (R309, R345) -/

/-- Put the records of an APPEND group whose sector is not issued, and of the groups behind it, back into the open group: their
blocks return, and the log stands where it stood before that group. -/
def reopenGroup (s : State) (u : Nat) : State :=
  match tget s.led.cus u with
  | none => s
  | some c =>
    if c.recs.isEmpty ∨ ! (c.st = .writing ∨ c.st = .ready) ∨ c.fwd.isSome then s
    else
      let us := s.led.cus.filter (fun p => p.2.vol == c.vol && ! p.2.recs.isEmpty && decide (c.recFirst ≤ p.2.recFirst))
      let s := us.foldl (fun s p => freeBlocks s (p.2.data.map (·.1))) s
      let s := led s (fun l => { l with
        cus := l.cus.filter (fun p => ! us.any (fun x => x.1 == p.1)),
        cmds := l.cmds.map (fun p => if us.any (fun x => p.2.cu == some x.1) then (p.1, { p.2 with cu := none }) else p) })
      modVol s c.vol (fun v => { v with
        recBase := c.recFirst, chainBase := c.before.1, pageBase := c.before.2.1, usedBase := c.before.2.2.1, tail := c.before.2.2.2,
        opened := us.flatMap (fun p => p.2.recs) ++ v.opened })
/-- Take a host item's command out before its commit point: its blocks return, its record leaves its group. -/
def ledDrop (s : State) (id : Nat) : State :=
  let mine := (s.led.cmds.filter (fun p => p.2.src == .item id)).map (·.1)
  let s := mine.foldl (fun s k => match getCmd s k with
    | none => s
    | some c =>
      let s := dropRecs ((c.cu.map (reopenGroup s)).getD s) c.vol (fun r => r == k)
      let s := match c.cu.bind (tget s.led.cus) with
        | some u => if u.cmds = [k] then freeBlocks (led s (fun l => { l with cus := terase l.cus (c.cu.getD 0) })) (u.data.map (·.1)) else s
        | none => s
      let s := led s (fun l => { l with cmds := terase l.cmds k })
      c.dups.foldl (fun s d => ledItemEnd s d St.aborted 0 0 true) (rpDone s k St.aborted 0 0 false)) s
  let s := (s.led.opQ.filter (fun o => o.item == some id)).foldl (fun s o =>
    if o.vol < 64 then modVol s o.vol (fun v => { v with busy := false }) else s) s
  let s := led s (fun l => { l with
    cmds := l.cmds.map (fun c => (c.1, { c.2 with dups := c.2.dups.filter (· != id) })),
    opQ := l.opQ.filter (fun o => o.item != some id) })
  let s := match s.led.op with
    | some o => if o.item = some id ∧ (o.st = .waiting ∨ s.led.cus.any (fun c => c.2.isOp && c.2.st == .ready)) then
        (let s := superMod (led s (fun l => { l with op := none, cus := l.cus.filter (fun c => ! c.2.isOp) })) (fun q => { q with opKind := 0, opVol := 0, opKey := 0 })
        modVol s o.vol (fun v => { v with busy := false }))
      else s
    | none => s
  ledTick s

end Sys2Proof.Machine
end

