-- ==== Sys2Proof/Machine/Codec.lean ====
section
/-! DEFINITION. The fixed-ratio block codec (spec/03_block_codec.md, R51 to R60): plane layout, finding a block, coded
block forms, the encoder's choices, and the stream coder. -/

namespace Sys2Proof.Machine
open Sys2Proof

/-! ## Planes (R51, R52) -/

/-- Raw block size of a plane kind. -/
def rawBlock (high : Bool) : Nat := if high then 512 else 4096
/-- A plane reference of Table 2-9: base and ratio code. -/
def planeBase (ref : Nat) : Nat := fld ref 39 0
def planeRatio (ref : Nat) : Nat := fld ref 42 40
/-- Is a plane reference well formed (Table 2-9)? -/
def planeRefOk (ref : Nat) (high : Bool) : Bool :=
  planeBase ref % 128 == 0 && (planeRatio ref ≤ 4 || (planeRatio ref == 5 && high))
/-- Blocks of a plane. -/
def planeBlocks (rows : Nat) : Nat := ceilDiv rows 512
/-- Slot size at a ratio code. -/
def slotSize (high : Bool) (rc : Nat) : Nat := rawBlock high / 2 ^ rc
/-- Size in bytes of a plane with `nesc` escaped blocks. -/
def planeSize (high : Bool) (rc nb nesc : Nat) : Nat :=
  128 + alignUp (nb * slotSize high rc) 128 + nesc * rawBlock high

/-- The plane header fields of Table 3-1. -/
def planeEscMap (m : Mem) (base : Nat) : Nat := mnat m base 16
def planeNesc (m : Mem) (base : Nat) : Nat := mnat m (base + 16) 2

/-- The checks of a plane header (R52): true when the header is good. -/
def planeHeaderOk (m : Mem) (base rc rows : Nat) (high : Bool) : Bool :=
  let nb := planeBlocks rows
  mread m (base + 18) == (if high then 1#8 else 0#8) && mnat m (base + 19) 1 == rc
    && planeNesc m base == popcount 128 (planeEscMap m base)
    && planeEscMap m base / 2 ^ nb == 0 && !(rc == 0 && planeNesc m base != 0)

/-- Where a block lies and whether it is stored raw (R53), by the plane's ESC_MAP. -/
def blockAddr (esc base rc nb b : Nat) (high : Bool) : Nat × Bool :=
  let raw := rawBlock high
  if rc == 0 then (base + 128 + b * raw, true)
  else if bitOf esc b then
    (base + 128 + alignUp (nb * slotSize high rc) 128 + popcount b esc * raw, true)
  else (base + 128 + b * slotSize high rc, false)

/-! ## Coded blocks (R54, R55) -/

/-- Read `n` raw elements of `w` bytes. -/
def rawElems (m : Mem) (a w : Nat) (n : Nat) : List Nat := (List.range n).map (fun i => mnat m (a + i * w) w)
/-- Element `j` of a delta area at address `a`, width `w` bits. -/
def deltaAt (m : Mem) (a w j : Nat) : Nat :=
  let bit := j * w
  (mnat m (a + bit / 8) 9 >>> (bit % 8)) % 2 ^ w
/-- Decode `n` elements of a coded block at `a` in a slot of `s` bytes; none is CODEC_FORMAT. -/
def decodeBlock (m : Mem) (a s : Nat) (high : Bool) (n : Nat) : Option (List Nat) :=
  let h := mnat m a 1
  let form := h / 64
  let wm1 := h % 64
  let ew := if high then 1 else 8
  let base := if high then mnat m (a + 1) 1 else mnat m (a + 8) 8
  let hdr := if high then 2 else 16
  if form = 1 then (if wm1 ≠ 0 then none else some (List.replicate n base))
  else if form = 0 then
    if hdr + 64 * (wm1 + 1) > s ∨ (high ∧ wm1 + 1 > 8) then none
    else some ((List.range n).map (fun j => (base + deltaAt m (a + hdr) (wm1 + 1) j) % 2 ^ (8 * ew)))
  else none
/-- The elements of block `b` of a plane; none is CODEC_FORMAT. -/
def planeBlock (m : Mem) (esc ref rows b : Nat) (high : Bool) : Option (List Nat) :=
  let base := planeBase ref
  let rc := planeRatio ref
  let nb := planeBlocks rows
  let n := min 512 (rows - 512 * b)
  match blockAddr esc base rc nb b high with
  | (a, true) => some (rawElems m a (if high then 1 else 8) n)
  | (a, false) => decodeBlock m a (slotSize high rc) high n

/-! ## The encoder (R56) -/

/-- The coded form of a block: a run, or a frame of reference with its width. -/
inductive BlockForm where
  | run (v : Nat)
  | forr (base w : Nat)
deriving DecidableEq, Repr

/-- Smallest element read as a signed number of `bits` bits. -/
def minSigned (bits : Nat) : List Nat → Nat
  | [] => 0
  | [x] => x
  | x :: xs => let y := minSigned bits xs; if sgn bits x ≤ sgn bits y then x else y
/-- Choose the form of a block's valid elements of `bits` bits. -/
def chooseForm (bits : Nat) (xs : List Nat) : BlockForm :=
  match xs with
  | [] => .run 0
  | x :: rest =>
    if rest.all (· == x) then .run x
    else
      let base := minSigned bits xs
      let deltas := xs.map (fun v => (v + 2 ^ bits - base) % 2 ^ bits)
      .forr base (bitLen (bits + 1) (deltas.foldl max 0))
/-- Pack deltas of `w` bits into a number, element 0 lowest. -/
def packDeltas (w : Nat) : List Nat → Nat
  | [] => 0
  | d :: ds => d % 2 ^ w + 2 ^ w * packDeltas w ds
/-- Coded size of a plane block: header plus 64 bytes per bit of width. -/
def codedSize (high : Bool) : BlockForm → Nat
  | .run _ => if high then 2 else 16
  | .forr _ w => (if high then 2 else 16) + 64 * w
/-- The bytes of a coded plane block. -/
def encodeBlock (high : Bool) (xs : List Nat) : List Byte :=
  let bits := if high then 8 else 64
  match chooseForm bits xs with
  | .run v => if high then natLE 1 0x40 ++ natLE 1 v else natLE 1 0x40 ++ natLE 7 0 ++ natLE 8 v
  | .forr base w =>
    let ds := packDeltas w (xs.map (fun v => (v + 2 ^ bits - base) % 2 ^ bits))
    (if high then natLE 1 (w - 1) ++ natLE 1 base else natLE 1 (w - 1) ++ natLE 7 0 ++ natLE 8 base) ++ natLE (64 * w) ds
/-- Does a block escape at a ratio code? -/
def blockEscapes (high : Bool) (rc : Nat) (xs : List Nat) : Bool :=
  rc != 0 && codedSize high (chooseForm (if high then 8 else 64) xs) > slotSize high rc
/-- Ratio with the smallest plane size, the smaller on a tie. -/
def chooseRatio (high : Bool) (blocks : List (List Nat)) : Nat :=
  let size := fun rc => planeSize high rc blocks.length (blocks.filter (blockEscapes high rc)).length
  (List.range (if high then 6 else 5)).foldl (fun best rc => if size rc < size best then rc else best) 0
/-- Bytes of a raw block, padded with zeros. -/
def rawBytes (high : Bool) (xs : List Nat) : List Byte :=
  let bs := xs.flatMap (fun v => natLE (if high then 1 else 8) v)
  bs ++ List.replicate (rawBlock high - bs.length) 0#8
/-- All bytes of a plane coded from its blocks at a ratio code (R51, R56). Slot bytes after a coded block, and the reserved slot of
an escaped block, are written as zeros (DESIGN CHOICE, assumption 34). -/
def encodePlane (high : Bool) (rc : Nat) (blocks : List (List Nat)) : List Byte :=
  let esc := blocks.map (blockEscapes high rc)
  let escMap := packDeltas 1 (esc.map b2n)
  let nesc := (esc.filter id).length
  let slot := slotSize high rc
  let prim := blocks.flatMap (fun xs =>
    if rc == 0 then rawBytes high xs
    else
      let bs := if blockEscapes high rc xs then [] else encodeBlock high xs
      bs ++ List.replicate (slot - bs.length) 0#8)
  let prim := prim ++ List.replicate (alignUp prim.length 128 - prim.length) 0#8
  natLE 16 escMap ++ natLE 2 nesc ++ natLE 1 (b2n high) ++ natLE 1 rc ++ natLE 108 0 ++ prim
    ++ (blocks.filter (blockEscapes high rc)).flatMap (rawBytes high)

/-! ## Stream mode (R58 to R60) -/

/-- Cut a byte string into elements of `e` bytes. -/
def elemsOf (e : Nat) : Nat → List Byte → List Nat
  | 0, _ => []
  | n + 1, bs => leNat (bs.take e) :: elemsOf e n (bs.drop e)
/-- Length of the run of `v` at the head of a list. -/
def runLen (v : Nat) : List Nat → Nat
  | [] => 0
  | x :: xs => if x = v then runLen v xs + 1 else 0
/-- One stream block (Table 3-5). -/
def streamBlock (e : Nat) (xs : List Nat) : List Byte :=
  match chooseForm (8 * e) xs with
  | .run v => natLE 1 0x40 ++ natLE 3 0 ++ natLE 4 (xs.length - 1) ++ natLE 8 v
  | .forr base w =>
    let ds := packDeltas w (xs.map (fun v => (v + 2 ^ (8 * e) - base) % 2 ^ (8 * e)))
    natLE 1 (w - 1) ++ natLE 3 0 ++ natLE 4 (xs.length - 1) ++ natLE 8 base ++ natLE (ceilDiv (xs.length * w) 64 * 8) ds
/-- The encoder of R59 from element position `pos`, with the flush positions still ahead. -/
def streamBlocks (e : Nat) : Nat → Nat → List Nat → List Nat → List Byte
  | 0, _, _, _ => []
  | fuel + 1, pos, flush, xs =>
    match xs with
    | [] => []
    | x :: _ =>
      let flush := flush.filter (fun f => pos < f)
      let lim := match flush with
        | f :: _ => f - pos
        | [] => xs.length
      let avail := xs.take lim
      let k := min 512 avail.length
      let first := avail.take k
      let k := if first.all (· == x) then min (runLen x avail) (2 ^ 32) else k
      streamBlock e (xs.take k) ++ streamBlocks e fuel (pos + k) flush (xs.drop k)
/-- The whole coded stream of R58 and R59 for input bytes and a flush list. -/
def streamEncode (esize : Nat) (flush : List Nat) (bs : List Byte) : List Byte :=
  let e := 2 ^ esize
  let n := bs.length / e
  let coded := natLE 1 1 ++ natLE 1 (2 * esize) ++ natLE 6 bs.length ++ streamBlocks e n 0 flush (elemsOf e n bs)
  if bs.length % e ≠ 0 ∨ coded.length ≥ 8 + bs.length then natLE 1 1 ++ natLE 1 (2 * esize + 1) ++ natLE 6 bs.length ++ bs
  else coded

/-- What a decode ends in: a status (0 success), the bytes consumed, the bytes it had to read, and the bytes produced. -/
structure DecodeEnd where
  status : Nat
  consumed : Nat
  seen : Nat
  out : List Byte
deriving DecidableEq, Repr

/-- The checks of R60 step 4 on a block header, each as soon as its bytes are there; then those of a header cut short. `left` bytes
remain to produce. None when the header is whole and good. -/
def streamHeader (e left : Nat) (bs : List Byte) : Option Nat :=
  let form := leAt bs 0 1 / 64
  let w := leAt bs 0 1 % 64 + 1
  let count := leAt bs 4 4 + 1
  if bs.isEmpty then some St.codecTruncated
  else if form ≥ 2 ∨ (form = 1 ∧ w ≠ 1) ∨ (form = 0 ∧ w > 8 * e) then some St.codecFormat
  else if bs.length < 8 then some St.codecTruncated
  else if form = 0 ∧ count > 512 then some St.codecFormat
  else if count * e > left then some St.codecLimit
  else if bs.length < 16 then some St.codecTruncated
  else none
/-- Decode stream blocks until `left` bytes remain to produce (R60 steps 4 and 5). A failed decode reports the bytes up to its last
whole block (DESIGN CHOICE, assumption 34). -/
def streamDecodeBlocks (e : Nat) : Nat → Nat → Nat → List Byte → List Byte → DecodeEnd
  | 0, _, pos, _, acc => ⟨St.codecTruncated, pos, pos, acc⟩
  | fuel + 1, left, pos, bs, acc =>
    if left = 0 then ⟨0, pos, pos, acc⟩
    else
      match streamHeader e left bs with
      | some st => ⟨st, pos, pos + min 16 bs.length, acc⟩
      | none =>
        let w := leAt bs 0 1 % 64 + 1
        let count := leAt bs 4 4 + 1
        let base := leAt bs 8 8 % 2 ^ (8 * e)
        if leAt bs 0 1 / 64 = 1 then
          streamDecodeBlocks e fuel (left - count * e) (pos + 16) (bs.drop 16)
            (acc ++ (List.replicate count (natLE e base)).flatten)
        else
          let dl := ceilDiv (count * w) 64 * 8
          if bs.length < 16 + dl then ⟨St.codecTruncated, pos, pos + 16, acc⟩
          else
            let ds := leNat ((bs.drop 16).take dl)
            let out := (List.range count).flatMap (fun j => natLE e (base + (ds >>> (j * w)) % 2 ^ w))
            streamDecodeBlocks e fuel (left - count * e) (pos + 16 + dl) (bs.drop (16 + dl)) (acc ++ out)
/-- The decoder of R60. A stream header cut short is CODEC_FORMAT when its SVER is not 1, else CODEC_TRUNCATED (DESIGN CHOICE,
assumption 34). -/
def streamDecode (bs : List Byte) (outLen : Nat) : DecodeEnd :=
  let rawLen := leAt bs 2 6
  let esize := fld (leAt bs 1 1) 2 1
  if bs.isEmpty then ⟨0, 0, 0, []⟩
  else if bs.length < 8 then ⟨if leAt bs 0 1 ≠ 1 then St.codecFormat else St.codecTruncated, 0, bs.length, []⟩
  else if leAt bs 0 1 ≠ 1 ∨ rawLen = 2 ^ 48 - 1 then ⟨St.codecFormat, 0, 8, []⟩
  else if rawLen > outLen then ⟨St.codecLimit, 0, 8, []⟩
  else if bitOf (leAt bs 1 1) 0 then
    if bs.length < 8 + rawLen then ⟨St.codecTruncated, 0, 8, []⟩ else ⟨0, 8 + rawLen, 8 + rawLen, (bs.drop 8).take rawLen⟩
  else streamDecodeBlocks (2 ^ esize) (bs.length + 1) rawLen 8 (bs.drop 8) []

end Sys2Proof.Machine
end

