-- ==== Sys2Proof/Machine/Runs.lean ====
section
/-! DEFINITION. Runs and tasks (spec/04_plans_pipelines.md, R71 to R80): binding, the grant, regions in the work area, starting
and ending tasks, failing a run, the statistics area. -/

namespace Sys2Proof.Machine
open Sys2Proof

/-! ## Plans -/

/-- Runs and STANDING items of a plan in flight. -/
def planActive (s : State) (fn id : Nat) : Nat := (s.plans.runs.filter (fun p => p.2.fn == fn && p.2.planId == id)).length
/-- Layout memory that types a STANDING plan's row. -/
def layMem (s : State) (g : Image) : Mem := if g.standing then (tgetD s.ing.layouts g.layout {}).mem else []

/-! ## Tile room (R64, R74, R81) -/

/-- Bound plans that hold a reservation on a logical tile. -/
def hosts (s : State) (t : Nat) : List Image :=
  (s.plans.plans.filter (fun p => p.2.tiles.contains t)).map (fun p => readImage p.2.image)
def lsFree (s : State) (t : Nat) : Nat := 1507328 - sumBy (fun g => g.req.ls) (hosts s t)
def pinFree (s : State) (t : Nat) : Nat := 49152 - sumBy (fun g => sumBy (·.progWords) g.clauses) (hosts s t)
/-- Words of a plan's largest pipeline. -/
def largestPipe (g : Image) : Nat :=
  ((List.range g.pipes.length).map (fun p => sumBy (·.progWords) (g.clausesOf p))).foldl max 0
/-- Tiles of the pool that can offer a run its room. -/
def offering (s : State) (fn ls words : Nat) : List Nat := (poolTiles s fn).filter (fun t => ls ≤ lsFree s t && words ≤ pinFree s t)
/-- Is a tile held by a batch grant? -/
def tileGranted (s : State) (t : Nat) : Bool :=
  s.plans.runs.any (fun p => ! p.2.standing && p.2.granted.contains t) || s.plans.oneTile.any (fun p => p.2 == t)
/-- CAM blocks of a function. -/
def camBlocks (s : State) (fn : Nat) : Nat := ((List.range 16).filter (fun b => holder s.fns.camFn b == fn && ! leavingUnit s 5 b)).length

/-! ## Binding (R72, R73 steps 2 to 6) -/

def bindAt (g : Image) (block : List Byte) (count i : Nat) : Bind :=
  let sl := g.slot i
  let e := sub block (32 * i) 32
  let f := leAt e 3 1
  if i < count ∧ bitOf f 0 then
    if sl.kind = 0 then ⟨true, bitOf f 1, natLane (leAt e 8 9), 0, 0⟩ else ⟨true, false, 0#72, leAt e 8 8, leAt e 16 8⟩
  else if sl.kind = 0 then ⟨false, false, sl.dflt, 0, 0⟩ else ⟨false, false, 0#72, 0, 0⟩
/-- What the columns are that a clause orders by (R97, R138), each where it is read: a COMPUTE operation sees those before it. -/
def orderedCols (g : Image) (c : Clause) : List ColInfo :=
  let cols := g.colsAt [] c.pipe c.pos
  let of := fun (t : Cols) (x : Nat) => tgetD t x ⟨0, 0, none⟩
  match c.kind with
  | 0x02 => ((g.filterTerms c).filter (fun t => 3 ≤ t.top && t.top ≤ 7)).map (fun t => of cols t.col)
  | 0x03 => ((g.cops c).foldl (fun (p : Cols × List ColInfo) o =>
      (tset p.1 o.dst (copInfo (selInfo (of p.1) g.valInfo o) o),
       if 0x12 ≤ o.op ∧ o.op ≤ 0x15 then p.2 ++ [of p.1 (if o.sa < 64 then o.sa else o.sb)] else p.2)) (cols, [])).2
  | 0x08 => (g.keyCols c).map (of cols)
  | 0x09 => (g.keyCols c).map (of cols)
  | _ => []
/-- A table descriptor's checks (R47), its header and its column table unpoisoned. -/
def descCheck (s : State) (ok : Nat → Nat → Bool) (a : Nat) : Option Nat :=
  let t := readTable s.dram a
  if ok a 64 && (poisonedIn s a 64 || (ok t.coltab (32 * t.ncols) && poisonedIn s t.coltab (32 * t.ncols))) then some St.dataPoisoned
  else checkTable s.dram ok a
/-- Checks of the tables that scans read, against their entries (R47, R92, R97, R138). -/
def tableCheck (s : State) (ok : Nat → Nat → Bool) (g : Image) (binds : List Bind) (slots : List Nat) : Option Nat :=
  let tab := fun (i : Nat) => readTable s.dram ((binds[i]?).map (·.addr) |>.getD 0)
  let sorted := fun (o : Option (Nat × Nat)) => match o with
    | some (sl, c) => (readCol s.dram (tab sl) c).dictSorted
    | none => true
  match firstOf (fun i => descCheck s ok ((binds[i]?).map (·.addr) |>.getD 0)) slots with
  | some st => some st
  | none =>
    let scans := g.clauses.filter (fun c => c.kind == Kind.scan)
    match firstOf (fun c =>
      let t := tab (g.pipe c.pipe).ref
      firstOf (fun i =>
        let k := g.cn c (8 + 8 * i) 2
        let d := readCol s.dram t k
        if k ≥ t.ncols then some St.descriptorInvalid
        else if d.type ≠ g.cb c (10 + 8 * i) then some St.typeMismatch
        else if d.scale ≠ g.cb c (11 + 8 * i) then some St.scaleMismatch else none) (List.range (g.cb c 0))) scans with
    | some st => some st
    | none =>
      firstOf (fun c =>
        let need : List ColInfo := orderedCols g c
        if need.any (fun x => x.type == Ty.dict32 && ! sorted x.origin) then some St.typeMismatch else none) g.clauses
/-- Steps 2 to 6 of R73: the bindings, or the first status. Within a step the slots are taken in order; only a TABLE slot that is a
SOURCE has its descriptor checked, a SET's LEN has no limit, and the reserved all-ones LEN of an OUTPUT buffer (R6) is met at step 5
(DESIGN CHOICE, assumption 38). -/
def bindCheck (s : State) (ok : Nat → Nat → Bool) (g : Image) (block : List Byte) (count : Nat) : Except Nat (List Bind) :=
  let n := g.slots.length
  let binds := (List.range n).map (bindAt g block count)
  let here := (List.range n).filter (fun i => ((binds[i]?).map (·.present)).getD false)
  let e := fun (i o k : Nat) => leAt block (32 * i + o) k
  let scanned := if g.standing then here.filter (fun i => (g.slot i).kind == 2)
    else distinct ((g.pipes.filter (fun p => p.source == 0)).map (·.ref))
  match firstOf id [
      firstOf (fun i => if (g.slot i).required ∧ ¬ here.contains i then some St.paramMissing else none) (List.range n),
      firstOf (fun i => if e i 0 1 ≠ (g.slot i).kind ∨ e i 1 1 ≠ (g.slot i).type then some St.paramType
        else if bitOf (e i 3 1) 1 ∧ ¬ (g.slot i).nullOk then some St.nullViolation else none) here,
      firstOf (fun i => if e i 2 1 ≠ (g.slot i).scale then some St.scaleMismatch else none) here,
      firstOf (fun i => if ((g.slot i).kind = 1 ∧ ¬ ok (e i 8 8) (max 1 (16 * e i 16 8)))
          ∨ ((g.slot i).kind = 2 ∧ ¬ ok (e i 8 8) 64) then some St.addressRange
        else if (g.slot i).kind = 3 ∧ e i 16 8 = 2 ^ 64 - 1 then some St.lengthInvalid else none) here,
      tableCheck s ok g binds scanned] with
  | some st => .error st
  | none => .ok binds

/-! ## The work area (R74 step 2, R76) -/

def r4k (x : Nat) : Nat := alignUp x 4096
/-- State bytes of a pipeline, which size its checkpoint slots. -/
def ckBytes (g : Image) (p : Nat) : Nat := r4k (sumBy (·.stateBytes) (g.clausesOf p))
def workNeed (g : Image) (t : Nat) : Nat :=
  sumBy (fun b => r4k b.bytes * t) g.brks
    + sumBy (fun p => 2 * ckBytes g p * min t (g.pipe p).ptiles) (List.range g.pipes.length)
/-- Bytes of `dram` address space before a breaker's regions. -/
def brkOffset (g : Image) (t b : Nat) : Nat := sumBy (fun k => r4k k.bytes * t) (g.brks.take b)
/-- Address of producer task `k`'s region of breaker `b`. -/
def regionAddr (g : Image) (r : Run) (b k : Nat) : Nat :=
  match tget r.scratch b with
  | some o => 0xE000000000 + o + k * r4k (g.brk b).bytes
  | none => r.workAddr + brkOffset g r.tiles b + k * r4k (g.brk b).bytes
/-- Address of checkpoint slot `half` (0 or 1) of task `k` of pipeline `p`: after the breakers, pipeline by pipeline, two slots to a
task. A breaker placed in scratch leaves its room in the work area (DESIGN CHOICE, assumption 38). -/
def ckSlot (g : Image) (r : Run) (p k half : Nat) : Nat :=
  r.workAddr + brkOffset g r.tiles g.brks.length
    + sumBy (fun q => 2 * ckBytes g q * min r.tiles (g.pipe q).ptiles) (List.range p) + (2 * k + half) * ckBytes g p

/-! ## Runs and tasks -/

/-- The scheduler entry of a task. -/
def taskEntry (s : State) (id k : Nat) : Option (Nat × Entry) :=
  s.sched.entries.find? (fun p => p.2.item == id && (p.2.task == some k || p.2.task == none))
/-- Is a task RUNNING on a tile? -/
def taskRuns (s : State) (id k : Nat) : Bool :=
  match taskEntry s id k with
  | some (_, e) => e.st == .running
  | none => false

/-- Do the tasks of a pipeline meet their breakers sealed? -/
def pipeReady (g : Image) (r : Run) (p : Nat) : Bool :=
  g.brks.all (fun b => b.consumer != p || r.ended.contains b.producer)
/-- Tasks a pipeline runs at most. -/
def pipeTasks (g : Image) (r : Run) (p : Nat) : Nat := min r.tiles (g.pipe p).ptiles
def pipeHas (g : Image) (p kind : Nat) : Bool := (g.clausesOf p).any (fun c => c.kind == kind)
/-- Regions of a breaker: the producer's tasks. -/
def regions (g : Image) (r : Run) (b : Nat) : List (Nat × Nat) :=
  sortBy (fun a b => decide (a.1 ≤ b.1))
    ((r.tasks.filter (fun t => t.2.pipe == (g.brk b).producer)).map (fun t => (t.2.idx, tgetD t.2.st.outPos b 0)))
/-- Partition bits of a breaker's regions: PARTITIONS, and AGG_PARTIAL with PBITS above 0. -/
def brkBits (g : Image) (b : Nat) : Nat :=
  match g.producerClause b with
  | some c => if c.kind = Kind.build ∧ g.cb c 0 = 1 then g.cb c 4 + g.cb c 5 else if c.kind = Kind.agg then g.cb c 5 else 0
  | none => 0
/-- Runs of a SORT_RUNS region (R143): address and rows of each. -/
def runsOfRegion (m : Mem) : Nat → Nat → List (Nat × Nat)
  | 0, _ => []
  | n + 1, a => (a, mnat m a 8) :: runsOfRegion m n (a + mnat m (a + 24) 8)
/-- All runs of a breaker in global order (R143). -/
def brkRuns (s : State) (g : Image) (r : Run) (b : Nat) : List (Nat × Nat) :=
  (regions g r b).flatMap (fun (k, n) => if n = 0 then [] else
    let a := regionAddr g r b k
    runsOfRegion s.dram (mnat s.dram a 4) (a + 128))
/-- Units that the tasks of a pipeline claim (R75, R118, R145, R146). -/
def unitCount (s : State) (g : Image) (r : Run) (p : Nat) : Nat :=
  let pe := g.pipe p
  if pe.source = 0 then tgetD r.nsegs pe.ref 0
  else if pe.source = 2 then 1
  else
    match (g.clauseAt p 0).map (fun c => (c.kind, c)) with
    | some (0x0A, c) => if g.cb c 0 = 1 then pipeTasks g r p else ceilDiv (brkRuns s g r pe.ref).length (g.cn c 4 2)
    | _ => if brkBits g pe.ref > 0 then 2 ^ brkBits g pe.ref else (regions g r pe.ref).length
/-- Do units of a pipeline remain unclaimed? -/
def unitsLeft (s : State) (g : Image) (r : Run) (p : Nat) : Bool := tgetD r.claims p 0 < unitCount s g r p

/-- Granted tiles of a run on which none of its tasks runs. -/
def idleTiles (r : Run) : List Nat := r.granted.filter (fun t => ! r.tasks.any (fun k => k.2.tile == t && ! k.2.ended))
/-- Insert the entry of task `k`; the item itself has no entry of its own. -/
def taskEntryIn (s : State) (id : Nat) (it : Item) (k : Nat) : State :=
  modItem (insertEntry s 0 id it (some k) (it.flowKey.bind (findFlow s it.fn)) (some [])) id (fun it => { it with entry := none })
/-- Start task number `idx` of pipeline `p` on a tile. -/
def startTask (s : State) (id p tile : Nat) : State :=
  match getRun s id, getItem s id with
  | some r, some it =>
    let k := r.nextTask
    let i := tgetD r.started p 0
    let r := { r with
      tasks := tset r.tasks k { pipe := p, idx := i, tile := tile, since := now s }, nextTask := k + 1,
      started := tset r.started p (i + 1), startAt := if r.nextTask = 0 then now s else r.startAt }
    let s := setRun s id r
    if entryOpen s 0 then taskEntryIn s id it k
    else { s with sched := { s.sched with waiters := s.sched.waiters ++ [.task id k], rlFull := satAdd 32 s.sched.rlFull 1 } }
  | _, _ => s
/-- May pipeline `p` start a task now? An EXCHANGE pipeline starts all its tasks together (R151). -/
def pipeStarts (s : State) (g : Image) (r : Run) (p : Nat) : Nat :=
  let st := tgetD r.started p 0
  let m := pipeTasks g r p
  let idle := (idleTiles r).length
  if r.ended.contains p ∨ ¬ pipeReady g r p then 0
  else if pipeHas g p Kind.exchange then (if st = 0 ∧ idle ≥ m then m else 0)
  else if st = 0 then min 1 idle
  else if unitsLeft s g r p ∧ st < m then min 1 idle else 0
/-- Start the tasks that can start, lower pipelines first. -/
def startTasks : Nat → State → Nat → State
  | 0, s, _ => s
  | n + 1, s, id =>
    match getRun s id with
    | none => s
    | some r =>
      let g := planImage s r.fn r.planId
      match (List.range g.pipes.length).find? (fun p => pipeStarts s g r p > 0) with
      | none => s
      | some p =>
        let k := pipeStarts s g r p
        startTasks n (((idleTiles r).take k).foldl (fun s t => startTask s id p t) s) id

/-! ## The end of a run -/

/-- A plan that is UNLOADING and has no items left returns to ABSENT (R70): its tables are freed, its layout unbound, its
UNLOAD_PLAN items are ready. -/
def freeTables (s : State) (fn : Nat) (ids : List Nat) : State :=
  let held := fun (i : Nat) => s.plans.plans.any (fun p => p.1 / 1024 == fn && (readImage p.2.image).stids.contains i)
  { s with plans := { s.plans with stabs := s.plans.stabs.filter (fun p => ! (p.1 / 64 == fn && ids.contains (p.1 % 64) && ! held (p.1 % 64))) } }
/-- Remove a plan: ABSENT. -/
def dropPlan (s : State) (fn id : Nat) : State :=
  match getPlan s fn id with
  | none => s
  | some p =>
    let s := { s with plans := { s.plans with plans := terase s.plans.plans (planKey fn id) } }
    freeTables (dropPrograms s fn id) fn (readImage p.image).stids
/-- Sum of a count over a run's tasks. -/
def overTasks (r : Run) (f : TaskSt → Nat) : Nat := sumBy (fun p => f p.2.st) r.tasks
def rowsOut (r : Run) : Nat := overTasks r (·.rowsOut)
/-- The statistics area (Table 4-9) of a run that ended at DEVTIME `fin`; C_BUSY_NS is a free value (assumption 7). -/
def statsBytes (s : State) (g : Image) (r : Run) (fin : Nat) : List Byte :=
  let c64 := fun (n : Nat) => natLE 8 (min n (2 ^ 64 - 1))
  let c32 := fun (n : Nat) => natLE 4 (min n (2 ^ 32 - 1))
  c64 (overTasks r (·.scanned)) ++ c64 (rowsOut r) ++ c64 r.startAt ++ c64 fin ++ natLE 2 r.tiles
    ++ natLE 2 (min r.replays 0xFFFF) ++ c32 r.checkpoints ++ c64 (overTasks r (·.segments)) ++ c64 r.workUsed ++ natLE 8 0
    ++ g.clauses.flatMap (fun c =>
      let of := fun (f : TaskSt → Tab Nat) => overTasks r (fun t => tgetD (f t) c.idx 0)
      c64 (of (·.cIn)) ++ c64 (of (·.cOut)) ++ c32 (of (·.cSat)) ++ c32 (of (·.cWrap))
        ++ natLE 8 (Config.busyNs (s.freeCtr + c.idx)).toNat)
/-- Write the statistics area when the item asks for it (R79). -/
def writeArea (s : State) (r : Run) (fin : Nat) : State :=
  if r.statsAddr = 0 ∨ r.standing then s
  else
    let g := planImage s r.fn r.planId
    let s := hostWrite s r.statsAddr (statsBytes s g r fin)
    { s with freeCtr := s.freeCtr + g.clauses.length }
def writeStats (s : State) (id fin : Nat) : State :=
  match getRun s id with
  | none => s
  | some r => writeArea s r fin
/-- Free what a run holds: its tiles, its scratch slots, its threads; its plan may now return to ABSENT. -/
def endRun (s : State) (id : Nat) : State :=
  match getRun s id with
  | none => s
  | some r =>
    let s := { s with plans := { s.plans with
      runs := terase s.plans.runs id, grantWait := s.plans.grantWait.filter (· != id) } }
    let s := endEntries s id
    let s := { s with sched := { s.sched with waiters := s.sched.waiters.filter (fun w => match w with
      | .task i _ => i != id
      | _ => true) } }
    r.slots.foldl scratchOff s
/-- Add a STANDING item's clamp and NULL counts to its plan (R83); a run's too (Table 4-13). -/
def addPlanCounts (s : State) (r : Run) : State :=
  match getPlan s r.fn r.planId with
  | none => s
  | some p =>
    let total := fun (f : TaskSt → Tab Nat) => overTasks r (fun t => sumBy (·.2) (f t))
    setPlan s r.fn r.planId { p with
      sat := satAdd 32 p.sat (total (·.cSat)), wrapnull := satAdd 32 p.wrapnull (total (·.cWrap)) }
/-- A run fails (R78, R89): the place is noted, the statistics written, everything the run holds freed, and the item completes. -/
def failRun (s : State) (id st : Nat) (place : Nat × Nat × Nat × Nat) : State :=
  let s := modItem s id (fun it => { it with place := place })
  let s := match getRun s id with
    | some r => addPlanCounts s r
    | none => s
  let s := endRun (writeStats s id (now s)) id
  failItem s id st 0 0
/-- No place: CLAUSE 0xFFFF, PLACE_VALID 0. -/
def noPlace : Nat × Nat × Nat × Nat := (0xFFFF, 0, 0, 0)
/-- The place of a failing row of a batch at a clause (R89); a row of a message has none. -/
def rowPlace (c : Clause) (b : Batch) (r : Row) : Nat × Nat × Nat × Nat :=
  if b.placeKind = 2 then (c.idx, 0, 0, 0) else (c.idx, 1 + 2 * b.placeKind, r.region, r.src)

/-! ## The end of a task -/

/-- Clauses that write or emit at the end of their input. -/
def needsFlush (g : Image) (c : Clause) : Bool :=
  (c.kind == Kind.build && g.cb c 0 == 1) || c.kind == Kind.agg || c.kind == Kind.sort || c.kind == Kind.topn || c.kind == Kind.merge || c.kind == Kind.exchange
/-- Has everything before position `pos` of a task ended? -/
def upstreamDone (g : Image) (t : Task) (pos : Nat) : Bool :=
  t.st.srcDone && (List.range pos).all (fun j => (tgetD t.st.inq j []).isEmpty
    && (match g.clauseAt t.pipe j with
      | some c => ! needsFlush g c || t.st.flushed.contains j
      | none => true))
/-- Has a task nothing left to do? -/
def taskDone (g : Image) (t : Task) : Bool :=
  upstreamDone g t (g.pipe t.pipe).ncl
/-- Bytes of one output row. -/
def outRowBytes (form : Nat) (cols : List Nat) (r : Row) : List Byte :=
  cols.flatMap (fun c => if form = 0 then pack9 (rowCol r c) else lane16 (rowCol r c))
/-- A row of NULLs. -/
def nullRow : Row := { src := 0, cols := [] }
/-- Write rows at their row numbers in an OUTPUT buffer (R514). -/
def writeRows (s : State) (addr w form : Nat) (cols : List Nat) (ps : List (Nat × Row)) : State :=
  ps.foldl (fun s p => hostWrite s (addr + p.1 * w) (outRowBytes form cols p.2)) s
/-- Columns and width of the rows of an OUTPUT clause. -/
def outCols (g : Image) (c : Clause) : List Nat := g.cbs c 8 (g.cb c 0)
def outWidth (g : Image) (c : Clause) : Nat := g.cb c 0 * (if g.cb c 1 = 0 then 9 else 16)
/-- The ranges that a replay has not reached when its task ends are written with every lane NULL, and counted (R514). -/
def fillReuse (s : State) (id k : Nat) (g : Image) (r : Run) (t : Task) : State :=
  match (g.clausesOf t.pipe).find? (fun c => c.kind == Kind.output) with
  | none => s
  | some c =>
    let addr := ((r.binds[g.cn c 2 2]?).map (·.addr)).getD 0
    let n := sumBy (fun q => q.2.2) t.reuse
    let s := t.reuse.foldl (fun s q => writeRows s addr (outWidth g c) (g.cb c 1) (outCols g c)
      ((List.range q.2.2).map (fun i => (q.2.1 + i, nullRow)))) s
    modTask s id k (fun t => { t with reuse := [], ranges := t.ranges ++ t.reuse, st := { t.st with
      rowsOut := t.st.rowsOut + n, cOut := if n = 0 then t.st.cOut else tset t.st.cOut c.idx (tgetD t.st.cOut c.idx 0 + n) } })
/-- End a task whose work is done; then its pipeline, the run, and what follows. -/
def settleTask (s : State) (id k : Nat) : State :=
  match getRun s id, getTask s id k with
  | some r, some t =>
    let g := planImage s r.fn r.planId
    if t.ended ∨ ¬ taskDone g t then s
    else if r.standing then modTask (itemReady s id 0 0) id k (fun t => { t with ended := true })
    else
      let s := modTask (fillReuse s id k g r t) id k (fun t => { t with ended := true })
      let s := match taskEntry s id k with
        | some (e, _) => endEntry s e
        | none => s
      match getRun s id with
      | none => s
      | some r =>
        let p := t.pipe
        let s := if r.tasks.all (fun q => q.2.pipe != p || q.2.ended) ∧ ¬ unitsLeft s g r p then
            setRun s id { r with ended := r.ended ++ [p] } else s
        let s := startTasks 256 s id
        let s := match getRun s id with
          | some r => if (List.range g.pipes.length).all (fun p => r.ended.contains p) then itemReady s id (rowsOut r) 0 else s
          | none => s
        schedule s
  | _, _ => s

/-! ## The grant (R74) -/

/-- Tiles a waiting item could be granted now. -/
def grantable (s : State) (fn ls words : Nat) : List Nat := (offering s fn ls words).filter (fun t => ! tileGranted s t)
/-- Largest number of tiles, from `hi` down to `lo`, whose need fits. -/
def fitTiles (g : Image) (len lo : Nat) : Nat → Option Nat
  | 0 => none
  | t + 1 => if t + 1 < lo then none else if workNeed g (t + 1) ≤ len then some (t + 1) else fitTiles g len lo t
/-- Place the CACHE_PREF breakers of a run in scratch when its ways can be converted and they fit (R76, R253). -/
def placeScratch (s : State) (id : Nat) (g : Image) : State :=
  match getRun s id with
  | none => s
  | some r =>
    match freeSlots s g.req.ways with
    | none => s
    | some (q, ways) =>
      let part := partOf s r.fn
      let s := (ways.zipIdx).foldl (fun s (w, i) => scratchOn s (q + i) w part true) s
      let cap := ways.length * 4194304
      let t := r.granted.length
      let pl := (List.range g.brks.length).foldl (fun (acc : Nat × Tab Nat) b =>
        let n := r4k (g.brk b).bytes * t
        if (g.brk b).place = 1 ∧ acc.1 + n ≤ cap then (acc.1 + n, tset acc.2 b (q * 4194304 + acc.1)) else acc) (0, [])
      setRun s id { r with slots := (List.range ways.length).map (q + ·), scratch := pl.2 }
/-- Grant a waiting run, if its TILES_MIN can be met. -/
def grantRun (s : State) (id : Nat) : Option State :=
  match getRun s id with
  | none => none
  | some r =>
    let g := planImage s r.fn r.planId
    let free := grantable s r.fn g.req.ls (largestPipe g)
    if ¬ r.waiting ∨ free.length < g.req.tmin then none
    else
      match fitTiles g r.workLen g.req.tmin (min g.req.tmax free.length) with
      | none => none
      | some t =>
        let s := setRun s id { r with waiting := false, granted := free.take t, tiles := t, workUsed := workNeed g t }
        let s := placeScratch s id g
        some (schedule (startTasks 256 s id))
/-- Grant an item that needs one tile (CODEC, TABLE_APPEND): its TASK entry, held since its consumption, becomes eligible on
that tile. -/
def grantOne (s : State) (id : Nat) : Option State :=
  match getItem s id with
  | none => none
  | some it =>
    match grantable s it.fn 0 0 with
    | [] => none
    | t :: _ =>
      match it.entry with
      | none => none
      | some e =>
        if ((tget s.sched.entries e).map (·.st)) ≠ some .ready then none
        else
          let s := { s with plans := { s.plans with oneTile := tset s.plans.oneTile id t } }
          some (schedule (modEntry s e (fun x => { x with elig := some [t] })))
/-- Grant one waiting item. -/
def grantItem (s : State) (id : Nat) : Option State := if (getRun s id).isSome then grantRun s id else grantOne s id
/-- Waiting items in order of effective deadline, then of consumption. -/
def grantOrder (s : State) : List Nat :=
  sortBy (fun a b =>
    let d := effDeadline s
    decide (d a < d b) || (d a == d b && decide (a ≤ b))) s.plans.grantWait
/-- RUN_GRANT (R74 step 4): in order, every waiting item whose tiles are free is granted; one that cannot yet be holds back none. -/
def grantAll (s : State) (ids : List Nat) : State :=
  ids.foldl (fun s id => match grantItem s id with
    | some t => { t with plans := { t.plans with grantWait := t.plans.grantWait.filter (· != id) } }
    | none => s) s
def doRunGrant (s : State) : State := grantAll s (grantOrder s)

end Sys2Proof.Machine
end

