-- ==== Sys2Proof/Machine/ScanClauses.lean ====
section
/-! DEFINITION. Scan, filter, compute and output clauses on batches (spec/05_scan_filter_compute.md, R86 to R108, R513, R514),
and how a batch moves down its pipeline. -/

namespace Sys2Proof.Machine
open Sys2Proof

/-! ## The batch at a clause -/

/-- What a batch command works on. -/
structure Ctx where
  run : Run
  g : Image
  t : Task
  c : Clause
/-- Does a pipeline read or write a breaker in a scratch slot that is not READY (R253)? Its tasks wait. -/
def scratchWaits (s : State) (r : Run) (g : Image) (p : Nat) : Bool :=
  r.scratch.any (fun b => (g.brk b.1).producer == p || (g.brk b.1).consumer == p) && r.slots.any (fun q => rfld s (slotReg q) 0 0 0 == 0)
/-- The context of clause `pos` of task `k` of item `id`, when the task is RUNNING and the clause is of this kind. -/
def ctxAt (s : State) (id k pos kind : Nat) : Option Ctx :=
  match getRun s id with
  | none => none
  | some r =>
    match tget r.tasks k with
    | none => none
    | some t =>
      let g := planImage s r.fn r.planId
      match g.clauseAt t.pipe pos with
      | none => none
      | some c => if c.kind = kind ∧ taskRuns s id k ∧ ¬ t.ended ∧ ! scratchWaits s r g t.pipe then some ⟨r, g, t, c⟩ else none
def modSt (s : State) (id k : Nat) (f : TaskSt → TaskSt) : State := modTask s id k (fun t => { t with st := f t.st })
/-- Keep a clause's state, in State and in the local store of the task's tile. -/
def setCst (s : State) (id k : Nat) (x : Ctx) (v : CState) : State :=
  modSt (if x.c.stateBytes = 0 then s else storeClause s x.run x.g x.t.tile x.c v) id k (fun t => { t with cst := tset t.cst x.c.pos v })
/-- Column information at the input of a clause. -/
def colsHere (s : State) (x : Ctx) : Cols := x.g.colsAt (layMem s x.g) x.t.pipe x.c.pos
/-- The first batch at a clause's input. -/
def headBatch (x : Ctx) : Option Batch := (tgetD x.t.st.inq x.c.pos []).head?
/-- Take the first batch at position `pos`. -/
def popBatch (s : State) (id k pos : Nat) : State := modSt s id k (fun t => { t with inq := tset t.inq pos ((tgetD t.inq pos []).drop 1) })
/-- Put a batch at the input of position `pos`. -/
def pushBatch (s : State) (id k pos : Nat) (b : Batch) : State :=
  if b.rows.isEmpty then s else modSt s id k (fun t => { t with inq := tset t.inq pos (tgetD t.inq pos [] ++ [b]) })
/-- Count rows in and out, clamps and NULLs of a clause (R79). -/
def countClause (s : State) (id k : Nat) (c : Clause) (i o sat wrap : Nat) : State :=
  let add := fun (t : Tab Nat) (n : Nat) => if n = 0 then t else tset t c.idx (tgetD t c.idx 0 + n)
  modSt s id k (fun t => { t with cIn := add t.cIn i, cOut := add t.cOut o, cSat := add t.cSat sat, cWrap := add t.cWrap wrap })

/-- The item fails on a batch at a clause: the batch's rows have entered it (Table 4-9; DEDUCED, assumption 10). -/
def failBatch (s : State) (id k : Nat) (x : Ctx) (b : Batch) (st : Nat) (place : Nat × Nat × Nat × Nat) : State :=
  failRun (countClause s id k x.c b.rows.length 0 0 0) id st place

/-! ## Breaker regions -/

/-- Bytes written to the task's region of a breaker. -/
def regionPos (t : Task) (b : Nat) : Nat := tgetD t.st.outPos b 0
/-- Append bytes to the task's region; none when BYTES_PER_TASK would be exceeded (R76). -/
def regionAppend (s : State) (id k : Nat) (x : Ctx) (b : Nat) (bs : List Byte) : Option State :=
  let t := (getTask s id k).getD x.t
  let p := regionPos t b
  if p + bs.length > (x.g.brk b).bytes then none
  else
    let s := dramWrite s (partOf s x.run.fn) (regionAddr x.g x.run b t.idx + p) bs
    some (modSt s id k (fun t => { t with outPos := tset t.outPos b (p + bs.length) }))
/-- Rows of `w` lanes in PACK9 form from bytes of memory. -/
def lanesAt (m : Mem) (a w : Nat) : List Lane := (List.range w).map (fun i => natLane (mnat m (a + 9 * i) 9))
def rowsAt (m : Mem) (a w n : Nat) : List (List Lane) := (List.range n).map (fun i => lanesAt m (a + 9 * w * i) w)
/-- A page of a partitioned region (R117): NEXT, PROWS, and rows of `w` lanes. -/
def pageRows (w : Nat) : Nat := 4080 / (9 * w)
/-- Rows of a partition of a region, over its chain of pages. -/
def chainRows (m : Mem) (base w : Nat) : Nat → Nat → List (List Lane)
  | 0, _ => []
  | n + 1, p => if p = 0 then [] else rowsAt m (base + p + 16) w (mnat m (base + p + 8) 2) ++ chainRows m base w n (mnat m (base + p) 8)
def partRows (m : Mem) (base w part size : Nat) : List (List Lane) :=
  chainRows m base w (size / 4096 + 1) (mnat m (base + 16 * part) 8)
/-- Append one row to a partition of the task's region: into the last page, or into a new page. None when the region is full. The task
keeps its directory, so that a replay writes the same rows at the same places (R94, R117). -/
def pageAppend (s : State) (id k : Nat) (x : Ctx) (b bits part : Nat) (row : List Lane) : Option State :=
  let t := (getTask s id k).getD x.t
  let base := regionAddr x.g x.run b t.idx
  let dir := 16 * 2 ^ bits
  let w := row.length
  let put := fun (s : State) (off : Nat) (bs : List Byte) => dramWrite s (partOf s x.run.fn) (base + off) bs
  let s := if regionPos t b = 0 then put s 0 (natLE dir 0) else s
  let pos := if regionPos t b = 0 then dir else regionPos t b
  let key := b * 65536 + part
  let e := tgetD t.st.parts key {}
  let bs := row.flatMap pack9
  let save := fun (s : State) (pos : Nat) (e : PartDir) =>
    modSt (put s (16 * part) (natLE 8 e.first ++ natLE 8 e.rows)) id k (fun t => { t with outPos := tset t.outPos b pos, parts := tset t.parts key e })
  if e.first ≠ 0 ∧ e.prows < pageRows w then
    let s := put (put s (e.last + 16 + 9 * w * e.prows) bs) e.last (natLE 8 0 ++ natLE 2 (e.prows + 1) ++ natLE 6 0)
    some (save s pos { e with rows := e.rows + 1, prows := e.prows + 1 })
  else if pos + 4096 > (x.g.brk b).bytes then none
  else
    let s := put s pos (natLE 8 0 ++ natLE 2 1 ++ natLE 6 0 ++ bs)
    let s := if e.first = 0 then s else put s e.last (natLE 8 pos)
    some (save s (pos + 4096) ⟨if e.first = 0 then pos else e.first, pos, e.rows + 1, 1⟩)

/-! ## Leaving the last clause -/

/-- The ROWS breaker that a pipeline produces and no clause writes (assumption 12). -/
def rowsBreaker (g : Image) (p : Nat) : Option Nat :=
  (List.range g.brks.length).find? (fun b => (g.brk b).producer == p && (g.brk b).kind == 1)
/-- A batch leaves clause `x.c`: to the next clause, or, after the last one, into a ROWS breaker; the row of a STANDING item
is kept for its reply. None when the region is full. -/
def emit (s : State) (id k : Nat) (x : Ctx) (b : Batch) : Option State :=
  if x.c.pos + 1 < (x.g.pipe x.t.pipe).ncl then some (pushBatch s id k (x.c.pos + 1) b)
  else if x.run.standing then
    match getRun s id with
    | some r => some (setRun s id { r with outRow := b.rows.head? })
    | none => some s
  else
    match rowsBreaker x.g x.t.pipe with
    | none => some s
    | some bk =>
      let cols := ((x.g.colsAlong (layMem s x.g) 65 x.t.pipe).getLast?).getD []
      b.rows.foldl (fun s r => s.bind (fun s => regionAppend s id k x bk (cols.flatMap (fun p => pack9 (rowCol r p.1))))) (some s)
/-- Cut rows into batches of at most 512: the source blocks of a unit, from number `block` on. -/
def batchesOf (kind unit : Nat) : Nat → Nat → List Row → List Batch
  | 0, _, _ => []
  | n + 1, block, rs => if rs.isEmpty then [] else
      ⟨(rs.take 512).length, rs.take 512, kind, unit, block⟩ :: batchesOf kind unit n (block + 1) (rs.drop 512)
def toBatches (kind unit : Nat) (rs : List Row) : List Batch := batchesOf kind unit (rs.length / 512 + 1) 0 rs
/-- The batches that a clause makes of a batch of its input. -/
def splitBatch (b : Batch) (rs : List Row) : List Batch := (toBatches b.placeKind b.unit rs).map (fun q => { q with block := b.block })
/-- Emit batches in order. -/
def emitAll (s : State) (id k : Nat) (x : Ctx) (bs : List Batch) : Option State :=
  bs.foldl (fun s b => s.bind (fun s => emit s id k x b)) (some s)
/-- Finish a command: the task may be done; or the item fails because a region is full. -/
def finishCmd (s : State) (id k : Nat) (x : Ctx) (r : Option State) : State :=
  match r with
  | some t => settleTask t id k
  | none => failRun s id St.workAreaFull (x.c.idx, 0, 0, 0)

/-! ## Sources that no clause of their own reads (R75, R118) -/

/-- Claim the next unit of a pipeline's source for task `k`: first those a replay must work through again, then from the
run's counter. -/
def claimUnit (s : State) (id k p : Nat) (g : Image) : Option (Nat × State) :=
  match getRun s id, getTask s id k with
  | some r, some t =>
    match t.redo with
    | n :: rest => some (n, modTask s id k (fun t => { t with redo := rest, units := t.units ++ [n] }))
    | [] =>
      if unitsLeft s g r p then
        let n := tgetD r.claims p 0
        some (n, modTask (setRun s id { r with claims := tset r.claims p (n + 1) }) id k (fun t => { t with units := t.units ++ [n] }))
      else none
  | _, _ => none
/-- Rows of a region with their places. -/
def placed (k : Nat) (rows : List (List Lane)) : List (Nat × Nat × List Lane) := (rows.zipIdx).map (fun (l, i) => (k, i, l))
/-- Producer task and bytes of region `n` of a breaker. -/
def regionOf (g : Image) (r : Run) (b n : Nat) : Nat × Nat := ((regions g r b)[n]?).getD (0, 0)
/-- Rows of `w` lanes of unit `n` of a breaker: of one producer region, or of one partition in every region (R118); each with its region and
its row there (R89), which for a partition is its place in the chain of pages (DESIGN CHOICE, assumption 12). -/
def unitLanes (s : State) (g : Image) (r : Run) (b w n : Nat) : List (Nat × Nat × List Lane) :=
  if brkBits g b > 0 then
    (regions g r b).flatMap (fun (k, size) => if size = 0 then [] else placed k (partRows s.dram (regionAddr g r b k) w n size))
  else
    let q := regionOf g r b n
    placed q.1 (rowsAt s.dram (regionAddr g r b q.1) w (q.2 / (9 * max 1 w)))
/-- Lines of a partition of a region: its directory entry and its pages. -/
def chainSpans (m : Mem) (base w : Nat) : Nat → Nat → List (Nat × Nat)
  | 0, _ => []
  | n + 1, p => if p = 0 then [] else (base + p, 16 + 9 * w * mnat m (base + p + 8) 2) :: chainSpans m base w n (mnat m (base + p) 8)
/-- Address and bytes of what a claimed unit reads. -/
def unitSpans (s : State) (g : Image) (r : Run) (b w n : Nat) : List (Nat × Nat) :=
  if brkBits g b > 0 then
    (regions g r b).flatMap (fun (k, size) => if size = 0 then [] else
      let base := regionAddr g r b k
      (base + 16 * n, 16) :: chainSpans s.dram base w (size / 4096 + 1) (mnat s.dram (base + 16 * n) 8))
  else
    let q := regionOf g r b n
    [(regionAddr g r b q.1, q.2)]
/-- Is any of some bytes poisoned (R464)? What another task wrote is not written again by a replay, so the item fails. -/
def spansBad (s : State) (l : List (Nat × Nat)) : Bool := l.any (fun p => poisonedIn s p.1 p.2)
/-- The accesses of reading some bytes. -/
def spansTouch (s : State) (fn : Nat) (l : List (Nat × Nat)) : State := l.foldl (fun s p => dramTouch s (partOf s fn) p.1 p.2) s
/-- Batch columns to which the rows of a ROWS, HASH_TABLE or PARTITIONS breaker return. -/
def brkCols (s : State) (g : Image) (b : Nat) : List Nat :=
  if (g.brk b).kind = 1 then (((g.colsAlong (layMem s g) 65 (g.brk b).producer).getLast?).getD []).map (·.1)
  else match g.producerClause b with
    | none => []
    | some c => g.keyCols c ++ g.payCols c
/-- Rows as batch rows over columns. -/
def rowsOver (cols : List Nat) (rows : List (Nat × Nat × List Lane)) : List Row :=
  rows.map (fun (k, i, l) => { src := i, region := k, cols := (cols.zip l).foldl (fun t p => tset t p.1 p.2) [] })
/-- Every input of the task is empty. -/
def inputsEmpty (t : Task) : Bool := t.st.inq.all (fun p => p.2.isEmpty)
/-- Note a task as it stands before a source block (R142). -/
def markBlock (s : State) (id k : Nat) : State := modTask s id k (fun t => { t with blockSt := t.st, blockUnits := t.units.length })
/-- Fill the input of position 0 from a BREAKER or INGEST_ROW source when nothing is under way in the task; the end of the
claims ends the source. A poisoned line fails the item. -/
def pullSource (s : State) (id k : Nat) : State :=
  match getRun s id, getTask s id k with
  | some r, some t =>
    let g := planImage s r.fn r.planId
    let pe := g.pipe t.pipe
    let kind := ((g.clauseAt t.pipe 0).map (·.kind)).getD 0
    if pe.source = 0 ∨ t.st.srcDone ∨ ¬ inputsEmpty t ∨ (pe.source = 1 ∧ ((g.brk pe.ref).kind = 3 ∨ (g.brk pe.ref).kind = 4)) then s
    else if kind = Kind.scan then s
    else
      match claimUnit (markBlock s id k) id k t.pipe g with
      | none => modSt s id k (fun t => { t with srcDone := true, claim := none })
      | some (n, s) =>
        let cols := brkCols s g pe.ref
        let spans := if pe.source = 1 then unitSpans s g r pe.ref cols.length n else []
        let rows := if pe.source = 2 then
            match (getItem s id).bind (·.msg) with
            | some m => [{ src := 0, cols := (m.row.zipIdx).foldl (fun c (l, i) => tset c i (l.getD nullLane)) [] : Row }]
            | none => []
          else rowsOver cols (unitLanes s g r pe.ref cols.length n)
        if spansBad s spans then failRun s id St.dataPoisoned (((g.clauseAt t.pipe 0).map (·.idx)).getD 0, 3, n, 0)
        else
          let s := modSt (spansTouch s r.fn spans) id k (fun t => { t with claim := some n })
          (toBatches pe.source n rows).foldl (fun s b => pushBatch s id k 0 b) s
  | _, _ => s

/-! ## The receiving side of an exchange (R151 to R153) -/

/-- Order of tags. -/
def Tag.lt (a b : Tag) : Bool := a.unit < b.unit || (a.unit == b.unit && (a.block < b.block || (a.block == b.block && a.sub < b.sub)))
/-- Tasks of a pipeline in ascending order of their tiles: destination d is the d-th. -/
def destTasks (r : Run) (p : Nat) : List (Nat × Task) :=
  sortBy (fun a b => decide (a.2.idx ≤ b.2.idx)) (r.tasks.filter (fun t => t.2.pipe == p))
/-- Has task `recv` not taken a fragment of a sender yet? -/
def untaken (recv : TaskSt) (sender : Nat) (f : Frag) : Bool :=
  match tget recv.marks sender with
  | some m => m.lt f.tag
  | none => true
/-- Fragments sent to a receiver that it has not taken yet. -/
def inFlight (r : Run) (p recv : Nat) : List Frag :=
  match tget r.tasks recv with
  | none => []
  | some q => (destTasks r p).flatMap (fun t => t.2.st.outbox.filter (fun f => f.dst == recv && untaken q.st t.1 f))
/-- Fragments of one sender in an inbox whose blocks are whole: those up to the last one flagged LAST. -/
def wholeFrags (inbox : List (Nat × Frag)) (sender : Nat) : List Frag :=
  (((inbox.filter (fun f => f.1 == sender)).map (·.2)).reverse.dropWhile (fun f => ! f.last)).reverse
/-- Leading fragments of at most 512 rows together. -/
def upTo512 : Nat → List Frag → List Frag
  | _, [] => []
  | n, f :: fs => if n + f.rows.length > 512 then [] else f :: upTo512 (n + f.rows.length) fs
/-- The next batch of an inbox (R152), and the inbox without it: whole blocks of the lowest sender that has one, coalesced in tag order. -/
def nextInBatch (kind : Nat) (inbox : List (Nat × Frag)) : Option (Batch × List (Nat × Frag)) :=
  match (sortBy (fun a b => decide (a ≤ b)) (inbox.map (·.1))).find? (fun sd => ! (wholeFrags inbox sd).isEmpty) with
  | none => none
  | some sd =>
    let fs := upTo512 0 (wholeFrags inbox sd)
    let rows := fs.flatMap (·.rows)
    let t := (fs.head?.map (·.tag)).getD ⟨0, 0, 0⟩
    some (⟨rows.length, rows, kind, t.unit, t.block⟩, inbox.filter (fun f => ! (f.1 == sd && fs.contains f.2)))
/-- The tasks that hold END from all senders, with nothing on its way to them and an empty inbox, have passed their exchange. -/
def exchMark (s : State) (id p pos : Nat) : State :=
  match getRun s id with
  | none => s
  | some r =>
    let ts := destTasks r p
    if ts.all (fun t => t.2.st.endSent) then
      (ts.filter (fun t => (inFlight r p t.1).isEmpty && t.2.st.inbox.isEmpty && ! t.2.st.flushed.contains pos)).foldl
        (fun s t => modSt s id t.1 (fun q => { q with flushed := q.flushed ++ [pos] })) s
    else s
/-- The clause after an exchange takes its next batch from the inbox when it has none. -/
def exchTake (s : State) (id k : Nat) (x : Ctx) : State :=
  match getTask s id k with
  | none => s
  | some t =>
    if ! (tgetD t.st.inq (x.c.pos + 1) []).isEmpty then s
    else match nextInBatch (x.g.pipe x.t.pipe).source t.st.inbox with
      | none => s
      | some (b, rest) => exchMark (modSt (pushBatch (markBlock s id k) id k (x.c.pos + 1) b) id k (fun q => { q with inbox := rest })) id t.pipe x.c.pos

/-! ## Feeding a clause -/

/-- What may bring a batch to position `pos`: the pipeline's source, or the inbox of the exchange before it. -/
def feed (s : State) (id k pos : Nat) : State :=
  if pos = 0 then pullSource s id k
  else match ctxAt s id k (pos - 1) Kind.exchange with
    | some x => exchTake s id k x
    | none => s
/-- The context of a clause at which a batch waits, once what feeds it has been asked. -/
def batchAt (s : State) (id k pos kind : Nat) : Option (State × Ctx × Batch) :=
  match ctxAt s id k pos kind with
  | none => none
  | some x =>
    let s := if (headBatch x).isNone then feed s id k pos else s
    match ctxAt s id k pos kind with
    | none => none
    | some x => (headBatch x).map (fun b => (s, x, b))
/-- With no batch to work on, a command still notes the end of what feeds it. -/
def noBatch (s : State) (id k pos kind : Nat) : State :=
  match ctxAt s id k pos kind with
  | none => s
  | some _ => settleTask (feed s id k pos) id k

/-! ## Scan (R93) -/

/-- The table a pipeline scans. -/
def scanTable (s : State) (x : Ctx) : TableDesc :=
  readTable s.dram ((x.run.binds[(x.g.pipe x.t.pipe).ref]?).map (·.addr) |>.getD 0)
/-- Plane reference of a column's low or high plane. -/
def planeRef (s : State) (sg : SegDesc) (col : Nat) (high : Bool) : Nat := mnat s.dram (sg.planes + 16 * col + 8 * b2n high) 8
/-- The checks of a segment entry and of the planes of columns (R47, R52). -/
def segCheck (s : State) (fn : Nat) (t : TableDesc) (sg : SegDesc) (cols : List Nat) : Option Nat :=
  let ok := winOk s fn
  if sg.rowBase ≥ 2 ^ 48 ∨ sg.rows > 65536 ∨ sg.planes % 128 ≠ 0 ∨ sg.delplane % 128 ≠ 0 then some St.descriptorInvalid
  else if ¬ ok sg.planes (16 * t.ncols) ∨ (sg.delplane ≠ 0 ∧ ¬ ok sg.delplane 8192) then some St.addressRange
  else if poisonedIn s sg.planes (16 * t.ncols) then some St.dataPoisoned
  else firstOf (fun c => firstOf (fun high =>
    let ref := planeRef s sg c high
    let base := planeBase ref
    if ¬ planeRefOk ref high then some St.descriptorInvalid
    else if ¬ ok base 128 then some St.addressRange
    else if poisonedIn s base 128 then some St.dataPoisoned
    else if ¬ planeHeaderOk s.dram base (planeRatio ref) sg.rows high then some St.descriptorInvalid
    else if ¬ ok base (planeSize high (planeRatio ref) (planeBlocks sg.rows) (planeNesc s.dram base)) then some St.addressRange
    else none) [false, true]) cols
/-- A plane as the scan keeps it for its segment. -/
def planeView (s : State) (sg : SegDesc) (col : Nat) (high : Bool) : PlaneView :=
  let ref := planeRef s sg col high
  ⟨ref, planeEscMap s.dram (planeBase ref)⟩
/-- A segment as the scan reads its entry (R48), with the planes of the scanned columns. -/
def segView (s : State) (sg : SegDesc) (cols : List Nat) : SegView :=
  ⟨sg.rowBase, sg.rows, sg.delplane, cols.map (fun c => (c, planeView s sg c false, planeView s sg c true))⟩
/-- Where block `b` of a plane lies, and its bytes there. -/
def blockSpan (p : PlaneView) (rows b : Nat) (high : Bool) : Nat × Nat :=
  let q := blockAddr p.esc (planeBase p.ref) (planeRatio p.ref) (planeBlocks rows) b high
  (q.1, if q.2 then rawBlock high else slotSize high (planeRatio p.ref))
/-- The lanes of a column's block, or the status of its fault. -/
def blockLanes (s : State) (v : SegView) (col b : Nat) : Except Nat (List Lane) :=
  match tget v.planes col with
  | none => .error St.codecFormat
  | some (lo, hi) =>
    let bad := fun (p : PlaneView) (high : Bool) => poisonedIn s (blockSpan p v.rows b high).1 (blockSpan p v.rows b high).2
    if bad lo false ∨ bad hi true then .error St.dataPoisoned
    else match planeBlock s.dram lo.esc lo.ref v.rows b false, planeBlock s.dram hi.esc hi.ref v.rows b true with
      | some l, some h => .ok ((l.zip h).map (fun p => joinLane p.1 p.2))
      | _, _ => .error St.codecFormat
/-- Batch column and table column of each entry of a scan. -/
def scanEnts (x : Ctx) : List (Nat × Nat) := (List.range (x.g.cb x.c 0)).map (fun i => (x.g.cn x.c (8 + 8 * i) 2, x.g.cb x.c (12 + 8 * i)))
/-- Step 5 of R93: every entry's block decoded into the rows, or the status of the first that fails. -/
def decodeEnts (s : State) (v : SegView) (b : Nat) : List (Nat × Nat) → List Row → Except Nat (List Row)
  | [], rows => .ok rows
  | e :: es, rows =>
    match blockLanes s v e.1 b with
    | .error st => .error st
    | .ok ls => decodeEnts s v b es (rows.map (fun r => { r with cols := tset r.cols e.2 ((ls[r.src - 512 * b]?).getD nullLane) }))
/-- The first selected row that breaks a column's NOT_NULL, or whose DICT32 code leaves its dictionary (R34, R42). -/
def rowFault (s : State) (t : TableDesc) (rows : List Row) (ents : List (Nat × Nat)) : Option (Nat × Nat) :=
  let first := fun (f : ColDesc → Lane → Bool) (st : Nat) => ents.findSome? (fun e =>
    let d := readCol s.dram t e.1
    (rows.find? (fun r => f d (rowCol r e.2))).map (fun r => (st, r.src)))
  (first (fun d l => d.notNull && l == nullLane) St.nullViolation) <|>
    (first (fun d l => d.type == Ty.dict32 && l != nullLane && decide (l.toNat ≥ d.dictCount)) St.dictRange)
/-- The batch of block `b` of a segment, its count of rows and of rows not deleted; or a status with the failing row. -/
def scanBlock (s : State) (x : Ctx) (t : TableDesc) (v : SegView) (seg b : Nat) : Except (Nat × Nat) (Batch × Nat) :=
  let n := min 512 (v.rows - 512 * b)
  let incl := bitOf (x.g.cb x.c 1) 0
  let live := (List.range n).filter (fun j => ! rowDeleted s.dram v.delplane (512 * b + j))
  let sel := if incl then List.range n else live
  let rows0 := sel.map (fun j =>
    let gone := ! live.contains j
    let c : Tab Lane := if incl then [(x.g.cb x.c 2, boolLane gone)] else []
    let c := if bitOf (x.g.cb x.c 1) 1 then tset c (x.g.cb x.c 3) (natLane (v.rowBase + 512 * b + j)) else c
    { src := 512 * b + j, region := seg, cols := c, del := gone : Row })
  if v.delplane ≠ 0 ∧ poisonedIn s (v.delplane + 64 * b) 64 then .error (St.dataPoisoned, 512 * b)
  else if sel.isEmpty then .ok (⟨n, [], 0, seg, b⟩, live.length)
  else
    match decodeEnts s v b (scanEnts x) rows0 with
    | .error st => .error (st, 512 * b)
    | .ok rows =>
      match rowFault s t rows (scanEnts x) with
      | some (st, row) => .error (st, row)
      | none => .ok (⟨n, rows, 0, seg, b⟩, live.length)
/-- The lines a scan reads for a block: the deletion words, and the blocks unless no row of them is selected. -/
def scanTouch (s : State) (x : Ctx) (v : SegView) (b : Nat) (planes : Bool) : State :=
  let part := partOf s x.run.fn
  let s := if v.delplane = 0 then s else dramTouch s part (v.delplane + 64 * b) 64
  if ! planes then s
  else (scanEnts x).foldl (fun s e => match tget v.planes e.1 with
    | some (lo, hi) =>
      let one := fun (s : State) (p : PlaneView) (high : Bool) => dramTouch s part (blockSpan p v.rows b high).1 (blockSpan p v.rows b high).2
      one (one s lo false) hi true
    | none => s) s
/-- SCAN_BATCH: check the descriptor when the clause starts, claim a segment when none is in progress, build the next block's batch and
pass it on. -/
def doScanBatch (id k : Nat) (s : State) : State :=
  match ctxAt s id k 0 Kind.scan with
  | none => s
  | some x =>
    if ¬ inputsEmpty x.t ∨ x.t.st.srcDone then settleTask s id k
    else
      let t := scanTable s x
      let start := if x.t.st.tabOk then none else descCheck s (winOk s x.run.fn) t.addr
      match start with
      | some st => failRun s id st (x.c.idx, 0, 0, 0)
      | none =>
        let s := modSt s id k (fun t => { t with tabOk := true })
        match x.t.st.claim.bind (fun n => x.t.st.seg.map (fun v => (n, v))) with
        | none =>
          (match claimUnit s id k x.t.pipe x.g with
          | none => settleTask (modSt s id k (fun t => { t with srcDone := true })) id k
          | some (n, s) =>
            let sg := readSeg s.dram t n
            if ¬ winOk s x.run.fn (t.segdir + 32 * n) 32 then failRun s id St.addressRange (x.c.idx, 1, n, 0)
            else if poisonedIn s (t.segdir + 32 * n) 32 then failRun s id St.dataPoisoned (x.c.idx, 1, n, 0)
            else if sg.rows = 0 then modSt s id k (fun t => { t with segments := t.segments + 1 })
            else match segCheck s x.run.fn t sg (List.range t.ncols) with
              | some st => failRun s id st (x.c.idx, 1, n, 0)
              | none => modSt s id k (fun q => { q with
                  claim := some n, block := 0, seg := some (segView s sg ((scanEnts x).map (·.1))), segments := q.segments + 1 }))
        | some (n, v) =>
          let b := x.t.st.block
          match scanBlock s x t v n b with
          | .error (st, row) => failRun (countClause s id k x.c (min 512 (v.rows - 512 * b)) 0 0 0) id st (x.c.idx, 1, n, row)
          | .ok (bt, live) =>
            let done := 512 * (b + 1) ≥ v.rows
            let s := modSt (scanTouch (markBlock s id k) x v b (! bt.rows.isEmpty)) id k (fun t => { t with
              claim := if done then none else some n, seg := if done then none else some v, block := if done then 0 else b + 1,
              scanned := t.scanned + live })
            let s := countClause s id k x.c bt.brows bt.rows.length 0 0
            finishCmd s id k x (emit s id k x bt)

/-! ## Filter (R95 to R102) -/

/-- Elements of a bound SET slot. -/
def setLanes (s : State) (b : Bind) : List Lane := (List.range b.len).map (fun i => natLane (mnat s.dram (b.addr + 16 * i) 9))
/-- All rows of a breaker, regions in producer order (R119), and the bytes they are read from. -/
def allRows (s : State) (g : Image) (r : Run) (b : Nat) : List (List Lane) :=
  let units := if brkBits g b > 0 then 2 ^ brkBits g b else (regions g r b).length
  (List.range units).flatMap (fun n => (unitLanes s g r b (brkCols s g b).length n).map (·.2.2))
def allSpans (s : State) (g : Image) (r : Run) (b : Nat) : List (Nat × Nat) :=
  let units := if brkBits g b > 0 then 2 ^ brkBits g b else (regions g r b).length
  (List.range units).flatMap (fun n => unitSpans s g r b (brkCols s g b).length n)
/-- Types of the key columns a breaker carries. -/
def keyTypes (s : State) (g : Image) (b : Nat) : List Nat := ((g.brkInfo (layMem s g) b).1).map (·.type)
/-- The table of an IN_HASH term (R119), with the smallest D that admits the breaker's rows; none when none does. Each term's table is
held against the whole of STATE_BYTES (DESIGN CHOICE, assumption 12). -/
def inHashTable (s : State) (x : Ctx) (b : Nat) : Option JTable :=
  let es := buildEntries (((x.g.producerClause b).map (fun c => x.g.cb c 1)).getD 1) (allRows s x.g x.run b)
  (List.range 10).findSome? (fun i =>
    if 9 * 2 ^ (i + 8) ≤ x.c.stateBytes then buildTable (keyTypes s x.g b) x.c.stateBytes (i + 8) (x.g.tableEntry b) es else none)
def termEnv (s : State) (x : Ctx) (cols : Cols) (tables : Tab JTable) : TermEnv :=
  let heapOf := fun (r : Row) (c : Nat) => (heapSlot (fun c => tgetD cols c ⟨0, 0, none⟩) r c).map (fun slot =>
    let t := readTable s.dram ((x.run.binds[slot]?).map (·.addr) |>.getD 0)
    (t.heap, t.heapSize))
  { binds := x.run.binds,
    sets := fun i => match x.run.binds[i]? with
      | some b => setLanes s b
      | none => [],
    hashes := fun b => match tget tables b with
      | some t => fun l => ! (hitsOf (keyTypes s x.g b) t [l]).isEmpty
      | none => fun _ => false,
    cam := fun k => (camFind s x.run.fn k).isSome, heap := heapOf, dram := s.dram, bad := poisonedIn s,
    lit := fun o n => mreads x.g.mem (x.c.cfg + 40 + 32 * x.g.cb x.c 0 + o) n }
/-- Values of one term over rows, or the first failing row. -/
def termOver (e : TermEnv) (type : Nat) (t : Term) : List Row → Except (Nat × Row) (List (Option Bool))
  | [] => .ok []
  | r :: rs =>
    match termValue e type t r with
    | .error st => .error (st, r)
    | .ok v => match termOver e type t rs with
      | .error z => .error z
      | .ok vs => .ok (v :: vs)
/-- Values of the terms that the program pushes, each over all rows. -/
def termsOver (e : TermEnv) (cols : Cols) (post : List Nat) (rows : List Row) : List Term → Nat → Except (Nat × Row) (Tab (List (Option Bool)))
  | [], _ => .ok []
  | t :: ts, i =>
    match termsOver e cols post rows ts (i + 1) with
    | .error z =>
      if post.contains i then
        match termOver e (tgetD cols t.col ⟨0, 0, none⟩).type t rows with
        | .error y => .error y
        | .ok _ => .error z
      else .error z
    | .ok tab =>
      if post.contains i then
        match termOver e (tgetD cols t.col ⟨0, 0, none⟩).type t rows with
        | .error y => .error y
        | .ok vs => .ok ((i, vs) :: tab)
      else .ok tab
/-- Order checks that a filter of the task has made, and the tables it has built. -/
def filterState (x : Ctx) : List Nat × Tab JTable :=
  match tgetD x.t.st.cst x.c.pos .empty with
  | .filter l ts => (l, ts)
  | _ => ([], [])
/-- SET slots of a clause whose order the task has not checked yet. -/
def setsToCheck (x : Ctx) : List Nat :=
  (distinct (((x.g.usedTerms x.c).filter (fun t => t.top == 0x0A)).map (·.ref))).filter (fun i => ! (filterState x).1.contains i)
/-- Breakers of IN_HASH terms whose tables the task has not built yet. -/
def tablesToBuild (x : Ctx) : List Nat :=
  (distinct ((x.g.usedTerms x.c).filterMap (fun t => if t.top = 0x0C then some t.ref else none))).filter (fun b => (tget (filterState x).2 b).isNone)
/-- Bytes of a SET slot's array. -/
def setSpan (x : Ctx) (i : Nat) : Nat × Nat := match x.run.binds[i]? with
  | some b => (b.addr, 16 * b.len)
  | none => (0, 0)
/-- FILTER_BATCH. -/
def doFilterBatch (id k pos : Nat) (s : State) : State :=
  match batchAt s id k pos Kind.filter with
  | none => noBatch s id k pos Kind.filter
  | some (s, x, b) =>
    let checks := setsToCheck x
    let build := tablesToBuild x
    let spans := checks.map (setSpan x) ++ build.flatMap (allSpans s x.g x.run)
    let tables := build.foldl (fun ts h => match inHashTable s x h with
      | some t => tset ts h t
      | none => ts) (filterState x).2
    let cols := colsHere s x
    let e := termEnv s x cols tables
    if spansBad s spans then failBatch s id k x b St.dataPoisoned (x.c.idx, 0, 0, 0)
    else if checks.any (fun i => ! setOrdered (e.sets i)) then failBatch s id k x b St.setOrder (x.c.idx, 0, 0, 0)
    else if build.any (fun h => (tget tables h).isNone) then failBatch s id k x b St.joinOverflow (x.c.idx, 0, 0, 0)
    else
      let s := spansTouch s x.run.fn spans
      let s := if checks.isEmpty ∧ build.isEmpty then s else setCst s id k x (.filter ((filterState x).1 ++ checks) tables)
      let post := x.g.post x.c
      let cams := ((x.g.usedTerms x.c).filter (fun t => t.top == 0x0B)).flatMap (fun t =>
        (b.rows.filter (fun r => rowCol r t.col != nullLane)).map (fun r => camFind s x.run.fn (camKey t r)))
      let s := if cams.isEmpty then s else camCount (camBefore (((getItem s id).map (·.lc)).getD 0) s) cams.length (cams.filter (fun h => match h with
        | some y => decide (y.count > 1)
        | none => false)).length
      match termsOver e cols post b.rows (x.g.filterTerms x.c) 0 with
      | .error (st, row) => failBatch s id k x b st (rowPlace x.c b row)
      | .ok tab =>
        let keep := (b.rows.zipIdx).filter (fun (_, i) => runPostfix (fun t => ((tgetD tab t [])[i]?).getD none) post [] == some true)
        let rows := keep.map (·.1)
        let brows := if rows.length < x.g.cn x.c 2 2 ∧ rows.length < b.brows then rows.length else b.brows
        let s := countClause (popBatch s id k pos) id k x.c b.rows.length rows.length 0 0
        finishCmd s id k x (emit s id k x { b with rows := rows, brows := brows })

/-! ## Compute (R103 to R108) -/

/-- Run the operations of a clause in order over rows, with the column information each sees. -/
def copsOver (ovf rnd : Nat) (slot : Nat → ColInfo) (binds : List Bind) : List COp → Cols → List Row →
    Except (Nat × Row) (List Row × Nat × Nat)
  | [], _, rows => .ok (rows, 0, 0)
  | o :: os, cols, rows =>
    let info := selInfo (fun x => tgetD cols x ⟨0, 0, none⟩) slot o
    match copRows ovf rnd info binds o rows with
    | .error z => .error z
    | .ok (rows, a, b) =>
      match copsOver ovf rnd slot binds os (tset cols o.dst (copInfo info o)) rows with
      | .error z => .error z
      | .ok (rows, a', b') => .ok (rows, a + a', b + b')
/-- COMPUTE_BATCH. -/
def doComputeBatch (id k pos : Nat) (s : State) : State :=
  match batchAt s id k pos Kind.compute with
  | none => noBatch s id k pos Kind.compute
  | some (s, x, b) =>
    match copsOver x.c.ovf x.c.rnd x.g.valInfo x.run.binds (x.g.cops x.c)
        (colsHere s x) b.rows with
    | .error (st, row) => failBatch s id k x b st (rowPlace x.c b row)
    | .ok (rows, sat, wrap) =>
      let s := countClause (popBatch s id k pos) id k x.c b.rows.length rows.length sat wrap
      finishCmd s id k x (emit s id k x { b with rows := rows })

/-! ## Output (R513, R514) -/

/-- Fill the ranges a replay must use first; gives the rows left, the writes, and the ranges left. -/
def reuseRanges : List (Nat × Nat × Nat) → Nat → List Row → List Row × List (Nat × Row) × List (Nat × Nat × Nat)
  | [], _, rows => (rows, [], [])
  | (sl, a, n) :: rs, slot, rows =>
    if sl ≠ slot then
      let z := reuseRanges rs slot rows
      (z.1, z.2.1, (sl, a, n) :: z.2.2)
    else
      let here := rows.take n
      let fill := here ++ List.replicate (n - here.length) nullRow
      let ws := (fill.zipIdx).map (fun (r, i) => (a + i, r))
      if rows.length ≤ n then (([] : List Row), ws, rs)
      else
        let z := reuseRanges rs slot (rows.drop n)
        (z.1, ws ++ z.2.1, z.2.2)
/-- Rows that an OUTPUT command has put out: the task's count, and the clause's. -/
def countOutput (s : State) (id k : Nat) (c : Clause) (i o : Nat) : State :=
  countClause (modSt s id k (fun t => { t with rowsOut := t.rowsOut + o })) id k c i o 0 0
/-- A row that its OUTPUT buffer cannot take: a row number that is NULL or negative, or bytes beyond LEN (R514). -/
def beyond (len w : Nat) (n : Option Int) : Bool :=
  match n with
  | some n => decide (n < 0) || decide ((n.toNat + 1) * w > len)
  | none => true
/-- OUTPUT_BATCH (R513, R514): the rows before one that fails the item are written (assumption 10). -/
def doOutputBatch (id k pos : Nat) (s : State) : State :=
  match batchAt s id k pos Kind.output with
  | none => noBatch s id k pos Kind.output
  | some (s, x, b) =>
    let slot := x.g.cn x.c 2 2
    let bd := (x.run.binds[slot]?).getD ⟨false, false, 0#72, 0, 0⟩
    let cols := outCols x.g x.c
    let form := x.g.cb x.c 1
    let w := outWidth x.g x.c
    let byNumber := bitOf (x.g.cb x.c 4) 0
    let z : List Row × List (Nat × Row) × List (Nat × Nat × Nat) := if byNumber then (b.rows, [], x.t.reuse) else reuseRanges x.t.reuse slot b.rows
    let start := tgetD x.run.outRows slot 0
    let fresh := (z.1.zipIdx).map (fun (r, i) => (start + i, r))
    let placed : List (Option Int × Row) := if byNumber then b.rows.map (fun r => (laneInt (rowCol r (x.g.cb x.c 5)), r))
      else (z.2.1 ++ fresh).map (fun p => (some (p.1 : Int), p.2))
    let fits := placed.takeWhile (fun p => ! beyond bd.len w p.1)
    let s := writeRows (popBatch s id k pos) bd.addr w form cols (fits.map (fun p => ((p.1.getD 0).toNat, p.2)))
    let s := dataXfer s id none false (fits.length * w)
    match placed.drop fits.length with
    | p :: _ => failRun (countOutput s id k x.c b.rows.length fits.length) id St.outputOverflow (rowPlace x.c b p.2)
    | [] =>
      let s := countOutput s id k x.c b.rows.length placed.length
      if byNumber then settleTask s id k
      else
        let s := match getRun s id with
          | some r => setRun s id { r with outRows := tset r.outRows slot (start + z.1.length) }
          | none => s
        let used := x.t.reuse.filter (fun r => ! z.2.2.contains r)
        settleTask (modTask s id k (fun t => { t with
          reuse := z.2.2, ranges := t.ranges ++ used ++ (if z.1.isEmpty then [] else [(slot, start, z.1.length)]) })) id k

end Sys2Proof.Machine
end

