-- ==== Sys2Proof/Machine/JoinClauses.lean ====
section
/-! DEFINITION. Join, aggregate and window clauses on batches (spec/06_join_aggregate.md, R110 to R135). -/

namespace Sys2Proof.Machine
open Sys2Proof

/-! ## Building (R115 to R117) -/

/-- Write the rows of a stage to their partition's pages. -/
def flushStage (s : State) (id k : Nat) (x : Ctx) (q : Nat × List (List Lane)) : Option State :=
  q.2.foldl (fun s l => s.bind (fun s => pageAppend s id k x (x.g.cb x.c 3) (x.g.cb x.c 4 + x.g.cb x.c 5) q.1 l)) (some s)
/-- Stage a row for its partition (R117). A stage is written out when it has no room for the next row of its partition, or a row of another
partition comes to it (DESIGN CHOICE, assumption 39). -/
def stageRow (id k : Nat) (x : Ctx) (acc : State × Tab (Nat × List (List Lane))) (part : Nat) (lanes : List Lane) :
    Option (State × Tab (Nat × List (List Lane))) :=
  let i := part % 2 ^ x.g.cb x.c 5
  let q := tgetD acc.2 i (part, [])
  if q.1 = part ∧ 9 * lanes.length * (q.2.length + 1) ≤ 512 then some (acc.1, tset acc.2 i (part, q.2 ++ [lanes]))
  else (flushStage acc.1 id k x q).map (fun s => (s, tset acc.2 i (part, [lanes])))
def stageOf (t : Task) (pos : Nat) : Tab (Nat × List (List Lane)) :=
  match tgetD t.st.cst pos .empty with
  | .stage ps => ps
  | _ => []
/-- JOIN_BUILD_BATCH; at the end of its input a PARTITION build writes out its stages. -/
def doJoinBuildBatch (id k pos : Nat) (s : State) : State :=
  match batchAt s id k pos Kind.build with
  | none =>
    (match ctxAt s id k pos Kind.build with
    | none => s
    | some _ =>
      let s := feed s id k pos
      match ctxAt s id k pos Kind.build with
      | none => s
      | some x =>
        if x.g.cb x.c 0 ≠ 1 ∨ x.t.st.flushed.contains pos ∨ ¬ upstreamDone x.g x.t pos ∨ (headBatch x).isSome then settleTask s id k
        else
          let out := (stageOf x.t pos).foldl (fun s q => s.bind (fun s => flushStage s id k x q.2)) (some s)
          finishCmd s id k x (out.map (fun s => modSt (setCst s id k x (.stage [])) id k (fun t => { t with flushed := t.flushed ++ [pos] }))))
  | some (s, x, b) =>
    let kc := x.g.keyCols x.c
    let pc := x.g.payCols x.c
    let bits := x.g.cb x.c 4 + x.g.cb x.c 5
    let good := b.rows.filter (fun r => ! nullKey (rowKey kc r))
    let s := popBatch s id k pos
    let s := modSt s id k (fun t => { t with nullRows := t.nullRows + (b.rows.length - good.length) })
    let s := countClause s id k x.c b.rows.length good.length 0 0
    let lanes := fun (r : Row) => rowKey kc r ++ rowKey pc r
    if x.g.cb x.c 0 = 0 then
      finishCmd s id k x (good.foldl (fun s r => s.bind (fun s => regionAppend s id k x (x.g.cb x.c 3) ((lanes r).flatMap pack9))) (some s))
    else
      let out := good.foldl (fun a r => a.bind (fun a => stageRow id k x a (hashKey (rowKey kc r) / 2 ^ (64 - bits)) (lanes r)))
        (some (s, stageOf x.t pos))
      finishCmd s id k x (out.map (fun a => setCst a.1 id k x (.stage a.2)))

/-! ## Probing (R113, R114, R119 to R124) -/

/-- Rows one probe row gives (Table 6-5). -/
def probeRow (g : Image) (c : Clause) (nullBuild : Bool) (total : Nat) (null : Bool) (hits : List (List Lane)) (r : Row) : List Row :=
  let jt := g.cb c 0
  let aware := bitOf (g.cb c 4) 0
  let dst := g.cbs c 28 (g.cb c 2)
  let sel := g.cbs c 12 (g.cb c 2)
  let mark := fun (m : Bool) (r : Row) => if bitOf (g.cb c 4) 1 then { r with cols := tset r.cols (g.cb c 6) (boolLane m) } else r
  let withPay := fun (f : Nat → Lane) => mark (! hits.isEmpty)
    { r with cols := (dst.zip sel).foldl (fun t p => tset t p.1 (f p.2)) r.cols }
  match jt with
  | 0 => hits.map (fun pay => withPay (fun i => (pay[i]?).getD nullLane))
  | 1 => if hits.isEmpty then [withPay (fun _ => nullLane)] else hits.map (fun pay => withPay (fun i => (pay[i]?).getD nullLane))
  | 2 => if hits.isEmpty then [] else [r]
  | _ =>
    if ! hits.isEmpty then []
    else if ! aware then [r]
    else if null then (if total = 0 then [r] else [])
    else if nullBuild then [] else [r]
/-- Output rows of probe rows, given the payloads that each key hits. -/
def probeRows (g : Image) (c : Clause) (nullBuild : Bool) (total : Nat) (hits : List Lane → List (List Lane)) (rows : List Row) : List Row :=
  rows.flatMap (fun r =>
    let key := rowKey (g.keyCols c) r
    probeRow g c nullBuild total (nullKey key) (hits key) r)
/-- Rows with a NULL key that the producer regions of a breaker counted. -/
def nullCount (g : Image) (r : Run) (b : Nat) : Nat :=
  sumBy (fun t => t.2.st.nullRows) (r.tasks.filter (fun t => t.2.pipe == (g.brk b).producer))
/-- Does the clause join partition by partition (R124)? -/
def byPartition (x : Ctx) : Bool :=
  (x.g.brk (x.g.cb x.c 3)).kind == 5 && (x.g.pipe x.t.pipe).source == 1 && (x.g.brk (x.g.pipe x.t.pipe).ref).kind == 5
/-- A probe of the routing CAM (R123); the first one of a STANDING plan uses the result attached at ingest (R410). -/
def camProbe (s : State) (id : Nat) (x : Ctx) (rows : List Row) : State × List Row :=
  let tag := x.g.cn x.c 48 9
  let lc := ((getItem s id).map (·.lc)).getD 0
  let first := (x.g.clausesOf x.t.pipe).find? (fun c => c.kind == Kind.probe)
  let attached := if x.run.standing ∧ first = some x.c then ((getItem s id).bind (·.msg)).bind (·.cam) else none
  rows.foldl (fun (acc : State × List Row) r =>
    let l := rowCol r (x.g.cb x.c 8)
    if l = nullLane then (acc.1, acc.2 ++ probeRow x.g x.c false 0 true [] r)
    else
      let z : State × Option Nat := match attached with
        | some h => (acc.1, h)
        | none =>
          let q := camSearch acc.1 lc x.run.fn (l.toNat * 2 ^ 72 + tag)
          (q.1, q.2.map (·.result))
      let dst := x.g.cbs x.c 28 (x.g.cb x.c 2)
      let out := (probeRow x.g x.c false 0 false (match z.2 with
        | some _ => [[]]
        | none => []) r).map (fun o => match z.2 with
        | some v => { o with cols := dst.foldl (fun t d => tset t d (natLane v)) o.cols }
        | none => o)
      (z.1, acc.2 ++ out)) (s, [])
/-- Bytes of a JOIN_PROBE's STATE_BYTES below its match map. -/
def probeArea (x : Ctx) : Nat := x.c.stateBytes - x.g.cn x.c 44 4
/-- JOIN_PROBE_BATCH. -/
def doJoinProbeBatch (id k pos : Nat) (s : State) : State :=
  match batchAt s id k pos Kind.probe with
  | none => noBatch s id k pos Kind.probe
  | some (s, x, b) =>
    let bk := x.g.cb x.c 3
    let kw := x.g.cb x.c 1
    let d := x.g.cb x.c 5
    let types := keyTypes s x.g bk
    let nul := nullCount x.g x.run bk
    if bk = 0xFF then
      let s := popBatch s id k pos
      let z := camProbe s id x b.rows
      let s := countClause z.1 id k x.c b.rows.length z.2.length 0 0
      finishCmd s id k x (emitAll s id k x (splitBatch b z.2))
    else if byPartition x then
      if (List.range pos).any (fun j => ! (tgetD x.t.st.inq j []).isEmpty) then s
      else
        let rows := (tgetD x.t.st.inq pos []).flatMap (·.rows)
        let n := x.t.st.claim.getD 0
        let w := (brkCols s x.g bk).length
        let spans := unitSpans s x.g x.run bk w n
        let es := buildEntries kw ((unitLanes s x.g x.run bk w n).map (·.2.2))
        let chunks := chunkTables types (probeArea x) d (x.g.tableEntry bk) es { d := d }
        if spansBad s spans then failBatch s id k x b St.dataPoisoned (x.c.idx, 3, n, 0)
        else if chunks.length > 1 ∧ x.g.cb x.c 0 ≠ 0 ∧ rows.length > 8 * x.g.cn x.c 44 4 then
          failRun (countClause s id k x.c rows.length 0 0 0) id St.joinOverflow (x.c.idx, 3, n, 0)
        else
          let s := spansTouch s x.run.fn spans
          let total := (allRows s x.g x.run bk).length + nul
          let out := if x.g.cb x.c 0 = 0 then chunks.flatMap (fun t => probeRows x.g x.c (nul > 0) total (hitsOf types t) rows)
            else probeRows x.g x.c (nul > 0) total (fun key => chunks.flatMap (fun t => hitsOf types t key)) rows
          let s := modSt (setCst s id k x (.probe (chunks.getLastD { d := d }) (nul > 0) total)) id k (fun t => { t with inq := tset t.inq pos [] })
          let s := countClause s id k x.c rows.length out.length 0 0
          finishCmd s id k x (emitAll s id k x (splitBatch b out))
    else
      let built : Except Nat (State × JTable × Bool × Nat) := match tgetD x.t.st.cst pos .empty with
        | .probe t n m => .ok (s, t, n, m)
        | _ =>
          let spans := allSpans s x.g x.run bk
          let es := buildEntries kw (allRows s x.g x.run bk)
          if spansBad s spans then .error St.dataPoisoned
          else match buildTable types (probeArea x) d (x.g.tableEntry bk) es with
            | none => .error St.joinOverflow
            | some t =>
              let total := es.length + nul
              .ok (setCst (spansTouch s x.run.fn spans) id k x (.probe t (nul > 0) total), t, nul > 0, total)
      match built with
      | .error st => failBatch s id k x b st (x.c.idx, 0, 0, 0)
      | .ok (s, table, nul, total) =>
        let out := probeRows x.g x.c nul total (hitsOf types table) b.rows
        let s := countClause (popBatch s id k pos) id k x.c b.rows.length out.length 0 0
        finishCmd s id k x (emitAll s id k x (splitBatch b out))

/-! ## Aggregates (R125 to R129) -/

/-- Slot of a key's group, or the free slot where it would go; none when every slot holds another key. -/
def aggSlot (types : List Nat) (slots : Tab Group) (n : Nat) (key : List Lane) : Nat → Nat → Option Nat
  | 0, _ => none
  | fuel + 1, i =>
    match tget slots i with
    | none => some i
    | some gr => if hashTag gr.key = hashTag key ∧ sameKey types gr.key key then some i else aggSlot types slots n key fuel ((i + 1) % n)
def aggSize (g : Image) (c : Clause) : Nat := if g.cb c 1 = 0 then 1 else 2 ^ g.cb c 4
def findGroup (g : Image) (c : Clause) (keys : List Nat) (slots : Tab Group) (key : List Lane) : Option Nat :=
  let n := aggSize g c
  aggSlot keys slots n key n (if g.cb c 1 = 0 then 0 else hashKey key % n)
/-- One input value folded into a measure (Table 6-8). -/
def foldMeas (type : Nat) (e : AggEnt) (m : Meas) (l : Lane) : Meas :=
  if e.func = 1 then { m with count := m.count + 1 }
  else if l = nullLane then m
  else if e.func = 2 then { m with count := m.count + 1 }
  else if e.func = 3 then { m with sum := m.sum + l.toInt, count := m.count + 1 }
  else
    let better := if e.func = 4 then decide (orderKey type l < orderKey type m.ext) else decide (orderKey type m.ext < orderKey type l)
    if m.ext = nullLane ∨ better then { m with ext := l } else m
/-- Two measures merged (R128). -/
def mergeMeas (type : Nat) (e : AggEnt) (a b : Meas) : Meas :=
  if e.func ≤ 3 then { a with sum := a.sum + b.sum, count := a.count + b.count } else foldMeas type e a b.ext
/-- Flush every slot of a PARTIAL table to the region, in slot order (R127). -/
def flushAgg (s : State) (id k : Nat) (x : Ctx) (slots : Tab Group) : Option State :=
  slots.foldl (fun s p => s.bind (fun s =>
    let lanes := groupLanes x.g x.c p.2
    let s' := if x.g.cb x.c 5 = 0 then regionAppend s id k x (x.g.cb x.c 3) (lanes.flatMap pack9)
      else pageAppend s id k x (x.g.cb x.c 3) (x.g.cb x.c 5) (hashKey p.2.key / 2 ^ (64 - x.g.cb x.c 5)) lanes
    s'.map (fun s => countClause s id k x.c 0 1 0 0))) (some s)
/-- Result of one aggregate entry at emission: lanes for DST, clamps, NULLs; or a trap. -/
def aggResult (ovf : Nat) (e : AggEnt) (m : Meas) : Except Nat (List Lane × Nat × Nat) :=
  if e.func ≤ 2 then .ok ([natLane m.count], 0, 0)
  else if e.func = 3 then
    if m.count = 0 then .ok (if e.wide then [nullLane, nullLane] else [nullLane], 0, 0)
    else if e.wide then .ok ([intLane (m.sum / 2 ^ 72), intLane m.sum], 0, 0)
    else match narrow ovf m.sum with
      | .trap st => .error st
      | .val l sat w => .ok ([l], b2n sat, b2n w)
  else .ok ([m.ext], 0, 0)
/-- The emitted row of a group, number `i` of unit `unit`. -/
def groupRow (g : Image) (c : Clause) (unit i : Nat) (gr : Group) : Except Nat (Row × Nat × Nat) :=
  let keys : Tab Lane := ((g.cbs c 12 (g.cb c 1)).zip gr.key).foldl (fun t p => tset t p.1 p.2) []
  ((g.aggEnts c).zip gr.meas).foldl (fun (acc : Except Nat (Row × Nat × Nat)) p =>
    match acc, aggResult c.ovf p.1 p.2 with
    | .error z, _ => .error z
    | _, .error z => .error z
    | .ok (r, a, b), .ok (ls, a', b') =>
      let cols := tset r.cols p.1.dst ((ls[0]?).getD nullLane)
      .ok ({ r with cols := match ls[1]? with
        | some l => tset cols (p.1.dst + 1) l
        | none => cols }, a + a', b + b')) (.ok ({ src := i, region := unit, cols := keys }, 0, 0))
/-- Emit the groups of a table in slot order (R128). -/
def emitGroups (s : State) (id k : Nat) (x : Ctx) (slots : Tab Group) : State :=
  let rec rows : List (Nat × Group) → Nat → Except (Nat × Nat) (List Row × Nat × Nat)
    | [], _ => .ok ([], 0, 0)
    | p :: ps, i =>
      match groupRow x.g x.c (x.t.st.claim.getD 0) i p.2 with
      | .error st => .error (st, i)
      | .ok (r, a, b) => match rows ps (i + 1) with
        | .error z => .error z
        | .ok (rs, a', b') => .ok (r :: rs, a + a', b + b')
  match rows slots 0 with
  | .error (st, i) => failRun s id st (x.c.idx, 0, 0, i % 512)
  | .ok (rs, sat, wrap) =>
    let s := countClause s id k x.c 0 rs.length sat wrap
    finishCmd s id k x (emitAll s id k x (toBatches 1 (x.t.st.claim.getD 0) rs))
def aggTable (t : Task) (pos : Nat) : Tab Group :=
  match tgetD t.st.cst pos .empty with
  | .agg tb => tb
  | _ => []
/-- A group with nothing folded in. -/
def newGroup (g : Image) (c : Clause) (key : List Lane) : Group := ⟨key, (g.aggEnts c).map (fun _ => {})⟩
/-- The global group of KEYW = 0 is always there (R129). -/
def withGlobal (g : Image) (c : Clause) (tb : Tab Group) : Tab Group :=
  if g.cb c 1 = 0 ∧ tb.isEmpty then [(0, newGroup g c [])] else tb
/-- Fold one row into the table, COUNT(*) passing over a deleted row (R32); on a new group past the limit a PARTIAL clause flushes first, a SINGLE one overflows. -/
def foldRow (id k : Nat) (x : Ctx) (keys types : List Nat) (acc : State × Tab Group) (r : Row) : Except Nat (State × Tab Group) :=
  let key := rowKey (x.g.keyCols x.c) r
  let upd := fun (gr : Group) => { gr with meas := (((x.g.aggEnts x.c).zip types).zip gr.meas).map (fun p =>
    if p.1.1.func = 1 ∧ r.del then p.2 else foldMeas p.1.2 p.1.1 p.2 (if p.1.1.func = 1 then 0#72 else rowCol r p.1.1.src)) }
  let put := fun (tb : Tab Group) => match findGroup x.g x.c keys tb key with
    | some i => tset tb i (upd (tgetD tb i (newGroup x.g x.c key)))
    | none => tb
  let known : Bool := match findGroup x.g x.c keys acc.2 key with
    | some i => (tget acc.2 i).isSome
    | none => false
  if known ∨ x.g.cb x.c 1 = 0 ∨ acc.2.length < keyMax (x.g.cb x.c 4) then .ok (acc.1, put acc.2)
  else if x.g.cb x.c 0 = 1 then
    match flushAgg acc.1 id k x acc.2 with
    | some s => .ok (s, put [])
    | none => .error St.workAreaFull
  else .error St.aggOverflow
/-- The rows of a batch folded in turn, or the first that fails. -/
def foldRows (id k : Nat) (x : Ctx) (keys types : List Nat) : List Row → State × Tab Group → Except (Nat × Row) (State × Tab Group)
  | [], acc => .ok acc
  | r :: rs, acc =>
    match foldRow id k x keys types acc r with
    | .error st => .error (st, r)
    | .ok acc => foldRows id k x keys types rs acc
/-- HASH_AGG_FOLD (R127, R128): a batch of a SINGLE or PARTIAL clause; at the end of its input the table is flushed or
emitted. -/
def doHashAggFold (id k pos : Nat) (s : State) : State :=
  match batchAt s id k pos Kind.agg with
  | some (s, x, b) =>
    if x.g.cb x.c 0 = 2 then s
    else
      let cols := colsHere s x
      let types := (x.g.aggEnts x.c).map (fun e => (tgetD cols e.src ⟨0, 0, none⟩).type)
      let s := popBatch s id k pos
      let s := countClause s id k x.c b.rows.length 0 0 0
      let keys := (x.g.keyCols x.c).map (fun c => (tgetD cols c ⟨0, 0, none⟩).type)
      (match foldRows id k x keys types b.rows (s, aggTable x.t pos) with
      | .error (st, row) => failRun s id st (rowPlace x.c b row)
      | .ok (s, tb) => settleTask (setCst s id k x (.agg tb)) id k)
  | none =>
    let s := if (ctxAt s id k pos Kind.agg).isSome then feed s id k pos else s
    match ctxAt s id k pos Kind.agg with
    | none => s
    | some x =>
      if x.g.cb x.c 0 = 2 ∨ x.t.st.flushed.contains pos ∨ ¬ upstreamDone x.g x.t pos ∨ (headBatch x).isSome then s
      else
        let tb := aggTable x.t pos
        let s := modSt (setCst s id k x (.agg [])) id k (fun t => { t with flushed := t.flushed ++ [pos] })
        if x.g.cb x.c 0 = 1 then finishCmd s id k x (flushAgg s id k x tb)
        else emitGroups s id k x (withGlobal x.g x.c tb)
/-- Merge one breaker entry into the table of a FINAL clause. -/
def mergeEntry (x : Ctx) (keys types : List Nat) (tb : Tab Group) (lanes : List Lane) : Except Nat (Tab Group) :=
  let kw := x.g.cb x.c 1
  let key := (lanes.drop 1).take kw
  let meas := readMeas (x.g.aggEnts x.c) (lanes.drop (1 + kw))
  match findGroup x.g x.c keys tb key with
  | none => .error St.aggOverflow
  | some i =>
    let old := tgetD tb i (newGroup x.g x.c key)
    if (tget tb i).isNone ∧ kw ≠ 0 ∧ tb.length ≥ keyMax (x.g.cb x.c 4) then .error St.aggOverflow
    else .ok (tset tb i { old with meas := (((x.g.aggEnts x.c).zip types).zip (old.meas.zip meas)).map (fun p =>
      mergeMeas p.1.2 p.1.1 p.2.1 p.2.2) })
/-- The entries of a unit merged in turn, or the place of the first that fails. -/
def mergeEntries (x : Ctx) (keys types : List Nat) : List (Nat × Nat × List Lane) → Tab Group → Except (Nat × Nat × Nat) (Tab Group)
  | [], tb => .ok tb
  | r :: rs, tb =>
    match mergeEntry x keys types tb r.2.2 with
    | .error st => .error (st, r.1, r.2.1)
    | .ok tb => mergeEntries x keys types rs tb
/-- HASH_AGG_MERGE (R128): claim the next region or partition, merge its entries; emit after a partition, or at the end of the
claims. -/
def doHashAggMerge (id k : Nat) (s : State) : State :=
  match ctxAt s id k 0 Kind.agg with
  | none => s
  | some x =>
    if x.g.cb x.c 0 ≠ 2 ∨ x.t.st.srcDone then s
    else
      let b := x.g.cb x.c 3
      let lanes := ((x.g.producerClause b).map (fun c => x.g.slotLanes c)).getD 2
      let types := ((x.g.brkInfo (layMem s x.g) b).2).map (·.type)
      let keys := keyTypes s x.g b
      match claimUnit (markBlock s id k) id k x.t.pipe x.g with
      | none =>
        let s := modSt s id k (fun t => { t with srcDone := true, flushed := t.flushed ++ [0], claim := none })
        if brkBits x.g b > 0 then settleTask s id k
        else emitGroups (setCst s id k x (.agg [])) id k x (withGlobal x.g x.c (aggTable x.t 0))
      | some (n, s) =>
        let rows := unitLanes s x.g x.run b lanes n
        let spans := unitSpans s x.g x.run b lanes n
        let s := countClause (modSt s id k (fun t => { t with claim := some n })) id k x.c rows.length 0 0 0
        if spansBad s spans then failRun s id St.dataPoisoned (x.c.idx, 3, n, 0)
        else
          match mergeEntries x keys types rows (aggTable x.t 0) with
          | .error (st, k', row) => failRun s id st (x.c.idx, 3, k', row)
          | .ok tb =>
            let s := spansTouch s x.run.fn spans
            if brkBits x.g b > 0 then
              emitGroups (setCst s id k x (.agg [])) id k { x with t := { x.t with st := { x.t.st with claim := some n } } } (if n = 0 then withGlobal x.g x.c tb else tb)
            else setCst s id k x (.agg tb)

/-! ## State tables and window aggregates (R131 to R134) -/

def stKey (fn stid : Nat) : Nat := fn * 64 + stid
def slotBytes (t : StateTab) : Nat := 128 * t.slotLines
def stSlotAddr (t : StateTab) (i : Nat) : Nat := t.base + slotBytes t * i
/-- State lanes of a measure's contribution (R131, Table 6-8). -/
def valLanes (kind : Nat) (v : Int × Nat) : List Lane :=
  if kind = 1 then [natLane v.2] else [intLane (v.1 / 2 ^ 72), intLane v.1, natLane v.2]
/-- The measures of one bucket read from its lanes. -/
def readVals : List (Nat × Nat × Nat) → List Lane → List (Int × Nat)
  | [], _ => []
  | m :: ms, ls =>
    let l := fun (i : Nat) => (ls[i]?).getD 0#72
    (if m.1 = 1 then ((l 0).toInt, (l 0).toNat) else ((l 0).toInt * 2 ^ 72 + ((l 1).toNat : Int), (l 2).toNat))
      :: readVals ms (ls.drop (if m.1 = 1 then 1 else 3))
/-- Lanes of a bucket. -/
def bucketLanes (t : StateTab) : Nat := sumBy (fun m => if m.1 = 1 then 1 else 3) t.meas
/-- Slot `i` as DRAM holds it: none when its OCC is 0. -/
def stRead (m : Mem) (t : StateTab) (i : Nat) : Option STSlot :=
  let a := stSlotAddr t i
  let ctl := mnat m a 9
  let kw := t.keys.length
  if ! bitOf ctl 71 then none
  else some ⟨lanesAt m (a + 9) kw, fld ctl 43 0, (List.range t.nb).map (fun b =>
    readVals t.meas (lanesAt m (a + 9 * (1 + kw + b * bucketLanes t)) (bucketLanes t)))⟩
/-- The lanes of an occupied slot (R131). -/
def stSlotLanes (t : StateTab) (sl : STSlot) : List Lane :=
  natLane (2 ^ 71 + stateTag sl.key * 2 ^ 48 + sl.head) :: sl.key ++ sl.buckets.flatMap (fun b => (t.meas.zip b).flatMap (fun p => valLanes p.1.1 p.2))
/-- The slots of a key's probe group, in probe order. -/
def stGroup (t : StateTab) (key : List Lane) : List Nat := (List.range 8).map (fun i => (hashKey key + i) % 2 ^ t.cbits)
/-- The slot of a key in its probe group. -/
def stFind (m : Mem) (t : StateTab) (key : List Lane) : Option (Nat × STSlot) :=
  (stGroup t key).findSome? (fun i => (stRead m t i).bind (fun sl =>
    if stateTag sl.key = stateTag key ∧ sameKey t.keys sl.key key then some (i, sl) else none))
/-- Bytes that hold a key's probe group. -/
def stSpans (t : StateTab) (key : List Lane) : List (Nat × Nat) := (stGroup t key).map (fun i => (stSlotAddr t i, slotBytes t))
/-- Values added lane by lane: sums and counts. -/
def addVals (a b : List (Int × Nat)) : List (Int × Nat) :=
  if a.isEmpty then b else if b.isEmpty then a else (a.zip b).map (fun p => (p.1.1 + p.2.1, p.1.2 + p.2.2))
/-- Is epoch `x` within the `nb` epochs that end at `e`? -/
def inWindow (nb e x : Nat) : Bool := x ≤ e && e < x + nb
/-- What the stored buckets contribute at epoch `e`. -/
def stStored (m : Mem) (t : StateTab) (key : List Lane) (e : Nat) : List (Int × Nat) :=
  match stFind m t key with
  | none => []
  | some (_, sl) =>
    (List.range t.nb).foldl (fun acc d =>
      if d ≤ sl.head ∧ inWindow t.nb e (sl.head - d) then addVals acc ((sl.buckets[(sl.head - d) % t.nb]?).getD []) else acc) []
/-- Pending records of a run's tasks and clauses. -/
def runRecs (r : Run) : List WRec :=
  r.tasks.flatMap (fun t => t.2.st.cst.flatMap (fun c => match c.2 with
    | .window l => l
    | _ => []))
/-- Those of every other task and clause of the run. -/
def recsBut (r : Run) (k pos : Nat) : List WRec :=
  r.tasks.flatMap (fun t => t.2.st.cst.flatMap (fun c => if t.1 = k ∧ c.1 = pos then [] else match c.2 with
    | .window l => l
    | _ => []))
/-- Merge a contribution into the records of a clause. -/
def addRec (keys : List Nat) (l : List WRec) (w : WRec) : List WRec :=
  let same := fun (y : WRec) => y.stid == w.stid && sameKey keys y.key w.key && y.epoch == w.epoch
  if l.any same then l.map (fun y => if same y then { y with vals := addVals y.vals w.vals } else y)
  else l ++ [w]
/-- The time of a row: its TIMESTAMP column, or the item's arrival. -/
def windowTime (x : Ctx) (r : Row) : Option Int := if x.g.cb x.c 5 = 0 then laneInt (rowCol r (x.g.cb x.c 6)) else some (x.run.arrival : Int)
/-- The slots that the rows of a batch read: the probe group of each key that is not NULL. -/
def windowSpans (x : Ctx) (t : StateTab) (rows : List Row) : List (Nat × Nat) :=
  ((rows.map (rowKey (x.g.keyCols x.c))).filter (fun k => ! nullKey k)).flatMap (stSpans t)
/-- One row of a window clause: its new columns with clamps and NULLs, and the clause's records. `seen` are the pending records of the
rest of the item, `own` those of this clause. A poisoned slot fails the row. -/
def windowRow (s : State) (x : Ctx) (t : StateTab) (seen own : List WRec) (r : Row) : Except Nat (Row × Nat × Nat × List WRec) :=
  let c := x.c
  let key := rowKey (x.g.keyCols c) r
  let ms := x.g.measEnts c
  match nullKey key, windowTime x r with
  | false, some tm =>
    let e := ((tm / (2 ^ x.g.cb c 3 : Nat)) % (2 ^ 44 : Nat)).toNat
    let mine := ms.map (fun m => if m.1 = 1 then ((1 : Int), 1) else match laneInt (rowCol r m.2.1) with
      | some v => (v, 1)
      | none => (0, 0))
    let stid := x.g.cb c 0
    let pend := ((seen ++ own).filter (fun w => w.stid == stid && sameKey t.keys w.key key && inWindow t.nb e w.epoch)).foldl
      (fun acc w => addVals acc w.vals) []
    let total := addVals (addVals (stStored s.dram t key e) pend) mine
    if spansBad s (stSpans t key) then .error St.dataPoisoned
    else (ms.zip total).foldl (fun (acc : Except Nat (Row × Nat × Nat × List WRec)) p =>
      match acc with
      | .error z => .error z
      | .ok (r, a, b, l) =>
        if p.2.2 = 0 then .ok ({ r with cols := tset r.cols p.1.2.2 nullLane }, a, b, l)
        else match narrow c.ovf (if p.1.1 = 1 then (p.2.2 : Int) else p.2.1) with
          | .trap st => .error st
          | .val v sat w => .ok ({ r with cols := tset r.cols p.1.2.2 v }, a + b2n sat, b + b2n w, l))
      (.ok (r, 0, 0, addRec t.keys own ⟨stid, key, e, mine⟩))
  | _, _ => .ok ({ r with cols := ms.foldl (fun t m => tset t m.2.2 nullLane) r.cols }, 0, 0, own)
/-- Rows of a batch in turn, records of a task bounded by what STATE_BYTES holds. -/
def windowRows (s : State) (x : Ctx) (t : StateTab) (seen : List WRec) (limit : Nat) :
    List Row → List WRec → Except (Nat × Row) (List Row × Nat × Nat × List WRec)
  | [], own => .ok ([], 0, 0, own)
  | r :: rs, own =>
    match windowRow s x t seen own r with
    | .error st => .error (st, r)
    | .ok (r', a, b, l) =>
      if l.length > limit then .error (St.aggOverflow, r)
      else match windowRows s x t seen limit rs l with
        | .error z => .error z
        | .ok (rows, a', b', l) => .ok (r' :: rows, a + a', b + b', l)
/-- WINDOW_AGG_BATCH (R132). -/
def doWindowAggBatch (id k pos : Nat) (s : State) : State :=
  match batchAt s id k pos Kind.window with
  | none => noBatch s id k pos Kind.window
  | some (s, x, b) =>
    let tab := (tget s.plans.stabs (stKey x.run.fn (x.g.cb x.c 0))).getD ⟨[], 1, 20, 10, [], 0, 0, 0, 0, 0⟩
    let own := match tgetD x.t.st.cst pos .empty with
      | .window l => l
      | _ => []
    let limit := (x.c.stateBytes - 64) / (9 * (1 + x.g.cb x.c 1 + 3 * x.g.cb x.c 4))
    match windowRows s x tab (recsBut x.run k pos) limit b.rows own with
    | .error (st, row) => failBatch s id k x b st (rowPlace x.c b row)
    | .ok (rows, sat, wrap, recs) =>
      let s := setCst (spansTouch (popBatch s id k pos) x.run.fn (windowSpans x tab b.rows)) id k x (.window recs)
      let s := countClause s id k x.c b.rows.length rows.length sat wrap
      finishCmd s id k x (emit s id k x { b with rows := rows })

/-- A slot cleared and given to a key, with its HEAD at epoch `e`. -/
def freshSlot (t : StateTab) (key : List Lane) (e : Nat) : STSlot := ⟨key, e, List.replicate t.nb (t.meas.map (fun _ => (0, 0)))⟩
/-- The slot that an update takes (R134 steps 1 to 3), as it then stands, and whether a key is evicted from it. -/
def stPlace (m : Mem) (t : StateTab) (key : List Lane) (e : Nat) : Nat × STSlot × Bool :=
  match stFind m t key with
  | some (i, sl) => (i, sl, false)
  | none =>
    let grp := stGroup t key
    match grp.find? (fun i => match stRead m t i with
      | none => true
      | some sl => decide (sl.head + t.nb < e + 1)) with
    | some i => (i, freshSlot t key e, false)
    | none =>
      let head := fun (i : Nat) => ((stRead m t i).map (·.head)).getD 0
      (grp.foldl (fun b i => if head i < head b then i else b) (grp.headD 0), freshSlot t key e, true)
/-- A slot with its HEAD moved up to epoch `e`, the buckets it passes cleared. -/
def stAdvance (t : StateTab) (sl : STSlot) (e : Nat) : STSlot :=
  if e ≤ sl.head then sl
  else
    let gone := (List.range (min t.nb (e - sl.head))).map (fun d => (e - d) % t.nb)
    { sl with head := e, buckets := (sl.buckets.zipIdx).map (fun (b, i) => if gone.contains i then t.meas.map (fun _ => (0, 0)) else b) }
/-- A contribution added into the bucket of epoch `e`. -/
def stAdd (t : StateTab) (sl : STSlot) (e : Nat) (vals : List (Int × Nat)) : STSlot :=
  { sl with buckets := (sl.buckets.zipIdx).map (fun (b, i) => if i = e % t.nb then addVals b vals else b) }
/-- Apply one update (R134): the slot's lines are written in the table's DRAM. -/
def stApply (s : State) (fn : Nat) (w : WRec) : State :=
  let key := stKey fn w.stid
  match tget s.plans.stabs key with
  | none => s
  | some t =>
    let (i, sl, evict) := stPlace s.dram t w.key w.epoch
    let setTab := fun (s : State) (t : StateTab) => { s with plans := { s.plans with stabs := tset s.plans.stabs key t } }
    let t := if evict then { t with evict := satAdd 32 t.evict 1 } else t
    if w.epoch + t.nb < sl.head + 1 then setTab s { t with stale := satAdd 32 t.stale 1 }
    else
      let bs := (stSlotLanes t (stAdd t (stAdvance t sl w.epoch) w.epoch w.vals)).flatMap pack9
      setTab (dramWrite s (partOf s fn) (stSlotAddr t i) (bs ++ natLE (slotBytes t - bs.length) 0)) t
/-- Release an item's updates at its commit point (R133). -/
def releaseWindows (s : State) (r : Run) : State := (runRecs r).foldl (fun s w => stApply s r.fn w) s

end Sys2Proof.Machine
end

