-- ==== Sys2Proof/Machine/SortClauses.lean ====
section
/-! DEFINITION. Sort, top-N, merge and exchange clauses (spec/07_sort_exchange.md, R138 to R153), and the checkpoints of tasks
(R77). -/

namespace Sys2Proof.Machine
open Sys2Proof

/-! ## Order words (R138 to R140) -/

/-- The unsigned order value of a lane; 0 for NULL. -/
def orderU (type : Nat) (l : Lane) : Nat :=
  if l = nullLane then 0
  else if type = Ty.float64 then
    let w := laneLow l
    2 ^ 64 + (if w < 2 ^ 63 then w + 2 ^ 63 else 2 ^ 64 - 1 - w)
  else if type = Ty.dict32 then l.toNat + 1
  else l.toNat ^^^ 0x800000000000000000
def allOnes72 : Nat := 2 ^ 72 - 1
/-- The order word: flags bit 0 DESC, bit 1 NULLS_FIRST. -/
def orderWord (type flags : Nat) (l : Lane) : Nat :=
  let desc := bitOf flags 0
  let u := orderU type l
  let w := if bitOf flags 1 != desc then u else if l = nullLane then allOnes72 else u - 1
  if desc then allOnes72 - w else w
/-- The lane an order word restores. -/
def wordLane (type flags w : Nat) : Lane :=
  let desc := bitOf flags 0
  let w := if desc then allOnes72 - w else w
  let u := if bitOf flags 1 != desc then w else if w = allOnes72 then 0 else w + 1
  if u = 0 then nullLane
  else if type = Ty.float64 then
    let t := u - 2 ^ 64
    natLane (if t ≥ 2 ^ 63 then t - 2 ^ 63 else 2 ^ 64 - 1 - t)
  else if type = Ty.dict32 then natLane (u - 1)
  else natLane (u ^^^ 0x800000000000000000)
/-- Does one list of words order before or with another? -/
def wordsLe : List Nat → List Nat → Bool
  | [], _ => true
  | _, [] => true
  | a :: as, b :: bs => a < b || (a == b && wordsLe as bs)
/-- Words of a run row of key width `kw`. -/
def rowWords (kw : Nat) (l : List Lane) : List Nat := (l.take kw).map (·.toNat)
/-- Stable sort of run rows. -/
def sortRows (kw : Nat) (rows : List (List Lane)) : List (List Lane) :=
  sortBy (fun a b => wordsLe (rowWords kw a) (rowWords kw b)) rows
/-- The run row of a batch row: order words, then payload. -/
def runRow (g : Image) (c : Clause) (cols : Cols) (r : Row) : List Lane :=
  ((g.keyCols c).zip (g.keyFlags c)).map (fun p => natLane (orderWord (tgetD cols p.1 ⟨0, 0, none⟩).type p.2 (rowCol r p.1)))
    ++ rowKey (g.payCols c) r

/-! ## Runs (R143) -/

/-- Write a sorted run to the task's region; none when it would pass BYTES_PER_TASK. -/
def writeRun (s : State) (id k : Nat) (x : Ctx) (b kw pw : Nat) (rows : List (List Lane)) : Option State :=
  let t := (getTask s id k).getD x.t
  let base := regionAddr x.g x.run b t.idx
  let pos := if regionPos t b < 128 then 128 else regionPos t b
  let nf := ceilDiv rows.length 512
  let fenceOff := 64 + 9 * (kw + pw) * rows.length
  let size := alignUp (fenceOff + 9 * kw * nf) 128
  let fences := (List.range nf).flatMap (fun i => (((rows[512 * i]?).getD []).take kw).flatMap pack9)
  if pos + fenceOff + 9 * kw * nf > (x.g.brk b).bytes then none
  else
    let hdr := natLE 8 rows.length ++ natLE 4 nf ++ natLE 1 kw ++ natLE 1 pw ++ natLE 2 0 ++ natLE 8 fenceOff ++ natLE 8 size ++ natLE 32 0
    let n := tgetD t.st.runCnt b 0 + 1
    let part := partOf s x.run.fn
    let s := dramWrite s part base (natLE 4 n ++ natLE 60 0)
    let s := dramWrite s part (base + pos) (hdr ++ rows.flatMap (fun l => l.flatMap pack9) ++ fences)
    some (countClause (modSt s id k (fun t => { t with outPos := tset t.outPos b (pos + size), runCnt := tset t.runCnt b n })) id k x.c 0 rows.length 0 0)
/-- A task that saw no row writes NRUNS = 0. -/
def sealRegion (s : State) (id k : Nat) (x : Ctx) (b : Nat) : State :=
  let t := (getTask s id k).getD x.t
  if regionPos t b = 0 then
    modSt (dramWrite s (partOf s x.run.fn) (regionAddr x.g x.run b t.idx) (natLE 64 0)) id k (fun t => { t with outPos := tset t.outPos b 64 })
  else s
/-- Close a run when it holds rows. -/
def closeRun (s : State) (id k : Nat) (x : Ctx) (b kw pw : Nat) (rows : List (List Lane)) : Option State :=
  if rows.isEmpty then some s else writeRun s id k x b kw pw (sortRows kw rows)

/-! ## Sort and top-N (R141, R142, R148) -/

/-- Close a SORT clause's run. -/
def sortClose (s : State) (id k : Nat) (x : Ctx) (rows : List (List Lane)) : Option State :=
  closeRun s id k x (x.g.cb x.c 2) (x.g.cb x.c 0) (x.g.cb x.c 1) rows
/-- The run in progress and the time of its first row. -/
def sortRun (t : Task) (pos : Nat) : List (List Lane) × Nat :=
  match tgetD t.st.cst pos .empty with
  | .sort r since => (r, since)
  | _ => ([], 0)
/-- A task as a replay must find it to build the run in progress again from its first block (R142): as it stood before that block, at the
region's write position of now, the block's rows that earlier runs hold to be passed by. `left` rows of the block's rows that have
entered the clause are in the run. -/
def sortMark (t : Task) (c : Clause) (left : Nat) : TaskSt :=
  let b := t.blockSt
  let entered := tgetD t.st.cIn c.idx 0 - left
  { b with
      outPos := t.st.outPos, runCnt := t.st.runCnt, cst := tset b.cst c.pos (.sort [] 0),
      skip := entered - tgetD b.cIn c.idx 0 + (b.skip - t.st.skip),
      cIn := tset b.cIn c.idx entered, cOut := tset b.cOut c.idx (tgetD t.st.cOut c.idx 0) }
/-- Keep the run in progress: with its rows, one that begins is marked; with none, no mark stands. -/
def keepRun (s : State) (id k : Nat) (x : Ctx) (rows : List (List Lane)) (begins : Bool) (since : Nat) : State :=
  modTask (setCst s id k x (.sort rows since)) id k (fun t =>
    if rows.isEmpty then { t with mark := none }
    else if begins then { t with mark := some (sortMark t x.c rows.length, t.blockUnits) } else t)
/-- SORT_BATCH (R142): a run ends when it holds RUN_ROWS rows, at a batch boundary 32 us after its first row, and at the end of input. A
batch ends one run at most, since RUN_ROWS is at least 512. -/
def doSortBatch (id k pos : Nat) (s : State) : State :=
  match batchAt s id k pos Kind.sort with
  | some (s, x, b) =>
    let (cur, since) := sortRun x.t pos
    let passed := min x.t.st.skip b.rows.length
    let rows := (b.rows.drop passed).map (runRow x.g x.c (colsHere s x))
    let s := modSt (popBatch s id k pos) id k (fun t => { t with skip := t.skip - passed })
    let s := countClause s id k x.c rows.length 0 0 0
    let late := ! cur.isEmpty && decide (now s ≥ since + 32000)
    let full := 2 ^ x.g.cb x.c 3
    (match (if late then sortClose s id k x cur else some s) with
    | none => failRun s id St.workAreaFull (x.c.idx, 0, 0, 0)
    | some s =>
      let cur := if late then [] else cur
      if cur.length + rows.length < full then
        keepRun s id k x (cur ++ rows) cur.isEmpty (if cur.isEmpty then now s else since)
      else match sortClose s id k x (cur ++ rows.take (full - cur.length)) with
        | none => failRun s id St.workAreaFull (x.c.idx, 0, 0, 0)
        | some s => keepRun s id k x (rows.drop (full - cur.length)) true (now s))
  | none =>
    let s := if (ctxAt s id k pos Kind.sort).isSome then feed s id k pos else s
    match ctxAt s id k pos Kind.sort with
    | none => s
    | some x =>
      if x.t.st.flushed.contains pos ∨ ¬ upstreamDone x.g x.t pos ∨ (headBatch x).isSome then s
      else
        let s := modSt s id k (fun t => { t with flushed := t.flushed ++ [pos] })
        finishCmd s id k x ((sortClose s id k x (sortRun x.t pos).1).map (fun s =>
          keepRun (sealRegion s id k x (x.g.cb x.c 2)) id k x [] false 0))
/-- Insert a row after every row that orders before or with it. -/
def insertRow (kw : Nat) (r : List Lane) : List (List Lane) → List (List Lane)
  | [] => [r]
  | y :: ys => if wordsLe (rowWords kw y) (rowWords kw r) then y :: insertRow kw r ys else r :: y :: ys
/-- TOPN_BATCH (R148). -/
def doTopnBatch (id k pos : Nat) (s : State) : State :=
  let heap := fun (t : Task) => match tgetD t.st.cst pos .empty with
    | .topn r => r
    | _ => []
  match batchAt s id k pos Kind.topn with
  | some (s, x, b) =>
    let cols := colsHere s x
    let kw := x.g.cb x.c 0
    let rows := b.rows.foldl (fun h r => (insertRow kw (runRow x.g x.c cols r) h).take (x.g.cn x.c 4 4)) (heap x.t)
    let s := countClause (popBatch s id k pos) id k x.c b.rows.length 0 0 0
    setCst s id k x (.topn rows)
  | none =>
    let s := if (ctxAt s id k pos Kind.topn).isSome then feed s id k pos else s
    match ctxAt s id k pos Kind.topn with
    | none => s
    | some x =>
      if x.t.st.flushed.contains pos ∨ ¬ upstreamDone x.g x.t pos ∨ (headBatch x).isSome then s
      else
        let s := modSt s id k (fun t => { t with flushed := t.flushed ++ [pos] })
        finishCmd s id k x ((closeRun s id k x (x.g.cb x.c 2) (x.g.cb x.c 0) (x.g.cb x.c 1) (heap x.t)).map (fun s => sealRegion s id k x (x.g.cb x.c 2)))

/-! ## Merge (R144 to R147) -/

/-- Rows of a run. -/
def runRows (m : Mem) (w : Nat) (r : Nat × Nat) : List (List Lane) := rowsAt m (r.1 + 64) w r.2
/-- Bytes of a run. -/
def runSpan (m : Mem) (r : Nat × Nat) : Nat × Nat := (r.1, mnat m (r.1 + 24) 8)
/-- The headers of a SORT_RUNS breaker's regions and runs. -/
def headSpans (s : State) (g : Image) (r : Run) (b : Nat) : List (Nat × Nat) :=
  ((regions g r b).filter (fun q => q.2 ≠ 0)).map (fun q => (regionAddr g r b q.1, 64)) ++ (brkRuns s g r b).map (fun q => (q.1, 64))
/-- The runs of a breaker in global order, each with its producer region and the region's rows before it (R89). -/
def placedRuns (s : State) (g : Image) (r : Run) (b : Nat) : List (Nat × Nat × Nat × Nat) :=
  let rec number (k : Nat) : Nat → List (Nat × Nat) → List (Nat × Nat × Nat × Nat)
    | _, [] => []
    | n, q :: qs => (k, n, q) :: number k (n + q.2) qs
  (regions g r b).flatMap (fun (k, n) => if n = 0 then [] else
    let a := regionAddr g r b k
    number k 0 (runsOfRegion s.dram (mnat s.dram a 4) (a + 128)))
/-- Rows of a placed run, each with its region, its row there and its address as lanes behind it. -/
def placedRows (m : Mem) (w : Nat) (q : Nat × Nat × Nat × Nat) : List (List Lane) :=
  ((runRows m w q.2.2).zipIdx).map (fun (l, i) => l ++ [natLane q.1, natLane (q.2.1 + i), natLane (q.2.2.1 + 64 + 9 * w * i)])
/-- Key and payload widths behind a MERGE clause. -/
def mergeWidths (x : Ctx) : Nat × Nat := ((x.g.mergeRoot x.c).map (fun c => (x.g.cb c 0, x.g.cb c 1))).getD (1, 0)
/-- MERGE_INTERMEDIATE (R145): claim a group of runs and merge it into one run. -/
def doMergeIntermediate (id k : Nat) (s : State) : State :=
  match ctxAt s id k 0 Kind.merge with
  | none => s
  | some x =>
    if x.g.cb x.c 0 ≠ 0 ∨ x.t.st.srcDone then s
    else
      let (kw, pw) := mergeWidths x
      let out := x.g.cb x.c 2
      match claimUnit s id k x.t.pipe x.g with
      | none =>
        let s := modSt s id k (fun t => { t with srcDone := true, flushed := t.flushed ++ [0] })
        settleTask (sealRegion s id k x out) id k
      | some (n, s) =>
        let fan := x.g.cn x.c 4 2
        let b := (x.g.pipe x.t.pipe).ref
        let runs := ((brkRuns s x.g x.run b).drop (n * fan)).take fan
        let spans := headSpans s x.g x.run b ++ runs.map (runSpan s.dram)
        let rows := sortRows kw (runs.flatMap (runRows s.dram (kw + pw)))
        let s := countClause s id k x.c rows.length 0 0 0
        if spansBad s spans then failRun s id St.dataPoisoned (x.c.idx, 0, 0, 0)
        else finishCmd s id k x (writeRun (spansTouch s x.run.fn spans) id k x out kw pw rows)
/-- Every `k`-th element of a list. -/
def everyNth {α : Type} (k : Nat) (l : List α) : List α := (l.zipIdx.filter (fun p => p.2 % k == 0)).map (·.1)
/-- The splitters of a FINAL MERGE over `m` ranges (R146 step 3). -/
def splitters (mem : Mem) (kw m : Nat) (runs : List (Nat × Nat)) : List (List Nat) :=
  let fences := runs.flatMap (fun r => (List.range (mnat mem (r.1 + 8) 4)).map (fun i =>
    (lanesAt mem (r.1 + mnat mem (r.1 + 16) 8 + 9 * kw * i) kw).map (·.toNat)))
  let samples := sortBy wordsLe (everyNth (max 1 (ceilDiv fences.length 65536)) fences)
  (List.range (m - 1)).filterMap (fun i => samples[(i + 1) * samples.length / m]?)
/-- The fences of a run. -/
def fenceSpan (m : Mem) (kw : Nat) (r : Nat × Nat) : Nat × Nat := (r.1 + mnat m (r.1 + 16) 8, 9 * kw * mnat m (r.1 + 8) 4)
/-- Run rows of range `n` of a FINAL MERGE in rank order within OFFSET and LIMIT, each with its place, its address and its rank
(R146, R147). -/
def finalRange (s : State) (x : Ctx) (n : Nat) : List (List Lane × Nat) :=
  let (kw, pw) := mergeWidths x
  let b := (x.g.pipe x.t.pipe).ref
  let sp := splitters s.dram kw (pipeTasks x.g x.run x.t.pipe) (brkRuns s x.g x.run b)
  let all := sortRows kw ((placedRuns s x.g x.run b).flatMap (placedRows s.dram (kw + pw)))
  let lower := if n = 0 then none else sp[n - 1]?
  let upper := sp[n]?
  let above := fun (l : List Lane) => match lower with
    | some w => ! wordsLe (rowWords kw l) w
    | none => n == 0
  let below := fun (l : List Lane) => match upper with
    | some w => wordsLe (rowWords kw l) w
    | none => true
  let off := x.g.cn x.c 8 8
  let ok := fun (r : Nat) => off ≤ r && (! bitOf (x.g.cb x.c 1) 0 || decide (r < off + x.g.cn x.c 16 8))
  all.zipIdx.filter (fun p => above p.1 && below p.1 && ok p.2)
/-- The batch row of a run row (R146 step 7). -/
def finalRow (s : State) (x : Ctx) (p : List Lane × Nat) : Row :=
  let (kw, pw) := mergeWidths x
  let root := (x.g.mergeRoot x.c).getD x.c
  let types := (x.g.brkInfo (layMem s x.g) (x.g.pipe x.t.pipe).ref).1.map (·.type)
  let keys := ((types.zip (x.g.keyFlags root)).zip p.1).map (fun q => wordLane q.1.1 q.1.2 q.2.toNat)
  let c := ((x.g.cbs x.c 24 kw).zip keys).foldl (fun t q => tset t q.1 q.2) []
  let c := ((x.g.cbs x.c 28 pw).zip (p.1.drop kw)).foldl (fun t q => tset t q.1 q.2) c
  let place := (p.1.drop (kw + pw)).map (·.toNat)
  { src := (place[1]?).getD 0, region := place.headD 0, cols := if bitOf (x.g.cb x.c 1) 1 then tset c (x.g.cb x.c 3) (natLane p.2) else c }
/-- What a FINAL MERGE reads for a range: the headers, the fences, and the range's rows. -/
def finalSpans (s : State) (x : Ctx) (rows : List (List Lane × Nat)) : List (Nat × Nat) :=
  let (kw, pw) := mergeWidths x
  let b := (x.g.pipe x.t.pipe).ref
  headSpans s x.g x.run b ++ (brkRuns s x.g x.run b).map (fenceSpan s.dram kw)
    ++ rows.map (fun p => (((p.1[kw + pw + 2]?).map (·.toNat)).getD 0, 9 * (kw + pw)))
/-- MERGE_FINAL (R146, R147): claim a range, emit its rows. -/
def doMergeFinal (id k : Nat) (s : State) : State :=
  match ctxAt s id k 0 Kind.merge with
  | none => s
  | some x =>
    if x.g.cb x.c 0 ≠ 1 ∨ x.t.st.srcDone ∨ ¬ inputsEmpty x.t then s
    else if (brkRuns s x.g x.run (x.g.pipe x.t.pipe).ref).length > x.g.cn x.c 4 2 then failRun s id St.mergeFanin (x.c.idx, 0, 0, 0)
    else
      match claimUnit (markBlock s id k) id k x.t.pipe x.g with
      | none => settleTask (modSt s id k (fun t => { t with srcDone := true, flushed := t.flushed ++ [0], claim := none })) id k
      | some (n, s) =>
        let range := finalRange s x n
        let spans := finalSpans s x range
        let s := countClause (modSt s id k (fun t => { t with claim := some n })) id k x.c range.length range.length 0 0
        if spansBad s spans then failRun s id St.dataPoisoned (x.c.idx, 0, 0, 0)
        else finishCmd s id k x (emitAll (spansTouch s x.run.fn spans) id k x (toBatches 1 n (range.map (finalRow s x))))

/-! ## Exchange (R149 to R153) -/

/-- Destinations of a row among `n` tasks (R150). -/
def rowDests (s : State) (x : Ctx) (cols : Cols) (n : Nat) (r : Row) : List Nat :=
  match x.g.cb x.c 0 with
  | 0 => [fld (hashKey (rowKey (x.g.keyCols x.c) r)) 63 47 * n / 2 ^ 17]
  | 1 =>
    let col := x.g.cb x.c 8
    let l := rowCol r col
    let sp := setLanes s ((x.run.binds[x.g.cn x.c 4 2]?).getD ⟨false, false, 0#72, 0, 0⟩)
    let ty := (tgetD cols col ⟨0, 0, none⟩).type
    if l = nullLane then [0]
    else [(sp.filter (fun q => decide (orderKey ty q < orderKey ty l))).length * n / (sp.length + 1)]
  | 2 => List.range n
  | _ => [0]
/-- Bytes a fragment takes in an outbox or inbox, in whole 4 KiB credits. -/
def fragBytes (x : Ctx) (rows : Nat) : Nat := alignUp (9 * x.g.cb x.c 2 * rows) 4096
/-- Rows of a fragment at most: a fragment fills one credit, unless one row is longer (DESIGN CHOICE, assumption 41). -/
def fragRows (x : Ctx) : Nat := max 1 (4096 / (9 * max 1 (x.g.cb x.c 2)))
/-- Cut a destination's rows of a batch into fragments, sub-indices from `sub` on. -/
def fragsOf (x : Ctx) (b : Batch) (dst : Nat) : Nat → Nat → List Row → List Frag
  | 0, _, _ => []
  | n + 1, sub, rows => if rows.isEmpty then [] else
      ⟨dst, ⟨b.unit, b.block, sub⟩, false, rows.take (fragRows x)⟩ :: fragsOf x b dst n (sub + 1) (rows.drop (fragRows x))
/-- The fragments of a batch, destination by destination. -/
def batchFrags (s : State) (x : Ctx) (b : Batch) (sub : Nat) : List Frag :=
  let ts := destTasks x.run x.t.pipe
  let cols := colsHere s x
  let carry := x.g.cbs x.c 24 (x.g.cb x.c 2)
  let pick := fun (r : Row) => { r with cols := r.cols.filter (fun c => carry.contains c.1) }
  ((ts.zipIdx).foldl (fun (acc : List Frag × Nat) (t, d) =>
    let rows := (b.rows.filter (fun r => (rowDests s x cols ts.length r).contains d)).map pick
    let fs := fragsOf x b t.1 rows.length acc.2 rows
    (acc.1 ++ fs, acc.2 + fs.length)) ([], sub)).1
/-- New fragments join those held: of each destination the newest stays held, being perhaps the last of its block; the others are ready
to go. -/
def holdNewest (held new : List Frag) : List Frag × List Frag :=
  new.foldl (fun (p : List Frag × List Frag) f =>
    (p.1 ++ p.2.filter (fun h => h.dst == f.dst), p.2.filter (fun h => ! (h.dst == f.dst)) ++ [f])) ([], held)
/-- The block under way has ended: what is held is the last of it for its destination. -/
def releaseHeld (s : State) (id k : Nat) : State :=
  modSt s id k (fun t => { t with outPend := t.outPend ++ t.outHold.map (fun f => { f with last := true }), outHold := [], sub := 0 })
/-- Bytes that wait at or on their way to a receiver. -/
def inboxLoad (x : Ctx) (r : Run) (p recv : Nat) : Nat :=
  sumBy (fun f => fragBytes x f.rows.length) (inFlight r p recv)
    + sumBy (fun f => fragBytes x f.2.rows.length) (((tget r.tasks recv).map (·.st.inbox)).getD [])
/-- Fragments that are ready go to the outbox and on their way, in order, while the outbox has room and the receiver credit (R152). -/
def sendReady (x : Ctx) (id k : Nat) : Nat → State → State
  | 0, s => s
  | n + 1, s =>
    match getRun s id, getTask s id k with
    | some r, some t =>
      match t.st.outPend with
      | [] => s
      | f :: rest =>
        let need := fragBytes x f.rows.length
        if sumBy (fun q => fragBytes x q.rows.length) t.st.outbox + need > x.g.cn x.c 16 4
            ∨ inboxLoad x r t.pipe f.dst + need > x.g.cn x.c 12 4 then s
        else sendReady x id k n (modSt s id k (fun t => { t with outbox := t.outbox ++ [f], outPend := rest }))
    | _, _ => s
/-- The tasks that have passed their exchange may be done. -/
def exchSettle (s : State) (id p pos : Nat) : State :=
  let s := exchMark s id p pos
  match getRun s id with
  | none => s
  | some r => (destTasks r p).foldl (fun s t => if t.2.st.flushed.contains pos then settleTask s id t.1 else s) s
/-- The splitters of a RANGE exchange. -/
def splitBind (x : Ctx) : Bind := (x.run.binds[x.g.cn x.c 4 2]?).getD ⟨false, false, 0#72, 0, 0⟩
/-- Does nothing of the block under way wait at or before the exchange? -/
def blockPassed (t : Task) (pos : Nat) : Bool := (List.range (pos + 1)).all (fun j => (tgetD t.st.inq j []).isEmpty)
/-- A batch becomes fragments; the block's last for each destination is known once nothing of the block waits before the exchange. -/
def sendBatch (s : State) (id k pos : Nat) (x : Ctx) (b : Batch) : State :=
  let newBlock := x.t.st.outHold.any (fun f => ! (f.tag.unit == b.unit && f.tag.block == b.block))
  let s := if newBlock then releaseHeld s id k else s
  let t := ((getTask s id k).getD x.t).st
  let fs := batchFrags s x b t.sub
  let (ready, held) := holdNewest t.outHold fs
  let s := modSt (popBatch s id k pos) id k (fun t => { t with outPend := t.outPend ++ ready, outHold := held, sub := t.sub + fs.length })
  let s := countClause s id k x.c b.rows.length (sumBy (fun f => f.rows.length) fs) 0 0
  let s := match getTask s id k with
    | some t => if blockPassed t pos then releaseHeld s id k else s
    | none => s
  sendReady x id k (fs.length + t.outHold.length + t.outPend.length) s
/-- EXCHANGE_SEND (R151, R152): fragments that wait for outbox space or credit go first; with none left the head batch becomes fragments. With
its input ended and nothing left to send, the sender sends END. -/
def doExchangeSend (id k pos : Nat) (s : State) : State :=
  match ctxAt s id k pos Kind.exchange with
  | none => s
  | some x =>
    if ! x.t.st.outPend.isEmpty then sendReady x id k x.t.st.outPend.length s
    else match batchAt s id k pos Kind.exchange with
      | some (s, x, b) =>
        let bd := splitBind x
        if x.g.cb x.c 0 = 1 ∧ poisonedIn s bd.addr (16 * bd.len) then failBatch s id k x b St.dataPoisoned (x.c.idx, 0, 0, 0)
        else if x.g.cb x.c 0 = 1 ∧ ¬ setOrdered (setLanes s bd) then failBatch s id k x b St.setOrder (x.c.idx, 0, 0, 0)
        else sendBatch s id k pos x b
      | none =>
        let s := feed s id k pos
        match ctxAt s id k pos Kind.exchange with
        | none => s
        | some x =>
          if x.t.st.endSent ∨ ¬ upstreamDone x.g x.t pos ∨ (headBatch x).isSome then s
          else exchSettle (modSt s id k (fun t => { t with endSent := true })) id x.t.pipe pos
/-- Whole blocks of an inbox leave an exchange that ends its pipeline. -/
def emitInbox (id k : Nat) (x : Ctx) : Nat → State → Option State
  | 0, s => some s
  | n + 1, s =>
    match (getTask s id k).bind (fun t => nextInBatch (x.g.pipe x.t.pipe).source t.st.inbox) with
    | none => some s
    | some (b, rest) => (emit (modSt s id k (fun q => { q with inbox := rest })) id k x b).bind (emitInbox id k x n)
/-- EXCHANGE_FRAGMENT_RECEIVE (R152): the oldest fragment of one sender arrives in the inbox; a block is taken into a batch when its last
fragment is there. -/
def doExchangeFragmentReceive (id k pos sender : Nat) (s : State) : State :=
  match ctxAt s id k pos Kind.exchange with
  | none => s
  | some x =>
    match (tget x.run.tasks sender).bind (fun t => t.st.outbox.find? (fun f => f.dst == k && untaken x.t.st sender f)) with
    | none => s
    | some f =>
      let s := modSt s id k (fun q => { q with inbox := q.inbox ++ [(sender, f)], marks := tset q.marks sender f.tag })
      if x.c.pos + 1 < (x.g.pipe x.t.pipe).ncl then exchSettle (exchTake s id k x) id x.t.pipe pos
      else match emitInbox id k x (x.t.st.inbox.length + 1) s with
        | none => failRun s id St.workAreaFull (x.c.idx, 0, 0, 0)
        | some s => exchSettle s id x.t.pipe pos

/-! ## Checkpoints (R77, R153) -/

/-- The tile's checkpoint timer raises CKPT on its sequencer (Table 10-11). -/
def ckptIrq (s : State) (id k : Nat) : State :=
  match (taskEntry s id k).bind (fun e => e.2.tile) with
  | some m => { s with cores := tupd s.cores (physTile s m) (fun c => { c with irqCkpt := true }) }
  | none => s
/-- The clauses' state regions of a pipeline as a task's state fills them, by offset in a checkpoint slot. -/
def stateCells (g : Image) (p : Nat) (t : TaskSt) : Mem :=
  ((g.clausesOf p).filter (fun c => c.stateBytes > 0)).foldl (fun m c =>
    (clauseBytes g c (tgetD t.cst c.pos .empty)).foldl (fun m q => mwrite m (clauseOff g c + q.1) q.2) m) []
/-- The 128-byte lines in which two states differ: those written since the older. -/
def dirtyLines (a b : Mem) : List Nat :=
  distinct (((a.filter (fun c => ! b.contains c)) ++ (b.filter (fun c => ! a.contains c))).map (fun c => c.1 / 128))
/-- What a checkpoint taken now keeps of a task, with the count of its units: the first block of a SORT run in progress (R142), else
where it stands. -/
def ckState (t : Task) : TaskSt × Nat := t.mark.getD (t.st, t.units.length)
/-- The lines of a checkpoint are written to the slot whose turn it is. -/
def writeLines (s : State) (r : Run) (g : Image) (t : Task) (st : TaskSt) : State :=
  let new := stateCells g t.pipe st
  let base := ckSlot g r t.pipe t.idx (t.ckSeq % 2)
  (dirtyLines (stateCells g t.pipe t.ck) new).foldl (fun s l => dramWrite s (partOf s r.fn) (base + 128 * l) (mreads new (128 * l) 128)) s
/-- CHECKPOINT_TIMER: at a batch boundary after CKPT_US the task's checkpoint is taken and its writing begins; the timer raises CKPT. When no
boundary came within 64 us, the checkpoint takes the sequencer and vector context with it. -/
def doCheckpointTimer (id k : Nat) (s : State) : State :=
  match getRun s id, getTask s id k with
  | some r, some t =>
    let g := planImage s r.fn r.planId
    let due := t.since + 1000 * g.ckptUs
    if taskRuns s id k ∧ ¬ t.ended ∧ t.writing = none ∧ now s ≥ due then
      let (st, units) := ckState t
      let ctx := if now s ≥ due + 64000 then some (tileContext s t.tile) else none
      modTask (writeLines (ckptIrq s id k) r g t st) id k (fun t => { t with
        writing := some st, unitsW := units, rangesW := t.ranges.length, since := now s, ctxW := ctx,
        blockSt := if t.mark.isNone then t.st else t.blockSt, blockUnits := if t.mark.isNone then t.units.length else t.blockUnits })
    else s
  | _, _ => s
/-- The 64-byte checkpoint record: its sequence number, and what else it holds, which the spec does not lay out. It stands at the end of its
slot (DESIGN CHOICE, assumption 38). -/
def ckRecord (s : State) (seq : Nat) : List Byte := natLE 8 seq ++ (List.range 56).map (fun i => Config.recordByte (s.freeCtr + i))
def writeRecord (s : State) (r : Run) (g : Image) (t : Task) : State :=
  if ckBytes g t.pipe = 0 then s
  else
    let a := ckSlot g r t.pipe t.idx (t.ckSeq % 2) + ckBytes g t.pipe - 64
    { dramWrite s (partOf s r.fn) a (ckRecord s (t.ckSeq + 1)) with freeCtr := s.freeCtr + 56 }
/-- CHECKPOINT_COMPLETE: the checkpoint record has landed; the older one is superseded, and senders trim their outboxes. -/
def doCheckpointComplete (id k : Nat) (s : State) : State :=
  match getRun s id, getTask s id k with
  | some r, some t =>
    match t.writing with
    | none => s
    | some w =>
      let s := writeRecord s r (planImage s r.fn r.planId) t
      let s := setRun s id { r with checkpoints := r.checkpoints + 1 }
      let s := modTask s id k (fun t => { t with
        ck := w, ctxCk := t.ctxW, writing := none, ctxW := none, ckSeq := t.ckSeq + 1,
        units := t.units.drop t.unitsW, ranges := t.ranges.drop t.rangesW, blockUnits := t.blockUnits - t.unitsW,
        mark := t.mark.map (fun m => (m.1, m.2 - t.unitsW)), unitsW := 0, rangesW := 0 })
      w.marks.foldl (fun s m => modSt s id m.1 (fun q => { q with
        outbox := q.outbox.filter (fun f => ! (f.dst == k && ! m.2.lt f.tag)) })) s
  | _, _ => s
/-- Replay of a task from its last complete checkpoint (R463 and R77): it works through the units it had claimed since, and
fills again the output ranges it had reserved. -/
def restoreTask (t : Task) (now : Nat) : Task :=
  { t with
      st := t.ck, writing := none, ctxW := none, redo := t.units ++ t.redo, units := [], reuse := t.ranges ++ t.reuse, ranges := [],
      unitsW := 0, rangesW := 0, since := now, blockSt := t.ck, blockUnits := 0, mark := none }

end Sys2Proof.Machine
end

