-- ==== Sys2Proof/Machine/Ecdsa.lean ====
section
/-! DEFINITION. ECDSA verification on P-384 (FIPS 186-5, named by R421 and R423; the curve's parameters are PRESUMED from it,
assumption 26). -/

namespace Sys2Proof.Machine
open Sys2Proof

abbrev P384.p : Nat := 2 ^ 384 - 2 ^ 128 - 2 ^ 96 + 2 ^ 32 - 1
abbrev P384.b : Nat := 0xb3312fa7e23ee7e4988e056be3f82d19181d9c6efe8141120314088f5013875ac656398d8a2ed19d2a85c8edd3ec2aef
abbrev P384.n : Nat := 0xffffffffffffffffffffffffffffffffffffffffffffffffc7634d81f4372ddf581a0db248b0a77aecec196accc52973
abbrev P384.gx : Nat := 0xaa87ca22be8b05378eb1c71ef320ad746e1d3b628ba79b9859f741e082542a385502f25dbf55296c3a545e3872760ab7
abbrev P384.gy : Nat := 0x3617de4a96262c6f5d9e98bf9292dc29f8f41dbd289a147ce9da3113b5f0b8c00a60b1ce1d7e819d7a431d7c90ea0e5f

/-- `x ^ e` modulo `m`, looking at the low `k` bits of `e`. -/
def powMod (m : Nat) : Nat → Nat → Nat → Nat
  | 0, _, _ => 1 % m
  | k + 1, x, e =>
    let r := powMod m k (x * x % m) (e / 2)
    if e % 2 = 1 then r * x % m else r
/-- Inverse modulo a prime. -/
def invMod (m x : Nat) : Nat := powMod m 384 x (m - 2)
/-- Difference modulo `p`. -/
def subP (a b : Nat) : Nat := (a + P384.p - b % P384.p) % P384.p
/-- A point of the curve; none is the point at infinity. -/
abbrev EcPoint := Option (Nat × Nat)
/-- The point with slope `l` from two points. -/
def ecSlope (l x1 y1 x2 : Nat) : EcPoint :=
  let x := subP (subP (l * l) x1) x2
  some (x, subP (l * subP x1 x) y1)
def ecAdd : EcPoint → EcPoint → EcPoint
  | none, q => q
  | q, none => q
  | some (x1, y1), some (x2, y2) =>
    if x1 = x2 then
      if (y1 + y2) % P384.p = 0 then none
      else ecSlope (subP (3 * x1 * x1) 3 * invMod P384.p (2 * y1 % P384.p) % P384.p) x1 y1 x2
    else ecSlope (subP y2 y1 * invMod P384.p (subP x2 x1) % P384.p) x1 y1 x2
/-- A multiple of a point, looking at the low `k` bits of the factor. -/
def ecMul : Nat → Nat → EcPoint → EcPoint
  | 0, _, _ => none
  | k + 1, e, q =>
    let r := ecMul k (e / 2) (ecAdd q q)
    if e % 2 = 1 then ecAdd r q else r
/-- Does (r, s) sign the digest `e` under the public key (x, y)? -/
def ecdsaOk (x y e r s : Nat) : Bool :=
  let n := P384.n
  let onCurve := (y * y) % P384.p == (subP (x * x * x) (3 * x) + P384.b) % P384.p
  if r = 0 ∨ s = 0 ∨ n ≤ r ∨ n ≤ s ∨ P384.p ≤ x ∨ P384.p ≤ y ∨ ! onCurve then false
  else
    let w := invMod n s
    match ecAdd (ecMul 384 (e * w % n) (some (P384.gx, P384.gy))) (ecMul 384 (r * w % n) (some (x, y))) with
    | some (px, _) => px % n == r
    | none => false

end Sys2Proof.Machine
end

