-- ==== Sys2Proof/Machine/Queue.lean ====
section
/-! DEFINITION. Host queues: doorbells, fetching and consuming descriptors, idempotence keys, queue enables and coalesced
interrupts (spec/14_host_queues.md, R283 to R305, R310). -/

namespace Sys2Proof.Machine
open Sys2Proof

/-! ## Doorbells (R288, R289, R298) -/

/-- Does a host access reach the device: PERST# is high and the link is up (R497, R498)? -/
def hostUp (s : State) : Bool := ! s.pwr.por && ! s.pwr.perst && s.pwr.linkRdy
/-- Device-wide number of an enabled queue of a function on the host path. -/
def liveQueue (s : State) (fn q : Nat) : Option Nat :=
  if hostUp s ∧ fnExists s fn then
    match devQueue s fn q with
    | some d => if (getQ s d).st = .disabled then none else some d
    | none => none
  else none
/-- Positions of the inline copies of a doorbell that are not yet fetched: a held descriptor has been fetched. -/
def unfetched (s : State) (d pos tail : Nat) : Bool :=
  let size := sqSize s d
  let h := (getQ s d).head
  decide ((pos + size - h) % size < (tail + size - h) % size) && ! (pos == h && s.qm.held.any (fun x => x.queue == d))
/-- The inline slots of a doorbell page after host writes: slot `i` takes the bytes given for it, and keeps what it holds
where none are given (R288). -/
def pageWrite (page : Tab (List Byte)) (slots : List (List Byte)) : Tab (List Byte) :=
  (slots.take 4).zipIdx.foldl (fun t p => if p.1 = [] then t else tset t p.2 (sub p.1 0 64)) page
/-- The 64 bytes of an inline slot. -/
def pageSlot (page : Tab (List Byte)) (i : Nat) : List Byte := (tget page i).getD (List.replicate 64 0)
/-- What a host read of a doorbell page answers, at every offset and length of it: zeros (R288). -/
def doorbellRead (_s : State) (_fn _q _off n : Nat) : List Byte := List.replicate n 0
/-- SQ_DB (R288, R289): host writes of inline slots, then of the doorbell. A doorbell write that is discarded leaves the
slots written; a page that takes no writes takes neither. -/
def doSqDb (fn q v : Nat) (slots : List (List Byte)) (s : State) : State :=
  match liveQueue s fn q with
  | none => s
  | some d =>
    let s := modQ s d (fun x => { x with page := pageWrite x.page slots })
    let tail := fld v 15 0
    let n := fld v 18 16
    if tail ≥ sqSize s d ∨ n > 4 then s
    else
      let size := sqSize s d
      let inl := (List.range n).foldl (fun (t : Tab (List Byte)) i =>
        let pos := (tail + size - n + i) % size
        if unfetched s d pos tail then tset t pos (pageSlot (getQ s d).page i) else t) (getQ s d).inl
      modQ s d (fun x => { x with tail := tail, inl := inl, notOwnWait := false })
/-- CQ_DB (R298, R302): the new HEAD, after which overflow entries move into the freed slots. -/
def doCqDb (fn q v : Nat) (s : State) : State :=
  match liveQueue s fn q with
  | none => s
  | some d =>
    let head := fld v 15 0
    if head ≥ cqSize s d then s
    else
      let s := modQ s d (fun x => { x with cqHead := head })
      moveOverflow ((getQ s d).overflow.length) s d

/-! ## Fetching (R290, R291) -/

/-- Host items in flight. -/
def hostItems (s : State) : Nat := (s.qm.items.filter (fun p => p.2.msg.isNone)).length
/-- Does a descriptor wait for a scheduler entry, which stops fetching device-wide (R168)? -/
def entryStop (s : State) : Bool := s.qm.held.any (fun h => h.why == .entries && (getQ s h.queue).st == .active)
/-- May queue `d` consume its next descriptor? -/
def mayConsume (s : State) (d : Nat) : Bool :=
  acceptsWork s && (getQ s d).st == .active && ! leavingUnit s 2 d && ringRoom s (ringOf s d) && hostItems s < 16384
/-- May queue `d` fetch? -/
def mayFetch (s : State) (d : Nat) : Bool :=
  let q := getQ s d
  mayConsume s d && q.head != q.tail && ! q.notOwnWait && ! s.qm.held.any (fun h => h.queue == d) && ! entryStop s
/-- QM_Q_STAT.STALL of a queue. -/
def stallOf (s : State) (d : Nat) : Nat :=
  let q := getQ s d
  if q.st != .active || q.head == q.tail then 0
  else match s.qm.held.find? (fun h => h.queue == d) with
    | some h => (match h.why with
      | .flowFull => 1
      | .entries => 2
      | .ikeyFull => 5)
    | none => if ! ringRoom s (ringOf s d) then 4 else if hostItems s ≥ 16384 then 3 else if entryStop s then 2 else 0
/-- The descriptor at the head of a queue: its inline copy, or the ring slot. -/
def descAt (s : State) (d : Nat) : List Byte :=
  let q := getQ s d
  match tget q.inl q.head with
  | some b => b
  | none => mreads s.host (sqBase s d + 64 * q.head) 64
/-- Consume the descriptor at the head: clear OWN in its slot, advance the head (R289, R291). -/
def consume (s : State) (d : Nat) (desc : List Byte) : State :=
  let q := getQ s d
  let s := hostWrite s (sqBase s d + 64 * q.head) (natLE 8 (leAt desc 0 8 % 2 ^ 63))
  let s := modQ s d (fun q =>
    { q with head := (q.head + 1) % sqSize s d, inl := terase q.inl q.head, fetched := satAdd 32 q.fetched 1 })
  { s with
    qm := { s.qm with held := s.qm.held.filter (fun h => h.queue != d) },
    sched := { s.sched with waiters := s.sched.waiters.filter (fun w => match w with
      | .desc k => k != d
      | _ => true) } }
/-- The item of a descriptor (Table 14-3). -/
def newItem (s : State) (d : Nat) (desc : List Byte) : Item :=
  let w := leAt desc 0 8
  let fn := queueHolder s d
  { fn := fn, queue := d, localQ := d - (queueRange s fn).1, tag := fld w 47 32, opcode := fld w 7 0, subcode := fld w 15 8,
    lc := fld w 57 56, arrival := now s, deadline := ownDeadline s (leAt desc 8 8) (fld w 57 56), ordered := bitOf w 62, noIrq := bitOf w 59,
    flowKey := if bitOf w 61 then some (leAt desc 16 8) else none, ikey := if bitOf w 60 then some (leAt desc 24 8) else none,
    desc := desc,
    params := if fld w 7 0 = 0x01 then mreads s.host (leAt desc 40 8) (32 * leAt desc 34 2)
      else if fld w 7 0 = 0x20 then mreads s.host (leAt desc 56 8) 64 else [] }
/-- Record an item under the next number; items are numbered in the order of consumption. -/
def addItem (s : State) (it : Item) : Nat × State :=
  (s.qm.nextItem, { s with qm := { s.qm with items := tset s.qm.items s.qm.nextItem { it with num := s.qm.nextItem }, nextItem := s.qm.nextItem + 1 } })
/-- Consume a descriptor and fail its item with a status, before any effect; it enters no flow. -/
def reject (s : State) (d : Nat) (it : Item) (st : Nat) : State :=
  let (id, s) := addItem (consume s d it.desc) { it with flowKey := none }
  failItem s id st 0 0

/-! ## Steps 1 and 2 of R293 -/

/-- Opcodes in use, with the subcodes of ADMIN (Table 14-4). -/
def opcodeKnown (op sc : Nat) : Bool :=
  if op = 0x60 then decide (1 ≤ sc) && decide (sc ≤ 8)
  else sc == 0 && [0x01, 0x02, 0x03, 0x10, 0x20, 0x21, 0x22, 0x30, 0x31, 0x40, 0x50, 0x7F].contains op
/-- Commands that only the physical function may issue: STATE_DUMP, FN_RESIZE, SPARE_REPORT, MODE_REQUEST. The holder of the
volume is checked with the Ledger checks (R343 step 3). -/
def physOnly (op sc : Nat) : Bool := op == 0x60 && [0x03, 0x04, 0x07, 0x08].contains sc
/-- Does an item name a volume whose operation its function may not issue (Table 14-4, owner of the volume)? The pool's own
operations of FORMAT are the physical function's (R342); a volume number the device does not have passes on to the body's
checks. -/
def volDenied (s : State) (it : Item) : Bool :=
  let v := it.body 32 1
  it.opcode == 0x60 && ((it.subcode == 0x05 || it.subcode == 0x06) && decide (v < 64) && holder s.fns.volFn v != it.fn
    || it.subcode == 0x06 && (v == 0xFE || v == 0xFF) && it.fn != 0)

/-! ## Idempotence keys (R304, R305) -/

def floorOf (s : State) (fn ikey : Nat) : Nat := tgetD s.qm.floors (fn * 65536 + fld ikey 63 48) 0
def findKey (s : State) (fn ikey : Nat) : Option IKeyEnt := s.qm.ikeys.find? (fun k => k.fn == fn && k.ikey == ikey)
/-- Remove the entry of a completed item: the floor of its stream rises (R305). -/
def removeKey (s : State) (k : IKeyEnt) : State :=
  let c := k.fn * 65536 + fld k.ikey 63 48
  { s with qm := { s.qm with
      ikeys := s.qm.ikeys.filter (fun x => ! (x.fn == k.fn && x.ikey == k.ikey)),
      floors := tset s.qm.floors c (max (tgetD s.qm.floors c 0) (fld k.ikey 47 0)) } }
/-- The entry of the item that completed first. -/
def oldestKey (s : State) : Option IKeyEnt :=
  (s.qm.ikeys.filter (·.item.isNone)).foldl (fun best k => match best with
    | none => some k
    | some b => if k.doneAt < b.doneAt then some k else best) none
/-- What step 3 of R293 finds. -/
inductive KeyCase where
  | go | hold | fail (st : Nat) | attach (orig : Nat) | stored (k : IKeyEnt)
deriving DecidableEq, Repr
def keyCase (s : State) (it : Item) : KeyCase :=
  match it.ikey with
  | none => .go
  | some key =>
    match findKey s it.fn key with
    | none =>
      if fld key 47 0 ≤ floorOf s it.fn key then .fail St.ikeyStale
      else if s.qm.ikeys.length ≥ 262144 ∧ (oldestKey s).isNone then .hold else .go
    | some k =>
      if k.opcode ≠ it.opcode ∨ k.subcode ≠ it.subcode then .fail St.ikeyConflict
      else match k.item with
        | some o => .attach o
        | none => .stored k
/-- Make the key entry of an item, removing the oldest completed one from a full table. -/
def makeKey (s : State) (id : Nat) (it : Item) : State :=
  match it.ikey with
  | none => s
  | some key =>
    let s := if s.qm.ikeys.length ≥ 262144 then
        (match oldestKey s with
        | some k =>
          let s := removeKey s k
          { s with qm := { s.qm with ikeyRemoved := satAdd 32 s.qm.ikeyRemoved 1 } }
        | none => s)
      else s
    { s with qm := { s.qm with ikeys := s.qm.ikeys ++ [⟨it.fn, key, it.opcode, it.subcode, some id, 0, 0, 0, 0, 0⟩] } }

/-! ## Insertion (R157, R164 to R168, R293) -/

/-- CODEC and TABLE_APPEND run as one task on a one-tile grant (Table 8-1). -/
def oneTask (it : Item) : Bool := it.opcode == 0x22 || it.opcode == 0x50
/-- Is an in-flight item of the queue using this tag (R293 step 4)? -/
def tagUsed (s : State) (d tag : Nat) : Bool := s.qm.items.any (fun p => p.2.msg.isNone && p.2.queue == d && p.2.tag == tag)
/-- Queues whose descriptors are held for a flow-table entry and could be consumed. -/
def flowWaiters (s : State) : List Nat :=
  (s.qm.held.filter (fun h => h.why == .flowFull && mayConsume s h.queue)).map (·.queue)
/-- Does a flow have, or find, a flow-table entry? A free one goes to the descriptor held longest first (R166); `d` is the queue that asks. -/
def flowOpen (s : State) (fn key : Nat) (d : Option Nat) : Bool :=
  let before := match d with
    | some d => if (flowWaiters s).contains d then ((flowWaiters s).takeWhile (· != d)).length else (flowWaiters s).length
    | none => (flowWaiters s).length
  (findFlow s fn key).isSome || decide (s.sched.flows.length + before < 65536)
/-- The same for an item of queue `d`. -/
def flowRoom (s : State) (d : Nat) (it : Item) : Bool :=
  match it.flowKey with
  | none => true
  | some k => flowOpen s it.fn k (some d)
/-- Does a thread of queue `d` find an entry? One that waits has its turn. -/
def threadRoom (s : State) (d : Nat) : Bool := if s.sched.waiters.contains (.desc d) then entryFree s 2 else entryOpen s 2
/-- Consume and insert an item that passed steps 1 to 4: it takes its key entry and its flow, and, unless it is a RUN_PLAN,
whose tasks have entries of their own, a thread. -/
def insertItem (s : State) (d : Nat) (it : Item) : State :=
  let (id, s) := addItem (consume s d it.desc) it
  let s := makeKey s id it
  let (f, s) := match it.flowKey with
    | none => (none, s)
    | some k => (match joinFlow s it.fn k id with
      | some (f, s) => (some f, s)
      | none => (none, s))
  let s := if it.opcode = 0x01 then (f.map (recalcFlow s)).getD s
    else if oneTask it then insertEntry s 0 id it none f (some [])
    else insertEntry s 2 id it none f none
  schedule (if oneTask it then { s with plans := { s.plans with grantWait := s.plans.grantWait ++ [id] } } else s)
/-- Why an admissible item must be held: its flow finds no place, or its thread no entry. -/
def holdCase (s : State) (d : Nat) (it : Item) : Option HoldWhy :=
  if ! flowRoom s d it then some .flowFull
  else if it.opcode != 0x01 && ! threadRoom s d then some .entries
  else none
/-- Admit a descriptor: reject it, answer it, insert it, or say why it is held (R293 steps 1 to 4, R304). A duplicate is
answered without the check of its tag (DEDUCED, assumption 14). -/
def checkIn (s : State) (d : Nat) (desc : List Byte) : State × Option HoldWhy :=
  let it := newItem s d desc
  if ! opcodeKnown it.opcode it.subcode then (reject s d it St.invalidField, none)
  else if (it.fn ≠ 0 ∧ physOnly it.opcode it.subcode) ∨ volDenied s it then (reject s d it St.accessDenied, none)
  else match keyCase s it with
    | .fail st => (reject s d it st, none)
    | .hold => (s, some .ikeyFull)
    | .attach o =>
      let (_, s) := addItem (consume s d desc) { it with dupOf := some o, flowKey := none }
      (s, none)
    | .stored k =>
      let (id, s) := addItem (consume s d desc)
        { it with phase := .ready, flowKey := none, isDup := true, status := k.status, r0 := k.r0, r1 := k.r1, dupErr := k.errSeq }
      (complete s id, none)
    | .go =>
      if tagUsed s d it.tag then
        let (id, s) := addItem (consume s d desc) { it with flowKey := none }
        (failItem (makeKey s id it) id St.tagInUse 0 0, none)
      else match holdCase s d it with
        | some w => (s, some w)
        | none => (insertItem s d it, none)
/-- Hold a fetched descriptor for a reason, counted once for it (R166, R168); one already held keeps its place. -/
def hold (s : State) (d : Nat) (desc : List Byte) (w : HoldWhy) : State :=
  let old := s.qm.held.find? (fun h => h.queue == d)
  let seen := (old.map (·.counted)).getD []
  let h : HeldDesc := ⟨d, desc, w, if seen.contains w then seen else seen ++ [w]⟩
  let waiters := s.sched.waiters
  let s := { s with
    qm := { s.qm with held := if old.isSome then s.qm.held.map (fun x => if x.queue = d then h else x) else s.qm.held ++ [h] },
    sched := { s.sched with waiters := if w ≠ .entries then waiters.filter (· != .desc d) else if waiters.contains (.desc d) then waiters else waiters ++ [.desc d] } }
  if seen.contains w then s
  else match w with
    | .flowFull => { s with sched := { s.sched with flowFull := satAdd 32 s.sched.flowFull 1 } }
    | .entries => { s with sched := { s.sched with rlFull := satAdd 32 s.sched.rlFull 1 } }
    | .ikeyFull => s
/-- Fetch one descriptor of a queue. -/
def fetchOne (s : State) (d : Nat) : State :=
  let desc := descAt s d
  if ! bitOf (leAt desc 0 8) 63 then
    modQ s d (fun q => { q with notOwnWait := true, notOwn := satAdd 16 q.notOwn 1, inl := terase q.inl q.head })
  else match checkIn s d desc with
    | (s, none) => s
    | (s, some w) => hold s d desc w
/-- Fetch up to `n` descriptors of a queue. -/
def fetchN : Nat → State → Nat → State
  | 0, s, _ => s
  | n + 1, s, d => if mayFetch s d then fetchN n (fetchOne s d) d else s
/-- The next queue of the round robin that may fetch. -/
def nextQueue (s : State) : Option Nat :=
  let ds := (s.qm.queues.map (·.1)).filter (mayFetch s)
  (ds.find? (fun d => decide (s.qm.rr < d))) <|> ds.head?
/-- DESCRIPTOR_FETCH (R290): one turn of one queue, up to 8 descriptors. -/
def doDescriptorFetch (s : State) : State :=
  match nextQueue s with
  | none => s
  | some d => fetchN 8 { s with qm := { s.qm with rr := d } } d

/-! ## Held descriptors -/

/-- Try again the descriptor held longest among those held for one of the reasons. -/
def retryHeld (s : State) (p : HeldDesc → Bool) : State :=
  match s.qm.held.find? (fun h => p h && mayConsume s h.queue) with
  | none => s
  | some h =>
    match checkIn s h.queue h.desc with
    | (s, none) => s
    | (s, some w) => hold s h.queue h.desc w
/-- HELD_DESCRIPTOR_INSERT (R166): a flow-table entry is free for the descriptor held longest. -/
def doHeldDescriptorInsert (s : State) : State := retryHeld s (fun h => h.why == .flowFull && flowRoom s h.queue (newItem s h.queue h.desc))
/-- IKEY_HELD_INSERT (R304): a key entry can be removed for the descriptor held longest. -/
def doIkeyHeldInsert (s : State) : State := retryHeld s (fun h => h.why == .ikeyFull)
/-- IKEY_EXPIRY (R305): the entries of items that completed HOLD_S seconds ago are removed. -/
def doIkeyExpiry (s : State) : State :=
  let hold := rfld s Reg.QM_IKEY_CTL 0 11 0 * 1000000000
  (s.qm.ikeys.filter (fun k => k.item.isNone && k.doneAt + hold ≤ now s)).foldl removeKey s

/-! ## QUEUE_ENABLE (R285) -/

/-- The failure code of an enable, 0 for none (Table 14-10). -/
def enableErr (s : State) (fn q d : Nat) : Nat :=
  let cfg := regGet s Reg.QM_Q_CFG d
  let okExp := fun (e : Nat) => decide (4 ≤ e) && decide (e ≤ 16)
  let cq := fld cfg 63 52
  if sqBase s d = 0 ∨ cqBase s d = 0 then 1
  else if ! okExp (fld cfg 4 0) || ! okExp (fld cfg 12 8) then 2
  else if fld cfg 31 21 ≥ vectorsOf s fn then 3
  else if cq != q && ((devQueue s fn cq).map (fun c => (getQ s c).st == .disabled)).getD true then 4
  else 0
/-- A write of QM_Q_CTL for the queue that the path's QM_Q_SEL selects. An accepted enable leaves ERR as it is (DEDUCED,
assumption 14). -/
def doQueueEnable (p : Path) (v : Nat) (s : State) : State :=
  let fn := pathFn p
  let q := fld (selGet s p Reg.QM_Q_SEL) 11 0
  match devQueue s fn q with
  | none => s
  | some d =>
    if ! bitOf v 31 || (getQ s d).st != .disabled then s
    else
      let e := enableErr s fn q d
      if e ≠ 0 then modQ s d (fun x => { x with ctlErr := e })
      else modQ s d (fun x => { x with
        st := .active, head := 0, tail := 0, inl := [], notOwnWait := false, cqTail := 0, cqHead := 0, parityFrozen := false })

/-! ## MSIX_COALESCE_TIMEOUT (R310) -/

/-- COAL_US µs have passed since a ring's first unsignalled entry. -/
def doMsixCoalesceTimeout (d : Nat) (s : State) : State :=
  let q := getQ s d
  if q.unsig > 0 ∧ q.unsigAt + 1000 * rfld s Reg.QM_Q_CFG d 43 32 ≤ now s then signalRing s d else s

/-! ## NOP (R312) -/

/-- NOP: the thread does nothing; the commit point is ahead. -/
def doNop (id : Nat) (s : State) : State :=
  match itemAt s id 0x7F 0 with
  | some _ => itemReady s id 0 0
  | none => s

end Sys2Proof.Machine
end

