-- ==== Sys2Proof/Machine/Plans.lean ====
section
/-! DEFINITION. Loading, unloading and starting plans (spec/04_plans_pipelines.md, R68 to R84). -/

namespace Sys2Proof.Machine
open Sys2Proof

/-! ## State tables (R84, R130) -/

/-- Lines of 128 bytes that a slot takes: a control lane, the key lanes, and the lanes of each bucket (R131). -/
def slotLinesOf (l : StLayout) : Nat :=
  ceilDiv (9 * (1 + l.keys.length + l.nb * sumBy (fun m => if m.1 = 1 then 1 else 3) l.meas)) 128
def tableMib (l : StLayout) : Nat := ceilDiv (128 * slotLinesOf l * 2 ^ l.cbits) 1048576
/-- The layout of an allocated table of a function. -/
def heldLayout (s : State) (fn i : Nat) : Option StLayout :=
  (tget s.plans.stabs (fn * 64 + i)).map (fun t => ⟨t.keys, t.nb, t.bshift, t.cbits, t.meas⟩)
/-- Lowest unit of the pool from which `n` MiB lie unallocated and contiguous: 0, or the end of a table. -/
def poolFit (s : State) (n : Nat) : Option Nat :=
  let used := s.plans.stabs.map (fun p => ((p.2.base - s.plans.poolBase) / 1048576, p.2.mib))
  let starts := sortBy (fun a b => decide (a ≤ b)) (0 :: used.map (fun u => u.1 + u.2))
  starts.find? (fun a => decide (a + n ≤ s.plans.poolSize)
    && used.all (fun u => decide (a + n ≤ u.1) || decide (u.1 + u.2 ≤ a)))
/-- Allocate one table, zero-filled (R130); none when it does not fit. -/
def allocTable (s : State) (fn i : Nat) (l : StLayout) : Option State :=
  (poolFit s (tableMib l)).map (fun a =>
    let t : StateTab := { keys := l.keys, nb := l.nb, bshift := l.bshift, cbits := l.cbits, meas := l.meas,
                          base := s.plans.poolBase + a * 1048576, mib := tableMib l, slotLines := slotLinesOf l }
    let s := dramZero s 0 t.base (t.mib * 1048576)
    { s with plans := { s.plans with stabs := tset s.plans.stabs (fn * 64 + i) t } })
/-- Allocate the tables that a plan lists and that are not yet allocated, in the order of the list. -/
def allocTables (fn : Nat) (g : Image) (lay : Mem) : List Nat → State → Option State
  | [], s => some s
  | i :: rest, s =>
    if (heldLayout s fn i).isSome then allocTables fn g lay rest s
    else match g.windows.find? (fun c => g.cb c 0 == i) with
      | none => allocTables fn g lay rest s
      | some c => match allocTable s fn i (g.stLayout lay c) with
        | some s => allocTables fn g lay rest s
        | none => none

/-! ## LOAD_PLAN, steps 1 to 8 (R69) -/

/-- Lowest byte of the plan store from which `n` bytes are free together: 0, or the end of an image (DESIGN CHOICE, assumption 36). -/
def storeFit (s : State) (n : Nat) : Option Nat :=
  let used := s.plans.plans.map (fun p => (p.2.storeAt, p.2.imageLen))
  (sortBy (fun a b => decide (a ≤ b)) (0 :: used.map (fun u => u.1 + u.2))).find? (fun a => decide (a + n ≤ 268435456)
    && used.all (fun u => decide (a + n ≤ u.1) || decide (u.1 + u.2 ≤ a)))
/-- Fail a LOAD_PLAN that has taken its plan: the plan returns to ABSENT and its new tables are freed (R69, R84). -/
def loadFail (s : State) (id fn pid st : Nat) : State := failItem (dropPlan s fn pid) id st 0 0
/-- The status of the body checks and of steps 1 to 3. -/
def loadEarly (s : State) (it : Item) : Option Nat :=
  let pid := it.body 32 2
  let len := it.body 36 4
  let addr := it.body 40 8
  firstFail [
    (len == 0xFFFFFFFF, St.lengthInvalid),
    (addr % 8 != 0 || (it.body 56 2 != 0 && it.body 48 8 % 8 != 0), St.alignment),
    (decide (1023 < pid), St.invalidField),
    (planState s it.fn pid != 0, St.planIdInUse),
    (len == 0 || mnat s.host (addr + 8) 4 != len, St.planFormat),
    ((storeFit s len).isNone || decide (1024 ≤ s.plans.plans.length), St.planStoreFull)]
/-- LOAD_PLAN: the checks up to step 8, with the plan in LOADING and its image in the plan store; steps 9 and 10 come at the commit
point. -/
def doLoadPlan (id : Nat) (s : State) : State :=
  match itemAt s id 0x02 0 with
  | none => s
  | some it =>
    match loadEarly s it with
    | some st => failItem s id st 0 0
    | none =>
      let pid := it.body 32 2
      let len := it.body 36 4
      let m := mcopy [] s.host (it.body 40 8) 0 len
      let off := (storeFit s len).getD 0
      let s := dramWrite s 0 (planStore s + off) (mreads m 0 len)
      let g := readImage m
      let lay := layMem s g
      match imageCheck m len lay (heldLayout s it.fn) with
      | some st => failItem s id st 0 0
      | none =>
        let s := setPlan s it.fn pid { st := 1, image := m, imageLen := len, storeAt := off }
        match allocTables it.fn g lay g.stids s with
        | none => loadFail s id it.fn pid St.resourceUnavailable
        | some s => itemReady s id 0 0

/-! ## Steps 9 and 10: binding and the digest (R81, R82) -/

def getLayout (s : State) (l : Nat) : Layout := tgetD s.ing.layouts l {}
def setLayout (s : State) (l : Nat) (v : Layout) : State := { s with ing := { s.ing with layouts := tset s.ing.layouts l v } }
/-- Unbind a plan's layout. -/
def unbindLayout (s : State) (fn pid : Nat) : State :=
  { s with ing := { s.ing with layouts := s.ing.layouts.map (fun p =>
      if p.2.bound = some (fn, pid) then (p.1, { p.2 with bound := none }) else p) } }
/-- A READY or BOUND plan enters UNLOADING; its layout is unbound. -/
def startUnload (s : State) (fn pid : Nat) (unloaders : List Nat) : State :=
  match getPlan s fn pid with
  | none => s
  | some p => unbindLayout (setPlan s fn pid { p with st := 4, unloaders := p.unloaders ++ unloaders }) fn pid
/-- Words that a STANDING plan's programs take on a tile. -/
def allWords (g : Image) : Nat := sumBy (·.progWords) g.clauses
/-- Tiles of a pool that can take a plan's reservation, those of the warm LC0 cluster first (R81, R169). -/
def standTiles (s : State) (fn : Nat) (g : Image) : List Nat :=
  let ts := offering s fn g.req.ls (allWords g)
  match (List.range 128).find? (fun t => ! (hosts s t).isEmpty) with
  | none => ts
  | some w => ts.filter (fun t => t / 8 == w / 8) ++ ts.filter (fun t => t / 8 != w / 8)
/-- The checks of R81, in order: the bindings, or the first status. -/
def standCheck (s : State) (it : Item) (g : Image) : Except Nat (List Bind) :=
  let l := getLayout s g.layout
  let count := it.body 56 2
  match firstFail [
      (holder s.fns.layoutFn g.layout != it.fn, St.accessDenied),
      (! l.valid, St.noLayout),
      (l.bound.isSome && ! bitOf (it.body 34 1) 0, St.layoutBound),
      (g.pipes.length != 1 || (g.pipe 0).source != 2 || ! g.brks.isEmpty, St.planFormat),
      (decide ((standTiles s it.fn g).length < g.req.tmin) || decide (camBlocks s it.fn < g.req.cam), St.resourceUnavailable),
      (decide (g.slots.length < count), St.invalidField)] with
  | some st => .error st
  | none => bindCheck s (winIt s it) g (mreads s.host (it.body 48 8) (32 * count)) count
/-- Bind a checked STANDING plan: the old plan of its layout enters UNLOADING, tiles are reserved and their clusters kept
powered (R437). -/
def standBind (s : State) (fn pid : Nat) (g : Image) (binds : List Bind) (digest : List Byte) : State :=
  let tiles := (standTiles s fn g).take g.req.tmax
  let s := match (getLayout s g.layout).bound with
    | some (f, p) => startUnload s f p []
    | none => s
  let s := setLayout s g.layout { getLayout s g.layout with bound := some (fn, pid) }
  let s := match getPlan s fn pid with
    | some p => setPlan s fn pid { p with st := 3, digest := digest, layout := g.layout, tiles := tiles, binds := binds }
    | none => s
  tiles.foldl (fun s t => wakeCluster s (t / 8)) (pinPlan s fn pid tiles)
/-- The commit point of a LOAD_PLAN: READY or BOUND, or the status of the failing check. -/
def loadCommit (s : State) (it : Item) : Except Nat State :=
  let pid := it.body 32 2
  match getPlan s it.fn pid with
  | none => .error St.planFormat
  | some p =>
    let g := readImage p.image
    let digest := sha384 (mreads p.image 0 p.imageLen)
    if g.standing then
      match standCheck s it g with
      | .error st => .error st
      | .ok binds => .ok (standBind s it.fn pid g binds digest)
    else .ok (setPlan s it.fn pid { p with st := 2, digest := digest })

/-! ## UNLOAD_PLAN and UNLOAD_COMPLETE (R70) -/

/-- UNLOAD_PLAN: its commit point is the instant its plan enters UNLOADING; it then waits. It waits for a plan in LOADING. -/
def doUnloadPlan (id : Nat) (s : State) : State :=
  match itemAt s id 0x03 0 with
  | none => s
  | some it =>
    let pid := it.body 32 2
    if pid > 1023 then failItem s id St.invalidField 0 0
    else match planState s it.fn pid with
      | 1 => s
      | 2 => unload s it pid
      | 3 => unload s it pid
      | _ => failItem s id St.planNotLoaded 0 0
where
  unload (s : State) (it : Item) (pid : Nat) : State :=
    if ! orderedMay s id it then s
    else
      let s := deadlineCheck s it (now s)
      let s := startUnload s it.fn pid [id]
      let s := modItem s id (fun it => { it with phase := .committed, entry := none })
      schedule (leaveFlow (endEntries s id) it.fn it.flowKey id)
/-- UNLOAD_COMPLETE: a plan in UNLOADING with no item left returns to ABSENT, and the items that wait for it complete; no rule
gives their results (assumption 19). -/
def doUnloadComplete (fn pid : Nat) (s : State) : State :=
  match getPlan s fn pid with
  | none => s
  | some p =>
    if p.st = 4 ∧ planActive s fn pid = 0 then
      p.unloaders.foldl (fun s u =>
        let a := freeRes s
        let b := freeRes a.2
        complete (modItem b.2 u (fun it => { it with r0 := a.1, r1 := b.1 })) u) (dropPlan s fn pid)
    else s

/-! ## RUN_PLAN (R73, R74) -/

/-- The bindings of a RUN_PLAN, or the status of the first failing check of R73 and of steps 1 to 3 of R74. -/
def runCheck (s : State) (it : Item) : Except Nat (List Bind) :=
  let pid := it.body 32 2
  let count := it.body 34 2
  let g := planImage s it.fn pid
  match firstFail [
      ((count != 0 && it.body 40 8 % 8 != 0) || it.body 48 8 % 4096 != 0, St.alignment),
      (decide (1023 < pid), St.invalidField),
      (planState s it.fn pid == 3, St.planStanding),
      (planState s it.fn pid != 2, St.planNotLoaded),
      (decide (g.slots.length < count), St.invalidField)] with
  | some st => .error st
  | none =>
    match bindCheck s (winIt s it) g it.params count with
    | .error st => .error st
    | .ok binds =>
      let len := it.body 36 4 * 4096
      match firstFail [
          (! winIt s it (it.body 48 8) len, St.addressRange),
          (decide ((offering s it.fn g.req.ls (largestPipe g)).length < g.req.tmin) || decide (camBlocks s it.fn < g.req.cam),
            St.resourceUnavailable),
          (decide (len < workNeed g g.req.tmin), St.workAreaSmall)] with
      | some st => .error st
      | none => .ok binds
/-- A run as its descriptor gives it. -/
def newRun (it : Item) : Run :=
  { fn := it.fn, planId := it.body 32 2, workAddr := it.body 48 8, workLen := it.body 36 4 * 4096, statsAddr := it.body 56 8, arrival := it.arrival }
/-- RUN_PLAN: the item at the head of its flow is checked and waits for its grant; one that fails a check writes its statistics area. It waits for a plan in LOADING. -/
def doRunPlan (id : Nat) (s : State) : State :=
  match getItem s id with
  | none => s
  | some it =>
    if it.opcode ≠ 0x01 ∨ it.phase ≠ .queued ∨ it.msg.isSome ∨ it.dupOf.isSome ∨ ! headOfFlow s id it
        ∨ it.abortBy ≠ [] ∨ planState s it.fn (it.body 32 2) = 1 then s
    else match runCheck s it with
      | .error st => failItem (writeArea s (newRun it) (now s)) id st 0 0
      | .ok binds =>
        let pid := it.body 32 2
        let g := planImage s it.fn pid
        let slots := distinct ((g.pipes.filter (fun p => p.source == 0)).map (·.ref))
        let nsegs := slots.foldl (fun (t : Tab Nat) i =>
          tset t i (readTable s.dram (((binds[i]?).map (·.addr)).getD 0)).nsegs) []
        let s := setRun s id { newRun it with binds := binds, nsegs := nsegs }
        let s := modItem s id (fun it => { it with phase := .running })
        { s with plans := { s.plans with grantWait := s.plans.grantWait ++ [id] } }

/-! ## ENTRY_WAIT_GRANT (R168) -/

/-- Can a waiter use a free entry now? -/
def waiterMay (s : State) (w : EntryWaiter) : Bool :=
  entryFree s 0 && match w with
    | .desc d => mayConsume s d
    | .task _ _ => true
/-- A free entry goes to the waiter that began waiting first. -/
def doEntryWaitGrant (s : State) : State :=
  match s.sched.waiters.find? (waiterMay s) with
  | none => s
  | some (.desc d) => retryHeld s (fun h => h.queue == d && h.why == .entries)
  | some (.task id k) =>
    let s := { s with sched := { s.sched with waiters := s.sched.waiters.filter (· != .task id k) } }
    match getItem s id, getTask s id k with
    | some it, some _ => schedule (taskEntryIn s id it k)
    | _, _ => s

end Sys2Proof.Machine
end

