-- ==== Sys2Proof/Machine/Release.lean ====
section
/-! DEFINITION. The commit gate (R78, R83, R186, R300, R303, R465): the release of an item's held effects, COMMIT_POINT, and
how work that has not reached its commit point is undone. -/

namespace Sys2Proof.Machine
open Sys2Proof

/-! ## The release of held effects -/

/-- Release one held effect, in the partition of the item's function. -/
def releaseEffect (s : State) (part : Nat) : Effect → State
  | .dram a bs => dramWrite s part a bs
  | .host a bs => hostWrite s a bs
  | .cam i op rec => camApply s i op rec
def releaseEffects (s : State) (part : Nat) (es : List Effect) : State := es.foldl (fun s e => releaseEffect s part e) s
/-- Columns of the row that left a STANDING pipeline. -/
def replyRow (r : Run) : Option (List (Option Lane)) := r.outRow.map (fun w => (List.range 64).map (fun c => tget w.cols c))
/-- The journal record of a STANDING item, when its plan journals (assumption 20). -/
def journalStep (s : State) (it : Item) (r : Run) : Except Nat State :=
  match Config.journalVol (r.fn * 65536 + r.planId) with
  | none => .ok s
  | some v =>
    let (k, s) := nextFree s
    journalRelease s it v.toNat ((List.range (Config.journalLen k).toNat).map (Config.journalByte k))
/-- Release a STANDING item: its APPEND is accepted first, then its updates and its reply (R23, R83, R186). -/
def releaseStanding (s : State) (id : Nat) (it : Item) (m : MsgInfo) (r : Run) : Except Nat State :=
  match journalStep s it r with
  | .error st => .error st
  | .ok s => .ok (endRun (sendReply (addPlanCounts (releaseWindows s r) r) m (replyRow r)) id)
/-- Release an item's effects together; the status of a check that comes last (R69 step 9, R344) fails it instead. -/
def releaseItem (s : State) (id : Nat) (it : Item) : Except Nat State :=
  match it.msg, getRun s id with
  | some m, some r => releaseStanding s id it m r
  | none, some r =>
    let fin := ((getItem s id).map (·.r1)).getD (now s)
    .ok (endRun (writeStats (addPlanCounts (releaseEffects (releaseWindows s r) (partOf s it.fn) it.effects) r) id fin) id)
  | _, none => if it.opcode = 0x02 ∧ it.msg = none then loadCommit s it else .ok (releaseEffects s (partOf s it.fn) it.effects)

/-! ## COMMIT_POINT -/

/-- Does a committed item still wait for its end: an unload, or a Ledger command or operation? -/
def endsLater (s : State) (id : Nat) : Bool :=
  s.plans.plans.any (fun p => p.2.unloaders.contains id)
    || s.led.cmds.any (fun c => c.2.src == .item id || c.2.dups.contains id)
    || (s.led.op.toList ++ s.led.opQ).any (fun o => o.item == some id || o.dups.contains id)
/-- Release an item and complete it, or fail it on its last check. -/
def releaseNow (s : State) (id : Nat) (it : Item) : State :=
  match releaseItem s id it with
  | .ok s =>
    let s := deadlineCheck s it (((getItem s id).map (·.reachedAt)).getD (now s))
    complete (modItem s id (fun x => { x with phase := .committed, effects := [] })) id
  | .error st => if it.msg.isSome then failRun s id st noPlace else loadFail s id it.fn (it.body 32 2) st
/-- Results that an item takes at its commit point: a RUN_PLAN's RESULT1 is the DEVTIME of it; LOAD_PLAN, NOP and the second
result of CAM_UPDATE have no rule (assumption 19). -/
def commitResults (s : State) (id : Nat) (it : Item) : State :=
  if it.msg.isSome then s
  else if it.opcode = 0x01 then setItem s id { it with r1 := now s }
  else if it.opcode = 0x02 ∨ it.opcode = 0x7F then
    let a := freeRes s
    let b := freeRes a.2
    setItem b.2 id { it with r0 := a.1, r1 := b.1 }
  else if it.opcode = 0x30 then
    let a := freeRes s
    setItem a.2 id { it with r1 := a.1 }
  else s
/-- Is an item at the commit gate of the Ledger engine, which issues its sector or its CMD once the gate lets it (R345)? -/
def ledgerItem (it : Item) : Bool := it.opcode == 0x40 || (it.opcode == 0x60 && (it.subcode == 0x05 || it.subcode == 0x06))
/-- COMMIT_POINT (R78, R303): a ready item reaches its commit point; its effects are released together when its completion
finds a place, and held until then otherwise. A failed or duplicate item posts its completion. -/
def doCommitPoint (id : Nat) (s : State) : State :=
  match getItem s id with
  | none => s
  | some it =>
    match it.phase with
    | .ready =>
      if it.status ≠ 0 ∨ it.isDup then (if continues s it then s else complete s id)
      else if ! itemOnTile s it || ! orderedMay s id it || dataMoving s id then s
      else
        let s := modItem (commitResults s id it) id (fun x => { x with reachedAt := now s })
        if hasPlace s it then releaseNow s id it else modItem s id (fun x => { x with phase := .held })
    | .held => if hasPlace s it then releaseNow s id it else s
    | .committed => if endsLater s id || continues s it then s else complete s id
    | .running => if ledgerItem it then ledTick s else s
    | _ => s

/-! ## Undoing work before the commit point (R309, R324, R400) -/

/-- Take transfers out of the queue, and stop their channels at the next boundary. -/
def dropXfer (s : State) (w : XferFor → Bool) : State :=
  { s with dma := { s.dma with
      wait := s.dma.wait.filter (fun x => ! w x.who),
      chan := s.dma.chan.map (fun c => if w c.2.who then (c.1, { c.2 with stop := true }) else c) } }
/-- End an item's resize: the leaving units return to FROM_FN's full use (R335). -/
def dropResize (s : State) (id : Nat) : State :=
  match s.fns.resize with
  | some r => if r.item = id then dropXfer { s with fns := { s.fns with resize := none } } (· == .zero id) else s
  | none => s
/-- Withdraw an item's mode request. -/
def dropModeReq (s : State) (id : Nat) : State :=
  let keep := fun (q : Option ModeReq) => if (q.bind (·.item)) = some id then none else q
  { s with pwr := { s.pwr with req := keep s.pwr.req, reqWait := keep s.pwr.reqWait } }
/-- Undo what an item that has not reached its commit point holds in the engines. -/
def undoWork (s : State) (id : Nat) (it : Item) : State :=
  let s := endRun s id
  let s := if it.msg = none ∧ it.opcode = 0x02 ∧ it.phase = .ready ∧ it.status = 0 then dropPlan s it.fn (it.body 32 2) else s
  dropModeReq (dropResize (ledDrop (ciphDrop (dropXfer s (fun w => xferItem w == some id)) id) id) id) id

end Sys2Proof.Machine
end

