-- ==== Sys2Proof/Machine/Functions.lean ====
section
/-! DEFINITION. Virtual functions and FN_RESIZE (spec/15_dma_and_functions.md, R327 to R335), and the reset of a function
(R286). -/

namespace Sys2Proof.Machine
open Sys2Proof

/-! ## FN_RESIZE: its body and checks (R331, R332) -/

structure RzBody where
  kind : Nat
  src : Nat
  dst : Nat
  zflags : Nat
  count : Nat
  first : Nat
deriving DecidableEq, Repr
def rzBody (it : Item) : RzBody := ⟨it.body 32 1, it.body 33 1, it.body 34 1, it.body 35 1, it.body 36 4, it.body 40 8⟩
/-- Does FROM_FN apply? -/
def RzBody.hasFrom (b : RzBody) : Bool := b.kind != 3 && b.kind != 4
/-- Units of a window resize, in 2 MiB from address 0. -/
def RzBody.unit (b : RzBody) : Nat := if b.kind = 9 then b.first / 0x200000 else b.first
/-- Holders of a kind numbered by unit, and how many units there are. -/
def unitTab (s : State) (kind : Nat) : Tab Nat × Nat :=
  match kind with
  | 1 => (s.fns.tileFn, 128)
  | 5 => (s.fns.camFn, 16)
  | 6 => (s.fns.keyFn, 64)
  | 7 => (s.fns.volFn, 64)
  | 8 => (s.fns.layoutFn, 256)
  | _ => ([], 0)
/-- Does FROM_FN hold every named unit? -/
def rzOwns (s : State) (b : RzBody) : Bool :=
  if ! b.hasFrom then true
  else if b.kind = 2 then
    let r := queueRange s b.src
    b.count == 0 || (decide (r.1 ≤ b.first) && decide (b.first + b.count ≤ r.1 + r.2))
  else if b.kind = 9 then winOk s b.src b.first (b.count * 0x200000)
  else
    let t := unitTab s b.kind
    b.count == 0 || (decide (b.first + b.count ≤ t.2)
      && (List.range t.2).all (fun u => decide (u < b.first) || decide (b.first + b.count ≤ u) || holder t.1 u == b.src))
/-- Windows with the bytes from `a` to below `e` taken out. -/
def winCut (ws : List Window) (a e : Nat) : List Window :=
  ws.flatMap (fun w =>
    let lo : List Window := if w.base < a then [⟨w.base, min (w.base + w.size) a - w.base⟩] else []
    let hi : List Window := if e < w.base + w.size then [⟨max w.base e, w.base + w.size - max w.base e⟩] else []
    if w.base + w.size ≤ a ∨ e ≤ w.base then [w] else lo ++ hi)
/-- Windows with a range added, joined to those it touches. -/
def winJoin (ws : List Window) (a e : Nat) : List Window :=
  let touch := ws.filter (fun w => w.base + w.size == a || w.base == e)
  let lo := touch.foldl (fun n w => min n w.base) a
  let hi := touch.foldl (fun n w => max n (w.base + w.size)) e
  sortBy (fun x y => decide (x.base ≤ y.base)) (ws.filter (fun w => ! touch.contains w) ++ [(⟨lo, hi - lo⟩ : Window)])
def winsOf (s : State) (fn : Nat) : List Window := tgetD s.fns.windows fn []
/-- A breach of shape (R332 step 4). -/
def rzShape (s : State) (b : RzBody) : Bool :=
  match b.kind with
  | 2 =>
    let f := queueRange s b.src
    let t := queueRange s b.dst
    b.count != 0 && (b.first + b.count != f.1 + f.2 || (t.2 != 0 && t.1 + t.2 != b.first)
      || (List.range (b.first - f.1)).any (fun q =>
        let c := rfld s Reg.QM_Q_CFG (f.1 + q) 63 52 + f.1
        decide (b.first ≤ c) && decide (c < b.first + b.count)))
  | 3 => decide (b.count > 32) || b.dst == 0
  | 4 => decide (b.first > 7)
  | 9 =>
    let e := b.first + b.count * 0x200000
    b.first % 0x200000 != 0 || (b.count != 0 && (decide ((winCut (winsOf s b.src) b.first e).length > 16)
      || decide ((winJoin (winsOf s b.dst) b.first e).length > 16)))
  | _ => false
def rzUnits (b : RzBody) : List Nat := (List.range b.count).map (b.unit + ·)
/-- Bound layouts, or CAM blocks that a loaded plan of FROM_FN needs (R332 step 5). -/
def rzBusy (s : State) (b : RzBody) : Bool :=
  if b.kind = 8 then (rzUnits b).any (fun l => (getLayout s l).bound.isSome)
  else if b.kind = 5 then
    s.plans.plans.any (fun p => p.1 / 1024 == b.src && decide (camBlocks s b.src - b.count < (readImage p.2.image).req.cam))
  else false
/-- Tiles of a function's pool outside a list that a bound plan of it could keep or take. -/
def planTiles (s : State) (fn : Nat) (p : Plan) (gone : List Nat) : List Nat :=
  let g := readImage p.image
  (poolTiles s fn).filter (fun t => ! gone.contains t
    && (p.tiles.contains t || (decide (g.req.ls ≤ lsFree s t) && decide (allWords g ≤ pinFree s t))))
/-- Would a bound plan of FROM_FN keep fewer than TILES_MIN tiles (R332 step 6)? -/
def rzTiles (s : State) (b : RzBody) : Bool :=
  b.kind == 1 && b.count != 0 && s.plans.plans.any (fun p => p.1 / 1024 == b.src && p.2.st == 3
    && decide ((planTiles s b.src p.2 (rzUnits b)).length < (readImage p.2.image).req.tmin))
/-- Does a window name addresses that the part does not populate (R2)? R332 names no place for this check: it stands before the
check of the holder (DESIGN CHOICE, assumption 22). -/
def rzUnpopulated (s : State) (b : RzBody) : Bool :=
  b.kind == 9 && b.count != 0 && decide (dramSize s < b.first + b.count * 0x200000) && decide (b.first < 0x8000000000)
/-- The checks of R332, in order. -/
def rzCheck (s : State) (b : RzBody) : Option Nat :=
  firstFail [
    (b.kind == 0 || decide (b.kind > 9) || decide (b.zflags > 1) || (b.zflags == 1 && b.kind != 9) || (b.hasFrom && b.src == b.dst),
      St.invalidField),
    ((b.hasFrom && ! fnExists s b.src) || ! fnExists s b.dst, St.fnNotEnabled),
    (rzUnpopulated s b, St.addressRange),
    (! rzOwns s b, St.resizeNotOwner),
    (rzShape s b, St.resizeInvalid),
    (rzBusy s b, St.resizeBusy),
    (rzTiles s b, St.resourceUnavailable)]
/-- Is an earlier FN_RESIZE still in flight? They are served in the order of consumption. -/
def rzEarlier (s : State) (it : Item) : Bool :=
  s.fns.resize.isSome || s.qm.items.any (fun p => p.2.msg.isNone && p.2.opcode == 0x60 && p.2.subcode == 4 && p.2.dupOf.isNone
    && ! p.2.isDup && decide (p.2.num < it.num) && p.2.phase == .queued && p.2.abortBy.isEmpty)
/-- FN_RESIZE (R331 to R333): its checks, and its units are leaving. -/
def doFnResize (id : Nat) (s : State) : State :=
  match itemAt s id 0x60 4 with
  | none => s
  | some it =>
    if rzEarlier s it then s
    else
      let b := rzBody it
      match rzCheck s b with
      | some st => failItem s id st 0 0
      | none =>
        if b.count = 0 ∧ b.hasFrom then (if gateOpen s id it then commitNow s id 0 (now s) else s)
        else
          let r : Resize := { item := id, kind := b.kind, fromFn := if b.hasFrom then b.src else b.dst, toFn := b.dst,
                              zero := b.zflags == 1, left := if b.hasFrom then rzUnits b else [0], moved := 0,
                              waitFor := (s.qm.items.filter (fun p => p.2.fn == b.src && p.1 != id)).map (·.1) }
          toEngine { s with fns := { s.fns with resize := some r } } id

/-! ## When a unit moves (Table 15-7) -/

/-- Have the items in flight at consumption all ended? -/
def rzWaited (s : State) (r : Resize) : Bool := ! r.waitFor.any (fun i => (getItem s i).isSome)
/-- Does nothing name tile `t` any more: no entry, no grant, no reservation? -/
def tileFree (s : State) (t : Nat) : Bool :=
  ! s.sched.entries.any (fun p => p.2.tile == some t || (p.2.elig.getD []).contains t) && ! tileGranted s t && (hosts s t).isEmpty
/-- Are items of the leaving queues all complete? -/
def queuesIdle (s : State) (r : Resize) : Bool := ! s.qm.items.any (fun p => p.2.msg.isNone && r.left.contains p.2.queue)
/-- Is a volume free of commands and operations? -/
def volIdle (s : State) (v : Nat) : Bool :=
  ! s.led.cmds.any (fun c => c.2.vol == v) && ! s.led.cus.any (fun c => c.2.vol == v)
    && ! (s.led.op.toList ++ s.led.opQ).any (fun o => o.vol == v)
/-- May unit `u` move now? -/
def unitMay (s : State) (r : Resize) (u : Nat) : Bool :=
  match r.kind with
  | 1 => tileFree s u
  | 2 => queuesIdle s r
  | 5 => ! s.cam.waiting.any (fun q => q.fn == r.fromFn)
  | 6 => slotUsers s u == 0
  | 7 => volIdle s u
  | 9 => rzWaited s r && ! r.zero
  | _ => true
/-- A queue enters DISABLED; its overflow and its held descriptor go with it (R285, R286). -/
def queueOff (s : State) (d : Nat) : State :=
  let s := modQ s d (fun q => { q with
    st := .disabled, parityFrozen := false, head := 0, tail := 0, inl := [], notOwnWait := false, cqTail := 0, cqHead := 0,
    overflow := [], unsig := 0 })
  { s with
    qm := { s.qm with held := s.qm.held.filter (fun h => h.queue != d) },
    sched := { s.sched with waiters := s.sched.waiters.filter (· != .desc d) } }
def camErase (s : State) (blk : Nat) : State :=
  let clear := fun (m : Mem) => m.filter (fun c => ! (c.1 % 64 == 44 && c.1 / 64 / 8192 == blk))
  { s with cam := { s.cam with mem := clear s.cam.mem, copy := clear s.cam.copy } }
/-- Hand units to a function. -/
def unitsTo (s : State) (r : Resize) (us : List Nat) : State :=
  let put := fun (t : Tab Nat) => us.foldl (fun t u => tset t u r.toFn) t
  match r.kind with
  | 1 => { s with fns := { s.fns with tileFn := put s.fns.tileFn } }
  | 2 =>
    let s := us.foldl queueOff s
    let f := queueRange s r.fromFn
    let t := queueRange s r.toFn
    let lo := us.headD 0
    let qr := tset s.fns.queueRange r.fromFn (f.1, f.2 - us.length)
    { s with fns := { s.fns with queueRange := tset qr r.toFn (if t.2 = 0 then lo else t.1, t.2 + us.length) } }
  | 5 => us.foldl camErase { s with fns := { s.fns with camFn := put s.fns.camFn } }
  | 6 => us.foldl (fun s k => { s with ciph := { s.ciph with slots := terase s.ciph.slots k } })
      { s with fns := { s.fns with keyFn := put s.fns.keyFn } }
  | 7 => { s with fns := { s.fns with volFn := put s.fns.volFn } }
  | 8 => { s with fns := { s.fns with layoutFn := put s.fns.layoutFn } }
  | 9 =>
    let a := us.headD 0 * 0x200000
    let e := a + us.length * 0x200000
    let wins := tset s.fns.windows r.fromFn (winCut (winsOf s r.fromFn) a e)
    { s with fns := { s.fns with windows := tset wins r.toFn (winJoin (winsOf s r.toFn) a e) } }
  | _ => s

/-! ## STANDING reservations on leaving tiles (R334) -/

/-- The cluster a reservation moves to: the lowest whose tiles of the pool hold no batch grant and offer LS_PER_TILE. -/
def remakeCluster (s : State) (fn : Nat) (g : Image) : Option (Nat × List Nat) :=
  ((List.range 16).map (fun c => (c, (poolTiles s fn).filter (fun t => t / 8 == c)))).find? (fun p =>
    decide (g.req.tmin ≤ p.2.length) && p.2.all (fun t => ! tileGranted s t && (offering s fn g.req.ls (allWords g)).contains t))
/-- One step of re-making the reservation of a plan that holds tile `t`: wake the chosen cluster, or, when it is clocked, switch
to it. -/
def standingRemake (s : State) (fn t : Nat) : State :=
  match s.plans.plans.find? (fun p => p.2.tiles.contains t) with
  | none => s
  | some (k, p) =>
    let g := readImage p.image
    match remakeCluster s fn g with
    | none => s
    | some (c, ts) =>
      match (getCluster s c).st with
      | .gated => wakeCluster s c
      | .waking => s
      | _ =>
        let s := { s with plans := { s.plans with plans := tset s.plans.plans k { p with tiles := ts.take g.req.tmax } } }
        pinPlan s (k / 1024) (k % 1024) (ts.take g.req.tmax)

/-! ## RESIZE_UNIT_MOVE (R333, R335) -/

/-- Start the fill of a ZERO resize, one segment for each unit, at level 3. -/
def startZero (s : State) (r : Resize) : State :=
  let busy := s.dma.wait.any (fun x => x.who == .zero r.item) || s.dma.chan.any (fun c => c.2.who == .zero r.item)
  if busy then s
  else
    let segs := r.left.map (fun u => (⟨0, u * 0x200000, 0, 0, 0x200000, 0x200000, 0, 0⟩ : Seg))
    { s with dma := { s.dma with wait := s.dma.wait ++ [{ fn := r.fromFn, level := 3, segs := segs, who := .zero r.item }] } }
/-- Units that move together: a range of queues or windows as a whole, else one unit. -/
def unitGroup (r : Resize) (u : Nat) : List Nat := if r.kind = 2 ∨ r.kind = 9 then r.left else [u]
/-- The units' numbers after a move: VECTORS and CACHE_PART take effect at once. -/
def assignNow (s : State) (r : Resize) : State :=
  match getItem s r.item with
  | none => s
  | some it =>
    let b := rzBody it
    if r.kind = 3 then { s with fns := { s.fns with nvec := tset s.fns.nvec b.dst b.count } }
    else if r.kind = 4 then regSetFld s Reg.SC_FN_PART b.dst 2 0 b.first else s
/-- Units an FN_RESIZE reports as moved. -/
def rzMoved (s : State) (r : Resize) : Nat :=
  match getItem s r.item with
  | some it => if r.kind = 3 ∨ r.kind = 4 then (rzBody it).count else r.moved
  | none => r.moved
/-- May the move of `n` units of a resize take effect: an ORDERED item moves nothing ahead of earlier items (R300), and the move
that leaves no unit, its commit point, needs a place for the completion (R303)? -/
def rzMay (s : State) (r : Resize) (n : Nat) : Bool :=
  (getItem s r.item).all (fun it => orderedMay s r.item it && (decide (n < r.left.length) || hasPlace s it))
/-- RESIZE_UNIT_MOVE: unit `u` moves when its condition is met; the last move is the commit point. -/
def doResizeUnitMove (u : Nat) (s : State) : State :=
  match s.fns.resize with
  | none => s
  | some r =>
    if ! r.left.contains u then s
    else if r.kind = 1 ∧ ! (hosts s u).isEmpty then schedule (standingRemake s r.fromFn u)
    else if r.kind = 9 ∧ r.zero ∧ rzWaited s r then startZero s r
    else if ! unitMay s r u ∨ ! rzMay s r (unitGroup r u).length then s
    else
      let us := unitGroup r u
      let s := assignNow (unitsTo s r us) r
      let r := { r with left := r.left.filter (fun x => ! us.contains x), moved := r.moved + us.length }
      if r.left.isEmpty then
        let s := { s with fns := { s.fns with resize := none } }
        schedule (commitNow s r.item (rzMoved s r) (now s))
      else schedule { s with fns := { s.fns with resize := some r } }

/-! ## Reset of a function (R286) -/

/-- Abandon one item of a function that is reset: past its commit point it finishes releasing its effects, before it they are
discarded; it posts no completion. A STANDING item's reply-cache entry becomes DONE without a reply (DEDUCED, assumption 22). -/
def abandon (s : State) (id : Nat) : State :=
  match getItem s id with
  | none => s
  | some it =>
    let s := match it.phase with
      | .held => (match releaseItem s id it with
        | .ok s => s
        | .error _ => undoWork s id it)
      | .committed => s
      | _ => undoWork s id it
    let s := match it.msg with
      | some m => if it.phase = .held ∨ it.phase = .committed then s else cacheDone s m.msgKey none
      | none => s
    dropItem s id it
/-- ABORT items of other functions that named an abandoned item complete. -/
def abandonAll (s : State) (fn : Nat) : State :=
  let ids := (s.qm.items.filter (fun p => p.2.fn == fn)).map (·.1)
  let aborts := (s.qm.items.filter (fun p => p.2.fn == fn)).flatMap (fun p => p.2.abortBy)
  let s := ids.foldl abandon s
  aborts.foldl (fun s a => match getItem s a with
    | some x =>
      let s := setItem s a { x with phase := .ready, status := 0, r0 := x.body 32 2 % 4096 + x.body 34 2 * 65536 }
      (x.entry.map (entryResume s)).getD s
    | none => s) s
/-- Unload every plan of a function. -/
def unloadAll (s : State) (fn : Nat) : State :=
  ((s.plans.plans.filter (fun p => p.1 / 1024 == fn)).map (fun p => p.1 % 1024)).foldl (fun s pid =>
    dropPlan (unbindLayout s fn pid) fn pid) s
/-- Registers, selectors and staging of a virtual function take their reset values (R477). -/
def vfRegs (s : State) (fn : Nat) : State :=
  if fn = 0 then s
  else
    let r := queueRange s fn
    let gone := fun (k : Nat) =>
      let off := k % 2 ^ 26
      let i := k / 2 ^ 26
      (off == Reg.QM_FN_EVT && i == fn)
        || ([Reg.QM_SQ_BASE, Reg.QM_CQ_BASE, Reg.QM_Q_CFG, Reg.QM_Q_CTL].contains off && decide (r.1 ≤ i) && decide (i < r.1 + r.2))
    let s := (List.range r.2).foldl (fun s q => { s with qm := { s.qm with queues := terase s.qm.queues (r.1 + q) } }) s
    { s with
      regs := { s.regs with
        vals := s.regs.vals.filter (fun p => ! gone p.1), sels := s.regs.sels.filter (fun p => p.1 / 2 ^ 26 != fn),
        bad := s.regs.bad.filter (fun b => ! gone (b.2 * 2 ^ 26 + b.1)),
        halfW := terase s.regs.halfW fn, halfR := terase s.regs.halfR fn },
      ciph := { s.ciph with err := terase s.ciph.err fn } }
/-- Reset a function: queues DISABLED, items abandoned, keys, floors and logs discarded, plans unloaded. -/
def fnReset (s : State) (fn : Nat) : State :=
  let r := queueRange s fn
  let chan := s.dma.chan.map (fun c => if c.2.fn = fn then (c.1, { c.2 with stop := true }) else c)
  let s := { s with dma := { s.dma with chan := chan } }
  let s := abandonAll s fn
  let s := ((s.qm.queues.map (·.1)).filter (fun d => decide (r.1 ≤ d) && decide (d < r.1 + r.2))).foldl queueOff s
  let s := unloadAll s fn
  let s := { s with
    qm := { s.qm with
      ikeys := s.qm.ikeys.filter (fun k => k.fn != fn), floors := s.qm.floors.filter (fun p => p.1 / 65536 != fn),
      errLogs := terase s.qm.errLogs fn },
    msix := { table := s.msix.table.filter (fun c => c.1 / 0x8000 != fn), pend := s.msix.pend.filter (fun p => p.1 != fn) },
    ciph := { s.ciph with staging := terase s.ciph.staging fn } }
  schedule (vfRegs s fn)

/-! ## SR-IOV (R327) -/

/-- VF_ENABLE: the host sets VF Enable with NumVFs. Both are set together, while VF Enable is 0. -/
def doVfEnable (n : Nat) (s : State) : State :=
  if hostUp s ∧ ! s.fns.vfEnable ∧ ! s.fns.clearing ∧ n ≤ 255 then { s with fns := { s.fns with vfEnable := true, numVFs := n } } else s
/-- Return every resource of the virtual functions to FN 0: slots erased, CAM blocks cleared. -/
def vfReturn (s : State) : State :=
  let s := (s.fns.keyFn.filter (fun p => p.2 != 0)).foldl (fun s p => eraseSlot s p.1) s
  let s := (s.fns.camFn.filter (fun p => p.2 != 0)).foldl (fun s p => camErase s p.1) s
  let wins := s.fns.windows.foldl (fun ws p => if p.1 = 0 then ws else p.2.foldl (fun ws w => winJoin ws w.base (w.base + w.size)) ws)
    (winsOf s 0)
  { s with fns := { s.fns with
      tileFn := [], queueRange := [(0, (0, 4096))], camFn := [], keyFn := [], volFn := [], layoutFn := [], nvec := [],
      windows := [(0, wins)], clearing := false } }
/-- The return waits for the channels that serve a virtual function (R324). -/
def vfSettle (s : State) : State :=
  if s.fns.clearing && ! s.dma.chan.any (fun c => c.2.fn != 0) then schedule (vfReturn s) else s
/-- A resize that names a virtual function ends with it; its item fails as for an ABORT. -/
def vfResize (s : State) : State :=
  match s.fns.resize with
  | some r => if r.fromFn = 0 ∧ r.toFn = 0 then s else engineFail (dropResize s r.item) r.item St.fnNotEnabled 0 0
  | none => s
/-- Clear VF Enable: every virtual function is reset. -/
def vfClear (s : State) : State :=
  if ! s.fns.vfEnable then s
  else
    let s := (List.range s.fns.numVFs).foldl (fun s k => fnReset s (k + 1)) (vfResize s)
    vfSettle { s with fns := { s.fns with vfEnable := false, numVFs := 0, clearing := true } }
/-- VF_ENABLE_CLEAR. -/
def doVfEnableClear (s : State) : State := if hostUp s then vfClear s else s

end Sys2Proof.Machine
end

