-- ==== Sys2Proof/Machine/Modes.lean ====
section
/-! DEFINITION. Operating modes (spec/21_power_clocks_modes.md, R438 to R445, R452): the moves of Table 21-3, Hold, Lockdown's stop,
mode requests, Drain, Retain, and what a loss of power leaves. -/

namespace Sys2Proof.Machine
open Sys2Proof

/-! ## Moves (R440, R512) -/

/-- Is a mode one of Idle, Serve and Batch? -/
def workMode (m : Nat) : Bool := m == Mode.idle || m == Mode.serve || m == Mode.batch
/-- The queues that Hold froze return to ACTIVE as the device reaches Idle (R444), those frozen by their own failures stay. Where Hold
led to Maintain or Provision first, they return at the move from there to Idle (DEDUCED, assumption 25). -/
def unfreezeHold (s : State) : State :=
  let s := s.pwr.holdFroze.foldl (fun s d => modQ s d (fun q =>
    if q.st = .frozen ∧ q.errStatus = St.hold then { q with st := .active } else q)) s
  { s with pwr := { s.pwr with holdFroze := [] } }
/-- Move to a mode: TOP_MODE.PREV, the wake of every DRAM subchannel on leaving Idle (R280), the event of R512; in Idle the queues that Hold froze. -/
def setMode (s : State) (m : Nat) : State :=
  let old := modeOf s
  if old = m then s
  else
    let s := if old = Mode.idle then wakeDram s else s
    let s := { s with pwr := { s.pwr with mode := m, prev := old } }
    let s := if m = Mode.idle ∧ s.ing.toClear then { s with ing := { s.ing with cache := [], floors := [], toClear := false } } else s
    let s := if m = Mode.idle then unfreezeHold s else s
    if workMode old && workMode m then s else logEvent s Ev.modeChange 0xFF old m s.pwr.holdCause
/-- Power-gate a cluster: its tiles lose their state. -/
def gateCluster (s : State) (c : Nat) : State :=
  (clusterTiles c).foldl coreOff (setCluster { s with
    ras := { s.ras with bist := s.ras.bist.filter (fun p => p / 9 != c) } } c { getCluster s c with st := .gated, wakeEnd := 0, freeSince := none })
def gateAll (s : State) : State := (List.range 16).foldl gateCluster s

/-! ## Stopping items -/

/-- Stop an item that has not reached its commit point, discard its effects, and fail it with a status. A completion already
decided, and a duplicate, keep their own. -/
def stopItem (s : State) (id st : Nat) : State :=
  match getItem s id with
  | none => s
  | some it =>
    if it.phase = .held ∨ it.phase = .committed ∨ (it.phase = .ready ∧ it.status ≠ 0) ∨ it.isDup ∨ it.dupOf.isSome then s
    else if (getRun s id).isSome then failRun s id st noPlace
    else failItem (undoWork s id it) id st 0 0
/-- An item that never existed, whose fields stand in the error log entry of a queue frozen without an item: no rule gives its TAG,
OPCODE, SUBCODE and DETAIL (assumption 24). -/
def noItem (s : State) (d st : Nat) : Item × State :=
  let f := freeRes s
  let g := freeRes f.2
  let fn := queueHolder s d
  ({ fn := fn, queue := d, localQ := d - (queueRange s fn).1, tag := f.1 % 65536, opcode := f.1 / 65536 % 256,
     subcode := f.1 / 16777216 % 256, lc := 0, deadline := 0, ordered := false, noIrq := false, flowKey := none, ikey := none,
     desc := [], status := st, r0 := g.1 }, g.2)
/-- Freeze an ACTIVE queue without an item's failure. -/
def freezeBare (s : State) (d st : Nat) : State :=
  if (getQ s d).st = .active then
    let p := noItem s d st
    freezeQueue p.2 p.1
  else s
def activeQueues (s : State) : List Nat := (s.qm.queues.filter (fun p => p.2.st == .active)).map (·.1)

/-! ## Hold (R444) -/

/-- The pending request completes with MODE_CANCELLED, or the register form is dropped (R442). -/
def cancelReq (s : State) : State :=
  match s.pwr.req with
  | none => s
  | some q =>
    let s := { s with pwr := { s.pwr with req := none, drainIngest := false } }
    match q.item with
    | some id => failItem s id St.modeCancelled 0 0
    | none => s
/-- Every DMA channel stops at its next boundary, and nothing waits (R324). -/
def stopDma (s : State) : State :=
  { s with dma := { s.dma with wait := [], chan := s.dma.chan.map (fun c => (c.1, { c.2 with stop := true })) } }
/-- Hold is entered for a cause of TOP_MODE, from any mode but Off, Retain, Lockdown and Hold itself: items stop and fail with
HOLD, every ACTIVE queue freezes, clusters are power-gated. -/
def holdEntry (s : State) (cause : Nat) : State :=
  let m := modeOf s
  if m = Mode.off ∨ m = Mode.retain ∨ m = Mode.lockdown ∨ m = Mode.hold then s
  else
    let act := activeQueues s
    let frm := if m = Mode.recover then s.pwr.recoverFrom else m
    let s := cancelReq s
    let s := setMode { s with
      pwr := { s.pwr with holdCause := cause, holdFrom := frm, reqWait := none, maintAuto := false }, ras := { s.ras with rcv := none } } Mode.hold
    let s := stopDma ((s.qm.items.map (·.1)).foldl (fun s id => stopItem s id St.hold) s)
    let s := act.foldl (fun s d => freezeBare s d St.hold) s
    gateAll { s with pwr := { s.pwr with holdFroze := act } }
/-- Is a register instance owned by a function (R482)? -/
def parOwned (off : Nat) : Bool := [Reg.QM_SQ_BASE, Reg.QM_CQ_BASE, Reg.QM_Q_CTL, Reg.QM_Q_CFG, Reg.QM_FN_EVT].contains off
/-- PWR_TRIP.TEMP in units of 0.25 °C. -/
def tripTemp (s : State) : Int := 4 * (rfld s Reg.PWR_TRIP 0 7 0 : Nat)
/-- Does the cause of Hold remain: a mismatching register not rewritten (whatever Hold was entered for, R482), a lost DRAM device, or,
after a thermal trip, a sensor above the threshold less 10 °C? -/
def causePresent (s : State) : Bool :=
  s.regs.bad.any (fun b => ! parOwned b.1) || s.pwr.dramLost
    || ((s.pwr.holdCause == 3 || s.pwr.therm) && s.pwr.temps.any (fun t => decide (tripTemp s - 40 < t.2)))
/-- Is a Ledger operation unfinished? -/
def ledgerOp (s : State) : Bool :=
  s.led.op.isSome || ! s.led.opQ.isEmpty || (match s.led.pool with
    | some q => q.opKind != 0
    | none => false)

/-! ## Requests (R441, R444, R445) -/

/-- Codes of TOP_MODE_REQ.ERR. -/
abbrev ReqErr.busy : Nat := 1
abbrev ReqErr.invalid : Nat := 2
abbrev ReqErr.cause : Nat := 3
/-- RESUME: what it leads to, or why it is refused. -/
def resume (s : State) : Except Nat State :=
  let m := modeOf s
  if s.pwr.req.isSome then .error ReqErr.busy
  else if m = Mode.drain then .ok (schedule (setMode { s with pwr := { s.pwr with drainIngest := false } } Mode.idle))
  else if m = Mode.hold then
    if causePresent s then .error ReqErr.cause
    else
      let s := { s with pwr := { s.pwr with holdCause := 0 } }
      if s.pwr.holdFrom = Mode.provision then .ok (setMode s Mode.provision)
      else if ledgerOp s then .ok (setMode s Mode.maintain)
      else .ok (schedule (setMode s Mode.idle))
  else if m = Mode.maintain then
    if s.dmc.subs.any (fun p => p.2.repairs.any (·.hard)) || ledgerOp s then .error ReqErr.busy
    else .ok (schedule (setMode { s with pwr := { s.pwr with maintAuto := false } } Mode.idle))
  else .error ReqErr.invalid
/-- A request that is judged now: RESUME (target 1), or entry into Drain for a target of Table 21-4. -/
def judgeReq (s : State) (q : ModeReq) : Except Nat State :=
  if q.target = 1 then resume s
  else if q.target < 2 ∨ q.target > 5 then .error ReqErr.invalid
  else if s.pwr.req.isSome then .error ReqErr.busy
  else if workMode (modeOf s) then
    .ok (setMode { s with pwr := { s.pwr with req := some { q with since := now s }, drainIngest := q.target = 2 && ! q.ingestStop } } Mode.drain)
  else .error ReqErr.invalid
/-- A request as it arrives: during Recover it waits for the end of Recover. -/
def modeRequest (s : State) (q : ModeReq) : Except Nat State :=
  if modeOf s = Mode.recover then
    (if s.pwr.req.isSome ∨ s.pwr.reqWait.isSome then .error ReqErr.busy else .ok { s with pwr := { s.pwr with reqWait := some q } })
  else judgeReq s q
/-- The outcome of a request in the register form: a refusal is written in ERR. -/
def regReq (s : State) : Except Nat State → State
  | .ok t => { t with pwr := { t.pwr with reqErr := 0 } }
  | .error e => { s with pwr := { s.pwr with reqErr := e } }
/-- The outcome of a request in the item form. -/
def itemReq (s : State) (id : Nat) : Except Nat State → State
  | .ok t => toEngine t id
  | .error e => failItem s id (if e = ReqErr.busy then St.modeBusy else St.modeInvalid) 0 0
/-- A write of TOP_MODE_REQ takes effect. -/
def modeReqWrite (s : State) (v : Nat) : State :=
  regReq s (modeRequest s { target := fld v 3 0, ingestStop := bitOf v 4, drainMs := 0, wakeAt := 0, item := none, since := 0 })
/-- May a path write TOP_MODE_REQ: FN 0's BAR0, the SMBus bridge, Frame, Sill? -/
def reqPath (p : Path) (s : State) : Bool :=
  match p with
  | .host f => f == 0 && hostUp s
  | .jtag => ! s.pwr.por && s.sec.debugOpen
  | _ => ! s.pwr.por
/-- A write of TOP_MODE_REQ with a target, taken at its effect (R485, assumption 25). -/
def modeReqRow (p : Path) (target : Nat) (stop : Bool) (s : State) : State :=
  if reqPath p s then modeReqWrite (regPut s Reg.TOP_MODE_REQ 0 (target + 16 * b2n stop)) (target + 16 * b2n stop)
  else if p = .jtag ∧ ! s.pwr.por then deny s 0xA2 0 (0xFE00000000 + Reg.TOP_MODE_REQ) 1
  else s
/-- MODE_REQ_RESUME (R444, R445). -/
def doModeReqResume (p : Path) (s : State) : State := modeReqRow p 1 false s
/-- MODE_REQ_DRAIN (R442). -/
def doModeReqDrain (p : Path) (stop : Bool) (s : State) : State := modeReqRow p 2 stop s
/-- MODE_REQ_RETAIN (R443). -/
def doModeReqRetain (p : Path) (s : State) : State := modeReqRow p 3 false s
/-- MODE_REQ_MAINTAIN (R445). -/
def doModeReqMaintain (p : Path) (s : State) : State := modeReqRow p 4 false s
/-- MODE_REQ_OFF_READY (R442). -/
def doModeReqOffReady (p : Path) (s : State) : State := modeReqRow p 5 false s
/-- MODE_REQUEST (R441): the item form. -/
def doModeRequest (id : Nat) (s : State) : State :=
  match itemAt s id 0x60 8 with
  | none => s
  | some it =>
    let t := it.body 32 1
    if t < 2 ∨ t > 5 then failItem s id St.invalidField 0 0
    else itemReq s id (modeRequest s { target := t, ingestStop := bitOf (it.body 33 1) 0, drainMs := it.body 36 4,
                                       wakeAt := if t = 3 then it.body 40 8 else 0, item := some id, since := 0 })
/-- The end of Recover: a request that waited is judged. -/
def judgeWaiting (s : State) : State :=
  match s.pwr.reqWait with
  | none => s
  | some q =>
    let s := { s with pwr := { s.pwr with reqWait := none } }
    match q.item with
    | none => regReq s (judgeReq s q)
    | some id => (match judgeReq s q with
      | .ok t => t
      | .error e => failItem s id (if e = ReqErr.busy then St.modeBusy else St.modeInvalid) 0 0)

/-! ## What a loss of power leaves (R434, R443, R452, R496) -/

/-- Drives as a loss of the device's power leaves them: their contents. -/
def drivesLeft (s : State) : Tab Drive := s.led.drives.map (fun d => (d.1, { d.2 with st := 0 }))
/-- The boot flash and the fuses. -/
def secLeft (s : State) : Sec := { flash := s.sec.flash, erased := s.sec.erased, revoked := s.sec.revoked, svnFused := s.sec.svnFused }
/-- Off: only what R452 names remains, and what stands outside the device. The repair list of the boot flash is kept as the rows and
pins it lists (R278). -/
def powerOff (s : State) : State :=
  { pending := s.pending, freeCtr := s.freeCtr, code512 := s.code512, host := s.host, out := s.out,
    pwr := { por := true, perst := s.pwr.perst, smbStrap := s.pwr.smbStrap },
    sec := secLeft s, led := { drives := drivesLeft s },
    dmc := { subs := s.dmc.subs.map (fun p => (p.1, { rows := p.2.rows.filter (·.2.1) })),
             repairList := s.dmc.repairList, pinList := s.dmc.pinList } }
/-- Retain: the AON domain and DRAM in self-refresh remain besides. -/
def retained (s : State) : State :=
  let u := sleepDram (flushWrites s)
  let t := powerOff u
  { t with
    pwr := { t.pwr with
      por := false, mode := Mode.retain, prev := s.pwr.prev, smbAddr := s.pwr.smbAddr, devtime := s.pwr.devtime, phase := s.pwr.phase,
      wakeAt := s.pwr.wakeAt, wakeCause := s.pwr.wakeCause, wakeEn := s.pwr.wakeEn, temps := s.pwr.temps, ledgerL := s.pwr.ledgerL,
      retention := s.pwr.retention, evQueue := s.pwr.evQueue, evLost := s.pwr.evLost, evLog := s.pwr.evLog },
    regs := { aon := s.regs.aon, aonLog := s.regs.aonLog, posted := s.regs.posted },
    dmc := { u.dmc with pend := [], delays := [], bins := [] },
    dram := u.dram.filter (fun c => decide (c.1 < 0x8000000000)), poison := u.poison.filter (fun l => decide (l < 0x100000000)) }
/-- RETAIN_ENTRY (R443): the cache is cleaned, DRAM enters self-refresh, the other supplies go off. -/
def retainEntry (s : State) (wakeAt : Nat) : State :=
  let s := setMode s Mode.retain
  retained { s with pwr := { s.pwr with wakeAt := wakeAt } }

/-! ## Drain (R442, R445) -/

/-- Host items in flight besides the request's own and its duplicates. -/
def drainHost (s : State) (own : Option Nat) : Bool :=
  s.qm.items.any (fun p => p.2.msg.isNone && some p.1 != own && ! (own.isSome && p.2.dupOf == own))
/-- The four conditions of R442. -/
def drained (s : State) (q : ModeReq) : Bool :=
  ! drainHost s q.item && (s.pwr.drainIngest || ! s.qm.items.any (fun p => p.2.msg.isSome)) && s.led.cmds.isEmpty && s.led.cus.isEmpty
    && s.dma.chan.isEmpty && s.dma.wait.isEmpty
/-- Complete the request: its item posts the mode entered, or about to be entered, and the time. -/
def reqDone (s : State) (q : ModeReq) (m : Nat) : State :=
  let s := { s with pwr := { s.pwr with req := none } }
  match q.item with
  | some id => commitNow s id m (now s)
  | none => s
/-- Maintain is refused: back to Idle. -/
def maintainRefused (s : State) (q : ModeReq) : State :=
  let s := setMode { s with pwr := { s.pwr with req := none, drainIngest := false } } Mode.idle
  match q.item with
  | some id => failItem s id St.modeCancelled 4 (now s)
  | none => schedule { s with pwr := { s.pwr with reqErr := ReqErr.cause } }
/-- May a request take effect: the item that made it can reach its commit point (R300, R303)? -/
def reqMay (s : State) (q : ModeReq) : Bool :=
  match q.item with
  | none => true
  | some id => (getItem s id).all (gateOpen s id)
/-- DRAIN_COMPLETE: the conditions hold; a drain toward Retain or OFF_READY writes a map snapshot first. -/
def doDrainComplete (s : State) : State :=
  match s.pwr.req with
  | none => s
  | some q =>
    if modeOf s ≠ Mode.drain ∨ ! drained s q ∨ ! reqMay s q then s
    else if (q.target = 3 ∨ q.target = 5) ∧ s.led.pool.isSome ∧ ! q.snapBegun then
      (if s.led.snap.isSome then s else
        beginSnap { s with pwr := { s.pwr with req := some { q with snapBegun := true } } })
    else if (q.target = 3 ∨ q.target = 5) ∧ s.led.snap.isSome then s
    else if q.target = 4 then
      if s.pwr.temps.any (fun t => decide (tripTemp s - 40 ≤ t.2)) then maintainRefused s q
      else reqDone (setMode s Mode.maintain) q Mode.maintain
    else if q.target = 3 then retainEntry (reqDone s q Mode.retain) q.wakeAt
    else reqDone s q Mode.drain

/-! ## The mode controller's own moves (R439) -/

/-- Does any engine hold work of an item, or is any scheduler entry not FREE? -/
def busyNow (s : State) : Bool := ! s.sched.entries.isEmpty || ! s.qm.items.isEmpty
/-- Is a batch grant held? -/
def batchHeld (s : State) : Bool := s.plans.runs.any (fun r => ! r.2.standing && ! r.2.granted.isEmpty)
/-- MODE_AUTO_MOVE: among Idle, Serve and Batch; and from a Maintain that Provision entered, at the end of its operation. -/
def doModeAutoMove (s : State) : State :=
  let m := modeOf s
  if workMode m then
    (if batchHeld s then setMode s Mode.batch else if busyNow s then setMode s Mode.serve else setMode s Mode.idle)
  else if m = Mode.maintain ∧ s.pwr.maintAuto ∧ ! ledgerOp s then
    schedule (setMode { s with pwr := { s.pwr with maintAuto := false } } Mode.idle)
  else s

end Sys2Proof.Machine
end

