-- ==== Sys2Proof/Machine/Power.lean ====
section
/-! DEFINITION. Device time, the always-on domain's registers, temperature and power (spec/21_power_clocks_modes.md, R434 to R450;
spec/23_register_conventions.md, R484, R485). -/

namespace Sys2Proof.Machine
open Sys2Proof

/-! ## AON writes (R435, R485) -/

/-- AON registers with a field software writes, and the paths that may write it: TOP_MODE_REQ from FN 0, SMBus, Frame, Sill and debug;
AON_WAKE and DMC_EPOCH from FN 0, Frame, Sill and debug (R282); AON_DEVTIME from Frame and Sill alone (R435). -/
def aonWritable (p : Path) (off : Nat) : Bool :=
  match p with
  | .host f => f == 0 && (off == Reg.TOP_MODE_REQ || off == Reg.AON_WAKE || off == Reg.DMC_EPOCH)
  | .smbus => off == Reg.TOP_MODE_REQ
  | .jtag => off == Reg.TOP_MODE_REQ || off == Reg.AON_WAKE || off == Reg.DMC_EPOCH
  | _ => off == Reg.TOP_MODE_REQ || off == Reg.AON_WAKE || off == Reg.AON_DEVTIME || off == Reg.DMC_EPOCH
/-- Post a write. The first 16 of the list stand in the posting buffer; those after them wait at the register bridge for the next
edge, which empties the buffer (R485). -/
def aonPost (s : State) (p : Path) (off v : Nat) : State :=
  if aonWritable p off then { s with regs := { s.regs with posted := s.regs.posted ++ [⟨p, off, v⟩] } } else s
/-- The writes in the posting buffer, which the next edge takes, and those that wait at the bridge. -/
def inBuffer (s : State) : List Posted := s.regs.posted.take 16
def atBridge (s : State) : List Posted := s.regs.posted.drop 16
/-- Of several writes to one register within a period, the last. -/
def lastWrites : List Posted → List Posted
  | [] => []
  | w :: ws => if ws.any (fun x => x.off == w.off) then lastWrites ws else w :: lastWrites ws
/-- AON_POSTED_WRITE: a write to an AON field is posted. -/
def doAonPostedWrite (p : Path) (off v : Nat) (s : State) : State := if reqPath p s then aonPost s p off v else s
/-- A write of AON_DEVTIME takes effect at an edge: in Provision, unless its value is below the DEVTIME of that edge. -/
def devtimeSet (s : State) (v : Nat) : State :=
  if modeOf s = Mode.provision ∧ s.pwr.devtime ≤ v then { s with pwr := { s.pwr with devtime := v % 2 ^ 64 } } else s
/-- A posted write takes effect. -/
def aonApply (s : State) (w : Posted) : State :=
  if w.off = Reg.TOP_MODE_REQ then modeReqWrite (regPut s w.off 0 (w.val % 32)) w.val
  else if w.off = Reg.AON_WAKE then { s with pwr := { s.pwr with wakeEn := w.val % 16 } }
  else if w.off = Reg.AON_DEVTIME then devtimeSet s w.val
  else if w.off = Reg.DMC_EPOCH then { s with dmc := { s.dmc with epoch := w.val % 16 } }
  else s
/-- DEVTIME_WRITE (R435): the posted write of AON_DEVTIME takes effect; a lower value is discarded. -/
def doDevtimeWrite (s : State) : State :=
  match (lastWrites (inBuffer s)).find? (fun w => w.off == Reg.AON_DEVTIME) with
  | none => s
  | some w => devtimeSet { s with regs := { s.regs with
      posted := (inBuffer s).filter (fun x => x.off != Reg.AON_DEVTIME) ++ atBridge s } } w.val
/-- Values of the AON registers now: TOP_MODE, TOP_MODE_REQ, AON_WAKE, AON_DEVTIME, DMC_EPOCH, TEL_EVLOG_STAT. -/
def aonValue (s : State) (off : Nat) : Nat :=
  if off = Reg.TOP_MODE then s.pwr.holdCause * 4096 + (s.pwr.req.map (·.target)).getD 0 * 256 + s.pwr.prev * 16 + s.pwr.mode
  else if off = Reg.TOP_MODE_REQ then s.pwr.reqErr * 32 + rfld s Reg.TOP_MODE_REQ 0 4 0
  else if off = Reg.AON_WAKE then s.pwr.wakeCause * 256 + s.pwr.wakeEn
  else if off = Reg.AON_DEVTIME then s.pwr.devtime
  else if off = Reg.DMC_EPOCH then s.dmc.epoch
  else if off = Reg.TEL_EVLOG_STAT then s.pwr.evLog.nextSeq * 2 ^ 32 + s.pwr.evLog.overwritten
  else 0
def aonRegs : List Nat := [Reg.TOP_MODE, Reg.TOP_MODE_REQ, Reg.AON_WAKE, Reg.AON_DEVTIME, Reg.DMC_EPOCH, Reg.TEL_EVLOG_STAT]
/-- The copies that register reads return are taken (R484). -/
def aonCopy (s : State) : State :=
  { s with regs := { s.regs with aon := aonRegs.foldl (fun t o => tset t o (aonValue s o)) s.regs.aon, aonLog := s.pwr.evLog } }
/-- DEVTIME's step: 833, 834, 833 ns in repeating order. -/
def aclkStep (phase : Nat) : Nat := if phase % 3 = 1 then 834 else 833
/-- ACLK_EDGE (R435, R436, R484, R485): DEVTIME advances, the timebase takes its value, posted writes take effect, waiting events are
written, and the copies are refreshed. -/
def doAclkEdge (s : State) : State :=
  if s.pwr.por then s
  else
    let s := { s with pwr := { s.pwr with
      devtime := (s.pwr.devtime + aclkStep s.pwr.phase) % 2 ^ 64, phase := (s.pwr.phase + 1) % 3, fclk := 0,
      timebaseOn := s.pwr.mode != Mode.retain } }
    let ws := inBuffer s
    let s := { s with regs := { s.regs with posted := atBridge s } }
    aonCopy (drainEvents ((lastWrites ws).foldl aonApply s))
/-- One FCLK cycle between edges: the timebase resolves 1 ns and never passes the next DEVTIME (R436). -/
def fclkTick (s : State) : State :=
  if ! s.pwr.por ∧ s.pwr.timebaseOn ∧ 5 * (s.pwr.fclk + 1) / 8 ≤ aclkStep s.pwr.phase then
    { s with pwr := { s.pwr with fclk := s.pwr.fclk + 1 } }
  else s

/-! ## Temperature (R412, R446, R447, R450) -/

/-- Thresholds of the cluster steps (Table 21-5) in units of 0.25 °C. -/
def stepAt (k : Nat) : Int := if k = 1 then 400 else if k = 2 then 440 else if k = 3 then 472 else -10000
/-- Thresholds of the CAM's search steps (Table 19-2). -/
def camStepAt (k : Nat) : Int := if k = 1 then 380 else if k = 2 then 420 else if k = 3 then 460 else -10000
/-- The next step of a loop with thresholds `th`: up to the highest step reached, down one step 3 °C below the step's threshold. -/
def nextStep (th : Nat → Int) (cur : Nat) (t : Int) : Nat :=
  let up := if th 3 ≤ t then 3 else if th 2 ≤ t then 2 else if th 1 ≤ t then 1 else 0
  if cur < up then up else if cur ≠ 0 ∧ t ≤ th cur - 12 then cur - 1 else cur
/-- Does a cluster hold a thread that replays in Recover? -/
def replayingIn (s : State) (c : Nat) : Bool :=
  s.ras.rcv.any (fun r => s.sched.entries.any (fun p => r.replaying.contains p.2.arrseq && (p.2.tile.map (· / 8)) == some c))
/-- Is a cluster protected (R447)? -/
def clProtected (s : State) (c : Nat) : Bool :=
  (bitOf (rfld s Reg.SCHED_WARM 0 3 0) 0 && (warmFor s 0 (List.range 16)).contains c) || holdsStanding s c || replayingIn s c
/-- TCLK ceiling of a thermal step, in MHz. -/
def stepMhz (k : Nat) (prot : Bool) : Nat :=
  if k = 0 then 2000 else if k = 1 ∨ prot then 1600 else if k = 2 then 1200 else 800
/-- TCLK of a cluster in MHz: the thermal ceiling, and for an unprotected cluster the ceiling of the power limit. -/
def clMhz (s : State) (c : Nat) : Nat :=
  let cl := getCluster s c
  let p := clProtected s c
  if cl.st = .active then (if p then stepMhz cl.step p else min (stepMhz cl.step p) cl.limitMhz) else 0
/-- Sensors at or above the trip threshold. -/
def hotSensors (s : State) (t : Tab Int) : List Nat := (t.filter (fun x => decide (tripTemp s ≤ x.2))).map (·.1)
/-- THERMAL_TRIP (R450). -/
def thermalTrip (s : State) (k : Nat) (t : Int) : State :=
  let s := logEvent s Ev.thermalTrip 0xFF k (unsgn 64 t) 0
  gateAll (holdEntry { s with pwr := { s.pwr with therm := true } } 3)
/-- THERMAL_SAMPLE: every sensor's reading in units of 0.25 °C; cluster and CAM steps; the
memory stops' delays (R275); a trip on two consecutive samples. -/
def doThermalSample (temps : List Int) (s : State) : State :=
  if s.pwr.por ∨ s.pwr.mode = Mode.retain ∨ temps.length ≠ 64 then s
  else
    let t : Tab Int := temps.zipIdx.map (fun p => (p.2, p.1))
    let hot := hotSensors s t
    let twice := hot.filter s.pwr.hot.contains
    let s := { s with pwr := { s.pwr with temps := t, hot := hot } }
    let s := (List.range 16).foldl (fun s c =>
      let cl := getCluster s c
      setCluster s c { cl with step := nextStep stepAt cl.step (tgetD t c 0) }) s
    let s := regSetFld s Reg.CAM_STAT 0 19 18 (nextStep camStepAt (rfld s Reg.CAM_STAT 0 19 18) (tgetD t 48 0))
    let s := if s.pwr.startStep ≥ 5 ∧ s.pwr.mode ≠ Mode.lockdown then (List.range 16).foldl (fun s m => retuneStop s m (tgetD t (16 + m) 0)) s else s
    let s := if s.pwr.therm && t.all (fun x => decide (x.2 < tripTemp s - 40)) then { s with pwr := { s.pwr with therm := false } } else s
    match twice with
    | [] => s
    | k :: _ => if s.pwr.therm then s else thermalTrip s k (tgetD t k 0)

/-! ## Power (R448, R449) -/

/-- Does a cluster hold only batch grants: a tile of a run's grant, and no STANDING reservation? -/
def batchOnly (s : State) (c : Nat) : Bool :=
  s.plans.runs.any (fun r => ! r.2.standing && r.2.granted.any (fun t => t / 8 == c)) && ! holdsStanding s c
/-- Clusters the limit lowers: the unprotected active ones, those of batch grants first in Batch (R449). -/
def limitable (s : State) : List Nat := (List.range 16).filter (fun c => (getCluster s c).st == .active && ! clProtected s c)
/-- Present ceiling of a cluster under the limit. -/
def ceil_ (s : State) (c : Nat) : Nat := min (getCluster s c).limitMhz (stepMhz (getCluster s c).step false)
def lowerSet (s : State) : List Nat :=
  let l := limitable s
  let b := l.filter (batchOnly s)
  if modeOf s = Mode.batch ∧ b.any (fun c => decide (400 < ceil_ s c)) then b else l
def raiseSet (s : State) : List Nat :=
  let l := limitable s
  let o := l.filter (fun c => ! batchOnly s c)
  if modeOf s = Mode.batch ∧ o.any (fun c => decide (ceil_ s c < stepMhz (getCluster s c).step false)) then o else l
/-- POWER_ESTIMATE: the estimate in mW, and each cluster's; the ceilings move by 0.2 GHz. -/
def doPowerEstimate (total : Nat) (perCl : List Nat) (s : State) : State :=
  if s.pwr.por ∨ s.pwr.mode = Mode.retain then s
  else
    let lim := 1000 * rfld s Reg.PWR_LIMIT 0 8 0
    let s := { s with pwr := { s.pwr with mwTotal := total % 2 ^ 32, clusterMw := (perCl.take 16).zipIdx.map (fun p => (p.2, p.1 % 2 ^ 20)) } }
    let s := if lim < total then
        (lowerSet s).foldl (fun s c => setCluster s c { getCluster s c with limitMhz := max 400 (ceil_ s c - 200) }) s
      else if 100 * total ≤ 95 * lim then
        (raiseSet s).foldl (fun s c => setCluster s c { getCluster s c with limitMhz := min 2000 (ceil_ s c + 200) }) s
      else s
    { s with pwr := { s.pwr with
        limiting := (limitable s).any (fun c => decide ((getCluster s c).limitMhz < stepMhz (getCluster s c).step false)) } }

end Sys2Proof.Machine
end

