-- ==== Sys2Proof/Machine/Security.lean ====
section
/-! DEFINITION. Sill, Frame images, the boot chain, Lockdown and the requests to Sill (spec/20_sill_frame_security.md, R418 to
R433). -/

namespace Sys2Proof.Machine
open Sys2Proof

/-! ## The boot flash (R419, R421, R429) -/

def slotAddr (k : Nat) : Nat := if k = 0 then 0x200000 else 0x2000000
abbrev slotSize30 : Nat := 0x1E00000
/-- One byte of the boot flash: as written, else FFH in an erased slot, else as manufacture left it. An erased byte of the NOR device
reads FFH (PRESUMED, assumption 26). -/
def flashAt (s : State) (a : Nat) : Byte :=
  match tget s.sec.flash a with
  | some b => b
  | none =>
    if s.sec.erased.any (fun k => decide (slotAddr k ≤ a) && decide (a < slotAddr k + slotSize30)) then 0xFF#8 else Config.flashByte a
def flashRead (s : State) (a n : Nat) : List Byte := (List.range n).map (fun i => flashAt s (a + i))
def flashWrite (s : State) (a : Nat) (bs : List Byte) : State :=
  { s with sec := { s.sec with flash := (bs.zipIdx).foldl (fun t p => tset t (a + p.2) p.1) s.sec.flash } }
/-- Erase a Frame slot. -/
def flashErase (s : State) (k : Nat) : State :=
  { s with sec := { s.sec with
      flash := s.sec.flash.filter (fun c => ! (decide (slotAddr k ≤ c.1) && decide (c.1 < slotAddr k + slotSize30))),
      erased := if s.sec.erased.contains k then s.sec.erased else s.sec.erased ++ [k] } }

/-- A boot pointer record (R429). -/
structure BootPtr where
  gen : Nat
  active : Nat
  try_ : Nat
  tried : Nat
  /-- the record it was read from: 0 A, 1 B -/
  rec_ : Nat
deriving DecidableEq, Repr
def readPtr (s : State) (r : Nat) : Option BootPtr :=
  let bs := flashRead s (0x1000 * r) 80
  if leAt bs 0 4 = 0x54504F42 ∧ sha384 (bs.take 32) = sub bs 32 48 then some ⟨leAt bs 4 8, leAt bs 12 1, leAt bs 13 1, leAt bs 14 1, r⟩
  else none
/-- The valid record with the higher GEN. -/
def bootPtr (s : State) : Option BootPtr :=
  match readPtr s 0, readPtr s 1 with
  | some a, some b => if a.gen < b.gen then some b else some a
  | some a, none => some a
  | none, b => b
/-- Write a change as GEN + 1 into the other record. -/
def writePtr (s : State) (p : BootPtr) : State :=
  let head := natLE 4 0x54504F42 ++ natLE 8 (p.gen + 1) ++ natLE 1 p.active ++ natLE 1 p.try_ ++ natLE 1 p.tried ++ natLE 17 0
  let s := flashWrite s (0x1000 * (1 - p.rec_)) (head ++ sha384 head)
  { s with sec := { s.sec with tryPend := p.try_ != 0xFF } }

/-! ## Verifying a slot (R421 to R423) -/

/-- A verified image. -/
structure ImageInfo where
  slot : Nat
  keyIdx : Nat
  svn : Nat
  meas : List Byte
deriving DecidableEq, Repr
/-- The outcome of steps 1 to 5; the last two are the failures: an SVN below the fused one, a compare that yields a pair other than
equal or not-equal. -/
inductive VerRes where
  | ok (i : ImageInfo)
  | bad
  | rollback
  | fault
deriving DecidableEq, Repr
def slotHead (s : State) (k : Nat) : List Byte := flashRead s (slotAddr k) 512
def slotBody (s : State) (k : Nat) : List Byte := flashRead s (slotAddr k + 512) (leAt (slotHead s k) 12 4)
def headOk (s : State) (h : List Byte) : Bool :=
  leAt h 0 4 == 0x4D524146 && leAt h 4 2 == 1 && decide (1 ≤ leAt h 12 4) && decide (leAt h 12 4 ≤ 31456768)
    && decide (leAt h 6 1 ≤ 2) && ! bitOf s.sec.revoked (leAt h 6 1)
/-- Steps 1 to 5 on a slot; `fk` and `fs` say that the compare of step 3 or of step 5 yields a faulty pair. -/
def verifySlot (s : State) (k : Nat) (fk fs : Bool) : VerRes :=
  let h := slotHead s k
  let idx := leAt h 6 1
  let svn := leAt h 8 4
  if ! headOk s h then .bad
  else if svn < s.sec.svnFused then .rollback
  else if fk then .fault
  else if sha384 (sub h 24 96) ≠ (List.range 48).map (Config.fuseDigest idx) then .bad
  else
    let meas := sha384 (h.take 416 ++ slotBody s k)
    if fs then .fault
    else if ecdsaOk (beAt h 24 48) (beAt h 72 48) (beNat meas) (beAt h 416 48) (beAt h 464 48) then .ok ⟨k, idx, svn, meas⟩
    else .bad

/-! ## Lockdown (R432) -/

/-- What every engine holds is dropped: no engine runs in Lockdown. -/
def enginesOff (s : State) : State :=
  { s with
    qm := {}, msix := {}, sched := {}, dma := {}, plans := {}, ing := {}, cache := {}, bry := [], ras := s.ras,
    led := { drives := s.led.drives.map (fun d => (d.1, { d.2 with st := 0 })) },
    cores := s.cores.filterMap (fun c => if c.1 = sillCore then some c else if c.1 < 144 then none else some (c.1, { c.2 with run := .off })),
    fns := { s.fns with resize := none } }
/-- LOCKDOWN_ENTRY: keys and the wrap key are zeroised, cores and ports stop, the cause is recorded, logged and printed. Requests that
came over the Bridy Link go with its ports. -/
def lockdown (s : State) (cause : Nat) : State :=
  if modeOf s = Mode.off ∨ modeOf s = Mode.lockdown then s
  else
    let s := { s with ciph := { wrapGone := true } }
    let s := enginesOff s
    let s := regSetFld (regSetFld s Reg.ING_PORT0_CTL 0 31 31 0) Reg.ING_PORT1_CTL 0 31 31 0
    let s := regSetFld (regSetFld s Reg.BRY_PORT0_CTL 0 31 31 0) Reg.BRY_PORT1_CTL 0 31 31 0
    let s := { s with sec := { s.sec with cause := cause, reqs := s.sec.reqs.filter (fun r => decide (r.src ≤ 1)) },
                      pwr := { s.pwr with drivesOut := false, req := none, reqWait := none, drainIngest := false, linkRdy := true, clusters := [] } }
    let s := logEvent s Ev.lockdown 0xFF cause 0 0
    { setMode s Mode.lockdown with out := { s.out with uart := s.out.uart ++ Config.uartLine cause } }
/-- A faulty pair in a compare that Sill makes: logged, and Lockdown (R395, R396, R432). -/
def sillFault (s : State) : State :=
  let p := freeRes s
  let s := { p.2 with ciph := { p.2.ciph with cmpFaults := satAdd 16 p.2.ciph.cmpFaults 1 } }
  lockdown (logEvent s Ev.cmpFault 0xFF (p.1 % 65536) 1 0) 3

/-! ## The boot chain (R423, R426, R429, R431) -/

/-- Bytes that the image's body gives a Frame core's memory. -/
def frameMem (body : List Byte) (k : Nat) : Mem :=
  mwrite (mwrite [] 0 ((List.range 0x100000).map (Config.frameByte body k))) 0x200000
    ((List.range 0x80000).map (fun a => Config.frameByte body k (0x200000 + a)))
/-- Load the Frame cores over Sill's private path and release them at word 0. -/
def loadFrame (s : State) (slot : Nat) : State :=
  let body := slotBody s slot
  (List.range 4).foldl (fun s k => setCore s (frameCore k) { coreInit (frameCore k) with run := .run, mem := frameMem body k }) s
/-- The blow of R431 is completed in a start-up from ACTIVE: SVN bits up to the SVN of the image. A fused SVN below that of ACTIVE can
only stand where a blow was interrupted (DEDUCED, assumption 26). -/
def finishBlow (s : State) (i : ImageInfo) : State :=
  if (bootPtr s).any (fun p => p.active % 2 == i.slot) then
    { s with sec := { s.sec with svnFused := max s.sec.svnFused (min 64 i.svn) } }
  else s
/-- Step 7: the Frame cores run, the alias key is derived, SVN bits of an interrupted blow are blown, Provision. -/
def bootDone (s : State) (i : ImageInfo) : State :=
  let s := finishBlow (loadFrame s i.slot) i
  let s := { s with
    sec := { s.sec with verified := true, slot := i.slot, keyIdx := i.keyIdx, svnRun := i.svn, meas := i.meas, alias_ := s.freeCtr },
    freeCtr := s.freeCtr + 1 }
  let s := setMode s Mode.provision
  { s with pwr := { s.pwr with linkRdy := true, startStep := 3 } }
/-- Step 6 and step 7 once a slot has passed. -/
def bootFactory (s : State) (i : ImageInfo) (f6 : Bool) : State :=
  if f6 then sillFault s else if Config.factoryOk then bootDone s i else lockdown s 2
/-- The slots in the order R429 selects, the second tried once. Bits of `faults`: 0 and 1 the compares of steps 3 and 5 on the first
slot, 2 and 3 on the second, 4 that of step 6. -/
def bootSlots (s : State) (a b faults : Nat) : State :=
  match verifySlot s a (bitOf faults 0) (bitOf faults 1) with
  | .ok i => bootFactory s i (bitOf faults 4)
  | .fault => sillFault s
  | _ =>
    match verifySlot s b (bitOf faults 2) (bitOf faults 3) with
    | .ok i => bootFactory s i (bitOf faults 4)
    | .fault => sillFault s
    | _ => lockdown s 1
/-- BOOT_VERIFY: Sill runs from its mask ROM, takes the boot pointer record, and verifies. -/
def bootVerify (s : State) (faults : Nat) : State :=
  let s := setCore s sillCore { coreInit sillCore with run := .run }
  match bootPtr s with
  | none => lockdown s 1
  | some p =>
    let act := p.active % 2
    let s := { s with sec := { s.sec with tryPend := p.try_ != 0xFF } }
    if p.try_ ≠ 0xFF ∧ p.tried = 0 then bootSlots (writePtr s { p with tried := 1 }) (p.try_ % 2) (1 - p.try_ % 2) faults
    else bootSlots s act (1 - act) faults

/-! ## Requests (R427 to R430) -/

/-- SEC_STATUS. -/
def secStatus (s : State) : Nat :=
  b2n (modeOf s == Mode.lockdown) * 2 ^ 31 + s.sec.cause * 2 ^ 27 + s.sec.slot * 2 ^ 26 + b2n s.sec.tryPend * 2 ^ 25
    + s.sec.svnFused * 128 + s.sec.svnRun % 128
/-- Known CMD codes, and those refused in Lockdown. -/
def sillCmds : List Nat := [0x01, 0x02, 0x03, 0x10, 0x11, 0x12, 0x20]
/-- Modes in which Sill serves requests: from Provision on (R505). -/
def sillServes (s : State) : Bool := let m := modeOf s; m != Mode.off && m != Mode.retain && m != Mode.boot
/-- Split bytes into packets of at most 8,192. -/
def mgmtParts (bs : List Byte) : List (List Byte) := if bs.isEmpty then [[]] else chunks 8192 (bs.length / 8192 + 1) bs
/-- Answer a request: in the mailbox, on SMBus, or in MGMT packets (assumption 26). -/
def answerReq (s : State) (r : SReq) (st : Nat) (data : List Byte) : State :=
  let s := { s with sec := { s.sec with reqs := s.sec.reqs.erase r } }
  if r.src = 0 then { s with sec := { s.sec with status := st, answer := data } }
  else if r.src = 1 then { s with out := { s.out with smbus := s.out.smbus ++ [natLE 2 st ++ data] } }
  else (mgmtParts (natBE 2 st ++ data)).foldl (fun s b => sendPacket s (r.src - 2) 2 9 b) s
/-- A request arrives at Sill, unless its source's last one is in progress. An unknown CMD is answered at once. -/
def sillArrive (s : State) (r : SReq) : State :=
  if s.sec.reqs.any (fun q => q.src == r.src) then s
  else
    let t := { s with sec := { s.sec with reqs := s.sec.reqs ++ [r] } }
    if sillCmds.contains r.cmd then t else answerReq t r St.secBadCmd []
/-- The request a command of Table 20-4 serves: the oldest waiting one, when it is of this CMD and source; a request over SMBus comes
with the command. Before Provision SMBus is answered with NACK. -/
def sillServe (cmd src : Nat) (data : List Byte) (s : State) (go : State → SReq → State) : State :=
  if src > 3 then s
  else if ! sillServes s then (if src = 1 ∧ ! s.pwr.por then { s with out := { s.out with smbus := s.out.smbus ++ [[]] } } else s)
  else
    let s := if src = 1 then sillArrive s ⟨1, cmd, data⟩ else s
    match s.sec.reqs with
    | [] => s
    | r :: _ =>
      if r.src ≠ src ∨ r.cmd ≠ cmd ∨ (modeOf s = Mode.lockdown ∧ src > 1) then s
      else if modeOf s = Mode.lockdown ∧ cmd ≥ 0x10 then answerReq s r St.secDenied []
      else go s r
/-- STATUS. -/
def doStatus (src : Nat) (data : List Byte) (s : State) : State :=
  sillServe 0x01 src data s (fun s r => answerReq s r 0 (natLE 4 (secStatus s) ++ natLE 8 Config.devser.toNat))
/-- Plans that a report lists: READY, BOUND and UNLOADING, by function and PLAN_ID, at most 1,024. -/
def reportPlans (s : State) : List (Nat × Plan) := (s.plans.plans.filter (fun p => decide (2 ≤ p.2.st))).take 1024
/-- An attestation report up to its signature (Table 20-5). -/
def reportBytes (s : State) (nonce : List Byte) : List Byte :=
  let v := s.sec.verified
  let ps := reportPlans s
  let meas := if v then sub s.sec.meas 0 48 else List.replicate 48 0#8
  let flags := b2n s.sec.debugOpen + 2 * b2n s.sec.tryPend + 4 * b2n (! v)
  natLE 4 0x54525441 ++ natLE 2 1 ++ natLE 1 s.pwr.mode ++ natLE 1 flags ++ natLE 8 Config.devser.toNat ++ natLE 8 (now s)
    ++ sub nonce 0 32 ++ meas ++ natLE 4 (if v then s.sec.svnRun else 0) ++ natLE 1 (if v then s.sec.keyIdx else 0)
    ++ natLE 1 s.sec.slot ++ natLE 1 s.sec.cause ++ natLE 1 0 ++ natLE 2 ps.length ++ natLE 14 0
    ++ ps.flatMap (fun p => natLE 1 (p.1 / 1024) ++ natLE 1 p.2.st ++ natLE 2 (p.1 % 1024) ++ natLE 4 0 ++ sub p.2.digest 0 48)
/-- ATTEST: the report with its signature, whose bytes are free. A nonce that is not 32 bytes long is no ATTEST request. -/
def doAttest (src : Nat) (data : List Byte) (s : State) : State :=
  sillServe 0x02 src data s (fun s r =>
    if r.data.length ≠ 32 then answerReq s r St.secBadCmd []
    else
      let f := nextFree s
      answerReq f.2 r 0 (reportBytes s r.data ++ (List.range 96).map (Config.sigByte f.1)))
/-- The DeviceID certificate, and the alias certificate once Frame has been verified and while not in Lockdown. -/
def certBytes (s : State) : List Byte :=
  let one := fun (k : Nat) => (List.range (Config.certLen k).toNat).map (Config.certByte k)
  one 0 ++ (if s.sec.verified ∧ modeOf s ≠ Mode.lockdown then one (s.sec.alias_ + 1) else [])
/-- CERTS. -/
def doCerts (src : Nat) (data : List Byte) (s : State) : State := sillServe 0x03 src data s (fun s r => answerReq s r 0 (certBytes s))
/-- The slot that is not ACTIVE. -/
def inactiveSlot (s : State) : Nat := match bootPtr s with
  | some p => 1 - p.active % 2
  | none => 0
/-- Is a firmware command from a source other than the one whose FW_WRITEs are in progress? -/
def fwOther (s : State) (r : SReq) : Bool := match s.sec.fwSrc with
  | some x => x != r.src
  | none => false
/-- FW_WRITE: bytes go into the inactive slot, which the first write erases. -/
def doFwWrite (src : Nat) (data : List Byte) (s : State) : State :=
  sillServe 0x10 src data s (fun s r =>
    let off := leAt r.data 0 4
    let bs := r.data.drop 4
    if fwOther s r then answerReq s r St.secBusy []
    else if bs.isEmpty ∨ bs.length > 4092 ∨ off + bs.length > slotSize30 then answerReq s r St.secBadCmd []
    else
      let k := inactiveSlot s
      let s := if s.sec.fwSrc.isNone then flashErase s k else s
      answerReq (flashWrite { s with sec := { s.sec with fwSrc := some r.src } } (slotAddr k + off) bs) r 0 [])
/-- FW_COMMIT: the slot is verified and becomes TRY; bits 0 and 1 of `faults` are faulty pairs of steps 3 and 5. -/
def doFwCommit (src : Nat) (data : List Byte) (faults : Nat) (s : State) : State :=
  sillServe 0x11 src data s (fun s r =>
    if fwOther s r then answerReq s r St.secBusy []
    else
      let s := { s with sec := { s.sec with fwSrc := none } }
      let k := inactiveSlot s
      if r.data.length ≠ 4 then answerReq s r St.secBadCmd []
      else match verifySlot s k (bitOf faults 0) (bitOf faults 1) with
        | .fault => sillFault s
        | .rollback => answerReq s r St.secFwRollback []
        | .bad => answerReq s r St.secFwVerify []
        | .ok _ =>
          if leAt (slotHead s k) 12 4 + 512 ≠ leAt r.data 0 4 then answerReq s r St.secFwVerify []
          else match bootPtr s with
            | none => answerReq s r St.secFwVerify []
            | some p => answerReq (writePtr s { p with try_ := k, tried := 0 }) r 0 [])
/-- FW_ACCEPT: the running slot, which is TRY, becomes ACTIVE, and SVN bits are blown up to its SVN. -/
def doFwAccept (src : Nat) (data : List Byte) (s : State) : State :=
  sillServe 0x12 src data s (fun s r =>
    match bootPtr s with
    | none => answerReq s r St.secBusy []
    | some p =>
      if fwOther s r ∨ ! workMode (modeOf s) ∨ p.try_ ≠ s.sec.slot then answerReq s r St.secBusy []
      else
        let s := writePtr s { p with active := s.sec.slot, try_ := 0xFF }
        answerReq { s with sec := { s.sec with svnFused := max s.sec.svnFused (min 64 s.sec.svnRun) } } r 0 [])
/-- DEBUG_OPEN (R420): a token that verifies and names this device erases every key slot and opens JTAG; `fault`: the compare yields a
faulty pair. A token that does not verify is denied (DEDUCED, assumption 26). -/
def doDebugOpen (src : Nat) (data : List Byte) (fault : Bool) (s : State) : State :=
  sillServe 0x20 src data s (fun s r =>
    if fault then sillFault s
    else if ! bitOf s.sec.revoked 3 ∧ Config.tokenOk r.data then
      let s := (List.range 64).foldl eraseSlot s
      answerReq { s with sec := { s.sec with debugOpen := true } } r 0 []
    else answerReq s r St.secDenied [])
/-- MGMT_PACKET (R427): a packet of class MGMT carries a request of the peer's Sill; while one is in progress the next waits. -/
def doMgmtPacket (n : Nat) (s : State) : State :=
  if s.sec.reqs.any (fun q => q.src == n + 2) ∨ modeOf s = Mode.lockdown then s
  else match takeInbox s n 2 9 with
    | some (k, s) => sillArrive s ⟨n + 2, leAt k.body 0 1, k.body.drop 1⟩
    | none => s
/-- A write of SEC_MBOX_CMD with GO = 1 submits the request that stands in SEC_MBOX; it is discarded while BUSY. -/
def mboxSubmit (s : State) (v : Nat) : State :=
  if s.sec.reqs.any (fun q => q.src == 0) ∨ ! sillServes s then s
  else
    let s := regWrite s Reg.SEC_MBOX_CMD 0 v
    if ! bitOf v 31 then s
    else if fld v 12 0 > 4096 then { s with sec := { s.sec with status := St.secBadCmd, answer := [] } }
    else sillArrive s ⟨0, fld v 23 16, mreads s.sec.mbox 0 (fld v 12 0)⟩

/-! ## DIGEST_MESSAGE_DONE (R402) -/

/-- The running digest request `a` ends: an item's part, or a request of Sill, whose faulty pair is Lockdown. -/
def doDigestMessageDone (a : Nat) (pair : Option Nat) (s : State) : State :=
  match tget s.ciph.dreqs a with
  | none => s
  | some r =>
    if r.core.isNone ∨ r.item.any (dataMoving s) then s
    else
      let s := digEnd s a
      match r.item with
      | some id => digestItemDone s id r pair
      | none => if (pair.map cmpFaulty).getD false then sillFault s else s

/-! ## A halted Frame core (R424) -/

/-- Stop the four Frame cores. -/
def stopFrame (s : State) : State := (List.range 4).foldl (fun s k => coreStop s (frameCore k)) s

end Sys2Proof.Machine
end

