-- ==== Sys2Proof/Machine/Startup.lean ====
section
/-! DEFINITION. Pins, resets and start-up (spec/24_package_startup.md, R495 to R505), the wakes from Retain
(spec/21_power_clocks_modes.md, R443), and the restart of Frame (spec/20_sill_frame_security.md, R424). -/

namespace Sys2Proof.Machine
open Sys2Proof

/-! ## Frame start-up, steps 4 to 7 (R502, R504) -/

/-- The delays of a memory stop's bin are applied to its four channels: shadow and use. -/
def stopDelays (s : State) (m : Nat) (t : Int) : State :=
  (List.range 4).foldl (fun s c => delayCopy (shadowApply (shadowSet s (4 * m + c) t) (4 * m + c)) (4 * m + c)) s
/-- Steps 4 and 5: delays, the repair list, the epoch, and the drives' release; a wake finds its repairs in place and raises no epoch. `sens` holds the sixteen memory-stop readings. -/
def startFrame (s : State) (wake : Bool) (sens : List Int) : State :=
  let s := ((sens.take 16).zipIdx).foldl (fun s p => stopDelays s p.2 p.1) s
  let s := if wake then s else reapplyRepairs s
  let s := if wake then s else { s with dmc := { s.dmc with epoch := (s.dmc.epoch + 1) % 16 } }
  { s with pwr := { s.pwr with fromRetain := wake, drivesOut := true, drivesAt := now s, startStep := 5 } }
/-- A drive as it is found: its blocks, whether it meets R338, and its content, where it is not the one known in that place; then the
blocks of the one it replaces. -/
def foundDrive (s : State) (d : Nat) (f : Nat × Bool × Option (List (Nat × Byte))) : Drive :=
  let old := tgetD s.led.drives d {}
  match f.2.2 with
  | none => { old with blocks := f.1, ok := f.2.1, st := 0 }
  | some cells => { blocks := f.1, ok := f.2.1, replaces := if (driveSuper old).isSome then old.blocks else old.replaces, mem := cells.foldl (fun m c => mwrite m c.1 [c.2]) [] }
/-- Size L in GiB from the pool that recovery found (R500, R501). -/
def sizeL (s : State) : Nat :=
  match s.led.pool with
  | some q => min 16 (ceilDiv (8 * dataBlocks q) gib)
  | none => 0
/-- Step 6: L is sized and the pool is recovered. -/
def drivesReady (s : State) (found : List (Nat × Bool × Option (List (Nat × Byte)))) : State :=
  let ds : Tab Drive := ((found.take 2).zipIdx).filterMap (fun p => if p.1.1 = 0 then none else some (p.2, foundDrive s p.2 p.1))
  let s := ledRecover (led s (fun l => { l with drives := ds }))
  { s with pwr := { s.pwr with startStep := 6, ledgerL := if s.pwr.fromRetain then s.pwr.ledgerL else sizeL s } }
/-- Is start-up between the drives' release and their readiness? -/
def awaitDrives (s : State) : Bool := modeOf s == Mode.provision && s.pwr.startStep == 5
/-- DRIVE_READY: every attached drive is ready within 10 s of its release. -/
def doDriveReady (found : List (Nat × Bool × Option (List (Nat × Byte)))) (s : State) : State :=
  if awaitDrives s ∧ now s ≤ s.pwr.drivesAt + 10000000000 then drivesReady s found else s
/-- DRIVE_READY_TIMEOUT: the drives that are ready; the others read absent. -/
def doDriveReadyTimeout (found : List (Nat × Bool × Option (List (Nat × Byte)))) (s : State) : State :=
  if awaitDrives s ∧ s.pwr.drivesAt + 10000000000 ≤ now s then drivesReady s found else s
/-- The fill of R268: zero data, no poison, the current epoch in every line. -/
def fillDram (s : State) : State :=
  let subs : Tab SubCh := s.dmc.subs.map (fun p => (p.1, { p.2 with wq := [], rq := [] }))
  { s with dram := [], poison := [], dmc := { s.dmc with fillVer := s.dmc.epoch, vers := [], stops := [], subs := subs } }
/-- The tile kernel image of the running slot, 32 KiB. -/
def kernelImage (s : State) : List Byte := (List.range 32768).map (Config.kernelByte (slotBody s s.sec.slot))
/-- Step 7: the kernel image and TILE_KIMG, SC_CTL.EN, FN 0's window and the tables Frame keeps in DRAM. -/
def frameTables (s : State) : State :=
  let fb := frameArea s
  let s := dramWrite s 0 fb (kernelImage s)
  let s := regPut s Reg.TILE_KIMG 0 (setFld (setFld 0 39 12 (fb / 4096)) 0 0 1)
  let s := cacheOn s
  { s with
    fns := { s.fns with windows := [(0, [⟨0, ledgerArea s⟩])] },
    plans := { poolSize := poolGib s * 1024, poolBase := stPoolArea s },
    qm := { s.qm with ikeys := [], floors := [] },
    ing := { s.ing with toClear := true } }
/-- DRAM_FILL_DONE: the fill and the recovery have ended. -/
def doDramFillDone (s : State) : State :=
  if modeOf s ≠ Mode.provision ∨ s.pwr.startStep ≠ 6 then s
  else
    let s := frameTables (if s.pwr.fromRetain then s else fillDram s)
    let s := { s with pwr := { s.pwr with startStep := 7, fromRetain := false } }
    if ledgerOp s then setMode { s with pwr := { s.pwr with maintAuto := true } } Mode.maintain
    else schedule (setMode s Mode.idle)

/-! ## POR_L (R495, R496, R502) -/

/-- POR_ASSERT: Off at once, from any mode. -/
def doPorAssert (s : State) : State := powerOff s
/-- Boot: Sill verifies Frame; from Provision on Frame starts. -/
def boot (s : State) (wake : Bool) (faults : Nat) (sens : List Int) : State :=
  let s := bootVerify s faults
  if modeOf s = Mode.provision then startFrame s wake sens else s
/-- POR_RELEASE: steps 1 to 5; `shadowBad`: the fuse shadow differs from the fuse block; `faults`: the compares of R423 that yield a
faulty pair (see bootSlots). -/
def doPorRelease (shadowBad : Bool) (faults : Nat) (sens : List Int) (s : State) : State :=
  if ! s.pwr.por then s
  else
    let s := { s with pwr := { s.pwr with por := false, mode := Mode.boot, prev := Mode.off, smbAddr := 0x68 + s.pwr.smbStrap % 4 } }
    let s := logEvent s Ev.modeChange 0xFF Mode.off Mode.boot 0
    if shadowBad then lockdown s 5 else boot s false faults sens

/-! ## Wakes from Retain (R443, R504) -/

/-- A wake source occurs: enabled in AON_WAKE, it is recorded and the device boots. -/
def wake (s : State) (src faults : Nat) (sens : List Int) : State :=
  if modeOf s = Mode.retain ∧ bitOf s.pwr.wakeEn src then
    boot (setMode { s with pwr := { s.pwr with wakeCause := 2 ^ src, wakeAt := 0 } } Mode.boot) true faults sens
  else s
/-- WAKE_PIN: WAKE_L is low. -/
def doWakePin (faults : Nat) (sens : List Int) (s : State) : State := wake s 0 faults sens
/-- WAKE_TIMER: DEVTIME has reached WAKE_AT. -/
def doWakeTimer (faults : Nat) (sens : List Int) (s : State) : State :=
  if s.pwr.wakeAt ≠ 0 ∧ s.pwr.wakeAt ≤ s.pwr.devtime then wake s 1 faults sens else s
/-- WAKE_SMBUS: a transaction to the device's address, answered with NACK. -/
def doWakeSmbus (faults : Nat) (sens : List Int) (s : State) : State :=
  if modeOf s = Mode.retain then wake { s with out := { s.out with smbus := s.out.smbus ++ [[]] } } 2 faults sens else s

/-! ## PERST# (R497) -/

/-- PERST_DEASSERT: the host link trains; in Retain it is a wake source. -/
def doPerstDeassert (faults : Nat) (sens : List Int) (s : State) : State :=
  if ! s.pwr.perst then s else wake { s with pwr := { s.pwr with perst := false } } 3 faults sens
/-- PERST_ASSERT: the host link goes down; in a mode after Boot every function is reset and VF Enable is cleared. -/
def doPerstAssert (s : State) : State :=
  if s.pwr.perst then s
  else
    let s := { s with pwr := { s.pwr with perst := true } }
    let m := modeOf s
    if m = Mode.off ∨ m = Mode.retain ∨ m = Mode.boot then s else vfClear (fnReset s 0)

/-! ## A Frame core that halts (R424) -/

/-- One hour in ns. -/
abbrev hourNs : Nat := 3600000000000
/-- FRAME_HALT: logged with the halts of the last hour; Hold; Frame is verified again from the slot in use and restarted, with no new
alias; the third halt within an hour enters Lockdown. `sens` holds the memory-stop readings of the last thermal sample. -/
def frameHalt (s : State) (k : Nat) : State :=
  let hs := s.sec.halts.filter (fun t => decide (now s ≤ t + hourNs)) ++ [now s]
  let s := logEvent { s with sec := { s.sec with halts := hs } } Ev.frameHalt 0xFF k hs.length 0
  let s := holdEntry (stopFrame s) 2
  if hs.length ≥ 3 then lockdown s 4
  else match verifySlot s s.sec.slot false false with
    | .ok _ =>
      let s := setMode { loadFrame s s.sec.slot with pwr := { s.pwr with holdCause := 0 } } Mode.provision
      startFrame { s with pwr := { s.pwr with startStep := 3 } } false ((List.range 16).map (fun i => tgetD s.pwr.temps (16 + i) 0))
    | .fault => sillFault s
    | _ => lockdown s 1

end Sys2Proof.Machine
end

