-- ==== Sys2Proof/Machine/RasOps.lean ====
section
/-! DEFINITION. Faults, spares and recovery (spec/22_faults_spares_recovery.md, R455 to R469): the retry rule, single faults, Recover,
replay, and tiles that halt. -/

namespace Sys2Proof.Machine
open Sys2Proof

/-! ## Taking back the threads of a tile (R461, R463) -/

/-- Start an item's work over: what its thread prepared is dropped. -/
def restartItem (s : State) (id : Nat) : State :=
  match getItem s id with
  | none => s
  | some it =>
    if it.phase = .ready ∧ it.status = 0 ∧ ! it.isDup then
      setItem (undoWork s id it) id { it with phase := .queued, effects := [], r0 := 0, r1 := 0 }
    else s
/-- Replay a thread by its kind: a task of a run and a STANDING thread from the last complete checkpoint, a DRIVER and a one-tile
task from its start, a CONTINUATION from the engine's result. -/
def replayThread (s : State) (e : Entry) : State :=
  match e.task with
  | some k =>
    if e.kind = 3 then s
    else match getRun s e.item with
      | some r => modTask (setRun s e.item { r with replays := r.replays + 1 }) e.item k (fun t =>
          { restoreTask t (now s) with seated := t.seated && ! r.standing })
      | none => s
  | none => if e.kind = 3 then s else restartItem s e.item
/-- Entries that stand on a logical tile: running, suspended or placed. -/
def onTile (s : State) (m : Nat) : List (Nat × Entry) := s.sched.entries.filter (fun p => p.2.tile == some m)
/-- The sequencer and vector context of the checkpoint that a thread is replayed from (R463). -/
def replayContext (s : State) (e : Entry) : Option Core :=
  if e.kind = 3 then none else e.task.bind (fun k => (getTask s e.item k).bind (·.ctxCk))
/-- Take back every entry of a tile: READY again, with its ARRSEQ, deadlines, flow and kind, and replayed. -/
def takeBack (s : State) (m : Nat) : State :=
  (onTile s m).foldl (fun s p =>
    let s := if p.2.st = .running ∨ p.2.st = .suspended then replayThread s p.2 else s
    let ctx := if p.2.st = .running ∨ p.2.st = .suspended then replayContext s p.2 else p.2.ctx
    setEntry s p.1 { p.2 with st := .ready, tile := none, save := none, placed := false, since := now s, ctx := ctx }) s
/-- ARRSEQ of the threads of a tile that lose their state. -/
def losing (s : State) (m : Nat) : List Nat :=
  ((onTile s m).filter (fun p => p.2.st == .running || p.2.st == .suspended)).map (·.2.arrseq)

/-! ## A tile without a spare (R462) -/

/-- The tasks of a run on a lost tile move to other tiles of its grant, idle ones first. -/
def moveTasks (r : Run) (m : Nat) : Run :=
  (r.tasks.filter (fun q => q.2.tile == m && ! q.2.ended)).foldl (fun r q =>
    { r with tasks := tupd r.tasks q.1 (fun t => { t with tile := (idleTiles r).headD (r.granted.headD 0), seated := false }) })
    { r with granted := r.granted.filter (· != m) }
/-- Take a lost tile out of the grants: its tasks move, grants shrink, and an item left with too few tiles fails. -/
def shrinkGrants (s : State) (m : Nat) : State :=
  let runs := (s.plans.runs.filter (fun p => ! p.2.standing && p.2.granted.contains m)).map (·.1)
  let s := runs.foldl (fun s id => match getRun s id with
    | none => s
    | some r =>
      let r := moveTasks r m
      let s := setRun s id r
      if r.granted.length < (planImage s r.fn r.planId).req.tmin then failRun s id St.resourceUnavailable noPlace else s) s
  ((s.plans.oneTile.filter (fun p => p.2 == m)).map (·.1)).foldl (fun s id => stopItem s id St.resourceUnavailable) s
/-- STANDING reservations that name an ABSENT tile are re-made under R334. -/
def remakeAbsent (s : State) : State :=
  let gone := (List.range 128).filter (fun t => tileAbsent s t && ! (hosts s t).isEmpty)
  gone.foldl (fun s t => (List.range (hosts s t).length).foldl (fun s _ => standingRemake s (holder s.fns.tileFn t) t) s) s
/-- The logical tile becomes ABSENT. -/
def tileGone (s : State) (p m : Nat) : State :=
  let c := p / 9
  let lm := setFld (s.ras.lmapOf c) (4 * (m % 8) + 3) (4 * (m % 8)) 0xF
  let ps := setFld (s.ras.pstateOf c) (2 * (p % 9) + 1) (2 * (p % 9)) 2
  let s := takeBack s m
  let s := coreOff { s with ras := { s.ras with lmap := tset s.ras.lmap c lm, pstate := tset s.ras.pstate c ps, degraded := true } } p
  schedule (remakeAbsent (shrinkGrants s m))

/-! ## Recover (R460 to R462, R468) -/

/-- RECOVER_ENTRY and TILE_QUIESCE: the device moves to Recover, the tile's threads are taken back, and, unless its array is repaired in
place, its port is fenced until its spare takes its number. -/
def enterRecover (s : State) (p m kind : Nat) (inPlace : Bool) : State :=
  let r : Recovery := { phys := p, logical := m, startAt := now s, kind := kind, inPlace := inPlace, fenced := ! inPlace, replaying := losing s m }
  let s := setMode { s with pwr := { s.pwr with recoverFrom := modeOf s }, ras := { s.ras with rcv := some r } } Mode.recover
  let s := takeBack s m
  schedule (if inPlace then tileStart s p else coreStop s p)
/-- Is the spare of a cluster unused? -/
def spareFreeIn (s : State) (c : Nat) : Bool := fld (s.ras.pstateOf c) 17 16 == 1
/-- The woken spare takes a failed tile's logical number at one instant, and the failed position reads RETIRED (R462). -/
def remapTile (s : State) (p m : Nat) : State :=
  let c := p / 9
  let lm := setFld (s.ras.lmapOf c) (4 * (m % 8) + 3) (4 * (m % 8)) 8
  let ps := setFld (setFld (s.ras.pstateOf c) (2 * (p % 9) + 1) (2 * (p % 9)) 2) 17 16 0
  let s := { s with ras := { s.ras with lmap := tset s.ras.lmap c lm, pstate := tset s.ras.pstate c ps } }
  let s := tileStart (coreOff s p) (9 * c + 8)
  schedule (logEvent s Ev.spareIn 0xFF 1 p (9 * c + 8))
/-- May the mode in force move to Recover (Table 21-3)? -/
def mayRecover (s : State) : Bool := workMode (modeOf s) || modeOf s == Mode.drain || modeOf s == Mode.maintain
/-- A lasting fault of an in-service tile: its spare comes in under Recover, or its logical number becomes ABSENT. A second fault, in
Recover, moves the device to Hold. From a mode that Table 21-3 gives no move to Recover, the spare comes in without one (DEDUCED,
assumption 24). -/
def tileFault (s : State) (p : Nat) : State :=
  if modeOf s = Mode.recover then holdEntry s 5
  else match logTile s p with
    | none => s
    | some m =>
      if ! spareFreeIn s (p / 9) then tileGone s p m
      else if mayRecover s then enterRecover s p m 1 false
      else remapTile (takeBack s m) p m
/-- SPARE_TILE_REMAP: the woken spare takes the failed tile's logical number at one instant; the failed position is retired. -/
def doSpareTileRemap (s : State) : State :=
  match s.ras.rcv with
  | none => s
  | some r =>
    if ! r.fenced ∨ modeOf s ≠ Mode.recover ∨ ! kimgValid s then s
    else
      remapTile { s with ras := { s.ras with rcv := some { r with fenced := false } } } r.phys r.logical
/-- May Recover end: the spare is in, and every thread that replays has run again? -/
def recovered (s : State) (r : Recovery) : Bool :=
  ! r.fenced && ! s.sched.entries.any (fun p => r.replaying.contains p.2.arrseq && p.2.st == .ready)
/-- RECOVER_END: the device returns to the mode it left; a mode request that waited is judged. -/
def doRecoverEnd (s : State) : State :=
  match s.ras.rcv with
  | none => s
  | some r =>
    if modeOf s ≠ Mode.recover ∨ ! recovered s r then s
    else
      let us := (now s - r.startAt) / 1000
      let s := { s with ras := { s.ras with
        rcv := none, recCount := satAdd 32 s.ras.recCount 1, lastUs := min us 0xFFFF, maxUs := max s.ras.maxUs (min us 0xFFFF) } }
      let s := setMode s s.pwr.recoverFrom
      judgeWaiting (schedule (logEvent s Ev.recovery 0xFF r.kind us r.logical))

/-! ## Tiles that halt (R220, R457) -/

/-- A tile's sequencer has halted on a double fault: the running thread's item fails, the other threads with state on the tile replay, and
the tile is restarted and self-tested. -/
def tileHalt (s : State) (p : Nat) : State :=
  let s := modCore s p (fun c => { c with run := .halted })
  match logTile s p with
  | none => s
  | some m =>
    let s := match runningOn s m with
      | some (_, e) => stopItem s e.item St.kernelFault
      | none => s
    let s := takeBack s m
    schedule { s with ras := { s.ras with bist := if s.ras.bist.contains p then s.ras.bist else s.ras.bist ++ [p] } }
/-- TILE_BIST_DONE: a tile that passes stays in service; one that fails is retired as a lasting fault. -/
def doTileBistDone (p : Nat) (pass : Bool) (s : State) : State :=
  if ! s.ras.bist.contains p then s
  else
    let epc := (getCore s p).epc.toNat
    let s := { s with ras := { s.ras with bist := s.ras.bist.filter (· != p) } }
    let s := rasCount (logEvent s Ev.tileHalt 0xFF p epc (b2n (! pass))) 2 (! pass)
    if pass then schedule (tileStart s p) else tileFault s p

/-! ## DETECTED_ERROR (R456, R458, R459, R469) -/

/-- What the retry of a detected error showed. -/
abbrev Err.transient : Nat := 0
/-- the resource as a whole is defective -/
abbrev Err.lasting : Nat := 1
/-- one row or column is defective, and every word of it reads correctably -/
abbrev Err.rowGood : Nat := 2
/-- one row or column is defective, and contents are lost -/
abbrev Err.rowLost : Nat := 3
/-- A redundancy row or column is brought in. -/
def useRow (s : State) (cls unit : Nat) : State :=
  let k := 24576 - s.ras.sramFree
  logEvent { s with ras := { s.ras with sramFree := s.ras.sramFree - 1 } } Ev.spareIn 0xFF 6 (cls * 2 ^ 32 + unit) k
/-- A lasting fault of the unit as a whole, by class of RAS_CNT. -/
def unitFault (s : State) (cls unit : Nat) : State :=
  if cls ≤ 2 then (if unit < 144 then tileFault s unit else holdEntry s 6)
  else if cls = 3 then retireWay (badLine s (unit / 16384) (unit / 1024 % 16) (unit % 1024)) (unit / 16384) (unit / 1024 % 16)
  else if cls = 4 then holdEntry { s with pwr := { s.pwr with dramLost := true } } 4
  else if cls = 5 then doCamScrub unit 2 s
  else if cls = 8 then
    if s.ras.ciphFree = 0 ∨ unit ≥ 8 then holdEntry s 6
    else logEvent { s with
      ciph := { s.ciph with spareIn := true }, ras := { s.ras with ciphFree := s.ras.ciphFree - 1, ciphRetired := s.ras.ciphRetired + 1 } } Ev.spareIn 0xFF 4 unit 8
  else if cls = 9 then modPort s (unit % 2) (fun q => { q with down := true })
  else holdEntry s 6
/-- Does the unit stand in powered logic? A tile must be on and in service. -/
def unitOn (s : State) (cls unit : Nat) : Bool :=
  if cls ≤ 2 then decide (unit < 149) && (tget s.cores unit).isSome && (decide (unit ≥ 144) || (tileInService s unit && ! s.ras.bist.contains unit))
  else if cls = 5 then decide (unit < 131072)
  else if cls = 3 then decide (unit < 524288)
  else decide (cls ≤ 9)
/-- Does a class stand for SRAM arrays with redundancy rows and columns: tile SRAM, cache, CAM, engine tables (Table 22-2)? -/
def inArray (cls : Nat) : Bool := cls == 1 || cls == 3 || cls == 5 || cls == 6
/-- DETECTED_ERROR: class of RAS_CNT, unit within it (a core; (slice * 16 + way) * 1024 + set; DRAM device; CAM entry; cipher core, or 8 for a digest
core; ingest port), and what the one retry showed. A cache error also counts in SC_ERR_CNT, and a lost line is handled by its state (R259). Classes 4, 5 and 10 have their own rows for their other errors. -/
def doDetectedError (cls unit form : Nat) (s : State) : State :=
  let m := modeOf s
  if m = Mode.off ∨ m = Mode.retain ∨ m = Mode.lockdown ∨ form > 3 ∨ ! unitOn s cls unit then s
  else if form = Err.transient then rasCount (if cls = 3 then cntAdd s Reg.SC_ERR_CNT 0 31 16 1 else s) cls false
  else
    let t := if cls = 5 ∧ form = Err.lasting then s else rasCount (if cls = 3 then cntAdd s Reg.SC_ERR_CNT 0 31 16 1 else s) cls true
    if m = Mode.recover ∧ cls ≠ 9 then holdEntry t 5
    else if form = Err.lasting ∨ t.ras.sramFree = 0 ∨ ! inArray cls then unitFault t cls unit
    else
      let u := useRow t cls unit
      if cls = 1 ∧ form = Err.rowLost then
        (if unit ≥ 144 then holdEntry u 6
         else match logTile u unit with
          | some l => if mayRecover u then enterRecover u unit l 6 true else schedule (tileStart (takeBack u l) unit)
          | none => u)
      else if cls = 3 ∧ form = Err.rowLost then badLine u (unit / 16384) (unit / 1024 % 16) (unit % 1024)
      else u

/-! ## A second fault during Recover (R459) -/

/-- Lasting errors counted so far. -/
def lastingSum (s : State) : Nat := s.ras.lasting.foldl (fun n p => n + p.2) 0
/-- A command that judged another resource's error lasting, in Recover, moves the device to Hold. -/
def secondFault (before after : State) : State :=
  if modeOf before = Mode.recover ∧ modeOf after = Mode.recover ∧ lastingSum before < lastingSum after then holdEntry after 5 else after
/-- A cluster's wake ends: reservations that wait to be re-made on it are. -/
def doClusterWakeCompleteAll (c : Nat) (s : State) : State := remakeAbsent (doClusterWakeComplete c s)

end Sys2Proof.Machine
end

