-- ==== Sys2Proof/Machine/Ingest.lean ====
section
/-! DEFINITION. Message ingest (spec/09_message_ingest.md, R173 to R185, R190): frames, drops and reports, duplicates, and the
STANDING item of a message. -/

namespace Sys2Proof.Machine
open Sys2Proof

/-! ## Drops and reports (R178, R179) -/

/-- Post a report on the ring of the physical-function queue named in ING_REPORT. -/
def reportDrop (s : State) (k port layout key rx : Nat) : State :=
  let q := rfld s Reg.ING_REPORT 0 27 16
  let lost := { s with ing := { s.ing with lost := satAdd 32 s.ing.lost 1 } }
  match devQueue s 0 q with
  | none => lost
  | some d =>
    if (getQ s d).st = .disabled ∨ ! ringRoom s d then lost
    else placeEntry s d ⟨2 ^ 63 + 2 ^ 62 + q * 2 ^ 48 + St.ingDrop k * 2 ^ 16, key, rx, layout * 2 ^ 40 + port * 2 ^ 32 + 0xFFFFFFFF, true⟩
/-- A drop for reason `k`: counted, and reported when its mask bit is set; reasons 0 to 4 have no envelope to trust. -/
def drop (s : State) (port k layout key rx : Nat) : State :=
  let s := modPort s port (fun p => { p with drops := tset p.drops k (satAdd 32 (tgetD p.drops k 0) 1) })
  if bitOf (rfld s Reg.ING_REPORT 0 11 0) k then
    (if k ≤ 4 then reportDrop s k port 0 0 rx else reportDrop s k port layout key rx)
  else s

/-! ## Modes and ports (R438, R442) -/

/-- Does the mode serve messages? -/
def ingestServes (s : State) : Bool :=
  acceptsWork s || (serviceMode s == Mode.drain && s.pwr.drainIngest)
/-- Are the ports up: they are down in Off, Retain, Boot, Provision, Maintain and Lockdown? -/
def portsUp (s : State) : Bool :=
  acceptsWork s || serviceMode s == Mode.drain || serviceMode s == Mode.hold

/-! ## Neighbours (R174, Table 9-1) -/

/-- The answer to an ARP request for the port's address. -/
def arpReply (s : State) (port : Nat) (e : Eth) : List Byte :=
  let mac := portMac s port
  buildEth e.src mac e.tag 0x0806
    (natBE 2 1 ++ natBE 2 0x0800 ++ natBE 1 6 ++ natBE 1 4 ++ natBE 2 2 ++ mac ++ natBE 4 (portIp4 s port) ++ sub e.body 8 10)
/-- The answer to a Neighbor Solicitation: Solicited and Override set, with the target link-layer address (PRESUMED:
RFC 4861, assumption 15). -/
def naReply (s : State) (port : Nat) (e : Eth) : List Byte :=
  let mac := portMac s port
  let me := natBE 16 (portIp6 s port)
  let dst := sub e.body 8 16
  let icmp := fun (ck : Nat) => natBE 1 136 ++ natBE 1 0 ++ natBE 2 ck ++ natBE 4 0x60000000 ++ me ++ natBE 1 2 ++ natBE 1 1 ++ mac
  let ck := inetChecksum (me ++ dst ++ natBE 4 32 ++ natBE 4 58 ++ icmp 0)
  buildEth e.src mac e.tag 0x86DD (natBE 4 0x60000000 ++ natBE 2 32 ++ natBE 1 58 ++ natBE 1 255 ++ me ++ dst ++ icmp ck)

/-! ## Datagrams (R174, Table 9-3 reasons 0 to 5) -/

/-- The IP part of a served datagram: its pseudo-header before the length, whether it is IPv6, and the bytes after the IP
header with the length that header declares. -/
structure Dgram where
  src : List Byte
  dst : List Byte
  v6 : Bool
  data : List Byte
  iplen : Nat
deriving DecidableEq, Repr
/-- IPv6 extension headers. -/
def extHeader (nh : Nat) : Bool := [0, 43, 44, 50, 51, 60, 135, 139, 140, 253, 254].contains nh
/-- The datagram of a frame, or the reason it is dropped. -/
def parseIp (s : State) (port : Nat) (e : Eth) : Except Nat Dgram :=
  let b := e.body
  if e.type = 0x0800 ∧ portCtl s port 30 30 = 1 then
    if b.length < 20 ∨ beAt b 0 1 / 16 ≠ 4 ∨ beAt b 9 1 ≠ 17 ∨ beAt b 16 4 ≠ portIp4 s port then .error 0
    else if beAt b 0 1 % 16 ≠ 5 ∨ beAt b 6 2 % 0x4000 ≠ 0 then .error 1
    else .ok ⟨sub b 12 4, sub b 16 4, false, b.drop 20, beAt b 2 2 - 20⟩
  else if e.type = 0x86DD ∧ portCtl s port 29 29 = 1 then
    if b.length < 40 ∨ beAt b 0 1 / 16 ≠ 6 ∨ beAt b 24 16 ≠ portIp6 s port then .error 0
    else if extHeader (beAt b 6 1) then .error 1
    else if beAt b 6 1 ≠ 17 then .error 0
    else .ok ⟨sub b 8 16, sub b 24 16, true, b.drop 40, beAt b 4 2⟩
  else .error 0
/-- Is the UDP checksum of a datagram of length `ulen` acceptable, over the bytes that are there? IPv6 requires one. -/
def udpOk (d : Dgram) (ulen : Nat) (udp : List Byte) : Bool :=
  let ck := beAt udp 6 2
  let pseudo := d.src ++ d.dst ++ natBE 4 ulen ++ natBE 4 17
  if ck = 0 then ! d.v6 else inetChecksum (pseudo ++ udp) == 0
/-- The UDP payload of a datagram, or the reason it is dropped, in the order of Table 9-3: port, checksum, length, envelope. -/
def parseUdp (s : State) (port : Nat) (d : Dgram) : Except Nat (List Byte) :=
  let ulen := beAt d.data 4 2
  if 4 ≤ d.data.length ∧ beAt d.data 2 2 ≠ portCtl s port 15 0 then .error 0
  else if d.data.length < 8 then .error 3
  else if ! udpOk d ulen (d.data.take (max 8 ulen)) then .error 2
  else if d.data.length < d.iplen ∨ ulen < 8 ∨ d.iplen < ulen then .error 3
  else
    let udp := d.data.take ulen
    let p := udp.drop 8
    if p.length < 32 then .error 3
    else if beAt p 0 2 ≠ 0x495A ∨ beAt p 2 1 ≠ 1 ∨ beAt p 3 1 % 2 = 1 ∨ beAt p 6 2 > 8192 then .error 4
    else if 32 + beAt p 6 2 ≠ p.length then .error 5
    else .ok p

/-! ## The item of a message (R83, R176, R182 to R185) -/

/-- The flow key of a row: none without a FLOW_COL, or the failure of a NULL (R185). -/
def rowFlow (g : Image) (x : Extract) : Except Unit (Option Nat) :=
  if g.flowCol = 0xFFFF then .ok none
  else
    let l := tgetD x.cols g.flowCol nullLane
    if l = nullLane then .error () else .ok (some (l.toNat % 2 ^ 64))
/-- Columns that a layout program writes. -/
def layoutCols (lm : Mem) : List Nat :=
  ((Lay.fields lm).filter (fun f => f.conv != 0)).map (·.col) ++ [Lay.mtiCol lm, Lay.tsCol lm].filter (· < 64)
/-- The CAM search that ingest makes for the first JOIN_PROBE of a plan (R410), none when it makes none. -/
def ingestSearch (s : State) (lc fn : Nat) (g : Image) (lm : Mem) (x : Extract) : State × Option (Option Nat) :=
  match (g.clausesOf 0).find? (fun c => c.kind == Kind.probe) with
  | none => (s, none)
  | some c =>
    let col := g.cb c 8
    let l := tgetD x.cols col nullLane
    if g.cb c 3 = 0xFF ∧ (layoutCols lm).contains col ∧ l ≠ nullLane then
      let q := camSearch s lc fn (l.toNat * 2 ^ 72 + g.cn c 48 9)
      (q.1, some (q.2.map (·.result)))
    else (s, none)
/-- Make the STANDING item of a message with its run of one task. -/
def makeStanding (s : State) (fn pid : Nat) (m : MsgInfo) (lc deadline : Nat) (flow : Option Nat) : State :=
  let it : Item := { fn := fn, queue := 0, localQ := 0, tag := 0, opcode := 0, subcode := 0, lc := lc, deadline := deadline, arrival := now s,
                     ordered := false, noIrq := false, flowKey := flow, ikey := none, desc := [], phase := .running,
                     msg := some m }
  let (id, s) := addItem s it
  let (f, s) := match flow with
    | none => (none, s)
    | some k => (match joinFlow s fn k id with
      | some (f, s) => (some f, s)
      | none => (none, s))
  let p := (getPlan s fn pid).getD { st := 0, image := [], imageLen := 0 }
  let r : Run := { fn := fn, planId := pid, standing := true, granted := p.tiles, binds := p.binds, waiting := false,
                   startAt := now s, arrival := m.rxTime, tasks := [(0, { pipe := 0, idx := 0, tile := 0, since := now s })],
                   nextTask := 1, started := [(0, 1)] }
  schedule (insertEntry (setRun s id r) 1 id it (some 0) f (some p.tiles))
/-- A message past its envelope and its duplicate checks, its PENDING entry made: extract, then make its item (reasons 9 to 11). A message
dropped here leaves its entry PENDING (R183). -/
def admitMessage (s : State) (port : Nat) (frame p : List Byte) (rx fn pid : Nat) : State :=
  let layout := beAt p 4 1
  let key := beAt p 8 8
  let lm := (getLayout s layout).mem
  let g := planImage s fn pid
  match layoutExtract lm rx (p.drop 32) with
  | none => drop s port 9 layout key rx
  | some x =>
    match rowFlow g x with
    | .error _ => drop s port 9 layout key rx
    | .ok flow =>
      let flowFull := match flow with
        | none => false
        | some k => ! flowOpen s fn k none
      if flowFull then
        drop { s with sched := { s.sched with flowFull := satAdd 32 s.sched.flowFull 1 } } port 10 layout key rx
      else if ! entryOpen s 1 then
        drop { s with sched := { s.sched with rlFull := satAdd 32 s.sched.rlFull 1 } } port 11 layout key rx
      else
        let fl := beAt p 3 1
        let lc := if bitOf fl 3 then fld fl 2 1 else g.defLc
        let budget := 1000 * rfld s (Reg.SCHED_LC_BUDGET0 + 8 * lc) 0 31 0
        let hint := beAt p 16 4
        let z := ingestSearch s lc fn g lm x
        let m : MsgInfo := { port := port, layout := layout, msgKey := key, rxTime := rx, request := p, frame := frame,
                             row := extractRow x, cam := z.2 }
        makeStanding z.1 fn pid m lc (rx + if hint = 0 then budget else min hint budget) flow
/-- A request with a good envelope: a keepalive, a duplicate, or a new message (R177, R183, R184). -/
def serveMessage (s : State) (port : Nat) (frame p : List Byte) : State :=
  let rx := now s
  let layout := beAt p 4 1
  let key := beAt p 8 8
  if beAt p 6 2 = 0 then
    let s := modPort s port (fun c => { c with keepalive := satAdd 16 c.keepalive 1 })
    sendFrame s port (replyFrame frame (replyEnvelope p 0 0))
  else
    let l := getLayout s layout
    match l.bound with
    | none => drop s port 6 layout key rx
    | some (fn, pid) =>
      if ! l.valid then drop s port 6 layout key rx
      else match cacheFind s key with
        | some e => (match e.doneAt, e.reply with
          | none, _ => drop s port 7 layout key rx
          | some _, none => s
          | some _, some u =>
            let s := modPort s port (fun c => { c with resent := satAdd 16 c.resent 1 })
            sendFrame s port (replyFrame frame (u.take 16 ++ natBE 4 0 ++ u.drop 20)))
        | none =>
          if fld key 47 0 ≤ tgetD s.ing.floors (fld key 63 48) 0 then drop s port 8 layout key rx
          else match cacheReserve s key with
            | none => drop s port 7 layout key rx
            | some s => admitMessage s port frame p rx fn pid

/-! ## INGEST_FRAME (R173, R174) -/

/-- INGEST_FRAME: a whole frame, without its FCS, arrives at port 0 or 1. -/
def doIngestFrame (port : Nat) (f : List Byte) (s : State) : State :=
  let rx := now s
  if port > 1 ∨ ! portsUp s ∨ (getPort s port).down then s
  else
    let e := parseEth f
    let vid := portCtl s port 27 16
    let tagged := match e.tag with
      | none => vid == 0
      | some t => vid != 0 && t % 4096 == vid
    if ! ingestServes s ∨ portCtl s port 31 31 = 0 ∨ f.length < 14 ∨ f.length + 4 > 9216 ∨ ! tagged then drop s port 0 0 0 rx
    else if e.type = 0x0806 then
      if portCtl s port 30 30 = 1 ∧ e.body.length ≥ 28 ∧ beAt e.body 0 8 = 0x0001080006040001 ∧ beAt e.body 24 4 = portIp4 s port then
        sendFrame s port (arpReply s port e)
      else drop s port 0 0 0 rx
    else if e.type = 0x86DD ∧ portCtl s port 29 29 = 1 ∧ e.body.length ≥ 64 ∧ beAt e.body 6 1 = 58 ∧ beAt e.body 40 1 = 135
        ∧ beAt e.body 48 16 = portIp6 s port then sendFrame s port (naReply s port e)
    else match parseIp s port e with
      | .error k => drop s port k 0 0 rx
      | .ok d =>
        match parseUdp s port d with
        | .error 5 =>
          let p := (d.data.take (beAt d.data 4 2)).drop 8
          drop s port 5 (beAt p 4 1) (beAt p 8 8) rx
        | .error k => drop s port k 0 0 rx
        | .ok p => serveMessage s port f p

/-! ## Reply cache, layouts and floors (R181, R184) -/

/-- REPLY_CACHE_EXPIRY: DONE entries of 10 s and more are removed. -/
def doReplyCacheExpiry (s : State) : State :=
  (s.ing.cache.filter (fun e => match e.doneAt with
    | some t => decide (t + 10000000000 ≤ now s)
    | none => false)).foldl (fun s e => cacheRemove s e.key) s
/-- The layout that a path's ING_LAYOUT_SEL selects. -/
def selLayout (s : State) (p : Path) : Nat := fld (selGet s p Reg.ING_LAYOUT_SEL) 7 0
/-- LAYOUT_VALIDATE: a write of ING_LAYOUT_CTL.VALID = 1. -/
def doLayoutValidate (p : Path) (s : State) : State :=
  let l := getLayout s (selLayout s p)
  if l.valid then s
  else
    let c := layoutCheck l.mem
    setLayout s (selLayout s p) { l with valid := c.1 == 0, err := c.1, errAt := c.2 }
/-- LAYOUT_INVALIDATE: a write of VALID = 0, discarded while the layout is bound. -/
def doLayoutInvalidate (p : Path) (s : State) : State :=
  let l := getLayout s (selLayout s p)
  if l.bound.isSome then s else setLayout s (selLayout s p) { l with valid := false }
/-- LAYOUT_MEM_WRITE: bytes at an offset of the ING_LAYOUT_MEM window, discarded while VALID is 1. -/
def doLayoutMemWrite (p : Path) (off : Nat) (bytes : List Byte) (s : State) : State :=
  let l := getLayout s (selLayout s p)
  if l.valid ∨ off + bytes.length > 4096 then s else setLayout s (selLayout s p) { l with mem := mwrite l.mem off bytes }
/-- GW_FLOOR_WRITE: a write of ING_GW_FLOOR for the gateway that the path's ING_GW_SEL selects. -/
def doGwFloorWrite (p : Path) (v : Nat) (s : State) : State :=
  let gw := fld (selGet s p Reg.ING_GW_SEL) 15 0
  { s with ing := { s.ing with floors := tset s.ing.floors gw (max (tgetD s.ing.floors gw 0) (fld v 47 0)) } }

end Sys2Proof.Machine
end

