-- ==== Sys2Proof/Machine/RegRead.lean ====
section
/-! DEFINITION. What a register read returns (spec/23_register_conventions.md, R473 to R488, and the register tables of the
chapters): where an offset leads, the selected instance, every live field, and the halves of 4-byte accesses. -/

namespace Sys2Proof.Machine
open Sys2Proof

/-! ## Where an offset of BAR0 leads (Tables 23-1, 23-2, 23-5) -/

inductive RegTarget where
  /-- the register whose FN 0 offset is `off` -/
  | reg (off : Nat)
  | errlog (o : Nat)
  | layMem (o : Nat)
  | mbox (o : Nat)
  | evlog (o : Nat)
  | msix (o : Nat)
  | pba (o : Nat)
deriving DecidableEq, Repr

/-- Slots of a virtual function's blocks that stay reserved (R474). -/
def vfLacks (off : Nat) : Bool :=
  [Reg.QM_OVF_POOL, Reg.QM_IKEY_CTL, Reg.QM_IKEY_STAT, Reg.FN_SEL, Reg.FN_OWN_SEL, Reg.FN_OWN, Reg.FN_RSZ_STAT].contains off
    || decide (Reg.CIPH_KEY_STAT < off ∧ off ≤ Reg.CIPH_CNT)
/-- A register slot, if there is one at the offset. -/
def regSlot (off : Nat) : Option RegTarget := if (regFields off).isSome then some (.reg off) else none
/-- The target of an offset of FN 0's BAR0 (Table 23-5); none for a reserved offset. -/
def target0 (a : Nat) : Option RegTarget :=
  if 0x710000 ≤ a ∧ a < 0x711000 then some (.errlog (a - 0x710000))
  else if 0xA10000 ≤ a ∧ a < 0xA11000 then some (.layMem (a - 0xA10000))
  else if 0x1010000 ≤ a ∧ a < 0x1011000 then some (.mbox (a - 0x1010000))
  else if 0x1210000 ≤ a ∧ a < 0x1214000 then some (.evlog (a - 0x1210000))
  else if 0x2000000 ≤ a ∧ a < 0x2008000 then some (.msix (a - 0x2000000))
  else if 0x2008000 ≤ a ∧ a < 0x2008100 then some (.pba (a - 0x2008000))
  else regSlot (a / 8 * 8)
/-- The target of an offset of a virtual function's BAR0 (Table 23-2). -/
def targetVf (a : Nat) : Option RegTarget :=
  let slot := fun (off : Nat) => if vfLacks off then none else regSlot off
  if a < 8 then some (.reg Reg.TOP_DEVICE_ID)
  else if 0x1000 ≤ a ∧ a < 0x2000 then slot (Reg.QM_Q_SEL + (a - 0x1000) / 8 * 8)
  else if 0x2000 ≤ a ∧ a < 0x3000 then slot (Reg.FN_SEL + (a - 0x2000) / 8 * 8)
  else if 0x3000 ≤ a ∧ a < 0x4000 then slot (Reg.CIPH_KEY_SEL + (a - 0x3000) / 8 * 8)
  else if 0x4000 ≤ a ∧ a < 0x5000 then some (.errlog (a - 0x4000))
  else if 0x8000 ≤ a ∧ a < 0x8200 then some (.msix (a - 0x8000))
  else if 0x9000 ≤ a ∧ a < 0x9008 then some (.pba (a - 0x9000))
  else none
def targetOf (fn a : Nat) : Option RegTarget := if fn = 0 then target0 a else targetVf a
/-- Does the SMBus bridge reach the target: the TOP, AON, PWR, RAS and TEL blocks; to write, three registers (R480)? -/
def smbusMay (write : Bool) : RegTarget → Bool
  | .reg off => if write then off == Reg.TOP_MODE_REQ || off == Reg.PWR_LIMIT || off == Reg.PWR_TRIP
      else [0, 1, 2, 17, 18].contains (off / 0x100000)
  | .evlog _ => ! write
  | _ => false
/-- Targets that answer in Lockdown (R432). -/
def lockdownOpen : RegTarget → Bool
  | .reg off => off == Reg.TOP_DEVICE_ID || off == Reg.TOP_MODE || off / 0x100000 == 16 || off == Reg.TEL_EVLOG_STAT
  | .mbox _ | .evlog _ => true
  | _ => false
/-- Does the target answer in the mode in force? The Sill core's own accesses are not limited by Lockdown. -/
def regOpen (s : State) (p : Path) (t : RegTarget) : Bool := modeOf s != Mode.lockdown || p == .sill || lockdownOpen t

/-! ## Instances (R481) -/

/-- Number of the instance that a path's selectors show of a register, in the BAR0 of `fn`; none when they show none. -/
def regInst (s : State) (p : Path) (fn off : Nat) : Option Nat :=
  if [Reg.QM_SQ_BASE, Reg.QM_CQ_BASE, Reg.QM_Q_CTL, Reg.QM_Q_CFG].contains off then devQueue s fn (fld (selGet s p Reg.QM_Q_SEL) 11 0)
  else if off = Reg.QM_FN_EVT then some fn
  else if off = Reg.SC_FN_PART then some (fld (selGet s p Reg.SC_FN_SEL) 7 0)
  else if off = Reg.DMA_CH_CFG then some (fld (selGet s p Reg.DMA_CH_SEL) 4 0)
  else if off = Reg.LED_INIT then some (fld (selGet s p Reg.LED_INIT_SEL) 4 0)
  else if off = Reg.DMC_DLY_VAL then (if fld (selGet s p Reg.DMC_DLY_SEL) 3 0 = 15 then none else some (dlyInst s p off))
  else if off = Reg.DMC_DLY_BIN then some (dlyInst s p off)
  else if off = Reg.ING_LAYOUT_CTL then some (selLayout s p)
  else some 0
/-- Function that owns an instance, 0 for a device-wide one (R482). -/
def instOwner (s : State) (off inst : Nat) : Nat :=
  if off = Reg.QM_FN_EVT then inst else if parOwned off then queueHolder s inst else 0
/-- Selector value that shows an instance (R483): a queue's local number, the subchannel and pin, or the channel's first
subchannel. -/
def instSel (s : State) (off inst : Nat) : Nat :=
  if off = Reg.QM_FN_EVT then 0
  else if parOwned off then inst - (queueRange s (queueHolder s inst)).1
  else if off = Reg.DMC_DLY_VAL then inst / 16 * 256 + inst % 16
  else if off = Reg.DMC_DLY_BIN then 2 * inst * 256
  else inst
/-- TOP_CFG_PAR: the mismatching instance of the lowest FN, offset and instance. -/
def cfgPar (s : State) : Nat :=
  let key := fun (b : Nat × Nat) => instOwner s b.1 b.2 * 2 ^ 42 + b.1 * 2 ^ 16 + instSel s b.1 b.2
  match s.regs.bad with
  | [] => 0
  | b :: bs =>
    let k := bs.foldl (fun m x => min m (key x)) (key b)
    2 ^ 63 + k / 2 ^ 42 * 2 ^ 48 + k % 2 ^ 16 * 2 ^ 32 + k / 2 ^ 16 % 2 ^ 26

/-! ## Live fields, block by block -/

/-- The copy of an AON register as of the last edge (R484). -/
def aonRead (s : State) (off : Nat) : Nat :=
  tgetD s.regs.aon off (if off = Reg.TOP_MODE then 2 else if off = Reg.AON_WAKE then 9 else 0)
def readTop (s : State) (off : Nat) : Nat :=
  if off = Reg.TOP_DEVICE_ID then 0x7200 * 65536 + (if s.code512 then 2 else 1) * 4096 + 256
  else if off = Reg.TOP_CFG_PAR then cfgPar s
  else if off = Reg.TOP_CFG_PAR_CNT then s.regs.parCnt
  else aonRead s off
def readAon (s : State) (off : Nat) : Nat :=
  if off = Reg.AON_STATUS then b2n (! s.regs.posted.isEmpty) else aonRead s off
def clCode : ClState → Nat
  | .gated => 0
  | .waking => 1
  | .clockGated => 2
  | .active => 3
def readPwr (s : State) (p : Path) (off : Nat) : Nat :=
  if off = Reg.PWR_CL_STAT then
    let c := fld (selGet s p Reg.PWR_CL_SEL) 3 0
    clCode (getCluster s c).st * 2 ^ 30 + b2n (clProtected s c) * 2 ^ 29 + (getCluster s c).step * 2 ^ 27 + clMhz s c / 20 * 2 ^ 20
      + min (tgetD s.pwr.clusterMw c 0) 0xFFFFF
  else if off = Reg.PWR_SENS then unsgn 12 (tgetD s.pwr.temps (fld (selGet s p Reg.PWR_SENS_SEL) 5 0) 0)
  else if off = Reg.PWR_STAT then min s.pwr.mwTotal 0xFFFFFFFF * 2 ^ 32 + b2n s.pwr.therm * 2 + b2n s.pwr.limiting
  else regGet s off 0
/-- Entries READY or SUSPENDED that are eligible for a tile (SCHED_TILE_STAT.DEPTH). -/
def tileDepth (s : State) (ts : List Nat) : Nat :=
  (s.sched.entries.filter (fun e => (e.2.st == .ready || e.2.st == .suspended) && (eligTiles s e.2).any ts.contains)).length
def savesUsed (s : State) (t : Nat) : Nat := (s.sched.entries.filter (fun e => e.2.st == .suspended && e.2.tile == some t)).length
def readTileStat (s : State) (t : Nat) : Nat :=
  busyFrac s t 1000000000 * 2 ^ 48 + busyFrac s t 1000000 * 2 ^ 32 + savesUsed s t * 2 ^ 28 + tileDepth s [t]
/-- The same over all tiles: the sum, and the mean busy fractions (R171). -/
def readTileStatAll (s : State) : Nat :=
  let mean := fun (w : Nat) => ((List.range 128).foldl (fun n t => n + busyFrac s t w) 0) / 128
  mean 1000000000 * 2 ^ 48 + mean 1000000 * 2 ^ 32 + (min 15 ((List.range 128).foldl (fun n t => n + savesUsed s t) 0)) * 2 ^ 28
    + min 0x7FFF ((List.range 128).foldl (fun n t => n + tileDepth s [t]) 0)
def readSched (s : State) (p : Path) (off : Nat) : Nat :=
  let tsel := selGet s p Reg.SCHED_TILE_SEL
  let t := fld tsel 7 0
  let psel := selGet s p Reg.SCHED_PLAN_SEL
  let pl := getPlan s (fld psel 23 16) (fld psel 9 0)
  let ssel := selGet s p Reg.SCHED_STATE_SEL
  let st := tget s.plans.stabs (fld ssel 23 16 * 64 + fld ssel 5 0)
  if off = Reg.SCHED_TILE_STAT then (if t < 128 then readTileStat s t else if t = 128 then readTileStatAll s else 0)
  else if Reg.SCHED_WAIT_HIST0 ≤ off ∧ off ≤ Reg.SCHED_WAIT_HIST15 then
    let b := (off - Reg.SCHED_WAIT_HIST0) / 8
    let one := fun (t : Nat) => tgetD s.sched.hist ((t * 4 + fld tsel 9 8) * 16 + b) 0
    if t < 128 then one t else if t = 128 then min 0xFFFFFFFF ((List.range 128).foldl (fun n t => n + one t) 0) else 0
  else if Reg.SCHED_MISS0 ≤ off ∧ off ≤ Reg.SCHED_MISS3 then tgetD s.sched.misses ((off - Reg.SCHED_MISS0) / 8) 0
  else if off = Reg.SCHED_OCC then
    s.sched.flows.length * 2 ^ 32 + (s.sched.entries.filter (fun e => e.2.st == .blocked)).length * 2 ^ 16 + s.sched.entries.length
  else if off = Reg.SCHED_FULL_CNT then s.sched.rlFull * 2 ^ 32 + s.sched.flowFull
  else if Reg.SCHED_WIN_DATA0 ≤ off ∧ off ≤ Reg.SCHED_WIN_DATA4 then
    ((tgetD s.sched.snaps (pathNum p) [])[(off - Reg.SCHED_WIN_DATA0) / 8]?).getD 0
  else if off = Reg.SCHED_PLAN_INFO then
    (match pl with
    | none => 0
    | some q => q.st * 2 ^ 61 + (if q.st = 3 then q.layout else 0) * 2 ^ 48
        + min 0xFFFF (planActive s (fld psel 23 16) (fld psel 9 0)) * 2 ^ 32 + q.imageLen)
  else if Reg.SCHED_PLAN_DIGEST0 ≤ off ∧ off ≤ Reg.SCHED_PLAN_DIGEST5 then
    (pl.map (fun q => leAt q.digest (off - Reg.SCHED_PLAN_DIGEST0) 8)).getD 0
  else if off = Reg.SCHED_PLAN_CNT then (pl.map (fun q => q.sat * 2 ^ 32 + q.wrapnull)).getD 0
  else if off = Reg.SCHED_STATE_INFO then
    (match st with
    | none => 0
    | some q =>
      let refs := (s.plans.plans.filter (fun x => x.1 / 1024 == fld ssel 23 16 && (readImage x.2.image).stids.contains (fld ssel 5 0))).length
      2 ^ 63 + q.cbits * 2 ^ 52 + (q.nb - 1) * 2 ^ 48 + q.slotLines * 2 ^ 40 + min 255 refs * 2 ^ 32 + q.base / 256)
  else if off = Reg.SCHED_STATE_CNT then (st.map (fun q => q.evict * 2 ^ 32 + q.stale)).getD 0
  else if off = Reg.SCHED_STATE_POOL then
    s.plans.poolSize * 2 ^ 32 + (s.plans.poolSize - s.plans.stabs.foldl (fun n q => n + q.2.mib) 0)
  else regGet s off 0
/-- State code of a physical way: in service, spare, retired. -/
def wayState (s : State) (slice w : Nat) : Nat := tgetD s.cache.wstate (slice * 18 + w) (if w ≥ 16 then 1 else 0)
def readWay (s : State) (slice w : Nat) : Nat :=
  if w > 17 ∨ slice > 31 then 0
  else
    let st := wayState s slice w
    let ce := min 16 ((tgetD s.cache.ce (slice * 18 + w) []).filter (fun t => decide (now s ≤ t + 1000000000))).length
    let l := if st = 0 then ((List.range 16).find? (fun v => physWay s slice v == w)).getD 0 else 0
    let use := if st ≠ 0 then 0 else if isOff s l then 3 else if isScratch s l then 2 else if isLocked s l then 1 else 0
    st * 2 ^ 30 + use * 2 ^ 28 + l * 2 ^ 24 + ce * 2 ^ 8
def readSc (s : State) (p : Path) (fn off : Nat) : Nat :=
  if off = Reg.SC_WAY_STAT then
    let w := selGet s p Reg.SC_WAY_SEL
    readWay s (fld w 12 8) (fld w 4 0)
  else ((regInst s p fn off).map (regGet s off)).getD 0
def readDmc (s : State) (p : Path) (fn off : Nat) : Nat :=
  if off = Reg.DMC_STATUS then dmcStatus s
  else if off = Reg.DMC_CH_STAT then dmcChStat s (fld (selGet s p Reg.DMC_CH_SEL) 6 0)
  else if off = Reg.DMC_DLY_APPLY then 0
  else if off = Reg.DMC_DLY_PEND then s.dmc.pend.foldl (fun n c => n + 2 ^ c) 0
  else if off = Reg.DMC_PPR_ENT then dmcPprEnt s (fld (selGet s p Reg.DMC_PPR_SEL) 10 4) (fld (selGet s p Reg.DMC_PPR_SEL) 3 0)
  else if off = Reg.DMC_EPOCH then aonRead s off
  else ((regInst s p fn off).map (regGet s off)).getD 0
/-- Has a completion ring entries the host owns (R298)? -/
def cqPending (s : State) (r : Nat) : Bool := (getQ s r).cqTail != (getQ s r).cqHead
def fnQueues (s : State) (fn : Nat) : List Nat := (List.range (queueRange s fn).2).map (fun i => (queueRange s fn).1 + i)
def readQStat (s : State) (d : Nat) : Nat :=
  let q := getQ s d
  let r := ringOf s d
  b2n (q.st == .frozen) * 2 ^ 63 + b2n (! (getQ s r).overflow.isEmpty) * 2 ^ 62 + b2n (cqPending s r) * 2 ^ 61 + stallOf s d * 2 ^ 58
    + min 0xFFFF (s.qm.items.filter (fun p => p.2.msg.isNone && p.2.queue == d)).length * 2 ^ 32 + q.head * 2 ^ 16 + (getQ s r).cqTail
def readQm (s : State) (p : Path) (fn off : Nat) : Nat :=
  let dq := devQueue s fn (fld (selGet s p Reg.QM_Q_SEL) 11 0)
  let onQ := fun (f : Nat → Nat) => (dq.map f).getD 0
  if off = Reg.QM_Q_CTL then onQ (fun d => b2n ((getQ s d).st != .disabled) * 2 ^ 31 + (getQ s d).ctlErr)
  else if off = Reg.QM_Q_STAT then onQ (readQStat s)
  else if off = Reg.QM_CQ_BACKLOG then onQ (fun d => (getQ s (ringOf s d)).overflow.length)
  else if off = Reg.QM_Q_ERR then onQ (fun d => let q := getQ s d; q.errTag * 2 ^ 48 + q.errStatus * 2 ^ 32 + q.errSeq)
  else if off = Reg.QM_Q_CNT then onQ (fun d => let q := getQ s d; q.fetched * 2 ^ 32 + q.notOwn * 2 ^ 16 + q.freezes)
  else if off = Reg.QM_FN_INFO then vectorsOf s fn * 2 ^ 32 + (queueRange s fn).2
  else if off = Reg.QM_FN_STAT then
    let qs := s.qm.queues.filter (fun q => queueHolder s q.1 == fn)
    b2n (qs.any (fun q => q.2.st == .frozen)) * 4 + b2n (qs.any (fun q => ! q.2.overflow.isEmpty)) * 2
      + b2n (qs.any (fun q => q.2.cqTail != q.2.cqHead))
  else if off = Reg.QM_ERRLOG_STAT then (errLogOf s fn).nextSeq * 2 ^ 32 + (errLogOf s fn).overwritten
  else if off = Reg.QM_OVF_POOL then ovfUsed s
  else if off = Reg.QM_IKEY_STAT then s.qm.ikeyRemoved * 2 ^ 32 + s.qm.ikeys.length
  else ((regInst s p fn off).map (regGet s off)).getD 0
def readDma (s : State) (p : Path) (fn off : Nat) : Nat :=
  let c := fld (selGet s p Reg.DMA_CH_SEL) 4 0
  if off = Reg.DMA_CH_STAT then
    (match tget s.dma.chan c with
    | none => chanLevel s c * 2 ^ 61
    | some x => 2 ^ 63 + chanLevel s c * 2 ^ 61 + x.fn * 2 ^ 53 + min x.pos 0xFFFF * 2 ^ 29 + (Config.dmaStaged s.freeCtr c).toNat)
  else if off = Reg.DMA_CH_CNT then tgetD s.dma.segs c 0 * 2 ^ 32 + (Config.dmaLost s.freeCtr c).toNat
  else if off = Reg.DMA_LVL_WAIT then
    (List.range 4).foldl (fun n l => n + min 0xFFFF (s.dma.wait.filter (fun x => x.level == l)).length * 2 ^ (16 * l)) 0
  else ((regInst s p fn off).map (regGet s off)).getD 0
/-- Units of a kind that a function holds. -/
def unitsHeld (s : State) (kind fn : Nat) : Nat :=
  let t := unitTab s kind
  ((List.range t.2).filter (fun u => holder t.1 u == fn)).length
/-- The FN_RESIZE that FN_RSZ_STAT shows: the one in progress, or the earliest that has been consumed. -/
def resizeShown (s : State) : Option Item :=
  match s.fns.resize.bind (fun r => getItem s r.item) with
  | some it => some it
  | none => ((s.qm.items.map (·.2)).filter (fun x => x.msg.isNone && x.opcode == 0x60 && x.subcode == 4 && x.dupOf.isNone && ! x.isDup
      && (x.phase == .queued || x.phase == .running))).head?
def readFn (s : State) (p : Path) (fn off : Nat) : Nat :=
  let f := if fn = 0 then fld (selGet s p Reg.FN_SEL) 7 0 else fn
  let rz := s.fns.resize
  let leavesWin := fun (w : Window) => rz.any (fun r => r.kind == 9 && r.fromFn == f
    && r.left.any (fun u => decide (w.base ≤ u * 0x200000) && decide (u * 0x200000 < w.base + w.size)))
  if off = Reg.FN_RES then
    unitsHeld s 1 f * 2 ^ 56 + (queueRange s f).2 * 2 ^ 43 + unitsHeld s 5 f * 2 ^ 38 + unitsHeld s 6 f * 2 ^ 31 + unitsHeld s 7 f * 2 ^ 24
      + unitsHeld s 8 f * 2 ^ 15 + (winsOf s f).length * 2 ^ 10 + tgetD s.fns.nvec f 0 * 2 ^ 4 + rfld s Reg.SC_FN_PART f 2 0 * 2
      + b2n (fnExists s f)
  else if off = Reg.FN_STAT then
    b2n (rz.any (fun r => r.fromFn == f && r.kind != 3 && r.kind != 4 && ! r.left.isEmpty)) * 2 + b2n (s.dma.chan.any (fun c => c.2.fn == f))
  else if off = Reg.FN_WIN then
    (match (winsOf s f)[fld (selGet s p Reg.FN_WIN_SEL) 3 0]? with
    | none => 0
    | some w => 2 ^ 63 + b2n (leavesWin w) * 2 ^ 62 + w.size / 0x200000 * 2 ^ 40 + w.base / 0x200000 * 2 ^ 21)
  else if off = Reg.FN_OWN then
    let o := selGet s p Reg.FN_OWN_SEL
    let u := fld o 11 0
    if fld o 15 12 = 2 then (if u < 4096 then b2n (leavingUnit s 2 u) * 256 + queueHolder s u else 0)
    else
      let t := unitTab s (fld o 15 12)
      if u < t.2 then b2n (leavingUnit s (fld o 15 12) u) * 256 + holder t.1 u else 0
  else if off = Reg.FN_RSZ_STAT then
    (match resizeShown s with
    | none => 0
    | some it =>
      2 ^ 63 + it.body 32 1 * 2 ^ 48 + it.body 33 1 * 2 ^ 40 + it.body 34 1 * 2 ^ 32 + it.tag * 2 ^ 16
        + min 0xFFFF (((rz.map (·.waitFor)).getD []).countP (fun i => (getItem s i).isSome)))
  else ((regInst s p fn off).map (regGet s off)).getD 0
def readIng (s : State) (p : Path) (off : Nat) : Nat :=
  let port := if off < Reg.ING_PORT1_CTL then 0 else 1
  let o := off - port * (Reg.ING_PORT1_CTL - Reg.ING_PORT0_CTL)
  let c := tgetD s.ing.ports port {}
  if off = Reg.ING_LAYOUT_CTL then
    let k := selLayout s p
    let l := getLayout s k
    b2n l.valid * 2 ^ 31 + b2n l.bound.isSome * 2 ^ 30 + holder s.fns.layoutFn k * 2 ^ 16 + l.err * 2 ^ 8 + l.errAt
  else if off = Reg.ING_REPORT then min s.ing.lost 0xFFFFFFFF * 2 ^ 32 + regGet s off 0 % 2 ^ 32
  else if off = Reg.ING_GW_FLOOR then tgetD s.ing.floors (fld (selGet s p Reg.ING_GW_SEL) 15 0) 0
  else if off = Reg.ING_CACHE_STAT then
    let old := s.ing.cache.filterMap (·.doneAt)
    let age := match old with
      | [] => 0
      | t :: ts => now s - ts.foldl min t
    min (age / 1000000) 0xFFFFFFFF * 2 ^ 32 + s.ing.cache.length
  else if off < Reg.ING_LAYOUT_SEL ∧ o = Reg.ING_PORT0_STAT then c.keepalive * 2 ^ 48 + c.replyFit * 2 ^ 32 + c.itemFail * 2 ^ 16 + c.resent
  else if off < Reg.ING_LAYOUT_SEL ∧ Reg.ING_PORT0_DROP0 ≤ o then tgetD c.drops ((o - Reg.ING_PORT0_DROP0) / 8) 0
  else regGet s off 0
def readLed (s : State) (p : Path) (fn off : Nat) : Nat :=
  let v := fld (selGet s p Reg.LED_VOL_SEL) 5 0
  let x := getVol s v
  let l := s.led
  if off = Reg.LED_POOL_STAT then
    b2n l.pool.isSome * 2 ^ 63 + b2n (l.pool.isSome && (inService s).length == 1 && l.drives.length == 2) * 2 ^ 62 + b2n l.conflict * 2 ^ 61
      + b2n l.snap.isSome * 2 ^ 60
      + (match l.op with
        | none => 0
        | some o => 2 ^ 59 + o.kind * 2 ^ 56 + o.vol * 2 ^ 48)
      + l.durSeq % 2 ^ 48
  else if off = Reg.LED_VOL_CFG then
    x.p.kind * 2 ^ 62 + x.p.policy * 2 ^ 60 + x.p.omode * 2 ^ 58 + b2n x.p.ovl * 2 ^ 57 + x.p.peerVol * 2 ^ 51 + x.p.groupUs * 2 ^ 40 + x.p.nblocks
  else if off = Reg.LED_VOL_STAT then
    b2n x.frozen * 2 ^ 63 + b2n x.busy * 2 ^ 62 + x.errStatus * 2 ^ 32 + (l.cmds.filter (fun c => c.2.vol == v)).length
  else if off = Reg.LED_VOL_REC then (if x.p.kind = 2 then x.p.nextRec else 0)
  else if off = Reg.LED_VOL_FIRST then (if x.p.kind = 2 then x.p.firstRec else 0)
  else if off = Reg.LED_VOL_CNT then x.appendLost * 2 ^ 32 + x.freezes
  else if off = Reg.LED_DRV_STAT then (tgetD l.drives (fld (selGet s p Reg.LED_DRV_SEL) 0 0) {}).st * 2 ^ 61 + min (spareFree s) 0xFFFFFFFF
  else if off = Reg.LED_CNT then l.retries * 2 ^ 32 + l.dups * 2 ^ 16 + l.logWait
  else ((regInst s p fn off).map (regGet s off)).getD 0
def readBry (s : State) (off : Nat) : Nat :=
  let n := if off < Reg.BRY_PORT1_CTL then 0 else 1
  let o := off - n * (Reg.BRY_PORT1_CTL - Reg.BRY_PORT0_CTL)
  let p := bryPort s n
  if o = Reg.BRY_PORT0_PEER then p.peer
  else if o = Reg.BRY_PORT0_STAT then
    p.st * 2 ^ 61 + p.cause * 2 ^ 58 + b2n p.spareTx.isSome * 2 ^ 57 + b2n p.spareRx.isSome * 2 ^ 56 + p.spareTx.getD 0 * 2 ^ 54
      + p.spareRx.getD 0 * 2 ^ 52 + b2n (samePeer s) * 2 ^ 51 + min p.rttUs 0xFFFF * 2 ^ 16
      + min 16384 (ceilDiv (256 * p.unacked.length) 4096)
  else if o = Reg.BRY_PORT0_CNT0 then p.fecCorr * 2 ^ 32 + p.fecUncorr
  else if o = Reg.BRY_PORT0_CNT1 then
    p.crcErr * 2 ^ 48 + p.replays * 2 ^ 32 + p.swaps * 2 ^ 24 + p.retrains * 2 ^ 16 + p.authFail * 2 ^ 8 + p.pktDiscard * 2 ^ 4 + p.dataDiscard
  else regGet s off 0
/-- CIPH_KEY_STAT: a slot that the function does not hold shows ERR alone (R390). -/
def readKeyStat (s : State) (p : Path) (fn : Nat) : Nat :=
  let k := fld (keySelOf s p) 5 0
  let e := tgetD s.ciph.err fn 0 * 2 ^ 59
  if holder s.fns.keyFn k ≠ fn then e
  else
    let z := keySlot s k
    b2n (slotPresent s k) * 2 ^ 63 + b2n z.erasing * 2 ^ 62 + e
      + (if z.typ ≠ 0 then z.typ * 2 ^ 44 + z.usage * 2 ^ 39 + z.key.length * 2 ^ 32 + min 255 (slotUsers s k) * 2 ^ 24
          + leNat (kcvOf z.typ z.key) else 0)
def readCiph (s : State) (p : Path) (fn off : Nat) : Nat :=
  let c := s.ciph
  if off = Reg.CIPH_KEY_STAT then readKeyStat s p fn
  else if Reg.CIPH_KEY_DATA0 ≤ off ∧ off ≤ Reg.CIPH_KEY_CMD then 0
  else if off = Reg.CIPH_STAT then
    (c.creqs.filter (fun r => r.2.ctxSlot.isSome)).length * 2 ^ 23 + (c.creqs.filter (fun r => r.2.core.isSome)).length * 2 ^ 19
      + b2n c.spareIn * 2 ^ 18
  else if off = Reg.CIPH_WAIT then
    (List.range 5).foldl (fun n q => n + min 4095 (c.creqs.filter (fun r => r.2.core.isNone && r.2.prio == q)).length * 2 ^ (12 * q)) 0
  else if off = Reg.CIPH_CNT then c.suspends * 2 ^ 32 + c.ctxFull
  else regGet s off 0
def readDig (s : State) (off : Nat) : Nat :=
  if off = Reg.DIG_STAT then (s.ciph.dreqs.filter (fun r => r.2.core.isSome)).length
  else s.ciph.compares * 2 ^ 32 + s.ciph.cmpFaults
def readSec (s : State) (off : Nat) : Nat :=
  if off = Reg.SEC_STATUS then secStatus s
  else if off = Reg.SEC_DBG then b2n s.sec.debugOpen
  else if off = Reg.SEC_DEVSER then Config.devser.toNat
  else if off = Reg.SEC_MBOX_STAT then b2n (s.sec.reqs.any (fun r => r.src == 0)) * 2 ^ 63 + s.sec.status * 2 ^ 32 + s.sec.answer.length
  else regGet s off 0
def readRas (s : State) (p : Path) (off : Nat) : Nat :=
  let r := s.ras
  let ways := (List.range 32).foldl (fun n i => n + b2n (wayState s i 16 == 1) + b2n (wayState s i 17 == 1)) 0
  if off = Reg.RAS_SPARE_INV then
    ((List.range 16).filter (spareFreeIn s)).length * 2 ^ 59 + ways * 2 ^ 52 + (1 - rfld s Reg.CAM_STAT 0 17 17) * 2 ^ 51 + r.ciphFree * 2 ^ 50
      + r.lanesFree * 2 ^ 47 + pprFree s * 2 ^ 35 + r.sramFree * 2 ^ 20 + min 0xFFFFF (spareFree s / 1024)
  else if off = Reg.RAS_STATUS then
    b2n (modeOf s == Mode.recover) * 2 ^ 31 + b2n r.degraded * 2 ^ 30 + (r.rcv.map (·.kind)).getD 0 * 2 ^ 26
  else if off = Reg.RAS_TILE_MAP then
    let c := fld (selGet s p Reg.RAS_CL_SEL) 3 0
    r.pstateOf c * 2 ^ 32 + r.lmapOf c
  else if off = Reg.RAS_CNT then
    let k := fld (selGet s p Reg.RAS_CNT_SEL) 3 0
    if k > 10 then 0 else tgetD r.transient k 0 * 2 ^ 32 + tgetD r.lasting k 0
  else if off = Reg.RAS_REC then r.recCount * 2 ^ 32 + min r.maxUs 0xFFFF * 2 ^ 16 + min r.lastUs 0xFFFF
  else 0

/-! ## Reads -/

/-- Is a register a selector (R479)? -/
def isSel (off : Nat) : Bool :=
  [Reg.PWR_CL_SEL, Reg.PWR_SENS_SEL, Reg.SCHED_TILE_SEL, Reg.SCHED_WIN_SEL, Reg.SCHED_PLAN_SEL, Reg.SCHED_STATE_SEL, Reg.SC_FN_SEL,
   Reg.SC_WAY_SEL, Reg.DMC_CH_SEL, Reg.DMC_DLY_SEL, Reg.DMC_PPR_SEL, Reg.QM_Q_SEL, Reg.DMA_CH_SEL, Reg.FN_SEL, Reg.FN_WIN_SEL,
   Reg.FN_OWN_SEL, Reg.ING_LAYOUT_SEL, Reg.ING_GW_SEL, Reg.LED_VOL_SEL, Reg.LED_DRV_SEL, Reg.LED_INIT_SEL, Reg.CIPH_KEY_SEL,
   Reg.SEC_MBOX_PAGE, Reg.RAS_CL_SEL, Reg.RAS_CNT_SEL].contains off
/-- All fields of the register at FN 0 offset `off`, read on a path in the BAR0 of `fn`, at one instant (R478). -/
def readVal (s : State) (p : Path) (fn off : Nat) : Nat :=
  if isSel off then selGet s p off
  else match off / 0x100000 with
    | 0 => readTop s off
    | 1 => readAon s off
    | 2 => readPwr s p off
    | 3 => readSched s p off
    | 5 => readSc s p fn off
    | 6 => readDmc s p fn off
    | 7 => readQm s p fn off
    | 8 => readDma s p fn off
    | 9 => readFn s p fn off
    | 10 => readIng s p off
    | 11 => readLed s p fn off
    | 12 => readBry s off
    | 13 => readCiph s p fn off
    | 14 => readDig s off
    | 16 => readSec s off
    | 17 => readRas s p off
    | 18 => aonRead s off
    | _ => regGet s off 0
/-- `n` bytes of a log's window at offset `o`; a slot never written reads SEQ 0xFFFF_FFFF (R509). -/
def logBytes (l : Log) (o n : Nat) : List Byte := sub (tgetD l.slots (o / 64) (natLE 4 0xFFFFFFFF)) (o % 64) n
/-- `n` bytes at a target, as a number (windows are read like memory). -/
def readTarget (s : State) (p : Path) (fn n : Nat) : RegTarget → Nat
  | .reg off => readVal s p fn off % 2 ^ (8 * n)
  | .errlog o => leNat (logBytes (errLogOf s fn) o n)
  | .layMem o => mnat (getLayout s (selLayout s p)).mem o n
  | .mbox o => leAt s.sec.answer (fld (selGet s p Reg.SEC_MBOX_PAGE) 3 0 * 4096 + o) n
  | .evlog o => leNat (logBytes s.regs.aonLog o n)
  | .msix o => mnat s.msix.table (fn * 0x8000 + o) n
  | .pba o => (List.range (8 * n)).foldl (fun w i => w + b2n (s.msix.pend.contains (fn, 8 * o + i)) * 2 ^ i) 0
/-- Is a register laid out beyond bit 31 (R475)? -/
def reg64 (off : Nat) : Bool := ((regFields off).getD []).any (fun f => decide (32 ≤ f.hi))
/-- Any access of a path discards what its earlier half access left (R475). -/
def dropHalves (s : State) (p : Path) : State :=
  { s with regs := { s.regs with halfR := terase s.regs.halfR (pathNum p), halfW := terase s.regs.halfW (pathNum p) } }
/-- Is the size and alignment of a register access one of R475? -/
def regShape (a n : Nat) : Bool := (n == 4 || n == 8) && a % n == 0
/-- A read of `n` bytes at offset `a` of the BAR0 of `fn`: none for a denied request. -/
def regRead (s : State) (p : Path) (fn a n : Nat) : Option Nat × State :=
  let u := dropHalves s p
  if ! regShape a n then (none, u)
  else match targetOf fn a with
    | none => (none, u)
    | some t =>
      if (p = .smbus ∧ ! smbusMay false t) ∨ (p = .jtag ∧ ! s.sec.debugOpen) then (none, u)
      else if ! regOpen s p t then (some 0, u)
      else match t with
        | .reg off =>
          let v := readVal s p fn off
          if n = 8 then (some (v % 2 ^ 64), u)
          else if a % 8 = 0 then
            (some (v % 2 ^ 32), if reg64 off then { u with regs := { u.regs with
              halfR := tset u.regs.halfR (pathNum p) (off, v / 2 ^ 32 % 2 ^ 32) } } else u)
          else match tget s.regs.halfR (pathNum p) with
            | some (o, h) => (some (if o = off then h else 0), u)
            | none => (some 0, u)
        | _ => (some (readTarget s p fn n t), u)

end Sys2Proof.Machine
end

