-- ==== Sys2Proof/Machine/RegWrite.lean ====
section
/-! DEFINITION. Register writes: access checks, halves, the effect of each register, and configuration parity
(spec/23_register_conventions.md, R475 to R485). -/

namespace Sys2Proof.Machine
open Sys2Proof

/-! ## Who may write (R14, R475, R480) -/

/-- Is an access path alive: registers are powered, the link is up and the function exists, or the core or bridge runs? -/
def pathUp (s : State) (p : Path) : Bool :=
  let m := modeOf s
  m != Mode.off && m != Mode.retain && (match p with
    | .host f => hostUp s && fnExists s f
    | _ => true)
/-- The fabric identity of a path (Table 1-3): a core shows its own number. -/
def pathInit : Path → Nat
  | .host _ => 0x96
  | .smbus => 0xA3
  | .core i _ => i
  | .sill => 0x94
  | .jtag => 0xA2
/-- Is the path the JTAG port while Sill has not opened debug (Table 1-4)? -/
def jtagShut (s : State) (p : Path) : Bool := p == .jtag && ! s.sec.debugOpen
/-- Is the path one whose requests to a security target are denied (Table 1-4)? -/
def noKeys : Path → Bool
  | .core _ _ | .smbus | .jtag => true
  | _ => false
/-- The write-only key path is a security target: Frame's and SMBus's requests to it are denied (Table 1-4). -/
def keyPath (off : Nat) : Bool := decide (Reg.CIPH_KEY_DATA0 ≤ off ∧ off ≤ Reg.CIPH_KEY_CMD)
/-- Target class of a denied register request (Table 20-8). -/
def denyClass (s : State) (p : Path) (t : Option RegTarget) : Option Nat :=
  match t with
  | none => some 1
  | some (.reg off) =>
    if keyPath off ∧ noKeys p then some 2
    else if (p = .smbus ∧ ! smbusMay true (.reg off)) ∨ jtagShut s p then some 1
    else none
  | some _ => if p = .smbus ∨ jtagShut s p then some 1 else none
/-- Internal address of an offset of BAR0 (R17). -/
def regAddr (a : Nat) : Nat := 0xFE00000000 + a

/-! ## Parity (R481 to R483) -/

/-- Is a register one whose instances carry parity: it has an RWP field, or it is an AON field software writes (R481)? -/
def hasParity (off : Nat) : Bool :=
  off == Reg.DMC_EPOCH || ((regFields off).getD []).any (fun f => f.acc == .rwp || f.acc == .aonw)
/-- How many instance numbers a register has. -/
def instCount (off : Nat) : Nat :=
  if off = Reg.QM_FN_EVT ∨ off = Reg.SC_FN_PART ∨ off = Reg.ING_LAYOUT_CTL then 256
  else if parOwned off then 4096
  else if off = Reg.DMA_CH_CFG ∨ off = Reg.LED_INIT then 32
  else if off = Reg.DMC_DLY_VAL then 2048
  else if off = Reg.DMC_DLY_BIN then 64
  else 1
def instIs (s : State) (off inst : Nat) : Bool :=
  hasParity off && decide (inst < instCount off) && (off != Reg.QM_FN_EVT || fnExists s inst) && (off != Reg.DMC_DLY_VAL || inst % 16 != 15)
def instBad (s : State) (off inst : Nat) : Bool := s.regs.bad.contains (off, inst)
/-- The queues of a function that a mismatch froze and no item failure since return to ACTIVE (R482). -/
def parResume (s : State) (fn : Nat) : State :=
  (s.qm.queues.filter (fun q => q.2.parityFrozen && queueHolder s q.1 == fn)).foldl (fun s q =>
    modQ s q.1 (fun x => { x with parityFrozen := false, st := if x.st = .frozen then .active else x.st })) s
/-- A mismatching instance has been rewritten. -/
def parCured (s : State) (off inst : Nat) : State :=
  let fn := instOwner s off inst
  let s := { s with regs := { s.regs with bad := s.regs.bad.filter (fun b => b != (off, inst)) } }
  if parOwned off ∧ ! s.regs.bad.any (fun b => parOwned b.1 && instOwner s b.1 b.2 == fn) then parResume s fn else s
/-- CFG_PARITY_SCRUB (R481, R482): the scrubber checks one instance. A new mismatch is counted and logged; it freezes the ACTIVE
queues of the owning function, or moves the device to Hold. -/
def doCfgParityScrub (off inst : Nat) (mismatch : Bool) (s : State) : State :=
  let m := modeOf s
  if ! mismatch ∨ ! instIs s off inst ∨ instBad s off inst ∨ m = Mode.off ∨ m = Mode.retain then s
  else
    let fn := instOwner s off inst
    let s := { s with regs := { s.regs with bad := s.regs.bad ++ [(off, inst)], parCnt := satAdd 32 s.regs.parCnt 1 } }
    let s := logEvent s Ev.cfgParity fn off (instSel s off inst) fn
    if parOwned off then
      ((activeQueues s).filter (fun d => queueHolder s d == fn)).foldl (fun s d =>
        modQ (freezeBare s d St.cfgParity) d (fun q => { q with parityFrozen := true })) s
    else holdEntry s 1

/-! ## Effects of a write, register by register -/

/-- Empty a replay slot: the keys and floors of its source and INIT are dropped (Table 16-12). -/
def initEmpty (s : State) (w : Nat) : State :=
  let src := if fld w 30 29 = 0 then fld w 23 16 else fld w 30 29 + 255
  let gone := fun (i : Nat) (e : Option Nat) => i == fld w 15 0 && srcMatch e src
  led s (fun l => { l with rp := l.rp.filter (fun e => ! gone e.init e.src), floors := l.floors.filter (fun e => ! gone e.1 e.2.1) })
def writeSc (s : State) (p : Path) (off v : Nat) : State :=
  if off = Reg.SC_CTL then
    let t := regWrite s off 0 (setFld v 0 0 (rfld s off 0 0 0))
    if bitOf v 0 then doCacheEnable p t else doCacheDisable p t
  else if off = Reg.SC_LOCK then doScLockWrite p v s
  else if off = Reg.SC_PWR then scPwr p v s
  else if Reg.SC_SCRATCH_SLOT0 ≤ off ∧ off ≤ Reg.SC_SCRATCH_SLOT11 then scratchWrite p ((off - Reg.SC_SCRATCH_SLOT0) / 8) v s
  else if off = Reg.SC_OP then scOp p (fld v 3 0) s
  else if off = Reg.SC_FN_PART then regWrite s off (fld (selGet s p Reg.SC_FN_SEL) 7 0) v
  else regWrite s off 0 v
def writeDmc (s : State) (p : Path) (off v : Nat) : State :=
  if off = Reg.DMC_CTL then doDmcCtlWrite p v s
  else if off = Reg.DMC_DLY_VAL then doDelayShadowWrite p false v s
  else if off = Reg.DMC_DLY_BIN then doDelayShadowWrite p true v s
  else if off = Reg.DMC_DLY_APPLY then doDelayApply p v s
  else if off = Reg.DMC_PPR_CMD then
    (if fld v 31 30 = 1 then doPprSoft p v s else if fld v 31 30 = 2 then doPprHard p v s else s)
  else if off = Reg.DMC_EPOCH then aonPost s p off v
  else regWrite s off 0 v
def writeQm (s : State) (p : Path) (fn off v : Nat) : State :=
  let dq := devQueue s fn (fld (selGet s p Reg.QM_Q_SEL) 11 0)
  if off = Reg.QM_Q_CTL then doQueueEnable p v s
  else if [Reg.QM_SQ_BASE, Reg.QM_CQ_BASE, Reg.QM_Q_CFG].contains off then
    (match dq with
    | some d => if (getQ s d).st = .disabled then regWrite s off d v else s
    | none => s)
  else if off = Reg.QM_FN_EVT then regWrite s off fn v
  else if off = Reg.QM_IKEY_CTL then (if fld v 11 0 = 0 then s else regWrite s off 0 v)
  else regWrite s off 0 v
def writeDma (s : State) (p : Path) (off v : Nat) : State :=
  let c := fld (selGet s p Reg.DMA_CH_SEL) 4 0
  if off = Reg.DMA_CH_CFG then
    if (tget s.dma.chan c).isSome then { s with dma := { s.dma with levelNext := tset s.dma.levelNext c (fld v 1 0) } }
    else doDmaChannelGrant (regWrite s off c v)
  else regWrite s off 0 v
def writeIng (s : State) (p : Path) (off v : Nat) : State :=
  if off = Reg.ING_LAYOUT_CTL then (if bitOf v 31 then doLayoutValidate p s else doLayoutInvalidate p s)
  else if off = Reg.ING_GW_FLOOR then doGwFloorWrite p v s
  else regWrite s off 0 v
def writeLed (s : State) (p : Path) (off v : Nat) : State :=
  if off = Reg.LED_INIT then
    let i := fld (selGet s p Reg.LED_INIT_SEL) 4 0
    let old := ledInit s i
    let s := regWrite s off i v
    if bitOf old 31 ∧ ! bitOf v 31 then initEmpty s old else s
  else regWrite s off 0 v
def writeBry (s : State) (p : Path) (off v : Nat) : State :=
  let n := if off < Reg.BRY_PORT1_CTL then 0 else 1
  let o := off - n * (Reg.BRY_PORT1_CTL - Reg.BRY_PORT0_CTL)
  if o = Reg.BRY_PORT0_CTL then (if bitOf v 31 then doBridyPortEnable p n v s else doBridyPortDisable p n v s)
  else if o = Reg.BRY_PORT0_KEY then doTxEpochChange p n v s
  else regWrite s off 0 v
def writeCiph (s : State) (p : Path) (fn off v : Nat) : State :=
  if off = Reg.CIPH_KEY_CMD then
    (if fld v 1 0 = 1 then doKeyLoad p v s else if fld v 1 0 = 2 then doKeyErase p v s else doStagingZeroise p v s)
  else if Reg.CIPH_KEY_DATA0 ≤ off ∧ off ≤ Reg.CIPH_KEY_DATA7 then
    let k := off - Reg.CIPH_KEY_DATA0
    let d := sub (tgetD s.ciph.staging fn []) 0 64
    { s with ciph := { s.ciph with staging := tset s.ciph.staging fn (d.take k ++ natLE 8 v ++ d.drop (k + 8)) } }
  else s
/-- The whole register at FN 0 offset `off` is written with `v` on a path, in the BAR0 of `fn`: fields that software may not
write keep their value (R476), and the register's own rules apply. -/
def regEffect (s : State) (p : Path) (fn off v : Nat) : State :=
  if off = Reg.SCHED_WIN_SEL then doSchedWinSnapshot p v s
  else if isSel off then selPut s p off v
  else match off / 0x100000 with
    | 0 => aonPost s p off v
    | 1 => aonPost s p off v
    | 2 =>
      if off = Reg.PWR_LIMIT then (if 40 ≤ fld v 8 0 ∧ fld v 8 0 ≤ 360 then regWrite s off 0 v else s)
      else if off = Reg.PWR_TRIP then (if 100 ≤ fld v 7 0 ∧ fld v 7 0 ≤ 125 then regWrite s off 0 v else s)
      else s
    | 3 => schedule (regWrite s off 0 v)
    | 4 => schedule (regWrite s off 0 v)
    | 5 => writeSc s p off v
    | 6 => writeDmc s p off v
    | 7 => writeQm s p fn off v
    | 8 => writeDma s p off v
    | 10 => writeIng s p off v
    | 11 => writeLed s p off v
    | 12 => writeBry s p off v
    | 13 => writeCiph s p fn off v
    | 16 => if off = Reg.SEC_MBOX_CMD then mboxSubmit s v else s
    | _ => s
/-- Write `n` bytes into the MSI-X table; a vector that is pending and no longer masked sends its message (R310, PRESUMED from
PCIe). -/
def msixWrite (s : State) (fn o : Nat) (bs : List Byte) : State :=
  let s := { s with msix := { s.msix with table := mwrite s.msix.table (fn * 0x8000 + o) bs } }
  let vec := o / 16
  if s.msix.pend.contains (fn, vec) ∧ ! bitOf (mread s.msix.table (fn * 0x8000 + 16 * vec + 12)).toNat 0 then
    sendMsix { s with msix := { s.msix with pend := s.msix.pend.filter (· != (fn, vec)) } } fn vec
  else s

/-! ## Rewrites of a mismatching instance (R482) -/

/-- The value that a rewrite stores: it is accepted where the register's own rules would discard it. A rewrite of QM_Q_CTL stores
EN = 1. -/
def parStore (s : State) (p : Path) (fn off inst v : Nat) : State :=
  if off = Reg.QM_Q_CTL then
    modQ s inst (fun q => if q.st = .disabled then
      { q with st := .active, head := 0, tail := 0, inl := [], notOwnWait := false, cqTail := 0, cqHead := 0, parityFrozen := false }
      else q)
  else if parOwned off ∨ [Reg.PWR_LIMIT, Reg.PWR_TRIP, Reg.QM_IKEY_CTL, Reg.DMC_DLY_VAL, Reg.DMC_DLY_BIN, Reg.DMC_CTL].contains off then
    regWrite s off inst v
  else regEffect s p fn off v
/-- A write of a whole register: a rewrite when the instance mismatches, else its effect. -/
def regStore (s : State) (p : Path) (fn off v : Nat) : State :=
  match regInst s p fn off with
  | some i => if instBad s off i then parCured (parStore s p fn off i v) off i else regEffect s p fn off v
  | none => regEffect s p fn off v
/-- May a path write the register at FN 0 offset `off` at all? -/
def pathReaches (p : Path) (off : Nat) : Bool :=
  match p with
  | .host f => f == 0 || [7, 9, 13].contains (off / 0x100000) && ! vfLacks off
  | .smbus => smbusMay true (.reg off)
  | .core _ _ | .jtag => ! keyPath off
  | .sill => true
def rowOpen (s : State) (p : Path) (off : Nat) : Bool := pathUp s p && pathReaches p off && regOpen s p (.reg off) && ! jtagShut s p
/-- A write that a path's request to a register makes, or its denial (R15). -/
def rowGate (s : State) (p : Path) (off : Nat) (f : State → State) : State :=
  match denyClass s p (some (.reg off)) with
  | some cls => if pathUp s p then deny (dropHalves s p) (pathInit p) (pathTag p) (regAddr off) cls else s
  | none => if rowOpen s p off then f (dropHalves s p) else s
/-- A command that is the write of one register: the path must reach it; the write is a rewrite when the instance mismatches. -/
def rowWrite (s : State) (p : Path) (off : Nat) (f : State → State) : State :=
  rowGate s p off (fun s => match regInst s p (pathFn p) off with
    | some i => if instBad s off i then parCured (f s) off i else f s
    | none => f s)
/-- The same where the command carries the whole value. -/
def rowWriteVal (s : State) (p : Path) (off v : Nat) (f : State → State) : State :=
  rowGate s p off (fun s => match regInst s p (pathFn p) off with
    | some i => if instBad s off i then parCured (parStore s p (pathFn p) off i v) off i else f s
    | none => f s)
/-- The same for a write into the layout memory window. -/
def rowWriteMem (s : State) (p : Path) (off : Nat) (f : State → State) : State :=
  if ! pathUp s p ∨ pathFn p ≠ 0 then s
  else match denyClass s p (some (.layMem off)) with
    | some cls => deny (dropHalves s p) (pathInit p) (pathTag p) (regAddr (0xA10000 + off)) cls
    | none => if regOpen s p (.layMem off) then f (dropHalves s p) else s
/-- CFG_PARITY_REWRITE (R482): a write that finds its instance mismatching. -/
def doCfgParityRewrite (p : Path) (off v : Nat) (s : State) : State :=
  if rowOpen s p off ∧ (regFields off).isSome then
    match regInst s p (pathFn p) off with
    | some i => if instBad s off i then parCured (parStore (dropHalves s p) p (pathFn p) off i v) off i else s
    | none => s
  else s

/-! ## Accesses -/

/-- A write of `n` bytes at offset `a` of the BAR0 of `fn`; the second part is true for a denied request. -/
def regWriteAt (s : State) (p : Path) (fn a n v : Nat) : State × Bool :=
  let u := dropHalves s p
  if ! regShape a n then (u, true)
  else
    let t := targetOf fn a
    if (denyClass s p t).isSome then (u, true)
    else match t with
      | none => (u, true)
      | some t =>
        if ! regOpen s p t then (u, false)
        else match t with
          | .reg off =>
            if n = 8 then (regStore u p fn off v, false)
            else if ! reg64 off then (if a % 8 = 0 then regStore u p fn off (v % 2 ^ 32) else u, false)
            else if a % 8 = 0 then
              ({ u with regs := { u.regs with halfW := tset u.regs.halfW (pathNum p) (off, v % 2 ^ 32) } }, false)
            else match tget s.regs.halfW (pathNum p) with
              | some (o, h) => (if o = off then regStore u p fn off (v % 2 ^ 32 * 2 ^ 32 + h) else u, false)
              | none => (u, false)
          | .layMem o => (doLayoutMemWrite p o (natLE n v) u, false)
          | .mbox o => ({ u with sec := { u.sec with mbox := mwrite u.sec.mbox o (natLE n v) } }, false)
          | .msix o => (msixWrite u fn o (natLE n v), false)
          | _ => (u, false)
/-- REGISTER_WRITE (R475, R476): a path writes `n` bytes at an offset of the BAR0 it reaches. -/
def doRegisterWrite (p : Path) (a n v : Nat) (s : State) : State :=
  if ! pathUp s p then s
  else
    let r := regWriteAt s p (pathFn p) a n v
    if r.2 then deny r.1 (pathInit p) (pathTag p) (regAddr a) ((denyClass s p (targetOf (pathFn p) a)).getD 1)
    else r.1

end Sys2Proof.Machine
end

