-- ==== Sys2Proof/Machine/ExecBridy.lean ====
section
/-! DEFINITION. The meanings of the commands of spec/17_bridy_link.md. -/

namespace Sys2Proof.Machine
open Sys2Proof

/-- PAYLOAD_FLIT (R371). -/
def execPayloadFlit (n : Nat) (f : List Byte) (corr uncorr : Nat) (s : State) : Host.Outcome State Fault Refusal :=
  .next (doPayloadFlit n f corr uncorr s)
/-- IDLE_FLIT (R371). -/
def execIdleFlit (n : Nat) (f : List Byte) (corr uncorr : Nat) (s : State) : Host.Outcome State Fault Refusal :=
  .next (doIdleFlit n f corr uncorr s)
/-- RETRY_REQ (R372). -/
def execRetryReq (n : Nat) (f : List Byte) (corr uncorr : Nat) (s : State) : Host.Outcome State Fault Refusal :=
  .next (doRetryReq n f corr uncorr s)
/-- RETRY_REQ_REPEAT (R371). -/
def execRetryReqRepeat (n : Nat) (s : State) : Host.Outcome State Fault Refusal := .next (doRetryReqRepeat n s)
/-- SWAP_REQ (R381). -/
def execSwapReq (n : Nat) (f : List Byte) (corr uncorr : Nat) (s : State) : Host.Outcome State Fault Refusal :=
  .next (secondFault s (doSwapReq n f corr uncorr s))
/-- LANE_FAULT (R381). -/
def execLaneFault (n lane : Nat) (s : State) : Host.Outcome State Fault Refusal := .next (secondFault s (doLaneFault n lane s))
/-- TRAIN_FLIT (R379). -/
def execTrainFlit (n devser nextF rtt : Nat) (s : State) : Host.Outcome State Fault Refusal :=
  .next (doTrainFlit n devser nextF rtt s)
/-- LINK_SILENT (R378). -/
def execLinkSilent (n : Nat) (s : State) : Host.Outcome State Fault Refusal := .next (doLinkSilent n s)
/-- RETRAIN_DELAY (R378). -/
def execRetrainDelay (n : Nat) (s : State) : Host.Outcome State Fault Refusal := .next (doRetrainDelay n s)
/-- BRIDY_CMD (R374). -/
def execBridyCmd (n : Nat) (s : State) : Host.Outcome State Fault Refusal := .next (doBridyCmd n s)
/-- XFER_RDY (R375). -/
def execXferRdy (n : Nat) (s : State) : Host.Outcome State Fault Refusal := .next (doXferRdy n s)
/-- DATA_PACKET (R376). -/
def execDataPacket (n : Nat) (s : State) : Host.Outcome State Fault Refusal := .next (doDataPacket n s)
/-- MSG_PACKET (R374). -/
def execMsgPacket (n : Nat) (s : State) : Host.Outcome State Fault Refusal := .next (doMsgPacket n s)
/-- BRIDY_PORT_ENABLE (R378). -/
def execBridyPortEnable (p : Path) (n v : Nat) (s : State) : Host.Outcome State Fault Refusal :=
  .next (rowWriteVal s p (bryReg Reg.BRY_PORT0_CTL n) v (doBridyPortEnable p n v))
/-- BRIDY_PORT_DISABLE (R378). -/
def execBridyPortDisable (p : Path) (n v : Nat) (s : State) : Host.Outcome State Fault Refusal :=
  .next (rowWriteVal s p (bryReg Reg.BRY_PORT0_CTL n) v (doBridyPortDisable p n v))
/-- TX_EPOCH_CHANGE (R382). -/
def execTxEpochChange (p : Path) (n v : Nat) (s : State) : Host.Outcome State Fault Refusal :=
  .next (rowWriteVal s p (bryReg Reg.BRY_PORT0_KEY n) v (doTxEpochChange p n v))
/-- SWAP_REQ_REPEAT (R381). -/
def execSwapReqRepeat (n : Nat) (s : State) : Host.Outcome State Fault Refusal := .next (doSwapReqRepeat n s)

end Sys2Proof.Machine
end

