-- ==== Sys2Proof/Machine/SeqDecode.lean ====
section
/-! DEFINITION. Instruction words (spec/10_sequencer_isa.md, Tables 10-7 to 10-9; spec/11_vector_extension.md, Tables 11-3 to 11-5): how
many words an instruction has and which instruction its words are, reserved encodings left out (R198, R230). -/

namespace Sys2Proof.Machine
open Sys2Proof

/-- The instructions, by the rows of the tables of opcodes. -/
inductive SRow where
  | nop | wfe | sev | waitt | reti | trap | fence | brk | ret
  | movc | alu | alux | alui | aluq | aop | addai | lia
  | ld | st | ldm | stm | acld | acst | acldn | acstn | acop | acxfer
  | brd | bra | brac | dbnz | jmp | jmpr | call | retm | pushm | popm
  | movs | fills | cmps | scans
  | varith | vlogic | vcmp | vscale | vmulw | vdot4 | vdot2w | vdiv
  | vld | vst | vldff | vgather | vgatherff | vscatter | vcompact
  | vhash | vmemb | vsel | vpred | vxfer | vconv | vctl | vpipe
deriving DecidableEq, Repr

/-- Primary opcode. -/
def opOf (w1 : Nat) : Nat := fld w1 15 10
/-- Is an opcode one of the vector unit's? -/
def opVector (op : Nat) : Bool := decide (0x20 ≤ op ∧ op ≤ 0x36)
/-- Does the instruction that starts with this word have a second word on a core of this kind (R198, Table 10-7)? -/
def needs2 (kind w1 : Nat) : Bool :=
  let op := opOf w1
  if opVector op then kind == 0
  else if 0x0C ≤ op ∧ op ≤ 0x11 then fld w1 9 7 == 3 || fld w1 9 7 == 4
  else [0x06, 0x09, 0x0A, 0x0B, 0x16, 0x17, 0x18, 0x19, 0x1A, 0x1C, 0x1D, 0x1F].contains op
/-- The row where its encoding is not reserved. -/
def rowIf (b : Bool) (r : SRow) : Option SRow := if b then some r else none

/-- SYS (Table 10-8). -/
def rowSys (w1 : Nat) : Option SRow :=
  let f := fld w1 5 0
  match fld w1 9 6 with
  | 0 => rowIf (f == 0) .nop
  | 1 => rowIf (f < 8) .wfe
  | 2 => rowIf (! bitOf f 4) .sev
  | 3 => rowIf (f == 0) .waitt
  | 4 => rowIf (f == 0) .reti
  | 5 => some .trap
  | 6 => rowIf (f < 4) .fence
  | 7 => rowIf (f == 0) .brk
  | 8 => rowIf (f == 0) .ret
  | _ => none
/-- Is a mode field, with its second word, one of Table 10-10? -/
def modeOk (w1 w2 : Nat) : Bool :=
  let m := fld w1 9 7
  decide (m ≤ 4) && (m != 4 || w2 < 8)
/-- ACOP (Table 10-9). -/
def acopOk (w1 : Nat) : Bool :=
  let fn := fld w1 9 6
  let x := bitOf w1 5
  let src := fld w1 2 0
  if fn ≤ 6 then x || src < 4
  else if fn = 10 then ! x && src == 0
  else x && (fn ≤ 9 || fn == 11)
/-- A branch's condition and its field b under z (R207). -/
def brOk (w1 zb bhi : Nat) : Bool := decide (fld w1 9 7 < 6) && (fld w1 zb zb == 0 || fld w1 bhi 0 == 0)

/-- Fields of format VA. -/
def vaD (w1 : Nat) : Nat := fld w1 9 6
def vaA (w1 : Nat) : Nat := fld w1 5 2
def vaB (w2 : Nat) : Nat := fld w2 15 12
def vaPg (w2 : Nat) : Nat := fld w2 11 9
def vaFn (w2 : Nat) : Nat := fld w2 8 4
def vaL (w2 : Nat) : Bool := bitOf w2 3
def vaBs (w2 : Nat) : Bool := bitOf w2 2
def vaX (w2 : Nat) : Bool := bitOf w2 1
/-- A long-form operand is S0 to S3 or Q (R230). -/
def longOp (f : Nat) : Bool := decide (f < 4) || f == 8
/-- Field b: used or 0, and under bs an accumulator (R230). -/
def vaBOk (w2 : Nat) (used : Bool) : Bool :=
  if ! used then vaB w2 == 0 && ! vaBs w2
  else if vaBs w2 then decide (vaB w2 < 4)
  else ! vaL w2 || longOp (vaB w2)
/-- The shape of a VA instruction: reserved bits, the long form, its predicate, and its operands; `bUsed` and `xUsed` tell whether it
uses b and x. -/
def vaOk (w1 w2 : Nat) (long bUsed xUsed : Bool) : Bool :=
  fld w1 1 0 == 0 && fld w2 0 0 == 0
  && (! vaL w2 || (long && vaPg w2 == 0 && longOp (vaD w1) && longOp (vaA w1)))
  && vaBOk w2 bUsed && (xUsed || ! vaX w2)
/-- VCMP: fn, x, and in the short form a destination predicate (R231). -/
def vcmpOk (w1 w2 : Nat) : Bool :=
  let fn := vaFn w2
  vaOk w1 w2 true true true && decide (fn % 8 ≤ 5) && decide (fn / 8 ≤ 2)
  && (! vaX w2 || (! vaL w2 && fn / 8 != 2)) && (vaL w2 || decide (vaD w1 < 8))
/-- VCONV: fn and its operands; PTOB has no long form and names predicates. -/
def vconvOk (w1 w2 : Nat) : Bool :=
  let fn := vaFn w2
  if fn ≤ 4 then vaOk w1 w2 true false false
  else fn == 5 && vaOk w1 w2 false true false && ! vaBs w2 && decide (vaA w1 < 8) && decide (vaB w2 < 8)
/-- VMEMB: MEMB and LOOKUP take their key from lanes b up; SRCH names a stream in b[1:0]; MEMB writes no d (Table 11-5). -/
def vmembOk (w1 w2 : Nat) : Bool :=
  let k := vaFn w2 / 8
  vaOk w1 w2 false true false && ! vaBs w2 && decide (k ≤ 2) && (k != 0 || vaD w1 == 0) && (k != 2 || decide (vaB w2 < 4))
/-- VM: reserved bits and the fields an operation leaves unused. -/
def vmOk (op w1 w2 : Nat) : Bool :=
  let i := fld w2 15 12
  let p := fld w2 7 5
  let dk := fld w2 4 2
  let gather := op == 0x2B || op == 0x2C || op == 0x2D
  fld w1 2 0 == 0 && fld w2 1 0 == 0 && (gather || i == 0)
  && (if op = 0x28 ∨ op = 0x29 then decide (p < 2) && (p == 1 || dk == 0) else dk == 0)
  && (! (op == 0x2B || op == 0x2D) || p == 0)
/-- VP: the operand fields each predicate operation uses. -/
def vpOk (w1 w2 : Nat) : Bool :=
  let fn := fld w1 9 6
  let pa := fld w1 2 0
  let pb := fld w2 15 13
  let dk := fld w2 12 10
  fld w2 9 0 == 0 && decide (fn ≤ 7) && (fn < 4 || pb == 0) && (fn < 6 || pa == 0) && (fn == 7 || dk == 0)
/-- VX: the operand fields each move uses. -/
def vxOk (w1 w2 : Nat) : Bool :=
  let fn := fld w1 9 6
  let v := fld w1 5 2
  let ac := fld w2 15 14
  let dj := fld w2 13 11
  let pp := fld w2 10 8
  let pg := fld w2 7 5
  fld w1 1 0 == 0 && fld w2 4 0 == 0 && decide (fn ≤ 7)
  && (fn ≤ 2 || fn == 7 || v == 0) && (fn ≤ 2 || ac == 0) && (fn != 2 && fn != 7 || dj == 0)
  && ([3, 4, 5, 6].contains fn || pp == 0) && ([2, 5, 7].contains fn || pg == 0) && (fn != 3 && fn != 4 || dj % 2 == 0)
/-- VCTL: reserved numbers, VCAUSE read-only, SBASE's stream (R226). -/
def vctlOk (w1 w2 : Nat) : Bool :=
  let fn := fld w1 9 6
  let c := fld w2 15 10
  fld w1 2 0 == 0 && fld w2 9 0 == 0
  && (if fn ≤ 1 then decide (c < 32) && ! (decide (13 ≤ c) && decide (c ≤ 15)) && (fn == 0 || c != 3) else fn == 2 && decide (c < 4))

/-- A vector instruction (Tables 11-3 to 11-5). -/
def rowVec (w1 w2 : Nat) : Option SRow :=
  let op := opOf w1
  let fn := vaFn w2
  match op with
  | 0x20 => rowIf (decide (fn ≤ 9) && vaOk w1 w2 true (! [3, 4, 7].contains fn) false) .varith
  | 0x21 => rowIf (decide (fn ≤ 7) && vaOk w1 w2 true (fn != 4) false) .vlogic
  | 0x22 => rowIf (vcmpOk w1 w2) .vcmp
  | 0x23 => rowIf (decide (1 ≤ fn ∧ fn ≤ 18) && vaOk w1 w2 true false true) .vscale
  | 0x24 => rowIf (fn == 0 && vaOk w1 w2 false true false && vaD w1 % 2 == 0) .vmulw
  | 0x25 => rowIf (fn == 0 && vaOk w1 w2 true true false) .vdot4
  | 0x26 => rowIf (fn == 0 && vaOk w1 w2 false true false && ! vaBs w2 && vaD w1 % 2 == 0 && vaA w1 % 2 == 0 && vaB w2 % 2 == 0) .vdot2w
  | 0x27 => rowIf (fn == 0 && vaOk w1 w2 true true false) .vdiv
  | 0x28 => rowIf (vmOk op w1 w2) .vld
  | 0x29 => rowIf (vmOk op w1 w2) .vst
  | 0x2A => rowIf (vmOk op w1 w2) .vldff
  | 0x2B => rowIf (vmOk op w1 w2) .vgather
  | 0x2C => rowIf (vmOk op w1 w2) .vgatherff
  | 0x2D => rowIf (vmOk op w1 w2) .vscatter
  | 0x2E => rowIf (fn == 0 && vaOk w1 w2 true (vaL w2) false && ! (vaL w2 && vaBs w2)) .vcompact
  | 0x2F => rowIf (decide (fn ≤ 1) && vaOk w1 w2 true false false) .vhash
  | 0x30 => rowIf (vmembOk w1 w2) .vmemb
  | 0x31 => rowIf (decide (fn < 8) && vaOk w1 w2 false true false) .vsel
  | 0x32 => rowIf (vpOk w1 w2) .vpred
  | 0x33 => rowIf (vxOk w1 w2) .vxfer
  | 0x34 => rowIf (vconvOk w1 w2) .vconv
  | 0x35 => rowIf (vctlOk w1 w2) .vctl
  | 0x36 => rowIf (decide (fld w1 9 6 ≤ 4) && fld w1 2 0 == 0 && w2 == 0) .vpipe
  | _ => none

/-- The instruction that two words are on a core of a kind; none raises ILLEGAL. The second word counts only where `needs2` says so. -/
def instrRow (kind w1 w2 : Nat) : Option SRow :=
  let op := opOf w1
  match op with
  | 0x01 => rowSys w1
  | 0x02 => rowIf (! [30, 31].contains (fld w1 8 4) && ! (bitOf w1 9 && [2, 5, 6, 15, 16, 17, 29].contains (fld w1 8 4))) .movc
  | 0x04 => some .alu
  | 0x05 => rowIf (decide (fld w1 9 6 ≤ 11)) .alux
  | 0x06 => rowIf (fld w1 2 0 == 0 && ! [6, 7, 15].contains (fld w1 9 6)) .alui
  | 0x07 => rowIf (decide (fld w1 9 8 ≤ 1) || decide (fld w1 4 0 < 16)) .aluq
  | 0x08 => rowIf (decide (fld w1 9 6 ≤ 7)) .aop
  | 0x09 => rowIf (fld w1 3 0 == 0) .addai
  | 0x0A => some .lia
  | 0x0B => some .lia
  | 0x0C => rowIf (modeOk w1 w2) .ld
  | 0x0D => rowIf (modeOk w1 w2) .st
  | 0x0E => rowIf (modeOk w1 w2 && fld w1 2 0 % (if bitOf w1 3 then 4 else 2) == 0) .ldm
  | 0x0F => rowIf (modeOk w1 w2 && fld w1 2 0 % (if bitOf w1 3 then 4 else 2) == 0) .stm
  | 0x10 => rowIf (modeOk w1 w2 && fld w1 3 2 == 0) .acld
  | 0x11 => rowIf (modeOk w1 w2 && fld w1 3 2 == 0) .acst
  | 0x12 => rowIf (fld w1 3 2 == 0) .acldn
  | 0x13 => rowIf (fld w1 3 2 == 0) .acstn
  | 0x14 => rowIf (acopOk w1) .acop
  | 0x15 => rowIf (decide (fld w1 8 6 ≤ 4) && fld w1 3 3 == 0) .acxfer
  | 0x16 => rowIf (brOk w1 6 2) .brd
  | 0x17 => rowIf (brOk w1 6 2) .bra
  | 0x18 => rowIf (brOk w1 6 1 && fld w1 5 4 == 0) .brac
  | 0x19 => rowIf (fld w1 9 3 == 0) .dbnz
  | 0x1A => rowIf (fld w1 9 8 == 0) .jmp
  | 0x1B => rowIf (fld w1 9 3 == 0) .jmpr
  | 0x1C => rowIf (fld w1 9 3 == 0) .call
  | 0x1D => rowIf (fld w1 9 0 == 0) .retm
  | 0x1E =>
    let fn := fld w1 9 8
    if fld w1 5 3 ≠ 0 ∨ (bitOf w1 6 ∧ fn ≠ 3) ∨ ((fn = 0 ∨ fn = 2) ∧ fld w1 2 0 ≠ 0) then none
    else some (match fn with
      | 0 => .movs
      | 1 => .fills
      | 2 => .cmps
      | _ => .scans)
  | 0x1F => rowIf (fld w1 8 0 == 0) (if bitOf w1 9 then .popm else .pushm)
  | _ => if kind = 0 then rowVec w1 w2 else none

end Sys2Proof.Machine
end

