-- ==== Sys2Proof/Machine/SeqMem.lean ====
section
/-! DEFINITION. The memory a sequencer reaches: fetching, data memory and its bounds, and the window onto the internal address space
(spec/10_sequencer_isa.md, R192 to R194, R202; spec/01_architecture.md, R14 to R20). -/

namespace Sys2Proof.Machine
open Sys2Proof

/-! ## Words of a core's own memory (Table 10-2) -/

/-- Word address `n` words above `a`, modulo 2^24. -/
def wadd (a n : Nat) : Nat := (a + n) % 2 ^ 24
/-- May the core fetch this word (R193)? -/
def fetchable (i : Nat) (c : Core) (wa : Nat) : Bool :=
  (decide (wa < progWords i) || (coreKind i == 2 && decide (0x100000 ≤ wa ∧ wa < dataEnd i)))
  && (c.k || decide (c.uplo.toNat ≤ wa ∧ wa ≤ c.uphi.toNat))
/-- A word of program or data memory as it stands. -/
def coreWord (i : Nat) (c : Core) (wa : Nat) : Nat :=
  if coreKind i = 2 ∧ wa < progWords i then (Config.romWord wa).toNat else mnat c.mem (2 * wa) 2
/-- Is a word of data memory one that the core's data bounds allow (R193)? -/
def dataOk (i : Nat) (c : Core) (wa : Nat) : Bool :=
  decide (0x100000 ≤ wa ∧ wa < dataEnd i) && (c.k || decide (c.udlo.toNat ≤ wa ∧ wa ≤ c.udhi.toNat))
/-- May the core access the word as data in its own memory? -/
def ownOk (i : Nat) (c : Core) (wa : Nat) (store : Bool) : Bool :=
  dataOk i c wa || (decide (wa < progWords i) && c.k && ! (store && coreKind i == 2))

/-! ## The window (R194, R14) -/

/-- The first word of the window. -/
abbrev winBase : Nat := 0x800000
/-- Internal address of a window word. -/
def winAddr (c : Core) (wa : Nat) : Nat := c.winb.toNat * 2 ^ 24 + 2 * (wa - winBase)
/-- Is an internal address in register space (Table 1-5)? -/
def inRegs (a : Nat) : Bool := decide (0xFE00000000 ≤ a ∧ a < 0xFE04000000)
/-- Access path of a core's register accesses, with its identity and function tag (R13): tiles share the Frame cores' path. -/
def corePath (i : Nat) (c : Core) : Path := if coreKind i = 2 then .sill else .core i c.fntag.toNat
/-- What the core's fabric stop finds: the access goes ahead, waits for a scratch slot to be ready, finds nothing there, or is denied
with a target class. -/
inductive FabChk where
  | ok | wait | unbacked | denied (cls : Nat)
deriving DecidableEq, Repr
/-- May a tile or Frame core reach a reserved region of DRAM (R16)? Tiles reach the kernel image and the plan store with K = 1, and
the state tables of their function tag. -/
def reservedOk (s : State) (i : Nat) (c : Core) (a n : Nat) : Bool :=
  let inside := fun b l => decide (b ≤ a ∧ a + n ≤ b + l)
  coreKind i == 1
  || (c.k && (inside (rfld s Reg.TILE_KIMG 0 39 12 * 4096) 32768 || inside (serviceArea s) 0x10000000))
  || s.plans.stabs.any (fun t => t.1 / 64 == c.fntag.toNat && inside t.2.base (t.2.mib * 1048576))
/-- Partition of a core's requests (R249). -/
def corePart (s : State) (i : Nat) (c : Core) : Nat := if coreKind i = 0 then partOf s c.fntag.toNat else 0
/-- Does the line of an address lie in a way whose retirement copy runs (R260)? -/
def lineRetiring (s : State) (a : Nat) : Bool :=
  s.cache.retiring != [] && ((findWay s (lineOf a)).map (fun w => s.cache.retiring.contains (sliceOf (lineOf a) * 16 + w))).getD false
/-- The check of `n` bytes at an internal address (R2, R14, R16, R18, R254, R406). -/
def fabCheck (s : State) (i : Nat) (c : Core) (a n : Nat) (store : Bool) : FabChk :=
  let kind := coreKind i
  let fn := c.fntag.toNat
  if a < 0x8000000000 then
    if a + n > dramSize s then .unbacked
    else if kind = 2 ∨ winOk s fn a n ∨ (a ≥ ledgerArea s ∧ reservedOk s i c a n) then (if lineRetiring s a then .wait else .ok)
    else .denied 0
  else if 0xE000000000 ≤ a ∧ a < 0xE004000000 then
    let q := (a - 0xE000000000) / 4194304
    if q ≥ 12 ∨ rfld s (slotReg q) 0 31 31 = 0 then .unbacked
    else if kind = 0 ∧ partOf s fn ≠ rfld s (slotReg q) 0 26 24 then .denied 0
    else if rfld s (slotReg q) 0 0 0 = 0 ∨ s.cache.retiring.contains (scratchWay s (a / 128)) then .wait
    else .ok
  else if 0xF000000000 ≤ a ∧ a < 0xF012000000 then
    let o := a - 0xF000000000
    if o % 0x200000 < 0x180000 ∧ tileInService s (o / 0x200000) then .ok else .unbacked
  else if 0xFA00000000 ≤ a ∧ a < 0xFA00800000 then
    if kind = 2 ∨ holder s.fns.camFn ((a - 0xFA00000000) / 64 / 8192) = fn then .ok else .denied 0
  else if inRegs a then
    let t := targetOf 0 (a - 0xFE00000000)
    match t with
    | none => .denied 1
    | some (.reg off) =>
      if keyPath off ∧ kind ≠ 2 then .denied 2
      else if store then (match denyClass s (corePath i c) t with
        | some cls => .denied cls
        | none => .ok)
      else .ok
    | some _ => .ok
  else .unbacked

/-- Read `n` bytes at an internal address that the check admits. -/
def fabRead (s : State) (i : Nat) (c : Core) (a n : Nat) : Nat × State :=
  if inRegs a then
    let r := regRead s (corePath i c) 0 (a - 0xFE00000000) n
    (r.1.getD 0, r.2)
  else if 0xF000000000 ≤ a ∧ a < 0xF012000000 then
    let o := a - 0xF000000000
    (mnat (getCore s (o / 0x200000)).mem (0x200000 + o % 0x200000) n, s)
  else if 0xFA00000000 ≤ a then (mnat s.cam.mem (a - 0xFA00000000) n, s)
  else (mnat s.dram a n, dramTouch s (corePart s i c) a n)
/-- Write `n` bytes at an internal address that the check admits; a tile without power keeps nothing. -/
def fabWrite (s : State) (i : Nat) (c : Core) (a n v : Nat) : State :=
  if inRegs a then (regWriteAt s (corePath i c) 0 (a - 0xFE00000000) n v).1
  else if 0xF000000000 ≤ a ∧ a < 0xF012000000 then
    let o := a - 0xF000000000
    { s with cores := tupd s.cores (o / 0x200000) (fun x => { x with mem := mput x.mem (0x200000 + o % 0x200000) n v }) }
  else if 0xFA00000000 ≤ a then doCamWindowWrite (coreInitiator i) c.fntag.toNat a (natLE n v) s
  else dramWrite s (corePart s i c) a (natLE n v)

/-! ## Checked accesses (R202, R218) -/

/-- The outcome of checking an access: it goes ahead, it waits, or it raises a cause with the word address at fault; a denied request is
recorded. -/
inductive AccChk where
  | ok | wait
  | bad (code wa : Nat) (cls : Option Nat)
deriving DecidableEq, Repr
/-- Of two outcomes the one reported: ALIGN before ACCESS, then the lower address. -/
def chkJoin : AccChk → AccChk → AccChk
  | .bad c w d, .bad c' w' d' => if (c = 5 ∧ c' ≠ 5) ∨ (c = c' ∧ w ≤ w') then .bad c w d else .bad c' w' d'
  | .bad c w d, _ => .bad c w d
  | _, .bad c w d => .bad c w d
  | .wait, _ => .wait
  | _, o => o
/-- Check one unit of `u` words at `wa`; `ldm` tells LDM and STM. -/
def unitChk (s : State) (i : Nat) (c : Core) (wa u : Nat) (store ldm : Bool) : AccChk :=
  if wa ≥ winBase then
    let a := winAddr c wa
    if (inRegs a && ! ldm) || (u == 2 && wa % 2 == 1) then .bad 5 wa none
    else match fabCheck s i c a (2 * u) store with
      | .ok => .ok
      | .wait => .wait
      | .unbacked => .bad 4 wa none
      | .denied cls => .bad 4 wa (some cls)
  else match (List.range u).find? (fun j => ! ownOk i c (wadd wa j) store) with
    | some j => .bad 4 (wadd wa j) none
    | none => .ok
/-- Word addresses of the units of an access of `n` words in units of `u`. -/
def unitsAt (ea n u : Nat) : List Nat := (List.range (n / u)).map (fun j => wadd ea (j * u))
/-- Check an access of `n` words at `ea` in fabric accesses of `u` words; LDM and STM are aligned everywhere (R202). -/
def accChk (s : State) (i : Nat) (c : Core) (ea n u : Nat) (store ldm : Bool) : AccChk :=
  if ldm ∧ ea % n ≠ 0 then .bad 5 ea none
  else ((unitsAt ea n u).map (fun wa => unitChk s i c wa u store ldm)).foldl chkJoin .ok
/-- Does any unit lie in the window? -/
def accWindow (ea n u : Nat) : Bool := (unitsAt ea n u).any (fun wa => decide (winBase ≤ wa))
/-- Read `n` words of a checked access. -/
def accRead (s : State) (i : Nat) (c : Core) (ea n u : Nat) : List Nat × State :=
  (unitsAt ea n u).foldl (fun (r : List Nat × State) wa =>
    let p := if wa ≥ winBase then fabRead r.2 i c (winAddr c wa) (2 * u)
      else ((List.range u).foldl (fun v j => v + coreWord i c (wadd wa j) * 2 ^ (16 * j)) 0, r.2)
    (r.1 ++ (List.range u).map (fun j => fld p.1 (16 * j + 15) (16 * j)), p.2)) ([], s)
/-- Write `n` bytes of a core's own memory from a word on. -/
def ownWrite (s : State) (i wa n v : Nat) : State :=
  { s with cores := tupd s.cores i (fun x => { x with mem := mput x.mem (2 * wa) n v }) }
/-- Write the words of a checked access. -/
def accWrite (s : State) (i : Nat) (c : Core) (ea u : Nat) (ws : List Nat) : State :=
  ((unitsAt ea ws.length u).zipIdx).foldl (fun s p =>
    let v := (List.range u).foldl (fun v j => v + (ws.getD (p.2 * u + j) 0 % 65536) * 2 ^ (16 * j)) 0
    if p.1 ≥ winBase then fabWrite s i c (winAddr c p.1) (2 * u) v else ownWrite s i p.1 (2 * u) v) s
/-- Record a denied access (R15). -/
def accDeny (s : State) (i : Nat) (c : Core) (wa : Nat) : Option Nat → State
  | some cls => deny s (coreInitiator i) c.fntag.toNat (winAddr c wa) cls
  | none => s
/-- Does an access read a poisoned line of DRAM or scratch (R464)? -/
def accPoisoned (s : State) (c : Core) (ea n u : Nat) : Bool :=
  (unitsAt ea n u).any (fun wa => decide (winBase ≤ wa) && decide (winAddr c wa < 0xE004000000) && poisonedIn s (winAddr c wa) (2 * u))

end Sys2Proof.Machine
end

