-- ==== Sys2Proof/Machine/SeqExec.lean ====
section
/-! DEFINITION. Issue, exceptions, interrupts and events of the sequencers (spec/10_sequencer_isa.md, R197, R198, R211 to R214,
R217 to R221). -/

namespace Sys2Proof.Machine
open Sys2Proof

/-! ## Registers of a core -/

def dreg (c : Core) (k : Nat) : Nat := (c.d.toList.getD k 0).toNat
def areg (c : Core) (k : Nat) : Nat := (c.a.toList.getD k 0).toNat
def acreg (c : Core) (k : Nat) : Lane := c.ac.toList.getD k 0
def setD (c : Core) (k v : Nat) : Core := { c with d := c.d.setIfInBounds k (BitVec.ofNat 16 v) }
def setA (c : Core) (k v : Nat) : Core := { c with a := c.a.setIfInBounds k (BitVec.ofNat 24 v) }
def setAC (c : Core) (k : Nat) (v : Lane) : Core := { c with ac := c.ac.setIfInBounds k v }
/-- The status word (Table 10-6). -/
def srOf (c : Core) : BitVec 16 := BitVec.ofNat 16 (b2n c.k * 2 ^ 15 + b2n c.ie * 2 ^ 14 + b2n c.exl * 2 ^ 13)
/-- Write the status word; its reserved bits read 0. -/
def setSr (c : Core) (v : Nat) : Core := { c with k := bitOf v 15, ie := bitOf v 14, exl := bitOf v 13 }
/-- Move the PC on. -/
def pcAdd (c : Core) (n : Nat) : Core := { c with pc := BitVec.ofNat 24 (c.pc.toNat + n) }
def pcTo (c : Core) (v : Nat) : Core := { c with pc := BitVec.ofNat 24 v }
/-- Drop the links of a chain that is not closed (R238). -/
def dropLinks (c : Core) : Core := { c with vec := { c.vec with links := [] } }
/-- Change a core that has power. -/
def coreUpd (s : State) (i : Nat) (f : Core → Core) : State := { s with cores := tupd s.cores i f }

/-! ## Exceptions and interrupts (R217 to R220) -/

abbrev Exc.illegal : Nat := 1
abbrev Exc.priv : Nat := 2
abbrev Exc.fetch : Nat := 3
abbrev Exc.access : Nat := 4
abbrev Exc.align : Nat := 5
abbrev Exc.stack : Nat := 6
abbrev Exc.overflow : Nat := 7
abbrev Exc.acformat : Nat := 8
abbrev Exc.trap : Nat := 9
abbrev Exc.brk : Nat := 0xA
abbrev Exc.vector : Nat := 0xB
abbrev Exc.debug : Nat := 0x10
abbrev Exc.dispatch : Nat := 0x11
abbrev Exc.ckpt : Nat := 0x12

/-- Entry to an exception or interrupt (R219): `epc` is the PC of R217; where Table 10-11 gives EADDR no value it holds a free one. -/
def excEntry (s : State) (i epc code : Nat) (ea : Option Nat) (svc : Nat) : State :=
  let r := match ea with
    | some e => (e, s)
    | none => freeRes s
  coreUpd r.2 i (fun c => dropLinks { c with
      run := .run, esr := srOf c, epc := BitVec.ofNat 24 epc, ecause := BitVec.ofNat 16 (svc * 256 + code)
      eaddr := BitVec.ofNat 24 r.1, k := true, ie := false, exl := true
      pc := BitVec.ofNat 24 (c.ebase.toNat + 8 * code) })
/-- A double fault: the core halts (R220); a tile's halt is treated by Frame, a Frame core's by Sill (R424). -/
def coreHalt (s : State) (i : Nat) : State :=
  if coreKind i = 0 then tileHalt s i
  else if coreKind i = 1 then frameHalt s (i - 144)
  else coreUpd s i (fun c => { c with run := .halted })
/-- A synchronous exception. -/
def syncExc (s : State) (i epc code : Nat) (ea : Option Nat) (svc : Nat) : State :=
  if (getCore s i).exl then coreHalt s i else excEntry s i epc code ea svc

/-! ## Issue (R193, R198, R210) -/

/-- What an instruction does at a boundary: it completes, with its effects on memory in the state and its effects on the core's
registers as a function; it raises a cause after such effects; it does not complete yet; or it stalls for a window load's data. -/
inductive IRes where
  | done (s : State) (f : Core → Core)
  | exc (s : State) (f : Core → Core) (code : Nat) (ea : Option Nat) (svc : Nat)
  | hold
  | load

/-- The outcome of an instruction whose first word lies at `epc`. -/
def applyRes (s : State) (i epc : Nat) : IRes → State
  | .done t f => coreUpd t i (fun c => f (if c.run = .load then { c with run := .run } else c))
  | .exc t f code ea svc =>
    syncExc (coreUpd t i (fun c => f (if c.run = .load then { c with run := .run } else c))) i epc code ea svc
  | .hold => s
  | .load => coreUpd s i (fun c => { c with run := .load })
/-- The instruction at the PC: the fetch fault, with EPC and EADDR, or its row and its words. -/
inductive Fetched where
  | fault (epc ea : Nat)
  | ins (row : Option SRow) (w1 w2 : Nat)
deriving DecidableEq, Repr
/-- Fetch at a word address. -/
def fetchAt (i : Nat) (c : Core) (pc : Nat) : Fetched :=
  if ! fetchable i c pc then .fault pc pc
  else
    let w1 := coreWord i c pc
    if needs2 (coreKind i) w1 then
      (if ! fetchable i c (wadd pc 1) then .fault pc (wadd pc 1)
        else let w2 := coreWord i c (wadd pc 1)
          .ins (instrRow (coreKind i) w1 w2) w1 w2)
    else .ins (instrRow (coreKind i) w1 0) w1 0
/-- Issue of the instruction at the PC as a row: a fetch that faults raises FETCH; the body acts when the words are that row's. After a
link that writes Q an instruction that is no long-form link raises ILLEGAL at the first link (R238). -/
def issue (i : Nat) (row : SRow) (s : State) (body : State → Nat → Core → Nat → Nat → IRes) : State :=
  let c := getCore s i
  let pc := c.pc.toNat
  if c.run ≠ .run then s
  else match fetchAt i c pc with
    | .fault epc ea => syncExc s i epc Exc.fetch (some ea) 0
    | .ins r w1 w2 =>
      if r ≠ some row then s
      else match c.vec.links.head? with
        | some l => syncExc s i l Exc.illegal none 0
        | none => applyRes s i pc (body s i c w1 w2)
/-- Issue of an instruction that a core waiting in a state other than `run` re-executes. -/
def reissue (i : Nat) (s : State) (st : CRun) (body : SRow → State → Nat → Core → Nat → Nat → IRes) : State :=
  let c := getCore s i
  if c.run ≠ st then s
  else match fetchAt i c c.pc.toNat with
    | .fault _ _ => s
    | .ins (some r) w1 w2 => applyRes s i c.pc.toNat (body r s i c w1 w2)
    | .ins none _ _ => s
/-- ILLEGAL_OPCODE (R198): the words at the PC are no instruction's. In an open chain EPC is the first link (R238). -/
def doIllegalOpcode (i : Nat) (s : State) : State :=
  let c := getCore s i
  let pc := c.pc.toNat
  if c.run ≠ .run then s
  else match fetchAt i c pc with
    | .fault epc ea => syncExc s i epc Exc.fetch (some ea) 0
    | .ins none _ _ => syncExc s i (c.vec.links.headD pc) Exc.illegal none 0
    | .ins (some _) _ _ => s
/-- A completed instruction of `n` words that changes registers only. -/
def step1 (s : State) (n : Nat) (f : Core → Core) : IRes := .done s (fun c => f (pcAdd c n))
/-- An instruction that raises ILLEGAL, PRIV or another cause without EADDR, and has no effect. -/
def raise (s : State) (code : Nat) : IRes := .exc s id code none 0

/-! ## Interrupts (R218, R221) -/

/-- The interrupt taken next: DEBUG, then DISPATCH, then CKPT. -/
def irqCode (c : Core) : Option Nat :=
  if c.irqDebug then some Exc.debug else if c.irqDispatch then some Exc.dispatch else if c.irqCkpt then some Exc.ckpt else none
/-- The interrupt has been taken: it no longer waits, and DISPATCH clears EVPEND.DSP (R211). -/
def irqTaken (c : Core) (code : Nat) : Core :=
  if code = Exc.debug then { c with irqDebug := false }
  else if code = Exc.dispatch then { c with irqDispatch := false, evpend := c.evpend &&& 0xFFFE }
  else { c with irqCkpt := false }
/-- INTERRUPT_ENTRY (R219, R221): at a boundary, with IE = 1; `debug` tells that the debug access port, which Sill has opened, raises
DEBUG now. A core in WFE or WAITT leaves it with EPC at that instruction. No interrupt is taken between the links of a chain. -/
def doInterruptEntry (i : Nat) (debug : Bool) (s : State) : State :=
  let s := if debug ∧ s.sec.debugOpen then coreUpd s i (fun c => { c with irqDebug := true }) else s
  let c := getCore s i
  if (c.run ≠ .run ∧ c.run ≠ .wfe ∧ c.run ≠ .waitt) ∨ ! c.ie ∨ c.vec.links ≠ [] then s
  else match irqCode c with
    | none => s
    | some code => excEntry (coreUpd s i (fun c => irqTaken c code)) i c.pc.toNat code none 0

/-! ## SYS (Table 10-8) -/

/-- SYS NOP. -/
def doSysNop (i : Nat) (s : State) : State := issue i .nop s (fun s _ _ _ _ => step1 s 1 id)
/-- The body of WFE: with an enabled pending event it completes; else the core stops its clock at the WFE. -/
def wfeBody (s : State) (w1 : Nat) (c : Core) : IRes :=
  let e := c.evpend &&& c.emask
  if e = 0 then .done s (fun c => { c with run := .wfe })
  else step1 s 1 (fun c => setD { c with run := .run, evpend := c.evpend &&& ~~~ c.emask } (fld w1 2 0) e.toNat)
/-- WFE (R211). -/
def doWfe (i : Nat) (s : State) : State := issue i .wfe s (fun s _ c w1 _ => wfeBody s w1 c)
/-- WFE_WAKE (R211): an enabled event has arrived at a core that waits in WFE. -/
def doWfeWake (i : Nat) (s : State) : State :=
  reissue i s .wfe (fun r s _ c w1 _ => if r = .wfe ∧ c.evpend &&& c.emask ≠ 0 then wfeBody s w1 c else .hold)
/-- The core of a group at a position, and the group's cores (R212): the in-service tiles of the sender's cluster at logical positions 0
to 7, or the four Frame cores. -/
def sevAt (s : State) (i pos : Nat) : Option Nat :=
  if coreKind i = 0 then
    let m := 8 * (i / 9) + pos
    if pos < 8 ∧ ! tileAbsent s m then some (physTile s m) else none
  else if coreKind i = 1 then (if pos < 4 then some (frameCore pos) else none)
  else none
def sevGroup (s : State) (i : Nat) : List Nat := (List.range 8).filterMap (sevAt s i)
def sevSet (s : State) (j : Nat) : State := coreUpd s j (fun c => { c with evpend := c.evpend ||| 8 })
/-- SEV (R212). -/
def doSev (i : Nat) (s : State) : State := issue i .sev s (fun s i _ w1 _ =>
  if coreKind i = 2 then raise s Exc.illegal
  else if bitOf w1 5 then step1 (((sevGroup s i).filter (· != i)).foldl sevSet s) 1 id
  else match sevAt s i (fld w1 3 0) with
    | some j => step1 (sevSet s j) 1 id
    | none => raise s Exc.illegal)
/-- TIMECNT: the low 48 bits of the fabric timebase. -/
def timeCnt (s : State) : Nat := now s % 2 ^ 48
/-- Has a target been reached (R213)? -/
def reached (s : State) (t : Nat) : Bool :=
  let d := (t + 2 ^ 48 - timeCnt s) % 2 ^ 48
  ! (decide (1 ≤ d) && decide (d ≤ 2 ^ 47 - 1))
/-- WAITT's target D4:D5:D6. -/
def waitTarget (c : Core) : Nat := dreg c 4 * 2 ^ 32 + dreg c 5 * 2 ^ 16 + dreg c 6
/-- WAITT (R213). -/
def doWaitt (i : Nat) (s : State) : State := issue i .waitt s (fun s _ c _ _ =>
  if reached s (waitTarget c) then step1 s 1 id else .done s (fun c => { c with run := .waitt }))
/-- WAITT_DONE (R213): the target is reached. -/
def doWaittDone (i : Nat) (s : State) : State := reissue i s .waitt (fun r s _ c _ _ =>
  if r = .waitt ∧ reached s (waitTarget c) then step1 s 1 (fun c => { c with run := .run }) else .hold)
/-- Fire an armed timer whose target is reached (R213). -/
def timerFire (s : State) (c : Core) : Core :=
  match c.timer with
  | some t => if reached s t.toNat then { c with timer := none, evpend := c.evpend ||| 4 } else c
  | none => c
/-- TIMER_FIRE (R213). -/
def doTimerFire (i : Nat) (s : State) : State := coreUpd s i (timerFire s)
/-- RETI (R219): PC ← EPC and SR ← ESR; PRIV with K = 0. -/
def doReti (i : Nat) (s : State) : State := issue i .reti s (fun s _ c _ _ =>
  if ! c.k then raise s Exc.priv else .done s (fun c => setSr { c with pc := c.epc } c.esr.toNat))
/-- TRAP n (R218): EPC is the next instruction. -/
def doTrap (i : Nat) (s : State) : State :=
  let c := getCore s i
  if c.run ≠ .run then s
  else match fetchAt i c c.pc.toNat with
    | .fault epc ea => syncExc s i epc Exc.fetch (some ea) 0
    | .ins r w1 _ =>
      if r ≠ some .trap then s
      else match c.vec.links.head? with
        | some l => syncExc s i l Exc.illegal none 0
        | none => syncExc s i (wadd c.pc.toNat 1) Exc.trap none (fld w1 5 0)
/-- BREAK. -/
def doBreak (i : Nat) (s : State) : State := issue i .brk s (fun s _ _ _ _ => raise s Exc.brk)
/-- FENCE (R214): window stores have taken effect when they issue; V waits for the pipe queue. -/
def doFence (i : Nat) (s : State) : State := issue i .fence s (fun s _ c w1 _ =>
  if bitOf w1 1 ∧ c.vec.pipes ≠ [] then .hold else step1 s 1 id)

/-! ## MOVC (R197, Table 10-5) -/

/-- Is the register marked "—" in the User column? -/
def kernelReg (n : Nat) : Bool := (1 ≤ n && n ≤ 7) || (9 ≤ n && n ≤ 14) || (18 ≤ n && n ≤ 20)
/-- COREID. -/
def coreId (i : Nat) : Nat := coreKind i * 2 ^ 14 + (if coreKind i = 0 then i else if coreKind i = 1 then i - 144 else 0)
/-- A control register as it reads. -/
def cregRead (s : State) (i : Nat) (c : Core) (n : Nat) : Nat :=
  if 21 ≤ n ∧ n ≤ 24 then (c.mb.toList.getD (n - 21) 0).toNat
  else if 25 ≤ n ∧ n ≤ 28 then (c.ml.toList.getD (n - 25) 0).toNat
  else if 18 ≤ n ∧ n ≤ 20 then (c.tmrc.toList.getD (n - 18) 0).toNat
  else match n with
    | 0 => (srOf c).toNat
    | 1 => c.emask.toNat
    | 2 => c.evpend.toNat
    | 3 => c.epc.toNat
    | 4 => c.esr.toNat
    | 5 => c.ecause.toNat
    | 6 => c.eaddr.toNat
    | 7 => c.ebase.toNat
    | 8 => c.winb.toNat
    | 9 => c.fntag.toNat
    | 10 => c.slim.toNat
    | 11 => c.uplo.toNat
    | 12 => c.uphi.toNat
    | 13 => c.udlo.toNat
    | 14 => c.udhi.toNat
    | 15 => timeCnt s % 2 ^ 16
    | 16 => c.timeHi.toNat % 2 ^ 16
    | 17 => c.timeHi.toNat / 2 ^ 16
    | 29 => coreId i
    | _ => 0
/-- A write of a control register; TMRC0 arms the timer. -/
def cregWrite (s : State) (c : Core) (n v : Nat) : Core :=
  let w24 := BitVec.ofNat 24 v
  let w16 := BitVec.ofNat 16 v
  if 21 ≤ n ∧ n ≤ 24 then { c with mb := c.mb.setIfInBounds (n - 21) w24 }
  else if 25 ≤ n ∧ n ≤ 28 then { c with ml := c.ml.setIfInBounds (n - 25) w16 }
  else if n = 18 then
    let t := c.tmrc.setIfInBounds 0 w16
    timerFire s { c with tmrc := t, timer := some (BitVec.ofNat 48
      ((t.toList.getD 2 0).toNat * 2 ^ 32 + (t.toList.getD 1 0).toNat * 2 ^ 16 + w16.toNat)) }
  else if n = 19 ∨ n = 20 then { c with tmrc := c.tmrc.setIfInBounds (n - 18) w16 }
  else match n with
    | 0 => setSr c v
    | 1 => { c with emask := w16 }
    | 3 => { c with epc := w24 }
    | 4 => { c with esr := w16 }
    | 7 => { c with ebase := w24 &&& 0xFFFF00 }
    | 8 => { c with winb := w16 }
    | 9 => { c with fntag := BitVec.ofNat 8 v }
    | 10 => { c with slim := w24 }
    | 11 => { c with uplo := w24 }
    | 12 => { c with uphi := w24 }
    | 13 => { c with udlo := w24 }
    | 14 => { c with udhi := w24 }
    | _ => c
/-- MOVC (R197): with K = 0 a kernel register, and a write of SR, raise PRIV; a read of TIME0 latches the rest of TIMECNT. -/
def doMovc (i : Nat) (s : State) : State := issue i .movc s (fun s i c w1 _ =>
  let n := fld w1 8 4
  let write := bitOf w1 9
  let r := fld w1 2 0
  if ! c.k ∧ (kernelReg n ∨ (write ∧ n = 0)) then raise s Exc.priv
  else if write then step1 s 1 (fun c => cregWrite s c n (if bitOf w1 3 then areg c r else dreg c r))
  else
    let v := cregRead s i c n
    step1 s 1 (fun c =>
      let c := if n = 15 then { c with timeHi := BitVec.ofNat 32 (timeCnt s / 2 ^ 16) } else c
      if bitOf w1 3 then setA c r v else setD c r v))

end Sys2Proof.Machine
end

