-- ==== Sys2Proof/Machine/SeqAlu.lean ====
section
/-! DEFINITION. Register instructions of the sequencers: the 16-bit ALU, address registers, accumulators and branches
(spec/10_sequencer_isa.md, R199, R203 to R207, R210). -/

namespace Sys2Proof.Machine
open Sys2Proof

/-! ## 16-bit ALU (R199, Table 10-9) -/

/-- ALU function `fn` of Dd and Ds (or imm16). -/
def aluFn (fn : Nat) (d b : BitVec 16) : BitVec 16 :=
  let n := b.toNat % 16
  match fn with
  | 0 => b
  | 1 => d + b
  | 2 => d - b
  | 3 => d &&& b
  | 4 => d ||| b
  | 5 => d ^^^ b
  | 6 => ~~~ b
  | 7 => - b
  | 8 => d <<< n
  | 9 => d >>> n
  | 10 => d.sshiftRight n
  | 11 => d.rotateLeft n
  | 12 => d * b
  | 13 => BitVec.ofInt 16 (d.toInt * b.toInt / 65536)
  | 14 => BitVec.ofNat 16 (d.toNat * b.toNat / 65536)
  | _ => b.rotateLeft 8
/-- ALUX function `fn` of Dd and Ds. -/
def aluxFn (fn : Nat) (d b : BitVec 16) : BitVec 16 :=
  let bit := fun (x : Bool) => BitVec.ofNat 16 (b2n x)
  match fn with
  | 0 => bit (d.slt b)
  | 1 => bit (d.ult b)
  | 2 => if d.slt b then d else b
  | 3 => if d.slt b then b else d
  | 4 => if d.ult b then d else b
  | 5 => if d.ult b then b else d
  | 6 => BitVec.ofNat 16 (16 - bitLen 16 b.toNat)
  | 7 => BitVec.ofNat 16 (popcount 16 b.toNat)
  | 8 => (b.truncate 8).signExtend 16
  | 9 => b &&& 0xFF
  | 10 => bit (decide (d.toNat + b.toNat ≥ 65536))
  | _ => bit (d.ult b)
/-- ALUQ function (Table 10-7). -/
def aluqFn (fn : Nat) (d : BitVec 16) (imm5 : Nat) : BitVec 16 :=
  let x := BitVec.ofInt 16 (sgn 5 imm5)
  match fn with
  | 0 => x
  | 1 => d + x
  | 2 => d <<< imm5
  | _ => d >>> imm5
def dbv (c : Core) (k : Nat) : BitVec 16 := c.d.toList.getD k 0
/-- ALU. -/
def doAlu (i : Nat) (s : State) : State := issue i .alu s (fun s _ c w1 _ =>
  step1 s 1 (fun x => setD x (fld w1 5 3) (aluFn (fld w1 9 6) (dbv c (fld w1 5 3)) (dbv c (fld w1 2 0))).toNat))
/-- ALUX. -/
def doAlux (i : Nat) (s : State) : State := issue i .alux s (fun s _ c w1 _ =>
  step1 s 1 (fun x => setD x (fld w1 5 3) (aluxFn (fld w1 9 6) (dbv c (fld w1 5 3)) (dbv c (fld w1 2 0))).toNat))
/-- ALUI. -/
def doAlui (i : Nat) (s : State) : State := issue i .alui s (fun s _ c w1 w2 =>
  step1 s 2 (fun x => setD x (fld w1 5 3) (aluFn (fld w1 9 6) (dbv c (fld w1 5 3)) (BitVec.ofNat 16 w2)).toNat))
/-- ALUQ. -/
def doAluq (i : Nat) (s : State) : State := issue i .aluq s (fun s _ c w1 _ =>
  step1 s 1 (fun x => setD x (fld w1 7 5) (aluqFn (fld w1 9 8) (dbv c (fld w1 7 5)) (fld w1 4 0)).toNat))

/-! ## Address registers -/

/-- A sum of a 24-bit address and a signed displacement. -/
def addrAdd (a : Nat) (d : Int) : Nat := unsgn 24 ((a : Int) + d)
/-- AOP (Table 10-9). -/
def doAop (i : Nat) (s : State) : State := issue i .aop s (fun s _ c w1 _ =>
  let d := fld w1 5 3
  let r := fld w1 2 0
  step1 s 1 (fun x => match fld w1 9 6 with
    | 0 => setA x d (areg c r)
    | 1 => setA x d (areg c d + areg c r)
    | 2 => setA x d (addrAdd (areg c d) (-(areg c r : Int)))
    | 3 => setA x d (addrAdd (areg c d) (sgn 16 (dreg c r)))
    | 4 => setA x d (areg c d + dreg c r)
    | 5 => setA x d (dreg c r)
    | 6 => setD x d (areg c r)
    | _ => setD x d (areg c r / 65536)))
/-- ADDAI. -/
def doAddai (i : Nat) (s : State) : State := issue i .addai s (fun s _ c w1 w2 =>
  step1 s 2 (fun x => setA x (fld w1 9 7) (addrAdd (areg c (fld w1 6 4)) (sgn 16 w2))))
/-- LIA: bit 23 of the immediate is the low bit of the opcode. -/
def doLia (i : Nat) (s : State) : State := issue i .lia s (fun s _ _ w1 w2 =>
  step1 s 2 (fun x => setA x (fld w1 9 7) (fld w1 10 10 * 2 ^ 23 + fld w1 6 0 * 2 ^ 16 + w2)))

/-! ## Accumulators (R204, R206) -/

/-- The greatest value of ADDS and ADDT's range. -/
abbrev acMax : Int := 2 ^ 71 - 1
/-- ACOP's arithmetic: wrapping, saturating, or trapping, where none is an overflow. -/
def acArith (mode : Nat) (x : Int) : Option Lane :=
  if mode = 0 ∨ (-acMax ≤ x ∧ x ≤ acMax) then some (BitVec.ofInt 72 x)
  else if mode = 1 then some (BitVec.ofInt 72 (if x < 0 then -acMax else acMax))
  else none
/-- Shifts of a 72-bit pattern with counts 0 to 127. -/
def acShift (fn : Nat) (a : Lane) (n : Nat) : Lane :=
  match fn with
  | 0 => a <<< n
  | 1 => a.sshiftRight n
  | _ => a >>> n
/-- ACOP function of ACd and a source: none raises OVERFLOW. `b` is ACs or sign-extended Dk, `k` the pattern of Dk. -/
def acopFn (fn : Nat) (a b : Lane) (k : Nat) : Option Lane :=
  match fn with
  | 0 => some b
  | 1 => acArith 0 (a.toInt + b.toInt)
  | 2 => acArith 1 (a.toInt + b.toInt)
  | 3 => acArith 2 (a.toInt + b.toInt)
  | 4 => acArith 0 (a.toInt - b.toInt)
  | 5 => acArith 1 (a.toInt - b.toInt)
  | 6 => acArith 2 (a.toInt - b.toInt)
  | 7 => some (acShift 0 a (k % 128))
  | 8 => some (acShift 1 a (k % 128))
  | 9 => some (acShift 2 a (k % 128))
  | 10 => some nullLane
  | _ => some (a + BitVec.ofNat 72 k)
/-- ACOP. -/
def doAcop (i : Nat) (s : State) : State := issue i .acop s (fun s _ c w1 _ =>
  let d := fld w1 4 3
  let r := fld w1 2 0
  let b := if bitOf w1 5 then BitVec.ofInt 72 (sgn 16 (dreg c r)) else acreg c r
  match acopFn (fld w1 9 6) (acreg c d) b (dreg c r) with
  | some v => step1 s 1 (fun x => setAC x d v)
  | none => raise s Exc.overflow)
/-- Word `w` of an accumulator's image (R203). -/
def acWord (a : Lane) (w : Nat) : Nat :=
  if w < 4 then a.toNat / 2 ^ (16 * w) % 65536 else a.toNat / 2 ^ 64 + (if a.msb then 0xFF00 else 0)
/-- Write word `w` of an accumulator (R206). -/
def acPut (a : Lane) (w v : Nat) : Lane :=
  if w < 4 then BitVec.ofNat 72 (setFld a.toNat (16 * w + 15) (16 * w) v) else BitVec.ofNat 72 (setFld a.toNat 71 64 v)
/-- ACXFER: ACGET and ACPUT. -/
def doAcxfer (i : Nat) (s : State) : State := issue i .acxfer s (fun s _ c w1 _ =>
  let w := fld w1 8 6
  let k := fld w1 5 4
  let r := fld w1 2 0
  step1 s 1 (fun x => if bitOf w1 9 then setAC x k (acPut (acreg c k) w (dreg c r)) else setD x r (acWord (acreg c k) w)))

/-! ## Branches (R205, R207, R210) -/

/-- A condition of R207 on two patterns of `n` bits. -/
def condHolds (cond n a b : Nat) : Bool :=
  match cond with
  | 0 => a == b
  | 1 => a != b
  | 2 => decide (sgn n a < sgn n b)
  | 3 => decide (sgn n b ≤ sgn n a)
  | 4 => decide (a < b)
  | _ => decide (b ≤ a)
/-- A two-word branch by its displacement. -/
def branchBy (s : State) (c : Core) (w2 : Nat) (taken : Bool) (f : Core → Core) : IRes :=
  .done s (fun x => pcTo (f x) (if taken then addrAdd (wadd c.pc.toNat 2) (sgn 16 w2) else c.pc.toNat + 2))
/-- BRD. -/
def doBrd (i : Nat) (s : State) : State := issue i .brd s (fun s _ c w1 w2 =>
  branchBy s c w2 (condHolds (fld w1 9 7) 16 (dreg c (fld w1 5 3)) (if bitOf w1 6 then 0 else dreg c (fld w1 2 0))) id)
/-- BRA. -/
def doBra (i : Nat) (s : State) : State := issue i .bra s (fun s _ c w1 w2 =>
  branchBy s c w2 (condHolds (fld w1 9 7) 24 (areg c (fld w1 5 3)) (if bitOf w1 6 then 0 else areg c (fld w1 2 0))) id)
/-- BRAC: signed and unsigned 72-bit values (R205). -/
def doBrac (i : Nat) (s : State) : State := issue i .brac s (fun s _ c w1 w2 =>
  branchBy s c w2 (condHolds (fld w1 9 7) 72 (acreg c (fld w1 3 2)).toNat (if bitOf w1 6 then 0 else (acreg c (fld w1 1 0)).toNat)) id)
/-- DBNZ. -/
def doDbnz (i : Nat) (s : State) : State := issue i .dbnz s (fun s _ c w1 w2 =>
  let k := fld w1 2 0
  let v := (dreg c k + 65535) % 65536
  branchBy s c w2 (v != 0) (fun x => setD x k v))
/-- JMP. -/
def doJmp (i : Nat) (s : State) : State := issue i .jmp s (fun s _ _ w1 w2 =>
  .done s (fun x => pcTo x (fld w1 7 0 * 2 ^ 16 + w2)))
/-- JMPR. -/
def doJmpr (i : Nat) (s : State) : State := issue i .jmpr s (fun s _ c w1 _ =>
  .done s (fun x => pcTo x (areg c (fld w1 2 0))))

end Sys2Proof.Machine
end

