-- ==== Sys2Proof/Machine/SeqLoad.lean ====
section
/-! DEFINITION. Loads, stores, the stack and the string instructions of the sequencers (spec/10_sequencer_isa.md, R194, R200 to R203,
R208, R209, R215, R216). -/

namespace Sys2Proof.Machine
open Sys2Proof

/-! ## Effective addresses (R200, R201) -/

/-- The modulo wrap of an updated address register. -/
def moduloWrap (c : Core) (n v : Nat) : Nat :=
  let mb := (c.mb.toList.getD n 0).toNat
  let ml := (c.ml.toList.getD n 0).toNat
  if n ≥ 4 ∨ ml = 0 then v
  else if v ≥ mb + ml then v - ml
  else if v < mb then v + ml
  else v
/-- EA of a load or store of `step` words, and its side effect on An. -/
def eaOf (c : Core) (w1 w2 step : Nat) : Nat × (Core → Core) :=
  let n := fld w1 6 4
  let a := areg c n
  match fld w1 9 7 with
  | 0 => (a, id)
  | 1 => (a, fun x => setA x n (moduloWrap c n (wadd a step)))
  | 2 => let e := addrAdd a (-(step : Int)); (e, fun x => setA x n (moduloWrap c n e))
  | 3 => (addrAdd a (sgn 16 w2), id)
  | _ => (addrAdd a (sgn 16 (dreg c (fld w2 2 0))), id)
/-- Words of a load's or store's instruction. -/
def modeWords (w1 : Nat) : Nat := if fld w1 9 7 ≥ 3 then 2 else 1

/-! ## Checked loads and stores -/

/-- A tile's load of poisoned data fails the item that runs on it (R464). -/
def poisonedLoad (s : State) (i : Nat) : State :=
  if coreKind i ≠ 0 then s
  else match (logTile s i).bind (runningOn s) with
    | some (_, e) => stopItem s e.item St.dataPoisoned
    | none => s
/-- A load of `n` words in accesses of `u` words: checked, then read; a window load stalls until its data returns (`data`). -/
def loadWords (s : State) (i : Nat) (c : Core) (ea n u : Nat) (ldm data : Bool) (k : State → List Nat → IRes) : IRes :=
  match accChk s i c ea n u false ldm with
  | .bad code wa cls => .exc (accDeny s i c wa cls) id code (some wa) 0
  | .wait => .hold
  | .ok =>
    if accWindow ea n u ∧ ! data then .load
    else
      let s := if accPoisoned s c ea n u then poisonedLoad s i else s
      let r := accRead s i c ea n u
      k r.2 r.1
/-- A store of words in accesses of `u` words. -/
def storeWords (s : State) (i : Nat) (c : Core) (ea u : Nat) (ldm : Bool) (ws : List Nat) (k : State → IRes) : IRes :=
  match accChk s i c ea ws.length u true ldm with
  | .bad code wa cls => .exc (accDeny s i c wa cls) id code (some wa) 0
  | .wait => .hold
  | .ok => k (accWrite s i c ea u ws)

/-! ## LD, ST, LDM, STM (R200, R202) -/

/-- Words of an A register in memory. -/
def aWords (v : Nat) : List Nat := [v % 65536, v / 65536 % 256]
/-- The value of an A register's two words. -/
def aValue (ws : List Nat) : Nat := ws.getD 0 0 + (ws.getD 1 0 % 256) * 65536
/-- Words that LD and ST move. -/
def regWords (w1 : Nat) : Nat := if bitOf w1 3 then 2 else 1
/-- LD's body; the loaded value is written last. -/
def ldBody (data : Bool) (s : State) (i : Nat) (c : Core) (w1 w2 : Nat) : IRes :=
  let n := regWords w1
  let e := eaOf c w1 w2 n
  let r := fld w1 2 0
  loadWords s i c e.1 n n false data (fun s ws =>
    step1 s (modeWords w1) (fun x => if bitOf w1 3 then setA (e.2 x) r (aValue ws) else setD (e.2 x) r (ws.getD 0 0)))
/-- LD. -/
def doLd (i : Nat) (s : State) : State := issue i .ld s (ldBody false)
/-- ST. -/
def doSt (i : Nat) (s : State) : State := issue i .st s (fun s i c w1 w2 =>
  let n := regWords w1
  let e := eaOf c w1 w2 n
  let r := fld w1 2 0
  storeWords s i c e.1 n false (if bitOf w1 3 then aWords (areg c r) else [dreg c r]) (fun s => step1 s (modeWords w1) e.2))
/-- Words that LDM and STM move. -/
def ldmWords (w1 : Nat) : Nat := if bitOf w1 3 then 4 else 2
/-- LDM's body. -/
def ldmBody (data : Bool) (s : State) (i : Nat) (c : Core) (w1 w2 : Nat) : IRes :=
  let n := ldmWords w1
  let e := eaOf c w1 w2 n
  let r := fld w1 2 0
  loadWords s i c e.1 n n true data (fun s ws =>
    step1 s (modeWords w1) (fun x => (ws.zipIdx).foldl (fun x p => setD x (r + p.2) p.1) (e.2 x)))
/-- LDM. -/
def doLdm (i : Nat) (s : State) : State := issue i .ldm s (ldmBody false)
/-- STM. -/
def doStm (i : Nat) (s : State) : State := issue i .stm s (fun s i c w1 w2 =>
  let n := ldmWords w1
  let e := eaOf c w1 w2 n
  storeWords s i c e.1 n true ((List.range n).map (fun j => dreg c (fld w1 2 0 + j))) (fun s => step1 s (modeWords w1) e.2))

/-! ## Accumulators in memory (R203) -/

/-- The five words of an accumulator. -/
def acWords (a : Lane) : List Nat := (List.range 5).map (acWord a)
/-- The accumulator of five words; the high byte of word 4 is left out. -/
def acValue (ws : List Nat) : Lane :=
  BitVec.ofNat 72 ((List.range 5).foldl (fun v j => v + (ws.getD j 0) * 2 ^ (16 * j)) 0)
/-- ACLD's body: ACFORMAT where the high byte of word 4 is not the sign's copies. -/
def acldBody (data : Bool) (s : State) (i : Nat) (c : Core) (w1 w2 : Nat) : IRes :=
  let e := eaOf c w1 w2 5
  loadWords s i c e.1 5 1 false data (fun t ws =>
    if acWord (acValue ws) 4 ≠ ws.getD 4 0 then .exc t id Exc.acformat (some (wadd e.1 4)) 0
    else step1 t (modeWords w1) (fun x => setAC (e.2 x) (fld w1 1 0) (acValue ws)))
/-- ACLD. -/
def doAcld (i : Nat) (s : State) : State := issue i .acld s (acldBody false)
/-- ACST. -/
def doAcst (i : Nat) (s : State) : State := issue i .acst s (fun s i c w1 w2 =>
  let e := eaOf c w1 w2 5
  storeWords s i c e.1 1 false (acWords (acreg c (fld w1 1 0))) (fun s => step1 s (modeWords w1) e.2))
/-- The check of `n` bytes of data memory at a byte address: ALIGN outside data memory, ACCESS outside the data bounds. -/
def laneChk (i : Nat) (c : Core) (b n : Nat) : AccChk :=
  if b < 0x200000 ∨ b + n > 2 * dataEnd i then .bad 5 (b / 2 % 2 ^ 24) none
  else match (List.range ((b + n - 1) / 2 - b / 2 + 1)).find? (fun j => ! dataOk i c (b / 2 + j)) with
    | some j => .bad 4 (b / 2 + j) none
    | none => .ok
/-- Byte address of ACLDN's and ACSTN's lane. -/
def acnAddr (c : Core) (w1 : Nat) : Nat := 2 * areg c (fld w1 9 7) + 9 * dreg c (fld w1 6 4)
/-- ACLDN. -/
def doAcldn (i : Nat) (s : State) : State := issue i .acldn s (fun s i c w1 _ =>
  match laneChk i c (acnAddr c w1) 9 with
  | .bad code wa _ => .exc s id code (some wa) 0
  | _ => step1 s 1 (fun x => setAC x (fld w1 1 0) (BitVec.ofNat 72 (mnat c.mem (acnAddr c w1) 9))))
/-- Write `n` bytes at a byte address of data memory. -/
def byteWrite (s : State) (i b n v : Nat) : State := coreUpd s i (fun x => { x with mem := mput x.mem b n v })
/-- ACSTN. -/
def doAcstn (i : Nat) (s : State) : State := issue i .acstn s (fun s i c w1 _ =>
  match laneChk i c (acnAddr c w1) 9 with
  | .bad code wa _ => .exc s id code (some wa) 0
  | _ => step1 (byteWrite s i (acnAddr c w1) 9 (acreg c (fld w1 1 0)).toNat) 1 id)

/-! ## The stack (R208, R209) -/

/-- Words of the masked registers. -/
def maskWords (mask : Nat) : Nat := popcount 8 mask + 2 * popcount 7 (mask / 256) + (if bitOf mask 15 then 20 else 0)
/-- The frame of the masked registers, from its lowest word: D0 to D7, A0 to A6, AC0 to AC3. -/
def maskFrame (c : Core) (mask : Nat) : List Nat :=
  (List.range 8).flatMap (fun k => if bitOf mask k then [dreg c k] else [])
  ++ (List.range 7).flatMap (fun k => if bitOf mask (8 + k) then aWords (areg c k) else [])
  ++ (if bitOf mask 15 then (List.range 4).flatMap (fun k => acWords (acreg c k)) else [])
/-- Restore the masked registers from their frame. -/
def maskPop (c : Core) (mask : Nat) (ws : List Nat) : Core :=
  let r := (List.range 8).foldl (fun (r : Core × List Nat) k =>
    if bitOf mask k then (setD r.1 k (r.2.getD 0 0), r.2.drop 1) else r) (c, ws)
  let r := (List.range 7).foldl (fun (r : Core × List Nat) k =>
    if bitOf mask (8 + k) then (setA r.1 k (aValue r.2), r.2.drop 2) else r) r
  let r := if bitOf mask 15 then (List.range 4).foldl (fun (r : Core × List Nat) k => (setAC r.1 k (acValue (r.2.take 5)), r.2.drop 5)) r
    else r
  r.1
/-- The first word of a stack frame outside data memory and its bounds. -/
def frameBad (i : Nat) (c : Core) (a n : Nat) : Option Nat :=
  ((List.range n).map (wadd a)).foldl (fun b wa => if dataOk i c wa then b else some (match b with
    | some x => min x wa
    | none => wa)) none
/-- Push a frame: ACCESS where it leaves data memory, STACK where it passes SLIM. -/
def pushFrame (s : State) (i : Nat) (c : Core) (ws : List Nat) (k : State → Nat → IRes) : IRes :=
  let a := addrAdd (areg c 7) (-(ws.length : Int))
  match frameBad i c a ws.length with
  | some wa => .exc s id Exc.access (some wa) 0
  | none =>
    if areg c 7 < c.slim.toNat + ws.length then .exc s id Exc.stack (some a) 0
    else k (accWrite s i c a 1 ws) a
/-- Pop a frame of `n` words. -/
def popFrame (s : State) (i : Nat) (c : Core) (n : Nat) (k : List Nat → IRes) : IRes :=
  match frameBad i c (areg c 7) n with
  | some wa => .exc s id Exc.access (some wa) 0
  | none => k ((List.range n).map (fun j => coreWord i c (wadd (areg c 7) j)))
/-- CALL: the target is taken before anything is pushed. -/
def doCall (i : Nat) (s : State) : State := issue i .call s (fun s i c w1 w2 =>
  pushFrame s i c (aWords (wadd c.pc.toNat 2) ++ maskFrame c w2) (fun s a =>
    .done s (fun x => pcTo (setA x 7 a) (areg c (fld w1 2 0)))))
/-- Pop the PC and the masked registers. -/
def popPc (s : State) (i : Nat) (c : Core) (mask : Nat) : IRes :=
  popFrame s i c (2 + maskWords mask) (fun ws =>
    .done s (fun x => pcTo (setA (maskPop x mask (ws.drop 2)) 7 (areg c 7 + ws.length)) (aValue ws)))
/-- RETM. -/
def doRetm (i : Nat) (s : State) : State := issue i .retm s (fun s i c _ w2 => popPc s i c w2)
/-- RET: RETM with mask 0. -/
def doRet (i : Nat) (s : State) : State := issue i .ret s (fun s i c _ _ => popPc s i c 0)
/-- PUSHM. -/
def doPushm (i : Nat) (s : State) : State := issue i .pushm s (fun s i c _ w2 =>
  pushFrame s i c (maskFrame c w2) (fun s a => step1 s 2 (fun x => setA x 7 a)))
/-- POPM. -/
def doPopm (i : Nat) (s : State) : State := issue i .popm s (fun s i c _ w2 =>
  popFrame s i c (maskWords w2) (fun ws => step1 s 2 (fun x => setA (maskPop x w2 ws) 7 (areg c 7 + ws.length))))

/-! ## String instructions (R215, R216) -/

/-- The check of the words an element reads and writes. -/
def elemChk (s : State) (i : Nat) (c : Core) (reads writes : List Nat) : AccChk :=
  (reads.map (fun wa => unitChk s i c wa 1 false false) ++ writes.map (fun wa => unitChk s i c wa 1 true false)).foldl chkJoin .ok
/-- One element: checked, its words read, then `k` with their values. -/
def strElem (s : State) (i : Nat) (c : Core) (reads writes : List Nat) (data : Bool) (k : State → List Nat → IRes) : IRes :=
  match elemChk s i c reads writes with
  | .bad code wa cls => .exc (accDeny s i c wa cls) id code (some wa) 0
  | .wait => .hold
  | .ok =>
    if reads.any (fun wa => decide (winBase ≤ wa)) ∧ ! data then .load
    else
      let s := if reads.any (fun wa => accPoisoned s c wa 1 1) then poisonedLoad s i else s
      let r := reads.foldl (fun (r : List Nat × State) wa =>
        let q := accRead r.2 i c wa 1 1
        (r.1 ++ q.1, q.2)) ([], s)
      k r.2 r.1
/-- After an element: A4 (where used) and A5 move, D6 falls, and the PC moves on when none remains. -/
def strNext (w1 : Nat) (src : Bool) (x : Core) : Core :=
  let mv := fun a => if bitOf w1 7 then addrAdd a (-1) else wadd a 1
  let n := dreg x 6 - 1
  let x := setD (setA (if src then setA x 4 (mv (areg x 4)) else x) 5 (mv (areg x 5))) 6 n
  if n = 0 then pcAdd x 1 else x
/-- MOVS's body: one element. -/
def movsBody (data : Bool) (s : State) (i : Nat) (c : Core) (w1 _w2 : Nat) : IRes :=
  if dreg c 6 = 0 then step1 s 1 id
  else strElem s i c [areg c 4] [areg c 5] data (fun s ws => .done (accWrite s i c (areg c 5) 1 ws) (strNext w1 true))
/-- MOVS. -/
def doMovs (i : Nat) (s : State) : State := issue i .movs s (movsBody false)
/-- FILLS: one element. -/
def doFills (i : Nat) (s : State) : State := issue i .fills s (fun s i c w1 _ =>
  if dreg c 6 = 0 then step1 s 1 id
  else strElem s i c [] [areg c 5] false (fun s _ => .done (accWrite s i c (areg c 5) 1 [dreg c (fld w1 2 0)]) (strNext w1 false)))
/-- CMPS's body: one element; a mismatch ends it. -/
def cmpsBody (data : Bool) (s : State) (i : Nat) (c : Core) (w1 _w2 : Nat) : IRes :=
  if dreg c 6 = 0 then step1 s 1 id
  else strElem s i c [areg c 4, areg c 5] [] data (fun s ws =>
    if ws.getD 0 0 ≠ ws.getD 1 0 then step1 s 1 id else .done s (strNext w1 true))
/-- CMPS. -/
def doCmps (i : Nat) (s : State) : State := issue i .cmps s (cmpsBody false)
/-- SCANS's body: one element; a match (ne 0) or a non-match (ne 1) ends it. -/
def scansBody (data : Bool) (s : State) (i : Nat) (c : Core) (w1 _w2 : Nat) : IRes :=
  if dreg c 6 = 0 then step1 s 1 id
  else strElem s i c [areg c 5] [] data (fun s ws =>
    if (ws.getD 0 0 == dreg c (fld w1 2 0)) != bitOf w1 6 then step1 s 1 id else .done s (strNext w1 false))
/-- SCANS. -/
def doScans (i : Nat) (s : State) : State := issue i .scans s (scansBody false)

/-- WINDOW_LOAD_DATA (R194): the data of the load that stalls the core arrives, and the instruction completes (a string instruction its
element). -/
def doWindowLoadData (i : Nat) (s : State) : State := reissue i s .load (fun r s i c w1 w2 =>
  match r with
  | .ld => ldBody true s i c w1 w2
  | .ldm => ldmBody true s i c w1 w2
  | .acld => acldBody true s i c w1 w2
  | .movs => movsBody true s i c w1 w2
  | .cmps => cmpsBody true s i c w1 w2
  | .scans => scansBody true s i c w1 w2
  | _ => .hold)

end Sys2Proof.Machine
end

