-- ==== Sys2Proof/Machine/Fabric.lean ====
section
/-! DEFINITION. Requests of the fabric for DRAM and scratch (spec/01_architecture.md, R13 to R20; spec/12_system_cache.md, R248, R253, R254,
R259, R260): their check, their answer, and what their denial does to who made them. -/

namespace Sys2Proof.Machine
open Sys2Proof

/-! ## Reserved regions (R16, Table 24-5) -/

/-- The stores of the service area, in the table's order from its base (assumption 35): completion overflow and key table; the Bridy Link
stores of a port. -/
def keyTableArea (s : State) : Nat := serviceArea s + 0x10000000
def overflowArea (s : State) : Nat := keyTableArea s + 0x1000000
def bridyArea (s : State) (port : Nat) : Nat := overflowArea s + 0x200000 + port * 0x8C00000
/-- Do `n` bytes at `a` lie in a region? -/
def insideOf (a n b l : Nat) : Bool := decide (b ≤ a) && decide (a + n ≤ b + l)
/-- The item on whose behalf an engine requests is a LOAD_PLAN. -/
def loadsPlan (s : State) (item : Option Nat) : Bool := ((item.bind (getItem s)).map (fun it => it.opcode == 0x02)).getD false
/-- Is a range in a reserved region assigned to the initiator (R16)? -/
def assigned (s : State) (r : FabReq) : Bool :=
  let c := getCore s r.init
  let plans := insideOf r.addr r.len (serviceArea s) 0x10000000
  let ledger := insideOf r.addr r.len (ledgerArea s) (stPoolArea s - ledgerArea s)
  let links := fun (p off len : Nat) => insideOf r.addr r.len (bridyArea s p + off) len
  if r.init < 144 then reservedOk s r.init { c with fntag := BitVec.ofNat 8 r.fn } r.addr r.len
  else if 0x90 ≤ r.init ∧ r.init ≤ 0x94 then insideOf r.addr r.len (ledgerArea s) (dramSize s - ledgerArea s)
  else match r.init with
    | 0x95 => insideOf r.addr r.len (keyTableArea s) 0x1200000
    | 0x97 => (plans && loadsPlan s r.item) || ledger
    | 0x98 => insideOf r.addr r.len (replyArea s) (2 * gib)
    | 0x99 => insideOf r.addr r.len (replyArea s) (2 * gib)
    | 0x9A => links 0 0 0x8C00000
    | 0x9B => links 1 0 0x8C00000
    | 0x9C => ledger || links 0 0x4000000 0x4C00000 || links 1 0x4000000 0x4C00000
    | 0x9D => plans || ledger || links 0 0 0x8C00000 || links 1 0 0x8C00000
    | 0x9E => plans || ledger || links 0 0 0x8C00000 || links 1 0 0x8C00000
    | 0x9F => plans
    | _ => false

/-! ## The check (R14, R16, R18, R20, R254) -/

/-- May the initiator reach DRAM outside the reservations (Table 1-4)? -/
def dramMay (s : State) (r : FabReq) : Bool :=
  if r.init = 0x94 then true
  else if r.init = 0x96 ∨ r.init = 0xA3 then false
  else if r.init = 0xA2 then s.sec.debugOpen
  else winOk s r.fn r.addr r.len
/-- Function tag of a request: BAR4 accesses carry 0 (R254). -/
def reqTag (r : FabReq) : Nat := if r.init = 0x96 then 0 else r.fn
/-- May the initiator reach a valid slot of scratch (R254, Table 1-4)? -/
def slotMay (s : State) (r : FabReq) (q : Nat) : Bool :=
  (decide (0x90 ≤ r.init) && decide (r.init ≤ 0x94))
  || (r.init != 0xA3 && (r.init != 0xA2 || s.sec.debugOpen) && partOf s (reqTag r) == rfld s (slotReg q) 0 26 24)
/-- Is a data-space access of 1 to 128 bytes, a power of two, naturally aligned (R20)? -/
def dataShape (a n : Nat) : Bool := [1, 2, 4, 8, 16, 32, 64, 128].contains n && a % n == 0
/-- Does a request's line stand in, or would it fill, a way whose retirement copy runs (R260)? -/
def placeRetiring (s : State) (l : Nat) : Place → Bool
  | .hit w => s.cache.retiring.contains (sliceOf l * 16 + w)
  | .fill w => s.cache.retiring.contains (sliceOf l * 16 + w)
  | .pass => false
/-- The check of a request for DRAM or scratch; other targets have no home slice. -/
def reqCheck (s : State) (r : FabReq) : FabChk :=
  if r.addr < 0x8000000000 then
    if r.addr + r.len > dramSize s then .unbacked
    else if r.resv then (if assigned s r then .ok else .denied 0)
    else if r.addr + r.len > ledgerArea s ∨ ! dramMay s r then .denied 0
    else .ok
  else if scratchBase ≤ r.addr ∧ r.addr < 0xE004000000 then
    let q := (r.addr - scratchBase) / 4194304
    if q ≥ 12 ∨ rfld s (slotReg q) 0 31 31 = 0 then .unbacked
    else if r.resv ∨ ! slotMay s r q then .denied 0
    else .ok
  else .unbacked

/-! ## Answers (R2, R15, R18, R20) -/

/-- Answer a read; a write has no answer. -/
def fabAnswer (s : State) (r : FabReq) (err : Bool) (data : List Byte) : State :=
  if r.bytes.isSome then s else { s with out := { s.out with resp := s.out.resp ++ [(r.init, err, data)] } }
/-- Word of a core's window that shows an internal address, if any. -/
def windowWord (c : Core) (a : Nat) : Option Nat := if a / 2 ^ 24 = c.winb.toNat then some (winBase + a % 2 ^ 24 / 2) else none
/-- A core takes a precise exception for an access through its window. -/
def coreFault (s : State) (i addr code : Nat) : State :=
  let c := getCore s i
  match windowWord c addr with
  | some wa => if c.run = .run ∨ c.run = .load then syncExc (coreUpd s i (fun c => { c with run := .run })) i c.pc.toNat code (some wa) 0 else s
  | none => s
/-- A request that is not served: a write is discarded, a read returns zeros marked with an error; a core takes an exception, and an
engine's item ends with a status. -/
def fabFail (s : State) (r : FabReq) (code st : Nat) : State :=
  let s := fabAnswer s r true (natLE r.len 0)
  if r.init < 148 then coreFault s r.init r.addr code
  else match r.item with
    | some id => failItem s id st 0 0
    | none => s

/-! ## Service (R248, R251, R259) -/

/-- Port of a request (Table 13-1): a tile's follows the latency class of its running thread. -/
def portOf (s : State) (init : Nat) : Nat :=
  if init < 0x90 then (((logTile s init).bind (runningOn s)).map (fun p => p.2.lc)).getD 3
  else if init ≤ 0x94 ∨ init = 0xA2 ∨ init = 0xA3 then 7
  else if init = 0x98 ∨ init = 0x99 ∨ init = 0x9F then 0
  else 5
/-- A read of poisoned data fails the item that issued it (R259, R464). -/
def fabPoison (s : State) (r : FabReq) : State :=
  if r.bytes.isSome ∨ ! poisonedIn s r.addr r.len then s
  else if r.init < 148 then poisonedLoad s r.init
  else match r.item with
    | some id => failItem s id St.dataPoisoned 0 0
    | none => s
/-- A request for scratch is served. -/
def serveScratch (s : State) (r : FabReq) : State :=
  let l := r.addr / 128
  let s := wayError s (scratchWay s l / 16) (scratchWay s l % 16) ((l - scratchBase / 128) / 32 % 1024) r.err
  match r.bytes with
  | some b => scratchStore s r.addr b
  | none => fabAnswer (fabPoison s r) r false (mreads s.dram r.addr r.len)
/-- A request for DRAM is served at its home slice. -/
def serveDram (s : State) (r : FabReq) : State :=
  let l := lineOf r.addr
  let part := partFor s r.init r.fn r.item
  let port := portOf s r.init
  let s := match linePlace s part l with
    | .hit w => wayError s (sliceOf l) w (setOf l) r.err
    | _ => s
  let at_ := linePlace s part l
  match r.bytes with
  | some b => usePlace (lineTraffic (dramStore s r.addr b) l port true (r.len == 128) at_) l true at_
  | none =>
    let t := fabAnswer (fabPoison (usePlace (lineTraffic s l port false false at_) l false at_) r) r false (mreads s.dram r.addr r.len)
    if r.stream < 8 ∧ r.init < 0x90 then prefetch t r.fn r.init r.stream l else t
/-- Does an admitted request wait: its slot is not ready, or its way is being copied (R253, R260)? -/
def reqWaits (s : State) (r : FabReq) : Bool :=
  if r.addr < 0x8000000000 then placeRetiring s (lineOf r.addr) (linePlace s (partFor s r.init r.fn r.item) (lineOf r.addr))
  else rfld s (slotReg ((r.addr - scratchBase) / 4194304)) 0 0 0 == 0 || s.cache.retiring.contains (scratchWay s (r.addr / 128))
/-- One request at the fabric: checked, then served, or put to wait. -/
def fabServe (s : State) (r : FabReq) : State :=
  if ! dataShape r.addr r.len then fabFail s r Exc.align St.alignment
  else match reqCheck s r with
    | .denied cls => fabFail (deny s r.init (reqTag r) r.addr cls) r Exc.access St.accessDenied
    | .ok =>
      if reqWaits s r then { s with cache := { s.cache with waits := s.cache.waits ++ [r] } }
      else if r.addr < 0x8000000000 then serveDram s r
      else serveScratch s r
    | _ => fabFail s r Exc.access St.addressRange
/-- The requests that wait are tried again, in order of arrival. -/
def serveWaits (s : State) : State := s.cache.waits.foldl fabServe { s with cache := { s.cache with waits := [] } }
/-- CACHE_ACCESS: a request of an initiator, with its function tag, its reservation bit, and the item it is made for. -/
def doCacheAccess (init fn : Nat) (resv : Bool) (addr n : Nat) (bytes : Option (List Byte)) (stream err : Nat) (item : Option Nat)
    (s : State) : State :=
  let len := match bytes with
    | some b => b.length
    | none => n
  fabServe (serveWaits s) ⟨init, fn, resv, addr, len, bytes, stream, err, item⟩

/-! ## What waiting requests wait for -/

/-- WAY_RETIRE_DONE (R260, R261): a retirement copy ends; `bad` names the sets whose line could not be corrected. -/
def doWayRetireDone (slice w : Nat) (bad : List Nat) (s : State) : State := serveWaits (wayRetireDone slice w bad s)
/-- SCRATCH_READY (R253). -/
def doScratchReady (q : Nat) (s : State) : State := serveWaits (scratchReady q s)

end Sys2Proof.Machine
end

