-- ==== Sys2Proof/Machine/ExecCache.lean ====
section
/-! DEFINITION. The meanings of the commands of spec/12_system_cache.md. -/

namespace Sys2Proof.Machine
open Sys2Proof

/-- CACHE_ACCESS (R248). -/
def execCacheAccess (init : Nat) (fn : Nat × Bool) (addr n : Nat) (bytes : Option (List Byte)) (stream : Nat) (err : Nat × Option Nat) (s : State) : Host.Outcome State Fault Refusal :=
  .next (secondFault s (doCacheAccess init fn.1 fn.2 addr n bytes stream err.1 err.2 s))
/-- WAY_RETIRE_DONE (R260). -/
def execWayRetireDone (slice w : Nat) (bad : List Nat) (s : State) : Host.Outcome State Fault Refusal :=
  .next (doWayRetireDone slice w bad s)
/-- SC_CLEAN (R255). -/
def execScClean (p : Path) (s : State) : Host.Outcome State Fault Refusal := .next (rowWrite s p Reg.SC_OP (doScClean p))
/-- SC_CLEAN_INVAL (R255). -/
def execScCleanInval (p : Path) (s : State) : Host.Outcome State Fault Refusal := .next (rowWrite s p Reg.SC_OP (doScCleanInval p))
/-- SC_LOCK_LOAD (R252). -/
def execScLockLoad (p : Path) (s : State) : Host.Outcome State Fault Refusal := .next (rowWrite s p Reg.SC_OP (doScLockLoad p))
/-- SC_OP_DONE (R255). -/
def execScOpDone (s : State) : Host.Outcome State Fault Refusal := .next (doScOpDone s)
/-- SC_LOCK_WRITE (R252). -/
def execScLockWrite (p : Path) (v : Nat) (s : State) : Host.Outcome State Fault Refusal :=
  .next (rowWriteVal s p Reg.SC_LOCK v (doScLockWrite p v))
/-- CACHE_DISABLE (R257). -/
def execCacheDisable (p : Path) (s : State) : Host.Outcome State Fault Refusal := .next (rowWrite s p Reg.SC_CTL (doCacheDisable p))
/-- CACHE_DISABLE_DONE (R257). -/
def execCacheDisableDone (s : State) : Host.Outcome State Fault Refusal := .next (doCacheDisableDone s)
/-- CACHE_ENABLE (R257). -/
def execCacheEnable (p : Path) (s : State) : Host.Outcome State Fault Refusal := .next (rowWrite s p Reg.SC_CTL (doCacheEnable p))
/-- WAY_POWER_DOWN (R258). -/
def execWayPowerDown (p : Path) (v : Nat) (s : State) : Host.Outcome State Fault Refusal :=
  .next (rowWriteVal s p Reg.SC_PWR v (doWayPowerDown p v))
/-- WAY_POWER_OFF_DONE (R258). -/
def execWayPowerOffDone (w : Nat) (s : State) : Host.Outcome State Fault Refusal := .next (doWayPowerOffDone w s)
/-- WAY_POWER_UP (R258). -/
def execWayPowerUp (p : Path) (v : Nat) (s : State) : Host.Outcome State Fault Refusal :=
  .next (rowWriteVal s p Reg.SC_PWR v (doWayPowerUp p v))
/-- SCRATCH_CONVERT (R253). -/
def execScratchConvert (p : Path) (q v : Nat) (s : State) : Host.Outcome State Fault Refusal :=
  .next (rowWriteVal s p (slotReg q) v (doScratchConvert p q v))
/-- SCRATCH_READY (R253). -/
def execScratchReady (q : Nat) (s : State) : Host.Outcome State Fault Refusal := .next (doScratchReady q s)
/-- SCRATCH_RELEASE (R253). -/
def execScratchRelease (p : Path) (q v : Nat) (s : State) : Host.Outcome State Fault Refusal :=
  .next (rowWriteVal s p (slotReg q) v (doScratchRelease p q v))

end Sys2Proof.Machine
end

