-- ==== Sys2Proof/Machine/ExecCam.lean ====
section
/-! DEFINITION. The meanings of the commands of spec/19_routing_cam.md. -/

namespace Sys2Proof.Machine
open Sys2Proof

/-- CAM_UPDATE (R414). -/
def execCamUpdate (id : Nat) (s : State) : Host.Outcome State Fault Refusal := .next (doCamUpdate id s)
/-- CAM_SEARCH (R415). -/
def execCamSearch (id : Nat) (s : State) : Host.Outcome State Fault Refusal := .next (doCamSearch id s)
/-- CAM_WINDOW_WRITE (R408). -/
def execCamWindowWrite (init fn addr : Nat) (bytes : List Byte) (s : State) : Host.Outcome State Fault Refusal :=
  .next (doCamWindowWrite init fn addr bytes s)
/-- CAM_LOOKUP (R409). -/
def execCamLookup (fn : Nat) (key : Nat × Nat × Bool) (s : State) : Host.Outcome State Fault Refusal :=
  .next (doCamLookup fn key.1 key.2.1 key.2.2 s)
/-- CAM_SCRUB (R416). -/
def execCamScrub (ent err : Nat) (s : State) : Host.Outcome State Fault Refusal := .next (secondFault s (doCamScrub ent err s))
/-- CAM_SPARE_LOAD_DONE (R416). -/
def execCamSpareLoadDone (s : State) : Host.Outcome State Fault Refusal := .next (doCamSpareLoadDone s)

end Sys2Proof.Machine
end

