-- ==== Sys2Proof/Machine/ExecCipher.lean ====
section
/-! DEFINITION. The meanings of the commands of spec/18_cipher_digest.md. -/

namespace Sys2Proof.Machine
open Sys2Proof

/-- CIPHER (R393). -/
def execCipher (id : Nat) (s : State) : Host.Outcome State Fault Refusal := .next (doCipher id s)
/-- DIGEST (R393). -/
def execDigest (id : Nat) (s : State) : Host.Outcome State Fault Refusal := .next (doDigest id s)
/-- KEY_LOAD (R388). -/
def execKeyLoad (p : Path) (v : Nat) (s : State) : Host.Outcome State Fault Refusal :=
  .next (rowWriteVal s p Reg.CIPH_KEY_CMD v (doKeyLoad p v))
/-- KEY_ERASE (R389). -/
def execKeyErase (p : Path) (v : Nat) (s : State) : Host.Outcome State Fault Refusal :=
  .next (rowWriteVal s p Reg.CIPH_KEY_CMD v (doKeyErase p v))
/-- STAGING_ZEROISE (R388). -/
def execStagingZeroise (p : Path) (v : Nat) (s : State) : Host.Outcome State Fault Refusal :=
  .next (rowWriteVal s p Reg.CIPH_KEY_CMD v (doStagingZeroise p v))
/-- KEY_ERASE_DONE (R389). -/
def execKeyEraseDone (k : Nat) (s : State) : Host.Outcome State Fault Refusal := .next (doKeyEraseDone k s)
/-- CIPHER_MESSAGE_DONE (R398). -/
def execCipherMessageDone (a : Nat) (pair : Option Nat) (s : State) : Host.Outcome State Fault Refusal :=
  .next (doCipherMessageDone a pair s)
/-- DIGEST_MESSAGE_DONE (R402). -/
def execDigestMessageDone (a : Nat) (pair : Option Nat) (s : State) : Host.Outcome State Fault Refusal :=
  .next (doDigestMessageDone a pair s)

end Sys2Proof.Machine
end

