-- ==== Sys2Proof/Machine/CodecItems.lean ====
section
/-! DEFINITION. CODEC and TABLE_APPEND items (spec/03_block_codec.md, R56 to R60; spec/14_host_queues.md, R294, R295). -/

namespace Sys2Proof.Machine
open Sys2Proof

/-! ## CODEC (R58 to R60) -/

/-- Body of a CODEC item (Table 14-5). -/
structure CodecBody where
  inAddr : Nat
  decode : Bool
  esize : Nat
  nflush : Nat
  outAddr : Nat
  inLen : Nat
  outLen : Nat
  flushAddr : Nat
deriving DecidableEq, Repr
def codecBody (it : Item) : CodecBody :=
  let w := it.body 32 8
  ⟨fld w 39 0, bitOf w 40, fld w 42 41, fld w 63 48, it.body 40 8 % 2 ^ 40, it.body 48 4, it.body 52 4, it.body 56 8 % 2 ^ 40⟩
/-- Flush indices of an encode. -/
def flushList (s : State) (b : CodecBody) : List Nat := (List.range b.nflush).map (fun i => mnat s.dram (b.flushAddr + 4 * i) 4)
/-- The checks that either direction makes before any effect (R295). The flush list is checked in both directions, and an encode's
poison ahead of R59's own checks (DESIGN CHOICE, assumption 34); a decode meets poison where it reads it. -/
def codecCheck (s : State) (it : Item) (b : CodecBody) : Option Nat :=
  firstFail [
    (b.inLen == 0xFFFFFFFF || b.outLen == 0xFFFFFFFF, St.lengthInvalid),
    (decide (b.nflush > 4096), St.invalidField),
    (! winIt s it b.inAddr b.inLen || ! winIt s it b.outAddr b.outLen || ! winIt s it b.flushAddr (4 * b.nflush),
      St.addressRange),
    (! b.decode && poisonedIn s b.inAddr b.inLen || poisonedIn s b.flushAddr (4 * b.nflush), St.dataPoisoned)]
/-- CODEC_ENCODE (R59): DIR 0. The output is released at the commit point. -/
def doCodecEncode (id : Nat) (s : State) : State :=
  match itemAt s id 0x22 0 with
  | none => s
  | some it =>
    let b := codecBody it
    if b.decode then s
    else match codecCheck s it b with
      | some st => failItem s id st 0 0
      | none =>
        let n := b.inLen / 2 ^ b.esize
        let fl := flushList s b
        if ! rising fl || fl.any (fun f => f == 0 || decide (n ≤ f)) then failItem s id St.invalidField 0 0
        else if b.inLen = 0 then itemReady s id 0 0
        else if b.outLen < b.inLen + 8 then failItem s id St.bufferTooSmall 0 0
        else
          let s := dramTouch (dramTouch s (partOf s it.fn) b.flushAddr (4 * b.nflush)) (partOf s it.fn) b.inAddr b.inLen
          let out := streamEncode b.esize fl (mreads s.dram b.inAddr b.inLen)
          itemReady (addEffects s id [.dram b.outAddr out]) id b.inLen out.length
/-- CODEC_DECODE (R60): DIR 1. A failed decode that has begun its output leaves the buffer unspecified: free bytes. -/
def doCodecDecode (id : Nat) (s : State) : State :=
  match itemAt s id 0x22 0 with
  | none => s
  | some it =>
    let b := codecBody it
    if ! b.decode then s
    else match codecCheck s it b with
      | some st => failItem s id st 0 0
      | none =>
        let s := dramTouch s (partOf s it.fn) b.inAddr (streamDecode (mreads s.dram b.inAddr b.inLen) b.outLen).seen
        let r := streamDecode (mreads s.dram b.inAddr b.inLen) b.outLen
        if poisonedIn s b.inAddr r.seen then failItem s id St.dataPoisoned 0 0
        else if r.status = 0 then itemReady (addEffects s id [.dram b.outAddr r.out]) id r.consumed r.out.length
        else
          let s := if r.consumed = 0 then s
            else
              let free := (List.range b.outLen).map (Config.freeByte s.freeCtr)
              { dramWrite s (partOf s it.fn) b.outAddr free with freeCtr := s.freeCtr + 1 }
          failItem s id r.status r.consumed r.out.length

/-! ## TABLE_APPEND (R294, R56, R57, R49) -/

/-- A source entry (Table 14-6). -/
structure SrcEnt where
  data : Nat
  valid : Nat
  type : Nat
  scale : Nat
  l16 : Bool
deriving DecidableEq, Repr
def srcEnts (s : State) (it : Item) (n : Nat) : List SrcEnt :=
  (List.range n).map (fun c =>
    let a := it.body 40 8 + 24 * c
    ⟨mnat s.host a 8, mnat s.host (a + 8) 8, mnat s.host (a + 16) 1, mnat s.host (a + 17) 1, bitOf (mnat s.host (a + 18) 1) 0⟩)
/-- Source types that a column type admits: its own 72-bit form, and the narrow types of its kind (DESIGN CHOICE,
assumption 16). -/
def admits (type code : Nat) : Bool :=
  code == 0 || match type with
    | 1 => code ≤ 8
    | 2 => code == 0xE
    | 3 => code == 0xA
    | 4 => code == 0xB
    | 5 => code == 0xC
    | 6 => code == 0x9
    | 7 => code == 0xD
    | _ => false
/-- The lane of row `i` of a source (R28, R29). -/
def srcLane (s : State) (e : SrcEnt) (i : Nat) : Lane :=
  if e.valid ≠ 0 ∧ ! bitOf (mread s.host (e.valid + i / 8)).toNat (i % 8) then nullLane
  else widen e.type (mreads s.host (e.data + i * srcWidth e.type e.l16) (srcWidth e.type e.l16))
/-- Rows that go into the last segment (R57): one that an append left partly filled without SEAL, which the device keeps in mind by
its PLANES_ADDR (DESIGN CHOICE, assumption 16), its planes still all at r = 1. -/
def partRoom (s : State) (t : TableDesc) : Nat :=
  if t.nsegs = 0 then 0
  else
    let sg := readSeg s.dram t (t.nsegs - 1)
    if 0 < sg.rows ∧ sg.rows < 65536 ∧ s.plans.openSegs.contains sg.planes ∧ (List.range (2 * t.ncols)).all (fun k => planeRatio (mnat s.dram (sg.planes + 8 * k) 8) == 0)
    then 65536 - sg.rows else 0
/-- Row counts of the new segments that `n` rows fill. -/
def segSplit : Nat → Nat → List Nat
  | 0, _ => []
  | k + 1, n => if n = 0 then [] else min n 65536 :: segSplit k (n - 65536)
/-- Raw bytes of a new segment: its plane array and its planes, each rounded up to 128 bytes. -/
def rawSegBytes (ncols rows : Nat) : Nat :=
  alignUp (16 * ncols) 128 + ncols * (planeSize false 0 (planeBlocks rows) 0 + planeSize true 0 (planeBlocks rows) 0)
/-- Rows for which a new segment's planes are allocated. -/
def segAlloc (full : Bool) (n : Nat) : Nat := if n = 65536 ∨ full then n else 65536
/-- The checks of R294, in order, with the arena's place. -/
def appendCheck (s : State) (it : Item) (t : TableDesc) (es : List SrcEnt) (news : List Nat) (full : Bool) : Option Nat :=
  let arena := it.body 48 8 % 2 ^ 40
  let len := it.body 60 3 * 4096
  match descCheck s (winIt s it) t.addr with
  | some st => some st
  | none =>
    let pair := fun (f : SrcEnt → ColDesc → Bool) => (es.zipIdx).any (fun p => f p.1 (readCol s.dram t p.2))
    firstFail [
      (! t.appendOpen, St.tableClosed),
      (es.any (fun e => decide (e.type > 0xE)), St.invalidField),
      (pair (fun e c => ! admits c.type e.type), St.typeMismatch),
      (pair (fun e c => e.type == 0xE && e.scale != c.scale), St.scaleMismatch),
      (decide (len < sumBy (fun n => rawSegBytes t.ncols (segAlloc full n)) news), St.workAreaSmall),
      (arena % 4096 != 0, St.alignment),
      (! winIt s it arena len, St.addressRange)]
/-- Elements of a plane from lanes. -/
def planeElems (high : Bool) (ls : List Lane) : List Nat := ls.map (if high then laneHigh else laneLow)
/-- Cut elements into blocks of 512. -/
def elemBlocks : Nat → List Nat → List (List Nat)
  | 0, _ => []
  | n + 1, xs => if xs.isEmpty then [] else xs.take 512 :: elemBlocks n (xs.drop 512)
/-- Write rows into the r = 1 planes of a segment from row `at_` on, and its headers when `at_` is 0. -/
def writeRaw (s : State) (part base : Nat) (high : Bool) (at_ : Nat) (xs : List Nat) : State :=
  let w := if high then 1 else 8
  let s := if at_ = 0 then dramWrite s part base (natLE 18 0 ++ natLE 1 (b2n high) ++ natLE 109 0) else s
  dramWrite s part (base + 128 + at_ * w) (xs.flatMap (natLE w))
/-- Write one new segment's planes from arena address `a`; gives the plane references and the next free address. -/
def writePlanes (part : Nat) (full : Bool) : State → Nat → List (List Lane) → State × List Nat × Nat
  | s, a, [] => (s, [], a)
  | s, a, ls :: rest =>
    let coded := ls.length = 65536 ∨ full
    let one := fun (s : State) (a : Nat) (high : Bool) =>
      let xs := planeElems high ls
      if coded then
        let blocks := elemBlocks (ls.length / 512 + 1) xs
        let rc := chooseRatio high blocks
        let bs := encodePlane high rc blocks
        (dramWrite s part a bs, a + rc * 2 ^ 40, alignUp (a + bs.length) 128)
      else (writeRaw s part a high 0 xs, a, a + planeSize high 0 128 0)
    let lo := one s a false
    let hi := one lo.1 lo.2.2 true
    let z := writePlanes part full hi.1 hi.2.2 rest
    (z.1, lo.2.1 :: hi.2.1 :: z.2.1, z.2.2)
/-- Write the new segments from arena address `a` and row `row` of the source; gives their directory entries. -/
def writeSegs (part : Nat) (es : List SrcEnt) (ncols nrows : Nat) (full : Bool) : State → Nat → Nat → List Nat → State × List (List Byte)
  | s, _, _, [] => (s, [])
  | s, a, row, n :: rest =>
    let lanes := es.map (fun e => (List.range n).map (fun i => srcLane s e (row + i)))
    let z := writePlanes part full s (a + alignUp (16 * ncols) 128) lanes
    let s := dramWrite z.1 part a (z.2.1.flatMap (natLE 8))
    let ent := natLE 8 (nrows + row) ++ natLE 4 n ++ natLE 4 0 ++ natLE 8 0 ++ natLE 8 a
    let w := writeSegs part es ncols nrows full s z.2.2 (row + n) rest
    (w.1, ent :: w.2)
/-- The first `k` rows of the source go into the last segment's planes (R57). -/
def extendSeg (part : Nat) (es : List SrcEnt) (last : SegDesc) (k : Nat) (s : State) : State :=
  if k = 0 then s
  else (es.zipIdx).foldl (fun s p =>
    let ls := (List.range k).map (srcLane s p.1)
    let ref := fun (h : Nat) => planeBase (mnat s.dram (last.planes + 16 * p.2 + 8 * h) 8)
    writeRaw (writeRaw s part (ref 0) false last.rows (planeElems false ls)) part (ref 1) true last.rows (planeElems true ls)) s
/-- What an append publishes at its commit point (R49 steps 2 to 4): the entries, NSEGS and NROWS, and last the generation. -/
def appendEffects (t : TableDesc) (last : SegDesc) (k n : Nat) (ents : List (List Byte)) : List Effect :=
  let dirEnd := t.segdir + 32 * t.nsegs
  (if k = 0 then [] else [Effect.dram (dirEnd - 32 + 8) (natLE 4 (last.rows + k))])
    ++ (if ents.isEmpty then [] else [Effect.dram dirEnd ents.flatten])
    ++ [.dram (t.addr + 16) (natLE 4 (t.nsegs + ents.length)), .dram (t.addr + 8) (natLE 8 (t.nrows + n)),
        .dram (t.addr + 56) (natLE 8 (t.generation + 1))]
/-- Note which segments an append leaves open (R57): the last one it extended, and each new one, by its directory entry. -/
def openMarks (s : State) (last k : Nat) (full : Bool) (ents : List (List Byte)) : State :=
  let new := ents.map (fun e => (leAt e 24 8, leAt e 8 4))
  let keep := s.plans.openSegs.filter (fun a => ! (k ≠ 0 && full && a == last) && ! new.any (fun p => p.1 == a))
  { s with plans := { s.plans with openSegs := keep ++ (if full then [] else (new.filter (fun p => p.2 < 65536)).map (·.1)) } }
/-- TABLE_APPEND: the plane blocks are written (R49 step 1); steps 2 to 4 are held until the commit point. -/
def doTableAppend (id : Nat) (s : State) : State :=
  match itemAt s id 0x50 0 with
  | none => s
  | some it =>
    let t := readTable s.dram (it.body 32 8)
    let es := srcEnts s it t.ncols
    let n := it.body 56 4
    let full := bitOf (it.body 63 1) 0
    let k := min n (if t.ncols ≤ 1024 then partRoom s t else 0)
    let news := segSplit (n / 65536 + 1) (n - k)
    let bad := (appendCheck s it t es news full) <|> (if k = 0 then none
      else segCheck s it.fn t (readSeg s.dram t (t.nsegs - 1)) (List.range t.ncols))
    match bad with
    | some st => failItem s id st 0 0
    | none =>
      if n = 0 then itemReady s id t.generation t.nrows
      else
        let last := readSeg s.dram t (t.nsegs - 1)
        let part := partOf s it.fn
        let z := writeSegs part es t.ncols t.nrows full (extendSeg part es last k s) (it.body 48 8 % 2 ^ 40) k news
        itemReady (openMarks (addEffects z.1 id (appendEffects t last k n z.2)) last.planes k full z.2) id (t.generation + 1) t.nrows

end Sys2Proof.Machine
end

