-- ==== Sys2Proof/Machine/ExecCodec.lean ====
section
/-! DEFINITION. The meanings of the commands of spec/03_block_codec.md. -/

namespace Sys2Proof.Machine
open Sys2Proof

/-- CODEC_ENCODE (R59). -/
def execCodecEncode (id : Nat) (s : State) : Host.Outcome State Fault Refusal := .next (doCodecEncode id s)
/-- CODEC_DECODE (R60). -/
def execCodecDecode (id : Nat) (s : State) : Host.Outcome State Fault Refusal := .next (doCodecDecode id s)

end Sys2Proof.Machine
end

