-- ==== Sys2Proof/Machine/DmaEnd.lean ====
section
/-! DEFINITION. The end of a DMA segment's count (spec/15_dma_and_functions.md, R319, R322 to R324). -/

namespace Sys2Proof.Machine
open Sys2Proof

/-- The end-of-count interrupt of a host MOVE in chain form. -/
def endOfCount (s : State) (x : Xfer) (i : Nat) (g : Seg) : State :=
  if bitOf g.ctl 15 ∧ x.chain ∧ x.prog ≠ 0 then
    let s := hostWrite s x.prog (natLE 8 (i + 1))
    match x.who with
    | .move id => (match getItem s id with
      | some it => sendMsix s it.fn (rfld s Reg.QM_Q_CFG it.queue 31 21)
      | none => s)
    | _ => s
  else s
/-- Has an item been failed already, its completion waiting for its data? -/
def itemFailed (it : Item) : Bool := it.phase == .ready && it.status != 0
/-- Count the end of a segment's count (DMA_CH_CNT). -/
def countSeg (s : State) (c : Nat) : State :=
  { s with dma := { s.dma with segs := tset s.dma.segs c (satAdd 32 (tgetD s.dma.segs c 0) 1) } }
/-- An item ends at the boundary of its channel: with a status, unless it has one already (R322, R324). Its thread waited for the engine,
and goes on as a CONTINUATION unless the item was aborted (R155). -/
def endAtBoundary (s : State) (id st r0 : Nat) : State :=
  match getItem s id with
  | none => s
  | some it => if itemFailed it then complete s id else if st = St.aborted then failItem s id st r0 0 else engineFail s id st r0 0
/-- A segment of a MOVE. `srcErr` says that a host read of its source failed, `backErr` that the read-back of BARRIER 0b10 did. -/
def moveEnd (s : State) (c id : Nat) (x : Xfer) (g : Seg) (srcErr backErr : Bool) : State :=
  if g.srcHost ∧ srcErr ∧ g.count ≠ 0 then endAtBoundary (freeChannel s c) id St.dmaHostError x.pos
  else if segPoisoned s g then endAtBoundary (freeChannel s c) id St.dataPoisoned x.pos
  else
    let it := getItem s id
    let s := segMove s ((it.map (fun i => partOf s i.fn)).getD 0) g
    if backErr ∧ g.dstHost ∧ fld g.ctl 12 11 = 2 then endAtBoundary (freeChannel s c) id St.dmaHostError x.pos
    else
      let s := endOfCount (countSeg s c) x x.pos g
      let wr := x.written + g.sizes.2.2.1 + g.sizes.2.2.2
      if x.stop ∨ it.all (fun i => itemFailed i || ! i.abortBy.isEmpty) then endAtBoundary (freeChannel s c) id St.aborted 0
      else if x.segs.length ≤ x.pos + 1 then engineDone (freeChannel s c) id wr x.segs.length
      else { s with dma := { s.dma with chan := tset s.dma.chan c { x with pos := x.pos + 1, written := wr } } }
/-- A segment of the zero fill of an FN_RESIZE. -/
def zeroEnd (s : State) (c : Nat) (x : Xfer) (g : Seg) : State :=
  let s := countSeg (dramZero s 0 g.dst g.count) c
  if x.stop then freeChannel s c
  else if x.segs.length ≤ x.pos + 1 then
    let s := freeChannel s c
    { s with fns := { s.fns with resize := s.fns.resize.map (fun r => { r with zero := false }) } }
  else { s with dma := { s.dma with chan := tset s.dma.chan c { x with pos := x.pos + 1, written := x.written + g.count } } }
/-- The transfer of an item's data ends: an ABORT or a failure takes effect, or its requester goes on (R323, R324). A host read that
fails fails the item (R319; DEDUCED for a requester other than MOVE, assumption 43). -/
def xferDataEnd (s : State) (c id : Nat) (cmd : Option Nat) (x : Xfer) (g : Seg) (srcErr : Bool) : State :=
  let s := freeChannel (countSeg s c) c
  match getItem s id with
  | none => s
  | some it =>
    if itemFailed it then complete s id
    else if ! it.abortBy.isEmpty ∨ x.stop then stopItem s id St.aborted
    else if g.srcHost ∧ srcErr then stopItem s id St.dmaHostError
    else if cmd.isSome then ledTick s else s
/-- DMA_SEGMENT_END: channel `c`'s segment in progress ends its count; `srcErr` says that a host read of it failed, `backErr` that
the read-back of its BARRIER did. Then what waits for the channels: the return of the virtual functions' resources. -/
def doDmaSegmentEnd (c : Nat) (srcErr backErr : Bool) (s : State) : State :=
  vfSettle (match tget s.dma.chan c with
    | none => s
    | some x =>
      match x.segs[x.pos]? with
      | none => freeChannel s c
      | some g =>
        match x.who with
        | .move id => moveEnd s c id x g srcErr backErr
        | .zero _ => zeroEnd s c x g
        | .data id cmd => xferDataEnd s c id cmd x g srcErr)

end Sys2Proof.Machine
end

