-- ==== Sys2Proof/Machine/ExecDma.lean ====
section
/-! DEFINITION. The meanings of the commands of spec/15_dma_and_functions.md. -/

namespace Sys2Proof.Machine
open Sys2Proof

/-- MOVE (R318). -/
def execMove (id : Nat × Option Nat) (s : State) : Host.Outcome State Fault Refusal := .next (doMove id.1 id.2 s)
/-- FN_RESIZE (R332). -/
def execFnResize (id : Nat) (s : State) : Host.Outcome State Fault Refusal := .next (doFnResize id s)
/-- RESIZE_UNIT_MOVE (R333). -/
def execResizeUnitMove (u : Nat) (s : State) : Host.Outcome State Fault Refusal := .next (doResizeUnitMove u s)
/-- DMA_CHANNEL_GRANT (R320). -/
def execDmaChannelGrant (s : State) : Host.Outcome State Fault Refusal := .next (doDmaChannelGrant s)
/-- DMA_SEGMENT_END (R322). -/
def execDmaSegmentEnd (c : Nat) (hostErr : Bool × Bool) (s : State) : Host.Outcome State Fault Refusal :=
  .next (doDmaSegmentEnd c hostErr.1 hostErr.2 s)
/-- VF_ENABLE (R327). -/
def execVfEnable (n : Nat) (s : State) : Host.Outcome State Fault Refusal := .next (doVfEnable n s)
/-- VF_ENABLE_CLEAR (R327). -/
def execVfEnableClear (s : State) : Host.Outcome State Fault Refusal := .next (doVfEnableClear s)

end Sys2Proof.Machine
end

