-- ==== Sys2Proof/Machine/ExecDram.lean ====
section
/-! DEFINITION. The meanings of the commands of spec/13_dram_controller.md. -/

namespace Sys2Proof.Machine
open Sys2Proof

/-- DRAM_READ (R267). -/
def execDramRead (l : Nat × Nat) (d0 d1 d2 pin : Nat) (s : State) : Host.Outcome State Fault Refusal :=
  .next (secondFault s (doDramRead l.1 l.2 d0 d1 d2 pin s))
/-- ROW_REPAIR_DONE (R277). -/
def execRowRepairDone (sc : Nat) (bank : Nat × List (Nat × Nat × Nat × Nat)) (s : State) : Host.Outcome State Fault Refusal :=
  .next (doRowRepairDone sc bank.1 bank.2 s)
/-- DRAM_WRITE (R272). -/
def execDramWrite (l : Nat × Nat) (bytes : List Byte) (bad : Bool) (s : State) : Host.Outcome State Fault Refusal :=
  .next (doDramWrite l.1 l.2 bytes bad s)
/-- WRITE_BATCH_DRAIN (R272). -/
def execWriteBatchDrain (sc n : Nat) (s : State) : Host.Outcome State Fault Refusal := .next (doWriteBatchDrain sc n s)
/-- REFRESH (R274). -/
def execRefresh (sc : Nat) (s : State) : Host.Outcome State Fault Refusal := .next (doRefresh sc s)
/-- REFRESH_RATE_POLL (R274). -/
def execRefreshRatePoll (rates : List Nat) (s : State) : Host.Outcome State Fault Refusal := .next (doRefreshRatePoll rates s)
/-- PATROL_SCRUB_READ (R281). -/
def execPatrolScrubRead (sc d0 d1 d2 pin : Nat) (s : State) : Host.Outcome State Fault Refusal :=
  .next (secondFault s (doPatrolScrubRead sc d0 d1 d2 pin s))
/-- SELF_REFRESH_ENTRY (R280). -/
def execSelfRefreshEntry (sc : Nat) (s : State) : Host.Outcome State Fault Refusal := .next (doSelfRefreshEntry sc s)
/-- DELAY_APPLY (R276). -/
def execDelayApply (p : Path) (v : Nat) (s : State) : Host.Outcome State Fault Refusal :=
  .next (rowWrite s p Reg.DMC_DLY_APPLY (doDelayApply p v))
/-- DELAY_COPY (R276). -/
def execDelayCopy (ch : Nat) (s : State) : Host.Outcome State Fault Refusal := .next (doDelayCopy ch s)
/-- DELAY_SHADOW_WRITE (R276). -/
def execDelayShadowWrite (p : Path) (bin : Bool) (v : Nat) (s : State) : Host.Outcome State Fault Refusal :=
  .next (rowWriteVal s p (if bin then Reg.DMC_DLY_BIN else Reg.DMC_DLY_VAL) v (doDelayShadowWrite p bin v))
/-- PPR_SOFT (R278). -/
def execPprSoft (p : Path) (v : Nat) (s : State) : Host.Outcome State Fault Refusal :=
  .next (rowWrite s p Reg.DMC_PPR_CMD (doPprSoft p v))
/-- PPR_HARD (R278). -/
def execPprHard (p : Path) (v : Nat) (s : State) : Host.Outcome State Fault Refusal :=
  .next (rowWrite s p Reg.DMC_PPR_CMD (doPprHard p v))
/-- DMC_CTL_WRITE (R282). -/
def execDmcCtlWrite (p : Path) (v : Nat) (s : State) : Host.Outcome State Fault Refusal :=
  .next (rowWriteVal s p Reg.DMC_CTL v (doDmcCtlWrite p v))

end Sys2Proof.Machine
end

