-- ==== Sys2Proof/Machine/ExecIngest.lean ====
section
/-! DEFINITION. The meanings of the commands of spec/09_message_ingest.md. -/

namespace Sys2Proof.Machine
open Sys2Proof

/-- INGEST_FRAME (R174). -/
def execIngestFrame (port : Nat) (f : List Byte) (s : State) : Host.Outcome State Fault Refusal := .next (doIngestFrame port f s)
/-- REPLY_CACHE_EXPIRY (R184). -/
def execReplyCacheExpiry (s : State) : Host.Outcome State Fault Refusal := .next (doReplyCacheExpiry s)
/-- LAYOUT_VALIDATE (R181). -/
def execLayoutValidate (p : Path) (s : State) : Host.Outcome State Fault Refusal :=
  .next (rowWrite s p Reg.ING_LAYOUT_CTL (doLayoutValidate p))
/-- LAYOUT_INVALIDATE (R181). -/
def execLayoutInvalidate (p : Path) (s : State) : Host.Outcome State Fault Refusal :=
  .next (rowWrite s p Reg.ING_LAYOUT_CTL (doLayoutInvalidate p))
/-- LAYOUT_MEM_WRITE (R181). -/
def execLayoutMemWrite (p : Path) (off : Nat) (bytes : List Byte) (s : State) : Host.Outcome State Fault Refusal :=
  .next (rowWriteMem s p off (doLayoutMemWrite p off bytes))
/-- GW_FLOOR_WRITE (R184). -/
def execGwFloorWrite (p : Path) (v : Nat) (s : State) : Host.Outcome State Fault Refusal :=
  .next (rowWriteVal s p Reg.ING_GW_FLOOR v (doGwFloorWrite p v))

end Sys2Proof.Machine
end

