-- ==== Sys2Proof/Machine/ExecJoin.lean ====
section
/-! DEFINITION. The meanings of the commands of spec/06_join_aggregate.md. -/

namespace Sys2Proof.Machine
open Sys2Proof

/-- JOIN_BUILD_BATCH (R116). -/
def execJoinBuildBatch (id k pos : Nat) (s : State) : Host.Outcome State Fault Refusal := .next (doJoinBuildBatch id k pos s)
/-- JOIN_PROBE_BATCH (R121). -/
def execJoinProbeBatch (id k pos : Nat) (s : State) : Host.Outcome State Fault Refusal := .next (doJoinProbeBatch id k pos s)
/-- HASH_AGG_FOLD (R127). -/
def execHashAggFold (id k pos : Nat) (s : State) : Host.Outcome State Fault Refusal := .next (doHashAggFold id k pos s)
/-- HASH_AGG_MERGE (R128). -/
def execHashAggMerge (id k : Nat) (s : State) : Host.Outcome State Fault Refusal := .next (doHashAggMerge id k s)
/-- WINDOW_AGG_BATCH (R132). -/
def execWindowAggBatch (id k pos : Nat) (s : State) : Host.Outcome State Fault Refusal := .next (doWindowAggBatch id k pos s)

end Sys2Proof.Machine
end

