-- ==== Sys2Proof/Machine/ExecLedger.lean ====
section
/-! DEFINITION. The meanings of the commands of spec/16_ledger_store.md. -/

namespace Sys2Proof.Machine
open Sys2Proof

/-- LEDGER_READ (R344). -/
def execLedgerRead (id : Nat) (s : State) : Host.Outcome State Fault Refusal := .next (doLedgerRead id s)
/-- LEDGER_WRITE (R346). -/
def execLedgerWrite (id : Nat) (s : State) : Host.Outcome State Fault Refusal := .next (doLedgerWrite id s)
/-- LEDGER_APPEND (R348). -/
def execLedgerAppend (id : Nat) (s : State) : Host.Outcome State Fault Refusal := .next (doLedgerAppend id s)
/-- LEDGER_FLUSH (R355). -/
def execLedgerFlush (id : Nat) (s : State) : Host.Outcome State Fault Refusal := .next (doLedgerFlush id s)
/-- LEDGER_TRIM (R351). -/
def execLedgerTrim (id : Nat) (s : State) : Host.Outcome State Fault Refusal := .next (doLedgerTrim id s)
/-- LOG_READ (R350). -/
def execLogRead (id : Nat) (s : State) : Host.Outcome State Fault Refusal := .next (doLogRead id s)
/-- LEDGER_RESUME (R362). -/
def execLedgerResume (id : Nat) (s : State) : Host.Outcome State Fault Refusal := .next (doLedgerResume id s)
/-- SANITISE (R363). -/
def execSanitise (id : Nat) (s : State) : Host.Outcome State Fault Refusal := .next (doSanitise id s)
/-- FORMAT (R363). -/
def execFormat (id : Nat) (s : State) : Host.Outcome State Fault Refusal := .next (doFormat id s)
/-- POOL_FORMAT (R363). -/
def execPoolFormat (id : Nat) (s : State) : Host.Outcome State Fault Refusal := .next (doPoolFormat id s)
/-- DRIVE_REBUILD (R363). -/
def execDriveRebuild (id : Nat) (s : State) : Host.Outcome State Fault Refusal := .next (doDriveRebuild id s)
/-- OP_PROGRESS_RECORD (R363). -/
def execOpProgressRecord (gib : Nat) (s : State) : Host.Outcome State Fault Refusal := .next (doOpProgressRecord gib s)
/-- LEDGER_OP_END (R364). -/
def execLedgerOpEnd (s : State) : Host.Outcome State Fault Refusal := .next (doLedgerOpEnd s)
/-- LEDGER_DATA_WRITE_DONE (R346). -/
def execLedgerDataWriteDone (u : Nat) (bad : List (Nat × Nat)) (s : State) : Host.Outcome State Fault Refusal :=
  .next (secondFault s (doLedgerDataWriteDone u bad s))
/-- COMMIT_SECTOR_DONE (R347). -/
def execCommitSectorDone (u : Nat) (bad : Option Nat) (s : State) : Host.Outcome State Fault Refusal :=
  .next (secondFault s (doCommitSectorDone u bad s))
/-- SNAPSHOT_DONE (R366). -/
def execSnapshotDone (s : State) : Host.Outcome State Fault Refusal := .next (doSnapshotDone s)
/-- LEDGER_READ_DONE (R344). -/
def execLedgerReadDone (k : Nat) (bad : List (Nat × Nat)) (s : State) : Host.Outcome State Fault Refusal :=
  .next (secondFault s (doLedgerReadDone k bad s))
/-- APPEND_GROUP_CLOSE (R349). -/
def execAppendGroupClose (vol : Nat) (s : State) : Host.Outcome State Fault Refusal := .next (doAppendGroupClose vol s)
/-- PEER_RSP_TIMEOUT (R356). -/
def execPeerRspTimeout (u : Nat) (s : State) : Host.Outcome State Fault Refusal := .next (doPeerRspTimeout u s)
/-- XFER_GRANT_TIMEOUT (R359). -/
def execXferGrantTimeout (k : Nat) (s : State) : Host.Outcome State Fault Refusal := .next (doXferGrantTimeout k s)
/-- RSP_PACKET (R355). -/
def execRspPacket (n : Nat) (s : State) : Host.Outcome State Fault Refusal := .next (doRspPacket n s)
/-- DRIVE_STOPS_ANSWERING (R360). -/
def execDriveStopsAnswering (d : Nat) (s : State) : Host.Outcome State Fault Refusal :=
  .next (secondFault s (doDriveStopsAnswering d s))

end Sys2Proof.Machine
end

