-- ==== Sys2Proof/Machine/ExecPlans.lean ====
section
/-! DEFINITION. The meanings of the commands of spec/04_plans_pipelines.md. -/

namespace Sys2Proof.Machine
open Sys2Proof

/-- RUN_PLAN (R73). -/
def execRunPlan (id : Nat) (s : State) : Host.Outcome State Fault Refusal := .next (doRunPlan id s)
/-- LOAD_PLAN (R69). -/
def execLoadPlan (id : Nat) (s : State) : Host.Outcome State Fault Refusal := .next (doLoadPlan id s)
/-- UNLOAD_PLAN (R70). -/
def execUnloadPlan (id : Nat) (s : State) : Host.Outcome State Fault Refusal := .next (doUnloadPlan id s)
/-- UNLOAD_COMPLETE (R70). -/
def execUnloadComplete (fn pid : Nat) (s : State) : Host.Outcome State Fault Refusal := .next (doUnloadComplete fn pid s)
/-- RUN_GRANT (R74). -/
def execRunGrant (s : State) : Host.Outcome State Fault Refusal := .next (doRunGrant s)
/-- CHECKPOINT_TIMER (R77). -/
def execCheckpointTimer (id k : Nat) (s : State) : Host.Outcome State Fault Refusal := .next (doCheckpointTimer id k s)
/-- CHECKPOINT_COMPLETE (R77). -/
def execCheckpointComplete (id k : Nat) (s : State) : Host.Outcome State Fault Refusal := .next (doCheckpointComplete id k s)
/-- COMMIT_POINT (R78). -/
def execCommitPoint (id : Nat) (s : State) : Host.Outcome State Fault Refusal := .next (doCommitPoint id s)

end Sys2Proof.Machine
end

