-- ==== Sys2Proof/Machine/Abort.lean ====
section
/-! DEFINITION. ADMIN items that look at or change other items and queues: ABORT, RESUME_QUEUE, SPARE_REPORT, STATE_DUMP
(R308, R309, R470, R471), and the end of DRAIN_MS (R442). -/

namespace Sys2Proof.Machine
open Sys2Proof

/-! ## ABORT (R309) -/

/-- What an abort finds of its target. -/
inductive AbortCase where
  | tooLate | detach | mark | stop
deriving DecidableEq, Repr

/-- The rows of R309 for a host item in flight: its completion is already decided; it is an attached duplicate; it is BLOCKED in a
flow, or its transfer runs to the next segment boundary (R324); it is stopped at once. -/
def abortCase (s : State) (id : Nat) (it : Item) : AbortCase :=
  if it.dupOf.isSome then .detach
  else if it.phase = .held ∨ it.phase = .committed ∨ it.isDup ∨ (it.phase = .ready ∧ it.status ≠ 0) then .tooLate
  else if (it.phase = .queued ∧ ! headOfFlow s id it) || s.dma.chan.any (fun c => xferItem c.2.who == some id) then .mark
  else .stop
/-- Mark a target with the ABORT items that wait for its completion. -/
def abortMark (s : State) (id : Nat) (by_ : List Nat) : State :=
  let s := modItem s id (fun x => { x with abortBy := x.abortBy ++ by_ })
  match (getItem s id).bind (fun it => it.flowKey.bind (findFlow s it.fn)) with
  | some f => recalcFlow s f
  | none => s
/-- Carry an abort out. A target marked without an ABORT item (the end of DRAIN_MS) is marked with its own number. -/
def abortTarget (s : State) (id : Nat) (it : Item) (by_ : List Nat) : State :=
  match abortCase s id it with
  | .tooLate => s
  | .detach => failItem (modItem s id (fun x => { x with dupOf := none, abortBy := x.abortBy ++ by_ })) id St.aborted 0 0
  | .mark => schedule (abortMark s id (if by_.isEmpty then [id] else by_))
  | .stop => stopItem (abortMark s id by_) id St.aborted
/-- The host item in flight of a device-wide queue with a TAG. -/
def itemTagged (s : State) (d tag : Nat) : Option (Nat × Item) :=
  s.qm.items.find? (fun p => p.2.msg.isNone && p.2.queue == d && p.2.tag == tag)
/-- The function an ABORT or RESUME_QUEUE names: TFN from the physical function, else its own. -/
def targetFn (it : Item) (tfn : Nat) : Nat := if it.fn = 0 then tfn else it.fn
/-- ABORT: R309's table. RESULT0 holds TQUEUE and TTAG whatever the status (Table 14-8). A virtual function can name no queue but its
own; one beyond its count is another function's. -/
def doAbort (id : Nat) (s : State) : State :=
  match itemAt s id 0x60 1 with
  | none => s
  | some it =>
    let q := it.body 32 2 % 4096
    let tag := it.body 34 2
    let fn := targetFn it (it.body 36 1)
    let r0 := q + tag * 65536
    if ! gateOpen s id it then s
    else if ! fnExists s fn then failItem s id St.fnNotEnabled r0 0
    else match devQueue s fn q with
      | none => failItem s id (if it.fn = 0 then St.abortTooLate else St.accessDenied) r0 0
      | some d =>
        match itemTagged s d tag with
        | none => failItem s id St.abortTooLate r0 0
        | some (t, x) =>
          if t = id ∨ abortCase s t x = .tooLate then failItem s id St.abortTooLate r0 0
          else abortTarget (toEngine s id) t x [id]

/-! ## RESUME_QUEUE (R308, R482) -/

/-- Consume owned descriptors from the head without running, each completing with QUEUE_FLUSHED; the flush ends at the latest TAIL, or
at a slot that reads OWN = 0, as fetching does. The count of descriptors flushed comes with the state. -/
def flushN : Nat → State → Nat → Nat × State
  | 0, s, _ => (0, s)
  | n + 1, s, d =>
    let q := getQ s d
    if q.head = q.tail then (0, s)
    else
      let desc := descAt s d
      if ! bitOf (leAt desc 0 8) 63 then
        (0, modQ s d (fun q => { q with notOwnWait := true, notOwn := satAdd 16 q.notOwn 1, inl := terase q.inl q.head }))
      else
        let r := flushN n (reject s d (newItem s d desc) St.queueFlushed) d
        (r.1 + 1, r.2)
/-- Does a parity mismatch of a function remain? -/
def parLeft (s : State) (fn : Nat) : Bool := s.regs.bad.any (fun b => parOwned b.1 && instOwner s b.1 b.2 == fn)
/-- RESUME_QUEUE: its commit point is the instant it takes effect, which waits for its order and for a place for its completion. -/
def doResumeQueue (id : Nat) (s : State) : State :=
  match itemAt s id 0x60 2 with
  | none => s
  | some it =>
    let fn := targetFn it (it.body 34 1)
    let flush := bitOf (it.body 35 1) 0
    if ! fnExists s fn then failItem s id St.fnNotEnabled 0 0
    else match devQueue s fn (it.body 32 2 % 4096) with
      | none => failItem s id St.queueDisabled 0 0
      | some d =>
        let q := getQ s d
        if q.st = .disabled then failItem s id St.queueDisabled 0 0
        else if ! gateOpen s id it then s
        else if q.st = .active then commitNow s id 0 0
        else if q.parityFrozen ∧ parLeft s fn then failItem s id St.cfgParity 1 0
        else
          let r := if flush then flushN 65536 s d else (0, s)
          let s := modQ r.2 d (fun q => { q with st := .active, parityFrozen := false })
          commitNow s id (1 + r.1 % 65536 * 65536) 0

/-! ## SPARE_REPORT (R470) -/

/-- FREE and RETIRED of each spare kind of Table 22-6. -/
def spareCounts (s : State) : List (Nat × Nat) :=
  let r := s.ras
  let tiles := ((List.range 16).filter (spareFreeIn s)).length
  let tileRet := (List.range 16).foldl (fun n c => n + ((List.range 9).filter (fun p => fld (r.pstateOf c) (2 * p + 1) (2 * p) == 2)).length) 0
  let ways := (List.range 32).foldl (fun n i => n + ((List.range 18).filter (fun w => wayState s i w == 1)).length) 0
  let wayRet := (List.range 32).foldl (fun n i => n + ((List.range 18).filter (fun w => wayState s i w == 2)).length) 0
  let cam := rfld s Reg.CAM_STAT 0 17 17
  [(tiles, tileRet), (ways, wayRet), (1 - cam, cam), (r.ciphFree, r.ciphRetired), (r.lanesFree, r.lanesRetired),
   (r.sramFree, 24576 - r.sramFree), (pprFree s, 2048 - pprFree s), (spareFree s, s.led.spareUsed)]
/-- Spares at manufacture; for the Ledger, the spare-area blocks of the pool. -/
def spareTotals (s : State) : List Nat := [16, 64, 1, 1, 4, 24576, 2048, (s.led.pool.map spareCount).getD 0]
/-- The eight 16-byte entries, in the order of Table 22-6. -/
def spareEntries (s : State) : List Byte :=
  ((spareCounts s).zip (spareTotals s)).zipIdx.flatMap (fun x =>
    natLE 4 (x.2 + 1) ++ natLE 4 x.1.2 ++ natLE 4 x.1.1.1 ++ natLE 4 x.1.1.2)
/-- SPARE_REPORT. -/
def doSpareReport (id : Nat) (s : State) : State :=
  match itemAt s id 0x60 7 with
  | none => s
  | some it =>
    let len := it.body 40 4
    if it.body 32 8 % 64 ≠ 0 then failItem s id St.alignment 0 0
    else if len = 0xFFFFFFFF then failItem s id St.lengthInvalid 0 0
    else if len < 128 then failItem s id St.bufferTooSmall 0 0
    else itemReady (addEffects s id [.host (it.body 32 8) (spareEntries s)]) id 128 (now s)

/-! ## STATE_DUMP (R471, Table 22-7; assumption 30) -/

/-- Every register of FN 0's BAR0, as the path of the Frame cores reads it. -/
def dumpRegs (s : State) : List Byte :=
  ((List.range 19).flatMap (fun b => (blockRegs (b * 0x100000)).map (·.1))).flatMap (fun off =>
    natLE 4 off ++ natLE 8 (readVal s (.core 144 0) 0 off) ++ natLE 4 0)
def qStCode : QState → Nat
  | .disabled => 0
  | .active => 1
  | .frozen => 2
def dumpQueue (s : State) (d : Nat) : List Byte :=
  let q := getQ s d
  let fs := [sqBase s d, cqBase s d, q.head, q.tail, q.cqTail, q.cqHead, qStCode q.st, b2n q.parityFrozen, q.overflow.length, q.errTag,
    q.errStatus, q.errSeq]
  (List.range 64).map (Config.queueCtxByte fs)
def words64 (ws : List Nat) : List Byte := ws.flatMap (natLE 8)
/-- Presence, type, usage, holder and KCV of a key slot. -/
def dumpKey (s : State) (k : Nat) : List Byte :=
  let z := keySlot s k
  natLE 1 (holder s.fns.keyFn k) ++ natLE 1 z.typ ++ natLE 1 z.usage ++ natLE 1 (b2n (slotPresent s k)) ++ kcvOf z.typ z.key ++ natLE 1 0
def dumpVol (s : State) (v : Nat) : List Byte :=
  let t := selPut s (.core 144 0) Reg.LED_VOL_SEL v
  words64 (List.map (readLed t (.core 144 0) 0) [Reg.LED_VOL_CFG, Reg.LED_VOL_STAT, Reg.LED_VOL_REC, Reg.LED_VOL_FIRST])
def dumpPlan (s : State) (k : Nat) (p : Plan) : List Byte :=
  let t := selPut s (.core 144 0) Reg.SCHED_PLAN_SEL (k / 1024 * 65536 + k % 1024)
  natLE 8 (readSched t (.core 144 0) Reg.SCHED_PLAN_INFO) ++ sub p.digest 0 48 ++ natLE 8 0
def tileMap (s : State) (c : Nat) : Nat := s.ras.pstateOf c * 2 ^ 32 + s.ras.lmapOf c
/-- ESIZE and the entries of a section. -/
def dumpSection (s : State) (sid : Nat) : Nat × List Byte :=
  match sid with
  | 0 => (16, dumpRegs s)
  | 1 => (64, (List.range 4096).flatMap (dumpQueue s))
  | 2 => (40, s.sched.entries.flatMap (fun e => words64 (entrySnap s e.2)))
  | 3 => (16, s.sched.flows.flatMap (fun f => words64 ((flowSnap s f.2).take 2)))
  | 4 => (16, spareEntries s ++ (List.range 16).flatMap (fun c => natLE 8 (tileMap s c)))
  | 5 => (8, (List.range 64).flatMap (dumpKey s))
  | 6 => (32, (List.range 64).flatMap (dumpVol s))
  | 7 => (64, (s.plans.plans.filter (fun p => p.2.st != 0)).flatMap (fun p => dumpPlan s p.1 p.2))
  | 8 => (64, logBytesAll s.regs.aonLog 256)
  | _ => (64, ((List.range 256).filter (fnExists s)).flatMap (fun f => logBytesAll (errLogOf s f) 64))
where
  logBytesAll (l : Log) (n : Nat) : List Byte := (List.range n).flatMap (fun i => logBytes l (64 * i) 64)
/-- A section with its 32-byte header. -/
def dumpWhole (s : State) (sid : Nat) : List Byte :=
  let x := dumpSection s sid
  natLE 2 sid ++ natLE 2 x.1 ++ natLE 4 (x.2.length / x.1) ++ natLE 8 (now s) ++ natLE 16 0 ++ x.2
/-- The dump of the selected sections. -/
def dumpBytes (s : State) (mask : Nat) : List Byte :=
  let sids := (List.range 10).filter (bitOf mask)
  let body := sids.flatMap (dumpWhole s)
  natLE 4 0x504D5544 ++ natLE 2 1 ++ natLE 2 sids.length ++ natLE 8 Config.devser.toNat ++ natLE 1 s.pwr.mode ++ natLE 7 0
    ++ natLE 8 (64 + body.length) ++ natLE 32 0 ++ body
/-- STATE_DUMP: bits of SECT_MASK above section 9 select nothing (R5); the dump is written at DMA level 3. -/
def doStateDump (id : Nat) (s : State) : State :=
  match itemAt s id 0x60 3 with
  | none => s
  | some it =>
    let len := it.body 40 4
    let mask := it.body 44 2 % 1024
    let bytes := if mask = 0 then [] else dumpBytes s mask
    if it.body 32 8 % 4096 ≠ 0 then failItem s id St.alignment 0 0
    else if len = 0xFFFFFFFF then failItem s id St.lengthInvalid 0 0
    else if len < bytes.length then failItem s id St.bufferTooSmall bytes.length 0
    else if mask = 0 then (let f := freeRes s; itemReady f.2 id 0 f.1)
    else itemReady (addEffects (xferAt s id it.fn 3 none false bytes.length) id [.host (it.body 32 8) bytes]) id bytes.length (now s)

/-! ## DRAIN_TIMEOUT (R442) -/

/-- Abort every host item in flight but the request's own and its duplicates. -/
def abortAll (s : State) (own : Option Nat) : State :=
  (s.qm.items.map (·.1)).foldl (fun s id => match getItem s id with
    | some it => if it.msg.isSome ∨ some id = own ∨ (own.isSome ∧ it.dupOf = own) then s else abortTarget s id it []
    | none => s) s
/-- DRAIN_TIMEOUT: DRAIN_MS has expired since Drain was entered. -/
def doDrainTimeout (s : State) : State :=
  match s.pwr.req with
  | some q => if modeOf s = Mode.drain ∧ q.drainMs ≠ 0 ∧ q.since + 1000000 * q.drainMs ≤ now s then abortAll s q.item else s
  | none => s

end Sys2Proof.Machine
end

