-- ==== Sys2Proof/Machine/ExecPower.lean ====
section
/-! DEFINITION. The meanings of the commands of spec/21_power_clocks_modes.md. -/

namespace Sys2Proof.Machine
open Sys2Proof

/-- MODE_REQUEST (R441). -/
def execModeRequest (item : Nat) (s : State) : Host.Outcome State Fault Refusal := .next (doModeRequest item s)
/-- MODE_AUTO_MOVE (R439). -/
def execModeAutoMove (s : State) : Host.Outcome State Fault Refusal := .next (doModeAutoMove s)
/-- MODE_REQ_RESUME (R444). -/
def execModeReqResume (p : Path) (s : State) : Host.Outcome State Fault Refusal := .next (doModeReqResume p s)
/-- MODE_REQ_DRAIN (R442). -/
def execModeReqDrain (p : Path) (stop : Bool) (s : State) : Host.Outcome State Fault Refusal := .next (doModeReqDrain p stop s)
/-- MODE_REQ_RETAIN (R443). -/
def execModeReqRetain (p : Path) (s : State) : Host.Outcome State Fault Refusal := .next (doModeReqRetain p s)
/-- MODE_REQ_MAINTAIN (R445). -/
def execModeReqMaintain (p : Path) (s : State) : Host.Outcome State Fault Refusal := .next (doModeReqMaintain p s)
/-- MODE_REQ_OFF_READY (R442). -/
def execModeReqOffReady (p : Path) (s : State) : Host.Outcome State Fault Refusal := .next (doModeReqOffReady p s)
/-- DRAIN_COMPLETE (R442). -/
def execDrainComplete (s : State) : Host.Outcome State Fault Refusal := .next (doDrainComplete s)
/-- DRAIN_TIMEOUT (R442). -/
def execDrainTimeout (s : State) : Host.Outcome State Fault Refusal := .next (doDrainTimeout s)
/-- WAKE_PIN (R443). -/
def execWakePin (faults : Nat) (sens : List Int) (s : State) : Host.Outcome State Fault Refusal := .next (doWakePin faults sens s)
/-- WAKE_TIMER (R443). -/
def execWakeTimer (faults : Nat) (sens : List Int) (s : State) : Host.Outcome State Fault Refusal :=
  .next (doWakeTimer faults sens s)
/-- WAKE_SMBUS (R443). -/
def execWakeSmbus (faults : Nat) (sens : List Int) (s : State) : Host.Outcome State Fault Refusal :=
  .next (doWakeSmbus faults sens s)
/-- THERMAL_SAMPLE (R446). -/
def execThermalSample (temps : List Int) (s : State) : Host.Outcome State Fault Refusal := .next (doThermalSample temps s)
/-- POWER_ESTIMATE (R448). -/
def execPowerEstimate (total : Nat) (perCl : List Nat) (s : State) : Host.Outcome State Fault Refusal :=
  .next (doPowerEstimate total perCl s)
/-- DEVTIME_WRITE (R435). -/
def execDevtimeWrite (s : State) : Host.Outcome State Fault Refusal := .next (doDevtimeWrite s)
/-- ACLK_EDGE (R435). -/
def execAclkEdge (s : State) : Host.Outcome State Fault Refusal := .next (doAclkEdge s)

end Sys2Proof.Machine
end

