-- ==== Sys2Proof/Machine/ExecQueues.lean ====
section
/-! DEFINITION. The meanings of the commands of spec/14_host_queues.md. -/

namespace Sys2Proof.Machine
open Sys2Proof

/-- SQ_DB (R289). -/
def execSqDb (fn q v : Nat) (slots : List (List Byte)) (s : State) : Host.Outcome State Fault Refusal :=
  .next (doSqDb fn q v slots s)
/-- CQ_DB (R298). -/
def execCqDb (fn q v : Nat) (s : State) : Host.Outcome State Fault Refusal := .next (doCqDb fn q v s)
/-- DESCRIPTOR_FETCH (R290). -/
def execDescriptorFetch (s : State) : Host.Outcome State Fault Refusal := .next (doDescriptorFetch s)
/-- IKEY_HELD_INSERT (R304). -/
def execIkeyHeldInsert (s : State) : Host.Outcome State Fault Refusal := .next (doIkeyHeldInsert s)
/-- IKEY_EXPIRY (R305). -/
def execIkeyExpiry (s : State) : Host.Outcome State Fault Refusal := .next (doIkeyExpiry s)
/-- QUEUE_ENABLE (R285). -/
def execQueueEnable (p : Path) (v : Nat) (s : State) : Host.Outcome State Fault Refusal :=
  .next (rowWriteVal s p Reg.QM_Q_CTL v (doQueueEnable p v))
/-- TABLE_APPEND (R294). -/
def execTableAppend (id : Nat) (s : State) : Host.Outcome State Fault Refusal := .next (doTableAppend id s)
/-- ABORT (R309). -/
def execAbort (id : Nat) (s : State) : Host.Outcome State Fault Refusal := .next (doAbort id s)
/-- RESUME_QUEUE (R308). -/
def execResumeQueue (id : Nat) (s : State) : Host.Outcome State Fault Refusal := .next (doResumeQueue id s)
/-- NOP (R312). -/
def execNop (id : Nat) (s : State) : Host.Outcome State Fault Refusal := .next (doNop id s)
/-- MSIX_COALESCE_TIMEOUT (R310). -/
def execMsixCoalesceTimeout (d : Nat) (s : State) : Host.Outcome State Fault Refusal := .next (doMsixCoalesceTimeout d s)

end Sys2Proof.Machine
end

