-- ==== Sys2Proof/Machine/ExecRas.lean ====
section
/-! DEFINITION. The meanings of the commands of spec/22_faults_spares_recovery.md. -/

namespace Sys2Proof.Machine
open Sys2Proof

/-- STATE_DUMP (R471). -/
def execStateDump (id : Nat) (s : State) : Host.Outcome State Fault Refusal := .next (doStateDump id s)
/-- SPARE_REPORT (R470). -/
def execSpareReport (id : Nat) (s : State) : Host.Outcome State Fault Refusal := .next (doSpareReport id s)
/-- DETECTED_ERROR (R456). -/
def execDetectedError (cls unit form : Nat) (s : State) : Host.Outcome State Fault Refusal :=
  .next (doDetectedError cls unit form s)
/-- SPARE_TILE_REMAP (R462). -/
def execSpareTileRemap (s : State) : Host.Outcome State Fault Refusal := .next (doSpareTileRemap s)
/-- TILE_BIST_DONE (R457). -/
def execTileBistDone (p : Nat) (pass : Bool) (s : State) : Host.Outcome State Fault Refusal := .next (doTileBistDone p pass s)
/-- RECOVER_END (R460). -/
def execRecoverEnd (s : State) : Host.Outcome State Fault Refusal := .next (doRecoverEnd s)

end Sys2Proof.Machine
end

