-- ==== Sys2Proof/Machine/ExecRegisters.lean ====
section
/-! DEFINITION. The meanings of the commands of spec/23_register_conventions.md. -/

namespace Sys2Proof.Machine
open Sys2Proof

/-- AON_POSTED_WRITE (R485). -/
def execAonPostedWrite (p : Path) (off v : Nat) (s : State) : Host.Outcome State Fault Refusal := .next (doAonPostedWrite p off v s)
/-- CFG_PARITY_SCRUB (R481). -/
def execCfgParityScrub (off inst : Nat) (mismatch : Bool) (s : State) : Host.Outcome State Fault Refusal :=
  .next (doCfgParityScrub off inst mismatch s)
/-- CFG_PARITY_REWRITE (R482). -/
def execCfgParityRewrite (p : Path) (off v : Nat) (s : State) : Host.Outcome State Fault Refusal :=
  .next (doCfgParityRewrite p off v s)
/-- REGISTER_WRITE (R476). -/
def execRegisterWrite (p : Path) (a n v : Nat) (s : State) : Host.Outcome State Fault Refusal := .next (doRegisterWrite p a n v s)

end Sys2Proof.Machine
end

