-- ==== Sys2Proof/Machine/ExecScan.lean ====
section
/-! DEFINITION. The meanings of the commands of spec/05_scan_filter_compute.md. -/

namespace Sys2Proof.Machine
open Sys2Proof

/-- SCAN_BATCH (R93). -/
def execScanBatch (id k : Nat) (s : State) : Host.Outcome State Fault Refusal := .next (doScanBatch id k s)
/-- FILTER_BATCH (R96). -/
def execFilterBatch (id k pos : Nat) (s : State) : Host.Outcome State Fault Refusal := .next (doFilterBatch id k pos s)
/-- COMPUTE_BATCH (R105). -/
def execComputeBatch (id k pos : Nat) (s : State) : Host.Outcome State Fault Refusal := .next (doComputeBatch id k pos s)
/-- OUTPUT_BATCH (R514). -/
def execOutputBatch (id k pos : Nat) (s : State) : Host.Outcome State Fault Refusal := .next (doOutputBatch id k pos s)

end Sys2Proof.Machine
end

