-- ==== Sys2Proof/Machine/ExecSched.lean ====
section
/-! DEFINITION. The meanings of the commands of spec/08_dispatch_scheduler.md. -/

namespace Sys2Proof.Machine
open Sys2Proof

/-- HELD_DESCRIPTOR_INSERT (R166). -/
def execHeldDescriptorInsert (s : State) : Host.Outcome State Fault Refusal := .next (doHeldDescriptorInsert s)
/-- ENTRY_WAIT_GRANT (R168). -/
def execEntryWaitGrant (s : State) : Host.Outcome State Fault Refusal := .next (doEntryWaitGrant s)
/-- CLOCK_GATED_WAKE_DONE (R160). -/
def execClockGatedWakeDone (c : Nat) (s : State) : Host.Outcome State Fault Refusal := .next (doClockGatedWakeDone c s)
/-- CLUSTER_POWER_GATE (R169). -/
def execClusterPowerGate (c : Nat) (s : State) : Host.Outcome State Fault Refusal := .next (doClusterPowerGate c s)
/-- SCHED_WIN_SNAPSHOT (R172). -/
def execSchedWinSnapshot (p : Path) (v : Nat) (s : State) : Host.Outcome State Fault Refusal :=
  .next (rowWrite s p Reg.SCHED_WIN_SEL (doSchedWinSnapshot p v))

end Sys2Proof.Machine
end

