-- ==== Sys2Proof/Machine/ExecSecurity.lean ====
section
/-! DEFINITION. The meanings of the commands of spec/20_sill_frame_security.md. -/

namespace Sys2Proof.Machine
open Sys2Proof

/-- MGMT_PACKET (R427). -/
def execMgmtPacket (n : Nat) (s : State) : Host.Outcome State Fault Refusal := .next (doMgmtPacket n s)
/-- STATUS (R427). -/
def execStatus (src : Nat) (data : List Byte) (s : State) : Host.Outcome State Fault Refusal := .next (doStatus src data s)
/-- ATTEST (R428). -/
def execAttest (src : Nat) (data : List Byte) (s : State) : Host.Outcome State Fault Refusal := .next (doAttest src data s)
/-- CERTS (R427). -/
def execCerts (src : Nat) (data : List Byte) (s : State) : Host.Outcome State Fault Refusal := .next (doCerts src data s)
/-- FW_WRITE (R430). -/
def execFwWrite (src : Nat) (data : List Byte) (s : State) : Host.Outcome State Fault Refusal := .next (doFwWrite src data s)
/-- FW_COMMIT (R430). -/
def execFwCommit (src : Nat) (data : List Byte) (faults : Nat) (s : State) : Host.Outcome State Fault Refusal :=
  .next (doFwCommit src data faults s)
/-- FW_ACCEPT (R430). -/
def execFwAccept (src : Nat) (data : List Byte) (s : State) : Host.Outcome State Fault Refusal := .next (doFwAccept src data s)
/-- DEBUG_OPEN (R420). -/
def execDebugOpen (src : Nat) (data : List Byte) (fault : Bool) (s : State) : Host.Outcome State Fault Refusal :=
  .next (doDebugOpen src data fault s)

end Sys2Proof.Machine
end

