-- ==== Sys2Proof/Machine/ExecSequencer.lean ====
section
/-! DEFINITION. The meanings of the commands of spec/10_sequencer_isa.md. -/

namespace Sys2Proof.Machine
open Sys2Proof

/-- CLUSTER_WAKE_COMPLETE (R195). -/
def execClusterWakeComplete (c : Nat) (s : State) : Host.Outcome State Fault Refusal := .next (doClusterWakeCompleteAll c s)
/-- SYS_NOP (R198). -/
def execSysNop (core : Nat) (s : State) : Host.Outcome State Fault Refusal := .next (doSysNop core s)
/-- WFE (R211). -/
def execWfe (core : Nat) (s : State) : Host.Outcome State Fault Refusal := .next (doWfe core s)
/-- WFE_WAKE (R211). -/
def execWfeWake (core : Nat) (s : State) : Host.Outcome State Fault Refusal := .next (doWfeWake core s)
/-- SEV (R212). -/
def execSev (core : Nat) (s : State) : Host.Outcome State Fault Refusal := .next (doSev core s)
/-- WAITT (R213). -/
def execWaitt (core : Nat) (s : State) : Host.Outcome State Fault Refusal := .next (doWaitt core s)
/-- WAITT_DONE (R213). -/
def execWaittDone (core : Nat) (s : State) : Host.Outcome State Fault Refusal := .next (doWaittDone core s)
/-- TIMER_FIRE (R213). -/
def execTimerFire (core : Nat) (s : State) : Host.Outcome State Fault Refusal := .next (doTimerFire core s)
/-- RETI (R219). -/
def execReti (core : Nat) (s : State) : Host.Outcome State Fault Refusal := .next (doReti core s)
/-- TRAP (R218). -/
def execTrap (core : Nat) (s : State) : Host.Outcome State Fault Refusal := .next (doTrap core s)
/-- FENCE (R214). -/
def execFence (core : Nat) (s : State) : Host.Outcome State Fault Refusal := .next (doFence core s)
/-- BREAK (R218). -/
def execBrk (core : Nat) (s : State) : Host.Outcome State Fault Refusal := .next (doBreak core s)
/-- RET (R208). -/
def execRet (core : Nat) (s : State) : Host.Outcome State Fault Refusal := .next (doRet core s)
/-- MOVC (R197). -/
def execMovc (core : Nat) (s : State) : Host.Outcome State Fault Refusal := .next (doMovc core s)
/-- ALU (R199). -/
def execAlu (core : Nat) (s : State) : Host.Outcome State Fault Refusal := .next (doAlu core s)
/-- ALUX (R199). -/
def execAlux (core : Nat) (s : State) : Host.Outcome State Fault Refusal := .next (doAlux core s)
/-- ALUI (R199). -/
def execAlui (core : Nat) (s : State) : Host.Outcome State Fault Refusal := .next (doAlui core s)
/-- ALUQ (R198). -/
def execAluq (core : Nat) (s : State) : Host.Outcome State Fault Refusal := .next (doAluq core s)
/-- AOP (R199). -/
def execAop (core : Nat) (s : State) : Host.Outcome State Fault Refusal := .next (doAop core s)
/-- ADDAI (R198). -/
def execAddai (core : Nat) (s : State) : Host.Outcome State Fault Refusal := .next (doAddai core s)
/-- LIA (R198). -/
def execLia (core : Nat) (s : State) : Host.Outcome State Fault Refusal := .next (doLia core s)
/-- LD (R200). -/
def execLd (core : Nat) (s : State) : Host.Outcome State Fault Refusal := .next (doLd core s)
/-- ST (R200). -/
def execSt (core : Nat) (s : State) : Host.Outcome State Fault Refusal := .next (doSt core s)
/-- LDM (R202). -/
def execLdm (core : Nat) (s : State) : Host.Outcome State Fault Refusal := .next (doLdm core s)
/-- STM (R202). -/
def execStm (core : Nat) (s : State) : Host.Outcome State Fault Refusal := .next (doStm core s)
/-- ACLD (R203). -/
def execAcld (core : Nat) (s : State) : Host.Outcome State Fault Refusal := .next (doAcld core s)
/-- ACST (R203). -/
def execAcst (core : Nat) (s : State) : Host.Outcome State Fault Refusal := .next (doAcst core s)
/-- ACLDN (R203). -/
def execAcldn (core : Nat) (s : State) : Host.Outcome State Fault Refusal := .next (doAcldn core s)
/-- ACSTN (R203). -/
def execAcstn (core : Nat) (s : State) : Host.Outcome State Fault Refusal := .next (doAcstn core s)
/-- ACOP (R204). -/
def execAcop (core : Nat) (s : State) : Host.Outcome State Fault Refusal := .next (doAcop core s)
/-- ACXFER (R206). -/
def execAcxfer (core : Nat) (s : State) : Host.Outcome State Fault Refusal := .next (doAcxfer core s)
/-- BRD (R207). -/
def execBrd (core : Nat) (s : State) : Host.Outcome State Fault Refusal := .next (doBrd core s)
/-- BRA (R207). -/
def execBra (core : Nat) (s : State) : Host.Outcome State Fault Refusal := .next (doBra core s)
/-- BRAC (R205). -/
def execBrac (core : Nat) (s : State) : Host.Outcome State Fault Refusal := .next (doBrac core s)
/-- DBNZ (R207). -/
def execDbnz (core : Nat) (s : State) : Host.Outcome State Fault Refusal := .next (doDbnz core s)
/-- JMP (R210). -/
def execJmp (core : Nat) (s : State) : Host.Outcome State Fault Refusal := .next (doJmp core s)
/-- JMPR (R210). -/
def execJmpr (core : Nat) (s : State) : Host.Outcome State Fault Refusal := .next (doJmpr core s)
/-- CALL (R208). -/
def execCall (core : Nat) (s : State) : Host.Outcome State Fault Refusal := .next (doCall core s)
/-- RETM (R208). -/
def execRetm (core : Nat) (s : State) : Host.Outcome State Fault Refusal := .next (doRetm core s)
/-- PUSHM (R209). -/
def execPushm (core : Nat) (s : State) : Host.Outcome State Fault Refusal := .next (doPushm core s)
/-- POPM (R208). -/
def execPopm (core : Nat) (s : State) : Host.Outcome State Fault Refusal := .next (doPopm core s)
/-- MOVS (R216). -/
def execMovs (core : Nat) (s : State) : Host.Outcome State Fault Refusal := .next (doMovs core s)
/-- FILLS (R216). -/
def execFills (core : Nat) (s : State) : Host.Outcome State Fault Refusal := .next (doFills core s)
/-- CMPS (R216). -/
def execCmps (core : Nat) (s : State) : Host.Outcome State Fault Refusal := .next (doCmps core s)
/-- SCANS (R216). -/
def execScans (core : Nat) (s : State) : Host.Outcome State Fault Refusal := .next (doScans core s)
/-- ILLEGAL_OPCODE (R198). -/
def execIllegalOpcode (core : Nat) (s : State) : Host.Outcome State Fault Refusal := .next (doIllegalOpcode core s)
/-- INTERRUPT_ENTRY (R219). -/
def execInterruptEntry (core : Nat) (debug : Bool) (s : State) : Host.Outcome State Fault Refusal :=
  .next (doInterruptEntry core debug s)
/-- WINDOW_LOAD_DATA (R194). -/
def execWindowLoadData (core : Nat) (s : State) : Host.Outcome State Fault Refusal := .next (doWindowLoadData core s)

end Sys2Proof.Machine
end

