-- ==== Sys2Proof/Machine/ExecSort.lean ====
section
/-! DEFINITION. The meanings of the commands of spec/07_sort_exchange.md. -/

namespace Sys2Proof.Machine
open Sys2Proof

/-- SORT_BATCH (R142). -/
def execSortBatch (id k pos : Nat) (s : State) : Host.Outcome State Fault Refusal := .next (doSortBatch id k pos s)
/-- TOPN_BATCH (R148). -/
def execTopnBatch (id k pos : Nat) (s : State) : Host.Outcome State Fault Refusal := .next (doTopnBatch id k pos s)
/-- MERGE_INTERMEDIATE (R145). -/
def execMergeIntermediate (id k : Nat) (s : State) : Host.Outcome State Fault Refusal := .next (doMergeIntermediate id k s)
/-- MERGE_FINAL (R146). -/
def execMergeFinal (id k : Nat) (s : State) : Host.Outcome State Fault Refusal := .next (doMergeFinal id k s)
/-- EXCHANGE_SEND (R151). -/
def execExchangeSend (id k pos : Nat) (s : State) : Host.Outcome State Fault Refusal := .next (doExchangeSend id k pos s)
/-- EXCHANGE_FRAGMENT_RECEIVE (R152). -/
def execExchangeFragmentReceive (id k pos sender : Nat) (s : State) : Host.Outcome State Fault Refusal :=
  .next (doExchangeFragmentReceive id k pos sender s)

end Sys2Proof.Machine
end

