-- ==== Sys2Proof/Machine/ExecStartup.lean ====
section
/-! DEFINITION. The meanings of the commands of spec/24_package_startup.md. -/

namespace Sys2Proof.Machine
open Sys2Proof

/-- POR_ASSERT (R496). -/
def execPorAssert (s : State) : Host.Outcome State Fault Refusal := .next (doPorAssert s)
/-- POR_RELEASE (R502). -/
def execPorRelease (shadowBad : Bool) (faults : Nat) (sens : List Int) (s : State) : Host.Outcome State Fault Refusal :=
  .next (doPorRelease shadowBad faults sens s)
/-- DRIVE_READY (R502). -/
def execDriveReady (found : List (Nat × Bool × Option (List (Nat × Byte)))) (s : State) : Host.Outcome State Fault Refusal :=
  .next (doDriveReady found s)
/-- DRIVE_READY_TIMEOUT (R502). -/
def execDriveReadyTimeout (found : List (Nat × Bool × Option (List (Nat × Byte)))) (s : State) : Host.Outcome State Fault Refusal :=
  .next (doDriveReadyTimeout found s)
/-- DRAM_FILL_DONE (R502). -/
def execDramFillDone (s : State) : Host.Outcome State Fault Refusal := .next (doDramFillDone s)
/-- PERST_DEASSERT (R497). -/
def execPerstDeassert (faults : Nat) (sens : List Int) (s : State) : Host.Outcome State Fault Refusal :=
  .next (doPerstDeassert faults sens s)
/-- PERST_ASSERT (R497). -/
def execPerstAssert (s : State) : Host.Outcome State Fault Refusal := .next (doPerstAssert s)

end Sys2Proof.Machine
end

