-- ==== Sys2Proof/Machine/VecLane.lean ====
section
/-! DEFINITION. Lanes, streams and element faults of the vector unit, and what each lane operation computes
(spec/11_vector_extension.md, R225 to R232, R235, R240 to R242). -/

namespace Sys2Proof.Machine
open Sys2Proof

/-! ## Vector registers and control registers (R225, R226, R242) -/

def vlane (v : Vec) (n j : Nat) : Lane := (v.v.toList.getD n (Vector.replicate 32 0)).toList.getD j 0
def vcr (v : Vec) (n : Nat) : Nat := (v.cr.toList.getD n 0).toNat
def setVcr (v : Vec) (n x : Nat) : Vec := { v with cr := v.cr.setIfInBounds n (BitVec.ofNat 16 x) }
/-- Write a lane; the register becomes live (R242). -/
def setLane (v : Vec) (n j : Nat) (x : Lane) : Vec :=
  let v := { v with v := v.v.setIfInBounds n ((v.v.toList.getD n (Vector.replicate 32 0)).setIfInBounds j x) }
  setVcr v 4 (vcr v 4 ||| 2 ^ n)
def vpred (v : Vec) (n : Nat) : Nat := (v.p.toList.getD n 0).toNat
def setPred (v : Vec) (n x : Nat) : Vec := { v with p := v.p.setIfInBounds n (BitVec.ofNat 32 x) }
def vlOf (v : Vec) : Nat := vcr v 0
def vidxOf (v : Vec) : Nat := vcr v 1
/-- Is element `j` of a short form active (R228)? -/
def vactive (v : Vec) (pg j : Nat) : Bool := decide (j < vlOf v) && (pg == 0 || bitOf (vpred v pg) j)
/-- The active elements from VIDX upward. -/
def vactives (v : Vec) (pg : Nat) : List Nat := (List.range (vlOf v)).filter (fun j => decide (vidxOf v ≤ j) && vactive v pg j)
/-- VMODE's fields: OVF, RND and K. -/
def vmOvf (v : Vec) : Nat := fld (vcr v 2) 1 0
def vmRnd (v : Vec) : Nat := fld (vcr v 2) 3 2
def vmK (v : Vec) : Nat := fld (vcr v 2) 8 4
/-- Count a clamp or a WRAP-to-NULL in its pair of registers, which saturate (R231). -/
def vcount (v : Vec) (lo : Nat) (n : Nat) : Vec :=
  let c := min (vcr v lo + vcr v (lo + 1) * 65536 + n) 0xFFFFFFFF
  setVcr (setVcr v lo c) (lo + 1) (c / 65536)
/-- Count the events of a lane result. -/
def vcounts (v : Vec) (sat wn : Bool) : Vec := vcount (vcount v 6 (b2n sat)) 8 (b2n wn)
/-- A lane whose value no rule gives. -/
def freeLane (ctr j : Nat) : Lane := BitVec.ofNat 72 (leNat ((List.range 9).map (fun k => Config.freeByte ctr (9 * j + k))))

/-! ## Elements in memory (R227, R233) -/

/-- An element fault: the element, the link, the unit, ECODE, and EADDR (R240). -/
structure VFault where
  elem : Nat
  link : Nat
  unit_ : Nat
  ecode : Nat
  eaddr : Nat
deriving DecidableEq, Repr
/-- Are the `n` bytes at a byte address in local store and the data bounds? -/
def elemOk (i : Nat) (c : Core) (b : Int) (n : Nat) : Bool :=
  decide ((0x200000 : Int) ≤ b) && (match laneChk i c b.toNat n with
    | .ok => true
    | _ => false)
/-- Lowest word of an element, as EADDR holds it. -/
def elemWord (b : Int) : Nat := unsgn 24 (b / 2)
/-- Width of an element in a form: 0 PACK9, 1 LANE16. -/
def formWidth (f : Nat) : Nat := if f = 0 then 9 else 16
def elemRead (s : State) (i : Nat) (b : Int) : Lane := BitVec.ofNat 72 (mnat (getCore s i).mem b.toNat 9)
def elemWrite (s : State) (i : Nat) (b : Int) (w : Nat) (x : Lane) : State := byteWrite s i b.toNat w x.toNat
/-- A stream register: BASE, STRIDE, COUNT, FORM. -/
structure Stream where
  base : Nat
  stride : Int
  count : Nat
  form : Nat
deriving DecidableEq, Repr
def streamOf (v : Vec) (n : Nat) : Stream :=
  ⟨vcr v (16 + 4 * n) + fld (vcr v (17 + 4 * n)) 7 0 * 65536, sgn 16 (vcr v (18 + 4 * n)), vcr v (19 + 4 * n), fld (vcr v (17 + 4 * n)) 15 15⟩
/-- Byte address of an element of a stream. -/
def streamAt (t : Stream) (e : Nat) : Int := 2 * t.base + formWidth t.form * t.stride * e
/-- Do the elements below `n` of two streams share a byte? -/
def streamsMeet (t u : Stream) (n : Nat) : Bool :=
  (List.range n).any (fun x => (List.range n).any (fun y =>
    decide (streamAt t x < streamAt u y + formWidth u.form) && decide (streamAt u y < streamAt t x + formWidth t.form)))

/-! ## What a lane operation computes (R231, R232, R235) -/

/-- Unit of an instruction (Table 11-4): 0 ALU, 1 MUL, 2 DIV, 3 LSU, 4 PERM, 5 HASH, 6 CONV. -/
def unitOf (row : SRow) (w2 : Nat) : Nat :=
  match row with
  | .varith => if vaFn w2 = 2 then 1 else 0
  | .vlogic | .vcmp | .vsel | .vpred => 0
  | .vscale | .vmulw | .vdot4 | .vdot2w => 1
  | .vdiv => 2
  | .vcompact => 4
  | .vhash | .vmemb => 5
  | .vconv => 6
  | _ => 3
/-- ECODE of a trapped lane operation (Table 11-6). -/
def ecodeOf (st : Nat) : Nat := if st = St.divideByZero then 0x20 else if st = St.castInvalid then 0x21 else 7
/-- VARITH. -/
def varithLane (fn ovf rnd k : Nat) (a b : Lane) : Arith :=
  match fn with
  | 0 => arith2 ovf (· + ·) a b
  | 1 => arith2 ovf (· - ·) a b
  | 2 => arith2 ovf (fun x y => if k = 0 then x * y else divRound rnd (x * y) ((10 ^ k : Nat) : Int)) a b
  | 3 => arith1 ovf (fun x => -x) a
  | 4 => arith1 ovf (fun x => (x.natAbs : Int)) a
  | 5 => arith2 ovf min a b
  | 6 => arith2 ovf max a b
  | 7 => plain a
  | 8 => if a = nullLane ∨ b = nullLane then plain nullLane else plain (if floatKey b < floatKey a then b else a)
  | _ => if a = nullLane ∨ b = nullLane then plain nullLane else plain (if floatKey a < floatKey b then b else a)
/-- VLOGIC. -/
def vlogicLane (fn : Nat) (a b : Lane) : Lane :=
  match fn with
  | 0 => a &&& b
  | 1 => a ||| b
  | 2 => a ^^^ b
  | 3 => a &&& ~~~ b
  | 4 => ~~~ a
  | 5 => acShift 0 a (b.toNat % 128)
  | 6 => acShift 2 a (b.toNat % 128)
  | _ => acShift 1 a (b.toNat % 128)
/-- A relation of VCMP between two numbers. -/
def vrel (rel : Nat) (x y : Int) : Bool :=
  match rel with
  | 0 => x == y
  | 1 => x != y
  | 2 => decide (x < y)
  | 3 => decide (x ≤ y)
  | 4 => decide (y < x)
  | _ => decide (y ≤ x)
/-- VCMP: NULL, or 1 or 0. -/
def vcmpLane (fn : Nat) (a b : Lane) : Option Bool :=
  if fn / 8 = 2 then some (vrel (fn % 8) (a.toNat : Int) (b.toNat : Int))
  else if a = nullLane ∨ b = nullLane then none
  else if fn / 8 = 1 then some (vrel (fn % 8) (floatKey a) (floatKey b))
  else some (vrel (fn % 8) a.toInt b.toInt)
/-- Σ of the four signed 18-bit products of VDOT4. -/
def dot4 (a b : Lane) : Int :=
  (List.range 4).foldl (fun (t : Int) k => t + sgn 18 (fld a.toNat (18 * k + 17) (18 * k)) * sgn 18 (fld b.toNat (18 * k + 17) (18 * k))) 0
/-- A lane operation of operands a, b and the destination's old value d. -/
def laneOp (row : SRow) (w2 : Nat) (v : Vec) (a b d : Lane) : Arith :=
  let fn := vaFn w2
  let ovf := vmOvf v
  let rnd := vmRnd v
  match row with
  | .varith => varithLane fn ovf rnd (vmK v) a b
  | .vlogic => plain (vlogicLane fn a b)
  | .vcmp => plainB (vcmpLane fn a b)
  | .vscale => if vaX w2 then plain (scaleDown rnd fn a) else arith1 ovf (fun x => x * ((10 ^ fn : Nat) : Int)) a
  | .vdot4 => narrow ovf (d.toInt + dot4 a b)
  | .vdiv => divLane ovf rnd (vmK v) a b
  | .vhash => plain (natLane (hashStep (if fn = 0 then 0 else laneLow d) a))
  | .vconv => if fn = 0 then castF2D ovf rnd (vmK v) a else narrowK ovf (2 ^ (fn + 2)) a
  | _ => plain a

/-! ## Completing and faulting (R240, R241) -/

/-- The vector state after an instruction or chain completes: VIDX is 0. -/
def vecEnd (v : Vec) : Vec := setVcr { v with links := [] } 1 0
/-- The instruction completes: the vector state is written, EVPEND.VEC is set (R211), the PC moves on. -/
def vecDone (s : State) (v : Vec) (f : Core → Core) : IRes :=
  step1 s 2 (fun c => f { c with vec := { vecEnd v with pipes := c.vec.pipes }, evpend := c.evpend ||| 2 })
/-- An element fault: VIDX and VCAUSE are written, and VECTOR is raised. -/
def vecFault (s : State) (v : Vec) (t : VFault) : IRes :=
  .exc s (fun c => { c with vec := { setVcr (setVcr { v with links := [] } 1 t.elem) 3 (t.link * 4096 + t.unit_ * 256 + t.ecode) with
    pipes := c.vec.pipes } }) Exc.vector (some t.eaddr) 0
/-- Elements in order, stopping at the first fault: the fault, if any, and what the completed elements left. -/
def vecFold {α : Type} (f : Nat → α → Except VFault α) : List Nat → α → Option VFault × α
  | [], x => (none, x)
  | e :: es, x =>
    match f e x with
    | .ok y => vecFold f es y
    | .error t => (some t, x)
/-- Finish a short form over its elements. -/
def vecFinish (r : Option VFault × State × Vec) : IRes :=
  match r.1 with
  | none => vecDone r.2.1 r.2.2 id
  | some t => vecFault r.2.1 r.2.2 t
/-- A short form whose VIDX is at or above VL does nothing and completes (R228, R241). -/
def vecGate (s : State) (v : Vec) (k : IRes) : IRes := if vidxOf v ≥ vlOf v then vecDone s v id else k

end Sys2Proof.Machine
end

