-- ==== Sys2Proof/Machine/VecShort.lean ====
section
/-! DEFINITION. Short-form vector instructions (spec/11_vector_extension.md, R228, R231 to R237, R239 to R241). -/

namespace Sys2Proof.Machine
open Sys2Proof

/-! ## Lane operations -/

/-- Operand b of a short form: a register's lane, or an accumulator under bs. -/
def shortB (c : Core) (w2 j : Nat) : Lane := if vaBs w2 then acreg c (vaB w2 % 4) else vlane c.vec (vaB w2) j
/-- One element of a lane operation: its lane and its counts, or its fault. -/
def shortElem (c : Core) (row : SRow) (w1 w2 j : Nat) (v : Vec) : Except VFault Vec :=
  match laneOp row w2 c.vec (vlane c.vec (vaA w1) j) (shortB c w2 j) (vlane c.vec (vaD w1) j) with
  | .val l sat wn => .ok (setLane (vcounts v sat wn) (vaD w1) j l)
  | .trap st => .error ⟨j, 0, unitOf row w2, ecodeOf st, 0⟩
/-- A short lane operation on the active elements `es`. -/
def shortLane (row : SRow) (s : State) (c : Core) (w1 w2 : Nat) (es : List Nat) : Option VFault × State × Vec :=
  let r := vecFold (shortElem c row w1 w2) es c.vec
  (r.1, s, r.2)
/-- A short lane operation. -/
def shortBody (row : SRow) (s : State) (c : Core) (w1 w2 : Nat) : IRes :=
  vecGate s c.vec (vecFinish (shortLane row s c w1 w2 (vactives c.vec (vaPg w2))))
/-- Short VCMP: Pd gets the comparison, or under x = 1 whether it is NULL. -/
def shortCmp (s : State) (c : Core) (w1 w2 : Nat) : IRes :=
  let bits := (vactives c.vec (vaPg w2)).foldl (fun t j =>
    let r := vcmpLane (vaFn w2) (vlane c.vec (vaA w1) j) (shortB c w2 j)
    t + (if (if vaX w2 then r == none else r == some true) then 2 ^ j else 0)) 0
  vecGate s c.vec (vecDone s (setPred c.vec (vaD w1) bits) id)
/-- Write a 144-bit lane pair. -/
def setPair (v : Vec) (n j : Nat) (x : Int) : Vec :=
  let u := unsgn 144 x
  setLane (setLane v n j (natLane (u % 2 ^ 72))) (n + 1) j (natLane (u / 2 ^ 72))
/-- A 144-bit lane pair. -/
def getPair (v : Vec) (n j : Nat) : Int := (vlane v n j).toNat + (vlane v (n + 1) j).toInt * ((2 ^ 72 : Nat) : Int)
/-- VMULW. -/
def mulwBody (s : State) (c : Core) (w1 w2 : Nat) : IRes :=
  vecGate s c.vec (vecDone s ((vactives c.vec (vaPg w2)).foldl (fun v j =>
    setPair v (vaD w1) j ((vlane c.vec (vaA w1) j).toInt * (shortB c w2 j).toInt)) c.vec) id)
/-- VDOT2W: the accumulator overflows under R41. -/
def dot2wBody (s : State) (c : Core) (w1 w2 : Nat) : IRes :=
  let d := vaD w1
  let a := vaA w1
  let b := vaB w2
  let r := vecFold (fun j v =>
    let x := getPair c.vec d j + (vlane c.vec a j).toInt * (vlane c.vec b j).toInt
      + (vlane c.vec (a + 1) j).toInt * (vlane c.vec (b + 1) j).toInt
    match narrow144 (vmOvf c.vec) x with
    | some y => .ok (setPair (vcounts v y.2 false) d j y.1)
    | none => .error (⟨j, 0, 1, 7, 0⟩ : VFault)) (vactives c.vec (vaPg w2)) c.vec
  vecGate s c.vec (vecFinish (r.1, s, r.2))
/-- VSEL. -/
def selBody (s : State) (c : Core) (w1 w2 : Nat) : IRes :=
  vecGate s c.vec (vecDone s ((vactives c.vec (vaPg w2)).foldl (fun v j =>
    setLane v (vaD w1) j (if bitOf (vpred c.vec (vaFn w2 % 8)) j then vlane c.vec (vaA w1) j else shortB c w2 j)) c.vec) id)
/-- VCONV PTOB. -/
def ptobBody (s : State) (c : Core) (w1 w2 : Nat) : IRes :=
  let b := vaB w2
  vecGate s c.vec (vecDone s ((vactives c.vec (vaPg w2)).foldl (fun v j =>
    setLane v (vaD w1) j (if b ≠ 0 ∧ bitOf (vpred c.vec b) j then nullLane else boolLane (bitOf (vpred c.vec (vaA w1)) j))) c.vec) id)
/-- Short VCOMPACT: the active elements pack to lane 0 upward, and VOUT is their number. -/
def compactBody (s : State) (c : Core) (w1 w2 : Nat) : IRes :=
  let es := vactives c.vec (vaPg w2)
  vecGate s c.vec (vecDone s (setVcr ((es.zipIdx).foldl (fun v p => setLane v (vaD w1) p.2 (vlane c.vec (vaA w1) p.1)) c.vec) 5 es.length) id)

/-! ## Memory (R233, R234) -/

/-- Byte address of element `j` of a unit-stride or strided access. -/
def vmAddr (c : Core) (w1 w2 j : Nat) : Int :=
  let w := formWidth (fld w2 8 8)
  2 * areg c (fld w1 5 3) + w * j * (if opOf w1 < 0x2A ∧ fld w2 7 5 = 1 then sgn 16 (dreg c (fld w2 4 2)) else 1)
/-- Fields of format VM. -/
def vmV (w1 : Nat) : Nat := fld w1 9 6
def vmI (w2 : Nat) : Nat := fld w2 15 12
def vmPg (w2 : Nat) : Nat := fld w2 11 9
/-- Where an indexed element lies: NULL makes no access, an index outside 32 bits raises INDEX. -/
inductive VIndex where
  | null | bad | at_ (b : Int)
deriving DecidableEq, Repr
def vmIndex (c : Core) (w1 w2 j : Nat) : VIndex :=
  match laneInt (vlane c.vec (vmI w2) j) with
  | none => .null
  | some x => if x < 0 ∨ x > 2 ^ 32 - 1 then .bad else .at_ (2 * areg c (fld w1 5 3) + formWidth (fld w2 8 8) * x)
/-- The byte address of an element of a load or store, or the cause of its fault. -/
def vmElem (i : Nat) (c : Core) (indexed : Bool) (w1 w2 j : Nat) : Except VFault (Option Int) :=
  let chk := fun (b : Int) => if elemOk i c b (formWidth (fld w2 8 8)) then .ok (some b) else .error (⟨j, 0, 3, 4, elemWord b⟩ : VFault)
  if indexed then (match vmIndex c w1 w2 j with
    | .null => .ok none
    | .bad => .error ⟨j, 0, 3, 0x23, 0⟩
    | .at_ b => chk b)
  else chk (vmAddr c w1 w2 j)
/-- One element of a load. -/
def vmLoad (s : State) (i : Nat) (c : Core) (indexed : Bool) (w1 w2 j : Nat) (v : Vec) : Except VFault Vec :=
  match vmElem i c indexed w1 w2 j with
  | .ok (some b) => .ok (setLane v (vmV w1) j (elemRead s i b))
  | .ok none => .ok (setLane v (vmV w1) j nullLane)
  | .error t => .error t
/-- VLD and VGATHER. -/
def vldBody (indexed : Bool) (s : State) (i : Nat) (c : Core) (w1 w2 : Nat) : IRes :=
  let r := vecFold (vmLoad s i c indexed w1 w2) (vactives c.vec (vmPg w2)) c.vec
  vecGate s c.vec (vecFinish (r.1, s, r.2))
/-- VST and VSCATTER, in ascending lane order. -/
def vstBody (indexed : Bool) (s : State) (i : Nat) (c : Core) (w1 w2 : Nat) : IRes :=
  let r := vecFold (fun j (t : State) => match vmElem i c indexed w1 w2 j with
    | .ok (some b) => .ok (elemWrite t i b (formWidth (fld w2 8 8)) (vlane c.vec (vmV w1) j))
    | .ok none => .ok t
    | .error f => .error f) (vactives c.vec (vmPg w2)) s
  vecGate s c.vec (vecFinish (r.1, r.2, c.vec))
/-- VLDFF and VGATHERFF: only the first active element faults; a later one stops the instruction, which completes with Pd the elements
loaded. -/
def vldffBody (indexed : Bool) (s : State) (i : Nat) (c : Core) (w1 w2 : Nat) : IRes :=
  let es := vactives c.vec (vmPg w2)
  let r := vecFold (vmLoad s i c indexed w1 w2) es c.vec
  let bits := fun (l : List Nat) => l.foldl (fun t j => t + 2 ^ j) 0
  vecGate s c.vec (match r.1 with
    | none => vecDone s (setPred r.2 (fld w2 7 5) (bits es)) id
    | some t => if es.head? = some t.elem then vecFault s r.2 t
      else vecDone s (setPred r.2 (fld w2 7 5) (bits (es.filter (fun j => decide (j < t.elem))))) id)

/-! ## Membership and search (R236, R237) -/

/-- A directory lane (Table 6-2): OCC, TAG, FIRST. -/
def dirOcc (l : Lane) : Bool := bitOf l.toNat 71
def dirTag (l : Lane) : Nat := fld l.toNat 70 48
def dirFirst (l : Lane) : Nat := fld l.toNat 23 0
/-- A checked read of a PACK9 lane of local store by element `j`. -/
def hashLane (s : State) (i : Nat) (c : Core) (j : Nat) (b : Nat) : Except VFault Lane :=
  if elemOk i c b 9 then .ok (elemRead s i b) else .error ⟨j, 0, 5, 4, elemWord b⟩
/-- The key of the entry at byte `b` equals `key`: its lanes are read in order until one differs. -/
def entryIs (s : State) (i : Nat) (c : Core) (j b : Nat) : List Lane → Except VFault Bool
  | [] => .ok true
  | k :: ks =>
    match hashLane s i c j b with
    | .error t => .error t
    | .ok l => if l = k then entryIs s i c j (b + 9) ks else .ok false
/-- Probe the directory from a slot, at most `n` slots: FIRST of the key's slot, if found (R113). -/
def dirProbe (s : State) (i : Nat) (c : Core) (j dir d esize h : Nat) (key : List Lane) : Nat → Nat → Except VFault (Option Nat)
  | 0, _ => .ok none
  | n + 1, slot =>
    match hashLane s i c j (dir + 9 * slot) with
    | .error t => .error t
    | .ok l =>
      if ! dirOcc l then .ok none
      else if dirTag l ≠ fld h 46 24 then dirProbe s i c j dir d esize h key n ((slot + 1) % 2 ^ d)
      else match entryIs s i c j (dir + 9 * 2 ^ d + dirFirst l * esize + 9) key with
        | .error t => .error t
        | .ok true => .ok (some (dirFirst l))
        | .ok false => dirProbe s i c j dir d esize h key n ((slot + 1) % 2 ^ d)
/-- The predicate after elements `done` have results: on a fault at `e` the bits from e upward keep their old values. -/
def predAfter (v : Vec) (pd bits : Nat) (e : Option Nat) : Vec :=
  match e with
  | none => setPred v pd bits
  | some e => setPred v pd (bits % 2 ^ e + vpred v pd / 2 ^ e * 2 ^ e)
/-- MEMB and LOOKUP. -/
def membBody (s : State) (i : Nat) (c : Core) (w1 w2 : Nat) : IRes :=
  let v := c.vec
  let d := fld (vcr v 12) 4 0
  let kw := fld (vcr v 12) 7 5
  let pw := fld (vcr v 12) 12 8
  let b := vaB w2
  if b + kw > 16 ∨ kw = 0 ∨ kw > 4 ∨ d < 8 ∨ d > 17 ∨ pw > 16 then raise s Exc.illegal
  else
    let dir := 2 * (vcr v 10 + vcr v 11 % 256 * 65536)
    let r := vecFold (fun j (x : Vec × Nat) =>
      let h := laneLow (vlane v (vaA w1) j)
      let key := (List.range kw).map (fun k => vlane v (b + k) j)
      match (if nullKey key then .ok none else dirProbe s i c j dir d (9 * (1 + kw + pw)) h key (2 ^ d) (h % 2 ^ d)) with
      | .error t => .error t
      | .ok f => .ok (if vaFn w2 / 8 = 1 then setLane x.1 (vaD w1) j (match f with
            | some n => natLane n
            | none => nullLane) else x.1, x.2 + (if f.isSome then 2 ^ j else 0))) (vactives v (vaPg w2)) (v, 0)
    vecGate s v (vecFinish (r.1, s, predAfter r.2.1 (vaFn w2 % 8) r.2.2 (r.1.map (·.elem))))
/-- The check of one element of a searched array, in local store or in the window. -/
def srchChk (s : State) (i : Nat) (c : Core) (j : Nat) (t : Stream) (n : Nat) : Except VFault Unit :=
  let wa := t.base + 8 * n
  if wa ≥ winBase ∧ wa < 2 ^ 24 then (match ((List.range 8).map (fun k => unitChk s i c (wa + k) 1 false false)).foldl chkJoin .ok with
    | .bad _ _ _ => .error ⟨j, 0, 5, 4, wa⟩
    | _ => .ok ())
  else if elemOk i c (2 * wa) 16 then .ok () else .error ⟨j, 0, 5, 4, elemWord (2 * wa)⟩
/-- Does the searched array wait for a scratch slot, or does a window element of it raise a denial to record? -/
def srchWaits (s : State) (i : Nat) (c : Core) (t : Stream) : Bool :=
  t.base ≥ winBase && (List.range t.count).any (fun n => (List.range 8).any (fun k => unitChk s i c (wadd t.base (8 * n + k)) 1 false false == .wait))
def srchDeny (s : State) (i : Nat) (c : Core) (f : Option VFault) : State :=
  match f with
  | some t =>
    let bad := (List.range 8).findSome? (fun k => match unitChk s i c (t.eaddr + k) 1 false false with
      | .bad _ w (some cls) => some (w, cls)
      | _ => none)
    (match (if t.eaddr ≥ winBase then bad else none) with
    | some (w, cls) => accDeny s i c w (some cls)
    | none => s)
  | none => s
/-- An element of a searched array. -/
def srchLane (s : State) (i : Nat) (c : Core) (t : Stream) (n : Nat) : Lane :=
  let wa := t.base + 8 * n
  if wa ≥ winBase then acValue ((accRead s i c wa 5 1).1) else elemRead s i (2 * wa)
/-- Index of the first element not below `x`. -/
def srchFirst (s : State) (i : Nat) (c : Core) (t : Stream) (x : Lane) : Nat → Nat → Nat
  | 0, n => n
  | k + 1, n => if (srchLane s i c t n).toInt < x.toInt then srchFirst s i c t x k (n + 1) else n
/-- SRCH. -/
def srchBody (s : State) (i : Nat) (c : Core) (w1 w2 : Nat) : IRes :=
  let v := c.vec
  let t := streamOf v (vaB w2 % 4)
  let r := vecFold (fun j (x : Vec × Nat) =>
    let a := vlane v (vaA w1) j
    if a = nullLane then .ok (setLane x.1 (vaD w1) j nullLane, x.2)
    else match (List.range t.count).findSome? (fun n => match srchChk s i c j t n with
        | .error f => some f
        | .ok _ => none) with
      | some f => .error f
      | none =>
        let n := srchFirst s i c t a t.count 0
        .ok (setLane x.1 (vaD w1) j (natLane n), x.2 + (if n < t.count ∧ srchLane s i c t n = a then 2 ^ j else 0)))
    (vactives v (vaPg w2)) (v, 0)
  if srchWaits s i c t then .hold
  else vecGate s v (vecFinish (r.1, srchDeny s i c r.1, predAfter r.2.1 (vaFn w2 % 8) r.2.2 (r.1.map (·.elem))))

/-! ## Predicates, moves, control registers (Table 11-5, R226) -/

/-- The mask of bits below `n`. -/
def below (n : Nat) : Nat := 2 ^ n - 1
/-- Bits of a predicate destination that an instruction may set: those of the elements from VIDX up to VL (R228). -/
def elemMask (v : Vec) : Nat := below (vlOf v) - below (min (vidxOf v) (vlOf v))
/-- VPRED's result; bits at or above VL, and below VIDX, are 0. -/
def vpredFn (c : Core) (w1 w2 : Nat) : Nat :=
  let v := c.vec
  let a := vpred v (fld w1 2 0)
  let b := vpred v (fld w2 15 13)
  let m := below (vlOf v)
  (match fld w1 9 6 with
    | 0 => a &&& b
    | 1 => a ||| b
    | 2 => a ^^^ b
    | 3 => a &&& (0xFFFFFFFF - b)
    | 4 => 0xFFFFFFFF - a
    | 5 => a
    | 6 => m
    | _ => below (min (dreg c (fld w2 12 10) % 64) (vlOf v))) &&& elemMask v
/-- What VXFER does when elements remain: VINS writes a lane below VL only (R228). -/
def vxferFn (s : State) (c : Core) (w1 w2 : Nat) : IRes :=
  let v := c.vec
  let n := fld w1 5 2
  let ac := fld w2 15 14
  let dj := fld w2 13 11
  let pp := fld w2 10 8
  let pg := fld w2 7 5
  match fld w1 9 6 with
  | 0 => vecDone s v (fun x => setAC x ac (vlane v n (dreg c dj % 32)))
  | 1 => vecDone s (if (vactives v 0).contains (dreg c dj % 32) then setLane v n (dreg c dj % 32) (acreg c ac) else v) id
  | 2 => vecDone s ((vactives v pg).foldl (fun x j => setLane x n j (acreg c ac)) v) id
  | 3 => vecDone s v (fun x => setD (setD x dj (vpred v pp % 65536)) (dj + 1) (vpred v pp / 65536))
  | 4 => vecDone s (setPred v pp ((dreg c (dj + 1) * 65536 + dreg c dj) &&& elemMask v)) id
  | 5 => vecDone s v (fun x => setD x dj ((vactives v pg).filter (fun j => bitOf (vpred v pp) j)).length)
  | 6 => vecDone s v (fun x => setD x dj (((vactives v 0).find? (fun j => bitOf (vpred v pp) j)).getD 32))
  | _ => vecDone s ((vactives v pg).foldl (fun x j => setLane x n j (natLane j)) v) id
/-- VXFER. -/
def vxferBody (s : State) (c : Core) (w1 w2 : Nat) : IRes := vecGate s c.vec (vxferFn s c w1 w2)
/-- Bits of a vector control register that a write sets (Table 11-2). -/
def vcrMask (n : Nat) : Nat :=
  if n = 0 then 0x3F else if n = 2 then 0x1FF else if n = 11 then 0xFF else if n = 12 then 0x1FFF
  else if n ≥ 16 ∧ n % 4 = 1 then 0x80FF else 0xFFFF
/-- Does a VCTL write hold a value that raises ILLEGAL (R226)? -/
def vcrBad (n x : Nat) : Bool :=
  (n == 0 && decide (x > 32)) || (n == 2 && (fld x 1 0 == 3 || fld x 3 2 == 3 || decide (fld x 8 4 > 18)))
/-- VCTL: it works on no element, so VL does not gate it; VIDX is 0 after it, unless it wrote VIDX (R241; DEDUCED, assumption 32). -/
def vctlBody (s : State) (c : Core) (w1 w2 : Nat) : IRes :=
  let r := fld w1 5 3
  let n := fld w2 15 10
  let fin := fun (v : Vec) => setVcr v 1 0
  match fld w1 9 6 with
  | 0 => step1 s 2 (fun x => setD { x with vec := fin x.vec } r (vcr c.vec n))
  | 1 =>
    let y := dreg c r
    if vcrBad n y then raise s Exc.illegal
    else step1 s 2 (fun x => { x with vec := setVcr (fin x.vec) n (y &&& vcrMask n) })
  | _ =>
    let a := areg c r
    step1 s 2 (fun x =>
      let v := setVcr (setVcr x.vec (16 + 4 * n) (a % 65536)) (17 + 4 * n) (fld (vcr x.vec (17 + 4 * n)) 15 15 * 2 ^ 15 + a / 65536)
      { x with vec := fin v })

end Sys2Proof.Machine
end

