-- ==== Sys2Proof/Machine/VecChain.lean ====
section
/-! DEFINITION. Long-form vector instructions and chains, and the issue of every vector instruction
(spec/11_vector_extension.md, R229, R232, R238 to R241). -/

namespace Sys2Proof.Machine
open Sys2Proof

/-! ## Links (R238) -/

/-- A link: its row and its words. -/
structure VLink where
  row : SRow
  w1 : Nat
  w2 : Nat
deriving DecidableEq, Repr
/-- The instruction at a word address, as a link. -/
def linkAt (i : Nat) (c : Core) (pc : Nat) : Option VLink :=
  match fetchAt i c pc with
  | .ins (some r) w1 w2 => some ⟨r, w1, w2⟩
  | _ => none
/-- Is an instruction a long form? -/
def isLong (row : SRow) (w2 : Nat) : Bool :=
  [SRow.varith, .vlogic, .vcmp, .vscale, .vdot4, .vdiv, .vcompact, .vhash, .vconv].contains row && vaL w2
def VLink.unit_ (l : VLink) : Nat := unitOf l.row l.w2
def VLink.readsA (l : VLink) : Bool := vaA l.w1 == 8
def VLink.readsB (l : VLink) : Bool := ! vaBs l.w2 && vaB l.w2 == 8
def VLink.writesQ (l : VLink) : Bool := vaD l.w1 == 8
/-- Does the link's operation use b? -/
def VLink.usesB (l : VLink) : Bool :=
  match l.row with
  | .varith => ! [3, 4, 7].contains (vaFn l.w2)
  | .vlogic => vaFn l.w2 != 4
  | .vcmp | .vdot4 | .vdiv | .vcompact => true
  | _ => false
/-- Does it read its destination's old value? -/
def VLink.readsD (l : VLink) : Bool := l.row == .vdot4 || (l.row == .vhash && vaFn l.w2 == 1)
/-- May a link follow the links collected so far? -/
def linkOk (prev : List VLink) (l : VLink) : Bool :=
  (if prev.isEmpty then ! l.readsA && ! l.readsB else l.readsA != l.readsB)
  && decide (prev.length < 4) && ! prev.any (fun p => p.unit_ == l.unit_) && ! (l.row == .vcompact && l.writesQ)

/-! ## Elements of a chain (R229, R232, R240) -/

/-- The streams a link names: a, b and d. -/
def VLink.streams (l : VLink) : List Nat :=
  (if l.readsA then [] else [vaA l.w1]) ++ (if l.usesB && ! vaBs l.w2 && ! l.readsB then [vaB l.w2] else [])
  ++ (if l.writesQ then [] else [vaD l.w1])
/-- The streams whose element `e` a link accesses at element `e`; a compaction's destination element is VOUT's. -/
def VLink.accesses (l : VLink) : List Nat := if l.row = .vcompact then l.streams.dropLast else l.streams
/-- The first stream with fewer than `n` elements: its link's place and unit. -/
def lengthFault (v : Vec) (n : Nat) (ls : List VLink) : Option (Nat × Nat) :=
  (ls.zipIdx).findSome? (fun p => if p.1.streams.any (fun t => decide ((streamOf v t).count < n)) then some (p.2, p.1.unit_) else none)
/-- The first access fault of element `e`. -/
def accessFault (i : Nat) (c : Core) (e : Nat) (ls : List VLink) : Option VFault :=
  (ls.zipIdx).findSome? (fun p => p.1.accesses.findSome? (fun t =>
    let st := streamOf c.vec t
    if elemOk i c (streamAt st e) (formWidth st.form) then none else some ⟨e, p.2, p.1.unit_, 4, elemWord (streamAt st e)⟩))
/-- Does the destination share bytes with a source stream without being the same elements, so that its results are unspecified? -/
def destMeets (v : Vec) (n : Nat) (ls : List VLink) : Bool :=
  match ls.getLast? with
  | none => false
  | some l =>
    let d := streamOf v (vaD l.w1)
    (ls.flatMap (fun k => if k.writesQ then k.streams else k.streams.dropLast)).any (fun t =>
      let u := streamOf v t
      ! (u.base == d.base && u.stride == d.stride && u.form == d.form) && streamsMeet u d n)
/-- Operand of a link: Q, an accumulator, or its stream's element. -/
def linkOperand (s : State) (i : Nat) (c : Core) (e : Nat) (q : Lane) (f : Nat) : Lane :=
  if f = 8 then q else elemRead s i (streamAt (streamOf c.vec f) e)
def linkA (s : State) (i : Nat) (c : Core) (e : Nat) (q : Lane) (l : VLink) : Lane := linkOperand s i c e q (vaA l.w1)
def linkB (s : State) (i : Nat) (c : Core) (e : Nat) (q : Lane) (l : VLink) : Lane :=
  if vaBs l.w2 then acreg c (vaB l.w2 % 4) else linkOperand s i c e q (vaB l.w2)
/-- The old value of a destination: its stream's element; Q holds none, so its value is free. -/
def linkD (s : State) (i : Nat) (c : Core) (e k : Nat) (l : VLink) : Lane :=
  if ! l.readsD then 0
  else if l.writesQ then freeLane s.freeCtr (65536 * (k + 1) + e)
  else elemRead s i (streamAt (streamOf c.vec (vaD l.w1)) e)
/-- Element `e` through the links from place `k`: the memory and the vector state after it, or its fault. `loose` tells that the results
are unspecified. -/
def chainLinks (i : Nat) (c : Core) (e : Nat) (loose : Bool) : List VLink → Nat → Lane → State × Vec → Except VFault (State × Vec)
  | [], _, _, x => .ok x
  | l :: ls, k, q, x =>
    let a := linkA x.1 i c e q l
    let b := linkB x.1 i c e q l
    let out := fun (y : Lane) => if loose then freeLane x.1.freeCtr e else y
    if l.row = .vcompact then
      if b = 0#72 ∨ b = nullLane then .ok x
      else
        let st := streamOf c.vec (vaD l.w1)
        let at_ := streamAt st (vcr x.2 5)
        if ! elemOk i c at_ (formWidth st.form) then .error ⟨e, k, 4, 4, elemWord at_⟩
        else .ok (elemWrite x.1 i at_ (formWidth st.form) (out a), setVcr x.2 5 (vcr x.2 5 + 1))
    else match laneOp l.row l.w2 c.vec a b (linkD x.1 i c e k l) with
      | .trap st => .error ⟨e, k, l.unit_, ecodeOf st, 0⟩
      | .val y sat wn =>
        let v := vcounts x.2 sat wn
        if l.writesQ then chainLinks i c e loose ls (k + 1) y (x.1, v)
        else
          let st := streamOf c.vec (vaD l.w1)
          .ok (elemWrite x.1 i (streamAt st e) (formWidth st.form) (out y), v)
/-- The access fault of a compaction's destination element, known before any arithmetic when its selector is a stream or an accumulator. -/
def compactFault (s : State) (i : Nat) (c : Core) (e : Nat) (v : Vec) (ls : List VLink) : Option VFault :=
  match ls.getLast? with
  | none => none
  | some l =>
    let st := streamOf c.vec (vaD l.w1)
    let at_ := streamAt st (vcr v 5)
    let b := linkB s i c e 0 l
    if l.row ≠ .vcompact ∨ l.readsB ∨ b = 0#72 ∨ b = nullLane ∨ elemOk i c at_ (formWidth st.form) then none
    else some ⟨e, ls.length - 1, 4, 4, elemWord at_⟩
/-- One element of a chain: its accesses are checked first. -/
def chainElem (i : Nat) (c : Core) (ls : List VLink) (loose : Bool) (e : Nat) (x : State × Vec) : Except VFault (State × Vec) :=
  match accessFault i c e ls <|> compactFault x.1 i c e x.2 ls with
  | some t => .error t
  | none => chainLinks i c e loose ls 0 0 x
/-- A chain's elements from VIDX; `stop` is the number of elements after which an interrupt is taken. -/
def chainRun (s : State) (i : Nat) (c : Core) (first : Nat) (ls : List VLink) (stop : Option Nat) : IRes :=
  let v := c.vec
  let n := match ls.head? with
    | some l => (streamOf v (vaA l.w1)).count
    | none => 0
  let x := vidxOf v
  match lengthFault v n ls with
  | some p => vecFault s v ⟨x, p.1, p.2, 0x22, 0⟩
  | none =>
    let v := if x = 0 then setVcr v 5 0 else v
    let loose := destMeets v n ls
    let t := if loose || ls.any (fun l => l.writesQ && l.readsD) then { s with freeCtr := s.freeCtr + 1 } else s
    let last := match stop with
      | some k => if c.ie ∧ (irqCode c).isSome ∧ 0 < k ∧ x + k < n ∧ (k % 32 = 0 ∨ ls.any (fun l => l.row == .vdiv)) then x + k else n
      | none => n
    let r := vecFold (chainElem i c ls loose) ((List.range last).drop x) (s, v)
    let u := { r.2.1 with freeCtr := t.freeCtr }
    match r.1 with
    | some f => vecFault u r.2.2 f
    | none =>
      if last = n then vecDone u r.2.2 id
      else .done u (fun y => { y with pc := BitVec.ofNat 24 first, vec := setVcr { r.2.2 with links := [] } 1 last })
/-- A long-form link at the PC: collected where it writes Q; a closing link runs the chain. -/
def longBody (s : State) (i : Nat) (c : Core) (l : VLink) (stop : Option Nat) : IRes :=
  let prev := c.vec.links.filterMap (linkAt i c)
  if ! linkOk prev l then raise s Exc.illegal
  else if l.writesQ then step1 s 2 (fun x => { x with vec := { x.vec with links := c.vec.links ++ [c.pc.toNat] } })
  else chainRun s i c (c.vec.links.headD c.pc.toNat) (prev ++ [l]) stop

/-! ## Issue -/

/-- Issue of the vector instruction at the PC as a row: a long form is a link; exceptions of a chain have EPC at its first link. -/
def issueV (i : Nat) (row : SRow) (s : State) (stop : Option Nat) (body : State → Nat → Core → Nat → Nat → IRes) : State :=
  let c := getCore s i
  let pc := c.pc.toNat
  let first := c.vec.links.headD pc
  if c.run ≠ .run then s
  else match fetchAt i c pc with
    | .fault epc ea => syncExc s i epc Exc.fetch (some ea) 0
    | .ins r w1 w2 =>
      if r ≠ some row then s
      else if isLong row w2 then applyRes s i first (longBody s i c ⟨row, w1, w2⟩ stop)
      else if c.vec.links ≠ [] then syncExc s i first Exc.illegal none 0
      else applyRes s i pc (body s i c w1 w2)
/-- VARITH (R231). -/
def doVarith (i : Nat) (s : State) : State := issueV i .varith s none (fun s _ c w1 w2 => shortBody .varith s c w1 w2)
/-- VLOGIC (R231). -/
def doVlogic (i : Nat) (s : State) : State := issueV i .vlogic s none (fun s _ c w1 w2 => shortBody .vlogic s c w1 w2)
/-- VCMP (R231). -/
def doVcmp (i : Nat) (s : State) : State := issueV i .vcmp s none (fun s _ c w1 w2 => shortCmp s c w1 w2)
/-- VSCALE (R231). -/
def doVscale (i : Nat) (s : State) : State := issueV i .vscale s none (fun s _ c w1 w2 => shortBody .vscale s c w1 w2)
/-- VMULW (R232). -/
def doVmulw (i : Nat) (s : State) : State := issueV i .vmulw s none (fun s _ c w1 w2 => mulwBody s c w1 w2)
/-- VDOT4 (R232). -/
def doVdot4 (i : Nat) (s : State) : State := issueV i .vdot4 s none (fun s _ c w1 w2 => shortBody .vdot4 s c w1 w2)
/-- VDOT2W (R232). -/
def doVdot2w (i : Nat) (s : State) : State := issueV i .vdot2w s none (fun s _ c w1 w2 => dot2wBody s c w1 w2)
/-- Short VDIV: an interrupt is taken at an element boundary, `stop` elements on (R239). -/
def vdivBody (stop : Nat) (s : State) (c : Core) (w1 w2 : Nat) : IRes :=
  let es := vactives c.vec (vaPg w2)
  let m := vidxOf c.vec + stop
  if c.ie ∧ (irqCode c).isSome ∧ 0 < stop ∧ es.any (fun j => decide (m ≤ j)) then
    let r := shortLane .vdiv s c w1 w2 (es.filter (fun j => decide (j < m)))
    (match r.1 with
      | some t => vecFault r.2.1 r.2.2 t
      | none => .done s (fun y => { y with vec := setVcr r.2.2 1 m }))
  else shortBody .vdiv s c w1 w2
/-- VDIV (R231). -/
def doVdiv (i stop : Nat) (s : State) : State := issueV i .vdiv s (some stop) (fun s _ c w1 w2 => vdivBody stop s c w1 w2)
/-- VLD (R233). -/
def doVld (i : Nat) (s : State) : State := issueV i .vld s none (vldBody false)
/-- VST (R233). -/
def doVst (i : Nat) (s : State) : State := issueV i .vst s none (vstBody false)
/-- VLDFF (R234). -/
def doVldff (i : Nat) (s : State) : State := issueV i .vldff s none (vldffBody false)
/-- VGATHER (R233). -/
def doVgather (i : Nat) (s : State) : State := issueV i .vgather s none (vldBody true)
/-- VGATHERFF (R234). -/
def doVgatherff (i : Nat) (s : State) : State := issueV i .vgatherff s none (vldffBody true)
/-- VSCATTER (R233). -/
def doVscatter (i : Nat) (s : State) : State := issueV i .vscatter s none (vstBody true)
/-- VCOMPACT (R232). -/
def doVcompact (i : Nat) (s : State) : State := issueV i .vcompact s none (fun s _ c w1 w2 => compactBody s c w1 w2)
/-- VHASH (R235). -/
def doVhash (i : Nat) (s : State) : State := issueV i .vhash s none (fun s _ c w1 w2 => shortBody .vhash s c w1 w2)
/-- VMEMB (R236, R237). -/
def doVmemb (i : Nat) (s : State) : State := issueV i .vmemb s none (fun s i c w1 w2 =>
  if vaFn w2 / 8 = 2 then srchBody s i c w1 w2 else membBody s i c w1 w2)
/-- VSEL. -/
def doVsel (i : Nat) (s : State) : State := issueV i .vsel s none (fun s _ c w1 w2 => selBody s c w1 w2)
/-- VPRED. -/
def doVpred (i : Nat) (s : State) : State := issueV i .vpred s none (fun s _ c w1 w2 =>
  vecGate s c.vec (vecDone s (setPred c.vec (fld w1 5 3) (vpredFn c w1 w2)) id))
/-- VXFER. -/
def doVxfer (i : Nat) (s : State) : State := issueV i .vxfer s none (fun s _ c w1 w2 => vxferBody s c w1 w2)
/-- VCONV (R231). -/
def doVconv (i : Nat) (s : State) : State := issueV i .vconv s none (fun s _ c w1 w2 =>
  if vaFn w2 = 5 then ptobBody s c w1 w2 else shortBody .vconv s c w1 w2)
/-- VCTL (R226). -/
def doVctl (i : Nat) (s : State) : State := issueV i .vctl s none (fun s _ c w1 w2 => vctlBody s c w1 w2)
/-- VECTOR_CHAIN (R238, R239): the closing link at the PC issues and its chain runs; `stop` is the number of elements after which a
pending interrupt is taken. -/
def doVectorChain (i stop : Nat) (s : State) : State :=
  let c := getCore s i
  if c.run ≠ .run then s
  else match linkAt i c c.pc.toNat with
    | some l =>
      if isLong l.row l.w2 ∧ ! l.writesQ then
        applyRes s i (c.vec.links.headD c.pc.toNat) (longBody s i c l (some stop))
      else s
    | none => s

end Sys2Proof.Machine
end

