-- ==== Sys2Proof/Machine/VecPipe.lean ====
section
/-! DEFINITION. The pipes of a tile: VPIPE and its five commands (spec/11_vector_extension.md, R244). -/

namespace Sys2Proof.Machine
open Sys2Proof

/-- Words of local store that a pipe command issued by the core may reach. -/
def pipeLo (c : Core) : Nat := if c.k then 0x100000 else max 0x100000 c.udlo.toNat
def pipeHi (i : Nat) (c : Core) : Nat := if c.k then dataEnd i - 1 else min (dataEnd i - 1) c.udhi.toNat
/-- VPIPE: the queue holds two commands; the block is read, and STATUS becomes 0xFFFF. -/
def doVpipe (i : Nat) (s : State) : State := issueV i .vpipe s none (fun s i c w1 _ =>
  let b := areg c (fld w1 5 3)
  match frameBad i c b 16 with
  | some wa => .exc s id Exc.access (some wa) 0
  | none =>
    if c.vec.pipes.length ≥ 2 then .hold
    else
      let cmd : PipeCmd := ⟨fld w1 9 6, b, (List.range 16).map (fun k => coreWord i c (b + k)), pipeLo c, pipeHi i c⟩
      step1 (ownWrite s i b 2 0xFFFF) 2 (fun x => { x with vec := setVcr { x.vec with pipes := x.vec.pipes ++ [cmd] } 1 0 }))

/-! ## Command blocks (Table 11-7) -/

def PipeCmd.w (p : PipeCmd) (k : Nat) : Nat := p.words.getD k 0
/-- A byte address of the block. -/
def PipeCmd.addr (p : PipeCmd) (k : Nat) : Nat := 2 * (p.w k + p.w (k + 1) % 256 * 65536)
abbrev PipeCmd.count (p : PipeCmd) : Nat := p.w 8
/-- May the command reach `n` bytes at a byte address? -/
def PipeCmd.reach (p : PipeCmd) (a n : Nat) : Bool := n == 0 || (decide (2 * p.lo ≤ a) && decide (a + n ≤ 2 * p.hi + 2))
/-- Key words and payload lanes of a row, and its bytes. -/
def PipeCmd.keyw (p : PipeCmd) : Nat := fld (p.w 1) 2 0
def PipeCmd.pw (p : PipeCmd) : Nat := fld (p.w 1) 7 3
def PipeCmd.rowBytes (p : PipeCmd) : Nat := 9 * (p.keyw + p.pw)
/-- What a command writes: bytes at byte addresses, words of its block, and its status; none where the spec states no outcome (a COUNT out
of range, or an address that the command may not reach). -/
structure PipeOut where
  bytes : List (Nat × List Byte)
  fields : List (Nat × Nat)
  status : Nat
  /-- words of the block that receive a free address, in A-register form -/
  loose : List Nat := []
/-- The oldest command ends: its outcome, STATUS, and EVPEND.VEC. Where the spec states no outcome STATUS is a free value. -/
def pipeEnd (i fn : Nat) (f : PipeCmd → Mem → Option PipeOut) (s : State) : State :=
  let c := getCore s i
  match c.vec.pipes with
  | [] => s
  | p :: rest =>
    if p.fn ≠ fn ∨ c.run = .off then s
    else
      let fin := fun (s : State) => coreUpd s i (fun x => { x with vec := { x.vec with pipes := rest }, evpend := x.evpend ||| 2 })
      match f p c.mem with
      | none => let r := freeRes s; fin (ownWrite r.2 i p.block 2 (r.1 % 65536))
      | some o =>
        let s := o.bytes.foldl (fun s b => coreUpd s i (fun x => { x with mem := mwrite x.mem b.1 b.2 })) s
        let s := o.fields.foldl (fun s q => ownWrite s i (p.block + q.1) 2 q.2) s
        let s := o.loose.foldl (fun s k => let r := freeRes s; ownWrite r.2 i (p.block + k) 4 (r.1 % 2 ^ 24)) s
        fin (ownWrite s i p.block 2 o.status)

/-! ## The commands -/

/-- The bytes of a coded or raw block of `n` elements, and its elements; none is CODEC_FORMAT. A block that no slot of Table 3-2 holds is
malformed whatever its slot. -/
def pipeBlock (m : Mem) (a n : Nat) (high raw : Bool) : Nat × Option (List Nat) :=
  if raw then ((if high then 1 else 8) * n, some (rawElems m a (if high then 1 else 8) n))
  else
    let h := mnat m a 1
    let hdr := if high then 2 else 16
    (if h / 64 = 0 then hdr + 64 * (h % 64 + 1) else hdr, decodeBlock m a (if high then 256 else 2048) high n)
/-- PIPE_DECODE. -/
def pipeDecode (p : PipeCmd) (m : Mem) : Option PipeOut :=
  let n := p.count
  let lo := pipeBlock m (p.addr 2) n false (bitOf (p.w 1) 0)
  let hi := pipeBlock m (p.addr 4) n true (bitOf (p.w 1) 1)
  if n = 0 ∨ n > 512 ∨ ! p.reach (p.addr 2) (min lo.1 (if lo.2.isSome then lo.1 else 1))
    ∨ ! p.reach (p.addr 4) (min hi.1 (if hi.2.isSome then hi.1 else 1)) then none
  else match lo.2, hi.2 with
    | some l, some h =>
      if ! p.reach (p.addr 6) (9 * n) then none
      else some ⟨[(p.addr 6, ((List.range n).map (fun j => pack9 (joinLane (l.getD j 0) (h.getD j 0)))).flatten)], [], 0, []⟩
    | _, _ => some ⟨[], [], St.codecFormat, []⟩
/-- The lanes of a run of PACK9 bytes. -/
def pipeLanes (m : Mem) (a n : Nat) : List Lane := (List.range n).map (fun j => BitVec.ofNat 72 (mnat m (a + 9 * j) 9))
/-- PIPE_ENCODE: the coded block at DST and W, 0 for a run; or 0xFFFF, and no block, where it escapes at S. -/
def pipeEncode (p : PipeCmd) (m : Mem) : Option PipeOut :=
  let n := p.count
  let high := bitOf (p.w 1) 0
  let slot := 16 * fld (p.w 1) 15 4
  if n = 0 ∨ n > 512 ∨ ! p.reach (p.addr 2) (9 * n) then none
  else
    let xs := (pipeLanes m (p.addr 2) n).map (fun l => if high then laneHigh l else laneLow l)
    let form := chooseForm (if high then 8 else 64) xs
    if codedSize high form > slot then some ⟨[], [(11, 0xFFFF)], 0, []⟩
    else
      let bs := encodeBlock high xs
      if ! p.reach (p.addr 6) bs.length then none
      else some ⟨[(p.addr 6, bs)], [(11, match form with
        | .run _ => 0
        | .forr _ w => w)], 0, []⟩
/-- Rows of a run: their lanes. -/
def pipeRows (p : PipeCmd) (m : Mem) (a n : Nat) : List (List Lane) :=
  (List.range n).map (fun j => pipeLanes m (a + p.rowBytes * j) (p.keyw + p.pw))
/-- Is a row's key before another's, as unsigned order words, word 0 first (R140)? -/
def rowLt : Nat → List Lane → List Lane → Bool
  | k + 1, x :: xs, y :: ys => if x = y then rowLt k xs ys else decide (x.toNat < y.toNat)
  | _, _, _ => false
/-- Insert a row behind the rows it is not before. -/
def rowInsert (k : Nat) (r : List Lane) : List (List Lane) → List (List Lane)
  | [] => [r]
  | x :: xs => if rowLt k r x then r :: x :: xs else x :: rowInsert k r xs
def rowsBytes (rows : List (List Lane)) : List Byte := (rows.map (fun r => (r.map pack9).flatten)).flatten
/-- PIPE_SORT32. -/
def pipeSort (p : PipeCmd) (m : Mem) : Option PipeOut :=
  let n := p.count
  if n = 0 ∨ n > 32 ∨ ! p.reach (p.addr 2) (n * p.rowBytes) ∨ ! p.reach (p.addr 6) (n * p.rowBytes) then none
  else
    let rows := (pipeRows p m (p.addr 2) n).foldl (fun l r => rowInsert p.keyw r l) []
    some ⟨[(p.addr 6, rowsBytes rows)], [], 0, []⟩
/-- Merge two runs, `n` rows at most, A on ties: the rows, and how many came from A. -/
def mergeRows (k : Nat) : Nat → List (List Lane) → List (List Lane) → List (List Lane) × Nat
  | 0, _, _ => ([], 0)
  | _ + 1, [], [] => ([], 0)
  | n + 1, a :: as, [] => let r := mergeRows k n as []; (a :: r.1, r.2 + 1)
  | n + 1, [], b :: bs => let r := mergeRows k n [] bs; (b :: r.1, r.2)
  | n + 1, a :: as, b :: bs =>
    if rowLt k b a then let r := mergeRows k n (a :: as) bs; (b :: r.1, r.2)
    else let r := mergeRows k n as (b :: bs); (a :: r.1, r.2 + 1)
/-- PIPE_MERGE: rows are emitted, and the block moves on; an address that would fall between words is a free value. -/
def pipeMerge (p : PipeCmd) (m : Mem) : Option PipeOut :=
  let n := min p.count (p.w 9 + p.w 10)
  let na := min n (p.w 9)
  let nb := min n (p.w 10)
  if p.count = 0 ∨ p.count > 64 ∨ ! p.reach (p.addr 2) (na * p.rowBytes) ∨ ! p.reach (p.addr 4) (nb * p.rowBytes)
    ∨ ! p.reach (p.addr 6) (n * p.rowBytes) then none
  else
    let r := mergeRows p.keyw n (pipeRows p m (p.addr 2) na) (pipeRows p m (p.addr 4) nb)
    let up : Nat → Nat → List (Nat × Nat) := fun k rows =>
      let a := (p.addr k + rows * p.rowBytes) / 2 % 2 ^ 24
      if rows * p.rowBytes % 2 = 0 then [(k, a % 65536), (k + 1, a / 65536)] else []
    let odd : Nat → Nat → List Nat := fun k rows => if rows * p.rowBytes % 2 = 0 then [] else [k]
    some ⟨[(p.addr 6, rowsBytes r.1)],
      up 2 r.2 ++ up 4 (n - r.2) ++ up 6 n ++ [(9, p.w 9 - r.2), (10, p.w 10 - (n - r.2))], 0,
      odd 2 r.2 ++ odd 4 (n - r.2) ++ odd 6 n⟩
/-- PIPE_ESCPOP. -/
def pipeEscpop (p : PipeCmd) (m : Mem) : Option PipeOut :=
  if p.count > 127 ∨ ! p.reach (p.addr 2) 16 then none
  else
    let e := mnat m (p.addr 2) 16
    some ⟨[], [(11, popcount 128 (e % 2 ^ p.count) + b2n (bitOf e p.count) * 2 ^ 15)], 0, []⟩
def doPipeDecode (i : Nat) (s : State) : State := pipeEnd i 0 pipeDecode s
def doPipeEncode (i : Nat) (s : State) : State := pipeEnd i 1 pipeEncode s
def doPipeSort32 (i : Nat) (s : State) : State := pipeEnd i 2 pipeSort s
def doPipeMerge (i : Nat) (s : State) : State := pipeEnd i 3 pipeMerge s
def doPipeEscpop (i : Nat) (s : State) : State := pipeEnd i 4 pipeEscpop s

end Sys2Proof.Machine
end

