-- ==== Sys2Proof/Machine/ExecVector.lean ====
section
/-! DEFINITION. The meanings of the commands of spec/11_vector_extension.md. -/

namespace Sys2Proof.Machine
open Sys2Proof

/-- VARITH (R231). -/
def execVarith (core : Nat) (s : State) : Host.Outcome State Fault Refusal := .next (doVarith core s)
/-- VLOGIC (R230). -/
def execVlogic (core : Nat) (s : State) : Host.Outcome State Fault Refusal := .next (doVlogic core s)
/-- VCMP (R231). -/
def execVcmp (core : Nat) (s : State) : Host.Outcome State Fault Refusal := .next (doVcmp core s)
/-- VSCALE (R231). -/
def execVscale (core : Nat) (s : State) : Host.Outcome State Fault Refusal := .next (doVscale core s)
/-- VMULW (R232). -/
def execVmulw (core : Nat) (s : State) : Host.Outcome State Fault Refusal := .next (doVmulw core s)
/-- VDOT4 (R232). -/
def execVdot4 (core : Nat) (s : State) : Host.Outcome State Fault Refusal := .next (doVdot4 core s)
/-- VDOT2W (R232). -/
def execVdot2w (core : Nat) (s : State) : Host.Outcome State Fault Refusal := .next (doVdot2w core s)
/-- VDIV (R231). -/
def execVdiv (core stop : Nat) (s : State) : Host.Outcome State Fault Refusal := .next (doVdiv core stop s)
/-- VLD (R233). -/
def execVld (core : Nat) (s : State) : Host.Outcome State Fault Refusal := .next (doVld core s)
/-- VST (R233). -/
def execVst (core : Nat) (s : State) : Host.Outcome State Fault Refusal := .next (doVst core s)
/-- VLDFF (R234). -/
def execVldff (core : Nat) (s : State) : Host.Outcome State Fault Refusal := .next (doVldff core s)
/-- VGATHER (R233). -/
def execVgather (core : Nat) (s : State) : Host.Outcome State Fault Refusal := .next (doVgather core s)
/-- VGATHERFF (R234). -/
def execVgatherff (core : Nat) (s : State) : Host.Outcome State Fault Refusal := .next (doVgatherff core s)
/-- VSCATTER (R233). -/
def execVscatter (core : Nat) (s : State) : Host.Outcome State Fault Refusal := .next (doVscatter core s)
/-- VCOMPACT (R232). -/
def execVcompact (core : Nat) (s : State) : Host.Outcome State Fault Refusal := .next (doVcompact core s)
/-- VHASH (R235). -/
def execVhash (core : Nat) (s : State) : Host.Outcome State Fault Refusal := .next (doVhash core s)
/-- VMEMB (R236). -/
def execVmemb (core : Nat) (s : State) : Host.Outcome State Fault Refusal := .next (doVmemb core s)
/-- VSEL (R228). -/
def execVsel (core : Nat) (s : State) : Host.Outcome State Fault Refusal := .next (doVsel core s)
/-- VPRED (R230). -/
def execVpred (core : Nat) (s : State) : Host.Outcome State Fault Refusal := .next (doVpred core s)
/-- VXFER (R230). -/
def execVxfer (core : Nat) (s : State) : Host.Outcome State Fault Refusal := .next (doVxfer core s)
/-- VCONV (R231). -/
def execVconv (core : Nat) (s : State) : Host.Outcome State Fault Refusal := .next (doVconv core s)
/-- VCTL (R226). -/
def execVctl (core : Nat) (s : State) : Host.Outcome State Fault Refusal := .next (doVctl core s)
/-- VPIPE (R244). -/
def execVpipe (core : Nat) (s : State) : Host.Outcome State Fault Refusal := .next (doVpipe core s)
/-- VECTOR_CHAIN (R238). -/
def execVectorChain (core stop : Nat) (s : State) : Host.Outcome State Fault Refusal := .next (doVectorChain core stop s)
/-- PIPE_DECODE (R244). -/
def execPipeDecode (core : Nat) (s : State) : Host.Outcome State Fault Refusal := .next (doPipeDecode core s)
/-- PIPE_ENCODE (R244). -/
def execPipeEncode (core : Nat) (s : State) : Host.Outcome State Fault Refusal := .next (doPipeEncode core s)
/-- PIPE_SORT32 (R244). -/
def execPipeSort32 (core : Nat) (s : State) : Host.Outcome State Fault Refusal := .next (doPipeSort32 core s)
/-- PIPE_MERGE (R244). -/
def execPipeMerge (core : Nat) (s : State) : Host.Outcome State Fault Refusal := .next (doPipeMerge core s)
/-- PIPE_ESCPOP (R244). -/
def execPipeEscpop (core : Nat) (s : State) : Host.Outcome State Fault Refusal := .next (doPipeEscpop core s)

end Sys2Proof.Machine
end

