-- ==== Sys2Proof/Machine/Dispatch.lean ====
section
/-! DEFINITION. The meaning of each command, one arm per constructor of Instr. -/

namespace Sys2Proof.Machine
open Sys2Proof

/-- The command's effect on everything but the queue. -/
def exec (i : Instr) (s : State) : Host.Outcome State Fault Refusal :=
  match i with
  | .sqDb fn q v slots => Sys2Proof.Machine.execSqDb fn q v slots s
  | .cqDb fn q v => Sys2Proof.Machine.execCqDb fn q v s
  | .descriptorFetch => Sys2Proof.Machine.execDescriptorFetch s
  | .heldDescriptorInsert => Sys2Proof.Machine.execHeldDescriptorInsert s
  | .entryWaitGrant => Sys2Proof.Machine.execEntryWaitGrant s
  | .ikeyHeldInsert => Sys2Proof.Machine.execIkeyHeldInsert s
  | .ikeyExpiry => Sys2Proof.Machine.execIkeyExpiry s
  | .queueEnable p v => Sys2Proof.Machine.execQueueEnable p v s
  | .runPlan id => Sys2Proof.Machine.execRunPlan id s
  | .loadPlan id => Sys2Proof.Machine.execLoadPlan id s
  | .unloadPlan id => Sys2Proof.Machine.execUnloadPlan id s
  | .unloadComplete fn pid => Sys2Proof.Machine.execUnloadComplete fn pid s
  | .move id => Sys2Proof.Machine.execMove id s
  | .cipher id => Sys2Proof.Machine.execCipher id s
  | .digest id => Sys2Proof.Machine.execDigest id s
  | .codecEncode id => Sys2Proof.Machine.execCodecEncode id s
  | .codecDecode id => Sys2Proof.Machine.execCodecDecode id s
  | .camUpdate id => Sys2Proof.Machine.execCamUpdate id s
  | .camSearch id => Sys2Proof.Machine.execCamSearch id s
  | .ledgerRead id => Sys2Proof.Machine.execLedgerRead id s
  | .ledgerWrite id => Sys2Proof.Machine.execLedgerWrite id s
  | .ledgerAppend id => Sys2Proof.Machine.execLedgerAppend id s
  | .ledgerFlush id => Sys2Proof.Machine.execLedgerFlush id s
  | .ledgerTrim id => Sys2Proof.Machine.execLedgerTrim id s
  | .logRead id => Sys2Proof.Machine.execLogRead id s
  | .ledgerResume id => Sys2Proof.Machine.execLedgerResume id s
  | .tableAppend id => Sys2Proof.Machine.execTableAppend id s
  | .abort id => Sys2Proof.Machine.execAbort id s
  | .resumeQueue id => Sys2Proof.Machine.execResumeQueue id s
  | .stateDump id => Sys2Proof.Machine.execStateDump id s
  | .fnResize id => Sys2Proof.Machine.execFnResize id s
  | .resizeUnitMove u => Sys2Proof.Machine.execResizeUnitMove u s
  | .sanitise id => Sys2Proof.Machine.execSanitise id s
  | .format id => Sys2Proof.Machine.execFormat id s
  | .poolFormat id => Sys2Proof.Machine.execPoolFormat id s
  | .driveRebuild id => Sys2Proof.Machine.execDriveRebuild id s
  | .opProgressRecord gib => Sys2Proof.Machine.execOpProgressRecord gib s
  | .ledgerOpEnd => Sys2Proof.Machine.execLedgerOpEnd s
  | .spareReport id => Sys2Proof.Machine.execSpareReport id s
  | .modeRequest item => Sys2Proof.Machine.execModeRequest item s
  | .nop id => Sys2Proof.Machine.execNop id s
  | .runGrant => Sys2Proof.Machine.execRunGrant s
  | .scanBatch id k => Sys2Proof.Machine.execScanBatch id k s
  | .filterBatch id k pos => Sys2Proof.Machine.execFilterBatch id k pos s
  | .computeBatch id k pos => Sys2Proof.Machine.execComputeBatch id k pos s
  | .joinBuildBatch id k pos => Sys2Proof.Machine.execJoinBuildBatch id k pos s
  | .joinProbeBatch id k pos => Sys2Proof.Machine.execJoinProbeBatch id k pos s
  | .hashAggFold id k pos => Sys2Proof.Machine.execHashAggFold id k pos s
  | .hashAggMerge id k => Sys2Proof.Machine.execHashAggMerge id k s
  | .windowAggBatch id k pos => Sys2Proof.Machine.execWindowAggBatch id k pos s
  | .sortBatch id k pos => Sys2Proof.Machine.execSortBatch id k pos s
  | .topnBatch id k pos => Sys2Proof.Machine.execTopnBatch id k pos s
  | .mergeIntermediate id k => Sys2Proof.Machine.execMergeIntermediate id k s
  | .mergeFinal id k => Sys2Proof.Machine.execMergeFinal id k s
  | .exchangeSend id k pos => Sys2Proof.Machine.execExchangeSend id k pos s
  | .exchangeFragmentReceive id k pos sender => Sys2Proof.Machine.execExchangeFragmentReceive id k pos sender s
  | .outputBatch id k pos => Sys2Proof.Machine.execOutputBatch id k pos s
  | .checkpointTimer id k => Sys2Proof.Machine.execCheckpointTimer id k s
  | .checkpointComplete id k => Sys2Proof.Machine.execCheckpointComplete id k s
  | .commitPoint id => Sys2Proof.Machine.execCommitPoint id s
  | .msixCoalesceTimeout d => Sys2Proof.Machine.execMsixCoalesceTimeout d s
  | .clusterWakeComplete c => Sys2Proof.Machine.execClusterWakeComplete c s
  | .clockGatedWakeDone c => Sys2Proof.Machine.execClockGatedWakeDone c s
  | .clusterPowerGate c => Sys2Proof.Machine.execClusterPowerGate c s
  | .schedWinSnapshot p v => Sys2Proof.Machine.execSchedWinSnapshot p v s
  | .ingestFrame port f => Sys2Proof.Machine.execIngestFrame port f s
  | .replyCacheExpiry => Sys2Proof.Machine.execReplyCacheExpiry s
  | .layoutValidate p => Sys2Proof.Machine.execLayoutValidate p s
  | .layoutInvalidate p => Sys2Proof.Machine.execLayoutInvalidate p s
  | .layoutMemWrite p off bytes => Sys2Proof.Machine.execLayoutMemWrite p off bytes s
  | .gwFloorWrite p v => Sys2Proof.Machine.execGwFloorWrite p v s
  | .sysNop core => Sys2Proof.Machine.execSysNop core s
  | .wfe core => Sys2Proof.Machine.execWfe core s
  | .wfeWake core => Sys2Proof.Machine.execWfeWake core s
  | .sev core => Sys2Proof.Machine.execSev core s
  | .waitt core => Sys2Proof.Machine.execWaitt core s
  | .waittDone core => Sys2Proof.Machine.execWaittDone core s
  | .timerFire core => Sys2Proof.Machine.execTimerFire core s
  | .reti core => Sys2Proof.Machine.execReti core s
  | .trap core => Sys2Proof.Machine.execTrap core s
  | .fence core => Sys2Proof.Machine.execFence core s
  | .brk core => Sys2Proof.Machine.execBrk core s
  | .ret core => Sys2Proof.Machine.execRet core s
  | .movc core => Sys2Proof.Machine.execMovc core s
  | .alu core => Sys2Proof.Machine.execAlu core s
  | .alux core => Sys2Proof.Machine.execAlux core s
  | .alui core => Sys2Proof.Machine.execAlui core s
  | .aluq core => Sys2Proof.Machine.execAluq core s
  | .aop core => Sys2Proof.Machine.execAop core s
  | .addai core => Sys2Proof.Machine.execAddai core s
  | .lia core => Sys2Proof.Machine.execLia core s
  | .ld core => Sys2Proof.Machine.execLd core s
  | .st core => Sys2Proof.Machine.execSt core s
  | .ldm core => Sys2Proof.Machine.execLdm core s
  | .stm core => Sys2Proof.Machine.execStm core s
  | .acld core => Sys2Proof.Machine.execAcld core s
  | .acst core => Sys2Proof.Machine.execAcst core s
  | .acldn core => Sys2Proof.Machine.execAcldn core s
  | .acstn core => Sys2Proof.Machine.execAcstn core s
  | .acop core => Sys2Proof.Machine.execAcop core s
  | .acxfer core => Sys2Proof.Machine.execAcxfer core s
  | .brd core => Sys2Proof.Machine.execBrd core s
  | .bra core => Sys2Proof.Machine.execBra core s
  | .brac core => Sys2Proof.Machine.execBrac core s
  | .dbnz core => Sys2Proof.Machine.execDbnz core s
  | .jmp core => Sys2Proof.Machine.execJmp core s
  | .jmpr core => Sys2Proof.Machine.execJmpr core s
  | .call core => Sys2Proof.Machine.execCall core s
  | .retm core => Sys2Proof.Machine.execRetm core s
  | .pushm core => Sys2Proof.Machine.execPushm core s
  | .popm core => Sys2Proof.Machine.execPopm core s
  | .movs core => Sys2Proof.Machine.execMovs core s
  | .fills core => Sys2Proof.Machine.execFills core s
  | .cmps core => Sys2Proof.Machine.execCmps core s
  | .scans core => Sys2Proof.Machine.execScans core s
  | .illegalOpcode core => Sys2Proof.Machine.execIllegalOpcode core s
  | .interruptEntry core debug => Sys2Proof.Machine.execInterruptEntry core debug s
  | .windowLoadData core => Sys2Proof.Machine.execWindowLoadData core s
  | .varith core => Sys2Proof.Machine.execVarith core s
  | .vlogic core => Sys2Proof.Machine.execVlogic core s
  | .vcmp core => Sys2Proof.Machine.execVcmp core s
  | .vscale core => Sys2Proof.Machine.execVscale core s
  | .vmulw core => Sys2Proof.Machine.execVmulw core s
  | .vdot4 core => Sys2Proof.Machine.execVdot4 core s
  | .vdot2w core => Sys2Proof.Machine.execVdot2w core s
  | .vdiv core stop => Sys2Proof.Machine.execVdiv core stop s
  | .vld core => Sys2Proof.Machine.execVld core s
  | .vst core => Sys2Proof.Machine.execVst core s
  | .vldff core => Sys2Proof.Machine.execVldff core s
  | .vgather core => Sys2Proof.Machine.execVgather core s
  | .vgatherff core => Sys2Proof.Machine.execVgatherff core s
  | .vscatter core => Sys2Proof.Machine.execVscatter core s
  | .vcompact core => Sys2Proof.Machine.execVcompact core s
  | .vhash core => Sys2Proof.Machine.execVhash core s
  | .vmemb core => Sys2Proof.Machine.execVmemb core s
  | .vsel core => Sys2Proof.Machine.execVsel core s
  | .vpred core => Sys2Proof.Machine.execVpred core s
  | .vxfer core => Sys2Proof.Machine.execVxfer core s
  | .vconv core => Sys2Proof.Machine.execVconv core s
  | .vctl core => Sys2Proof.Machine.execVctl core s
  | .vpipe core => Sys2Proof.Machine.execVpipe core s
  | .vectorChain core stop => Sys2Proof.Machine.execVectorChain core stop s
  | .pipeDecode core => Sys2Proof.Machine.execPipeDecode core s
  | .pipeEncode core => Sys2Proof.Machine.execPipeEncode core s
  | .pipeSort32 core => Sys2Proof.Machine.execPipeSort32 core s
  | .pipeMerge core => Sys2Proof.Machine.execPipeMerge core s
  | .pipeEscpop core => Sys2Proof.Machine.execPipeEscpop core s
  | .cacheAccess init fn addr n bytes stream err => Sys2Proof.Machine.execCacheAccess init fn addr n bytes stream err s
  | .wayRetireDone slice w bad => Sys2Proof.Machine.execWayRetireDone slice w bad s
  | .scClean p => Sys2Proof.Machine.execScClean p s
  | .scCleanInval p => Sys2Proof.Machine.execScCleanInval p s
  | .scLockLoad p => Sys2Proof.Machine.execScLockLoad p s
  | .scOpDone => Sys2Proof.Machine.execScOpDone s
  | .scLockWrite p v => Sys2Proof.Machine.execScLockWrite p v s
  | .cacheDisable p => Sys2Proof.Machine.execCacheDisable p s
  | .cacheDisableDone => Sys2Proof.Machine.execCacheDisableDone s
  | .cacheEnable p => Sys2Proof.Machine.execCacheEnable p s
  | .wayPowerDown p v => Sys2Proof.Machine.execWayPowerDown p v s
  | .wayPowerOffDone w => Sys2Proof.Machine.execWayPowerOffDone w s
  | .wayPowerUp p v => Sys2Proof.Machine.execWayPowerUp p v s
  | .scratchConvert p q v => Sys2Proof.Machine.execScratchConvert p q v s
  | .scratchReady q => Sys2Proof.Machine.execScratchReady q s
  | .scratchRelease p q v => Sys2Proof.Machine.execScratchRelease p q v s
  | .dramRead l d0 d1 d2 pin => Sys2Proof.Machine.execDramRead l d0 d1 d2 pin s
  | .rowRepairDone sc bank => Sys2Proof.Machine.execRowRepairDone sc bank s
  | .dramWrite l bytes bad => Sys2Proof.Machine.execDramWrite l bytes bad s
  | .writeBatchDrain sc n => Sys2Proof.Machine.execWriteBatchDrain sc n s
  | .refresh sc => Sys2Proof.Machine.execRefresh sc s
  | .refreshRatePoll rates => Sys2Proof.Machine.execRefreshRatePoll rates s
  | .patrolScrubRead sc d0 d1 d2 pin => Sys2Proof.Machine.execPatrolScrubRead sc d0 d1 d2 pin s
  | .selfRefreshEntry sc => Sys2Proof.Machine.execSelfRefreshEntry sc s
  | .delayApply p v => Sys2Proof.Machine.execDelayApply p v s
  | .delayCopy ch => Sys2Proof.Machine.execDelayCopy ch s
  | .delayShadowWrite p bin v => Sys2Proof.Machine.execDelayShadowWrite p bin v s
  | .pprSoft p v => Sys2Proof.Machine.execPprSoft p v s
  | .pprHard p v => Sys2Proof.Machine.execPprHard p v s
  | .dmcCtlWrite p v => Sys2Proof.Machine.execDmcCtlWrite p v s
  | .dmaChannelGrant => Sys2Proof.Machine.execDmaChannelGrant s
  | .dmaSegmentEnd c hostErr => Sys2Proof.Machine.execDmaSegmentEnd c hostErr s
  | .vfEnable n => Sys2Proof.Machine.execVfEnable n s
  | .vfEnableClear => Sys2Proof.Machine.execVfEnableClear s
  | .ledgerDataWriteDone u bad => Sys2Proof.Machine.execLedgerDataWriteDone u bad s
  | .commitSectorDone u bad => Sys2Proof.Machine.execCommitSectorDone u bad s
  | .snapshotDone => Sys2Proof.Machine.execSnapshotDone s
  | .ledgerReadDone k bad => Sys2Proof.Machine.execLedgerReadDone k bad s
  | .appendGroupClose vol => Sys2Proof.Machine.execAppendGroupClose vol s
  | .peerRspTimeout u => Sys2Proof.Machine.execPeerRspTimeout u s
  | .xferGrantTimeout k => Sys2Proof.Machine.execXferGrantTimeout k s
  | .payloadFlit n f corr uncorr => Sys2Proof.Machine.execPayloadFlit n f corr uncorr s
  | .idleFlit n f corr uncorr => Sys2Proof.Machine.execIdleFlit n f corr uncorr s
  | .retryReq n f corr uncorr => Sys2Proof.Machine.execRetryReq n f corr uncorr s
  | .retryReqRepeat n => Sys2Proof.Machine.execRetryReqRepeat n s
  | .swapReq n f corr uncorr => Sys2Proof.Machine.execSwapReq n f corr uncorr s
  | .laneFault n lane => Sys2Proof.Machine.execLaneFault n lane s
  | .trainFlit n devser nextF rtt => Sys2Proof.Machine.execTrainFlit n devser nextF rtt s
  | .linkSilent n => Sys2Proof.Machine.execLinkSilent n s
  | .retrainDelay n => Sys2Proof.Machine.execRetrainDelay n s
  | .bridyCmd n => Sys2Proof.Machine.execBridyCmd n s
  | .xferRdy n => Sys2Proof.Machine.execXferRdy n s
  | .dataPacket n => Sys2Proof.Machine.execDataPacket n s
  | .rspPacket n => Sys2Proof.Machine.execRspPacket n s
  | .msgPacket n => Sys2Proof.Machine.execMsgPacket n s
  | .mgmtPacket n => Sys2Proof.Machine.execMgmtPacket n s
  | .bridyPortEnable p n v => Sys2Proof.Machine.execBridyPortEnable p n v s
  | .bridyPortDisable p n v => Sys2Proof.Machine.execBridyPortDisable p n v s
  | .txEpochChange p n v => Sys2Proof.Machine.execTxEpochChange p n v s
  | .keyLoad p v => Sys2Proof.Machine.execKeyLoad p v s
  | .keyErase p v => Sys2Proof.Machine.execKeyErase p v s
  | .stagingZeroise p v => Sys2Proof.Machine.execStagingZeroise p v s
  | .keyEraseDone k => Sys2Proof.Machine.execKeyEraseDone k s
  | .cipherMessageDone a pair => Sys2Proof.Machine.execCipherMessageDone a pair s
  | .digestMessageDone a pair => Sys2Proof.Machine.execDigestMessageDone a pair s
  | .camWindowWrite init fn addr bytes => Sys2Proof.Machine.execCamWindowWrite init fn addr bytes s
  | .camLookup fn key => Sys2Proof.Machine.execCamLookup fn key s
  | .camScrub ent err => Sys2Proof.Machine.execCamScrub ent err s
  | .camSpareLoadDone => Sys2Proof.Machine.execCamSpareLoadDone s
  | .status src data => Sys2Proof.Machine.execStatus src data s
  | .attest src data => Sys2Proof.Machine.execAttest src data s
  | .certs src data => Sys2Proof.Machine.execCerts src data s
  | .fwWrite src data => Sys2Proof.Machine.execFwWrite src data s
  | .fwCommit src data faults => Sys2Proof.Machine.execFwCommit src data faults s
  | .fwAccept src data => Sys2Proof.Machine.execFwAccept src data s
  | .debugOpen src data fault => Sys2Proof.Machine.execDebugOpen src data fault s
  | .porAssert => Sys2Proof.Machine.execPorAssert s
  | .porRelease shadowBad faults sens => Sys2Proof.Machine.execPorRelease shadowBad faults sens s
  | .driveReady found => Sys2Proof.Machine.execDriveReady found s
  | .driveReadyTimeout found => Sys2Proof.Machine.execDriveReadyTimeout found s
  | .dramFillDone => Sys2Proof.Machine.execDramFillDone s
  | .modeAutoMove => Sys2Proof.Machine.execModeAutoMove s
  | .modeReqResume p => Sys2Proof.Machine.execModeReqResume p s
  | .modeReqDrain p stop => Sys2Proof.Machine.execModeReqDrain p stop s
  | .modeReqRetain p => Sys2Proof.Machine.execModeReqRetain p s
  | .modeReqMaintain p => Sys2Proof.Machine.execModeReqMaintain p s
  | .modeReqOffReady p => Sys2Proof.Machine.execModeReqOffReady p s
  | .drainComplete => Sys2Proof.Machine.execDrainComplete s
  | .drainTimeout => Sys2Proof.Machine.execDrainTimeout s
  | .wakePin faults sens => Sys2Proof.Machine.execWakePin faults sens s
  | .wakeTimer faults sens => Sys2Proof.Machine.execWakeTimer faults sens s
  | .wakeSmbus faults sens => Sys2Proof.Machine.execWakeSmbus faults sens s
  | .perstDeassert faults sens => Sys2Proof.Machine.execPerstDeassert faults sens s
  | .perstAssert => Sys2Proof.Machine.execPerstAssert s
  | .thermalSample temps => Sys2Proof.Machine.execThermalSample temps s
  | .powerEstimate total perCl => Sys2Proof.Machine.execPowerEstimate total perCl s
  | .devtimeWrite => Sys2Proof.Machine.execDevtimeWrite s
  | .aonPostedWrite p off v => Sys2Proof.Machine.execAonPostedWrite p off v s
  | .detectedError cls unit form => Sys2Proof.Machine.execDetectedError cls unit form s
  | .spareTileRemap => Sys2Proof.Machine.execSpareTileRemap s
  | .tileBistDone p pass => Sys2Proof.Machine.execTileBistDone p pass s
  | .recoverEnd => Sys2Proof.Machine.execRecoverEnd s
  | .cfgParityScrub off inst mismatch => Sys2Proof.Machine.execCfgParityScrub off inst mismatch s
  | .cfgParityRewrite p off v => Sys2Proof.Machine.execCfgParityRewrite p off v s
  | .registerWrite p a n v => Sys2Proof.Machine.execRegisterWrite p a n v s
  | .aclkEdge => Sys2Proof.Machine.execAclkEdge s
  | .swapReqRepeat n => Sys2Proof.Machine.execSwapReqRepeat n s
  | .driveStopsAnswering d => Sys2Proof.Machine.execDriveStopsAnswering d s

end Sys2Proof.Machine
end

