-- ==== Sys2Proof/Safety.lean ====
section
/-! DEFINITION. What claims call a sound state, a sound step, and an instruction that issues. -/

namespace Sys2Proof.Safety
open Sys2Proof Sys2Proof.Machine

/-- The addressed memories are in their canonical form: DRAM and scratch, host memory, the MSI-X table, the CAM and its copy, the
retention SRAM, the mailbox page, and the memories of every core, of every layout slot, of every drive and of every plan's image. -/
def MemOk (s : State) : Prop :=
  memWf s.dram = true ∧ memWf s.host = true ∧ memWf s.msix.table = true ∧ memWf s.cam.mem = true ∧ memWf s.cam.copy = true
    ∧ memWf s.pwr.retention = true ∧ memWf s.sec.mbox = true
    ∧ (∀ p ∈ s.cores, memWf p.2.mem = true) ∧ (∀ p ∈ s.ing.layouts, memWf p.2.mem = true)
    ∧ (∀ p ∈ s.led.drives, memWf p.2.mem = true) ∧ (∀ p ∈ s.plans.plans, memWf p.2.image = true)

/-- An outcome that is a next state: the block neither faults nor refuses. -/
def Goes (o : Host.Outcome State Fault Refusal) : Prop := ∃ t, o = .next t

/-- Core `n` has power, executes, has no open chain of vector links, and the words at its PC are one instruction's (R193, R198). -/
def Issues (s : State) (n : Nat) (c : Core) (row : SRow) (w1 w2 : Nat) : Prop :=
  tget s.cores n = some c ∧ c.run = .run ∧ c.vec.links = [] ∧ fetchAt n c c.pc.toNat = .ins (some row) w1 w2

/-- The same for a core that stands in another state at its instruction: WFE, WAITT, or a load that stalls it. -/
def Stands (s : State) (n : Nat) (c : Core) (st : CRun) (row : SRow) (w1 w2 : Nat) : Prop :=
  tget s.cores n = some c ∧ c.run = st ∧ fetchAt n c c.pc.toNat = .ins (some row) w1 w2

/-- The words from `wa` on lie in the core's data memory and in its data bounds (R193). -/
def DataWords (n : Nat) (c : Core) (wa k : Nat) : Prop := wa + k ≤ dataEnd n ∧ ∀ j < k, dataOk n c (wa + j) = true

/-- Is `m'` a memory `m` after words `ws` were stored at word `wa`: those words read back, every other byte reads as before, and the
canonical form is kept? -/
def StoredWords (m m' : Mem) (wa : Nat) (ws : List Nat) : Prop :=
  (∀ j < ws.length, mnat m' (2 * (wa + j)) 2 = ws.getD j 0 % 65536)
  ∧ (∀ x, x < 2 * wa ∨ 2 * (wa + ws.length) ≤ x → mread m' x = mread m x)
  ∧ (memWf m = true → memWf m' = true)

/-- A write of register `off` on path `p` reaches it: it is not denied, the register is open in this mode, and no mismatching instance is
rewritten by it (R476, R479, R482). -/
def Reaches (s : State) (p : Path) (off : Nat) : Prop :=
  denyClass s p (some (.reg off)) = none ∧ rowOpen s p off = true
    ∧ ∀ i, regInst (dropHalves s p) p (pathFn p) off = some i → instBad (dropHalves s p) off i = false

/-- The bytes of a completion entry in its ring (R296). -/
def entryBytes (e : CqEntry) : List Byte := natLE 8 e.w0 ++ natLE 8 e.w1 ++ natLE 8 e.w2 ++ natLE 8 e.w3

/-- A request `r` of command `cmd` stands at the front of Sill's queue in `u`: it was waiting already in `s`, or it comes over SMBus with
the command (R427). In Lockdown packets of BRIDY are not served (R432). -/
def Asked (s : State) (cmd src : Nat) (data : List Byte) (u : State) (r : SReq) : Prop :=
  sillServes s = true ∧ (modeOf s = Mode.lockdown → src ≤ 1) ∧ src ≤ 3 ∧ r.src = src ∧ r.cmd = cmd ∧ u.sec.reqs.head? = some r
    ∧ ((src ≠ 1 ∧ u = s)
      ∨ (src = 1 ∧ s.sec.reqs = [] ∧ r = ⟨1, cmd, data⟩ ∧ u = { s with sec := { s.sec with reqs := [r] } }))

/-- The register that a command writes on an access path, for the commands whose row is the write of one register. -/
def rowTarget : Instr → Option (Path × Nat)
  | .queueEnable p _ => some (p, Reg.QM_Q_CTL)
  | .schedWinSnapshot p _ => some (p, Reg.SCHED_WIN_SEL)
  | .layoutValidate p => some (p, Reg.ING_LAYOUT_CTL)
  | .layoutInvalidate p => some (p, Reg.ING_LAYOUT_CTL)
  | .gwFloorWrite p _ => some (p, Reg.ING_GW_FLOOR)
  | .scClean p => some (p, Reg.SC_OP)
  | .scCleanInval p => some (p, Reg.SC_OP)
  | .scLockLoad p => some (p, Reg.SC_OP)
  | .scLockWrite p _ => some (p, Reg.SC_LOCK)
  | .cacheDisable p => some (p, Reg.SC_CTL)
  | .cacheEnable p => some (p, Reg.SC_CTL)
  | .wayPowerDown p _ => some (p, Reg.SC_PWR)
  | .wayPowerUp p _ => some (p, Reg.SC_PWR)
  | .scratchConvert p q _ => some (p, slotReg q)
  | .scratchRelease p q _ => some (p, slotReg q)
  | .delayApply p _ => some (p, Reg.DMC_DLY_APPLY)
  | .delayShadowWrite p bin _ => some (p, if bin then Reg.DMC_DLY_BIN else Reg.DMC_DLY_VAL)
  | .pprSoft p _ => some (p, Reg.DMC_PPR_CMD)
  | .pprHard p _ => some (p, Reg.DMC_PPR_CMD)
  | .dmcCtlWrite p _ => some (p, Reg.DMC_CTL)
  | .bridyPortEnable p n _ => some (p, bryReg Reg.BRY_PORT0_CTL n)
  | .bridyPortDisable p n _ => some (p, bryReg Reg.BRY_PORT0_CTL n)
  | .txEpochChange p n _ => some (p, bryReg Reg.BRY_PORT0_KEY n)
  | .keyLoad p _ => some (p, Reg.CIPH_KEY_CMD)
  | .keyErase p _ => some (p, Reg.CIPH_KEY_CMD)
  | .stagingZeroise p _ => some (p, Reg.CIPH_KEY_CMD)
  | _ => none

end Sys2Proof.Safety
end

