-- ==== Sys2Proof/Certificates/Slice0/Obligations.lean ====
section
/-! DEFINITION. The statements for the provers. -/

open Sys2Proof Sys2Proof.Machine Sys2Proof.Safety

/-! ## Sequencer instructions (chapter 10) -/

/-- Register instructions complete with the result of Table 10-9 in their destination, the PC after them, and nothing else changed
(R199, Tables 10-7 and 10-9): the next state is the old one with only that core replaced.
ACOP writes its result, or raises OVERFLOW out of the range of ADDT and SUBT with ACd unchanged (R204).
It states that exec answers a next state, under hypotheses on the state and the operands alone, for: sysNop, alu, alux, alui, aluq, aop,
addai, lia, acop. -/
def Obligations.RegisterInstructionsComplete : Prop :=
  (
  ∀ (s : State) (n : Nat) (c : Core) (w1 w2 : Nat),
    (Issues s n c .nop w1 w2 → exec (.sysNop n) s = .next (setCore s n (pcAdd c 1)))
    ∧ (Issues s n c .alu w1 w2 → exec (.alu n) s = .next (setCore s n
        (setD (pcAdd c 1) (fld w1 5 3) (aluFn (fld w1 9 6) (dbv c (fld w1 5 3)) (dbv c (fld w1 2 0))).toNat)))
    ∧ (Issues s n c .alux w1 w2 → exec (.alux n) s = .next (setCore s n
        (setD (pcAdd c 1) (fld w1 5 3) (aluxFn (fld w1 9 6) (dbv c (fld w1 5 3)) (dbv c (fld w1 2 0))).toNat)))
    ∧ (Issues s n c .alui w1 w2 → exec (.alui n) s = .next (setCore s n
        (setD (pcAdd c 2) (fld w1 5 3) (aluFn (fld w1 9 6) (dbv c (fld w1 5 3)) (BitVec.ofNat 16 w2)).toNat)))
    ∧ (Issues s n c .aluq w1 w2 → exec (.aluq n) s = .next (setCore s n
        (setD (pcAdd c 1) (fld w1 7 5) (aluqFn (fld w1 9 8) (dbv c (fld w1 7 5)) (fld w1 4 0)).toNat)))
    ∧ (Issues s n c .aop w1 w2 → exec (.aop n) s = .next (setCore s n (
        let d := fld w1 5 3
        let r := fld w1 2 0
        let x := pcAdd c 1
        match fld w1 9 6 with
        | 0 => setA x d (areg c r)
        | 1 => setA x d (areg c d + areg c r)
        | 2 => setA x d (addrAdd (areg c d) (-(areg c r : Int)))
        | 3 => setA x d (addrAdd (areg c d) (sgn 16 (dreg c r)))
        | 4 => setA x d (areg c d + dreg c r)
        | 5 => setA x d (dreg c r)
        | 6 => setD x d (areg c r)
        | _ => setD x d (areg c r / 65536))))
    ∧ (Issues s n c .addai w1 w2 → exec (.addai n) s = .next (setCore s n
        (setA (pcAdd c 2) (fld w1 9 7) (addrAdd (areg c (fld w1 6 4)) (sgn 16 w2)))))
    ∧ (Issues s n c .lia w1 w2 → exec (.lia n) s = .next (setCore s n
        (setA (pcAdd c 2) (fld w1 9 7) (fld w1 10 10 * 2 ^ 23 + fld w1 6 0 * 2 ^ 16 + w2)))))
  ∧
  (
  ∀ (s : State) (n : Nat) (c : Core) (w1 w2 : Nat), Issues s n c .acop w1 w2 →
    let d := fld w1 4 3
    let r := fld w1 2 0
    let b := if bitOf w1 5 then BitVec.ofInt 72 (sgn 16 (dreg c r)) else acreg c r
    (∀ v, acopFn (fld w1 9 6) (acreg c d) b (dreg c r) = some v → exec (.acop n) s = .next (setCore s n (setAC (pcAdd c 1) d v)))
    ∧ (acopFn (fld w1 9 6) (acreg c d) b (dreg c r) = none → c.exl = false →
        ∃ t, exec (.acop n) s = .next t ∧ (getCore t n).ac = c.ac ∧ (getCore t n).d = c.d ∧ (getCore t n).a = c.a
          ∧ (getCore t n).epc = c.pc ∧ (getCore t n).ecause = BitVec.ofNat 16 Exc.overflow))

/-- ACGET and ACPUT (R206): word `w` of the accumulator moves to or from Dk, ACPUT of word 4 takes the low byte, and the words 5 to 7 are
no instruction.
It states that exec answers a next state, under hypotheses on the state and the operands alone, for: acxfer. -/
def Obligations.AcxferMovesOneWord : Prop :=
  (∀ (s : State) (n : Nat) (c : Core) (w1 w2 : Nat), Issues s n c .acxfer w1 w2 →
    let w := fld w1 8 6
    let k := fld w1 5 4
    let r := fld w1 2 0
    exec (.acxfer n) s = .next (setCore s n (
      if bitOf w1 9 then
        setAC (pcAdd c 1) k (if w < 4 then BitVec.ofNat 72 (setFld (acreg c k).toNat (16 * w + 15) (16 * w) (dreg c r))
          else BitVec.ofNat 72 (setFld (acreg c k).toNat 71 64 (dreg c r % 256)))
      else
        setD (pcAdd c 1) r (if w < 4 then fld (acreg c k).toNat (16 * w + 15) (16 * w)
          else fld (acreg c k).toNat 71 64 + (if (acreg c k).msb then 0xFF00 else 0)))))
  ∧ ∀ kind w1 w2, opOf w1 = 0x15 → 5 ≤ fld w1 8 6 → instrRow kind w1 w2 = none

/-- Branches (R207): the conditions, the target, DBNZ's displacement, and what is reserved.
It states that exec answers a next state, under hypotheses on the state and the operands alone, for: brd, bra, brac, dbnz. -/
def Obligations.BranchesFollowTheirConditions : Prop :=
  (∀ n a b, condHolds 0 n a b = decide (a = b) ∧ condHolds 1 n a b = decide (a ≠ b)
    ∧ condHolds 2 n a b = decide (sgn n a < sgn n b) ∧ condHolds 3 n a b = decide (sgn n a ≥ sgn n b)
    ∧ condHolds 4 n a b = decide (a < b) ∧ condHolds 5 n a b = decide (a ≥ b))
  ∧ (∀ kind w1 w2, opOf w1 = 0x16 ∨ opOf w1 = 0x17 ∨ opOf w1 = 0x18 →
      (6 ≤ fld w1 9 7 ∨ (bitOf w1 6 ∧ fld w1 (if opOf w1 = 0x18 then 1 else 2) 0 ≠ 0)) → instrRow kind w1 w2 = none)
  ∧ ∀ (s : State) (n : Nat) (c : Core) (w1 w2 : Nat),
    let target := BitVec.ofNat 24 (addrAdd (wadd c.pc.toNat 2) (sgn 16 w2))
    let next := BitVec.ofNat 24 (c.pc.toNat + 2)
    let z := bitOf w1 6
    (Issues s n c .brd w1 w2 → exec (.brd n) s = .next (setCore s n { c with
      pc := if condHolds (fld w1 9 7) 16 (dreg c (fld w1 5 3)) (if z then 0 else dreg c (fld w1 2 0)) then target else next }))
    ∧ (Issues s n c .bra w1 w2 → exec (.bra n) s = .next (setCore s n { c with
      pc := if condHolds (fld w1 9 7) 24 (areg c (fld w1 5 3)) (if z then 0 else areg c (fld w1 2 0)) then target else next }))
    ∧ (Issues s n c .brac w1 w2 → exec (.brac n) s = .next (setCore s n { c with
      pc := if condHolds (fld w1 9 7) 72 (acreg c (fld w1 3 2)).toNat (if z then 0 else (acreg c (fld w1 1 0)).toNat)
        then target else next }))
    ∧ (Issues s n c .dbnz w1 w2 → exec (.dbnz n) s = .next (setCore s n
        (let v := (dreg c (fld w1 2 0) + 65535) % 65536
         { setD c (fld w1 2 0) v with pc := if v ≠ 0 then target else next })))

/-- JMP and JMPR set the PC and change nothing else (Table 10-7).
WFE, WAITT, FENCE, RETI and MOVC complete where their conditions hold (R197, R211, R213, R214, R219); the waits that WFE_WAKE and
WAITT_DONE end, and TIMER_FIRE.
SEV (R212): it sets EVPEND.SEV on the core at a position of its group, or on every other core of it; on the Sill core, and for a
position outside the group, it raises ILLEGAL.
It states that exec answers a next state, under hypotheses on the state and the operands alone, for: wfe, wfeWake, sev, waitt, waittDone,
timerFire, reti, fence, movc, jmp, jmpr. -/
def Obligations.SystemInstructionsComplete : Prop :=
  (
  ∀ (s : State) (n : Nat) (c : Core) (w1 w2 : Nat),
    (Issues s n c .jmp w1 w2 → exec (.jmp n) s = .next (setCore s n { c with pc := BitVec.ofNat 24 (fld w1 7 0 * 2 ^ 16 + w2) }))
    ∧ (Issues s n c .jmpr w1 w2 → exec (.jmpr n) s = .next (setCore s n { c with pc := BitVec.ofNat 24 (areg c (fld w1 2 0)) })))
  ∧
  (
  ∀ (s : State) (n : Nat) (c : Core) (w1 w2 : Nat),
    let ev := c.evpend &&& c.emask
    let woken := setD { pcAdd c 1 with run := .run, evpend := c.evpend &&& ~~~ c.emask } (fld w1 2 0) ev.toNat
    (Issues s n c .wfe w1 w2 → ev ≠ 0 → exec (.wfe n) s = .next (setCore s n woken))
    ∧ (Issues s n c .wfe w1 w2 → ev = 0 → exec (.wfe n) s = .next (setCore s n { c with run := .wfe }))
    ∧ (Stands s n c .wfe .wfe w1 w2 → ev ≠ 0 → exec (.wfeWake n) s = .next (setCore s n woken))
    ∧ (Issues s n c .waitt w1 w2 → reached s (waitTarget c) → exec (.waitt n) s = .next (setCore s n (pcAdd c 1)))
    ∧ (Issues s n c .waitt w1 w2 → ¬ reached s (waitTarget c) → exec (.waitt n) s = .next (setCore s n { c with run := .waitt }))
    ∧ (Stands s n c .waitt .waitt w1 w2 → reached s (waitTarget c) →
        exec (.waittDone n) s = .next (setCore s n { pcAdd c 1 with run := .run }))
    ∧ (∀ t, tget s.cores n = some c → c.timer = some t → reached s t.toNat →
        exec (.timerFire n) s = .next (setCore s n { c with timer := none, evpend := c.evpend ||| 4 }))
    ∧ (Issues s n c .fence w1 w2 → (bitOf w1 1 → c.vec.pipes = []) → exec (.fence n) s = .next (setCore s n (pcAdd c 1)))
    ∧ (Issues s n c .reti w1 w2 → c.k = true → exec (.reti n) s = .next (setCore s n
        { c with pc := c.epc, k := bitOf c.esr.toNat 15, ie := bitOf c.esr.toNat 14, exl := bitOf c.esr.toNat 13 }))
    ∧ (Issues s n c .movc w1 w2 → (c.k = true ∨ (kernelReg (fld w1 8 4) = false ∧ (bitOf w1 9 → fld w1 8 4 ≠ 0))) →
        exec (.movc n) s = .next (setCore s n (
          if bitOf w1 9 then
            cregWrite s (pcAdd c 1) (fld w1 8 4) (if bitOf w1 3 then areg c (fld w1 2 0) else dreg c (fld w1 2 0))
          else
            let x := if fld w1 8 4 = 15 then { pcAdd c 1 with timeHi := BitVec.ofNat 32 (timeCnt s / 2 ^ 16) } else pcAdd c 1
            if bitOf w1 3 then setA x (fld w1 2 0) (cregRead s n c (fld w1 8 4))
            else setD x (fld w1 2 0) (cregRead s n c (fld w1 8 4))))))
  ∧
  (
  ∀ (s : State) (n : Nat) (c : Core) (w1 w2 : Nat), Issues s n c .sev w1 w2 →
    (∀ j e, coreKind n ≠ 2 → bitOf w1 5 = false → sevAt s n (fld w1 3 0) = some j → tget s.cores j = some e →
      ∃ t, exec (.sev n) s = .next t ∧ (getCore t j).evpend = e.evpend ||| 8 ∧ (getCore t n).pc = BitVec.ofNat 24 (c.pc.toNat + 1)
        ∧ ∀ k, k ≠ j → k ≠ n → tget t.cores k = tget s.cores k)
    ∧ (coreKind n ≠ 2 → bitOf w1 5 = true →
      ∃ t, exec (.sev n) s = .next t
        ∧ (∀ j e, j ∈ sevGroup s n → j ≠ n → tget s.cores j = some e → (getCore t j).evpend = e.evpend ||| 8)
        ∧ (getCore t n).evpend = c.evpend)
    ∧ (coreKind n = 2 ∨ (bitOf w1 5 = false ∧ sevAt s n (fld w1 3 0) = none) → c.exl = false →
      ∃ t, exec (.sev n) s = .next t ∧ (getCore t n).ecause = BitVec.ofNat 16 Exc.illegal ∧ (getCore t n).epc = c.pc))

/-- TRAP, BREAK, ILLEGAL_OPCODE and an interrupt take their entry (R217 to R219): ESR, EPC and ECAUSE are written, K = 1, IE = 0, EXL = 1,
the PC is EBASE + 8 × code, and D, A and AC registers and memory stand.
It states that exec answers a next state, under hypotheses on the state and the operands alone, for: trap, brk, illegalOpcode,
interruptEntry. -/
def Obligations.ExceptionEntrySavesAndVectors : Prop :=
  ∀ (s : State) (n : Nat) (c : Core) (w1 w2 : Nat),
    let entry := fun (t : State) (epc code svc : Nat) =>
      let x := getCore t n
      x.esr = srOf c ∧ x.epc = BitVec.ofNat 24 epc ∧ x.ecause = BitVec.ofNat 16 (svc * 256 + code) ∧ x.k = true ∧ x.ie = false
        ∧ x.exl = true ∧ x.pc = BitVec.ofNat 24 (c.ebase.toNat + 8 * code) ∧ x.run = .run
        ∧ x.d = c.d ∧ x.a = c.a ∧ x.ac = c.ac ∧ x.mem = c.mem ∧ x.vec.v = c.vec.v ∧ ∀ k, k ≠ n → getCore t k = getCore s k
    (Issues s n c .trap w1 w2 → c.exl = false → ∃ t, exec (.trap n) s = .next t ∧ entry t (wadd c.pc.toNat 1) Exc.trap (fld w1 5 0))
    ∧ (Issues s n c .brk w1 w2 → c.exl = false → ∃ t, exec (.brk n) s = .next t ∧ entry t c.pc.toNat Exc.brk 0)
    ∧ (tget s.cores n = some c → c.run = .run → c.vec.links = [] → fetchAt n c c.pc.toNat = .ins none w1 w2 → c.exl = false →
        ∃ t, exec (.illegalOpcode n) s = .next t ∧ entry t c.pc.toNat Exc.illegal 0)
    ∧ (∀ code, tget s.cores n = some c → c.run = .run ∨ c.run = .wfe ∨ c.run = .waitt → c.ie = true → c.vec.links = [] →
        irqCode c = some code → ∃ t, exec (.interruptEntry n false) s = .next t ∧ entry t c.pc.toNat code 0)

/-- LD, LDM, ACLD and ACLDN load words of data memory that the bounds allow into their registers, after the side effect of the addressing
mode, and change nothing else (R200 to R203).
A one-word load through the window onto populated DRAM stalls, and WINDOW_LOAD_DATA completes it with the word (R194).
It states that exec answers a next state, under hypotheses on the state and the operands alone, for: ld, ldm, acld, acldn, windowLoadData. -/
def Obligations.LoadsReadDataMemory : Prop :=
  (
  ∀ (s : State) (n : Nat) (c : Core) (w1 w2 : Nat),
    (Issues s n c .ld w1 w2 → DataWords n c (eaOf c w1 w2 (regWords w1)).1 (regWords w1) →
      exec (.ld n) s = .next (setCore s n (
        let e := eaOf c w1 w2 (regWords w1)
        let x := e.2 (pcAdd c (modeWords w1))
        if bitOf w1 3 then setA x (fld w1 2 0) (coreWord n c e.1 + coreWord n c (e.1 + 1) % 256 * 65536)
        else setD x (fld w1 2 0) (coreWord n c e.1))))
    ∧ (Issues s n c .ldm w1 w2 → DataWords n c (eaOf c w1 w2 (ldmWords w1)).1 (ldmWords w1) →
      (eaOf c w1 w2 (ldmWords w1)).1 % ldmWords w1 = 0 →
      exec (.ldm n) s = .next (setCore s n (
        let e := eaOf c w1 w2 (ldmWords w1)
        (List.range (ldmWords w1)).foldl (fun x j => setD x (fld w1 2 0 + j) (coreWord n c (e.1 + j))) (e.2 (pcAdd c (modeWords w1))))))
    ∧ (Issues s n c .acld w1 w2 → DataWords n c (eaOf c w1 w2 5).1 5 →
      (let ws := (List.range 5).map (fun j => coreWord n c ((eaOf c w1 w2 5).1 + j))
       acWord (acValue ws) 4 = ws.getD 4 0 →
       exec (.acld n) s = .next (setCore s n (setAC ((eaOf c w1 w2 5).2 (pcAdd c (modeWords w1))) (fld w1 1 0) (acValue ws)))))
    ∧ (Issues s n c .acldn w1 w2 → laneChk n c (acnAddr c w1) 9 = .ok →
      exec (.acldn n) s = .next (setCore s n (setAC (pcAdd c 1) (fld w1 1 0) (BitVec.ofNat 72 (mnat c.mem (acnAddr c w1) 9))))))
  ∧
  (
  ∀ (s : State) (n : Nat) (c : Core) (w1 w2 : Nat),
    let e := eaOf c w1 w2 1
    let a := winAddr c e.1
    bitOf w1 3 = false → winBase ≤ e.1 → e.1 < 2 ^ 24 → a + 2 ≤ dramSize s → winOk s c.fntag.toNat a 2 = true → poisonedIn s a 2 = false →
      (Issues s n c .ld w1 w2 → exec (.ld n) s = .next (setCore s n { c with run := .load }))
      ∧ (Stands s n c .load .ld w1 w2 → exec (.windowLoadData n) s = .next (setCore s n
          (setD (e.2 { pcAdd c (modeWords w1) with run := .run }) (fld w1 2 0) (mnat s.dram a 2)))))

/-- ST, STM, ACST and ACSTN store to the address that their operand computes and to no other byte of the core's memory; the registers
change by the addressing mode only, and nothing outside the core changes (R200 to R203).
It states that exec answers a next state, under hypotheses on the state and the operands alone, for: st, stm, acst, acstn. -/
def Obligations.StoresWriteDataMemory : Prop :=
  ∀ (s : State) (n : Nat) (c : Core) (w1 w2 : Nat),
    (Issues s n c .st w1 w2 → DataWords n c (eaOf c w1 w2 (regWords w1)).1 (regWords w1) →
      ∃ m, exec (.st n) s = .next (setCore s n ((eaOf c w1 w2 (regWords w1)).2 { pcAdd c (modeWords w1) with mem := m }))
        ∧ StoredWords c.mem m (eaOf c w1 w2 (regWords w1)).1
            (if bitOf w1 3 then [areg c (fld w1 2 0) % 65536, areg c (fld w1 2 0) / 65536] else [dreg c (fld w1 2 0)]))
    ∧ (Issues s n c .stm w1 w2 → DataWords n c (eaOf c w1 w2 (ldmWords w1)).1 (ldmWords w1) →
      (eaOf c w1 w2 (ldmWords w1)).1 % ldmWords w1 = 0 →
      ∃ m, exec (.stm n) s = .next (setCore s n ((eaOf c w1 w2 (ldmWords w1)).2 { pcAdd c (modeWords w1) with mem := m }))
        ∧ StoredWords c.mem m (eaOf c w1 w2 (ldmWords w1)).1 ((List.range (ldmWords w1)).map (fun j => dreg c (fld w1 2 0 + j))))
    ∧ (Issues s n c .acst w1 w2 → DataWords n c (eaOf c w1 w2 5).1 5 →
      ∃ m, exec (.acst n) s = .next (setCore s n ((eaOf c w1 w2 5).2 { pcAdd c (modeWords w1) with mem := m }))
        ∧ StoredWords c.mem m (eaOf c w1 w2 5).1 (acWords (acreg c (fld w1 1 0))))
    ∧ (Issues s n c .acstn w1 w2 → laneChk n c (acnAddr c w1) 9 = .ok →
      ∃ m, exec (.acstn n) s = .next (setCore s n { pcAdd c 1 with mem := m })
        ∧ mnat m (acnAddr c w1) 9 = (acreg c (fld w1 1 0)).toNat
        ∧ ∀ x, x < acnAddr c w1 ∨ acnAddr c w1 + 9 ≤ x → mread m x = mread c.mem x)

/-- CALL, RETM, RET, PUSHM and POPM on a frame inside data memory and above SLIM (R208, R209): the frame's words, A7, the PC and the
registers of the mask.
The string instructions (R215, R216) in data memory: with D6 = 0 they complete with no effect; else they run one element, moving A5
(and A4) and lowering D6, and the PC moves on with the last; a mismatch of CMPS and a match of SCANS end them there.
It states that exec answers a next state, under hypotheses on the state and the operands alone, for: ret, call, retm, pushm, popm, movs,
fills, cmps, scans. -/
def Obligations.StackAndStringInstructionsComplete : Prop :=
  (
  ∀ (s : State) (n : Nat) (c : Core) (w1 w2 : Nat),
    let words := fun k => (List.range k).map (fun j => coreWord n c (areg c 7 + j))
    let room := fun k => k ≤ areg c 7 ∧ DataWords n c (areg c 7 - k) k ∧ c.slim.toNat + k ≤ areg c 7
    (Issues s n c .call w1 w2 → room (2 + maskWords w2) →
      ∃ m, exec (.call n) s = .next (setCore s n
          { setA c 7 (areg c 7 - (2 + maskWords w2)) with mem := m, pc := BitVec.ofNat 24 (areg c (fld w1 2 0)) })
        ∧ StoredWords c.mem m (areg c 7 - (2 + maskWords w2)) (aWords (wadd c.pc.toNat 2) ++ maskFrame c w2))
    ∧ (Issues s n c .pushm w1 w2 → 0 < maskWords w2 → room (maskWords w2) →
      ∃ m, exec (.pushm n) s = .next (setCore s n { setA (pcAdd c 2) 7 (areg c 7 - maskWords w2) with mem := m })
        ∧ StoredWords c.mem m (areg c 7 - maskWords w2) (maskFrame c w2))
    ∧ (Issues s n c .retm w1 w2 → DataWords n c (areg c 7) (2 + maskWords w2) →
      exec (.retm n) s = .next (setCore s n
        (let x := setA (maskPop c w2 ((words (2 + maskWords w2)).drop 2)) 7 (areg c 7 + (2 + maskWords w2))
         { x with pc := BitVec.ofNat 24 (coreWord n c (areg c 7) + coreWord n c (areg c 7 + 1) % 256 * 65536) })))
    ∧ (Issues s n c .ret w1 w2 → DataWords n c (areg c 7) 2 →
      exec (.ret n) s = .next (setCore s n { setA c 7 (areg c 7 + 2) with
        pc := BitVec.ofNat 24 (coreWord n c (areg c 7) + coreWord n c (areg c 7 + 1) % 256 * 65536) }))
    ∧ (Issues s n c .popm w1 w2 → DataWords n c (areg c 7) (maskWords w2) →
      exec (.popm n) s = .next (setCore s n
        (setA (maskPop (pcAdd c 2) w2 (words (maskWords w2))) 7 (areg c 7 + maskWords w2)))))
  ∧
  (
  ∀ (s : State) (n : Nat) (c : Core) (w1 w2 : Nat),
    let done := fun (cmd : Instr) => exec cmd s = .next (setCore s n (pcAdd c 1))
    let src := areg c 4
    let dst := areg c 5
    let at4 := coreWord n c src
    let at5 := coreWord n c dst
    let hit := (at5 == dreg c (fld w1 2 0)) != bitOf w1 6
    (Issues s n c .movs w1 w2 → dreg c 6 = 0 → done (.movs n)) ∧ (Issues s n c .fills w1 w2 → dreg c 6 = 0 → done (.fills n))
    ∧ (Issues s n c .cmps w1 w2 → dreg c 6 = 0 → done (.cmps n)) ∧ (Issues s n c .scans w1 w2 → dreg c 6 = 0 → done (.scans n))
    ∧ (Issues s n c .movs w1 w2 → dreg c 6 ≠ 0 → DataWords n c src 1 → DataWords n c dst 1 →
      ∃ m, exec (.movs n) s = .next (setCore s n (strNext w1 true { c with mem := m })) ∧ StoredWords c.mem m dst [at4])
    ∧ (Issues s n c .fills w1 w2 → dreg c 6 ≠ 0 → DataWords n c dst 1 →
      ∃ m, exec (.fills n) s = .next (setCore s n (strNext w1 false { c with mem := m }))
        ∧ StoredWords c.mem m dst [dreg c (fld w1 2 0)])
    ∧ (Issues s n c .cmps w1 w2 → dreg c 6 ≠ 0 → DataWords n c src 1 → DataWords n c dst 1 →
      exec (.cmps n) s = .next (setCore s n (if at4 ≠ at5 then pcAdd c 1 else strNext w1 true c)))
    ∧ (Issues s n c .scans w1 w2 → dreg c 6 ≠ 0 → DataWords n c dst 1 →
      exec (.scans n) s = .next (setCore s n (if hit then pcAdd c 1 else strNext w1 false c))))

/-! ## Vector instructions (chapter 11) -/

/-- Short lane operations (R228, R231, R241): when no active element traps, exactly the active lanes of Vd get the operation's value,
VIDX becomes 0, the PC moves on, and every other lane, register and byte stands.
A short form whose VIDX is at or above VL does nothing and completes (R228, R241): VIDX becomes 0, EVPEND.VEC is set and the PC moves
on.
It states that exec answers a next state, under hypotheses on the state and the operands alone, for: varith, vlogic, vscale, vdot4, vdiv,
vhash, vconv. -/
def Obligations.ShortLaneOperationsWriteActiveLanes : Prop :=
  (
  ∀ (s : State) (n stop : Nat) (c : Core) (w1 w2 : Nat) (row : SRow) (cmd : Instr),
    (row, cmd) ∈ [(SRow.varith, Instr.varith n), (.vlogic, .vlogic n), (.vscale, .vscale n), (.vdot4, .vdot4 n), (.vdiv, .vdiv n 0),
      (.vdiv, .vdiv n stop), (.vhash, .vhash n), (.vconv, .vconv n)] →
    Issues s n c row w1 w2 → vaL w2 = false → (row = .vconv → vaFn w2 ≠ 5) → (c.ie = false ∨ irqCode c = none ∨ cmd ≠ .vdiv n stop ∨ stop = 0) →
    ∀ y : Nat → Lane,
      (∀ j ∈ vactives c.vec (vaPg w2), ∃ sat wn, laneOp row w2 c.vec (vlane c.vec (vaA w1) j) (shortB c w2 j) (vlane c.vec (vaD w1) j)
        = .val (y j) sat wn) →
      ∃ x, exec cmd s = .next (setCore s n x) ∧ x.pc = BitVec.ofNat 24 (c.pc.toNat + 2) ∧ vidxOf x.vec = 0
        ∧ (∀ m j, m < 16 → j < 32 → vlane x.vec m j = if m = vaD w1 ∧ j ∈ vactives c.vec (vaPg w2) then y j else vlane c.vec m j)
        ∧ x.vec.p = c.vec.p ∧ x.d = c.d ∧ x.a = c.a ∧ x.ac = c.ac ∧ x.mem = c.mem
        ∧ ∀ k, k ∉ [1, 4, 6, 7, 8, 9] → vcr x.vec k = vcr c.vec k)
  ∧
  (
  ∀ (s : State) (n stop : Nat) (c : Core) (w1 w2 : Nat) (row : SRow) (cmd : Instr),
    (row, cmd) ∈ [(SRow.varith, Instr.varith n), (.vlogic, .vlogic n), (.vcmp, .vcmp n), (.vscale, .vscale n), (.vmulw, .vmulw n),
      (.vdot4, .vdot4 n), (.vdot2w, .vdot2w n), (.vdiv, .vdiv n stop), (.vld, .vld n), (.vst, .vst n), (.vldff, .vldff n),
      (.vgather, .vgather n), (.vgatherff, .vgatherff n), (.vscatter, .vscatter n), (.vcompact, .vcompact n), (.vhash, .vhash n),
      (.vsel, .vsel n), (.vpred, .vpred n), (.vxfer, .vxfer n), (.vconv, .vconv n)] →
    Issues s n c row w1 w2 → isLong row w2 = false → vlOf c.vec ≤ vidxOf c.vec →
    exec cmd s = .next (setCore s n { pcAdd c 2 with vec := setVcr c.vec 1 0, evpend := c.evpend ||| 2 }))

/-- VSEL and VCONV PTOB write the active lanes of Vd and no other (Table 11-5, R228).
Short VCMP writes Pd: bit j is the comparison of an active element, or whether it is NULL under x, and 0 elsewhere (R228, R231);
VPRED writes its function of Pa, Pb, VL or Dk into the bits of the elements from VIDX up to VL, and 0 into the others.
VMEMB (R236): a key that holds NULL is not found; else its directory is probed from the hash's slot, and the outcome of each active
element goes to Pd and, under LOOKUP, as FIRST or NULL to its lane.
SRCH (R237): where no element of the array faults or waits, a lane that is not NULL gets the index of the first element not below it,
and its bit of Pd tells whether that element equals it; a NULL lane gets NULL and 0.
It states that exec answers a next state, under hypotheses on the state and the operands alone, for: vcmp, vmemb, vsel, vpred, vconv. -/
def Obligations.PredicatesAndSelectionsComplete : Prop :=
  (
  ∀ (s : State) (n : Nat) (c : Core) (w1 w2 : Nat),
    let lanes := fun (x : Core) (y : Nat → Lane) =>
      x.pc = BitVec.ofNat 24 (c.pc.toNat + 2) ∧ vidxOf x.vec = 0 ∧ x.mem = c.mem ∧ x.d = c.d ∧ x.a = c.a ∧ x.ac = c.ac
        ∧ ∀ m j, m < 16 → j < 32 → vlane x.vec m j = if m = vaD w1 ∧ j ∈ vactives c.vec (vaPg w2) then y j else vlane c.vec m j
    (Issues s n c .vsel w1 w2 → ∃ x, exec (.vsel n) s = .next (setCore s n x) ∧ lanes x (fun j =>
      if bitOf (vpred c.vec (vaFn w2 % 8)) j then vlane c.vec (vaA w1) j else shortB c w2 j))
    ∧ (Issues s n c .vconv w1 w2 → vaL w2 = false → vaFn w2 = 5 →
      ∃ x, exec (.vconv n) s = .next (setCore s n x) ∧ lanes x (fun j =>
        if vaB w2 ≠ 0 ∧ bitOf (vpred c.vec (vaB w2)) j then nullLane else boolLane (bitOf (vpred c.vec (vaA w1)) j))))
  ∧
  (
  ∀ (s : State) (n : Nat) (c : Core) (w1 w2 : Nat), vidxOf c.vec < vlOf c.vec →
    let only := fun (x : Core) (pd : Nat) => x.pc = BitVec.ofNat 24 (c.pc.toNat + 2) ∧ vidxOf x.vec = 0 ∧ x.vec.v = c.vec.v ∧ x.d = c.d
      ∧ x.a = c.a ∧ x.ac = c.ac ∧ x.mem = c.mem ∧ ∀ m, m < 8 → m ≠ pd → vpred x.vec m = vpred c.vec m
    (Issues s n c .vcmp w1 w2 → vaL w2 = false →
      ∃ x, exec (.vcmp n) s = .next (setCore s n x) ∧ only x (vaD w1)
        ∧ ∀ j < 32, bitOf (vpred x.vec (vaD w1)) j = (decide (j ∈ vactives c.vec (vaPg w2))
          && (let r := vcmpLane (vaFn w2) (vlane c.vec (vaA w1) j) (shortB c w2 j); if vaX w2 then r == none else r == some true)))
    ∧ (Issues s n c .vpred w1 w2 →
      ∃ x, exec (.vpred n) s = .next (setCore s n x) ∧ only x (fld w1 5 3)
        ∧ ∀ j < 32, bitOf (vpred x.vec (fld w1 5 3)) j = (decide (vidxOf c.vec ≤ j ∧ j < vlOf c.vec)
          && (let a := bitOf (vpred c.vec (fld w1 2 0)) j
              let b := bitOf (vpred c.vec (fld w2 15 13)) j
              match fld w1 9 6 with
              | 0 => a && b
              | 1 => a || b
              | 2 => a != b
              | 3 => a && ! b
              | 4 => ! a
              | 5 => a
              | 6 => true
              | _ => decide (j < dreg c (fld w2 12 10) % 64)))))
  ∧
  (
  ∀ (s : State) (n : Nat) (c : Core) (w1 w2 : Nat), Issues s n c .vmemb w1 w2 → vidxOf c.vec < vlOf c.vec →
    let d := fld (vcr c.vec 12) 4 0
    let kw := fld (vcr c.vec 12) 7 5
    let pw := fld (vcr c.vec 12) 12 8
    let dir := 2 * (vcr c.vec 10 + vcr c.vec 11 % 256 * 65536)
    let key := fun j => (List.range kw).map (fun k => vlane c.vec (vaB w2 + k) j)
    let hash := fun j => (vlane c.vec (vaA w1) j).toNat % 2 ^ 64
    let act := vactives c.vec (vaPg w2)
    vaFn w2 / 8 ≠ 2 → vaB w2 + kw ≤ 16 → 1 ≤ kw ∧ kw ≤ 4 → 8 ≤ d ∧ d ≤ 17 → pw ≤ 16 →
    ∀ found : Nat → Option Nat,
    (∀ j ∈ act, if nullKey (key j) then found j = none
      else dirProbe s n c j dir d (9 * (1 + kw + pw)) (hash j) (key j) (2 ^ d) (hash j % 2 ^ d) = .ok (found j)) →
      ∃ x, exec (.vmemb n) s = .next (setCore s n x) ∧ x.pc = BitVec.ofNat 24 (c.pc.toNat + 2) ∧ vidxOf x.vec = 0 ∧ x.mem = c.mem
        ∧ x.d = c.d ∧ x.a = c.a ∧ x.ac = c.ac
        ∧ (∀ j < 32, bitOf (vpred x.vec (vaFn w2 % 8)) j = (act.contains j && (found j).isSome))
        ∧ ∀ m j, m < 16 → j < 32 → vlane x.vec m j =
            if m = vaD w1 ∧ j ∈ act ∧ vaFn w2 / 8 = 1 then (match found j with
              | some k => natLane k
              | none => nullLane)
            else vlane c.vec m j)
  ∧
  (
  ∀ (s : State) (n : Nat) (c : Core) (w1 w2 : Nat), Issues s n c .vmemb w1 w2 → vidxOf c.vec < vlOf c.vec → vaFn w2 / 8 = 2 →
    let t := streamOf c.vec (vaB w2 % 4)
    let act := vactives c.vec (vaPg w2)
    let a := fun j => vlane c.vec (vaA w1) j
    srchWaits s n c t = false → (∀ j ∈ act, a j ≠ nullLane → ∀ k < t.count, srchChk s n c j t k = .ok ()) →
      ∃ x, exec (.vmemb n) s = .next (setCore s n x) ∧ x.pc = BitVec.ofNat 24 (c.pc.toNat + 2) ∧ vidxOf x.vec = 0 ∧ x.mem = c.mem
        ∧ x.d = c.d ∧ x.a = c.a ∧ x.ac = c.ac
        ∧ (∀ m j, m < 16 → j < 32 → m ≠ vaD w1 ∨ j ∉ act → vlane x.vec m j = vlane c.vec m j)
        ∧ (∀ j < 32, j ∉ act → bitOf (vpred x.vec (vaFn w2 % 8)) j = false)
        ∧ ∀ j < 32, j ∈ act →
          if a j = nullLane then vlane x.vec (vaD w1) j = nullLane ∧ bitOf (vpred x.vec (vaFn w2 % 8)) j = false
          else ∃ k ≤ t.count, vlane x.vec (vaD w1) j = natLane k ∧ (∀ m < k, (srchLane s n c t m).toInt < (a j).toInt)
            ∧ (k < t.count → (a j).toInt ≤ (srchLane s n c t k).toInt)
            ∧ bitOf (vpred x.vec (vaFn w2 % 8)) j = (decide (k < t.count) && srchLane s n c t k == a j))

/-- VMULW and VDOT2W write the lane pairs of their active elements: the product exact in 144 bits, and the sum narrowed by VMODE.OVF (R232,
R41); VCOMPACT packs the active lanes from lane 0 up and writes their number to VOUT. No other lane, register or byte changes.
The eight functions of VXFER move between vectors, predicates, accumulators and D registers, on the elements from VIDX up to VL
(Table 11-5, R228); each writes its destination only.
VCTL reads a vector control register into D(r), writes one from it, or sets a stream's BASE from A(r) (Table 11-5), and VIDX becomes 0
unless it was written; the values of R226 raise ILLEGAL with no effect.
It states that exec answers a next state, under hypotheses on the state and the operands alone, for: vmulw, vdot2w, vcompact, vxfer, vctl. -/
def Obligations.WideProductsAndMovesComplete : Prop :=
  (
  ∀ (s : State) (n : Nat) (c : Core) (w1 w2 : Nat),
    let act := vactives c.vec (vaPg w2)
    let rest := fun (x : Core) => x.pc = BitVec.ofNat 24 (c.pc.toNat + 2) ∧ vidxOf x.vec = 0 ∧ x.vec.p = c.vec.p ∧ x.d = c.d ∧ x.a = c.a
      ∧ x.ac = c.ac ∧ x.mem = c.mem
    (Issues s n c .vmulw w1 w2 → ∃ x, exec (.vmulw n) s = .next (setCore s n x) ∧ rest x
      ∧ (∀ j < 32, j ∈ act → getPair x.vec (vaD w1) j = (vlane c.vec (vaA w1) j).toInt * (shortB c w2 j).toInt)
      ∧ ∀ m j, m < 16 → j < 32 → (m ≠ vaD w1 ∧ m ≠ vaD w1 + 1 ∨ j ∉ act) → vlane x.vec m j = vlane c.vec m j)
    ∧ (∀ y : Nat → Int × Bool, Issues s n c .vdot2w w1 w2 →
      (∀ j ∈ act, narrow144 (vmOvf c.vec) (getPair c.vec (vaD w1) j + (vlane c.vec (vaA w1) j).toInt * (vlane c.vec (vaB w2) j).toInt
        + (vlane c.vec (vaA w1 + 1) j).toInt * (vlane c.vec (vaB w2 + 1) j).toInt) = some (y j)) →
      ∃ x, exec (.vdot2w n) s = .next (setCore s n x) ∧ rest x
        ∧ (∀ j < 32, j ∈ act → getPair x.vec (vaD w1) j = (y j).1)
        ∧ ∀ m j, m < 16 → j < 32 → (m ≠ vaD w1 ∧ m ≠ vaD w1 + 1 ∨ j ∉ act) → vlane x.vec m j = vlane c.vec m j)
    ∧ (Issues s n c .vcompact w1 w2 → vaL w2 = false → vidxOf c.vec < vlOf c.vec →
      ∃ x, exec (.vcompact n) s = .next (setCore s n x) ∧ rest x ∧ vcr x.vec 5 = act.length % 65536
        ∧ (∀ k < 32, k < act.length → vlane x.vec (vaD w1) k = vlane c.vec (vaA w1) (act.getD k 0))
        ∧ ∀ m j, m < 16 → j < 32 → (m ≠ vaD w1 ∨ act.length ≤ j) → vlane x.vec m j = vlane c.vec m j))
  ∧
  (
  ∀ (s : State) (n : Nat) (c : Core) (w1 w2 : Nat), Issues s n c .vxfer w1 w2 → vidxOf c.vec < vlOf c.vec →
    let ac := fld w2 15 14
    let dj := fld w2 13 11
    let pp := fld w2 10 8
    let vn := fld w1 5 2
    let lane := dreg c dj % 32
    let act := vactives c.vec (fld w2 7 5)
    let fn := fld w1 9 6
    let lanes := fun (x : Core) (p : Nat → Bool) (y : Nat → Lane) =>
      ∀ m j, m < 16 → j < 32 → vlane x.vec m j = if m = vn ∧ p j = true then y j else vlane c.vec m j
    let live := fun j => decide (vidxOf c.vec ≤ j ∧ j < vlOf c.vec)
    ∃ x, exec (.vxfer n) s = .next (setCore s n x) ∧ x.pc = BitVec.ofNat 24 (c.pc.toNat + 2) ∧ vidxOf x.vec = 0 ∧ x.mem = c.mem ∧ x.a = c.a
      ∧ x.ac = (if fn = 0 then (setAC c ac (vlane c.vec vn lane)).ac else c.ac)
      ∧ x.d = (if fn = 3 then (setD (setD c dj (vpred c.vec pp % 65536)) (dj + 1) (vpred c.vec pp / 65536)).d
          else if fn = 5 then (setD c dj (act.filter (fun j => bitOf (vpred c.vec pp) j)).length).d
          else if fn = 6 then (setD c dj (((vactives c.vec 0).find? (fun j => bitOf (vpred c.vec pp) j)).getD 32)).d else c.d)
      ∧ (fn = 1 → lanes x (fun j => j == lane && live j) (fun _ => acreg c ac))
      ∧ (fn = 2 → lanes x (fun j => act.contains j) (fun _ => acreg c ac))
      ∧ (fn = 7 → lanes x (fun j => act.contains j) (fun j => natLane j))
      ∧ (fn ∉ [1, 2, 7] → x.vec.v = c.vec.v)
      ∧ ∀ m, m < 8 → (m ≠ pp ∨ fn ≠ 4 → vpred x.vec m = vpred c.vec m)
        ∧ (m = pp → fn = 4 → ∀ j < 32, bitOf (vpred x.vec m) j = (live j && bitOf (dreg c (dj + 1) * 65536 + dreg c dj) j)))
  ∧
  (
  ∀ (s : State) (n : Nat) (c : Core) (w1 w2 : Nat), Issues s n c .vctl w1 w2 →
    let r := fld w1 5 3
    let k := fld w2 15 10
    let v := setVcr c.vec 1 0
    (fld w1 9 6 = 0 → exec (.vctl n) s = .next (setCore s n (setD { pcAdd c 2 with vec := v } r (vcr c.vec k))))
    ∧ (fld w1 9 6 = 1 → vcrBad k (dreg c r) = false →
      exec (.vctl n) s = .next (setCore s n { pcAdd c 2 with vec := setVcr v k (dreg c r &&& vcrMask k) }))
    ∧ (fld w1 9 6 = 2 → exec (.vctl n) s = .next (setCore s n { pcAdd c 2 with
        vec := setVcr (setVcr (setVcr c.vec (16 + 4 * k) (areg c r % 65536)) (17 + 4 * k)
          ((streamOf c.vec k).form * 2 ^ 15 + areg c r / 65536)) 1 0 }))
    ∧ (fld w1 9 6 = 1 → vcrBad k (dreg c r) = true → c.exl = false →
      ∃ t, exec (.vctl n) s = .next t ∧ (getCore t n).ecause = BitVec.ofNat 16 Exc.illegal ∧ (getCore t n).epc = c.pc
        ∧ (getCore t n).vec = c.vec ∧ (getCore t n).d = c.d))

/-- Vector loads (R233, R234) whose active elements lie in local store and the data bounds write those lanes, a NULL index giving NULL; the
first-fault forms also write Pd with the elements loaded.
VLDFF and VGATHERFF stop without a fault where an element after their first active one may not be accessed (R234): the elements below it
are loaded, Pd tells which, VIDX becomes 0 and the instruction completes, with VCAUSE and EADDR unchanged.
VST and VSCATTER store the active lanes in ascending order at the addresses their operands compute, a NULL index storing nothing, and
change no register but VIDX and the PC (R233).
It states that exec answers a next state, under hypotheses on the state and the operands alone, for: vld, vst, vldff, vgather, vgatherff,
vscatter. -/
def Obligations.VectorMemoryInstructionsComplete : Prop :=
  (
  ∀ (s : State) (n : Nat) (c : Core) (w1 w2 : Nat) (row : SRow) (cmd : Instr) (indexed first : Bool),
    (row, cmd, indexed, first) ∈ [(SRow.vld, Instr.vld n, false, false), (.vgather, .vgather n, true, false),
      (.vldff, .vldff n, false, true), (.vgatherff, .vgatherff n, true, true)] →
    Issues s n c row w1 w2 → vidxOf c.vec < vlOf c.vec →
    ∀ at_ : Nat → Option Int, (∀ j ∈ vactives c.vec (vmPg w2), vmElem n c indexed w1 w2 j = .ok (at_ j)) →
      ∃ x, exec cmd s = .next (setCore s n x) ∧ x.pc = BitVec.ofNat 24 (c.pc.toNat + 2) ∧ vidxOf x.vec = 0 ∧ x.mem = c.mem
        ∧ (∀ m j, m < 16 → j < 32 → vlane x.vec m j = if m = vmV w1 ∧ j ∈ vactives c.vec (vmPg w2) then
            (match at_ j with
              | some b => BitVec.ofNat 72 (mnat c.mem b.toNat 9)
              | none => nullLane)
          else vlane c.vec m j)
        ∧ ∀ j < 32, first = true → bitOf (vpred x.vec (fld w2 7 5)) j = decide (j ∈ vactives c.vec (vmPg w2)))
  ∧
  (
  ∀ (s : State) (n : Nat) (c : Core) (w1 w2 : Nat) (row : SRow) (cmd : Instr) (indexed : Bool) (e : Nat) (f : VFault),
    (row, cmd, indexed) ∈ [(SRow.vldff, Instr.vldff n, false), (.vgatherff, .vgatherff n, true)] →
    Issues s n c row w1 w2 → vidxOf c.vec < vlOf c.vec → e < 32 →
    let act := vactives c.vec (vmPg w2)
    e ∈ act → act.head? ≠ some e → vmElem n c indexed w1 w2 e = .error f →
    ∀ at_ : Nat → Option Int, (∀ j ∈ act, j < e → vmElem n c indexed w1 w2 j = .ok (at_ j)) →
      ∃ x, exec cmd s = .next (setCore s n x) ∧ x.pc = BitVec.ofNat 24 (c.pc.toNat + 2) ∧ vidxOf x.vec = 0 ∧ x.mem = c.mem
        ∧ x.eaddr = c.eaddr ∧ vcr x.vec 3 = vcr c.vec 3
        ∧ (∀ m j, m < 16 → j < 32 → vlane x.vec m j = if m = vmV w1 ∧ j ∈ act ∧ j < e then
            (match at_ j with
              | some b => BitVec.ofNat 72 (mnat c.mem b.toNat 9)
              | none => nullLane)
          else vlane c.vec m j)
        ∧ ∀ j < 32, bitOf (vpred x.vec (fld w2 7 5)) j = decide (j ∈ act ∧ j < e))
  ∧
  (
  ∀ (s : State) (n : Nat) (c : Core) (w1 w2 : Nat) (row : SRow) (cmd : Instr) (indexed : Bool),
    (row, cmd, indexed) ∈ [(SRow.vst, Instr.vst n, false), (.vscatter, .vscatter n, true)] →
    Issues s n c row w1 w2 →
    ∀ at_ : Nat → Option Int, (∀ j ∈ vactives c.vec (vmPg w2), vmElem n c indexed w1 w2 j = .ok (at_ j)) →
      ∃ x, exec cmd s = .next (setCore s n x) ∧ x.pc = BitVec.ofNat 24 (c.pc.toNat + 2) ∧ vidxOf x.vec = 0
        ∧ x.vec.v = c.vec.v ∧ x.vec.p = c.vec.p ∧ x.d = c.d ∧ x.a = c.a ∧ x.ac = c.ac
        ∧ x.mem = (vactives c.vec (vmPg w2)).foldl (fun m j => match at_ j with
            | some b => mput m b.toNat (formWidth (fld w2 8 8)) (vlane c.vec (vmV w1) j).toNat
            | none => m) c.mem)

/-- An element fault of a short lane operation is precise (R240): at the first active element that traps, VECTOR is taken with EPC at the
instruction, VIDX the element and VCAUSE its unit and cause; the lanes of lower elements are written and no other. -/
def Obligations.ElementFaultsArePrecise : Prop :=
  ∀ (s : State) (n : Nat) (c : Core) (w1 w2 : Nat) (row : SRow) (cmd : Instr) (e st : Nat) (y : Nat → Lane),
    (row, cmd) ∈ [(SRow.varith, Instr.varith n), (.vscale, .vscale n), (.vdot4, .vdot4 n), (.vdiv, .vdiv n 0)] →
    Issues s n c row w1 w2 → vaL w2 = false → c.exl = false → e < 32 → e ∈ vactives c.vec (vaPg w2) →
    laneOp row w2 c.vec (vlane c.vec (vaA w1) e) (shortB c w2 e) (vlane c.vec (vaD w1) e) = .trap st →
    (∀ j ∈ vactives c.vec (vaPg w2), j < e → ∃ sat wn,
      laneOp row w2 c.vec (vlane c.vec (vaA w1) j) (shortB c w2 j) (vlane c.vec (vaD w1) j) = .val (y j) sat wn) →
    ∃ t, exec cmd s = .next t ∧ (let x := getCore t n
      x.epc = c.pc ∧ x.ecause = BitVec.ofNat 16 Exc.vector ∧ x.pc = BitVec.ofNat 24 (c.ebase.toNat + 8 * Exc.vector)
        ∧ vidxOf x.vec = e ∧ vcr x.vec 3 = unitOf row w2 * 256 + ecodeOf st
        ∧ (∀ m j, m < 16 → j < 32 → vlane x.vec m j =
            if m = vaD w1 ∧ j ∈ vactives c.vec (vaPg w2) ∧ j < e then y j else vlane c.vec m j)
        ∧ x.d = c.d ∧ x.a = c.a ∧ x.ac = c.ac ∧ x.mem = c.mem)

/-- VPIPE queues its command and writes STATUS 0xFFFF, and stalls while two commands wait (R244); the five pipe commands end the oldest
one, write STATUS and set EVPEND.VEC, also where the spec states no outcome of the command's block.
It states that exec answers a next state, under hypotheses on the state and the operands alone, for: vpipe, pipeDecode, pipeEncode,
pipeSort32, pipeMerge, pipeEscpop. -/
def Obligations.PipeCommandsQueueAndEnd : Prop :=
  ∀ (s : State) (n : Nat) (c : Core) (w1 w2 : Nat),
    (Issues s n c .vpipe w1 w2 → DataWords n c (areg c (fld w1 5 3)) 16 → c.vec.pipes.length < 2 →
      ∃ x p, exec (.vpipe n) s = .next (setCore s n x) ∧ x.vec.pipes = c.vec.pipes ++ [p] ∧ p.fn = fld w1 9 6 ∧ p.block = areg c (fld w1 5 3)
        ∧ (∀ k < 16, p.w k = coreWord n c (areg c (fld w1 5 3) + k)) ∧ vidxOf x.vec = 0
        ∧ mnat x.mem (2 * areg c (fld w1 5 3)) 2 = 0xFFFF ∧ x.pc = BitVec.ofNat 24 (c.pc.toNat + 2) ∧ x.d = c.d ∧ x.a = c.a)
    ∧ (Issues s n c .vpipe w1 w2 → DataWords n c (areg c (fld w1 5 3)) 16 → 2 ≤ c.vec.pipes.length → exec (.vpipe n) s = .next s)
    ∧ ∀ (p : PipeCmd) (rest : List PipeCmd) (cmd : Instr) (f : PipeCmd → Mem → Option PipeOut),
      tget s.cores n = some c → c.run ≠ .off → c.vec.pipes = p :: rest →
      (p.fn, cmd, f) ∈ [(0, Instr.pipeDecode n, pipeDecode), (1, Instr.pipeEncode n, pipeEncode), (2, Instr.pipeSort32 n, pipeSort),
        (3, Instr.pipeMerge n, pipeMerge), (4, Instr.pipeEscpop n, pipeEscpop)] →
      ∃ t x, exec cmd s = .next t ∧ tget t.cores n = some x ∧ x.vec.pipes = rest ∧ x.evpend = c.evpend ||| 2
        ∧ x.d = c.d ∧ x.a = c.a ∧ x.ac = c.ac ∧ x.pc = c.pc ∧ (∀ k, k ≠ n → tget t.cores k = tget s.cores k)
        ∧ (∀ o, f p c.mem = some o → mnat x.mem (2 * p.block) 2 = o.status % 65536)
        ∧ (∀ o, f p c.mem = some o → o.loose = [] → t = setCore s n x)

/-- A long form that writes Q is collected as a link of its chain, and the PC moves on (R238).
A chain of one link, run by the link's own command or by VECTOR_CHAIN, processes its elements in order and completes with VIDX 0 (R229,
R232, R238, R239): a lane operation stores each result to its destination stream, and VCOMPACT the elements whose selector is neither 0 nor
NULL to element VOUT. `mems e` is the core's memory before element `e`, and `out e` VOUT.
It states that exec answers a next state, under hypotheses on the state and the operands alone, for: varith, vlogic, vcmp, vscale, vdot4,
vdiv, vcompact, vhash, vconv, vectorChain. -/
def Obligations.ChainsCollectAndRun : Prop :=
  (
  ∀ (s : State) (n stop : Nat) (c : Core) (w1 w2 : Nat) (row : SRow) (cmd : Instr),
    (row, cmd) ∈ [(SRow.varith, Instr.varith n), (.vlogic, .vlogic n), (.vcmp, .vcmp n), (.vscale, .vscale n), (.vdot4, .vdot4 n),
      (.vdiv, .vdiv n stop), (.vhash, .vhash n), (.vconv, .vconv n)] →
    tget s.cores n = some c → c.run = .run → fetchAt n c c.pc.toNat = .ins (some row) w1 w2 → vaL w2 = true →
    VLink.writesQ ⟨row, w1, w2⟩ = true → linkOk (c.vec.links.filterMap (linkAt n c)) ⟨row, w1, w2⟩ = true →
    exec cmd s = .next (setCore s n { pcAdd c 2 with vec := { c.vec with links := c.vec.links ++ [c.pc.toNat] } }))
  ∧
  (
  ∀ (s : State) (n : Nat) (c : Core) (w1 w2 : Nat) (row : SRow) (cmd : Instr),
    (row, cmd) ∈ [(SRow.varith, Instr.varith n), (.vlogic, .vlogic n), (.vcmp, .vcmp n), (.vscale, .vscale n), (.vdot4, .vdot4 n),
      (.vdiv, .vdiv n 0), (.vcompact, .vcompact n), (.vhash, .vhash n), (.vconv, .vconv n), (row, .vectorChain n 0)] →
    Issues s n c row w1 w2 → isLong row w2 = true →
    let l : VLink := ⟨row, w1, w2⟩
    let count := (streamOf c.vec (vaA w1)).count
    let dst := streamOf c.vec (vaD w1)
    l.readsA = false → l.readsB = false → l.writesQ = false → vidxOf c.vec = 0 → lengthFault c.vec count [l] = none →
    destMeets c.vec count [l] = false → (∀ e < count, accessFault n c e [l] = none) →
    ∀ (mems : Nat → Mem) (out : Nat → Nat),
      let rd := fun (e k : Nat) => BitVec.ofNat 72 (mnat (mems e) (streamAt (streamOf c.vec k) e).toNat 9)
      let a := fun e => rd e (vaA w1)
      let b := fun e => if vaBs w2 then acreg c (vaB w2 % 4) else rd e (vaB w2)
      mems 0 = c.mem → out 0 = 0 →
      (∀ e < count,
        if row = .vcompact then
          if b e = 0#72 ∨ b e = nullLane then mems (e + 1) = mems e ∧ out (e + 1) = out e
          else elemOk n c (streamAt dst (out e)) (formWidth dst.form) = true ∧ out (e + 1) = out e + 1
            ∧ mems (e + 1) = mput (mems e) (streamAt dst (out e)).toNat (formWidth dst.form) (a e).toNat
        else out (e + 1) = out e ∧ ∃ y sat wn, laneOp row w2 c.vec (a e) (b e) (if l.readsD then rd e (vaD w1) else 0) = .val y sat wn
          ∧ mems (e + 1) = mput (mems e) (streamAt dst e).toNat (formWidth dst.form) y.toNat) →
      ∃ x, exec cmd s = .next (setCore s n x) ∧ x.pc = BitVec.ofNat 24 (c.pc.toNat + 2) ∧ vidxOf x.vec = 0 ∧ x.vec.links = []
        ∧ x.mem = mems count ∧ vcr x.vec 5 = out count ∧ x.d = c.d ∧ x.a = c.a ∧ x.ac = c.ac ∧ x.vec.v = c.vec.v ∧ x.vec.p = c.vec.p)

/-! ## Host queues (chapter 14) -/

/-- Doorbells (R288, R289, R298): host writes fill the page's inline slots; an accepted SQ doorbell moves the latest TAIL and takes the
inline copies from the slots, an accepted CQ doorbell moves HEAD and then the overflow entries; a value out of range moves nothing, and a
page of no live queue takes no write.
QUEUE_ENABLE (R285): a write of EN = 1 to a DISABLED queue that passes the checks makes it ACTIVE with every position at 0; one that
fails sets ERR and the queue stays DISABLED; a write of EN = 0, or to a queue that is not DISABLED, changes nothing.
It states that exec answers a next state, under hypotheses on the state and the operands alone, for: sqDb, cqDb, queueEnable. -/
def Obligations.DoorbellsMoveTheirRings : Prop :=
  (
  ∀ (s : State) (fn q v : Nat) (slots : List (List Byte)) (d : Nat),
    (liveQueue s fn q = none → exec (.sqDb fn q v slots) s = .next s ∧ exec (.cqDb fn q v) s = .next s)
    ∧ (liveQueue s fn q = some d → (fld v 15 0 ≥ sqSize s d ∨ fld v 18 16 > 4) →
        exec (.sqDb fn q v slots) s = .next (modQ s d (fun x => { x with page := pageWrite x.page slots })))
    ∧ (liveQueue s fn q = some d → fld v 15 0 ≥ cqSize s d → exec (.cqDb fn q v) s = .next s)
    ∧ (liveQueue s fn q = some d → fld v 15 0 < sqSize s d → fld v 18 16 ≤ 4 → fld v 18 16 ≤ sqSize s d →
        ∃ t, exec (.sqDb fn q v slots) s = .next t ∧ (getQ t d).tail = fld v 15 0 ∧ (getQ t d).head = (getQ s d).head
          ∧ (getQ t d).page = pageWrite (getQ s d).page slots ∧ (getQ t d).notOwnWait = false ∧ (∀ e, e ≠ d → getQ t e = getQ s e) ∧ t.host = s.host
          ∧ ∀ i < fld v 18 16, let pos := (fld v 15 0 + sqSize s d - fld v 18 16 + i) % sqSize s d
            unfetched s d pos (fld v 15 0) = true → tget (getQ t d).inl pos = some (pageSlot (pageWrite (getQ s d).page slots) i))
    ∧ (liveQueue s fn q = some d → fld v 15 0 < cqSize s d →
        exec (.cqDb fn q v) s = .next (moveOverflow (getQ s d).overflow.length (modQ s d (fun x => { x with cqHead := fld v 15 0 })) d)))
  ∧
  (
  ∀ (s : State) (p : Path) (v d : Nat), Reaches s p Reg.QM_Q_CTL →
    let u := dropHalves s p
    devQueue u (pathFn p) (fld (selGet u p Reg.QM_Q_SEL) 11 0) = some d →
    (bitOf v 31 = true → (getQ u d).st = .disabled → enableErr u (pathFn p) (fld (selGet u p Reg.QM_Q_SEL) 11 0) d = 0 →
      ∃ t, exec (.queueEnable p v) s = .next t ∧ (getQ t d).st = .active ∧ (getQ t d).head = 0 ∧ (getQ t d).tail = 0
        ∧ (getQ t d).cqTail = 0 ∧ (getQ t d).cqHead = 0 ∧ ∀ e, e ≠ d → getQ t e = getQ u e)
    ∧ (bitOf v 31 = true → (getQ u d).st = .disabled → enableErr u (pathFn p) (fld (selGet u p Reg.QM_Q_SEL) 11 0) d ≠ 0 →
      ∃ t, exec (.queueEnable p v) s = .next t ∧ (getQ t d).st = .disabled
        ∧ (getQ t d).ctlErr = enableErr u (pathFn p) (fld (selGet u p Reg.QM_Q_SEL) 11 0) d)
    ∧ (bitOf v 31 = false ∨ (getQ u d).st ≠ .disabled → exec (.queueEnable p v) s = .next u))

/-- As CQ_DB.HEAD frees slots, overflow entries move into their ring in the order in which they entered overflow, before any newer
completion, and none is dropped, overwritten or reordered (R302): the doorbell moves HEAD and then the overflow; some first `k` of the
entries fill the slots from the tail on, and the others stay; a newer completion goes behind the entries in overflow.
It states that exec answers a next state, under hypotheses on the state and the operands alone, for: cqDb. -/
def Obligations.OverflowEntersTheRingInOrder : Prop :=
  (∀ (s : State) (fn q v d : Nat), liveQueue s fn q = some d → fld v 15 0 < cqSize s d →
    exec (.cqDb fn q v) s
      = .next (moveOverflow (getQ s d).overflow.length (modQ s d (fun x => { x with cqHead := fld v 15 0 })) d))
  ∧ (∀ (s : State) (r : Nat) (e : CqEntry), (getQ s r).overflow ≠ [] →
    (getQ (placeEntry s r e) r).overflow = (getQ s r).overflow ++ [e] ∧ (placeEntry s r e).host = s.host)
  ∧ ∀ (n : Nat) (s : State) (r : Nat), (getQ s r).cqTail < cqSize s r → (getQ s r).cqHead < cqSize s r →
    let t := moveOverflow n s r
    let es := (getQ s r).overflow
    ∃ k, k ≤ n ∧ k ≤ es.length ∧ k < cqSize s r
      ∧ (getQ t r).overflow = es.drop k
      ∧ (getQ t r).cqTail = ((getQ s r).cqTail + k) % cqSize s r ∧ (getQ t r).cqHead = (getQ s r).cqHead
      ∧ (∀ i (h : i < es.length), i < k →
          mreads t.host (cqBase s r + 32 * (((getQ s r).cqTail + i) % cqSize s r)) 32 = entryBytes es[i])
      ∧ (k = n ∨ k = es.length ∨ ringFull t r = true)

/-- A completion that finds its ring with a free slot and no overflow is written there whole with OWN = 1, and the tail moves one slot
on; one that finds the ring full, or overflow before it, goes behind the overflow entries (R296, R298, R301).
Fetching consumes in order (R291): a descriptor that is consumed has its OWN bit cleared in its slot, its other bits as they were, and
the head moves one position on. -/
def Obligations.CompletionsAreWrittenWhole : Prop :=
  (
  ∀ (s : State) (r : Nat) (e : CqEntry),
    ((getQ s r).overflow = [] → ringFull s r = false →
      mreads (placeEntry s r e).host (cqBase s r + 32 * (getQ s r).cqTail) 32 = entryBytes e
        ∧ (getQ (placeEntry s r e) r).cqTail = ((getQ s r).cqTail + 1) % cqSize s r
        ∧ ∀ a, a < cqBase s r + 32 * (getQ s r).cqTail ∨ cqBase s r + 32 * (getQ s r).cqTail + 32 ≤ a →
          mread (placeEntry s r e).host a = mread s.host a)
    ∧ ((getQ s r).overflow ≠ [] ∨ ringFull s r = true →
      (getQ (placeEntry s r e) r).overflow = (getQ s r).overflow ++ [e] ∧ (placeEntry s r e).host = s.host)
    ∧ ∀ (it : Item) (n : Nat), 2 ^ 63 ≤ (cqEntryOf s it n).w0)
  ∧
  (
  ∀ (s : State) (d : Nat) (desc : List Byte),
    let t := consume s d desc
    mnat t.host (sqBase s d + 64 * (getQ s d).head) 8 = leAt desc 0 8 % 2 ^ 63
      ∧ (getQ t d).head = ((getQ s d).head + 1) % sqSize s d
      ∧ (∀ a, a < sqBase s d + 64 * (getQ s d).head ∨ sqBase s d + 64 * (getQ s d).head + 8 ≤ a → mread t.host a = mread s.host a)
      ∧ ∀ e, e ≠ d → getQ t e = getQ s e)

/-- Fetching and the timed events of the queues (R166, R168, R290, R304, R305, R310): a turn serves the next queue of the round robin up
to 8 descriptors; a held descriptor that is now admitted is inserted; keys of completed items expire; coalesced entries are signalled.
It states that exec answers a next state, under hypotheses on the state and the operands alone, for: descriptorFetch, heldDescriptorInsert,
ikeyHeldInsert, ikeyExpiry, msixCoalesceTimeout. -/
def Obligations.QueueEngineCompletes : Prop :=
  ∀ (s : State),
    (∀ d, nextQueue s = some d → exec .descriptorFetch s = .next (fetchN 8 { s with qm := { s.qm with rr := d } } d))
    ∧ (∀ h s', s.qm.held.find? (fun h => (h.why == .flowFull && flowRoom s h.queue (newItem s h.queue h.desc)) && mayConsume s h.queue) = some h →
        checkIn s h.queue h.desc = (s', none) → exec .heldDescriptorInsert s = .next s')
    ∧ (∀ h s', s.qm.held.find? (fun h => h.why == .ikeyFull && mayConsume s h.queue) = some h →
        checkIn s h.queue h.desc = (s', none) → exec .ikeyHeldInsert s = .next s')
    ∧ (∃ t, exec .ikeyExpiry s = .next t
        ∧ (∀ k ∈ s.qm.ikeys, k.item = none → k.doneAt + rfld s Reg.QM_IKEY_CTL 0 11 0 * 1000000000 ≤ now s → k ∉ t.qm.ikeys)
        ∧ (∀ k ∈ s.qm.ikeys, k.item = none → k.doneAt + rfld s Reg.QM_IKEY_CTL 0 11 0 * 1000000000 ≤ now s →
            fld k.ikey 47 0 ≤ tgetD t.qm.floors (k.fn * 65536 + fld k.ikey 63 48) 0)
        ∧ ∀ c, tgetD s.qm.floors c 0 ≤ tgetD t.qm.floors c 0)
    ∧ (∀ d, (getQ s d).unsig > 0 → (getQ s d).unsigAt + 1000 * rfld s Reg.QM_Q_CFG d 43 32 ≤ now s →
        exec (.msixCoalesceTimeout d) s = .next (signalRing s d))

/-! ## Plans and their clauses (chapters 4 to 8) -/

/-- NOP and the release of items (R78, R300, R303, R312): a NOP is ready with no other change; an item that is ready, whose turn it is and
whose data has moved reaches its commit point, and is released when its completion finds a place and held with its effects otherwise; a
failed item posts its completion; one whose turn it is not waits.
It states that exec answers a next state, under hypotheses on the state and the operands alone, for: nop, commitPoint. -/
def Obligations.ItemsReachTheirCommitPoint : Prop :=
  ∀ (s : State) (id : Nat) (it : Item),
    (itemAt s id 0x7F 0 = some it → ∃ t, exec (.nop id) s = .next t ∧ t = { s with qm := { s.qm with items := t.qm.items } }
      ∧ getItem t id = some { it with phase := .ready, r0 := 0, r1 := 0 } ∧ ∀ j, j ≠ id → getItem t j = getItem s j)
    ∧ (getItem s id = some it → it.phase = .ready → it.status = 0 → it.isDup = false →
        (itemOnTile s it = true → orderedMay s id it = true → dataMoving s id = false →
          let u := modItem (commitResults s id it) id (fun x => { x with reachedAt := now s })
          (hasPlace u it = true → exec (.commitPoint id) s = .next (releaseNow u id it))
          ∧ (hasPlace u it = false → exec (.commitPoint id) s = .next (modItem u id (fun x => { x with phase := .held }))))
        ∧ (orderedMay s id it = false ∨ dataMoving s id = true → exec (.commitPoint id) s = .next s))
    ∧ (getItem s id = some it → it.phase = .held → hasPlace s it = true → exec (.commitPoint id) s = .next (releaseNow s id it))
    ∧ (getItem s id = some it → it.phase = .ready → it.status ≠ 0 ∨ it.isDup = true → continues s it = false →
        exec (.commitPoint id) s = .next (complete s id))
    ∧ (getItem s id = some it → it.phase = .committed → endsLater s id = false → continues s it = false →
        exec (.commitPoint id) s = .next (complete s id))

/-- LOAD_PLAN (R68, R69, R84): the first failing check of the body and of steps 1 to 3 fails the item; else the image of host memory stands
in the plan store, the first failing check of steps 4 to 8 fails the item, and otherwise its plan is LOADING with its new tables, and
the item is ready. Tables that do not fit return the plan to ABSENT.
UNLOAD_PLAN and UNLOAD_COMPLETE (R70): a READY or BOUND plan enters UNLOADING with the item as one that waits for it; a plan in
UNLOADING with no active item returns to ABSENT, and the items that wait complete.
It states that exec answers a next state, under hypotheses on the state and the operands alone, for: loadPlan, unloadPlan, unloadComplete. -/
def Obligations.PlansLoadAndUnload : Prop :=
  (
  ∀ (s : State) (id : Nat) (it : Item), itemAt s id 0x02 0 = some it →
    let pid := it.body 32 2
    let len := it.body 36 4
    let m := mcopy [] s.host (it.body 40 8) 0 len
    let g := readImage m
    let off := (storeFit s len).getD 0
    let w := dramWrite s 0 (planStore s + off) (mreads m 0 len)
    let u := setPlan w it.fn pid { st := 1, image := m, imageLen := len, storeAt := off }
    (∀ st, loadEarly s it = some st → exec (.loadPlan id) s = .next (failItem s id st 0 0))
    ∧ (loadEarly s it = none → ∀ st, imageCheck m len (layMem w g) (heldLayout w it.fn) = some st →
        exec (.loadPlan id) s = .next (failItem w id st 0 0))
    ∧ (loadEarly s it = none → imageCheck m len (layMem w g) (heldLayout w it.fn) = none →
        (∀ t, allocTables it.fn g (layMem w g) g.stids u = some t → exec (.loadPlan id) s = .next (itemReady t id 0 0))
        ∧ (allocTables it.fn g (layMem w g) g.stids u = none →
            exec (.loadPlan id) s = .next (failItem (dropPlan u it.fn pid) id St.resourceUnavailable 0 0))))
  ∧
  (
  (∀ (s : State) (id : Nat) (it : Item), itemAt s id 0x03 0 = some it →
    let pid := it.body 32 2
    (1023 < pid → exec (.unloadPlan id) s = .next (failItem s id St.invalidField 0 0))
    ∧ (pid ≤ 1023 → planState s it.fn pid = 1 → exec (.unloadPlan id) s = .next s)
    ∧ (pid ≤ 1023 → planState s it.fn pid = 0 ∨ planState s it.fn pid = 4 →
        exec (.unloadPlan id) s = .next (failItem s id St.planNotLoaded 0 0))
    ∧ (pid ≤ 1023 → planState s it.fn pid = 2 ∨ planState s it.fn pid = 3 → orderedMay s id it = true →
        let u := modItem (startUnload (deadlineCheck s it (now s)) it.fn pid [id]) id (fun x => { x with phase := .committed, entry := none })
        exec (.unloadPlan id) s = .next (schedule (leaveFlow (endEntries u id) it.fn it.flowKey id))
          ∧ planState u it.fn pid = 4 ∧ ∀ l ∈ u.ing.layouts, l.2.bound ≠ some (it.fn, pid)))
  ∧ ∀ (s : State) (fn pid : Nat) (p : Plan), getPlan s fn pid = some p → p.st = 4 →
      (planActive s fn pid = 0 → p.unloaders = [] → exec (.unloadComplete fn pid) s = .next (dropPlan s fn pid))
      ∧ (planActive s fn pid = 0 → getPlan (dropPlan s fn pid) fn pid = none)
      ∧ (∀ u, planActive s fn pid = 0 → p.unloaders = [u] → ∃ a b, exec (.unloadComplete fn pid) s
          = .next (complete (modItem { dropPlan s fn pid with freeCtr := s.freeCtr + 2 } u (fun it => { it with r0 := a, r1 := b })) u))
      ∧ (planActive s fn pid ≠ 0 → exec (.unloadComplete fn pid) s = .next s))

/-- RUN_PLAN (R73, R74, R79): the first failing check fails the item, after its statistics area; else its run is recorded with its bindings
and waits for its grant, and memory is as it was.
RUN_GRANT, ENTRY_WAIT_GRANT and the checkpoint commands (R74, R77, R85, R168): every waiting item, in order of deadline, whose tiles are
free is granted and one whose tiles are not holds back none; a free entry goes to the waiter that began waiting first; a checkpoint is
taken after CKPT_US, its lines are written to the slot whose turn it is, and it ends as the task's new checkpoint.
It states that exec answers a next state, under hypotheses on the state and the operands alone, for: entryWaitGrant, runPlan, runGrant,
checkpointTimer, checkpointComplete. -/
def Obligations.RunsStartAndCheckpoint : Prop :=
  (
  ∀ (s : State) (id : Nat) (it : Item), getItem s id = some it → it.opcode = 0x01 → it.phase = .queued → it.msg = none → it.dupOf = none →
    headOfFlow s id it = true → it.abortBy = [] →
    (planState s it.fn (it.body 32 2) = 1 → exec (.runPlan id) s = .next s)
    ∧ (∀ st, planState s it.fn (it.body 32 2) ≠ 1 → runCheck s it = .error st →
        exec (.runPlan id) s = .next (failItem (writeArea s (newRun it) (now s)) id st 0 0))
    ∧ (∀ binds, runCheck s it = .ok binds → planState s it.fn (it.body 32 2) ≠ 1 →
        ∃ t r, exec (.runPlan id) s = .next t ∧ getRun t id = some r ∧ r.fn = it.fn ∧ r.planId = it.body 32 2 ∧ r.binds = binds
          ∧ r.workAddr = it.body 48 8 ∧ r.workLen = it.body 36 4 * 4096 ∧ r.statsAddr = it.body 56 8 ∧ r.arrival = it.arrival
          ∧ getItem t id = some { it with phase := .running } ∧ t.plans.grantWait = s.plans.grantWait ++ [id]
          ∧ t.dram = s.dram ∧ t.host = s.host))
  ∧
  (
  ∀ (s : State),
    (∀ pre id post t, grantOrder s = pre ++ id :: post → (∀ j ∈ pre, grantItem s j = none) → grantItem s id = some t →
      exec .runGrant s = .next (grantAll { t with plans := { t.plans with grantWait := t.plans.grantWait.filter (· != id) } } post))
    ∧ ((∀ j ∈ s.plans.grantWait, grantItem s j = none) → exec .runGrant s = .next s)
    ∧ (∀ id k it t, s.sched.waiters.find? (waiterMay s) = some (.task id k) → getItem s id = some it → getTask s id k = some t →
        exec .entryWaitGrant s = .next (schedule (taskEntryIn
          { s with sched := { s.sched with waiters := s.sched.waiters.filter (· != .task id k) } } id it k)))
    ∧ (∀ d, s.sched.waiters.find? (waiterMay s) = some (.desc d) →
        exec .entryWaitGrant s = .next (retryHeld s (fun h => h.queue == d && h.why == .entries)))
    ∧ (∀ id k r t, getRun s id = some r → getTask s id k = some t →
        let g := planImage s r.fn r.planId
        let due := t.since + 1000 * g.ckptUs
        (taskRuns s id k = true → t.ended = false → t.writing = none → due ≤ now s →
          ∃ u v, exec (.checkpointTimer id k) s = .next u ∧ getTask u id k = some v ∧ v.writing = some (ckState t).1 ∧ v.unitsW = (ckState t).2
            ∧ v.rangesW = t.ranges.length ∧ v.since = now s ∧ v.ctxW.isSome = decide (due + 64000 ≤ now s) ∧ v.st = t.st ∧ v.ck = t.ck
            ∧ u.dram = (writeLines (ckptIrq s id k) r g t (ckState t).1).dram)
        ∧ (now s < due → exec (.checkpointTimer id k) s = .next s)
        ∧ (t.writing = none → exec (.checkpointComplete id k) s = .next s)
        ∧ (∀ w, t.writing = some w → w.marks = [] → ∃ u v r', exec (.checkpointComplete id k) s = .next u
            ∧ getRun u id = some r' ∧ r'.checkpoints = r.checkpoints + 1 ∧ getTask u id k = some v
            ∧ v.ck = w ∧ v.ctxCk = t.ctxW ∧ v.writing = none ∧ v.ckSeq = t.ckSeq + 1 ∧ v.units = t.units.drop t.unitsW
            ∧ v.ranges = t.ranges.drop t.rangesW ∧ u.dram = (writeRecord s r g t).dram)))

/-- SCAN_BATCH, FILTER_BATCH, COMPUTE_BATCH and OUTPUT_BATCH (R79, R93 to R113, R513, R514): a scan claims a segment and checks it, and takes
block after block of it; with a batch at hand and every value in range, each other clause takes it, counts its rows in and out, and hands
its own rows on; OUTPUT writes them, by row number or in sequence, and fails the item at the first row its buffer cannot take.
It states that exec answers a next state, under hypotheses on the state and the operands alone, for: scanBatch, filterBatch, computeBatch,
outputBatch. -/
def Obligations.RowClausesProcessABatch : Prop :=
  ∀ (s : State) (id k pos : Nat),
    (∀ x n u, ctxAt s id k 0 Kind.scan = some x → inputsEmpty x.t = true → x.t.st.srcDone = false → x.t.st.claim = none →
      x.t.st.tabOk = true ∨ descCheck s (winOk s x.run.fn) (scanTable s x).addr = none →
      claimUnit (modSt s id k (fun t => { t with tabOk := true })) id k x.t.pipe x.g = some (n, u) →
      winOk u x.run.fn ((scanTable s x).segdir + 32 * n) 32 = true → poisonedIn u ((scanTable s x).segdir + 32 * n) 32 = false →
      let sg := readSeg u.dram (scanTable s x) n
      sg.rows ≠ 0 → segCheck u x.run.fn (scanTable s x) sg (List.range (scanTable s x).ncols) = none →
      exec (.scanBatch id k) s = .next (modSt u id k (fun q => { q with
        claim := some n, block := 0, seg := some (segView u sg ((scanEnts x).map (·.1))), segments := q.segments + 1 })))
    ∧ (∀ x n v bt live, ctxAt s id k 0 Kind.scan = some x → inputsEmpty x.t = true → x.t.st.srcDone = false → x.t.st.claim = some n →
      x.t.st.seg = some v → x.t.st.tabOk = true ∨ descCheck s (winOk s x.run.fn) (scanTable s x).addr = none →
      let s1 := modSt s id k (fun t => { t with tabOk := true })
      scanBlock s1 x (scanTable s x) v n x.t.st.block = .ok (bt, live) →
        let done := 512 * (x.t.st.block + 1) ≥ v.rows
        let u := countClause (modSt (scanTouch (markBlock s1 id k) x v x.t.st.block (! bt.rows.isEmpty)) id k (fun t => { t with
          claim := if done then none else some n, seg := if done then none else some v, block := if done then 0 else x.t.st.block + 1,
          scanned := t.scanned + live })) id k x.c bt.brows bt.rows.length 0 0
        exec (.scanBatch id k) s = .next (finishCmd u id k x (emit u id k x bt)))
    ∧ (∀ s1 x b tab, batchAt s id k pos Kind.filter = some (s1, x, b) →
        let spans := (setsToCheck x).map (setSpan x) ++ (tablesToBuild x).flatMap (allSpans s1 x.g x.run)
        let tables := (tablesToBuild x).foldl (fun ts h => match inHashTable s1 x h with
          | some t => tset ts h t
          | none => ts) (filterState x).2
        let e := termEnv s1 x (colsHere s1 x) tables
        spansBad s1 spans = false → (∀ i ∈ setsToCheck x, setOrdered (e.sets i) = true) → (∀ h ∈ tablesToBuild x, (tget tables h).isSome = true) →
        termsOver e (colsHere s1 x) (x.g.post x.c) b.rows (x.g.filterTerms x.c) 0 = .ok tab →
        let s2 := spansTouch s1 x.run.fn spans
        let s3 := if setsToCheck x = [] ∧ tablesToBuild x = [] then s2
          else setCst s2 id k x (.filter ((filterState x).1 ++ setsToCheck x) tables)
        let cams := ((x.g.usedTerms x.c).filter (fun t => t.top == 0x0B)).flatMap (fun t =>
          (b.rows.filter (fun r => rowCol r t.col != nullLane)).map (fun r => camFind s3 x.run.fn (camKey t r)))
        let s4 := if cams = [] then s3
          else camCount (camBefore (((getItem s3 id).map (·.lc)).getD 0) s3) cams.length (cams.filter (fun h => match h with
            | some y => decide (y.count > 1)
            | none => false)).length
        let keep := (b.rows.zipIdx).filter (fun p => runPostfix (fun t => ((tgetD tab t [])[p.2]?).getD none) (x.g.post x.c) [] == some true)
        let rows := keep.map (·.1)
        let brows := if rows.length < x.g.cn x.c 2 2 ∧ rows.length < b.brows then rows.length else b.brows
        let u := countClause (popBatch s4 id k pos) id k x.c b.rows.length rows.length 0 0
        exec (.filterBatch id k pos) s = .next (finishCmd u id k x (emit u id k x { b with rows := rows, brows := brows })))
    ∧ (∀ s1 x b rows sat wrap, batchAt s id k pos Kind.compute = some (s1, x, b) →
        copsOver x.c.ovf x.c.rnd x.g.valInfo x.run.binds (x.g.cops x.c)
          (colsHere s1 x) b.rows = .ok (rows, sat, wrap) →
        let u := countClause (popBatch s1 id k pos) id k x.c b.rows.length rows.length sat wrap
        exec (.computeBatch id k pos) s = .next (finishCmd u id k x (emit u id k x { b with rows := rows })))
    ∧ (∀ s1 x b, batchAt s id k pos Kind.output = some (s1, x, b) → bitOf (x.g.cb x.c 4) 0 = true →
        let bd := (x.run.binds[x.g.cn x.c 2 2]?).getD ⟨false, false, 0#72, 0, 0⟩
        let w := outWidth x.g x.c
        let num := fun (r : Row) => laneInt (rowCol r (x.g.cb x.c 5))
        (∀ r ∈ b.rows, ∃ i : Nat, num r = some (i : Int) ∧ (i + 1) * w ≤ bd.len) →
        exec (.outputBatch id k pos) s = .next (settleTask (countOutput (dataXfer (writeRows (popBatch s1 id k pos) bd.addr w (x.g.cb x.c 1)
          (outCols x.g x.c) (b.rows.map (fun r => (((num r).getD 0).toNat, r)))) id none false (b.rows.length * w))
          id k x.c b.rows.length b.rows.length) id k))
    ∧ (∀ s1 x b, batchAt s id k pos Kind.output = some (s1, x, b) → bitOf (x.g.cb x.c 4) 0 = false →
        let slot := x.g.cn x.c 2 2
        let bd := (x.run.binds[slot]?).getD ⟨false, false, 0#72, 0, 0⟩
        let w := outWidth x.g x.c
        let z := reuseRanges x.t.reuse slot b.rows
        let start := tgetD x.run.outRows slot 0
        let places := z.2.1 ++ (z.1.zipIdx).map (fun p => (start + p.2, p.1))
        (∀ p ∈ places, (p.1 + 1) * w ≤ bd.len) →
        let u := countOutput (dataXfer (writeRows (popBatch s1 id k pos) bd.addr w (x.g.cb x.c 1) (outCols x.g x.c) places)
          id none false (places.length * w)) id k x.c b.rows.length places.length
        let v := match getRun u id with
          | some r => setRun u id { r with outRows := tset r.outRows slot (start + z.1.length) }
          | none => u
        exec (.outputBatch id k pos) s = .next (settleTask (modTask v id k (fun t => { t with
          reuse := z.2.2
          ranges := t.ranges ++ x.t.reuse.filter (fun r => ! z.2.2.contains r)
            ++ (if z.1.isEmpty then [] else [(slot, start, z.1.length)]) })) id k))
    ∧ (∀ s1 x b p ps qs, batchAt s id k pos Kind.output = some (s1, x, b) → bitOf (x.g.cb x.c 4) 0 = true → b.rows = ps ++ p :: qs →
        let bd := (x.run.binds[x.g.cn x.c 2 2]?).getD ⟨false, false, 0#72, 0, 0⟩
        let w := outWidth x.g x.c
        let num := fun (r : Row) => laneInt (rowCol r (x.g.cb x.c 5))
        (∀ r ∈ ps, ∃ i : Nat, num r = some (i : Int) ∧ (i + 1) * w ≤ bd.len) → beyond bd.len w (num p) = true →
        exec (.outputBatch id k pos) s = .next (failRun (countOutput (dataXfer (writeRows (popBatch s1 id k pos) bd.addr w (x.g.cb x.c 1)
          (outCols x.g x.c) (ps.map (fun r => (((num r).getD 0).toNat, r)))) id none false (ps.length * w))
          id k x.c b.rows.length ps.length) id St.outputOverflow (rowPlace x.c b p)))
    ∧ (∀ s1 x b ps p qs, batchAt s id k pos Kind.output = some (s1, x, b) → bitOf (x.g.cb x.c 4) 0 = false →
        let slot := x.g.cn x.c 2 2
        let bd := (x.run.binds[slot]?).getD ⟨false, false, 0#72, 0, 0⟩
        let w := outWidth x.g x.c
        let z := reuseRanges x.t.reuse slot b.rows
        z.2.1 ++ (z.1.zipIdx).map (fun q => (tgetD x.run.outRows slot 0 + q.2, q.1)) = ps ++ p :: qs →
        (∀ q ∈ ps, (q.1 + 1) * w ≤ bd.len) → bd.len < (p.1 + 1) * w →
        exec (.outputBatch id k pos) s = .next (failRun (countOutput (dataXfer (writeRows (popBatch s1 id k pos) bd.addr w (x.g.cb x.c 1)
          (outCols x.g x.c) ps) id none false (ps.length * w)) id k x.c b.rows.length ps.length) id St.outputOverflow (rowPlace x.c b p.2)))

/-- JOIN_BUILD_BATCH and JOIN_PROBE_BATCH (R114 to R124): a build keeps the rows without a NULL key in the task's region, in order, or in the
stages of their partitions, written out at the end of its input; a probe of the CAM, of a partition, and of a hash table that fits hand on
the rows of the join's kind; a table that does not fit fails the run with JOIN_OVERFLOW.
It states that exec answers a next state, under hypotheses on the state and the operands alone, for: joinBuildBatch, joinProbeBatch. -/
def Obligations.JoinClausesProcessABatch : Prop :=
  ∀ (s : State) (id k pos : Nat) (s1 : State) (x : Ctx),
    (∀ b, batchAt s id k pos Kind.build = some (s1, x, b) →
      let good := b.rows.filter (fun r => ! nullKey (rowKey (x.g.keyCols x.c) r))
      let lanes := fun (r : Row) => rowKey (x.g.keyCols x.c) r ++ rowKey (x.g.payCols x.c) r
      let part := fun (r : Row) => hashKey (rowKey (x.g.keyCols x.c) r) / 2 ^ (64 - (x.g.cb x.c 4 + x.g.cb x.c 5))
      let u := countClause (modSt (popBatch s1 id k pos) id k (fun t => { t with nullRows := t.nullRows + (b.rows.length - good.length) }))
        id k x.c b.rows.length good.length 0 0
      (x.g.cb x.c 0 = 0 → exec (.joinBuildBatch id k pos) s = .next (finishCmd u id k x (good.foldl
        (fun s r => s.bind (fun s => regionAppend s id k x (x.g.cb x.c 3) ((lanes r).flatMap pack9))) (some u))))
      ∧ (x.g.cb x.c 0 ≠ 0 → exec (.joinBuildBatch id k pos) s = .next (finishCmd u id k x ((good.foldl
        (fun a r => a.bind (fun a => stageRow id k x a (part r) (lanes r))) (some (u, stageOf x.t pos))).map
          (fun a => setCst a.1 id k x (.stage a.2))))))
    ∧ (∀ x0, batchAt s id k pos Kind.build = none → ctxAt s id k pos Kind.build = some x0 →
      let u := feed s id k pos
      ctxAt u id k pos Kind.build = some x → x.g.cb x.c 0 = 1 → x.t.st.flushed.contains pos = false → upstreamDone x.g x.t pos = true →
      headBatch x = none →
        exec (.joinBuildBatch id k pos) s = .next (finishCmd u id k x (((stageOf x.t pos).foldl
          (fun s q => s.bind (fun s => flushStage s id k x q.2)) (some u)).map
            (fun s => modSt (setCst s id k x (.stage [])) id k (fun t => { t with flushed := t.flushed ++ [pos] })))))
    ∧ (∀ b, batchAt s id k pos Kind.probe = some (s1, x, b) → x.g.cb x.c 3 = 0xFF →
      let z := camProbe (popBatch s1 id k pos) id x b.rows
      let u := countClause z.1 id k x.c b.rows.length z.2.length 0 0
      exec (.joinProbeBatch id k pos) s = .next (finishCmd u id k x (emitAll u id k x (splitBatch b z.2))))
    ∧ (∀ b, batchAt s id k pos Kind.probe = some (s1, x, b) → x.g.cb x.c 3 ≠ 0xFF → byPartition x = false →
      let bk := x.g.cb x.c 3
      let types := keyTypes s1 x.g bk
      let built := fun (s2 : State) (t : JTable) (nul : Bool) (total : Nat) =>
        let out := probeRows x.g x.c nul total (hitsOf types t) b.rows
        let u := countClause (popBatch s2 id k pos) id k x.c b.rows.length out.length 0 0
        exec (.joinProbeBatch id k pos) s = .next (finishCmd u id k x (emitAll u id k x (splitBatch b out)))
      (∀ table nul total, tgetD x.t.st.cst pos .empty = .probe table nul total → built s1 table nul total)
      ∧ (tgetD x.t.st.cst pos .empty = .empty → spansBad s1 (allSpans s1 x.g x.run bk) = false →
        let es := buildEntries (x.g.cb x.c 1) (allRows s1 x.g x.run bk)
        let total := es.length + nullCount x.g x.run bk
        (∀ t, buildTable types (probeArea x) (x.g.cb x.c 5) (x.g.tableEntry bk) es = some t →
          built (setCst (spansTouch s1 x.run.fn (allSpans s1 x.g x.run bk)) id k x (.probe t (decide (nullCount x.g x.run bk > 0)) total))
            t (decide (nullCount x.g x.run bk > 0)) total)
        ∧ (buildTable types (probeArea x) (x.g.cb x.c 5) (x.g.tableEntry bk) es = none →
          exec (.joinProbeBatch id k pos) s = .next (failBatch s1 id k x b St.joinOverflow (x.c.idx, 0, 0, 0)))))
    ∧ (∀ b, batchAt s id k pos Kind.probe = some (s1, x, b) → x.g.cb x.c 3 ≠ 0xFF → byPartition x = true →
      (∀ j < pos, tgetD x.t.st.inq j [] = []) →
      let bk := x.g.cb x.c 3
      let n := x.t.st.claim.getD 0
      let w := (brkCols s1 x.g bk).length
      let spans := unitSpans s1 x.g x.run bk w n
      let types := keyTypes s1 x.g bk
      let d := x.g.cb x.c 5
      let rows := (tgetD x.t.st.inq pos []).flatMap (·.rows)
      let chunks := chunkTables types (probeArea x) d (x.g.tableEntry bk)
        (buildEntries (x.g.cb x.c 1) ((unitLanes s1 x.g x.run bk w n).map (·.2.2))) { d := d }
      let nul := decide (nullCount x.g x.run bk > 0)
      let total := (allRows (spansTouch s1 x.run.fn spans) x.g x.run bk).length + nullCount x.g x.run bk
      let out := if x.g.cb x.c 0 = 0 then chunks.flatMap (fun t => probeRows x.g x.c nul total (hitsOf types t) rows)
        else probeRows x.g x.c nul total (fun key => chunks.flatMap (fun t => hitsOf types t key)) rows
      let spill := chunks.length > 1 ∧ x.g.cb x.c 0 ≠ 0 ∧ rows.length > 8 * x.g.cn x.c 44 4
      spansBad s1 spans = false →
        (spill → exec (.joinProbeBatch id k pos) s
          = .next (failRun (countClause s1 id k x.c rows.length 0 0 0) id St.joinOverflow (x.c.idx, 3, n, 0)))
        ∧ (¬ spill →
          let u := countClause (modSt (setCst (spansTouch s1 x.run.fn spans) id k x (.probe (chunks.getLastD { d := d }) nul total)) id k
            (fun t => { t with inq := tset t.inq pos [] })) id k x.c rows.length out.length 0 0
          exec (.joinProbeBatch id k pos) s = .next (finishCmd u id k x (emitAll u id k x (splitBatch b out)))))

/-- HASH_AGG_FOLD, HASH_AGG_MERGE and WINDOW_AGG_BATCH (R124 to R139): a batch folds row by row into the clause's groups; at the end of
its input the groups are flushed or handed on; a merge combines the entries of the units it claims; a window batch records its rows
against its state table and hands them on with their aggregates.
It states that exec answers a next state, under hypotheses on the state and the operands alone, for: hashAggFold, hashAggMerge,
windowAggBatch. -/
def Obligations.AggregatesProcessABatch : Prop :=
  ∀ (s : State) (id k pos : Nat) (s1 : State) (x : Ctx),
    (∀ b s2 tb, batchAt s id k pos Kind.agg = some (s1, x, b) → x.g.cb x.c 0 ≠ 2 →
      let type := fun (c : Nat) => (tgetD (colsHere s1 x) c ⟨0, 0, none⟩).type
      foldRows id k x ((x.g.keyCols x.c).map type) ((x.g.aggEnts x.c).map (fun e => type e.src)) b.rows
        (countClause (popBatch s1 id k pos) id k x.c b.rows.length 0 0 0, aggTable x.t pos) = .ok (s2, tb) →
      exec (.hashAggFold id k pos) s = .next (settleTask (setCst s2 id k x (.agg tb)) id k))
    ∧ (∀ x0, batchAt s id k pos Kind.agg = none → ctxAt s id k pos Kind.agg = some x0 →
      ctxAt (feed s id k pos) id k pos Kind.agg = some x → x.g.cb x.c 0 ≠ 2 → x.t.st.flushed.contains pos = false →
      upstreamDone x.g x.t pos = true → headBatch x = none →
        let u := modSt (setCst (feed s id k pos) id k x (.agg [])) id k (fun t => { t with flushed := t.flushed ++ [pos] })
        exec (.hashAggFold id k pos) s = .next (if x.g.cb x.c 0 = 1 then finishCmd u id k x (flushAgg u id k x (aggTable x.t pos))
          else emitGroups u id k x (withGlobal x.g x.c (aggTable x.t pos))))
    ∧ (∀ n tb, ctxAt s id k 0 Kind.agg = some x → x.g.cb x.c 0 = 2 → x.t.st.srcDone = false →
      claimUnit (markBlock s id k) id k x.t.pipe x.g = some (n, s1) →
      let b := x.g.cb x.c 3
      let lanes := ((x.g.producerClause b).map (fun c => x.g.slotLanes c)).getD 2
      let rows := unitLanes s1 x.g x.run b lanes n
      let spans := unitSpans s1 x.g x.run b lanes n
      let u := countClause (modSt s1 id k (fun t => { t with claim := some n })) id k x.c rows.length 0 0 0
      spansBad u spans = false →
      mergeEntries x (keyTypes s x.g b) (((x.g.brkInfo (layMem s x.g) b).2).map (·.type)) rows (aggTable x.t 0) = .ok tb →
        let v := spansTouch u x.run.fn spans
        exec (.hashAggMerge id k) s = .next (if brkBits x.g b > 0 then
            emitGroups (setCst v id k x (.agg [])) id k { x with t := { x.t with st := { x.t.st with claim := some n } } }
              (if n = 0 then withGlobal x.g x.c tb else tb)
          else setCst v id k x (.agg tb)))
    ∧ (ctxAt s id k 0 Kind.agg = some x → x.g.cb x.c 0 = 2 → x.t.st.srcDone = false →
      claimUnit (markBlock s id k) id k x.t.pipe x.g = none →
      let u := modSt s id k (fun t => { t with srcDone := true, flushed := t.flushed ++ [0], claim := none })
      exec (.hashAggMerge id k) s = .next (if brkBits x.g (x.g.cb x.c 3) > 0 then settleTask u id k
        else emitGroups (setCst u id k x (.agg [])) id k x (withGlobal x.g x.c (aggTable x.t 0))))
    ∧ (∀ b rows sat wrap recs, batchAt s id k pos Kind.window = some (s1, x, b) →
      let tab := (tget s1.plans.stabs (stKey x.run.fn (x.g.cb x.c 0))).getD ⟨[], 1, 20, 10, [], 0, 0, 0, 0, 0⟩
      let own := match tgetD x.t.st.cst pos .empty with
        | .window l => l
        | _ => []
      windowRows s1 x tab (recsBut x.run k pos) ((x.c.stateBytes - 64) / (9 * (1 + x.g.cb x.c 1 + 3 * x.g.cb x.c 4))) b.rows own
        = .ok (rows, sat, wrap, recs) →
      let u := countClause (setCst (spansTouch (popBatch s1 id k pos) x.run.fn (windowSpans x tab b.rows)) id k x (.window recs))
        id k x.c b.rows.length rows.length sat wrap
      exec (.windowAggBatch id k pos) s = .next (finishCmd u id k x (emit u id k x { b with rows := rows })))

/-- SORT_BATCH, TOPN_BATCH and the merges (R138 to R149): a batch joins the open run of its clause, which ends when it is full or late, and at
the end of input; TOPN keeps the first N rows in order with the batch's among them, and writes them at the end; a merge writes the rows
of its runs in their order, or hands them on in the order of their ranks.
It states that exec answers a next state, under hypotheses on the state and the operands alone, for: sortBatch, topnBatch,
mergeIntermediate, mergeFinal. -/
def Obligations.SortClausesProcessABatch : Prop :=
  ∀ (s : State) (id k pos : Nat) (s1 : State) (x : Ctx),
    (∀ b, batchAt s id k pos Kind.topn = some (s1, x, b) →
      let heap := match tgetD x.t.st.cst pos .empty with
        | .topn r => r
        | _ => []
      let rows := b.rows.foldl (fun h r => (insertRow (x.g.cb x.c 0) (runRow x.g x.c (colsHere s1 x) r) h).take (x.g.cn x.c 4 4)) heap
      exec (.topnBatch id k pos) s
        = .next (setCst (countClause (popBatch s1 id k pos) id k x.c b.rows.length 0 0 0) id k x (.topn rows)))
    ∧ (∀ x0 heap, batchAt s id k pos Kind.topn = none → ctxAt s id k pos Kind.topn = some x0 →
      ctxAt (feed s id k pos) id k pos Kind.topn = some x → x.t.st.flushed.contains pos = false → upstreamDone x.g x.t pos = true →
      headBatch x = none → tgetD x.t.st.cst pos .empty = .topn heap →
        let u := modSt (feed s id k pos) id k (fun t => { t with flushed := t.flushed ++ [pos] })
        exec (.topnBatch id k pos) s = .next (finishCmd u id k x ((sortClose u id k x heap).map (fun s => sealRegion s id k x (x.g.cb x.c 2)))))
    ∧ (∀ b v, batchAt s id k pos Kind.sort = some (s1, x, b) →
      let cur := (sortRun x.t pos).1
      let since := (sortRun x.t pos).2
      let passed := min x.t.st.skip b.rows.length
      let rows := (b.rows.drop passed).map (runRow x.g x.c (colsHere s1 x))
      let u := countClause (modSt (popBatch s1 id k pos) id k (fun t => { t with skip := t.skip - passed })) id k x.c rows.length 0 0 0
      let late := ! cur.isEmpty && decide (now u ≥ since + 32000)
      (if late then sortClose u id k x cur else some u) = some v →
      let cur2 := if late then [] else cur
      let full := 2 ^ x.g.cb x.c 3
      (cur2.length + rows.length < full → exec (.sortBatch id k pos) s
        = .next (keepRun v id k x (cur2 ++ rows) cur2.isEmpty (if cur2.isEmpty then now v else since)))
      ∧ (∀ w, cur2.length + rows.length ≥ full → sortClose v id k x (cur2 ++ rows.take (full - cur2.length)) = some w →
        exec (.sortBatch id k pos) s = .next (keepRun w id k x (rows.drop (full - cur2.length)) true (now w))))
    ∧ (∀ x0, batchAt s id k pos Kind.sort = none → ctxAt s id k pos Kind.sort = some x0 →
      ctxAt (feed s id k pos) id k pos Kind.sort = some x → x.t.st.flushed.contains pos = false → upstreamDone x.g x.t pos = true →
      headBatch x = none →
        let u := modSt (feed s id k pos) id k (fun t => { t with flushed := t.flushed ++ [pos] })
        exec (.sortBatch id k pos) s = .next (finishCmd u id k x ((sortClose u id k x (sortRun x.t pos).1).map
          (fun s => keepRun (sealRegion s id k x (x.g.cb x.c 2)) id k x [] false 0))))
    ∧ (∀ n, ctxAt s id k 0 Kind.merge = some x → x.g.cb x.c 0 = 0 → x.t.st.srcDone = false → claimUnit s id k x.t.pipe x.g = some (n, s1) →
      let kw := (mergeWidths x).1
      let pw := (mergeWidths x).2
      let b := (x.g.pipe x.t.pipe).ref
      let runs := ((brkRuns s1 x.g x.run b).drop (n * x.g.cn x.c 4 2)).take (x.g.cn x.c 4 2)
      let spans := headSpans s1 x.g x.run b ++ runs.map (runSpan s1.dram)
      let rows := sortRows kw (runs.flatMap (runRows s1.dram (kw + pw)))
      let u := countClause s1 id k x.c rows.length 0 0 0
      spansBad u spans = false →
      exec (.mergeIntermediate id k) s = .next (finishCmd u id k x (writeRun (spansTouch u x.run.fn spans) id k x (x.g.cb x.c 2) kw pw rows)))
    ∧ (ctxAt s id k 0 Kind.merge = some x → x.g.cb x.c 0 = 0 → x.t.st.srcDone = false → claimUnit s id k x.t.pipe x.g = none →
      exec (.mergeIntermediate id k) s = .next (settleTask (sealRegion (modSt s id k (fun t => { t with
        srcDone := true, flushed := t.flushed ++ [0] })) id k x (x.g.cb x.c 2)) id k))
    ∧ (ctxAt s id k 0 Kind.merge = some x → x.g.cb x.c 0 = 1 → x.t.st.srcDone = false → inputsEmpty x.t = true →
      (brkRuns s x.g x.run (x.g.pipe x.t.pipe).ref).length > x.g.cn x.c 4 2 →
      exec (.mergeFinal id k) s = .next (failRun s id St.mergeFanin (x.c.idx, 0, 0, 0)))
    ∧ (∀ n, ctxAt s id k 0 Kind.merge = some x → x.g.cb x.c 0 = 1 → x.t.st.srcDone = false → inputsEmpty x.t = true →
      (brkRuns s x.g x.run (x.g.pipe x.t.pipe).ref).length ≤ x.g.cn x.c 4 2 →
      claimUnit (markBlock s id k) id k x.t.pipe x.g = some (n, s1) →
      let range := finalRange s1 x n
      let u := countClause (modSt s1 id k (fun t => { t with claim := some n })) id k x.c range.length range.length 0 0
      spansBad u (finalSpans s1 x range) = false →
      exec (.mergeFinal id k) s = .next (finishCmd u id k x (emitAll (spansTouch u x.run.fn (finalSpans s1 x range)) id k x
          (toBatches 1 n (range.map (finalRow u x)))))
        ∧ range.Pairwise (fun a b => a.2 < b.2)
        ∧ ∀ r ∈ range, x.g.cn x.c 8 8 ≤ r.2 ∧ (bitOf (x.g.cb x.c 1) 0 = true → r.2 < x.g.cn x.c 8 8 + x.g.cn x.c 16 8))
    ∧ (ctxAt s id k 0 Kind.merge = some x → x.g.cb x.c 0 = 1 → x.t.st.srcDone = false → inputsEmpty x.t = true →
      (brkRuns s x.g x.run (x.g.pipe x.t.pipe).ref).length ≤ x.g.cn x.c 4 2 → claimUnit (markBlock s id k) id k x.t.pipe x.g = none →
      exec (.mergeFinal id k) s = .next (settleTask (modSt s id k (fun t => { t with
        srcDone := true, flushed := t.flushed ++ [0], claim := none })) id k))

/-- EXCHANGE_SEND and EXCHANGE_FRAGMENT_RECEIVE (R150 to R154): a sender cuts a batch into fragments for the tasks its rows go to, and sends
those that are ready in order while its outbox has room and their receiver credit; with its input ended it sends END. A receiver
takes the oldest fragment of a sender once, and a block becomes a batch when its last fragment is there.
It states that exec answers a next state, under hypotheses on the state and the operands alone, for: exchangeSend, exchangeFragmentReceive. -/
def Obligations.ExchangeMovesFragments : Prop :=
  ∀ (s : State) (id k pos : Nat) (s1 : State) (x : Ctx),
    (ctxAt s id k pos Kind.exchange = some x →
      (x.t.st.outPend ≠ [] → exec (.exchangeSend id k pos) s = .next (sendReady x id k x.t.st.outPend.length s))
      ∧ (∀ y b, x.t.st.outPend = [] → batchAt s id k pos Kind.exchange = some (s1, y, b) →
        (y.g.cb y.c 0 = 1 → poisonedIn s1 (splitBind y).addr (16 * (splitBind y).len) = false ∧ setOrdered (setLanes s1 (splitBind y)) = true) →
        exec (.exchangeSend id k pos) s = .next (sendBatch s1 id k pos y b))
      ∧ (∀ y, x.t.st.outPend = [] → batchAt s id k pos Kind.exchange = none → ctxAt (feed s id k pos) id k pos Kind.exchange = some y →
        y.t.st.endSent = false → upstreamDone y.g y.t pos = true → headBatch y = none →
        exec (.exchangeSend id k pos) s
          = .next (exchSettle (modSt (feed s id k pos) id k (fun t => { t with endSent := true })) id y.t.pipe pos)))
    ∧ (∀ r t f rest, getRun s id = some r → getTask s id k = some t → t.st.outPend = f :: rest →
        sumBy (fun q => fragBytes x q.rows.length) t.st.outbox + fragBytes x f.rows.length ≤ x.g.cn x.c 16 4 →
        inboxLoad x r t.pipe f.dst + fragBytes x f.rows.length ≤ x.g.cn x.c 12 4 →
        sendReady x id k 1 s = modSt s id k (fun q => { q with outbox := q.outbox ++ [f], outPend := rest }))
    ∧ (∀ b dst n sub rows, rows.length ≤ n →
        (fragsOf x b dst n sub rows).flatMap (·.rows) = rows
          ∧ ∀ f ∈ fragsOf x b dst n sub rows, f.dst = dst ∧ f.tag.unit = b.unit ∧ f.tag.block = b.block ∧ 1 ≤ f.rows.length ∧ f.rows.length ≤ fragRows x)
    ∧ (∀ sender t f, ctxAt s id k pos Kind.exchange = some x → tget x.run.tasks sender = some t →
      t.st.outbox.find? (fun f => f.dst == k && untaken x.t.st sender f) = some f →
      let u := modSt s id k (fun q => { q with inbox := q.inbox ++ [(sender, f)], marks := tset q.marks sender f.tag })
      (x.c.pos + 1 < (x.g.pipe x.t.pipe).ncl →
        exec (.exchangeFragmentReceive id k pos sender) s = .next (exchSettle (exchTake u id k x) id x.t.pipe pos))
      ∧ (∀ v, (x.g.pipe x.t.pipe).ncl ≤ x.c.pos + 1 → emitInbox id k x (x.t.st.inbox.length + 1) u = some v →
          exec (.exchangeFragmentReceive id k pos sender) s = .next (exchSettle v id x.t.pipe pos))
      ∧ ((x.g.pipe x.t.pipe).ncl ≤ x.c.pos + 1 → emitInbox id k x (x.t.st.inbox.length + 1) u = none →
          exec (.exchangeFragmentReceive id k pos sender) s = .next (failRun u id St.workAreaFull (x.c.idx, 0, 0, 0))))

/-! ## Scheduler power states and message ingest (chapters 8 to 10) -/

/-- The power states of a cluster (R160, R169): a free cluster is power-gated after SLEEP_US, or clock-gated when it is kept warm; a wake
starts its tiles and its placed entries; a clock-gated cluster on which an entry is placed becomes ACTIVE.
A tile starts with its control registers at their reset values, K = 1, at PC 0, running, with the kernel image in its program memory
(R195).
A write of SCHED_WIN_SEL selects and takes one snapshot for its own access path, and leaves those of other paths (R172).
It states that exec answers a next state, under hypotheses on the state and the operands alone, for: clusterWakeComplete,
clockGatedWakeDone, clusterPowerGate, schedWinSnapshot. -/
def Obligations.ClustersSleepAndWake : Prop :=
  (
  ∀ (s : State) (c : Nat),
    let cl := getCluster s c
    (∀ t, c < 16 → cl.st = .active ∨ cl.st = .clockGated → cl.freeSince = some t → t + 1000 * rfld s Reg.SCHED_WARM 0 31 16 ≤ now s →
      (keptWarm s c = true → exec (.clusterPowerGate c) s = .next (setCluster s c { cl with st := .clockGated }))
      ∧ (keptWarm s c = false → ∃ u, exec (.clusterPowerGate c) s = .next u ∧ (getCluster u c).st = .gated
          ∧ (getCluster u c).freeSince = none ∧ (∀ p ∈ clusterTiles c, tget u.cores p = none)
          ∧ (∀ p, p ∉ clusterTiles c → tget u.cores p = tget s.cores p) ∧ ∀ d, d ≠ c → getCluster u d = getCluster s d))
    ∧ (∀ t, cl.freeSince = some t → now s < t + 1000 * rfld s Reg.SCHED_WARM 0 31 16 → exec (.clusterPowerGate c) s = .next s)
    ∧ (cl.st = .clockGated → s.sched.entries.any (fun p => p.2.placed && (p.2.tile.map (· / 8)) == some c) = true →
        exec (.clockGatedWakeDone c) s = .next (schedule (startPlaced (setCluster s c { cl with st := .active, wakeEnd := 0 }) c)))
    ∧ (c < 16 → cl.st = .waking → cl.wakeEnd ≤ now s → kimgValid s = true →
        let u := ((clusterTiles c).filter (tileInService s)).foldl tileStart s
        let placed := u.sched.entries.any (fun p => p.2.placed && (p.2.tile.map (· / 8)) == some c)
        exec (.clusterWakeComplete c) s = .next (remakeAbsent (schedule (startPlaced (setCluster u c { cl with
          st := if placed then .active else .clockGated, wakeEnd := 0, freeSince := if placed then none else some (now u) }) c))))
    ∧ (now s < cl.wakeEnd → cl.st = .waking → exec (.clusterWakeComplete c) s = .next (remakeAbsent s)))
  ∧
  (
  ∀ (s : State) (p : Nat),
    let c := getCore (tileStart s p) p
    c.pc = 0 ∧ c.run = .run ∧ srOf c = 0x8000 ∧ c.emask = 0 ∧ c.evpend = 0 ∧ c.epc = 0 ∧ c.esr = 0 ∧ c.ecause = 0 ∧ c.eaddr = 0
      ∧ c.ebase = 0x400 ∧ c.winb = 0 ∧ c.fntag = 0 ∧ c.slim = 0x100000 ∧ c.uplo = 0x4000 ∧ c.uphi = BitVec.ofNat 24 (progWords p - 1)
      ∧ c.udlo = 0x100000 ∧ c.udhi = BitVec.ofNat 24 (dataEnd p - 1) ∧ c.timer = none
      ∧ (∀ a < 32768, mread c.mem a = mread s.dram (rfld s Reg.TILE_KIMG 0 39 12 * 4096 + a))
      ∧ (∀ q, q ≠ p → tget (tileStart s p).cores q = tget s.cores q) ∧ (tileStart s p).dram = s.dram)
  ∧
  (
  ∀ (s : State) (p : Path) (v : Nat), Reaches s p Reg.SCHED_WIN_SEL →
    let u := selPut (dropHalves s p) p Reg.SCHED_WIN_SEL v
    ∃ t, exec (.schedWinSnapshot p v) s = .next t ∧ tget t.sched.snaps (pathNum p) = some (schedSnap u (selGet u p Reg.SCHED_WIN_SEL))
      ∧ (∀ q, pathNum q ≠ pathNum p → tget t.sched.snaps (pathNum q) = tget s.sched.snaps (pathNum q))
      ∧ t.sched.entries = s.sched.entries ∧ t.sched.flows = s.sched.flows)

/-- A dropped message creates no item and sends no reply, and adds 1 to the saturating counter of its reason (R178).
INGEST_FRAME (R174, R177, R178, R183, R184): what a port that is up does with a frame, by Table 9-1 and in the order of Table 9-3.
It states that exec answers a next state, under hypotheses on the state and the operands alone, for: ingestFrame. -/
def Obligations.IngestServesTheFramesOfItsTable : Prop :=
  (
  ∀ (s : State) (port k layout key rx : Nat),
    let t := drop s port k layout key rx
    tgetD (getPort t port).drops k 0 = satAdd 32 (tgetD (getPort s port).drops k 0) 1
      ∧ (∀ j, j ≠ k → tgetD (getPort t port).drops j 0 = tgetD (getPort s port).drops j 0)
      ∧ (∀ q, q ≠ port → getPort t q = getPort s q)
      ∧ t.qm.items = s.qm.items ∧ t.plans = s.plans ∧ t.out.frames = s.out.frames ∧ t.ing.cache = s.ing.cache ∧ t.ing.floors = s.ing.floors)
  ∧
  (
  ∀ (s : State) (port : Nat) (f : List Byte), port ≤ 1 → portsUp s = true → (getPort s port).down = false →
    let e := parseEth f
    let vid := portCtl s port 27 16
    let fits := ingestServes s = true ∧ portCtl s port 31 31 = 1 ∧ 14 ≤ f.length ∧ f.length + 4 ≤ 9216
      ∧ (e.tag = none → vid = 0) ∧ (∀ t, e.tag = some t → vid ≠ 0 ∧ t % 4096 = vid)
    let arp := portCtl s port 30 30 = 1 ∧ e.body.length ≥ 28 ∧ beAt e.body 0 8 = 0x0001080006040001 ∧ beAt e.body 24 4 = portIp4 s port
    let ndp := e.type = 0x86DD ∧ portCtl s port 29 29 = 1 ∧ e.body.length ≥ 64 ∧ beAt e.body 6 1 = 58 ∧ beAt e.body 40 1 = 135
        ∧ beAt e.body 48 16 = portIp6 s port
    (¬ fits → exec (.ingestFrame port f) s = .next (drop s port 0 0 0 (now s)))
    ∧ (fits → e.type = 0x0806 → arp → exec (.ingestFrame port f) s = .next (sendFrame s port (arpReply s port e)))
    ∧ (fits → e.type = 0x0806 → ¬ arp → exec (.ingestFrame port f) s = .next (drop s port 0 0 0 (now s)))
    ∧ (fits → ndp → exec (.ingestFrame port f) s = .next (sendFrame s port (naReply s port e)))
    ∧ (fits → e.type ≠ 0x0806 → ¬ ndp → ∀ k, parseIp s port e = .error k → exec (.ingestFrame port f) s = .next (drop s port k 0 0 (now s)))
    ∧ (fits → e.type ≠ 0x0806 → ¬ ndp → ∀ d, parseIp s port e = .ok d →
        (∀ k, k ≠ 5 → parseUdp s port d = .error k → exec (.ingestFrame port f) s = .next (drop s port k 0 0 (now s)))
        ∧ (parseUdp s port d = .error 5 → exec (.ingestFrame port f) s = .next (
            let p := (d.data.take (beAt d.data 4 2)).drop 8
            drop s port 5 (beAt p 4 1) (beAt p 8 8) (now s)))
        ∧ (∀ p, parseUdp s port d = .ok p →
            let layout := beAt p 4 1
            let key := beAt p 8 8
            let l := getLayout s layout
            (beAt p 6 2 = 0 → exec (.ingestFrame port f) s = .next (sendFrame
              (modPort s port (fun c => { c with keepalive := satAdd 16 c.keepalive 1 })) port (replyFrame f (replyEnvelope p 0 0))))
            ∧ (beAt p 6 2 ≠ 0 → l.bound = none ∨ l.valid = false → exec (.ingestFrame port f) s = .next (drop s port 6 layout key (now s)))
            ∧ (∀ b, beAt p 6 2 ≠ 0 → l.bound = some b → l.valid = true →
                (∀ c, cacheFind s key = some c → c.doneAt = none →
                  exec (.ingestFrame port f) s = .next (drop s port 7 layout key (now s)))
                ∧ (∀ c t u, cacheFind s key = some c → c.doneAt = some t → c.reply = some u →
                  exec (.ingestFrame port f) s = .next (sendFrame (modPort s port (fun c => { c with resent := satAdd 16 c.resent 1 })) port
                    (replyFrame f (u.take 16 ++ natBE 4 0 ++ u.drop 20))))
                ∧ (∀ c t, cacheFind s key = some c → c.doneAt = some t → c.reply = none → exec (.ingestFrame port f) s = .next s)
                ∧ (cacheFind s key = none → fld key 47 0 ≤ tgetD s.ing.floors (fld key 63 48) 0 →
                  exec (.ingestFrame port f) s = .next (drop s port 8 layout key (now s)))
                ∧ (cacheFind s key = none → tgetD s.ing.floors (fld key 63 48) 0 < fld key 47 0 →
                  (∀ u, cacheReserve s key = some u → exec (.ingestFrame port f) s = .next (admitMessage u port f p (now s) b.1 b.2))
                  ∧ (cacheReserve s key = none → exec (.ingestFrame port f) s = .next (drop s port 7 layout key (now s))))))))

/-- The reply cache and the floors (R184): DONE entries of 10 s and more are removed and raise their gateway's floor, PENDING entries stay,
and no floor falls; a write of ING_GW_FLOOR raises the floor of the selected gateway, and one lower than the floor changes nothing.
Layout memory and its validation (R181): memory is written while VALID is 0 and otherwise discarded; a write of VALID = 1 checks the
layout; a write of VALID = 0 is discarded while the layout is bound.
It states that exec answers a next state, under hypotheses on the state and the operands alone, for: replyCacheExpiry, layoutValidate,
layoutInvalidate, layoutMemWrite, gwFloorWrite. -/
def Obligations.RepliesAndLayouts : Prop :=
  (
  (∀ (s : State), ∃ t, exec .replyCacheExpiry s = .next t
    ∧ (∀ e ∈ s.ing.cache, ∀ d, e.doneAt = some d → d + 10000000000 ≤ now s →
        e ∉ t.ing.cache ∧ fld e.key 47 0 ≤ tgetD t.ing.floors (fld e.key 63 48) 0)
    ∧ (∀ e ∈ s.ing.cache, (∀ d ∈ s.ing.cache, d.key = e.key → d.doneAt = none) → e ∈ t.ing.cache)
    ∧ (∀ g, tgetD s.ing.floors g 0 ≤ tgetD t.ing.floors g 0) ∧ t.qm = s.qm ∧ t.dram = s.dram)
  ∧ ∀ (s : State) (p : Path) (v : Nat), Reaches s p Reg.ING_GW_FLOOR →
      let u := dropHalves s p
      let gw := fld (selGet u p Reg.ING_GW_SEL) 15 0
      ∃ t, exec (.gwFloorWrite p v) s = .next t
        ∧ tgetD t.ing.floors gw 0 = max (tgetD s.ing.floors gw 0) (fld v 47 0)
        ∧ ∀ g, g ≠ gw → tgetD t.ing.floors g 0 = tgetD s.ing.floors g 0)
  ∧
  (
  ∀ (s : State) (p : Path) (off : Nat) (bs : List Byte),
    let u := dropHalves s p
    let n := selLayout u p
    let l := getLayout u n
    (pathUp s p = true → pathFn p = 0 → denyClass s p (some (.layMem off)) = none → regOpen s p (.layMem off) = true →
      (l.valid = false → off + bs.length ≤ 4096 → ∃ t, exec (.layoutMemWrite p off bs) s = .next t
        ∧ (∀ a, mread (getLayout t n).mem a = if off ≤ a ∧ a < off + bs.length then bs.getD (a - off) 0 else mread l.mem a)
        ∧ (getLayout t n).valid = false ∧ ∀ m, m ≠ n → getLayout t m = getLayout s m)
      ∧ (l.valid = true → exec (.layoutMemWrite p off bs) s = .next u))
    ∧ (Reaches s p Reg.ING_LAYOUT_CTL →
      (l.valid = false → ∃ t, exec (.layoutValidate p) s = .next t ∧ (getLayout t n).err = (layoutCheck l.mem).1
        ∧ (getLayout t n).valid = decide ((layoutCheck l.mem).1 = 0) ∧ (getLayout t n).mem = l.mem
        ∧ ∀ m, m ≠ n → getLayout t m = getLayout s m)
      ∧ (l.valid = true → exec (.layoutValidate p) s = .next u)
      ∧ (l.bound = none → ∃ t, exec (.layoutInvalidate p) s = .next t ∧ (getLayout t n).valid = false ∧ (getLayout t n).mem = l.mem
        ∧ ∀ m, m ≠ n → getLayout t m = getLayout s m)
      ∧ (l.bound ≠ none → exec (.layoutInvalidate p) s = .next u)))

/-! ## Codec, table append, DMA engine and functions (chapters 3, 14 and 15) -/

/-- CODEC (R40 to R60, R295): the checks come first and fail the item with no effect; an encode takes every input that passes them, holds its
stream as its effect, and has the bytes taken and made as its results; a decode holds the bytes of its stream, or fails with the status and
the counts of the step that broke off.
TABLE_APPEND (R49, R56, R57, R294): the first failing check fails the item; no rows, and the item is ready with the table's generation and
rows; else the rows go into the open last segment and new ones, whose planes are written, and what publishes them is held as effects, the
generation last and one higher.
It states that exec answers a next state, under hypotheses on the state and the operands alone, for: codecEncode, codecDecode, tableAppend. -/
def Obligations.CodecItemsHoldTheirOutput : Prop :=
  (
  ∀ (s : State) (id : Nat) (it : Item), itemAt s id 0x22 0 = some it →
    let b := codecBody it
    let part := partOf s it.fn
    let n := b.inLen / 2 ^ b.esize
    let fl := flushList s b
    let flBad := rising fl = false ∨ ∃ f ∈ fl, f = 0 ∨ n ≤ f
    (codecCheck s it b = none ↔ b.inLen ≠ 2 ^ 32 - 1 ∧ b.outLen ≠ 2 ^ 32 - 1 ∧ b.nflush ≤ 4096 ∧ winIt s it b.inAddr b.inLen = true
      ∧ winIt s it b.outAddr b.outLen = true ∧ winIt s it b.flushAddr (4 * b.nflush) = true
      ∧ (b.decode = false → poisonedIn s b.inAddr b.inLen = false) ∧ poisonedIn s b.flushAddr (4 * b.nflush) = false)
    ∧ (b.decode = false →
      (∀ st, codecCheck s it b = some st → exec (.codecEncode id) s = .next (failItem s id st 0 0))
      ∧ (codecCheck s it b = none → flBad → exec (.codecEncode id) s = .next (failItem s id St.invalidField 0 0))
      ∧ (codecCheck s it b = none → ¬ flBad → b.inLen = 0 → exec (.codecEncode id) s = .next (itemReady s id 0 0))
      ∧ (codecCheck s it b = none → ¬ flBad → b.inLen ≠ 0 → b.outLen < b.inLen + 8 →
          exec (.codecEncode id) s = .next (failItem s id St.bufferTooSmall 0 0))
      ∧ (codecCheck s it b = none → ¬ flBad → b.inLen ≠ 0 → b.inLen + 8 ≤ b.outLen →
          let u := dramTouch (dramTouch s part b.flushAddr (4 * b.nflush)) part b.inAddr b.inLen
          let out := streamEncode b.esize fl (mreads s.dram b.inAddr b.inLen)
          exec (.codecEncode id) s = .next (itemReady (addEffects u id [.dram b.outAddr out]) id b.inLen out.length)
            ∧ u = { s with cache := u.cache }))
    ∧ (b.decode = true →
      let r := streamDecode (mreads s.dram b.inAddr b.inLen) b.outLen
      let u := dramTouch s part b.inAddr r.seen
      u = { s with cache := u.cache }
      ∧ (∀ st, codecCheck s it b = some st → exec (.codecDecode id) s = .next (failItem s id st 0 0))
      ∧ (codecCheck s it b = none → poisonedIn s b.inAddr r.seen = true → exec (.codecDecode id) s = .next (failItem u id St.dataPoisoned 0 0))
      ∧ (codecCheck s it b = none → poisonedIn s b.inAddr r.seen = false → r.status = 0 →
          exec (.codecDecode id) s = .next (itemReady (addEffects u id [.dram b.outAddr r.out]) id r.consumed r.out.length))
      ∧ (codecCheck s it b = none → poisonedIn s b.inAddr r.seen = false → r.status ≠ 0 →
          (r.consumed = 0 → exec (.codecDecode id) s = .next (failItem u id r.status 0 r.out.length))
          ∧ (r.consumed ≠ 0 → ∃ free : List Byte, free.length = b.outLen ∧ exec (.codecDecode id) s
              = .next (failItem { dramWrite u part b.outAddr free with freeCtr := s.freeCtr + 1 } id r.status r.consumed r.out.length)))))
  ∧
  (
  ∀ (s : State) (id : Nat) (it : Item), itemAt s id 0x50 0 = some it →
    let t := readTable s.dram (it.body 32 8)
    let es := srcEnts s it t.ncols
    let n := it.body 56 4
    let full := bitOf (it.body 63 1) 0
    let k := min n (if t.ncols ≤ 1024 then partRoom s t else 0)
    let news := segSplit (n / 65536 + 1) (n - k)
    let last := readSeg s.dram t (t.nsegs - 1)
    let bad := (appendCheck s it t es news full) <|> (if k = 0 then none else segCheck s it.fn t last (List.range t.ncols))
    (∀ st, bad = some st → exec (.tableAppend id) s = .next (failItem s id st 0 0))
    ∧ (bad = none → n = 0 → exec (.tableAppend id) s = .next (itemReady s id t.generation t.nrows))
    ∧ (bad = none → n ≠ 0 →
      let part := partOf s it.fn
      let z := writeSegs part es t.ncols t.nrows full (extendSeg part es last k s) (it.body 48 8 % 2 ^ 40) k news
      exec (.tableAppend id) s = .next (itemReady (openMarks (addEffects z.1 id (appendEffects t last k n z.2)) last.planes k full z.2) id
          (t.generation + 1) t.nrows)
        ∧ z.2.length = news.length ∧ (appendEffects t last k n z.2).getLast? = some (.dram (t.addr + 56) (natLE 8 (t.generation + 1)))
        ∧ z.1.host = s.host ∧ z.1.qm = s.qm))

/-- The codec loses nothing (R40 to R58): for every element size, every list of flush points and every input of whole elements, decoding
the encoded stream into room enough gives status 0, takes the whole stream, and makes exactly the input. -/
def Obligations.DecodeOfEncodeIsTheInput : Prop :=
  ∀ (esize : Nat) (flush : List Nat) (bs : List Byte) (outLen : Nat),
    esize ≤ 3 → bs.length % 2 ^ esize = 0 → bs.length < 2 ^ 48 - 1 → bs.length ≤ outLen →
    let w := streamEncode esize flush bs
    let r := streamDecode w outLen
    r.status = 0 ∧ r.consumed = w.length ∧ r.out = bs

/-- MOVE and its channels (R313 to R325): a MOVE is checked whole before its first segment and joins the queue of its level; channels
take waiting transfers; a segment moves its bytes at its end, and the last segment ends the item with the bytes written and the segments
done; a host read error, a failed read-back, poisoned data or an abort ends the item at that segment. A transfer of another requester
counts its segment and lets the requester go on.
A segment of a MOVE leaves every byte of DRAM and of host memory that it does not write (R316): the writes are those of its transform, at
DST and at AUX, in the memory its control word names.
It states that exec answers a next state, under hypotheses on the state and the operands alone, for: move, dmaChannelGrant, dmaSegmentEnd. -/
def Obligations.MovesRunSegmentBySegment : Prop :=
  (
  (∀ (s : State) (id : Nat) (it : Item) (e : Option Nat), itemAt s id 0x10 0 = some it →
    (∀ st, moveSegs s it = .error st → exec (.move (id, e)) s = .next (failItem s id st 0 0))
    ∧ (∀ segs k, moveSegs s it = .ok segs → listFails it segs e = some k → exec (.move (id, e)) s = .next (failItem s id St.dmaHostError k 0))
    ∧ (∀ segs st i, moveSegs s it = .ok segs → listFails it segs e = none → segsFail s it segs 0 = some (st, i) →
        exec (.move (id, e)) s = .next (failItem s id st i 0))
    ∧ (moveSegs s it = .ok [] → exec (.move (id, e)) s = .next (itemReady s id 0 0))
    ∧ (∀ segs, moveSegs s it = .ok segs → listFails it segs e = none → segsFail s it segs 0 = none → segs ≠ [] →
        let chain := bitOf (it.body 56 4) 16
        let x : Xfer := { fn := it.fn, level := it.lc, segs := segs, prog := if chain then it.body 40 8 else 0, chain := chain,
                          who := .move id }
        exec (.move (id, e)) s = .next (toEngine { s with dma := { s.dma with wait := s.dma.wait ++ [x] } } id)))
  ∧ (∀ s : State, exec .dmaChannelGrant s = .next (grantChans s.dma.wait { s with dma := { s.dma with wait := [] } }))
  ∧ (∀ (s : State) (x : Xfer) (c : Nat), s.dma.wait = [x] → freeChan s x.level = some c →
      ∃ t, exec .dmaChannelGrant s = .next t ∧ tget t.dma.chan c = some x ∧ t.dma.wait = [] ∧ t.dram = s.dram)
  ∧ (∀ (s : State) (c id : Nat) (x : Xfer) (g : Seg) (it : Item) (src back : Bool), tget s.dma.chan c = some x → x.segs[x.pos]? = some g →
      x.who = .move id → getItem s id = some it →
      (g.srcHost = true → src = true → g.count ≠ 0 →
        exec (.dmaSegmentEnd c (src, back)) s = .next (vfSettle (endAtBoundary (freeChannel s c) id St.dmaHostError x.pos)))
      ∧ (segPoisoned s g = true →
        exec (.dmaSegmentEnd c (src, back)) s = .next (vfSettle (endAtBoundary (freeChannel s c) id St.dataPoisoned x.pos)))
      ∧ (segPoisoned s g = false → (g.srcHost = true → src = false ∨ g.count = 0) →
          let u := segMove s (partOf s it.fn) g
          let readBack := g.dstHost = true ∧ fld g.ctl 12 11 = 2
          (readBack → back = true → exec (.dmaSegmentEnd c (src, back)) s = .next (vfSettle (endAtBoundary (freeChannel u c) id St.dmaHostError x.pos)))
          ∧ ((readBack → back = false) →
            let v := endOfCount (countSeg u c) x x.pos g
            let written := x.written + g.sizes.2.2.1 + g.sizes.2.2.2
            let stops := x.stop || itemFailed it || ! it.abortBy.isEmpty
            (stops = true → exec (.dmaSegmentEnd c (src, back)) s = .next (vfSettle (endAtBoundary (freeChannel v c) id St.aborted 0)))
            ∧ (stops = false → x.pos + 1 < x.segs.length → exec (.dmaSegmentEnd c (src, back)) s = .next (vfSettle { v with dma := { v.dma with
                chan := tset v.dma.chan c { x with pos := x.pos + 1, written := written } } }))
            ∧ (stops = false → x.segs.length ≤ x.pos + 1 →
                exec (.dmaSegmentEnd c (src, back)) s = .next (vfSettle (engineDone (freeChannel v c) id written x.segs.length))))))
  ∧ ∀ (s : State) (c id : Nat) (cmd : Option Nat) (x : Xfer) (g : Seg) (it : Item) (src back : Bool), tget s.dma.chan c = some x →
      x.segs[x.pos]? = some g → x.who = .data id cmd → getItem s id = some it → itemFailed it = false → it.abortBy = [] → x.stop = false →
      (g.srcHost = true → src = false) →
      let u := freeChannel (countSeg s c) c
      exec (.dmaSegmentEnd c (src, back)) s = .next (vfSettle (if cmd.isSome then ledTick u else u)))
  ∧
  (
  ∀ (s : State) (part : Nat) (g : Seg) (a : Nat), (∀ w ∈ segWrites s g, a < w.1 ∨ w.1 + w.2.length ≤ a) →
    let u := segMove s part g
    mread u.dram a = mread s.dram a ∧ mread u.host a = mread s.host a
      ∧ (g.dstHost = true → u.dram = s.dram) ∧ (g.dstHost = false → u.host = s.host))

/-- FN_RESIZE and RESIZE_UNIT_MOVE (R300, R303, R331 to R336): the checks in their order; units leave together and the item waits; the last
unit's move is the commit point, with the units moved and the DEVTIME of it as results.
A set of VF Enable makes functions 1 to NumVFs exist, and its clear resets every virtual function (R327, R336).
It states that exec answers a next state, under hypotheses on the state and the operands alone, for: fnResize, resizeUnitMove, vfEnable,
vfEnableClear. -/
def Obligations.ResizeMovesItsUnits : Prop :=
  (
  (∀ (s : State) (id : Nat) (it : Item), itemAt s id 0x60 4 = some it →
    let b := rzBody it
    (rzEarlier s it = true → exec (.fnResize id) s = .next s)
    ∧ (∀ st, rzEarlier s it = false → rzCheck s b = some st → exec (.fnResize id) s = .next (failItem s id st 0 0))
    ∧ (rzEarlier s it = false → rzCheck s b = none → b.count = 0 → b.hasFrom = true →
        (gateOpen s id it = true → exec (.fnResize id) s = .next (commitNow s id 0 (now s)))
        ∧ (gateOpen s id it = false → exec (.fnResize id) s = .next s))
    ∧ (rzEarlier s it = false → rzCheck s b = none → b.count ≠ 0 ∨ b.hasFrom = false →
        let r : Resize := { item := id, kind := b.kind, fromFn := if b.hasFrom then b.src else b.dst, toFn := b.dst,
                            zero := b.zflags == 1, left := if b.hasFrom then rzUnits b else [0], moved := 0,
                            waitFor := (s.qm.items.filter (fun p => p.2.fn == b.src && p.1 != id)).map (·.1) }
        exec (.fnResize id) s = .next (toEngine { s with fns := { s.fns with resize := some r } } id)))
  ∧ (∀ (s : State) (u : Nat) (r : Resize), s.fns.resize = some r → u ∈ r.left →
      (r.kind = 1 → hosts s u ≠ [] → exec (.resizeUnitMove u) s = .next (schedule (standingRemake s r.fromFn u)))
      ∧ (r.kind = 9 → r.zero = true → rzWaited s r = true → exec (.resizeUnitMove u) s = .next (startZero s r)))
  ∧ ∀ (s : State) (u : Nat) (r : Resize), s.fns.resize = some r → u ∈ r.left → (r.kind = 1 → hosts s u = []) →
      ¬ (r.kind = 9 ∧ r.zero = true ∧ rzWaited s r = true) →
      (unitMay s r u = false ∨ rzMay s r (unitGroup r u).length = false → exec (.resizeUnitMove u) s = .next s)
      ∧ (unitMay s r u = true → rzMay s r (unitGroup r u).length = true →
        let us := unitGroup r u
        let v := assignNow (unitsTo s r us) r
        let q := { r with left := r.left.filter (fun x => ! us.contains x), moved := r.moved + us.length }
        (q.left ≠ [] → exec (.resizeUnitMove u) s = .next (schedule { v with fns := { v.fns with resize := some q } }))
        ∧ (q.left = [] → exec (.resizeUnitMove u) s = .next (schedule (commitNow { v with fns := { v.fns with resize := none } }
            r.item (rzMoved { v with fns := { v.fns with resize := none } } q) (now { v with fns := { v.fns with resize := none } }))))))
  ∧
  (
  ∀ (s : State) (n : Nat), hostUp s = true →
    (s.fns.vfEnable = false → s.fns.clearing = false → n ≤ 255 → ∃ t, exec (.vfEnable n) s = .next t
      ∧ (∀ f, fnExists t f = (decide (f ≤ n))) ∧ t.qm = s.qm ∧ t.dram = s.dram)
    ∧ (s.fns.vfEnable = false → exec .vfEnableClear s = .next s)
    ∧ (s.fns.vfEnable = true → exec .vfEnableClear s = .next (vfSettle
        (let u := (List.range s.fns.numVFs).foldl (fun s k => fnReset s (k + 1)) (vfResize s)
         { u with fns := { u.fns with vfEnable := false, numVFs := 0, clearing := true } }))))

/-! ## Cipher and digest engines (chapter 18) -/

/-- The key commands (R388, R389): a LOAD that passes its checks fills the whole slot and one that fails leaves every slot; an ERASE marks
the slot; every write of CIPH_KEY_CMD zeroises the staging data and leaves its error code; a slot marked is empty once it has no user.
A write of it by a core, over SMBus or by JTAG is denied in class 2.
It states that exec answers a next state, under hypotheses on the state and the operands alone, for: keyLoad, keyErase, stagingZeroise,
keyEraseDone. -/
def Obligations.KeyCommandsZeroiseTheStaging : Prop :=
  (∀ (s : State) (p : Path) (v : Nat), Reaches s p Reg.CIPH_KEY_CMD →
    let u := dropHalves s p
    let fn := pathFn p
    let w := keySelOf u p
    let slot := fld w 5 0
    let data := sub (tgetD u.ciph.staging fn []) 0 64
    let e := keyLoadErr u fn slot (fld w 11 8) (fld w 22 16) (fld w 28 24) data
    let ends := fun (t : State) (err : Nat) => tget t.ciph.staging fn = none ∧ tget t.ciph.err fn = some err
      ∧ (∀ f, f ≠ fn → tget t.ciph.staging f = tget s.ciph.staging f) ∧ ∀ k, k ≠ slot → keySlot t k = keySlot s k
    (fld v 1 0 = 1 → ∃ t, exec (.keyLoad p v) s = .next t ∧ ends t e
      ∧ (e = 0 → keySlot t slot = { typ := fld w 11 8, usage := fld w 28 24, key := data.take (fld w 22 16) })
      ∧ (e ≠ 0 → keySlot t slot = keySlot s slot))
    ∧ (fld v 1 0 = 2 → holder u.fns.keyFn slot = fn → ∃ t, exec (.keyErase p v) s = .next t ∧ ends t 0 ∧ slotPresent t slot = false)
    ∧ (fld v 1 0 = 2 → holder u.fns.keyFn slot ≠ fn → ∃ t, exec (.keyErase p v) s = .next t ∧ ends t 1 ∧ keySlot t slot = keySlot s slot)
    ∧ (fld v 1 0 = 0 ∨ fld v 1 0 = 3 → ∃ t, exec (.stagingZeroise p v) s = .next t
      ∧ ends t (tgetD s.ciph.err fn 0) ∧ keySlot t slot = keySlot s slot))
  ∧ (∀ (s : State) (k : Nat), (keySlot s k).erasing = true → slotUsers s k = 0 → ∃ t, exec (.keyEraseDone k) s = .next t
      ∧ (keySlot t k).key = [] ∧ (keySlot t k).typ = 0 ∧ (keySlot t k).erasing = false ∧ ∀ j, j ≠ k → keySlot t j = keySlot s j)
  ∧ ∀ (s : State) (i fn : Nat), denyClass s (.core i fn) (some (.reg Reg.CIPH_KEY_CMD)) = some 2
      ∧ denyClass s .smbus (some (.reg Reg.CIPH_KEY_CMD)) = some 2 ∧ denyClass s .jtag (some (.reg Reg.CIPH_KEY_CMD)) = some 2

/-- CIPHER and DIGEST (R393 to R400): the first failing check fails the item; a part with no data and nothing to make completes at once;
any other joins its engine with its key and its restored context. At its end a request frees its core; poisoned data fails the item,
else the engine makes the output, the tag or the context. A request of Sill ends with its digest, and a faulty comparison of it is Lockdown.
It states that exec answers a next state, under hypotheses on the state and the operands alone, for: cipher, digest, cipherMessageDone,
digestMessageDone. -/
def Obligations.EngineItemsCheckThenRun : Prop :=
  (∀ (s : State) (id : Nat) (it : Item), itemAt s id 0x20 0 = some it →
    let b := cBody it
    (∀ st, cipherCheck s it b = some st → exec (.cipher id) s = .next (failItem s id st 0 0))
    ∧ (cipherCheck s it b = none → b.len = 0 → (b.mac && b.last) = false → exec (.cipher id) s = .next (itemReady s id 0 0))
    ∧ (cipherCheck s it b = none → b.len ≠ 0 ∨ (b.mac && b.last) = true →
        let k := keySlot s b.kslot
        let rq : CReq := { item := id, prio := 1 + it.lc, kslot := b.kslot, typ := k.typ, key := k.key,
                           ctx := (restored s b.first b.wrap b.ctxAddr).getD [] }
        exec (.cipher id) s
          = .next (toEngine (ciphArrive (if b.srcHost then dataXfer s id none true (b.len + b.aadLen) else s) rq) id)))
  ∧ (∀ (s : State) (id : Nat) (it : Item), itemAt s id 0x21 0 = some it →
    let b := dBody it
    let ctx := (restored s b.first b.wrap b.ctxAddr).getD []
    (∀ st, digestCheck s it b = some st → exec (.digest id) s = .next (failItem s id st 0 0))
    ∧ (digestCheck s it b = none → b.len = 0 → b.last = false → exec (.digest id) s = .next (itemReady s id (digDone ctx) 0))
    ∧ (digestCheck s it b = none → b.len ≠ 0 ∨ b.last = true →
        let rq : DReq := { item := some id, prio := 1 + it.lc, kslot := if b.hmac then some b.kslot else none,
                           key := if b.hmac then (keySlot s b.kslot).key else [], ctx := ctx }
        exec (.digest id) s = .next (toEngine (digArrive (if b.srcHost then dataXfer s id none true b.len else s) rq) id)))
  ∧ (∀ (s : State) (a : Nat) (pair : Option Nat) (r : CReq) (it : Item), tget s.ciph.creqs a = some r → r.core.isSome = true →
      dataMoving s r.item = false →
      let u := ciphEnd s a
      getItem u r.item = some it →
      let b := cBody it
      let bad := (b.srcHost = false ∧ (poisonedIn u b.src b.len = true ∨ (b.first = true ∧ poisonedIn u b.aadAddr b.aadLen = true)))
        ∨ (b.dstHost = false ∧ b.verify = true ∧ poisonedIn u b.tagAddr b.tagLen = true)
      (bad → exec (.cipherMessageDone a pair) s = .next (engineFail u r.item St.dataPoisoned 0 0))
      ∧ (¬ bad → exec (.cipherMessageDone a pair) s = .next (cipherFinish u r.item it b r pair)))
  ∧ (∀ (s : State) (a id : Nat) (pair : Option Nat) (r : DReq) (it : Item), tget s.ciph.dreqs a = some r → r.core.isSome = true →
      r.item = some id → dataMoving s id = false → getItem (digEnd s a) id = some it →
      let u := digEnd s a
      let b := dBody it
      (b.srcHost = false → poisonedIn u b.src b.len = true → exec (.digestMessageDone a pair) s = .next (engineFail u id St.dataPoisoned 0 0))
      ∧ (b.srcHost = true ∨ poisonedIn u b.src b.len = false →
          exec (.digestMessageDone a pair) s = .next (digestFinish u id it b r pair)))
  ∧ (∀ (s : State) (a : Nat) (pair : Option Nat) (r : DReq), tget s.ciph.dreqs a = some r → r.core.isSome = true → r.item = none →
      exec (.digestMessageDone a pair) s = .next (if (pair.map cmpFaulty).getD false then sillFault (digEnd s a) else digEnd s a))

/-- Deciphering gives back what enciphering took (FIPS 197, cited by R385): for every AES key of its length, the inverse cipher undoes the
cipher on every block of 16 bytes. -/
def Obligations.AesDecryptUndoesEncrypt : Prop :=
  ∀ (typ : Nat) (key block : List Byte), isAes typ = true → key.length = klenOf typ → block.length = 16 →
    (cipherOf typ key).dec ((cipherOf typ key).enc block) = block

/-! ## Bridy ports and the Ledger Store (chapters 16 and 17) -/

/-- The states of a Bridy port (R377, R378, R379): an enable of a DISABLED port starts TRAINING, a disable ends its pre-grants and, from
HALT, its replay state; silence of 10 ms takes an UP port DOWN, and the DOWN delay, which doubles up to 1 s, leads back to TRAINING; a
good peer leads to UP and another device than the last one to HALT; a change of the send epoch restarts the packet counter.
It states that exec answers a next state, under hypotheses on the state and the operands alone, for: trainFlit, linkSilent, retrainDelay,
bridyPortEnable, bridyPortDisable, txEpochChange. -/
def Obligations.PortsTrainAndFail : Prop :=
  ∀ (s : State) (n : Nat),
    (∀ (p : Path) (v : Nat), n < 2 → Reaches s p (bryReg Reg.BRY_PORT0_CTL n) →
      let u := bryCtlWrite (dropHalves s p) n v
      (bitOf v 31 = true → (bryPort s n).st = BSt.disabled →
        ∃ t, exec (.bridyPortEnable p n v) s = .next t ∧ (bryPort t n).st = BSt.training ∧ (bryPort t n).downMs = 1
          ∧ t.regs = u.regs ∧ ∀ m, m ≠ n → bryPort t m = bryPort s m)
      ∧ (bitOf v 31 = true → (bryPort s n).st ≠ BSt.disabled → exec (.bridyPortEnable p n v) s = .next u)
      ∧ (bitOf v 31 = false → ∃ t, exec (.bridyPortDisable p n v) s = .next t ∧ (bryPort t n).st = BSt.disabled
          ∧ (bryPort t n).preGrants = [] ∧ t.regs = u.regs
          ∧ ((bryPort s n).st = BSt.halt → (bryPort t n).unacked = [] ∧ (bryPort t n).txFseq = 0 ∧ (bryPort t n).rxFseq = 0)
          ∧ ((bryPort s n).st ≠ BSt.halt → (bryPort t n).unacked = (bryPort s n).unacked ∧ (bryPort t n).txFseq = (bryPort s n).txFseq)))
    ∧ (∀ (p : Path) (v : Nat), n < 2 → Reaches s p (bryReg Reg.BRY_PORT0_KEY n) →
      let u := regWrite (dropHalves s p) (bryReg Reg.BRY_PORT0_KEY n) 0 v
      ∃ t, exec (.txEpochChange p n v) s = .next t ∧ t.regs = u.regs
        ∧ (bryPort t n).txPctr = (if bryEpoch u n = bryEpoch s n then (bryPort s n).txPctr else 0))
    ∧ ((bryPort s n).st = BSt.up → (bryPort s n).goodAt + 10000000 ≤ now s → ∃ t, exec (.linkSilent n) s = .next t
        ∧ (bryPort t n).st = BSt.down ∧ (bryPort t n).cause = 2 ∧ (bryPort t n).downUntil = now s + 1000000 * (bryPort s n).downMs
        ∧ (bryPort t n).downMs = min 1000 (2 * (bryPort s n).downMs))
    ∧ ((bryPort s n).st = BSt.down → (bryPort s n).downUntil ≤ now s → ∃ t, exec (.retrainDelay n) s = .next t
        ∧ (bryPort t n).st = BSt.training ∧ (bryPort t n).retrains = satAdd 8 (bryPort s n).retrains 1)
    ∧ (∀ devser nextF rtt, n < 2 → (bryPort s n).st = BSt.training →
      (bryKeys s n = false → ∃ t, exec (.trainFlit n devser nextF rtt) s = .next t ∧ (bryPort t n).st = BSt.training ∧ (bryPort t n).cause = 5)
      ∧ (∀ d, bryKeys s n = true → (bryPort s n).lastPeer = some d → d ≠ devser →
          ∃ t, exec (.trainFlit n devser nextF rtt) s = .next t ∧ (bryPort t n).st = BSt.halt ∧ (bryPort t n).cause = 4)
      ∧ (bryKeys s n = true → (∀ d, (bryPort s n).lastPeer = some d → d = devser) →
          exec (.trainFlit n devser nextF rtt) s = .next (bryUp s n devser nextF rtt)))

/-- Flits (R370 to R373, R381): what an UP port does with a flit of each type whose CRC is good, with one that fails or is out of order,
and with a lane that fails; requests that no answer met are repeated.
Packets (R374, R375, R376): the next packet of its class is delivered once: a message to the firmware, a CMD to the Ledger engine, an
XFER_RDY as a pre-grant or as the grant of a command that waits, DATA into its command's buffer, a RSP to the command it answers.
It states that exec answers a next state, under hypotheses on the state and the operands alone, for: payloadFlit, idleFlit, retryReq,
retryReqRepeat, swapReq, laneFault, bridyCmd, xferRdy, dataPacket, rspPacket, msgPacket, swapReqRepeat. -/
def Obligations.FlitsAndPacketsAreTakenInOrder : Prop :=
  (
  ∀ (s : State) (n : Nat) (f : List Byte) (corr uncorr : Nat),
    let u := fecCount s n corr uncorr
    (flitAt u n f 0 = true → exec (.idleFlit n f corr uncorr) s = .next (pump (takeLink u n f) n))
    ∧ (flitAt u n f 2 = true →
        let v := takeLink u n f
        let again := match (bryPort v n).unacked.findIdx? (fun x => x.1 == beAt f 2 3) with
          | some i => (bryPort v n).unacked.drop i
          | none => []
        let w := again.foldl (fun s x => emitFlit s n x.2) v
        exec (.retryReq n f corr uncorr) s = .next (pump (modBry w n (fun p => { p with replays := satAdd 16 p.replays 1 })) n))
    ∧ ((bryPort s n).st = BSt.up → flitType f = 1 →
        let bad := fun (s : State) => askRetry (modBry s n (fun p => { p with crcErr := satAdd 16 p.crcErr 1 })) n
        let v := takeLink u n f
        (flitGood f = false → exec (.payloadFlit n f corr uncorr) s = .next (bad u))
        ∧ (flitGood f = true → beAt f 2 3 ≠ (bryPort v n).rxFseq → exec (.payloadFlit n f corr uncorr) s = .next (bad v))
        ∧ (flitGood f = true → beAt f 2 3 = (bryPort v n).rxFseq →
            let c := fld (beAt f 0 1) 3 2
            let w := modBry v n (fun p => { p.setCls c { p.cls c with owed := (p.cls c).owed + 1 } with
              rxFseq := (p.rxFseq + 1) % fseqMod, retryAt := none })
            let x := pump (rxPayload w n f) n
            (bryPort w n).rxFseq = ((bryPort v n).rxFseq + 1) % fseqMod
              ∧ exec (.payloadFlit n f corr uncorr) s = .next (
                if x.out.flits.length = w.out.flits.length ∧ (bryPort x n).st = BSt.up then sendCtl x n 0 0 0 else x)))
    ∧ (flitAt u n f 3 = true → (bryPort (takeLink u n f) n).spareTx = none →
        let lane := fld (beAt f 11 1) 2 1
        let v := takeLink u n f
        exec (.swapReq n f corr uncorr) s = .next (secondFault s (sendCtl
          (laneSwapped (modBry v n (fun p => { p with spareTx := some lane })) n 0 lane) n 0 0 (1 + 2 * lane))))
    ∧ (flitAt u n f 3 = true → ∀ l, (bryPort (takeLink u n f) n).spareTx = some l →
        exec (.swapReq n f corr uncorr) s = .next (secondFault s (if l = fld (beAt f 11 1) 2 1 then
          sendCtl (takeLink u n f) n 0 0 (1 + 2 * l) else takeLink u n f)))
    ∧ (∀ t, (bryPort s n).retryAt = some t → (bryPort s n).st = BSt.up → t + 2000 * (bryPort s n).rttUs ≤ now s →
        exec (.retryReqRepeat n) s = .next (askRetry s n))
    ∧ (∀ lane t, (bryPort s n).swapWait = some (lane, t) → (bryPort s n).st = BSt.up → t + 10000 ≤ now s →
        exec (.swapReqRepeat n) s = .next (sendCtl (setBry s n { bryPort s n with swapWait := some (lane, now s) }) n 3 0 (2 * lane)))
    ∧ (∀ lane, (bryPort s n).st = BSt.up → lane < 4 → (bryPort s n).spareRx = none → (bryPort s n).swapWait = none →
        exec (.laneFault n lane) s = .next (secondFault s
          (sendCtl (setBry s n { bryPort s n with swapWait := some (lane, now s) }) n 3 0 (2 * lane))))
    ∧ (∀ lane, (bryPort s n).st = BSt.up → lane < 4 →
        ((bryPort s n).spareRx ≠ none ∨ ∃ l t, (bryPort s n).swapWait = some (l, t) ∧ l ≠ lane) →
        exec (.laneFault n lane) s = .next (secondFault s (bryDown s n 1))))
  ∧
  (
  ∀ (s : State) (n : Nat) (k : BPacket) (u : State),
    (takeInbox s n 1 8 = some (k, u) → ∃ t, exec (.msgPacket n) s = .next t ∧ (bryPort t n).msgs = (bryPort s n).msgs ++ [k.body]
      ∧ (bryPort t n).inbox = (bryPort s n).inbox.erase k)
    ∧ (takeInbox s n 0 1 = some (k, u) → exec (.bridyCmd n) s = .next (ledTick (peerCmd u n k.body)))
    ∧ (takeInbox s n 0 2 = some (k, u) → beAt k.body 0 8 = 0 → ∃ t, exec (.xferRdy n) s = .next t
      ∧ (bryPort t n).preGrants = (bryPort s n).preGrants ++ [beAt k.body 8 4])
    ∧ (∀ a c f, takeInbox s n 0 2 = some (k, u) → beAt k.body 0 8 ≠ 0 → c.fwd = some f →
      u.led.cus.find? (fun c => c.2.fwd.any (fun f => f.key == beAt k.body 0 8 && f.done.isNone)) = some (a, c) →
      exec (.xferRdy n) s = .next (sendData u n (beAt k.body 0 8) f.data))
    ∧ (takeInbox s n 0 3 = some (k, u) →
      let peer := fun (c : LCmd) => match c.src with
        | .peer _ => true
        | _ => false
      let found := u.led.cmds.find? (fun c => c.2.key == some (beAt k.body 0 8) && peer c.2 && c.2.grant.isSome)
      (found = none → ∃ t, exec (.dataPacket n) s = .next t ∧ (bryPort t n).dataDiscard = satAdd 4 (bryPort s n).dataDiscard 1
        ∧ t.led = s.led)
      ∧ (∀ j c, found = some (j, c) → c.decl < beAt k.body 8 4 + beAt k.body 12 4 →
          exec (.dataPacket n) s = .next (ledTick (endCmd u j St.ledgerOverrun 0 0)))
      ∧ (∀ j c, found = some (j, c) → beAt k.body 8 4 + beAt k.body 12 4 ≤ c.decl →
          exec (.dataPacket n) s = .next (ledTick (setCmd u j (placeData c (beAt k.body 8 4) (sub k.body 16 (beAt k.body 12 4)))))))
    ∧ (∀ a c, takeInbox s n 0 4 = some (k, u) →
      u.led.cus.find? (fun c => c.2.fwd.any (fun f => f.key == beAt k.body 0 8 && f.done.isNone)) = some (a, c) →
      (beAt k.body 8 2 ≠ 0 → exec (.rspPacket n) s = .next (ledTick (fwdFail u a (beAt k.body 8 2))))
      ∧ (beAt k.body 8 2 = 0 → exec (.rspPacket n) s = .next (ledTick (modCu u a (fun c => { c with fwd := c.fwd.map (fun f =>
          { f with done := some (0, beAt k.body 16 8, beAt k.body 24 8) }) }))))))

/-- The LEDGER items (R342 to R346): the checks fail the item; a duplicate joins its original or takes its stored answer; a command that
goes on and finds a slot is accepted with its fields. LEDGER_RESUME lifts the freeze and says whether there was one.
The Ledger ADMIN commands (R356 to R364): a bad body, a caller that does not own the volume and a failing later check fail the item;
a good one becomes the running operation or waits behind it.
It states that exec answers a next state, under hypotheses on the state and the operands alone, for: ledgerRead, ledgerWrite, ledgerAppend,
ledgerFlush, ledgerTrim, logRead, ledgerResume, sanitise, format, poolFormat, driveRebuild. -/
def Obligations.LedgerItemsAreAccepted : Prop :=
  (
  ∀ (s : State) (id : Nat) (it : Item), itemAt s id 0x40 0 = some it →
    let b := lBody it
    let cmds : List (Nat × Instr) :=
      [(1, .ledgerRead id), (2, .ledgerWrite id), (3, .ledgerAppend id), (4, .ledgerFlush id), (5, .ledgerTrim id), (8, .logRead id),
        (9, .ledgerResume id)]
    (∀ st, ledCmds.contains b.lcmd = false → ledCase s it b = .fail st → exec (.ledgerRead id) s = .next (failItem s id st 0 0))
    ∧ (∀ x ∈ cmds, b.lcmd = x.1 →
      (∀ st, ledCase s it b = .fail st → exec x.2 s = .next (failItem s id st 0 0))
      ∧ (∀ c, ledCase s it b = .attach c → exec x.2 s = .next (ledAttach s id c))
      ∧ (∀ e, ledCase s it b = .stored e → exec x.2 s = .next (ledStored s id e))
      ∧ (ledCase s it b = .none0 → exec x.2 s = .next (ledNothing s id))
      ∧ (ledCase s it b = .go → slotFree s false = false → exec x.2 s = .next s)
      ∧ (ledCase s it b = .go → slotFree s false = true → b.lcmd ≠ 3 → b.lcmd ≠ 9 → exec x.2 s = .next (ledAccept s id it b [])))
    ∧ (b.lcmd = 3 → ledCase s it b = .go → slotFree s false = true →
        (b.bufInt = true → poisonedIn s b.bufAddr b.count = true →
          exec (.ledgerAppend id) s = .next (failItem s id St.dataPoisoned 0 0))
        ∧ (b.bufInt = false ∨ poisonedIn s b.bufAddr b.count = false →
          exec (.ledgerAppend id) s = .next (ledAccept (itemTouch s it.fn (! b.bufInt) b.bufAddr b.count) id it b (itemRead s (! b.bufInt) b.bufAddr b.count))))
    ∧ (b.lcmd = 9 → ledCase s it b = .go → slotFree s false = true →
        let v := getVol s b.vol
        let ws := if v.frozen ∧ bitOf b.flags 2 then waitingCmds s b.vol else []
        let u := rpMake (led s (fun l => { l with nextCmd := s.led.nextCmd + 1 })) it.fn (it.ikey.getD 0) 9 b.vol s.led.nextCmd
        let w := modVol u b.vol (fun x => { x with
          frozen := false, appendLost := satAdd 32 x.appendLost (ws.filter (fun p => p.2.key.isNone)).length })
        let x := ws.foldl (fun s p => endCmd s p.1 St.ledgerDiscarded 0 0) (dropRecs w b.vol (fun k => ws.any (fun p => p.1 == k)))
        let r0 := b2n v.frozen + ws.length * 65536
        (getVol w b.vol).frozen = false ∧ ∃ r1, exec (.ledgerResume id) s = .next (ledTick (itemReady
          (rpDone { x with freeCtr := x.freeCtr + 1 } s.led.nextCmd 0 r0 r1 false) id r0 r1))))
  ∧
  (
  ∀ (s : State) (id : Nat) (it : Item),
    let vol := it.body 32 1
    let body := sub it.desc 32 32
    (itemAt s id 0x60 5 = some it →
      exec (.sanitise id) s = .next (opItem s id it (decide (vol > 63) || leAt body 1 31 != 0) (ownsVol s it vol) vol codeSanitise
        (firstFail [(s.led.conflict || (getVol s vol).p.kind == 0, St.ledgerNotFormatted), ((getVol s vol).frozen, St.ledgerFrozen),
          ((getVol s vol).busy, St.ledgerVolBusy)])
        (fun s => queueOp s id it 2 vol codeSanitise body .waiting)))
    ∧ (itemAt s id 0x60 6 = some it → vol ≠ 0xFF → vol ≠ 0xFE →
      exec (.format id) s = .next (opItem s id it (formatInvalid body (getVol s vol).p) (ownsVol s it vol) vol codeFormat
        (firstFail [(s.led.conflict, St.ledgerNotFormatted), ((getVol s vol).frozen, St.ledgerFrozen), ((getVol s vol).busy, St.ledgerVolBusy),
          (! bitOf (leAt body 3 1) 3 && decide (formatBlocks s vol (leAt body 8 8) + 262144 > (s.led.pool.map dataBlocks).getD 0),
            St.ledgerNoSpace)])
        (fun s => queueOp s id it 1 vol codeFormat body .waiting)))
    ∧ (itemAt s id 0x60 6 = some it → vol = 0xFF →
      exec (.poolFormat id) s = .next (opItem s id it (leAt body 1 31 != 0) (it.fn == 0) 0xFF codeFormat
        (if ! s.led.conflict && s.led.vols.any (fun v => v.2.p.kind != 0) then some St.ledgerPoolInUse else none)
        (fun s => if gateOpen s id it then queueOp (freshPool s) id it 1 0xFF codeFormat body .running else s)))
    ∧ (itemAt s id 0x60 6 = some it → vol = 0xFE → ∃ go, exec (.driveRebuild id) s
        = .next (opItem s id it (leAt body 1 31 != 0) (it.fn == 0) 0xFE codeFormat none go)
        ∧ (gateOpen s id it = false → go s = s)
        ∧ (gateOpen s id it = true → go s = queueOp (led s (fun l => { l with drives := l.drives.map (fun d =>
            if d.2.ok ∧ d.2.st = 3 ∧ l.pool.any (fun q => decide (q.blocks ≤ d.2.blocks)) then (d.1, { d.2 with st := 2 }) else d) }))
            id it 3 0xFE codeFormat body .running))
    ∧ (∀ bad own v lcmd post go, (bad = true → opItem s id it bad own v lcmd post go = failItem s id St.invalidField 0 0)
      ∧ (bad = false → s.led.op.any (fun o => o.item.isNone && some o.key == it.ikey && it.ikey.isSome && o.vol == v) = false →
          (∀ st, ledKeyCase s it v lcmd own = .fail st → opItem s id it bad own v lcmd post go = failItem s id st 0 0)
          ∧ (∀ c, ledKeyCase s it v lcmd own = .attach c → opItem s id it bad own v lcmd post go = ledAttach s id c)
          ∧ (∀ e, ledKeyCase s it v lcmd own = .stored e → opItem s id it bad own v lcmd post go = ledStored s id e)
          ∧ (∀ st, ledKeyCase s it v lcmd own = .go → opItem s id it bad own v lcmd (some st) go = failItem s id st 0 0)
          ∧ (ledKeyCase s it v lcmd own = .go → opItem s id it bad own v lcmd none go = go s))
      ∧ (∀ o, bad = false → s.led.op = some o → o.item = none → it.ikey = some o.key → o.vol = v →
          opItem s id it bad own v lcmd post go
            = toEngine (led (countDup s) (fun l => { l with op := l.op.map (fun o => { o with dups := o.dups ++ [id] }) })) id)))

/-- The Ledger engine's own events (R347 to R368): data writes, commit sectors and snapshots end, reads end with their data, groups close,
drives and peers that do not answer are given up, and operations record their progress and end.
It states that exec answers a next state, under hypotheses on the state and the operands alone, for: opProgressRecord, ledgerOpEnd,
ledgerDataWriteDone, commitSectorDone, snapshotDone, ledgerReadDone, appendGroupClose, peerRspTimeout, xferGrantTimeout,
driveStopsAnswering. -/
def Obligations.LedgerEngineCompletes : Prop :=
  (∀ (s : State) (u : Nat) (c : CU), tget s.led.cus u = some c → c.st = .writing →
    let ents := joinRuns (c.ents.flatMap entBlocks)
    let w := c.data.foldl (fun s d => drvWrite s d.1 d.2) s
    exec (.ledgerDataWriteDone u []) s = .next (secondFault s (ledTick (afterDrives
      (modCu w u (fun c' => { c' with st := .ready, data := c.data, ents := if c'.ckind = 2 then c'.ents else ents })))))
      ∧ ∀ bad, ∃ t, exec (.ledgerDataWriteDone u bad) s = .next (secondFault s (ledTick (afterDrives t)))
        ∧ (∀ x, tget t.led.cus u = some x → x.st = .ready))
  ∧ (∀ (s : State) (u : Nat) (c : CU) (bad : List (Nat × Nat)), tget s.led.cus u = some c → c.st = .ready →
    exec (.ledgerDataWriteDone u bad) s = .next (secondFault s (ledTick s)))
  ∧ (∀ (s : State) (u : Nat) (c : CU), tget s.led.cus u = some c → c.st = .committing →
    ∀ bad : Option Nat,
    let v := match bad with
      | some d => remapMeta (driveFault s) d (sectorSlot c.seq)
      | none => s
    let w := drvWrite v (metaBlock v (sectorSlot c.seq)) (sectorBytes (sectorOf c) ((v.led.pool.map (·.poolId)).getD 0) c.issuedAt)
    let x := modCu w u (fun c => { c with st := .landed })
    exec (.commitSectorDone u bad) s = .next (secondFault s (ledTick (afterDrives (advanceDurable x.led.cus.length x)))))
  ∧ (∀ (s : State) (x : Snap) (q : Pool), s.led.snap = some x → s.led.pool = some q →
    let w := led s (fun l => { l with snap := none, drives := l.drives.map (fun d =>
      if d.2.st = 1 ∨ d.2.st = 2 then (d.1, { d.2 with snaps := tset d.2.snaps (1 - q.snapArea) x }) else d) })
    exec .snapshotDone s = .next (ledTick (superMod w (fun p => { p with snapArea := 1 - q.snapArea, snapSeq := x.seq }))))
  ∧ (∀ (s : State) (k : Nat) (bad : List (Nat × Nat)) (c : LCmd), getCmd s k = some c → c.st = .reading → c.lcmd = 1 →
    (readable s c.count bad = false →
      exec (.ledgerReadDone k bad) s = .next (secondFault s (ledTick (endCmd s k St.ledgerMedia 0 0))))
    ∧ (readable s c.count bad = true →
      exec (.ledgerReadDone k bad) s = .next (secondFault s (ledTick (readOut
        (setCmd (memWrite s (partOf s c.fn) c.bufHost c.bufAddr c.data) k { c with st := .dataDone }) k c c.data.length)))))
  ∧ (∀ (s : State) (k : Nat) (bad : List (Nat × Nat)) (c : LCmd), getCmd s k = some c → c.st = .reading → c.lcmd ≠ 1 →
    let v := (getVol s c.vol).p
    let rs := fitRecs c.bufLen ((recsFrom s v c.addr).take c.count)
    (readable s v.pages.length bad = false → exec (.ledgerReadDone k bad) s = .next (secondFault s (ledTick (endCmd s k St.ledgerMedia 0 0))))
    ∧ (readable s v.pages.length bad = true → chainOk (chainBefore s v c.addr) rs = false →
      exec (.ledgerReadDone k bad) s = .next (secondFault s (ledTick (endCmd s k St.ledgerChain 0 0))))
    ∧ (readable s v.pages.length bad = true → chainOk (chainBefore s v c.addr) rs = true →
      exec (.ledgerReadDone k bad) s = .next (secondFault s (ledTick (readOut
        (setCmd (memWrite s (partOf s c.fn) c.bufHost c.bufAddr (rs.flatMap (·.bytes))) k
          { c with st := .dataDone, res := some (rs.length, c.addr + rs.length) }) k c (rs.flatMap (·.bytes)).length)))))
  ∧ (∀ (s : State) (vol : Nat) (a b : GRec), (getVol s vol).opened.head? = some a → (getVol s vol).opened.getLast? = some b →
    ((getVol s vol).openAt + 1000 * (getVol s vol).p.groupUs ≤ now s ∨ 64 ≤ b.page - a.page
      ∨ (∃ p ∈ s.led.cmds, p.2.vol = vol ∧ p.2.lcmd = 4 ∧ p.2.st ≠ .accepted ∧ a.cmd < p.1)
      ∨ (∃ p ∈ s.led.cmds, p.2.vol = vol ∧ p.2.lcmd = 3 ∧ p.2.st = .accepted ∧ groupRoom (getVol s vol) p.2.data.length = false)) →
    exec (.appendGroupClose vol) s = .next (ledTick (closeGroup s vol)))
  ∧ (∀ (s : State) (d : Nat) (x : Drive), tget s.led.drives d = some x →
    (x.st = 1 ∨ x.st = 2 → exec (.driveStopsAnswering d) s = .next (secondFault s (ledTick (afterDrives (retireDrive (driveFault s) d)))))
    ∧ (x.st ≠ 1 → x.st ≠ 2 → exec (.driveStopsAnswering d) s = .next (secondFault s s)))
  ∧ (∀ (s : State) (u : Nat) (c : CU) (f : Fwd), tget s.led.cus u = some c → c.fwd = some f → f.done = none →
    f.sentAt + 1000000 * rfld s Reg.LED_CTL 0 7 0 ≤ now s →
    (3 ≤ f.tries → exec (.peerRspTimeout u) s = .next (ledTick (fwdFail s u 0xFFFF)))
    ∧ (f.tries < 3 →
      let n := if (bryPort s f.port).st = BSt.up then f.port else if (bryPort s (1 - f.port)).st = BSt.up then 1 - f.port else f.port
      let f' := { f with tries := f.tries + 1, sentAt := now s, port := n }
      exec (.peerRspTimeout u) s = .next (sendFwd (led (modCu s u (fun c => { c with fwd := some f' }))
        (fun l => { l with retries := satAdd 32 l.retries 1 })) f' n)))
  ∧ (∀ (s : State) (k : Nat) (c : LCmd), getCmd s k = some c → c.grant.isSome = true → gotAll c = false →
    c.boundAt + 1000000 * rfld s Reg.LED_CTL 0 15 8 ≤ now s →
    exec (.xferGrantTimeout k) s = .next (ledTick (endCmd s k St.ledgerUnderrun 0 0)))
  ∧ (∀ (s : State) (o : LOp) (gib : Nat), s.led.op = some o → o.st = .running → o.doneGib ≤ gib →
    exec (.opProgressRecord gib) s = .next (superMod (led s (fun l => { l with op := some { o with doneGib := gib } }))
      (fun q => { q with opDone := gib })))
  ∧ (∀ (s : State) (o : LOp), s.led.op = some o → o.st = .running → ∃ a b,
    let u := superMod (led (opWork s o) (fun l => { l with op := none })) (fun q => { q with opKind := 0, opVol := 0, opKey := 0, opDone := 0 })
    let v := if o.vol < 64 then modVol u o.vol (fun v => { v with busy := false }) else u
    let w := rpDone { v with freeCtr := v.freeCtr + 2 } o.cmd 0 a b true
    let x := match o.item with
      | some id => ledItemEnd w id 0 a b false
      | none => w
    let y := o.dups.foldl (fun s d => ledItemEnd s d 0 a b true) x
    exec .ledgerOpEnd s = .next (match y.led.opQ with
      | z :: rest => ledTick (startOp (led y (fun l => { l with opQ := rest })) z)
      | [] => ledTick y))

/-! ## DRAM controller, system cache and routing CAM (chapters 12, 13 and 19) -/

/-- Reads, writes and refresh of DRAM (R264 to R276): a read waits in its subchannel's queue, unless a queued write answers it, and the
request served is, of those whose bank no repair holds, one of the highest urgency and row hit, the first to arrive; a write enters its
queue, or waits at its memory stop behind earlier writes; a batch drains writes while no urgent read waits; a refresh closes the rows or is
postponed; a refresh of a channel copies its pending delays.
It states that exec answers a next state, under hypotheses on the state and the operands alone, for: dramRead, rowRepairDone, dramWrite,
writeBatchDrain, refresh, refreshRatePoll, patrolScrubRead, selfRefreshEntry, delayCopy. -/
def Obligations.DramCommandsComplete : Prop :=
  ∀ (s : State),
    (∀ l port d0 d1 d2 pin, l < dramLines s → pin ≤ 11 → port ≤ 7 →
      let w := subReq s (subOf l)
      let t := queueRead w l port
      let pick := pickReq t (getSub t (subOf l)).rq
      ((∃ q ∈ (getSub s (subOf l)).wq, q.line = l) → t = w)
      ∧ ((∀ q ∈ (getSub s (subOf l)).wq, q.line ≠ l) → (∀ q ∈ (getSub s (subOf l)).rq, q.line ≠ l) →
          (getSub t (subOf l)).rq = (getSub s (subOf l)).rq ++ [⟨l, port, now s⟩])
      ∧ (∀ q, pick = some q → q.line = l → exec (.dramRead (l, port) d0 d1 d2 pin) s = .next (secondFault s (readLine (openLine
          (modSub t (subOf l) (fun c => { c with rq := c.rq.filter (fun r => r.line != l) })) l) l d0 d1 d2 pin)))
      ∧ ((pick = none ∨ ∃ q, pick = some q ∧ q.line ≠ l) → exec (.dramRead (l, port) d0 d1 d2 pin) s = .next (secondFault s t)))
    ∧ (∀ qs q, pickReq s qs = some q → q ∈ qs ∧ bankHeld s q.line = false
        ∧ ∀ r ∈ qs, bankHeld s r.line = false → 2 * urgency s r + b2n (rowHit s r.line) ≤ 2 * urgency s q + b2n (rowHit s q.line))
    ∧ (∀ l port bytes bad, l < dramLines s → port ≤ 7 → tgetD s.dmc.stops (stopOf l) [] = [] → (getSub s (subOf l)).wq.length < 64 →
        bankHeld s l = false → ∃ t, exec (.dramWrite (l, port) bytes bad) s = .next t
          ∧ (∀ a, mread t.dram a = if 128 * l ≤ a ∧ a < 128 * l + 128 then bytes.getD (a - 128 * l) 0 else mread s.dram a)
          ∧ (getSub t (subOf l)).wq = (getSub s (subOf l)).wq ++ [⟨l, port, now s⟩] ∧ verOk t l = true
          ∧ (bad = true → l ∈ t.poison) ∧ (bad = false → l ∉ t.poison))
    ∧ (∀ l port bytes bad, l < dramLines s → port ≤ 7 →
        (tgetD s.dmc.stops (stopOf l) [] ≠ [] ∨ 64 ≤ (getSub s (subOf l)).wq.length ∨ bankHeld s l = true) →
        ∃ t, exec (.dramWrite (l, port) bytes bad) s = .next t ∧ t.dram = s.dram
          ∧ tget t.dmc.stops (stopOf l) = some (tgetD s.dmc.stops (stopOf l) [] ++ [⟨l, some bytes, bad, port, now s⟩]))
    ∧ (∀ sc n, sc ≤ 127 → urgentRead s sc = false → 48 ≤ (getSub s sc).wq.length ∨ (getSub s sc).rq = [] →
        let t := stopMoveUp (drainWrites sc (min n (getSub s sc).wq.length) s) (sc / 8)
        exec (.writeBatchDrain sc n) s = .next t
        ∧ (tgetD s.dmc.stops (sc / 8) [] = [] → (∀ q ∈ (getSub s sc).wq, bankHeld s q.line = false) →
          (getSub t sc).wq.length = (getSub s sc).wq.length - n ∧ t.dram = s.dram))
    ∧ (∀ sc n, (urgentRead s sc = true ∨ ((getSub s sc).wq.length < 48 ∧ (getSub s sc).rq ≠ [])) → exec (.writeBatchDrain sc n) s = .next s)
    ∧ (∀ sc, sc ≤ 127 → (getSub s sc).asleep = false →
        let c := getSub s sc
        let urgent := urgentRead s sc || c.wq.any (fun q => decide (2 ≤ urgency s q))
        ∃ t, exec (.refresh sc) s = .next t ∧ t.dram = s.dram ∧ if urgent = true ∧ c.owed < Config.refreshLimit.toNat then
            (getSub t sc).owed = c.owed + 1 ∧ (getSub t sc).opened = c.opened ∧ t.dmc.pend = s.dmc.pend
          else (getSub t sc).opened = [] ∧ sc / 2 ∉ t.dmc.pend ∧ (getSub t sc).owed = if urgent = true then c.owed else 0)
    ∧ (∀ ch, ch ≤ 63 → ch ∈ s.dmc.pend → ∃ t, exec (.delayCopy ch) s = .next t ∧ ch ∉ t.dmc.pend
        ∧ tget t.dmc.bins ch = some (rfld s Reg.DMC_DLY_BIN ch 5 0)
        ∧ (∀ sc pin, sc / 2 = ch → pin < 15 → tget t.dmc.delays (sc * 16 + pin) = some (regGet s Reg.DMC_DLY_VAL (sc * 16 + pin)))
        ∧ ∀ c, c ≠ ch → (c ∈ t.dmc.pend ↔ c ∈ s.dmc.pend))
    ∧ (∀ rates, ∃ t, exec (.refreshRatePoll rates) s = .next t
        ∧ ∀ d r k, d < 16 → k < 8 → rates[d]? = some r → (getSub t (8 * d + k)).rate = if r > 2 then (getSub s (8 * d + k)).rate else r)
    ∧ (∀ sc d0 d1 d2 pin, sc ≤ 127 → rfld s Reg.DMC_CTL 0 7 0 ≠ 0 → (getSub s sc).asleep = false → pin ≤ 11 →
        let l := lineAt sc ((getSub s sc).scrub % (dramLines s / 128))
        let q : MemReq := ⟨l, 6, now s⟩
        let u := modSub s sc (fun c => { c with scrub := (c.scrub + 1) % (dramLines s / 128) })
        (pickReq s ((getSub s sc).rq ++ [q]) = some q → exec (.patrolScrubRead sc d0 d1 d2 pin) s = .next (secondFault s (
          if (getSub s sc).wq.any (fun q => q.line == l) then u else readLine (openLine u l) l d0 d1 d2 pin)))
        ∧ (pickReq s ((getSub s sc).rq ++ [q]) ≠ some q → exec (.patrolScrubRead sc d0 d1 d2 pin) s = .next (secondFault s s)))
    ∧ (∀ sc, sc < 128 → modeOf s = Mode.idle → rfld s Reg.DMC_CTL 0 31 16 ≠ 0 → (getSub s sc).wq = [] → (getSub s sc).rq = [] →
        (getSub s sc).repairs = [] → tgetD s.dmc.stops (sc / 8) [] = [] → (getSub s sc).lastReq + 1000 * rfld s Reg.DMC_CTL 0 31 16 ≤ now s →
        ∃ t, exec (.selfRefreshEntry sc) s = .next t ∧ (getSub t sc).asleep = true ∧ (getSub t sc).opened = [] ∧ t.dram = s.dram)
    ∧ (∀ sc bank r decs, (getSub s sc).repairs.find? (fun r => r.bank == bank) = some r → ∃ t, exec (.rowRepairDone sc (bank, decs)) s = .next t
        ∧ tget (getSub t sc).rows bank = some (r.hard, r.row) ∧ (∀ x ∈ (getSub t sc).repairs, x.bank ≠ bank)
        ∧ (sc, bank, r.row, r.hard) ∈ t.dmc.repairList ∧ t.dram = s.dram)

/-- The DRAM registers (R274, R276 to R279): DMC_CTL keeps its NRR_K when the write's is outside 6 to 14; an apply marks the channels it
names; a shadow write of a channel that is pending is discarded; a repair command is discarded while a repair runs, and a hard one
outside Maintain.
It states that exec answers a next state, under hypotheses on the state and the operands alone, for: delayApply, delayShadowWrite, pprSoft,
pprHard, dmcCtlWrite. -/
def Obligations.DramRegistersKeepTheirRules : Prop :=
  ∀ (s : State) (p : Path) (v : Nat),
    let u := dropHalves s p
    (Reaches s p Reg.DMC_DLY_APPLY → pfPath p = true → ∃ t, exec (.delayApply p v) s = .next t
      ∧ (∀ c < 64, bitOf v c = true → c ∈ t.dmc.pend) ∧ ∀ c ∈ s.dmc.pend, c ∈ t.dmc.pend)
    ∧ (Reaches s p Reg.DMC_CTL → pfPath p = true → ∃ t, exec (.dmcCtlWrite p v) s = .next t
      ∧ rfld t Reg.DMC_CTL 0 15 12 = (if 6 ≤ fld v 15 12 ∧ fld v 15 12 ≤ 14 then fld v 15 12 else rfld s Reg.DMC_CTL 0 15 12))
    ∧ (∀ bin, Reaches s p (if bin then Reg.DMC_DLY_BIN else Reg.DMC_DLY_VAL) → pfPath p = true →
      let off := if bin then Reg.DMC_DLY_BIN else Reg.DMC_DLY_VAL
      let w := selGet u p Reg.DMC_DLY_SEL
      (fld w 14 8 / 2 ∈ s.dmc.pend → exec (.delayShadowWrite p bin v) s = .next u)
      ∧ (fld w 14 8 / 2 ∉ s.dmc.pend → (bin = false → fld w 3 0 ≠ 15) →
          exec (.delayShadowWrite p bin v) s = .next (regWrite u off (dlyInst u p off) v)))
    ∧ (Reaches s p Reg.DMC_PPR_CMD → pfPath p = true →
      (fld v 31 30 = 1 → repairing s = false → exec (.pprSoft p v) s = .next (pprStart u v false))
      ∧ (fld v 31 30 = 2 → repairing s = false → modeOf s = Mode.maintain → exec (.pprHard p v) s = .next (pprStart u v true))
      ∧ (repairing s = true → exec (.pprSoft p v) s = .next u ∧ exec (.pprHard p v) s = .next u)
      ∧ (modeOf s ≠ Mode.maintain → exec (.pprHard p v) s = .next u))

/-- CACHE_ACCESS (R2, R14 to R20, R246 to R261): a misaligned request, a denied one and one of no storage end in their error answer, the
exception of a core or the status of an engine's item; one whose scratch slot is not READY or whose way is being copied waits; one that is
served stores its bytes, but for a lost line of scratch, or leaves memory.
The cache commands (R252 to R258): one operation at a time, over lines of its range, a clean leaving lines and an invalidate removing
them; EN = 0 cleans and then empties the cache; a way loses its power empty; SC_LOCK takes no new scratch or unpowered way; a scratch
slot reads READY once its way is filled with zeros; a retiring way is replaced by a spare.
It states that exec answers a next state, under hypotheses on the state and the operands alone, for: cacheAccess, wayRetireDone, scClean,
scCleanInval, scLockLoad, scOpDone, scLockWrite, cacheDisable, cacheDisableDone, cacheEnable, wayPowerDown, wayPowerOffDone, wayPowerUp,
scratchConvert, scratchReady, scratchRelease. -/
def Obligations.CacheCommandsComplete : Prop :=
  (
  ∀ (s : State) (init fn : Nat) (resv : Bool) (addr n : Nat) (bytes : Option (List Byte)) (stream err : Nat) (item : Option Nat),
    let len := match bytes with
      | some b => b.length
      | none => n
    let r : FabReq := ⟨init, fn, resv, addr, len, bytes, stream, err, item⟩
    let u := serveWaits s
    let run := exec (.cacheAccess init (fn, resv) addr n bytes stream (err, item)) s
    (dataShape addr len = false → run = .next (secondFault s (fabFail u r Exc.align St.alignment)))
    ∧ (dataShape addr len = true →
      (∀ cls, reqCheck u r = .denied cls →
        run = .next (secondFault s (fabFail (deny u init (reqTag r) addr cls) r Exc.access St.accessDenied)))
      ∧ (reqCheck u r = .unbacked → run = .next (secondFault s (fabFail u r Exc.access St.addressRange)))
      ∧ (reqCheck u r = .ok → reqWaits u r = true →
        run = .next (secondFault s { u with cache := { u.cache with waits := u.cache.waits ++ [r] } }))
      ∧ (reqCheck u r = .ok → reqWaits u r = false → ∃ t, run = .next (secondFault s t)
        ∧ (bytes = none → (poisonedIn u addr len = false ∧ err ≠ 3) ∨ (item = none ∧ 148 ≤ init) → t.dram = u.dram)
        ∧ ∀ b, bytes = some b → ∀ a, mread t.dram a
          = if addr ≤ a ∧ a < addr + b.length ∧ (addr < scratchBase ∨ scratchWay u (addr / 128) ∉ u.cache.absent) then b.getD (a - addr) 0
            else mread u.dram a))
    ∧ (∀ q : Nat, q < 12 → rfld u (slotReg q) 0 31 31 = 0 → slotBase q ≤ addr → addr < slotBase q + 4194304 → reqCheck u r = .unbacked)
    ∧ (resv = false → addr + len ≤ ledgerArea u → addr + len ≤ dramSize u → init < 0x94 → addr < 0x8000000000 →
        (reqCheck u r = .ok ↔ winOk u fn addr len = true)))
  ∧
  (
  (∀ (s : State) (p : Path), Reaches s p Reg.SC_OP → pfPath p = true →
    let u := dropHalves s p
    let ops : List (Nat × Instr) := [(1, .scClean p), (2, .scCleanInval p), (3, .scLockLoad p)]
    ∀ x ∈ ops,
      (s.cache.op ≠ none → exec x.2 s = .next (cntAdd u Reg.SC_OP_DISCARD 0 31 0 1))
      ∧ (s.cache.op = none → regGet s Reg.SC_OP_LEN 0 ≠ 0 → regGet s Reg.SC_OP_BASE 0 + regGet s Reg.SC_OP_LEN 0 ≤ dramSize s →
          ∃ t, exec x.2 s = .next t ∧ t.cache.op = some ⟨x.1, regGet s Reg.SC_OP_BASE 0, regGet s Reg.SC_OP_LEN 0⟩
            ∧ rfld t Reg.SC_STATUS 0 1 1 = 1 ∧ t.cache.lines = s.cache.lines)
      ∧ (s.cache.op = none → regGet s Reg.SC_OP_LEN 0 = 0 → ∃ t, exec x.2 s = .next t ∧ t.cache.op = none ∧ rfld t Reg.SC_STATUS 0 9 8 = 0)
      ∧ (s.cache.op = none → regGet s Reg.SC_OP_LEN 0 ≠ 0 → dramSize s < regGet s Reg.SC_OP_BASE 0 + regGet s Reg.SC_OP_LEN 0 →
          ∃ t, exec x.2 s = .next t ∧ t.cache.op = none ∧ rfld t Reg.SC_STATUS 0 9 8 = 1))
  ∧ (∀ (s : State) (o : CacheOp), s.cache.op = some o →
    let inRange := fun (l : Nat) => o.base ≤ l * 128 ∧ l * 128 < o.base + o.len
    ∃ t, exec .scOpDone s = .next t ∧ t.dram = s.dram ∧ t.cache.op = none
      ∧ (o.cmd = 1 → ∀ q ∈ t.cache.lines, inRange q.2.line → q.2.dirty = false)
      ∧ (o.cmd = 2 → ∀ q, q ∈ t.cache.lines ↔ (q ∈ s.cache.lines ∧ ¬ inRange q.2.line)))
  ∧ (∀ (s : State) (p : Path), Reaches s p Reg.SC_CTL → pfPath p = true →
      (∃ t, exec (.cacheDisable p) s = .next t ∧ rfld t Reg.SC_CTL 0 0 0 = 0 ∧ (s.cache.on = true → rfld t Reg.SC_STATUS 0 0 0 = 1)
        ∧ t.cache = s.cache ∧ t.dram = s.dram)
      ∧ ∃ t, exec (.cacheEnable p) s = .next t ∧ t.cache.on = true ∧ rfld t Reg.SC_CTL 0 0 0 = 1 ∧ rfld t Reg.SC_STATUS 0 0 0 = 0
        ∧ t.cache.lines = s.cache.lines)
  ∧ (∀ s : State, rfld s Reg.SC_STATUS 0 0 0 = 1 → ∃ t, exec .cacheDisableDone s = .next t ∧ t.cache.lines = [] ∧ t.cache.on = false
      ∧ rfld t Reg.SC_STATUS 0 0 0 = 0 ∧ t.dram = s.dram)
  ∧ (∀ (s : State) (p : Path) (v : Nat), Reaches s p Reg.SC_PWR → pfPath p = true →
      exec (.wayPowerDown p v) s = .next (scPwr p v (dropHalves s p)) ∧ exec (.wayPowerUp p v) s = .next (scPwr p v (dropHalves s p))
        ∧ ∀ w < 16, isOff (scPwr p v (dropHalves s p)) w = (bitOf v w && ! isScratch s w))
  ∧ (∀ (s : State) (w : Nat), w < 16 → isOff s w = true → w ∉ s.cache.lost → ∃ t, exec (.wayPowerOffDone w) s = .next t
      ∧ w ∈ t.cache.lost ∧ (∀ q ∈ t.cache.lines, q.1 % 16 ≠ w) ∧ t.dram = s.dram)
  ∧ (∀ (s : State) (p : Path) (v : Nat), Reaches s p Reg.SC_LOCK → pfPath p = true → ∃ t, exec (.scLockWrite p v) s = .next t
      ∧ ∀ w < 16, isLocked t w = (bitOf v w && (isLocked s w || ! (isScratch s w || isOff s w))))
  ∧ (∀ (s : State) (p : Path) (q v : Nat), q < 12 → Reaches s p (slotReg q) → pfPath p = true → rfld s (slotReg q) 0 30 30 = 0 →
      exec (.scratchConvert p q v) s = .next (scratchWrite p q v (dropHalves s p))
        ∧ exec (.scratchRelease p q v) s = .next (scratchWrite p q v (dropHalves s p))
        ∧ (bitOf v 31 = false → rfld (scratchWrite p q v (dropHalves s p)) (slotReg q) 0 31 31 = 0))
  ∧ (∀ (s : State) (q v : Nat), q < 12 → Reaches s (.host 0) (slotReg q) → rfld s (slotReg q) 0 30 30 = 1 →
      exec (.scratchConvert (.host 0) q v) s = .next (dropHalves s (.host 0))
        ∧ exec (.scratchRelease (.host 0) q v) s = .next (dropHalves s (.host 0)))
  ∧ (∀ (s : State) (q : Nat), q < 12 → rfld s (slotReg q) 0 31 31 = 1 → rfld s (slotReg q) 0 0 0 = 0 →
      ∃ t, exec (.scratchReady q) s = .next (serveWaits t) ∧ t.cache.waits = s.cache.waits ∧ rfld t (slotReg q) 0 0 0 = 1
        ∧ (∀ a, slotBase q ≤ a → a < slotBase q + 4194304 → mread t.dram a = 0)
        ∧ ∀ a, a < slotBase q ∨ slotBase q + 4194304 ≤ a → mread t.dram a = mread s.dram a)
  ∧ (∀ (s : State) (slice w : Nat) (bad : List Nat), slice * 16 + w ∈ s.cache.retiring →
      ∃ t, exec (.wayRetireDone slice w bad) s = .next (serveWaits t) ∧ t.cache.waits = s.cache.waits
        ∧ slice * 16 + w ∉ t.cache.retiring ∧ t.dram = s.dram
        ∧ (∀ k, [16, 17].find? (fun p => tgetD s.cache.wstate (slice * 18 + p) 1 == 1) = some k →
          tget t.cache.pway (slice * 16 + w) = some k ∧ tget t.cache.wstate (slice * 18 + k) = some 0)
        ∧ ([16, 17].find? (fun p => tgetD s.cache.wstate (slice * 18 + p) 1 == 1) = none → slice * 16 + w ∈ t.cache.absent)))

/-- The CAM (R407 to R416): a lookup waits until the search step takes it, the lowest class first and in arrival order, and its answer is the
search's; a window write of a valid entry's key or mask is discarded and counted; an update holds its checked records as effects; changes of
a block whose spare load runs wait; a scrubbed error reloads its entry from Frame's copy, and a lasting one its whole block into a spare.
It states that exec answers a next state, under hypotheses on the state and the operands alone, for: camUpdate, camSearch, camWindowWrite,
camLookup, camScrub, camSpareLoadDone. -/
def Obligations.CamCommandsComplete : Prop :=
  ∀ (s : State),
    (∀ fn key lc take,
      let v := { s with cam := { s.cam with waiting := s.cam.waiting ++ [⟨fn, key, lc⟩] } }
      exec (.camLookup fn (key, lc, take)) s = .next (if take = true then camNext v else v))
    ∧ (∀ q, camPick s.cam.waiting = some q → q ∈ s.cam.waiting ∧ (∀ r ∈ s.cam.waiting, q.lc ≤ r.lc)
      ∧ (camNext s).out.searches = s.out.searches ++ [(q, camFind s q.fn q.key)] ∧ (camNext s).cam.waiting = s.cam.waiting.erase q
      ∧ (camNext s).cam.mem = s.cam.mem)
    ∧ (∀ init fn addr bytes,
      let off := addr - 0xFA00000000
      let allowed := 0xFA00000000 ≤ addr ∧ off / 64 < 131072 ∧ (init = 0x94 ∨ (init ≤ 0x93 ∧ holder s.fns.camFn (off / 64 / 8192) = fn))
      (¬ allowed → exec (.camWindowWrite init fn addr bytes) s = .next (deny s init fn addr 0))
      ∧ (allowed → camLoading s (off / 64) = true → exec (.camWindowWrite init fn addr bytes) s = .next (camHold s (.write off bytes)))
      ∧ (allowed → camLoading s (off / 64) = false → camStoredValid s (off / 64) = true → off % 64 < 44 →
          exec (.camWindowWrite init fn addr bytes) s = .next (cntAdd s Reg.CAM_CNT 0 15 0 1))
      ∧ (allowed → camLoading s (off / 64) = false → camStoredValid s (off / 64) = false ∨ 44 ≤ off % 64 →
          exec (.camWindowWrite init fn addr bytes) s = .next (camStore s off bytes)))
    ∧ (∀ id it, itemAt s id 0x30 0 = some it →
      let n := it.body 48 4
      let host := bitOf (it.body 56 1) 0
      let a := it.body 32 8
      let v := itemTouch s it.fn host a (64 * n)
      let recs := chunks 64 n (itemRead s host a (64 * n))
      (a % 64 ≠ 0 → exec (.camUpdate id) s = .next (failItem s id St.alignment 0 0))
      ∧ (a % 64 = 0 → 1 < it.body 56 1 → exec (.camUpdate id) s = .next (failItem s id St.invalidField 0 0))
      ∧ (a % 64 = 0 → it.body 56 1 ≤ 1 →
        (host = false → winIt s it a (64 * n) = false → exec (.camUpdate id) s = .next (failItem s id St.addressRange 0 0))
        ∧ (host = false → winIt s it a (64 * n) = true → poisonedIn s a (64 * n) = true →
            exec (.camUpdate id) s = .next (failItem s id St.dataPoisoned 0 0))
        ∧ ((host = false → winIt s it a (64 * n) = true ∧ poisonedIn s a (64 * n) = false) →
          (∀ st k, camRecFail s it.fn recs 0 = some (st, k) → exec (.camUpdate id) s = .next (failItem v id st k 0))
          ∧ (camRecFail s it.fn recs 0 = none →
              exec (.camUpdate id) s = .next (itemReady (addEffects v id (recs.map (fun r => .cam (leAt r 48 4) (leAt r 45 1) r))) id n 0)))))
    ∧ (∀ id it, itemAt s id 0x31 0 = some it →
      let n := it.body 48 4
      let kh := bitOf (it.body 56 1) 0
      let oh := bitOf (it.body 56 1) 1
      let ka := it.body 32 8
      let oa := it.body 40 8
      let inside := (kh = true ∨ winIt s it ka (32 * n) = true) ∧ (oh = true ∨ winIt s it oa (16 * n) = true)
      (ka % 64 ≠ 0 ∨ oa % 64 ≠ 0 → exec (.camSearch id) s = .next (failItem s id St.alignment 0 0))
      ∧ (ka % 64 = 0 → oa % 64 = 0 →
        (it.body 52 4 = 0xFFFFFFFF → exec (.camSearch id) s = .next (failItem s id St.lengthInvalid 0 0))
        ∧ (it.body 52 4 ≠ 0xFFFFFFFF → it.body 52 4 < 16 * n → exec (.camSearch id) s = .next (failItem s id St.bufferTooSmall 0 0))
        ∧ (it.body 52 4 ≠ 0xFFFFFFFF → 16 * n ≤ it.body 52 4 → ¬ inside → exec (.camSearch id) s = .next (failItem s id St.addressRange 0 0))
        ∧ (it.body 52 4 ≠ 0xFFFFFFFF → 16 * n ≤ it.body 52 4 → inside → kh = false → poisonedIn s ka (32 * n) = true →
            exec (.camSearch id) s = .next (failItem s id St.dataPoisoned 0 0))
        ∧ (it.body 52 4 ≠ 0xFFFFFFFF → 16 * n ≤ it.body 52 4 → inside → (kh = false → poisonedIn s ka (32 * n) = false) →
          let hits := (chunks 32 n (itemRead s kh ka (32 * n))).map (fun r => camFind s it.fn (key144 r))
          ∃ multi,
            let v := camCount (camBefore it.lc (itemTouch s it.fn kh ka (32 * n))) n multi
            multi = (hits.filter (fun h => h.any (fun x => decide (1 < x.count)))).length
            ∧ exec (.camSearch id) s = .next (itemReady (if n = 0 then v else addEffects v id [writeEff oh oa (hits.flatMap camResult)])
              id (hits.filter (·.isSome)).length multi))))
    ∧ (∀ i, i < 131072 → i ∈ s.cam.reload → ∃ t, exec (.camScrub i 0) s = .next (secondFault s t) ∧ i ∉ t.cam.reload
        ∧ mreads t.cam.mem (64 * i) 64 = mreads s.cam.copy (64 * i) 64)
    ∧ (∀ i, i < 131072 → i ∉ s.cam.reload → exec (.camScrub i 0) s = .next (secondFault s s)
        ∧ ∃ t, exec (.camScrub i 1) s = .next (secondFault s t) ∧ i ∈ t.cam.reload ∧ t.cam.mem = s.cam.mem)
    ∧ (∀ i err, i < 131072 → 2 ≤ err → ∃ t, exec (.camScrub i err) s = .next (secondFault s t) ∧ t.cam.mem = s.cam.mem
        ∧ (rfld s Reg.CAM_STAT 0 17 17 = 0 → s.cam.load = none ∨ s.cam.load = some (i / 8192) →
          t.cam.load = some (i / 8192) ∧ i ∈ t.cam.reload)
        ∧ (rfld s Reg.CAM_STAT 0 17 17 ≠ 0 → i ∈ t.cam.dead))
    ∧ (∀ b, s.cam.load = some b → ∃ t, exec .camSpareLoadDone s = .next (s.cam.updates.foldl camResume t) ∧ t.cam.load = none
        ∧ t.cam.updates = []
        ∧ ∀ a, mread t.cam.mem a = if b * 524288 ≤ a ∧ a < b * 524288 + 524288 then mread s.cam.copy a else mread s.cam.mem a)

/-- A search answers with the best entry (R409): of the valid entries of the function's blocks that match, one of the highest priority, and
of those the one of the lowest index; MCOUNT is the number of matching entries at that priority, saturating at 65,535, and MULTI says that
there are several; with no match HIT, the result and MCOUNT are 0, and a function that holds no block matches nothing. -/
def Obligations.CamSearchFindsTheBestEntry : Prop :=
  ∀ (s : State) (fn k : Nat), memWf s.cam.mem = true →
    let mine := fun (i : Nat) => holder s.fns.camFn (i / 8192) = fn ∧ leavingUnit s 5 (i / 8192) = false ∧ camMatches s k i = true
    (∀ h, camFind s fn k = some h → mine h.index ∧ h.prio = camPrio s h.index ∧ h.result = leAt (camEntry s h.index) 40 4
      ∧ (∀ i, mine i → camPrio s i ≤ h.prio ∧ (camPrio s i = h.prio → h.index ≤ i))
      ∧ (∃ best : List Nat, best.Nodup ∧ (∀ i, i ∈ best ↔ mine i ∧ camPrio s i = h.prio) ∧ h.count = min 65535 best.length)
      ∧ (bitOf (leAt (camResult (some h)) 10 1) 0 = true ∧ bitOf (leAt (camResult (some h)) 10 1) 1 = decide (1 < h.count)
        ∧ leAt (camResult (some h)) 12 2 = h.count))
    ∧ (camFind s fn k = none → ∀ i, ¬ mine i)
    ∧ (leAt (camResult none) 0 4 = 0 ∧ leAt (camResult none) 10 1 = 0 ∧ leAt (camResult none) 12 2 = 0)
    ∧ ((∀ b, holder s.fns.camFn b ≠ fn) → camFind s fn k = none)

/-! ## Power, clocks and modes (chapter 21) -/

/-- Mode requests (R441, R442, R445, R485): each register form writes TOP_MODE_REQ and is judged as it takes effect; a request in a mode
that accepts work starts the drain; the item form is refused for a target outside 2 to 5 and otherwise waits with its item.
It states that exec answers a next state, under hypotheses on the state and the operands alone, for: modeRequest, modeReqResume,
modeReqDrain, modeReqRetain, modeReqMaintain, modeReqOffReady. -/
def Obligations.ModeRequestsAreJudged : Prop :=
  (∀ (s : State) (p : Path), reqPath p s = true →
    let row := fun (target : Nat) (stop : Bool) =>
      modeReqWrite (regPut s Reg.TOP_MODE_REQ 0 (target + 16 * b2n stop)) (target + 16 * b2n stop)
    exec (.modeReqResume p) s = .next (row 1 false) ∧ exec (.modeReqRetain p) s = .next (row 3 false)
      ∧ exec (.modeReqMaintain p) s = .next (row 4 false) ∧ exec (.modeReqOffReady p) s = .next (row 5 false)
      ∧ (∀ stop, exec (.modeReqDrain p stop) s = .next (row 2 stop))
      ∧ ∀ target stop, 2 ≤ target → target ≤ 5 →
        (workMode (modeOf s) = true → s.pwr.req = none → modeOf (row target stop) = Mode.drain ∧ (row target stop).pwr.reqErr = 0
          ∧ ((row target stop).pwr.req.map (·.target)) = some target)
        ∧ (∀ q, workMode (modeOf s) = true → s.pwr.req = some q → (row target stop).pwr.reqErr = ReqErr.busy
          ∧ modeOf (row target stop) = modeOf s))
  ∧ (∀ (s : State) (p : Path) (stop : Bool), reqPath p s = false →
      let t := if p = .jtag ∧ s.pwr.por = false then deny s 0xA2 0 (0xFE00000000 + Reg.TOP_MODE_REQ) 1 else s
      exec (.modeReqResume p) s = .next t ∧ exec (.modeReqDrain p stop) s = .next t ∧ exec (.modeReqRetain p) s = .next t
        ∧ exec (.modeReqMaintain p) s = .next t ∧ exec (.modeReqOffReady p) s = .next t)
  ∧ ∀ (s : State) (id : Nat) (it : Item), itemAt s id 0x60 8 = some it →
      let t := it.body 32 1
      (t < 2 ∨ 5 < t → exec (.modeRequest id) s = .next (failItem s id St.invalidField 0 0))
      ∧ (2 ≤ t → t ≤ 5 →
        let q : ModeReq := { target := t, ingestStop := bitOf (it.body 33 1) 0, drainMs := it.body 36 4,
                             wakeAt := if t = 3 then it.body 40 8 else 0, item := some id, since := 0 }
        (∀ u, modeRequest s q = .ok u → exec (.modeRequest id) s = .next (toEngine u id))
        ∧ (modeRequest s q = .error ReqErr.busy → exec (.modeRequest id) s = .next (failItem s id St.modeBusy 0 0))
        ∧ (∀ e, e ≠ ReqErr.busy → modeRequest s q = .error e → exec (.modeRequest id) s = .next (failItem s id St.modeInvalid 0 0)))

/-- The end of a drain (R442, R443, R445): with its conditions met, a drain toward Drain completes in Drain, one toward Maintain enters it
or is refused by a hot sensor, and one toward Retain or OFF_READY writes the map snapshot first; a drain that exceeds DRAIN_MS aborts the
items that remain; the controller moves between Idle, Serve and Batch on its own.
The mode controller's own moves (R439, R445).
It states that exec answers a next state, under hypotheses on the state and the operands alone, for: modeAutoMove, drainComplete,
drainTimeout. -/
def Obligations.DrainsCompleteInTheirMode : Prop :=
  (
  ∀ (s : State) (q : ModeReq), s.pwr.req = some q → modeOf s = Mode.drain →
    (drained s q = false ∨ reqMay s q = false → exec .drainComplete s = .next s)
    ∧ (drained s q = true → reqMay s q = true → q.target = 2 → exec .drainComplete s = .next (reqDone s q Mode.drain))
    ∧ (drained s q = true → reqMay s q = true → q.target = 4 →
        (s.pwr.temps.any (fun t => decide (tripTemp s - 40 ≤ t.2)) = true → exec .drainComplete s = .next (maintainRefused s q))
        ∧ (s.pwr.temps.any (fun t => decide (tripTemp s - 40 ≤ t.2)) = false →
            exec .drainComplete s = .next (reqDone (setMode s Mode.maintain) q Mode.maintain)))
    ∧ (drained s q = true → reqMay s q = true → q.target = 3 ∨ q.target = 5 → s.led.pool.isSome = true → q.snapBegun = false → s.led.snap = none →
        exec .drainComplete s = .next (beginSnap { s with pwr := { s.pwr with req := some { q with snapBegun := true } } }))
    ∧ (drained s q = true → q.target = 3 ∨ q.target = 5 → s.led.snap.isSome = true → exec .drainComplete s = .next s)
    ∧ (drained s q = true → reqMay s q = true → s.led.pool = none ∨ q.snapBegun = true → s.led.snap = none →
        (q.target = 5 → exec .drainComplete s = .next (reqDone s q Mode.drain))
        ∧ (q.target = 3 → exec .drainComplete s = .next (retainEntry (reqDone s q Mode.retain) q.wakeAt)))
    ∧ (q.drainMs ≠ 0 → q.since + 1000000 * q.drainMs ≤ now s → exec .drainTimeout s = .next (abortAll s q.item))
    ∧ (q.drainMs = 0 ∨ now s < q.since + 1000000 * q.drainMs → exec .drainTimeout s = .next s))
  ∧
  (
  ∀ (s : State),
    (workMode (modeOf s) = true →
      exec .modeAutoMove s = .next (setMode s (if batchHeld s then Mode.batch else if busyNow s then Mode.serve else Mode.idle)))
    ∧ (modeOf s = Mode.maintain → s.pwr.maintAuto = true → ledgerOp s = false → exec .modeAutoMove s
        = .next (schedule (setMode { s with pwr := { s.pwr with maintAuto := false } } Mode.idle)))
    ∧ (workMode (modeOf s) = false → modeOf s ≠ Mode.maintain → exec .modeAutoMove s = .next s))

/-- DEVTIME (R435, R484): an edge adds 833, 834 or 833 ns by its phase, modulo 2^64, restarts the FCLK count and applies the posted writes,
of several to one register the last; posting leaves every register as it is; a write of AON_DEVTIME below DEVTIME, or outside Provision,
is discarded.
It states that exec answers a next state, under hypotheses on the state and the operands alone, for: devtimeWrite, aonPostedWrite, aclkEdge. -/
def Obligations.DevtimeAdvancesAtEdges : Prop :=
  ∀ (s : State),
    (s.pwr.por = false →
      let u := { s with
        pwr := { s.pwr with devtime := (s.pwr.devtime + aclkStep s.pwr.phase) % 2 ^ 64, phase := (s.pwr.phase + 1) % 3, fclk := 0,
                            timebaseOn := s.pwr.mode != Mode.retain },
        regs := { s.regs with posted := s.regs.posted.drop 16 } }
      exec .aclkEdge s = .next (aonCopy (drainEvents ((lastWrites (s.regs.posted.take 16)).foldl aonApply u)))
        ∧ (s.regs.posted = [] → ∃ t, exec .aclkEdge s = .next t ∧ t.pwr.devtime = (s.pwr.devtime + aclkStep s.pwr.phase) % 2 ^ 64
            ∧ t.pwr.phase = (s.pwr.phase + 1) % 3 ∧ t.regs.vals = s.regs.vals ∧ t.dram = s.dram))
    ∧ (s.pwr.por = true → exec .aclkEdge s = .next s)
    ∧ (aclkStep 0 = 833 ∧ aclkStep 1 = 834 ∧ aclkStep 2 = 833 ∧ aclkStep 0 + aclkStep 1 + aclkStep 2 = 2500)
    ∧ (∀ p off v, reqPath p s = false ∨ aonWritable p off = false → exec (.aonPostedWrite p off v) s = .next s)
    ∧ (∀ p off v, reqPath p s = true → aonWritable p off = true →
        exec (.aonPostedWrite p off v) s = .next { s with regs := { s.regs with posted := s.regs.posted ++ [⟨p, off, v⟩] } })
    ∧ (∀ w, (lastWrites (s.regs.posted.take 16)).find? (fun w => w.off == Reg.AON_DEVTIME) = some w → ∃ t, exec .devtimeWrite s = .next t
        ∧ t.pwr.devtime = (if modeOf s = Mode.provision ∧ s.pwr.devtime ≤ w.val then w.val % 2 ^ 64 else s.pwr.devtime)
        ∧ t.regs.posted = (s.regs.posted.take 16).filter (fun x => x.off != Reg.AON_DEVTIME) ++ s.regs.posted.drop 16)

/-- Sensors and power (R446 to R450): a sample sets every sensor's reading, and a sensor at the trip threshold twice in a row trips; an
estimate sets the power readings and moves only the ceilings of the clusters the limit may move.
It states that exec answers a next state, under hypotheses on the state and the operands alone, for: thermalSample, powerEstimate. -/
def Obligations.SamplesDriveTheLoops : Prop :=
  ∀ (s : State), s.pwr.por = false → s.pwr.mode ≠ Mode.retain →
    (∀ temps, temps.length = 64 → (∀ k ∈ s.pwr.hot, ∀ t, temps[k]? = some t → t < tripTemp s) → s.pwr.therm = false →
      ∃ u, exec (.thermalSample temps) s = .next u
        ∧ (∀ k, k < 64 → tget u.pwr.temps k = temps[k]?)
        ∧ (∀ c < 16, (getCluster u c).step = nextStep stepAt (getCluster s c).step ((temps[c]?).getD 0) ∧ (getCluster u c).st = (getCluster s c).st)
        ∧ (∀ k, k ∈ u.pwr.hot ↔ ∃ t, temps[k]? = some t ∧ tripTemp s ≤ t)
        ∧ u.pwr.therm = false ∧ modeOf u = modeOf s ∧ u.dram = s.dram)
    ∧ (∀ temps k t, temps.length = 64 → k ∈ s.pwr.hot → temps[k]? = some t → tripTemp s ≤ t → s.pwr.therm = false →
        ∃ u, exec (.thermalSample temps) s = .next u ∧ u.pwr.therm = true ∧ (∀ c < 16, (getCluster u c).st = .gated))
    ∧ (∀ total perCl, ∃ u, exec (.powerEstimate total perCl) s = .next u ∧ u.pwr.mwTotal = total % 2 ^ 32
        ∧ (1000 * rfld s Reg.PWR_LIMIT 0 8 0 < total → ∀ c ∈ lowerSet s, (getCluster u c).limitMhz = max 400 (ceil_ s c - 200))
        ∧ (100 * total ≤ 95 * (1000 * rfld s Reg.PWR_LIMIT 0 8 0) → ∀ c ∈ raiseSet s, (getCluster u c).limitMhz = min 2000 (ceil_ s c + 200))
        ∧ (∀ c, c ∉ limitable s → getCluster u c = getCluster s c) ∧ u.qm = s.qm ∧ u.dram = s.dram)

/-! ## Security, start-up, faults, registers and administration (chapters 14, 20, 22 to 24) -/

/-- Requests that Sill serves (R427, R428, R430, R432): STATUS, ATTEST and CERTS are answered in every mode that Sill serves in; the other
commands of Table 20-4 are denied in Lockdown and have their effect elsewhere. Which answers an unlisted request, and the limits of a
firmware write, are the model's choices of log entry 26.
It states that exec answers a next state, under hypotheses on the state and the operands alone, for: mgmtPacket, status, attest, certs,
fwWrite, fwCommit, fwAccept, debugOpen. -/
def Obligations.SillRequestsAreServed : Prop :=
  ∀ (s : State) (src : Nat) (data : List Byte) (u : State) (r : SReq),
    (Asked s 0x01 src data u r →
      exec (.status src data) s = .next (answerReq u r 0 (natLE 4 (secStatus u) ++ natLE 8 Config.devser.toNat)))
    ∧ (Asked s 0x02 src data u r →
        (r.data.length = 32 → ∃ sig, sig.length = 96
          ∧ exec (.attest src data) s = .next (answerReq { u with freeCtr := u.freeCtr + 1 } r 0 (reportBytes u r.data ++ sig)))
        ∧ (r.data.length ≠ 32 → exec (.attest src data) s = .next (answerReq u r St.secBadCmd [])))
    ∧ (Asked s 0x03 src data u r → exec (.certs src data) s = .next (answerReq u r 0 (certBytes u)))
    ∧ (Asked s 0x10 src data u r →
        (modeOf s = Mode.lockdown → exec (.fwWrite src data) s = .next (answerReq u r St.secDenied []))
        ∧ (modeOf s ≠ Mode.lockdown → fwOther u r = true → exec (.fwWrite src data) s = .next (answerReq u r St.secBusy []))
        ∧ (modeOf s ≠ Mode.lockdown → fwOther u r = false →
            (r.data.length ≤ 4 ∨ 4096 < r.data.length ∨ slotSize30 < leAt r.data 0 4 + (r.data.length - 4)) →
            exec (.fwWrite src data) s = .next (answerReq u r St.secBadCmd []))
        ∧ (modeOf s ≠ Mode.lockdown → 4 < r.data.length → r.data.length ≤ 4096 → leAt r.data 0 4 + (r.data.length - 4) ≤ slotSize30 →
            fwOther u r = false →
            let k := inactiveSlot u
            let w := if u.sec.fwSrc = none then flashErase u k else u
            exec (.fwWrite src data) s = .next (answerReq (flashWrite { w with sec := { w.sec with fwSrc := some r.src } }
              (slotAddr k + leAt r.data 0 4) (r.data.drop 4)) r 0 [])))
    ∧ (Asked s 0x11 src data u r → ∀ faults,
        (modeOf s = Mode.lockdown → exec (.fwCommit src data faults) s = .next (answerReq u r St.secDenied []))
        ∧ (modeOf s ≠ Mode.lockdown → fwOther u r = true → exec (.fwCommit src data faults) s = .next (answerReq u r St.secBusy []))
        ∧ (modeOf s ≠ Mode.lockdown → fwOther u r = false → r.data.length ≠ 4 → exec (.fwCommit src data faults) s
            = .next (answerReq { u with sec := { u.sec with fwSrc := none } } r St.secBadCmd []))
        ∧ (modeOf s ≠ Mode.lockdown → fwOther u r = false → r.data.length = 4 →
            let w := { u with sec := { u.sec with fwSrc := none } }
            let v := verifySlot w (inactiveSlot w) (bitOf faults 0) (bitOf faults 1)
            (v = .fault → exec (.fwCommit src data faults) s = .next (sillFault w))
            ∧ (v = .rollback → exec (.fwCommit src data faults) s = .next (answerReq w r St.secFwRollback []))
            ∧ (v = .bad → exec (.fwCommit src data faults) s = .next (answerReq w r St.secFwVerify []))
            ∧ (∀ i, v = .ok i → leAt (slotHead w (inactiveSlot w)) 12 4 + 512 ≠ leAt r.data 0 4 →
                exec (.fwCommit src data faults) s = .next (answerReq w r St.secFwVerify []))
            ∧ (∀ i p, v = .ok i → leAt (slotHead w (inactiveSlot w)) 12 4 + 512 = leAt r.data 0 4 → bootPtr w = some p →
                exec (.fwCommit src data faults) s
                  = .next (answerReq (writePtr w { p with try_ := inactiveSlot w, tried := 0 }) r 0 []))))
    ∧ (Asked s 0x12 src data u r → modeOf s = Mode.lockdown → exec (.fwAccept src data) s = .next (answerReq u r St.secDenied []))
    ∧ (Asked s 0x12 src data u r → modeOf s ≠ Mode.lockdown → ∀ p, bootPtr u = some p →
        (fwOther u r = true ∨ workMode (modeOf s) = false ∨ p.try_ ≠ u.sec.slot →
          exec (.fwAccept src data) s = .next (answerReq u r St.secBusy []))
        ∧ (fwOther u r = false → workMode (modeOf s) = true → p.try_ = u.sec.slot →
            let w := writePtr u { p with active := u.sec.slot, try_ := 0xFF }
            exec (.fwAccept src data) s
              = .next (answerReq { w with sec := { w.sec with svnFused := max w.sec.svnFused (min 64 w.sec.svnRun) } } r 0 [])))
    ∧ (Asked s 0x20 src data u r → modeOf s = Mode.lockdown → ∀ fault,
        exec (.debugOpen src data fault) s = .next (answerReq u r St.secDenied []))
    ∧ (Asked s 0x20 src data u r → modeOf s ≠ Mode.lockdown →
        (bitOf u.sec.revoked 3 = false → Config.tokenOk r.data = true →
          let w := (List.range 64).foldl eraseSlot u
          exec (.debugOpen src data false) s = .next (answerReq { w with sec := { w.sec with debugOpen := true } } r 0 []))
        ∧ (bitOf u.sec.revoked 3 = true ∨ Config.tokenOk r.data = false →
            exec (.debugOpen src data false) s = .next (answerReq u r St.secDenied []))
        ∧ exec (.debugOpen src data true) s = .next (sillFault u))
    ∧ (∀ (w : State) (q : SReq) (st : Nat) (d : List Byte), q.src = 0 → (answerReq w q st d).sec.status = st ∧ (answerReq w q st d).sec.answer = d
        ∧ (answerReq w q st d).sec.reqs = w.sec.reqs.erase q ∧ (answerReq w q st d).dram = w.dram ∧ (answerReq w q st d).qm = w.qm)
    ∧ (∀ n k w, s.sec.reqs.any (fun q => q.src == n + 2) = false → modeOf s ≠ Mode.lockdown → takeInbox s n 2 9 = some (k, w) →
        exec (.mgmtPacket n) s = .next (sillArrive w ⟨n + 2, leAt k.body 0 1, k.body.drop 1⟩))

/-- POR_L, PERST#, and the wakes of Retain (R496, R497, R443, R504): asserting POR_L takes the device to Off from any mode, with DEVTIME and
the event log reset and what R452 names left; releasing it enters Boot, and a fuse shadow that differs enters Lockdown; a wake source that
is enabled boots the device and is recorded.
Frame start-up, steps 6 and 7 (R502): drives that are ready, or the end of their 10 s, size L and recover the pool; once DRAM is filled
and recovery has ended the device leaves Provision: to Idle, or to Maintain while a Ledger operation that R445 names runs.
It states that exec answers a next state, under hypotheses on the state and the operands alone, for: porAssert, porRelease, driveReady,
driveReadyTimeout, dramFillDone, wakePin, wakeTimer, wakeSmbus, perstDeassert, perstAssert. -/
def Obligations.ResetsWakesAndStartUp : Prop :=
  (
  (∀ (s : State), ∃ t, exec .porAssert s = .next t ∧ modeOf t = Mode.off ∧ t.pwr.por = true ∧ t.pwr.devtime = 0 ∧ t.pwr.evLog = {}
      ∧ t.pwr.evQueue = [] ∧ t.qm = {} ∧ t.dram = [] ∧ t.regs = {} ∧ t.cores = [] ∧ t.sec.flash = s.sec.flash
      ∧ t.sec.revoked = s.sec.revoked ∧ t.sec.svnFused = s.sec.svnFused ∧ t.host = s.host ∧ t.out = s.out ∧ t.pending = s.pending)
  ∧ (∀ (s : State) (shadowBad : Bool) (faults : Nat) (sens : List Int),
      (s.pwr.por = false → exec (.porRelease shadowBad faults sens) s = .next s)
      ∧ (s.pwr.por = true →
          let u := logEvent { s with pwr := { s.pwr with por := false, mode := Mode.boot, prev := Mode.off, smbAddr := 0x68 + s.pwr.smbStrap % 4 } }
            Ev.modeChange 0xFF Mode.off Mode.boot 0
          (shadowBad = true → exec (.porRelease shadowBad faults sens) s = .next (lockdown u 5) ∧ modeOf (lockdown u 5) = Mode.lockdown
            ∧ (lockdown u 5).sec.cause = 5)
          ∧ (shadowBad = false → modeOf (bootVerify u faults) = Mode.provision →
              exec (.porRelease shadowBad faults sens) s = .next (startFrame (bootVerify u faults) false sens))
          ∧ (shadowBad = false → modeOf (bootVerify u faults) ≠ Mode.provision →
              exec (.porRelease shadowBad faults sens) s = .next (bootVerify u faults))))
  ∧ (∀ (s : State) (faults : Nat) (sens : List Int), modeOf s = Mode.retain →
      let up := fun (u : State) (src : Nat) =>
        boot (setMode { u with pwr := { u.pwr with wakeCause := 2 ^ src, wakeAt := 0 } } Mode.boot) true faults sens
      (bitOf s.pwr.wakeEn 0 = true → exec (.wakePin faults sens) s = .next (up s 0))
      ∧ (bitOf s.pwr.wakeEn 0 = false → exec (.wakePin faults sens) s = .next s)
      ∧ (bitOf s.pwr.wakeEn 1 = true → s.pwr.wakeAt ≠ 0 → s.pwr.wakeAt ≤ s.pwr.devtime → exec (.wakeTimer faults sens) s = .next (up s 1))
      ∧ (bitOf s.pwr.wakeEn 1 = false ∨ s.pwr.wakeAt = 0 ∨ s.pwr.devtime < s.pwr.wakeAt → exec (.wakeTimer faults sens) s = .next s)
      ∧ (let u := { s with out := { s.out with smbus := s.out.smbus ++ [[]] } }
         (bitOf s.pwr.wakeEn 2 = true → exec (.wakeSmbus faults sens) s = .next (up u 2))
         ∧ (bitOf s.pwr.wakeEn 2 = false → exec (.wakeSmbus faults sens) s = .next u))
      ∧ (s.pwr.perst = true → let u := { s with pwr := { s.pwr with perst := false } }
          (bitOf s.pwr.wakeEn 3 = true → exec (.perstDeassert faults sens) s = .next (up u 3))
          ∧ (bitOf s.pwr.wakeEn 3 = false → exec (.perstDeassert faults sens) s = .next u)))
  ∧ ∀ (s : State),
      (s.pwr.perst = true → modeOf s ≠ Mode.retain → ∀ faults sens,
        exec (.perstDeassert faults sens) s = .next { s with pwr := { s.pwr with perst := false } })
      ∧ (s.pwr.perst = false → let u := { s with pwr := { s.pwr with perst := true } }
          (modeOf s ≠ Mode.off → modeOf s ≠ Mode.retain → modeOf s ≠ Mode.boot →
            exec .perstAssert s = .next (vfClear (fnReset u 0)))
          ∧ (modeOf s = Mode.off ∨ modeOf s = Mode.retain ∨ modeOf s = Mode.boot → exec .perstAssert s = .next u)))
  ∧
  (
  ∀ (s : State), modeOf s = Mode.provision →
    (s.pwr.startStep = 5 → ∀ found,
      (now s ≤ s.pwr.drivesAt + 10000000000 → exec (.driveReady found) s = .next (drivesReady s found))
      ∧ (s.pwr.drivesAt + 10000000000 ≤ now s → exec (.driveReadyTimeout found) s = .next (drivesReady s found)))
    ∧ (s.pwr.startStep = 6 →
        let u := frameTables (if s.pwr.fromRetain then s else fillDram s)
        let t := { u with pwr := { u.pwr with startStep := 7, fromRetain := false } }
        (ledgerOp t = true →
          exec .dramFillDone s = .next (setMode { t with pwr := { t.pwr with maintAuto := true } } Mode.maintain))
        ∧ (ledgerOp t = false → exec .dramFillDone s = .next (schedule (setMode t Mode.idle))))
    ∧ (s.pwr.startStep ≠ 6 → exec .dramFillDone s = .next s))

/-- Detected errors and Recover (R259, R456, R457, R459 to R462, R468, R469): a transient error is counted in its class and nothing else
happens; a lasting error during Recover enters Hold; a defective row of an array uses a redundancy row, and what the row lost is restored
or lost; a lasting fault of a tile with a spare enters Recover, and without one its logical number goes; the spare takes the failed tile's
logical number; when every replayed thread has run again the device returns to the mode it left.
It states that exec answers a next state, under hypotheses on the state and the operands alone, for: detectedError, spareTileRemap,
tileBistDone, recoverEnd. -/
def Obligations.DetectedErrorsRecover : Prop :=
  (∀ (s : State) (cls unit : Nat), modeOf s ≠ Mode.off → modeOf s ≠ Mode.retain → modeOf s ≠ Mode.lockdown → unitOn s cls unit = true →
    let v := if cls = 3 then cntAdd s Reg.SC_ERR_CNT 0 31 16 1 else s
    let told := fun (form : Nat) => if cls = 5 ∧ form = 1 then s else rasCount v cls true
    let u := useRow (rasCount v cls true) cls unit
    (exec (.detectedError cls unit 0) s = .next (rasCount v cls false)
      ∧ tgetD (rasCount v cls false).ras.transient cls 0 = min (tgetD s.ras.transient cls 0 + 1) (2 ^ 32 - 1)
      ∧ modeOf (rasCount v cls false) = modeOf s ∧ (rasCount v cls false).sched = s.sched)
    ∧ (modeOf s = Mode.recover → cls ≠ 9 → ∀ form, 1 ≤ form → form ≤ 3 →
        exec (.detectedError cls unit form) s = .next (holdEntry (told form) 5))
    ∧ (modeOf s ≠ Mode.recover ∨ cls = 9 → ∀ form, 1 ≤ form → form ≤ 3 → (form = 1 ∨ s.ras.sramFree = 0 ∨ inArray cls = false) →
        exec (.detectedError cls unit form) s = .next (unitFault (told form) cls unit))
    ∧ (modeOf s ≠ Mode.recover → cls ≤ 2 → unit < 144 → ∀ m, logTile s unit = some m →
        let w := rasCount s cls true
        (spareFreeIn s (unit / 9) = true → mayRecover s = true →
          exec (.detectedError cls unit 1) s = .next (enterRecover w unit m 1 false))
        ∧ (spareFreeIn s (unit / 9) = true → mayRecover s = false →
          exec (.detectedError cls unit 1) s = .next (remapTile (takeBack w m) unit m))
        ∧ (spareFreeIn s (unit / 9) = false → exec (.detectedError cls unit 1) s = .next (tileGone w unit m)))
    ∧ (modeOf s ≠ Mode.recover → inArray cls = true → 0 < s.ras.sramFree →
        exec (.detectedError cls unit 2) s = .next u
        ∧ (cls ≠ 1 → exec (.detectedError cls unit 3) s
          = .next (if cls = 3 then badLine u (unit / 16384) (unit / 1024 % 16) (unit % 1024) else u))
        ∧ (cls = 1 → 144 ≤ unit → exec (.detectedError cls unit 3) s = .next (holdEntry u 6))
        ∧ (cls = 1 → unit < 144 → ∀ m, logTile s unit = some m → exec (.detectedError cls unit 3) s
          = .next (if mayRecover s = true then enterRecover u unit m 6 true else schedule (tileStart (takeBack u m) unit)))))
  ∧ (∀ (s : State) (r : Recovery), s.ras.rcv = some r → modeOf s = Mode.recover →
      (r.fenced = true → kimgValid s = true →
          let c := r.phys / 9
          let lm := setFld (s.ras.lmapOf c) (4 * (r.logical % 8) + 3) (4 * (r.logical % 8)) 8
          let ps := setFld (setFld (s.ras.pstateOf c) (2 * (r.phys % 9) + 1) (2 * (r.phys % 9)) 2) 17 16 0
          let u := { s with ras := { s.ras with
            lmap := tset s.ras.lmap c lm, pstate := tset s.ras.pstate c ps, rcv := some { r with fenced := false } } }
          exec .spareTileRemap s
            = .next (schedule (logEvent (tileStart (coreOff u r.phys) (9 * c + 8)) Ev.spareIn 0xFF 1 r.phys (9 * c + 8))))
      ∧ (recovered s r = true →
          let us := (now s - r.startAt) / 1000
          let u := { s with ras := { s.ras with
            rcv := none, recCount := satAdd 32 s.ras.recCount 1, lastUs := min us 0xFFFF, maxUs := max s.ras.maxUs (min us 0xFFFF) } }
          exec .recoverEnd s = .next (judgeWaiting (schedule (logEvent (setMode u s.pwr.recoverFrom) Ev.recovery 0xFF r.kind us r.logical))))
      ∧ (recovered s r = false → exec .recoverEnd s = .next s))
  ∧ ∀ (s : State) (p : Nat), s.ras.bist.contains p = true →
      let u := { s with ras := { s.ras with bist := s.ras.bist.filter (· != p) } }
      let done := fun (bad : Bool) => rasCount (logEvent u Ev.tileHalt 0xFF p (getCore s p).epc.toNat (b2n bad)) 2 bad
      exec (.tileBistDone p true) s = .next (schedule (tileStart (done false) p))
        ∧ exec (.tileBistDone p false) s = .next (tileFault (done true) p)

/-- Register writes (R15, R475, R476, R481, R482): a request of a refused shape, target or path is denied and counted; an 8-byte write of a
register that is open stores it by its rules, or rewrites the instance when it mismatches; of a 64-bit register the low half waits for its
high half; the layout memory, the mailbox and the MSI-X tables take their bytes; a scrub that finds a mismatch raises CFG_PARITY and freezes
the owner's queues, or enters Hold when the device owns the register.
It states that exec answers a next state, under hypotheses on the state and the operands alone, for: cfgParityScrub, cfgParityRewrite,
registerWrite. -/
def Obligations.RegisterWritesAreGated : Prop :=
  (∀ (s : State) (p : Path) (a n v : Nat),
    let u := dropHalves s p
    let at_ := fun (n : Nat) (t : RegTarget) =>
      pathUp s p = true ∧ regShape a n = true ∧ targetOf (pathFn p) a = some t ∧ denyClass s p (some t) = none
    (pathUp s p = false → exec (.registerWrite p a n v) s = .next s)
    ∧ (pathUp s p = true → regShape a n = false ∨ targetOf (pathFn p) a = none ∨ (denyClass s p (targetOf (pathFn p) a)).isSome = true →
        exec (.registerWrite p a n v) s = .next (deny u (pathInit p) (pathTag p) (regAddr a)
          ((denyClass s p (targetOf (pathFn p) a)).getD 1)))
    ∧ (∀ t, at_ n t → regOpen s p t = false → exec (.registerWrite p a n v) s = .next u)
    ∧ (∀ off, at_ 8 (.reg off) → regOpen s p (.reg off) = true →
        exec (.registerWrite p a 8 v) s = .next (regStore u p (pathFn p) off v))
    ∧ (∀ off, at_ 4 (.reg off) → regOpen s p (.reg off) = true →
        (reg64 off = false → exec (.registerWrite p a 4 v) s
          = .next (if a % 8 = 0 then regStore u p (pathFn p) off (v % 2 ^ 32) else u))
        ∧ (reg64 off = true → a % 8 = 0 → exec (.registerWrite p a 4 v) s
          = .next { u with regs := { u.regs with halfW := tset u.regs.halfW (pathNum p) (off, v % 2 ^ 32) } })
        ∧ (reg64 off = true → a % 8 ≠ 0 → exec (.registerWrite p a 4 v) s = .next (match tget s.regs.halfW (pathNum p) with
          | some (o, h) => if o = off then regStore u p (pathFn p) off (v % 2 ^ 32 * 2 ^ 32 + h) else u
          | none => u)))
    ∧ (∀ o, at_ n (.errlog o) ∨ at_ n (.evlog o) ∨ at_ n (.pba o) → exec (.registerWrite p a n v) s = .next u)
    ∧ (∀ o, at_ n (.layMem o) → regOpen s p (.layMem o) = true →
        exec (.registerWrite p a n v) s = .next (doLayoutMemWrite p o (natLE n v) u))
    ∧ (∀ o, at_ n (.mbox o) → regOpen s p (.mbox o) = true →
        exec (.registerWrite p a n v) s = .next { u with sec := { u.sec with mbox := mwrite u.sec.mbox o (natLE n v) } })
    ∧ (∀ o, at_ n (.msix o) → regOpen s p (.msix o) = true →
        exec (.registerWrite p a n v) s = .next (msixWrite u (pathFn p) o (natLE n v))))
  ∧ (∀ (s : State) (off inst : Nat), instIs s off inst = true → instBad s off inst = false → modeOf s ≠ Mode.off → modeOf s ≠ Mode.retain →
      exec (.cfgParityScrub off inst false) s = .next s
      ∧ (parOwned off = false →
          let u := { s with regs := { s.regs with bad := s.regs.bad ++ [(off, inst)], parCnt := satAdd 32 s.regs.parCnt 1 } }
          exec (.cfgParityScrub off inst true) s = .next (holdEntry (logEvent u Ev.cfgParity 0 off (instSel s off inst) 0) 1))
      ∧ (parOwned off = true → ∃ t, exec (.cfgParityScrub off inst true) s = .next t
          ∧ t.regs.parCnt = min (s.regs.parCnt + 1) (2 ^ 32 - 1) ∧ t.regs.vals = s.regs.vals ∧ modeOf t = modeOf s
          ∧ ∀ d ∈ activeQueues s, (getQ s d).st = .active → queueHolder s d = instOwner s off inst → (getQ t d).st = .frozen))
  ∧ ∀ (s : State) (p : Path) (off v i : Nat), rowOpen s p off = true → (regFields off).isSome = true →
      regInst s p (pathFn p) off = some i →
      (instBad s off i = true →
        exec (.cfgParityRewrite p off v) s = .next (parCured (parStore (dropHalves s p) p (pathFn p) off i v) off i))
      ∧ (instBad s off i = false → exec (.cfgParityRewrite p off v) s = .next s)

/-- Denied register writes (R15, R420): a command that writes a register which its path may not reach is discarded, and the denial is
counted, saturating, and recorded with its initiator, function and target class, and logged as an event. -/
def Obligations.DeniedWritesAreCounted : Prop :=
  ∀ (c : Instr) (s : State) (p : Path) (off cls : Nat), rowTarget c = some (p, off) → denyClass s p (some (.reg off)) = some cls →
    (pathUp s p = false → exec c s = .next s)
    ∧ (pathUp s p = true → ∃ t, exec c s = .next t
        ∧ rfld t Reg.SEC_DENY_CNT 0 63 32 = min (rfld s Reg.SEC_DENY_CNT 0 63 32 + 1) (2 ^ 32 - 1)
        ∧ rfld t Reg.SEC_DENY_CNT 0 23 16 = pathInit p % 256 ∧ rfld t Reg.SEC_DENY_CNT 0 15 8 = pathTag p % 256
        ∧ rfld t Reg.SEC_DENY_CNT 0 7 0 = cls % 256
        ∧ (∀ o i, regKey o i ≠ regKey Reg.SEC_DENY_CNT 0 → regGet t o i = regGet s o i)
        ∧ (s.pwr.evQueue.length < 64 →
            t.pwr.evQueue = s.pwr.evQueue ++ [eventBytes s Ev.accessDenied (pathTag p) (pathInit p * 256 + pathTag p) (regAddr off) cls])
        ∧ t.qm = s.qm ∧ t.cores = s.cores ∧ t.fns = s.fns ∧ t.ciph = s.ciph ∧ t.dmc = s.dmc ∧ t.bry = s.bry ∧ t.ing = s.ing
        ∧ t.dram = s.dram ∧ t.host = s.host)

/-- ABORT, RESUME_QUEUE, SPARE_REPORT and STATE_DUMP: their checks in order, and their effects. RESULT0 of an ABORT holds its target
whatever the status; an ORDERED one, and one whose completion has no place, waits; a resumed queue flushes first where it is told to; a
report and a dump are written at the item's commit point.
It states that exec answers a next state, under hypotheses on the state and the operands alone, for: abort, resumeQueue, stateDump,
spareReport. -/
def Obligations.AdminItemsComplete : Prop :=
  (∀ (s : State) (id : Nat) (it : Item), itemAt s id 0x60 1 = some it →
    let q := it.body 32 2 % 4096
    let r0 := q + it.body 34 2 * 65536
    let fn := targetFn it (it.body 36 1)
    (gateOpen s id it = false → exec (.abort id) s = .next s)
    ∧ (gateOpen s id it = true →
      (fnExists s fn = false → exec (.abort id) s = .next (failItem s id St.fnNotEnabled r0 0))
      ∧ (fnExists s fn = true → devQueue s fn q = none →
        exec (.abort id) s = .next (failItem s id (if it.fn = 0 then St.abortTooLate else St.accessDenied) r0 0))
      ∧ (fnExists s fn = true → ∀ d, devQueue s fn q = some d →
        (itemTagged s d (it.body 34 2) = none → exec (.abort id) s = .next (failItem s id St.abortTooLate r0 0))
        ∧ ∀ t x, itemTagged s d (it.body 34 2) = some (t, x) →
          (t = id ∨ abortCase s t x = .tooLate → exec (.abort id) s = .next (failItem s id St.abortTooLate r0 0))
          ∧ (t ≠ id → abortCase s t x ≠ .tooLate → exec (.abort id) s = .next (abortTarget (toEngine s id) t x [id])))))
  ∧ (∀ (s : State) (id : Nat) (it : Item), itemAt s id 0x60 2 = some it →
      let fn := targetFn it (it.body 34 1)
      let up := fun (s : State) (d : Nat) => modQ s d (fun q => { q with st := .active, parityFrozen := false })
      (fnExists s fn = false → exec (.resumeQueue id) s = .next (failItem s id St.fnNotEnabled 0 0))
      ∧ (fnExists s fn = true → devQueue s fn (it.body 32 2 % 4096) = none →
        exec (.resumeQueue id) s = .next (failItem s id St.queueDisabled 0 0))
      ∧ ∀ d, fnExists s fn = true → devQueue s fn (it.body 32 2 % 4096) = some d →
        ((getQ s d).st = .disabled → exec (.resumeQueue id) s = .next (failItem s id St.queueDisabled 0 0))
        ∧ ((getQ s d).st ≠ .disabled → gateOpen s id it = false → exec (.resumeQueue id) s = .next s)
        ∧ (gateOpen s id it = true →
          ((getQ s d).st = .active → exec (.resumeQueue id) s = .next (commitNow s id 0 0))
          ∧ ((getQ s d).st = .frozen → (getQ s d).parityFrozen = true → parLeft s fn = true →
              exec (.resumeQueue id) s = .next (failItem s id St.cfgParity 1 0))
          ∧ ((getQ s d).st = .frozen → ((getQ s d).parityFrozen = true → parLeft s fn = false) →
            (bitOf (it.body 35 1) 0 = false → exec (.resumeQueue id) s = .next (commitNow (up s d) id 1 0))
            ∧ (bitOf (it.body 35 1) 0 = true → let r := flushN 65536 s d
              exec (.resumeQueue id) s = .next (commitNow (up r.2 d) id (1 + r.1 % 65536 * 65536) 0)))))
  ∧ (∀ (s : State) (id : Nat) (it : Item), itemAt s id 0x60 7 = some it →
      (it.body 32 8 % 64 ≠ 0 → exec (.spareReport id) s = .next (failItem s id St.alignment 0 0))
      ∧ (it.body 32 8 % 64 = 0 → it.body 40 4 = 0xFFFFFFFF → exec (.spareReport id) s = .next (failItem s id St.lengthInvalid 0 0))
      ∧ (it.body 32 8 % 64 = 0 → it.body 40 4 < 128 → exec (.spareReport id) s = .next (failItem s id St.bufferTooSmall 0 0))
      ∧ (it.body 32 8 % 64 = 0 → 128 ≤ it.body 40 4 → it.body 40 4 ≠ 0xFFFFFFFF → (spareEntries s).length = 128
          ∧ exec (.spareReport id) s = .next (itemReady (addEffects s id [.host (it.body 32 8) (spareEntries s)]) id 128 (now s))))
  ∧ ∀ (s : State) (id : Nat) (it : Item), itemAt s id 0x60 3 = some it →
      (it.body 32 8 % 4096 ≠ 0 → exec (.stateDump id) s = .next (failItem s id St.alignment 0 0))
      ∧ (it.body 32 8 % 4096 = 0 → it.body 40 4 = 0xFFFFFFFF → exec (.stateDump id) s = .next (failItem s id St.lengthInvalid 0 0))
      ∧ (it.body 32 8 % 4096 = 0 → it.body 40 4 ≠ 0xFFFFFFFF →
        (it.body 44 2 % 1024 = 0 → ∃ r1,
          exec (.stateDump id) s = .next (itemReady { s with freeCtr := s.freeCtr + 1 } id 0 r1))
        ∧ (it.body 44 2 % 1024 ≠ 0 →
          let bytes := dumpBytes s (it.body 44 2 % 1024)
          (it.body 40 4 < bytes.length → exec (.stateDump id) s = .next (failItem s id St.bufferTooSmall bytes.length 0))
          ∧ (bytes.length ≤ it.body 40 4 → exec (.stateDump id) s
            = .next (itemReady (addEffects (xferAt s id it.fn 3 none false bytes.length) id [.host (it.body 32 8) bytes]) id bytes.length (now s)))))

/-! ## The block as a whole -/

/-- A step takes the command at the front of the queue and runs it on the state with the queue's rest (log entry 1). On an empty queue the
step is one cycle of the fabric clock, the model's choice of log entry 1. -/
def Obligations.StepRunsTheFrontCommand : Prop :=
  (∀ (c : Instr) (rest : List Instr) (s : State), step { s with pending := c :: rest } = exec c { s with pending := rest })
  ∧ ∀ (s : State), s.pending = [] → step s = .next (fclkTick s)

/-- What reset leaves: POR_L asserted, DEVTIME at 0 (R435), every register at the reset value of its table (R477), every core's A7 one word
past the end of its data memory (R196), nothing listed in any memory, and no command waiting. That POR_L is asserted, and what the
registers without a reset value hold, are the model's choices of log entries 3 and 27.
The memories of the reset state are in canonical form. -/
def Obligations.ResetLeavesResetValues : Prop :=
  (
  State.reset.pending = [] ∧ State.reset.pwr.por = true ∧ State.reset.pwr.devtime = 0
  ∧ (∀ off inst, regGet State.reset off inst = regReset off inst)
  ∧ (∀ i < 144, (getCore State.reset i).a[7] = 0x1C0000#24) ∧ (∀ i, 144 ≤ i → (getCore State.reset i).a[7] = 0x140000#24)
  ∧ State.reset.dram = [] ∧ State.reset.host = [] ∧ State.reset.qm.items = [] ∧ State.reset.sched.entries = []
  ∧ (∀ d, (getQ State.reset d).st = .disabled) ∧ (∀ fn, fnExists State.reset fn = true ↔ fn = 0))
  ∧
  (
  MemOk State.reset)

/-- Every step keeps every addressed memory in its canonical form: addresses strictly rising, and no cell that holds what an unlisted
address reads as. -/
def Obligations.StepKeepsMemoriesCanonical : Prop := ∀ (s t : State), MemOk s → step s = .next t → MemOk t

/-- No command touches the queue of commands or the ordering code, and no command faults or is refused. -/
def Obligations.CommandsKeepTheQueue : Prop :=
  ∀ (c : Instr) (s : State), ∃ t, exec c s = .next t ∧ t.pending = s.pending ∧ t.code512 = s.code512
end

