-- ==== Sys2Proof/Laws/Memory.lean ====
section
/-! SUPPORT. Laws of the sorted map and of the sparse memory: read after write, other places unchanged, and the canonical form kept. -/

namespace Sys2Proof.Machine
open Sys2Proof

/-! ## The sorted map -/

@[simp] theorem tget_nil {α : Type} (k : Nat) : tget ([] : Tab α) k = none := rfl
theorem tget_cons {α : Type} (j : Nat) (w : α) (t : Tab α) (k : Nat) :
    tget ((j, w) :: t) k = if k = j then some w else tget t k := by
  by_cases h : k = j
  · simp [tget, List.lookup, h]
  · have : (k == j) = false := by simp [h]
    simp [tget, List.lookup, this, h]
/-- What an entry reads after a write of some entry. -/
theorem tget_tset {α : Type} (t : Tab α) (k : Nat) (v : α) (x : Nat) :
    tget (tset t k v) x = if x = k then some v else tget t x := by
  induction t with
  | nil => simp [tset, tget_cons]
  | cons p t ih =>
    obtain ⟨j, w⟩ := p
    simp only [tset]
    split
    · rename_i hlt
      rw [tget_cons, ih, tget_cons]
      by_cases hx : x = j <;> by_cases hk : x = k <;> simp_all
    · split
      · rename_i hjk
        subst hjk
        rw [tget_cons, tget_cons]
        by_cases hx : x = j <;> simp_all
      · rw [tget_cons]
@[simp] theorem tget_tset_self {α : Type} (t : Tab α) (k : Nat) (v : α) : tget (tset t k v) k = some v := by simp [tget_tset]
theorem tget_tset_ne {α : Type} (t : Tab α) (k : Nat) (v : α) (x : Nat) (h : x ≠ k) : tget (tset t k v) x = tget t x := by
  simp [tget_tset, h]
@[simp] theorem tgetD_tset_self {α : Type} (t : Tab α) (k : Nat) (v d : α) : tgetD (tset t k v) k d = v := by simp [tgetD]
theorem tgetD_tset_ne {α : Type} (t : Tab α) (k : Nat) (v d : α) (x : Nat) (h : x ≠ k) :
    tgetD (tset t k v) x d = tgetD t x d := by simp [tgetD, tget_tset, h]
theorem tupd_some {α : Type} {t : Tab α} {k : Nat} {v : α} (h : tget t k = some v) (f : α → α) :
    tupd t k f = tset t k (f v) := by simp [tupd, h]
theorem tupd_none {α : Type} {t : Tab α} {k : Nat} (h : tget t k = none) (f : α → α) : tupd t k f = t := by simp [tupd, h]
theorem tget_tupd_ne {α : Type} (t : Tab α) (k : Nat) (f : α → α) (x : Nat) (h : x ≠ k) : tget (tupd t k f) x = tget t x := by
  unfold tupd
  split
  · exact tget_tset_ne _ _ _ _ h
  · rfl
theorem tset_tset {α : Type} (t : Tab α) (k : Nat) (v w : α) : tset (tset t k v) k w = tset t k w := by
  induction t with
  | nil => simp [tset]
  | cons p t ih =>
    obtain ⟨j, u⟩ := p
    simp only [tset]
    by_cases h1 : j < k
    · simp [h1, tset, ih]
    · by_cases h2 : j = k
      · subst h2; simp [tset]
      · simp [h1, h2, tset]
theorem tget_filter_ne {α : Type} (t : Tab α) (k x : Nat) (h : x ≠ k) : tget (t.filter (fun p => p.1 != k)) x = tget t x := by
  induction t with
  | nil => rfl
  | cons p t ih =>
    obtain ⟨j, u⟩ := p
    by_cases hj : j = k
    · subst hj; simp [List.filter, ih, tget_cons, h]
    · have : (j != k) = true := by simp [hj]
      simp only [List.filter, this, tget_cons, ih]
theorem tget_terase_self {α : Type} (t : Tab α) (k : Nat) : tget (terase t k) k = none := by
  unfold terase
  induction t with
  | nil => rfl
  | cons p t ih =>
    obtain ⟨j, u⟩ := p
    by_cases hj : j = k
    · subst hj; simp [List.filter, ih]
    · have : (j != k) = true := by simp [hj]
      simp only [List.filter, this, tget_cons, ih]
      simp; omega
theorem tget_terase_ne {α : Type} (t : Tab α) (k x : Nat) (h : x ≠ k) : tget (terase t k) x = tget t x := tget_filter_ne t k x h
/-- Every value of a table after a write is the written one or an old one. -/
theorem mem_tset {α : Type} {t : Tab α} {k : Nat} {v : α} {p : Nat × α} (h : p ∈ tset t k v) : p.2 = v ∨ p ∈ t := by
  induction t with
  | nil => simp [tset] at h; exact .inl (by rw [h])
  | cons q t ih =>
    obtain ⟨j, w⟩ := q
    simp only [tset] at h
    split at h
    · rcases List.mem_cons.mp h with h | h
      · exact .inr (by simp [h])
      · rcases ih h with h | h
        · exact .inl h
        · exact .inr (by simp [h])
    · split at h
      · rcases List.mem_cons.mp h with h | h
        · exact .inl (by rw [h])
        · exact .inr (by simp [h])
      · rcases List.mem_cons.mp h with h | h
        · exact .inl (by rw [h])
        · exact .inr h
theorem mem_of_tget {α : Type} {t : Tab α} {k : Nat} {v : α} (h : tget t k = some v) : ∃ p ∈ t, p.2 = v := by
  induction t with
  | nil => simp at h
  | cons q t ih =>
    obtain ⟨j, w⟩ := q
    rw [tget_cons] at h
    split at h
    · exact ⟨(j, w), by simp, by simpa using h⟩
    · obtain ⟨p, hp, he⟩ := ih h
      exact ⟨p, by simp [hp], he⟩
theorem mem_terase {α : Type} {t : Tab α} {k : Nat} {p : Nat × α} (h : p ∈ terase t k) : p ∈ t := by
  unfold terase at h; exact (List.mem_filter.mp h).1

/-! ## Reading and writing memory -/

theorem mread_cons (a : Nat) (b : Byte) (m : Mem) (x : Nat) : mread ((a, b) :: m) x = if x = a then b else mread m x := by
  by_cases h : x = a
  · simp [mread, List.lookup, h]
  · have : (x == a) = false := by simp [h]
    simp [mread, List.lookup, this, h]
theorem lookup_append {α : Type} (l m : List (Nat × α)) (x : Nat) :
    List.lookup x (l ++ m) = match List.lookup x l with
      | some v => some v
      | none => List.lookup x m := by
  induction l with
  | nil => rfl
  | cons p l ih =>
    obtain ⟨a, b⟩ := p
    simp only [List.cons_append, List.lookup]
    split <;> simp_all
theorem lookup_filter_true {α : Type} (m : List (Nat × α)) (f : Nat → Bool) (x : Nat) (h : f x = true) :
    List.lookup x (m.filter (fun c => f c.1)) = List.lookup x m := by
  induction m with
  | nil => rfl
  | cons p m ih =>
    obtain ⟨a, b⟩ := p
    by_cases hx : x = a
    · subst hx; simp [List.filter, h, List.lookup]
    · have e : (x == a) = false := by simp [hx]
      cases hf : f a <;> simp [List.filter, hf, List.lookup, e, ih]
theorem lookup_filter_false {α : Type} (m : List (Nat × α)) (f : Nat → Bool) (x : Nat) (h : f x = false) :
    List.lookup x (m.filter (fun c => f c.1)) = none := by
  induction m with
  | nil => rfl
  | cons p m ih =>
    obtain ⟨a, b⟩ := p
    by_cases hx : x = a
    · subst hx; simp [List.filter, h, ih]
    · have e : (x == a) = false := by simp [hx]
      cases hf : f a <;> simp [List.filter, hf, List.lookup, e, ih]
theorem lookup_cellsAt_out (a : Nat) (bs : List Byte) (x : Nat) (h : x < a ∨ a + bs.length ≤ x) : List.lookup x (cellsAt a bs) = none := by
  induction bs generalizing a with
  | nil => rfl
  | cons b bs ih =>
    simp only [cellsAt]
    have hx : x ≠ a := by simp at h; omega
    have e : (x == a) = false := by simp [hx]
    split
    · exact ih (a + 1) (by simp at h; omega)
    · simp only [List.lookup, e]; exact ih (a + 1) (by simp at h; omega)
theorem mread_cellsAt (a : Nat) (bs : List Byte) (x : Nat) : mread (cellsAt a bs) x = if a ≤ x then bs.getD (x - a) 0 else 0 := by
  induction bs generalizing a with
  | nil => simp [cellsAt, mread]
  | cons b bs ih =>
    by_cases hx : x = a
    · subst hx
      simp only [cellsAt]
      split
      · rename_i hb
        rw [ih, hb, if_neg (by omega)]; simp
      · rw [mread_cons]; simp
    · have hh : mread (cellsAt a (b :: bs)) x = mread (cellsAt (a + 1) bs) x := by
        simp only [cellsAt]
        split
        · rfl
        · rw [mread_cons]; simp [hx]
      rw [hh, ih]
      by_cases h1 : a + 1 ≤ x
      · have e : x - a = (x - (a + 1)) + 1 := by omega
        simp [h1, show a ≤ x by omega, e]
      · simp [h1, show ¬ a ≤ x by omega]
/-- What a byte reads after a byte string is written. -/
theorem mread_mwrite (m : Mem) (a : Nat) (bs : List Byte) (x : Nat) :
    mread (mwrite m a bs) x = if a ≤ x ∧ x < a + bs.length then bs.getD (x - a) 0 else mread m x := by
  unfold mwrite msplice
  unfold mread
  rw [lookup_append, lookup_append]
  by_cases h : a ≤ x ∧ x < a + bs.length
  · rw [lookup_filter_false m (fun y => decide (y < a)) x (by simp; omega)]
    rw [lookup_filter_false m (fun y => decide (a + bs.length ≤ y)) x (by simp; omega)]
    have := mread_cellsAt a bs x
    unfold mread at this
    simp only [h, and_self, if_true] at this ⊢
    revert this
    cases List.lookup x (cellsAt a bs) <;> simp
  · rw [if_neg h, lookup_cellsAt_out a bs x (by omega)]
    by_cases h1 : x < a
    · rw [lookup_filter_true m (fun y => decide (y < a)) x (by simp [h1])]
      rw [lookup_filter_false m (fun y => decide (a + bs.length ≤ y)) x (by simp; omega)]
      cases List.lookup x m <;> rfl
    · rw [lookup_filter_false m (fun y => decide (y < a)) x (by simp; omega)]
      rw [lookup_filter_true m (fun y => decide (a + bs.length ≤ y)) x (by simp; omega)]

@[simp] theorem natLE_length (n v : Nat) : (natLE n v).length = n := by
  induction n generalizing v with
  | zero => rfl
  | succ n ih => simp [natLE, ih]
@[simp] theorem mreads_length (m : Mem) (a n : Nat) : (mreads m a n).length = n := by
  induction n generalizing a with
  | zero => rfl
  | succ n ih => simp [mreads, ih]
theorem leNat_natLE (n v : Nat) : leNat (natLE n v) = v % 256 ^ n := by
  induction n generalizing v with
  | zero => simp [natLE, leNat, Nat.mod_one]
  | succ n ih =>
    simp only [natLE, leNat, ih, BitVec.toNat_ofNat]
    have e : (256 : Nat) ^ (n + 1) = 256 * 256 ^ n := by rw [Nat.pow_succ, Nat.mul_comm]
    rw [e, Nat.mod_mul]
/-- Reading back the bytes just written. -/
theorem mreads_mwrite_self (m : Mem) (a : Nat) (bs : List Byte) : mreads (mwrite m a bs) a bs.length = bs := by
  suffices h : ∀ (k : Nat) (l : List Byte), (∀ j, j < l.length → mread (mwrite m a bs) (k + j) = l.getD j 0) →
      mreads (mwrite m a bs) k l.length = l by
    apply h
    intro j hj
    rw [mread_mwrite]
    simp [hj]
  intro k l
  induction l generalizing k with
  | nil => intro _; rfl
  | cons b l ih =>
    intro h
    simp only [List.length_cons, mreads]
    have h0 := h 0 (by simp)
    simp at h0
    rw [h0, ih (k + 1)]
    intro j hj
    have := h (j + 1) (by simp; omega)
    simpa [Nat.add_assoc, Nat.add_comm 1] using this
theorem mreads_congr (m m' : Mem) (a n : Nat) (h : ∀ x, a ≤ x → x < a + n → mread m x = mread m' x) : mreads m a n = mreads m' a n := by
  induction n generalizing a with
  | zero => rfl
  | succ n ih =>
    simp only [mreads]
    rw [h a (by omega) (by omega), ih (a + 1) (fun x h1 h2 => h x (by omega) (by omega))]
theorem mreads_mwrite_out (m : Mem) (a : Nat) (bs : List Byte) (b n : Nat) (h : b + n ≤ a ∨ a + bs.length ≤ b) :
    mreads (mwrite m a bs) b n = mreads m b n := by
  apply mreads_congr
  intro x h1 h2
  rw [mread_mwrite, if_neg (by omega)]
theorem mnat_mput_self (m : Mem) (a n v : Nat) : mnat (mput m a n v) a n = v % 256 ^ n := by
  have := mreads_mwrite_self m a (natLE n v)
  rw [natLE_length] at this
  rw [mnat, mput, this, leNat_natLE]
theorem mnat_mput_out (m : Mem) (a n v b k : Nat) (h : b + k ≤ a ∨ a + n ≤ b) : mnat (mput m a n v) b k = mnat m b k := by
  rw [mnat, mput, mreads_mwrite_out _ _ _ _ _ (by simpa using h), mnat]
theorem mread_mput_out (m : Mem) (a n v x : Nat) (h : x < a ∨ a + n ≤ x) : mread (mput m a n v) x = mread m x := by
  rw [mput, mread_mwrite, if_neg (by simp; omega)]

/-! ## The canonical form -/

theorem memWfFrom_mono {lo lo' : Nat} {m : Mem} (h : memWfFrom lo m = true) (hl : lo' ≤ lo) : memWfFrom lo' m = true := by
  cases m with
  | nil => rfl
  | cons p m =>
    obtain ⟨a, b⟩ := p
    simp [memWfFrom] at h ⊢
    exact ⟨⟨by omega, h.1.2⟩, h.2⟩
theorem memWfFrom_ge {lo : Nat} {m : Mem} (h : memWfFrom lo m = true) : ∀ p ∈ m, lo ≤ p.1 := by
  induction m generalizing lo with
  | nil => simp
  | cons q m ih =>
    obtain ⟨a, b⟩ := q
    simp [memWfFrom] at h
    intro p hp
    rcases List.mem_cons.mp hp with hp | hp
    · rw [hp]; exact h.1.1
    · have := ih h.2 p hp; omega
theorem memWfFrom_filter {lo : Nat} {m : Mem} (h : memWfFrom lo m = true) (f : Host.Cell → Bool) : memWfFrom lo (m.filter f) = true := by
  induction m generalizing lo with
  | nil => rfl
  | cons q m ih =>
    obtain ⟨a, b⟩ := q
    simp [memWfFrom] at h
    have := ih h.2
    cases hf : f (a, b)
    · rw [List.filter_cons_of_neg (by simp [hf])]; exact memWfFrom_mono this (by omega)
    · rw [List.filter_cons_of_pos (by simp [hf])]; simp [memWfFrom, h.1, this]
/-- A canonical part below a bound and a canonical part from the bound on make a canonical whole. -/
theorem memWfFrom_append {lo hi : Nat} {m m' : Mem} (h : memWfFrom lo m = true) (h' : memWfFrom hi m' = true)
    (hl : lo ≤ hi) (hb : ∀ p ∈ m, p.1 < hi) : memWfFrom lo (m ++ m') = true := by
  induction m generalizing lo with
  | nil => exact memWfFrom_mono h' hl
  | cons q m ih =>
    obtain ⟨a, b⟩ := q
    simp [memWfFrom] at h
    have ha := hb (a, b) (by simp)
    simp only [List.cons_append, memWfFrom]
    simp [h.1]
    exact ih h.2 (by simp at ha; omega) (fun p hp => hb p (by simp [hp]))
theorem memWfFrom_of_ge {lo hi : Nat} {m : Mem} (h : memWfFrom lo m = true) (hb : ∀ p ∈ m, hi ≤ p.1) : memWfFrom hi m = true := by
  cases m with
  | nil => rfl
  | cons q m =>
    obtain ⟨a, b⟩ := q
    have := hb (a, b) (by simp)
    simp [memWfFrom] at h ⊢
    exact ⟨⟨by simpa using this, h.1.2⟩, h.2⟩
theorem memWf_filter {m : Mem} (h : memWf m = true) (f : Host.Cell → Bool) : memWf (m.filter f) = true := memWfFrom_filter h f
/-- A splice of canonical cells into their range keeps the canonical form. -/
theorem memWf_msplice {m mid : Mem} (lo n : Nat) (h : memWf m = true) (hm : memWfFrom lo mid = true) (hb : ∀ p ∈ mid, p.1 < lo + n) :
    memWf (msplice m lo n mid) = true := by
  unfold msplice memWf
  rw [List.append_assoc]
  apply memWfFrom_append (hi := lo) (memWf_filter h _)
  · apply memWfFrom_append (hi := lo + n) hm
    · exact memWfFrom_of_ge (memWf_filter h _) (by intro p hp; have := (List.mem_filter.mp hp).2; simpa using this)
    · omega
    · exact hb
  · omega
  · intro p hp; have := (List.mem_filter.mp hp).2; simpa using this
theorem memWfFrom_cellsAt (a : Nat) (bs : List Byte) : memWfFrom a (cellsAt a bs) = true := by
  induction bs generalizing a with
  | nil => rfl
  | cons b bs ih =>
    simp only [cellsAt]
    split
    · exact memWfFrom_mono (ih (a + 1)) (by omega)
    · rename_i hb
      simp [memWfFrom, ih, hb]
theorem cellsAt_lt (a : Nat) (bs : List Byte) : ∀ p ∈ cellsAt a bs, p.1 < a + bs.length := by
  induction bs generalizing a with
  | nil => simp [cellsAt]
  | cons b bs ih =>
    intro p hp
    simp only [cellsAt] at hp
    split at hp
    · have := ih (a + 1) p hp; simp; omega
    · rcases List.mem_cons.mp hp with hp | hp
      · rw [hp]; simp
      · have := ih (a + 1) p hp; simp; omega
theorem memWf_mwrite {m : Mem} (a : Nat) (bs : List Byte) (h : memWf m = true) : memWf (mwrite m a bs) = true :=
  memWf_msplice a bs.length h (memWfFrom_cellsAt a bs) (cellsAt_lt a bs)
theorem memWf_mput {m : Mem} (a n v : Nat) (h : memWf m = true) : memWf (mput m a n v) = true := memWf_mwrite a _ h
theorem memWf_mzero {m : Mem} (a n : Nat) (h : memWf m = true) : memWf (mzero m a n) = true :=
  memWf_msplice a n h rfl (by simp)
theorem memWfFrom_mshift {lo : Nat} {m : Mem} (src dst : Nat) (h : memWfFrom lo m = true) (hl : src ≤ lo) :
    memWfFrom (lo - src + dst) (mshift m src dst) = true := by
  induction m generalizing lo with
  | nil => rfl
  | cons q m ih =>
    obtain ⟨a, b⟩ := q
    simp [memWfFrom] at h
    have := ih h.2 (by omega)
    simp only [mshift, List.map_cons, memWfFrom]
    simp [h.1.2]
    refine ⟨by omega, ?_⟩
    have e : a + 1 - src + dst = a - src + dst + 1 := by omega
    rw [e] at this
    exact this
/-- A copy between canonical memories keeps the canonical form. -/
theorem memWf_mcopy {dst src : Mem} (a b n : Nat) (h : memWf dst = true) (h' : memWf src = true) : memWf (mcopy dst src a b n) = true := by
  apply memWf_msplice b n h
  · have hs : memWfFrom a (mslice src a (a + n)) = true :=
      memWfFrom_of_ge (memWf_filter h' _) (by intro p hp; have := (List.mem_filter.mp hp).2; simp at this; exact this.1)
    have := memWfFrom_mshift a b hs (Nat.le_refl a)
    simpa using this
  · intro p hp
    simp only [mshift, List.mem_map] at hp
    obtain ⟨q, hq, rfl⟩ := hp
    have := (List.mem_filter.mp hq).2
    simp at this ⊢
    omega

end Sys2Proof.Machine
end

