-- ==== Sys2Proof/Laws/Cache.lean ====
section
/-! SUPPORT. What an access of the cache changes, and a write of the device's blocks to DRAM: lines, bytes, poison and versions, and nothing
else of the state. -/

namespace Sys2Proof.Machine
open Sys2Proof

theorem touchLine_frame (s : State) (part l : Nat) (write : Bool) : ∃ c, touchLine s part l write = { s with cache := c } := by
  unfold touchLine usePlace
  split
  · exact ⟨_, rfl⟩
  · exact ⟨_, rfl⟩
  · exact ⟨s.cache, rfl⟩
/-- A fold of steps that change the cache alone changes the cache alone. -/
theorem foldl_cache {α : Type} (f : State → α → State) (h : ∀ s x, ∃ c, f s x = { s with cache := c }) (xs : List α) (s : State) :
    ∃ c, xs.foldl f s = { s with cache := c } := by
  induction xs generalizing s with
  | nil => exact ⟨s.cache, rfl⟩
  | cons x xs ih =>
    obtain ⟨c, hc⟩ := h s x
    obtain ⟨d, hd⟩ := ih (f s x)
    exact ⟨d, by rw [List.foldl_cons, hd, hc]⟩
/-- The accesses of a range change the cache alone. -/
theorem touchRange_frame (s : State) (part a n : Nat) (write : Bool) : ∃ c, touchRange s part a n write = { s with cache := c } := by
  unfold touchRange
  split
  · exact ⟨s.cache, rfl⟩
  · exact foldl_cache _ (fun s i => touchLine_frame s part _ write) _ s
theorem dramTouch_frame (s : State) (part a n : Nat) : ∃ c, dramTouch s part a n = { s with cache := c } := by
  unfold dramTouch
  split
  · exact ⟨s.cache, rfl⟩
  · exact touchRange_frame s part a n false
theorem itemTouch_frame (s : State) (fn : Nat) (host : Bool) (a n : Nat) : ∃ c, itemTouch s fn host a n = { s with cache := c } := by
  unfold itemTouch
  split
  · exact ⟨s.cache, rfl⟩
  · exact dramTouch_frame s _ a n
/-- A write of DRAM below the scratch window: its bytes, and lines, poison and versions. -/
theorem dramWrite_frame (s : State) (part a : Nat) (bs : List Byte) (h : a < scratchBase) :
    ∃ c p d, dramWrite s part a bs = { s with dram := mwrite s.dram a bs, cache := c, poison := p, dmc := d } := by
  obtain ⟨c, hc⟩ := touchRange_frame s part a bs.length true
  have e : dramWrite s part a bs = dramStore { s with cache := c } a bs := by
    unfold dramWrite
    rw [if_neg (by omega), hc]
  exact ⟨c, (dramStore { s with cache := c } a bs).poison, (dramStore { s with cache := c } a bs).dmc, e⟩
/-- A write of DRAM below the scratch window leaves every byte outside it. -/
theorem mread_dramWrite_out (s : State) (part a : Nat) (bs : List Byte) (x : Nat) (h : a < scratchBase) (hx : x < a ∨ a + bs.length ≤ x) :
    mread (dramWrite s part a bs).dram x = mread s.dram x := by
  obtain ⟨c, p, d, e⟩ := dramWrite_frame s part a bs h
  rw [e, mread_mwrite, if_neg (by omega)]
/-- A write of DRAM below the scratch window reads back. -/
theorem mreads_dramWrite_self (s : State) (part a : Nat) (bs : List Byte) (h : a < scratchBase) :
    mreads (dramWrite s part a bs).dram a bs.length = bs := by
  obtain ⟨c, p, d, e⟩ := dramWrite_frame s part a bs h
  rw [e]
  exact mreads_mwrite_self s.dram a bs

end Sys2Proof.Machine
end

