-- ==== Sys2Proof/Laws/Ops.lean ====
section
/-! SUPPORT. Read after write of the accessors of registers, queues, items, clusters, ports, keys and volumes; what a register write that
reaches its register does. -/

namespace Sys2Proof.Machine
open Sys2Proof Sys2Proof.Safety

theorem next_congr {a b : State} (h : a = b) : (Host.Outcome.next a : Host.Outcome State Fault Refusal) = .next b := by rw [h]

/-! ## Registers -/

@[simp] theorem regGet_regPut_self (s : State) (off inst v : Nat) : regGet (regPut s off inst v) off inst = v := by simp [regGet, regPut]
theorem regGet_regPut_ne (s : State) (off inst v off' inst' : Nat) (h : regKey off' inst' ≠ regKey off inst) :
    regGet (regPut s off inst v) off' inst' = regGet s off' inst' := by simp [regGet, regPut, tgetD_tset_ne _ _ _ _ _ h]
@[simp] theorem rfld_regPut_self (s : State) (off inst v hi lo : Nat) : rfld (regPut s off inst v) off inst hi lo = fld v hi lo := by
  simp [rfld]
theorem rfld_regPut_ne (s : State) (off inst v off' inst' hi lo : Nat) (h : regKey off' inst' ≠ regKey off inst) :
    rfld (regPut s off inst v) off' inst' hi lo = rfld s off' inst' hi lo := by simp [rfld, regGet_regPut_ne _ _ _ _ _ _ h]
theorem rowGate_of {s : State} {p : Path} {off : Nat} (h : Reaches s p off) (f : State → State) : rowGate s p off f = f (dropHalves s p) := by
  simp [rowGate, h.1, h.2.1]
theorem rowWriteVal_of {s : State} {p : Path} {off : Nat} (h : Reaches s p off) (v : Nat) (f : State → State) :
    rowWriteVal s p off v f = f (dropHalves s p) := by
  unfold rowWriteVal; rw [rowGate_of h]
  have := h.2.2
  cases hr : regInst (dropHalves s p) p (pathFn p) off with
  | none => rfl
  | some i => simp [this i hr]
theorem rowWrite_of {s : State} {p : Path} {off : Nat} (h : Reaches s p off) (f : State → State) :
    rowWrite s p off f = f (dropHalves s p) := by
  unfold rowWrite; rw [rowGate_of h]
  have := h.2.2
  cases hr : regInst (dropHalves s p) p (pathFn p) off with
  | none => rfl
  | some i => simp [this i hr]

/-! ## Queues and items -/

@[simp] theorem getQ_setQ_self (s : State) (d : Nat) (v : HostQ) : getQ (setQ s d v) d = v := by simp [getQ, setQ]
theorem getQ_setQ_ne (s : State) (d e : Nat) (v : HostQ) (h : e ≠ d) : getQ (setQ s d v) e = getQ s e := by
  simp [getQ, setQ, tgetD_tset_ne, h]
@[simp] theorem getQ_modQ_self (s : State) (d : Nat) (f : HostQ → HostQ) : getQ (modQ s d f) d = f (getQ s d) := by simp [modQ]
theorem getQ_modQ_ne (s : State) (d e : Nat) (f : HostQ → HostQ) (h : e ≠ d) : getQ (modQ s d f) e = getQ s e := getQ_setQ_ne _ _ _ _ h
@[simp] theorem getItem_setItem_self (s : State) (id : Nat) (v : Item) : getItem (setItem s id v) id = some v := by simp [getItem, setItem]
theorem getItem_setItem_ne (s : State) (id k : Nat) (v : Item) (h : k ≠ id) : getItem (setItem s id v) k = getItem s k := by
  simp [getItem, setItem, tget_tset_ne, h]
theorem getItem_modItem_ne (s : State) (id k : Nat) (f : Item → Item) (h : k ≠ id) : getItem (modItem s id f) k = getItem s k := by
  simp [getItem, modItem, tget_tupd_ne, h]
theorem getItem_modItem_self {s : State} {id : Nat} {v : Item} (h : getItem s id = some v) (f : Item → Item) :
    getItem (modItem s id f) id = some (f v) := by
  simp only [getItem, modItem] at *; rw [tupd_some h]; simp

/-! ## Clusters, subchannels, ports, key slots, runs and volumes -/

@[simp] theorem getCluster_setCluster_self (s : State) (c : Nat) (v : Cluster) : getCluster (setCluster s c v) c = v := by
  simp [getCluster, setCluster]
theorem getCluster_setCluster_ne (s : State) (c d : Nat) (v : Cluster) (h : d ≠ c) : getCluster (setCluster s c v) d = getCluster s d := by
  simp [getCluster, setCluster, tgetD_tset_ne, h]
@[simp] theorem getSub_setSub_self (s : State) (c : Nat) (v : SubCh) : getSub (setSub s c v) c = v := by simp [getSub, setSub]
theorem getSub_setSub_ne (s : State) (c d : Nat) (v : SubCh) (h : d ≠ c) : getSub (setSub s c v) d = getSub s d := by
  simp [getSub, setSub, tgetD_tset_ne, h]
@[simp] theorem getSub_modSub_self (s : State) (c : Nat) (f : SubCh → SubCh) : getSub (modSub s c f) c = f (getSub s c) := by simp [modSub]
theorem getSub_modSub_ne (s : State) (c d : Nat) (f : SubCh → SubCh) (h : d ≠ c) : getSub (modSub s c f) d = getSub s d :=
  getSub_setSub_ne _ _ _ _ h
@[simp] theorem bryPort_setBry_self (s : State) (n : Nat) (p : BPort) : bryPort (setBry s n p) n = p := by simp [bryPort, setBry]
theorem bryPort_setBry_ne (s : State) (n k : Nat) (p : BPort) (h : k ≠ n) : bryPort (setBry s n p) k = bryPort s k := by
  simp [bryPort, setBry, tgetD_tset_ne, h]
@[simp] theorem bryPort_modBry_self (s : State) (n : Nat) (f : BPort → BPort) : bryPort (modBry s n f) n = f (bryPort s n) := by simp [modBry]
theorem bryPort_modBry_ne (s : State) (n k : Nat) (f : BPort → BPort) (h : k ≠ n) : bryPort (modBry s n f) k = bryPort s k :=
  bryPort_setBry_ne _ _ _ _ h
@[simp] theorem keySlot_setSlot_self (s : State) (k : Nat) (v : KeySlot) : keySlot (setSlot s k v) k = v := by simp [keySlot, setSlot]
theorem keySlot_setSlot_ne (s : State) (k j : Nat) (v : KeySlot) (h : j ≠ k) : keySlot (setSlot s k v) j = keySlot s j := by
  simp [keySlot, setSlot, tgetD_tset_ne, h]
@[simp] theorem getRun_setRun_self (s : State) (id : Nat) (r : Run) : getRun (setRun s id r) id = some r := by simp [getRun, setRun]
theorem getRun_setRun_ne (s : State) (id k : Nat) (r : Run) (h : k ≠ id) : getRun (setRun s id r) k = getRun s k := by
  simp [getRun, setRun, tget_tset_ne, h]
@[simp] theorem getVol_modVol_self (s : State) (v : Nat) (f : LVol → LVol) : getVol (modVol s v f) v = f (getVol s v) := by
  simp [getVol, modVol, led]
theorem getVol_modVol_ne (s : State) (v w : Nat) (f : LVol → LVol) (h : w ≠ v) : getVol (modVol s v f) w = getVol s w := by
  simp [getVol, modVol, led, tgetD_tset_ne, h]

end Sys2Proof.Machine
end

