-- ==== Sys2Proof/Laws/Sequencer.lean ====
section
/-! SUPPORT. What issuing an instruction does, and what checked accesses to a core's own memory do. -/

namespace Sys2Proof.Machine
open Sys2Proof Sys2Proof.Safety

theorem getCore_of {s : State} {n : Nat} {c : Core} (h : tget s.cores n = some c) : getCore s n = c := by
  simp [getCore, tgetD, h]
theorem coreUpd_of {s : State} {n : Nat} {c : Core} (h : tget s.cores n = some c) (f : Core → Core) :
    coreUpd s n f = setCore s n (f c) := by simp [coreUpd, tupd_some h, setCore]
@[simp] theorem tget_setCore_self (s : State) (n : Nat) (c : Core) : tget (setCore s n c).cores n = some c := by simp [setCore]
@[simp] theorem getCore_setCore_self (s : State) (n : Nat) (c : Core) : getCore (setCore s n c) n = c := by simp [getCore, tgetD]
theorem getCore_setCore_ne (s : State) (n k : Nat) (c : Core) (h : k ≠ n) : getCore (setCore s n c) k = getCore s k := by
  simp [getCore, setCore, tgetD_tset_ne, h]
@[simp] theorem setCore_setCore (s : State) (n : Nat) (c d : Core) : setCore (setCore s n c) n d = setCore s n d := by
  simp [setCore, tset_tset]
theorem coreUpd_setCore (s : State) (n : Nat) (c : Core) (f : Core → Core) :
    coreUpd (setCore s n c) n f = setCore s n (f c) := by
  rw [coreUpd_of (tget_setCore_self s n c), setCore_setCore]

/-! ## Issue -/

/-- An instruction that issues and completes with effects on its core's registers only. -/
theorem issue_done {s : State} {n : Nat} {c : Core} {row : SRow} {w1 w2 : Nat} (h : Issues s n c row w1 w2)
    {body : State → Nat → Core → Nat → Nat → IRes} {f : Core → Core} (hb : body s n c w1 w2 = .done s f) :
    issue n row s body = setCore s n (f c) := by
  obtain ⟨h1, h2, h3, h4⟩ := h
  simp [issue, getCore_of h1, h2, h3, h4, applyRes, hb, coreUpd_of h1]
/-- An instruction that issues and completes after effects on its own core. -/
theorem issue_done_own {s : State} {n : Nat} {c c' : Core} {row : SRow} {w1 w2 : Nat} (h : Issues s n c row w1 w2)
    {body : State → Nat → Core → Nat → Nat → IRes} {f : Core → Core} (hb : body s n c w1 w2 = .done (setCore s n c') f)
    (hr : c'.run = .run) : issue n row s body = setCore s n (f c') := by
  obtain ⟨h1, h2, h3, h4⟩ := h
  simp [issue, getCore_of h1, h2, h3, h4, applyRes, hb, coreUpd_setCore, hr]
/-- An instruction that issues and raises a cause with no effect. -/
theorem issue_exc {s : State} {n : Nat} {c : Core} {row : SRow} {w1 w2 : Nat} (h : Issues s n c row w1 w2)
    {body : State → Nat → Core → Nat → Nat → IRes} {code : Nat} {ea : Option Nat} {svc : Nat}
    (hb : body s n c w1 w2 = .exc s id code ea svc) :
    issue n row s body = syncExc (setCore s n c) n c.pc.toNat code ea svc := by
  obtain ⟨h1, h2, h3, h4⟩ := h
  simp [issue, getCore_of h1, h2, h3, h4, applyRes, hb, coreUpd_of h1]

/-! ## Own memory -/

theorem dataEnd_le (n : Nat) : dataEnd n ≤ 0x1C0000 := by unfold dataEnd; split <;> omega
theorem dataWords_wadd {n : Nat} {c : Core} {wa k : Nat} (h : DataWords n c wa k) (j : Nat) (hj : j ≤ k) : wadd wa j = wa + j := by
  have := dataEnd_le n
  have := h.1
  unfold wadd
  exact Nat.mod_eq_of_lt (by omega)
theorem dataWords_ge {n : Nat} {c : Core} {wa k : Nat} (h : DataWords n c wa k) (j : Nat) (hj : j < k) : 0x100000 ≤ wa + j := by
  have := h.2 j hj
  simp [dataOk] at this
  exact this.1.1
theorem dataWords_unitsAt {n : Nat} {c : Core} {wa k u : Nat} (h : DataWords n c wa k) (hu : u ∣ k) (h0 : 0 < u) :
    unitsAt wa k u = (List.range (k / u)).map (fun j => wa + j * u) := by
  unfold unitsAt
  apply List.map_congr_left
  intro j hj
  apply dataWords_wadd h
  obtain ⟨q, rfl⟩ := hu
  rw [Nat.mul_div_cancel_left _ h0] at hj
  have := List.mem_range.mp hj
  calc j * u ≤ q * u := Nat.mul_le_mul_right u (by omega)
    _ = u * q := Nat.mul_comm _ _
theorem dataWords_unit {n : Nat} {c : Core} {wa k : Nat} (h : DataWords n c wa k) (s : State) (a u : Nat) (hu : a + u ≤ k)
    (store ldm : Bool) (h0 : 0 < u) : unitChk s n c (wa + a) u store ldm = .ok := by
  have h1 := dataEnd_le n
  have h2 := h.1
  unfold unitChk
  rw [if_neg (by simp [winBase]; omega)]
  have : (List.range u).find? (fun j => ! ownOk n c (wadd (wa + a) j) store) = none := by
    rw [List.find?_eq_none]
    intro j hj
    have hj := List.mem_range.mp hj
    have e : wadd (wa + a) j = wa + (a + j) := by
      unfold wadd; rw [Nat.mod_eq_of_lt (by omega)]; omega
    rw [e]
    simp [ownOk, h.2 (a + j) (by omega)]
  rw [this]
theorem chkJoin_all_ok (l : List AccChk) (h : ∀ x ∈ l, x = .ok) : l.foldl chkJoin .ok = .ok := by
  induction l with
  | nil => rfl
  | cons x l ih =>
    rw [List.foldl_cons, h x (by simp)]
    exact ih (fun y hy => h y (by simp [hy]))
/-- Words of data memory in the bounds pass the check; LDM and STM also ask for alignment. -/
theorem dataWords_accChk {n : Nat} {c : Core} {wa k u : Nat} (h : DataWords n c wa k) (hu : u ∣ k) (h0 : 0 < u) (s : State)
    (store ldm : Bool) (hl : ldm = true → wa % k = 0) : accChk s n c wa k u store ldm = .ok := by
  unfold accChk
  rw [if_neg (by intro hh; exact hh.2 (hl hh.1))]
  apply chkJoin_all_ok
  intro x hx
  rw [dataWords_unitsAt h hu h0] at hx
  simp only [List.mem_map, List.mem_range] at hx
  obtain ⟨_, ⟨j, hj, rfl⟩, rfl⟩ := hx
  obtain ⟨q, rfl⟩ := hu
  rw [Nat.mul_div_cancel_left _ h0] at hj
  apply dataWords_unit h s _ _ _ _ _ h0
  calc j * u + u = (j + 1) * u := by rw [Nat.add_mul, Nat.one_mul]
    _ ≤ q * u := Nat.mul_le_mul_right u (by omega)
    _ = u * q := Nat.mul_comm _ _
theorem dataWords_noWindow {n : Nat} {c : Core} {wa k u : Nat} (h : DataWords n c wa k) (hu : u ∣ k) (h0 : 0 < u) :
    accWindow wa k u = false := by
  have h1 := dataEnd_le n
  have h2 := h.1
  unfold accWindow
  rw [dataWords_unitsAt h hu h0, List.any_eq_false]
  intro x hx
  simp only [List.mem_map, List.mem_range] at hx
  obtain ⟨j, hj, rfl⟩ := hx
  obtain ⟨q, rfl⟩ := hu
  rw [Nat.mul_div_cancel_left _ h0] at hj
  have : j * u ≤ u * q := by rw [Nat.mul_comm u q]; exact Nat.mul_le_mul_right u (by omega)
  simp [winBase]; omega
theorem dataWords_noPoison {n : Nat} {c : Core} {wa k u : Nat} (h : DataWords n c wa k) (hu : u ∣ k) (h0 : 0 < u) (s : State) :
    accPoisoned s c wa k u = false := by
  have hw := dataWords_noWindow h hu h0
  unfold accWindow at hw
  unfold accPoisoned
  rw [List.any_eq_false] at hw ⊢
  intro x hx
  have := hw x hx
  simp at this ⊢
  intro h1; omega
theorem coreWord_lt (n : Nat) (c : Core) (wa : Nat) : coreWord n c wa < 65536 := by
  unfold coreWord
  split
  · exact (Config.romWord wa).isLt
  · simp only [mnat, mreads, leNat]
    have := (mread c.mem (2 * wa)).isLt
    have := (mread c.mem (2 * wa + 1)).isLt
    omega
/-- The number of an access, as its words. -/
def pack (u : Nat) (g : Nat → Nat) : Nat := (List.range u).foldl (fun v j => v + g j * 2 ^ (16 * j)) 0
theorem pack_succ (u : Nat) (g : Nat → Nat) : pack (u + 1) g = pack u g + g u * 65536 ^ u := by
  simp [pack, List.range_succ, Nat.pow_mul]
theorem pack_lt (u : Nat) (g : Nat → Nat) (hg : ∀ j, g j < 65536) : pack u g < 65536 ^ u := by
  induction u with
  | zero => simp [pack]
  | succ u ih =>
    rw [pack_succ, Nat.pow_succ]
    have := hg u
    calc pack u g + g u * 65536 ^ u < 65536 ^ u + g u * 65536 ^ u := by omega
      _ = (g u + 1) * 65536 ^ u := by rw [Nat.add_mul, Nat.one_mul, Nat.add_comm]
      _ ≤ 65536 * 65536 ^ u := Nat.mul_le_mul_right _ (by omega)
      _ = 65536 ^ u * 65536 := Nat.mul_comm _ _
/-- The number of an access, cut into its words again. -/
theorem pack_word (u : Nat) (g : Nat → Nat) (hg : ∀ j, g j < 65536) (j : Nat) (h : j < u) : pack u g / 65536 ^ j % 65536 = g j := by
  induction u with
  | zero => omega
  | succ u ih =>
    rw [pack_succ]
    have hp : 0 < 65536 ^ j := Nat.pow_pos (by omega)
    by_cases hj : j = u
    · subst hj
      rw [Nat.add_mul_div_right _ _ hp, Nat.div_eq_of_lt (pack_lt j g hg), Nat.zero_add]
      exact Nat.mod_eq_of_lt (hg j)
    · have e : (65536 : Nat) ^ u = 65536 ^ j * (65536 * 65536 ^ (u - j - 1)) := by
        rw [← Nat.pow_succ', ← Nat.pow_add]; congr 1; omega
      have e2 : pack u g + g u * 65536 ^ u = pack u g + 65536 ^ j * (65536 * (g u * 65536 ^ (u - j - 1))) := by
        rw [e]; simp only [Nat.mul_left_comm]
      rw [e2, Nat.add_mul_div_left _ _ hp, Nat.add_mul_mod_self_left]
      exact ih (by omega)
theorem pack_words (u : Nat) (g : Nat → Nat) (hg : ∀ j, g j < 65536) :
    (List.range u).map (fun j => fld (pack u g) (16 * j + 15) (16 * j)) = (List.range u).map g := by
  apply List.map_congr_left
  intro j hj
  have := pack_word u g hg j (List.mem_range.mp hj)
  unfold fld
  rw [show 16 * j + 15 + 1 - 16 * j = 16 by omega, Nat.shiftRight_eq_div_pow, Nat.pow_mul]
  exact this
/-- Reading words of data memory. -/
theorem dataWords_accRead {n : Nat} {c : Core} {wa k u : Nat} (h : DataWords n c wa k) (hu : u ∣ k) (h0 : 0 < u)
    (s : State) : accRead s n c wa k u
      = ((List.range (k / u)).flatMap (fun q => (List.range u).map (fun j => coreWord n c (wa + q * u + j))), s) := by
  have h1 := dataEnd_le n
  have h2 := h.1
  unfold accRead
  rw [dataWords_unitsAt h hu h0, List.foldl_map]
  obtain ⟨q, rfl⟩ := hu
  rw [Nat.mul_div_cancel_left _ h0]
  suffices hh : ∀ (l : List Nat) (acc : List Nat), (∀ x ∈ l, x < q) →
      l.foldl (fun (r : List Nat × State) x =>
        let p := if wa + x * u ≥ winBase then fabRead r.2 n c (winAddr c (wa + x * u)) (2 * u)
          else ((List.range u).foldl (fun v j => v + coreWord n c (wadd (wa + x * u) j) * 2 ^ (16 * j)) 0, r.2)
        (r.1 ++ (List.range u).map (fun j => fld p.1 (16 * j + 15) (16 * j)), p.2)) (acc, s)
      = (acc ++ l.flatMap (fun q => (List.range u).map (fun j => coreWord n c (wa + q * u + j))), s) by
    have := hh (List.range q) [] (fun x hx => List.mem_range.mp hx)
    simpa using this
  intro l
  induction l with
  | nil => intro acc _; simp
  | cons x l ih =>
    intro acc hl
    have hx : x < q := hl x (by simp)
    have hxu : x * u + u ≤ u * q := by
      calc x * u + u = (x + 1) * u := by rw [Nat.add_mul, Nat.one_mul]
        _ ≤ q * u := Nat.mul_le_mul_right u (by omega)
        _ = u * q := Nat.mul_comm _ _
    rw [List.foldl_cons]
    have e : (fun j => coreWord n c (wa + x * u + j)) = fun j => coreWord n c (wa + x * u + j) := rfl
    have hw : ¬ (wa + x * u ≥ winBase) := by simp [winBase]; omega
    simp only [hw, if_false]
    have hcongr : (List.range u).foldl (fun v j => v + coreWord n c (wadd (wa + x * u) j) * 2 ^ (16 * j)) 0
        = (List.range u).foldl (fun v j => v + coreWord n c (wa + x * u + j) * 2 ^ (16 * j)) 0 := by
      have : ∀ (l : List Nat) (v : Nat), (∀ j ∈ l, j < u) →
          l.foldl (fun v j => v + coreWord n c (wadd (wa + x * u) j) * 2 ^ (16 * j)) v
          = l.foldl (fun v j => v + coreWord n c (wa + x * u + j) * 2 ^ (16 * j)) v := by
        intro l
        induction l with
        | nil => intros; rfl
        | cons j l ih =>
          intro v hl
          have hj := hl j (by simp)
          have e : wadd (wa + x * u) j = wa + x * u + j := by
            unfold wadd; exact Nat.mod_eq_of_lt (by omega)
          rw [List.foldl_cons, List.foldl_cons, e, ih _ (fun y hy => hl y (by simp [hy]))]
      exact this _ _ (fun j hj => List.mem_range.mp hj)
    have hp := pack_words u (fun j => coreWord n c (wa + x * u + j)) (fun j => coreWord_lt _ _ _)
    unfold pack at hp
    rw [hcongr, hp]
    rw [ih _ (fun y hy => hl y (by simp [hy]))]
    simp

/-! ## Writing own memory -/

theorem getD_natLE (k v j : Nat) (h : j < k) : (natLE k v).getD j 0 = BitVec.ofNat 8 (v / 256 ^ j) := by
  induction k generalizing v j with
  | zero => omega
  | succ k ih =>
    cases j with
    | zero => simp [natLE]
    | succ j =>
      simp only [natLE, List.getD_cons_succ]
      rw [ih (v / 256) j (by omega), Nat.div_div_eq_div_mul, Nat.pow_succ, Nat.mul_comm 256]
/-- One word of a number just written. -/
theorem mnat_mput_word (m : Mem) (a u v j : Nat) (h : j < u) : mnat (mput m a (2 * u) v) (a + 2 * j) 2 = v / 65536 ^ j % 65536 := by
  simp only [mnat, mreads, leNat, mput]
  rw [mread_mwrite, mread_mwrite, if_pos (by simp; omega), if_pos (by simp; omega)]
  rw [show a + 2 * j - a = 2 * j by omega, show a + 2 * j + 1 - a = 2 * j + 1 by omega]
  rw [getD_natLE _ _ _ (by omega), getD_natLE _ _ _ (by omega)]
  simp only [BitVec.toNat_ofNat]
  have e1 : (256 : Nat) ^ (2 * j) = 65536 ^ j := by rw [Nat.pow_mul]
  have e2 : v / (256 : Nat) ^ (2 * j + 1) = v / 65536 ^ j / 256 := by
    rw [Nat.pow_succ, e1, ← Nat.div_div_eq_div_mul]
  rw [e1, e2]
  omega
theorem mput_word_out (m : Mem) (a k v b : Nat) (h : b + 2 ≤ a ∨ a + k ≤ b) : mnat (mput m a k v) b 2 = mnat m b 2 :=
  mnat_mput_out m a k v b 2 h
/-- Writing words of data memory. -/
theorem dataWords_accWrite {n : Nat} {c : Core} {wa u : Nat} {ws : List Nat} (h : DataWords n c wa ws.length) (hu : u ∣ ws.length)
    (h0 : 0 < u) (s : State) (hc : tget s.cores n = some c) :
    ∃ m, accWrite s n c wa u ws = (if ws = [] then s else setCore s n { c with mem := m }) ∧ StoredWords c.mem m wa ws := by
  have h1 := dataEnd_le n
  have h2 := h.1
  unfold accWrite
  rw [dataWords_unitsAt h hu h0]
  obtain ⟨q, hq⟩ := hu
  have hd : ws.length / u = q := by rw [hq, Nat.mul_div_cancel_left _ h0]
  rw [hd]
  have hz : ∀ q, ((List.range q).map (fun j => wa + j * u)).zipIdx = (List.range q).map (fun j => (wa + j * u, j)) := by
    intro q
    apply List.ext_getElem
    · simp
    · intro i h1 h2; simp
  rw [hz, List.foldl_map]
  suffices hh : ∀ k ≤ q, ∃ m, (List.range k).foldl (fun s x =>
        let v := (List.range u).foldl (fun v j => v + (ws.getD (x * u + j) 0 % 65536) * 2 ^ (16 * j)) 0
        if wa + x * u ≥ winBase then fabWrite s n c (winAddr c (wa + x * u)) (2 * u) v else ownWrite s n (wa + x * u) (2 * u) v) s
      = (if k = 0 then s else setCore s n { c with mem := m })
      ∧ (∀ j < k * u, mnat m (2 * (wa + j)) 2 = ws.getD j 0 % 65536)
      ∧ (∀ x, x < 2 * wa ∨ 2 * (wa + k * u) ≤ x → mread m x = mread c.mem x)
      ∧ (memWf c.mem = true → memWf m = true) by
    obtain ⟨m, hm, ha, hb, hcn⟩ := hh q (Nat.le_refl q)
    refine ⟨m, ?_, ?_, ?_, hcn⟩
    · rw [hm]
      by_cases hqz : q = 0
      · have : ws = [] := by
          have : ws.length = 0 := by rw [hq, hqz]; simp
          exact List.eq_nil_of_length_eq_zero this
        simp [hqz, this]
      · have : ws ≠ [] := by
          intro hn
          rw [hn] at hq
          rcases Nat.mul_eq_zero.mp hq.symm with h | h
          · omega
          · exact hqz h
        simp [hqz, this]
    · rw [hq, Nat.mul_comm u q]; exact ha
    · rw [hq, Nat.mul_comm u q]; exact hb
  intro k
  induction k with
  | zero => intro _; exact ⟨c.mem, by simp, by simp, by simp, id⟩
  | succ k ih =>
    intro hk
    obtain ⟨m, hm, ha, hb, hcn⟩ := ih (by omega)
    rw [List.range_succ, List.foldl_append, hm]
    have hku : k * u + u ≤ ws.length := by
      rw [hq]
      calc k * u + u = (k + 1) * u := by rw [Nat.add_mul, Nat.one_mul]
        _ ≤ q * u := Nat.mul_le_mul_right u (by omega)
        _ = u * q := Nat.mul_comm _ _
    simp only [List.foldl_cons, List.foldl_nil]
    rw [if_neg (by simp [winBase]; omega)]
    refine ⟨mput (if k = 0 then c.mem else m) (2 * (wa + k * u)) (2 * u)
      ((List.range u).foldl (fun v j => v + (ws.getD (k * u + j) 0 % 65536) * 2 ^ (16 * j)) 0), ?_, ?_, ?_, ?_⟩
    · by_cases hkz : k = 0
      · simp only [hkz, if_true]
        unfold ownWrite
        rw [tupd_some hc]
        simp [setCore]
      · simp only [hkz, if_false]
        unfold ownWrite
        rw [tupd_some (tget_setCore_self _ _ _)]
        simp [setCore, tset_tset]
    · intro j hj
      have hj' : j < k * u + u := by rw [Nat.add_mul, Nat.one_mul] at hj; exact hj
      by_cases hlt : j < k * u
      · have hkz : ¬ k = 0 := by intro hz; rw [hz] at hlt; simp at hlt
        rw [mput_word_out _ _ _ _ _ (by omega)]
        simp only [hkz, if_false]
        exact ha j hlt
      · have e : 2 * (wa + j) = 2 * (wa + k * u) + 2 * (j - k * u) := by omega
        have hp := pack_word u (fun j => ws.getD (k * u + j) 0 % 65536) (fun j => Nat.mod_lt _ (by omega)) (j - k * u) (by omega)
        unfold pack at hp
        rw [e, mnat_mput_word _ _ _ _ _ (by omega), hp]
        simp only [show k * u + (j - k * u) = j by omega]
    · intro x hx
      rw [Nat.add_mul, Nat.one_mul] at hx
      rw [mread_mput_out _ _ _ _ _ (by omega)]
      by_cases hkz : k = 0
      · simp [hkz]
      · simp only [hkz, if_false]; exact hb x (by omega)
    · intro hw
      apply memWf_mput
      by_cases hkz : k = 0
      · simp [hkz, hw]
      · simp [hkz, hcn hw]

end Sys2Proof.Machine
end

