-- ==== Sys2Proof/Laws/State.lean ====
section
/-! SUPPORT. What each update of the state leaves: one lemma for each field and update, so that no proof unfolds a record update. -/

namespace Sys2Proof.Machine
open Sys2Proof

/-! ## regPut -/

@[simp] theorem regPut_pending (s : State) (off inst v : Nat) : (regPut s off inst v).pending = s.pending := rfl
@[simp] theorem regPut_freeCtr (s : State) (off inst v : Nat) : (regPut s off inst v).freeCtr = s.freeCtr := rfl
@[simp] theorem regPut_code512 (s : State) (off inst v : Nat) : (regPut s off inst v).code512 = s.code512 := rfl
@[simp] theorem regPut_pwr (s : State) (off inst v : Nat) : (regPut s off inst v).pwr = s.pwr := rfl
@[simp] theorem regPut_ras (s : State) (off inst v : Nat) : (regPut s off inst v).ras = s.ras := rfl
@[simp] theorem regPut_fns (s : State) (off inst v : Nat) : (regPut s off inst v).fns = s.fns := rfl
@[simp] theorem regPut_qm (s : State) (off inst v : Nat) : (regPut s off inst v).qm = s.qm := rfl
@[simp] theorem regPut_msix (s : State) (off inst v : Nat) : (regPut s off inst v).msix = s.msix := rfl
@[simp] theorem regPut_sched (s : State) (off inst v : Nat) : (regPut s off inst v).sched = s.sched := rfl
@[simp] theorem regPut_dma (s : State) (off inst v : Nat) : (regPut s off inst v).dma = s.dma := rfl
@[simp] theorem regPut_ing (s : State) (off inst v : Nat) : (regPut s off inst v).ing = s.ing := rfl
@[simp] theorem regPut_plans (s : State) (off inst v : Nat) : (regPut s off inst v).plans = s.plans := rfl
@[simp] theorem regPut_cache (s : State) (off inst v : Nat) : (regPut s off inst v).cache = s.cache := rfl
@[simp] theorem regPut_cam (s : State) (off inst v : Nat) : (regPut s off inst v).cam = s.cam := rfl
@[simp] theorem regPut_ciph (s : State) (off inst v : Nat) : (regPut s off inst v).ciph = s.ciph := rfl
@[simp] theorem regPut_bry (s : State) (off inst v : Nat) : (regPut s off inst v).bry = s.bry := rfl
@[simp] theorem regPut_led (s : State) (off inst v : Nat) : (regPut s off inst v).led = s.led := rfl
@[simp] theorem regPut_dmc (s : State) (off inst v : Nat) : (regPut s off inst v).dmc = s.dmc := rfl
@[simp] theorem regPut_sec (s : State) (off inst v : Nat) : (regPut s off inst v).sec = s.sec := rfl
@[simp] theorem regPut_cores (s : State) (off inst v : Nat) : (regPut s off inst v).cores = s.cores := rfl
@[simp] theorem regPut_dram (s : State) (off inst v : Nat) : (regPut s off inst v).dram = s.dram := rfl
@[simp] theorem regPut_poison (s : State) (off inst v : Nat) : (regPut s off inst v).poison = s.poison := rfl
@[simp] theorem regPut_host (s : State) (off inst v : Nat) : (regPut s off inst v).host = s.host := rfl
@[simp] theorem regPut_out (s : State) (off inst v : Nat) : (regPut s off inst v).out = s.out := rfl

/-! ## regSetFld -/

@[simp] theorem regSetFld_pending (s : State) (off inst hi lo v : Nat) : (regSetFld s off inst hi lo v).pending = s.pending := rfl
@[simp] theorem regSetFld_freeCtr (s : State) (off inst hi lo v : Nat) : (regSetFld s off inst hi lo v).freeCtr = s.freeCtr := rfl
@[simp] theorem regSetFld_code512 (s : State) (off inst hi lo v : Nat) : (regSetFld s off inst hi lo v).code512 = s.code512 := rfl
@[simp] theorem regSetFld_pwr (s : State) (off inst hi lo v : Nat) : (regSetFld s off inst hi lo v).pwr = s.pwr := rfl
@[simp] theorem regSetFld_ras (s : State) (off inst hi lo v : Nat) : (regSetFld s off inst hi lo v).ras = s.ras := rfl
@[simp] theorem regSetFld_fns (s : State) (off inst hi lo v : Nat) : (regSetFld s off inst hi lo v).fns = s.fns := rfl
@[simp] theorem regSetFld_qm (s : State) (off inst hi lo v : Nat) : (regSetFld s off inst hi lo v).qm = s.qm := rfl
@[simp] theorem regSetFld_msix (s : State) (off inst hi lo v : Nat) : (regSetFld s off inst hi lo v).msix = s.msix := rfl
@[simp] theorem regSetFld_sched (s : State) (off inst hi lo v : Nat) : (regSetFld s off inst hi lo v).sched = s.sched := rfl
@[simp] theorem regSetFld_dma (s : State) (off inst hi lo v : Nat) : (regSetFld s off inst hi lo v).dma = s.dma := rfl
@[simp] theorem regSetFld_ing (s : State) (off inst hi lo v : Nat) : (regSetFld s off inst hi lo v).ing = s.ing := rfl
@[simp] theorem regSetFld_plans (s : State) (off inst hi lo v : Nat) : (regSetFld s off inst hi lo v).plans = s.plans := rfl
@[simp] theorem regSetFld_cache (s : State) (off inst hi lo v : Nat) : (regSetFld s off inst hi lo v).cache = s.cache := rfl
@[simp] theorem regSetFld_cam (s : State) (off inst hi lo v : Nat) : (regSetFld s off inst hi lo v).cam = s.cam := rfl
@[simp] theorem regSetFld_ciph (s : State) (off inst hi lo v : Nat) : (regSetFld s off inst hi lo v).ciph = s.ciph := rfl
@[simp] theorem regSetFld_bry (s : State) (off inst hi lo v : Nat) : (regSetFld s off inst hi lo v).bry = s.bry := rfl
@[simp] theorem regSetFld_led (s : State) (off inst hi lo v : Nat) : (regSetFld s off inst hi lo v).led = s.led := rfl
@[simp] theorem regSetFld_dmc (s : State) (off inst hi lo v : Nat) : (regSetFld s off inst hi lo v).dmc = s.dmc := rfl
@[simp] theorem regSetFld_sec (s : State) (off inst hi lo v : Nat) : (regSetFld s off inst hi lo v).sec = s.sec := rfl
@[simp] theorem regSetFld_cores (s : State) (off inst hi lo v : Nat) : (regSetFld s off inst hi lo v).cores = s.cores := rfl
@[simp] theorem regSetFld_dram (s : State) (off inst hi lo v : Nat) : (regSetFld s off inst hi lo v).dram = s.dram := rfl
@[simp] theorem regSetFld_poison (s : State) (off inst hi lo v : Nat) : (regSetFld s off inst hi lo v).poison = s.poison := rfl
@[simp] theorem regSetFld_host (s : State) (off inst hi lo v : Nat) : (regSetFld s off inst hi lo v).host = s.host := rfl
@[simp] theorem regSetFld_out (s : State) (off inst hi lo v : Nat) : (regSetFld s off inst hi lo v).out = s.out := rfl

/-! ## cntAdd -/

@[simp] theorem cntAdd_pending (s : State) (off inst hi lo k : Nat) : (cntAdd s off inst hi lo k).pending = s.pending := rfl
@[simp] theorem cntAdd_freeCtr (s : State) (off inst hi lo k : Nat) : (cntAdd s off inst hi lo k).freeCtr = s.freeCtr := rfl
@[simp] theorem cntAdd_code512 (s : State) (off inst hi lo k : Nat) : (cntAdd s off inst hi lo k).code512 = s.code512 := rfl
@[simp] theorem cntAdd_pwr (s : State) (off inst hi lo k : Nat) : (cntAdd s off inst hi lo k).pwr = s.pwr := rfl
@[simp] theorem cntAdd_ras (s : State) (off inst hi lo k : Nat) : (cntAdd s off inst hi lo k).ras = s.ras := rfl
@[simp] theorem cntAdd_fns (s : State) (off inst hi lo k : Nat) : (cntAdd s off inst hi lo k).fns = s.fns := rfl
@[simp] theorem cntAdd_qm (s : State) (off inst hi lo k : Nat) : (cntAdd s off inst hi lo k).qm = s.qm := rfl
@[simp] theorem cntAdd_msix (s : State) (off inst hi lo k : Nat) : (cntAdd s off inst hi lo k).msix = s.msix := rfl
@[simp] theorem cntAdd_sched (s : State) (off inst hi lo k : Nat) : (cntAdd s off inst hi lo k).sched = s.sched := rfl
@[simp] theorem cntAdd_dma (s : State) (off inst hi lo k : Nat) : (cntAdd s off inst hi lo k).dma = s.dma := rfl
@[simp] theorem cntAdd_ing (s : State) (off inst hi lo k : Nat) : (cntAdd s off inst hi lo k).ing = s.ing := rfl
@[simp] theorem cntAdd_plans (s : State) (off inst hi lo k : Nat) : (cntAdd s off inst hi lo k).plans = s.plans := rfl
@[simp] theorem cntAdd_cache (s : State) (off inst hi lo k : Nat) : (cntAdd s off inst hi lo k).cache = s.cache := rfl
@[simp] theorem cntAdd_cam (s : State) (off inst hi lo k : Nat) : (cntAdd s off inst hi lo k).cam = s.cam := rfl
@[simp] theorem cntAdd_ciph (s : State) (off inst hi lo k : Nat) : (cntAdd s off inst hi lo k).ciph = s.ciph := rfl
@[simp] theorem cntAdd_bry (s : State) (off inst hi lo k : Nat) : (cntAdd s off inst hi lo k).bry = s.bry := rfl
@[simp] theorem cntAdd_led (s : State) (off inst hi lo k : Nat) : (cntAdd s off inst hi lo k).led = s.led := rfl
@[simp] theorem cntAdd_dmc (s : State) (off inst hi lo k : Nat) : (cntAdd s off inst hi lo k).dmc = s.dmc := rfl
@[simp] theorem cntAdd_sec (s : State) (off inst hi lo k : Nat) : (cntAdd s off inst hi lo k).sec = s.sec := rfl
@[simp] theorem cntAdd_cores (s : State) (off inst hi lo k : Nat) : (cntAdd s off inst hi lo k).cores = s.cores := rfl
@[simp] theorem cntAdd_dram (s : State) (off inst hi lo k : Nat) : (cntAdd s off inst hi lo k).dram = s.dram := rfl
@[simp] theorem cntAdd_poison (s : State) (off inst hi lo k : Nat) : (cntAdd s off inst hi lo k).poison = s.poison := rfl
@[simp] theorem cntAdd_host (s : State) (off inst hi lo k : Nat) : (cntAdd s off inst hi lo k).host = s.host := rfl
@[simp] theorem cntAdd_out (s : State) (off inst hi lo k : Nat) : (cntAdd s off inst hi lo k).out = s.out := rfl

/-! ## selPut -/

@[simp] theorem selPut_pending (s : State) (p : Path) (off v : Nat) : (selPut s p off v).pending = s.pending := rfl
@[simp] theorem selPut_freeCtr (s : State) (p : Path) (off v : Nat) : (selPut s p off v).freeCtr = s.freeCtr := rfl
@[simp] theorem selPut_code512 (s : State) (p : Path) (off v : Nat) : (selPut s p off v).code512 = s.code512 := rfl
@[simp] theorem selPut_pwr (s : State) (p : Path) (off v : Nat) : (selPut s p off v).pwr = s.pwr := rfl
@[simp] theorem selPut_ras (s : State) (p : Path) (off v : Nat) : (selPut s p off v).ras = s.ras := rfl
@[simp] theorem selPut_fns (s : State) (p : Path) (off v : Nat) : (selPut s p off v).fns = s.fns := rfl
@[simp] theorem selPut_qm (s : State) (p : Path) (off v : Nat) : (selPut s p off v).qm = s.qm := rfl
@[simp] theorem selPut_msix (s : State) (p : Path) (off v : Nat) : (selPut s p off v).msix = s.msix := rfl
@[simp] theorem selPut_sched (s : State) (p : Path) (off v : Nat) : (selPut s p off v).sched = s.sched := rfl
@[simp] theorem selPut_dma (s : State) (p : Path) (off v : Nat) : (selPut s p off v).dma = s.dma := rfl
@[simp] theorem selPut_ing (s : State) (p : Path) (off v : Nat) : (selPut s p off v).ing = s.ing := rfl
@[simp] theorem selPut_plans (s : State) (p : Path) (off v : Nat) : (selPut s p off v).plans = s.plans := rfl
@[simp] theorem selPut_cache (s : State) (p : Path) (off v : Nat) : (selPut s p off v).cache = s.cache := rfl
@[simp] theorem selPut_cam (s : State) (p : Path) (off v : Nat) : (selPut s p off v).cam = s.cam := rfl
@[simp] theorem selPut_ciph (s : State) (p : Path) (off v : Nat) : (selPut s p off v).ciph = s.ciph := rfl
@[simp] theorem selPut_bry (s : State) (p : Path) (off v : Nat) : (selPut s p off v).bry = s.bry := rfl
@[simp] theorem selPut_led (s : State) (p : Path) (off v : Nat) : (selPut s p off v).led = s.led := rfl
@[simp] theorem selPut_dmc (s : State) (p : Path) (off v : Nat) : (selPut s p off v).dmc = s.dmc := rfl
@[simp] theorem selPut_sec (s : State) (p : Path) (off v : Nat) : (selPut s p off v).sec = s.sec := rfl
@[simp] theorem selPut_cores (s : State) (p : Path) (off v : Nat) : (selPut s p off v).cores = s.cores := rfl
@[simp] theorem selPut_dram (s : State) (p : Path) (off v : Nat) : (selPut s p off v).dram = s.dram := rfl
@[simp] theorem selPut_poison (s : State) (p : Path) (off v : Nat) : (selPut s p off v).poison = s.poison := rfl
@[simp] theorem selPut_host (s : State) (p : Path) (off v : Nat) : (selPut s p off v).host = s.host := rfl
@[simp] theorem selPut_out (s : State) (p : Path) (off v : Nat) : (selPut s p off v).out = s.out := rfl

/-! ## dropHalves -/

@[simp] theorem dropHalves_pending (s : State) (p : Path) : (dropHalves s p).pending = s.pending := rfl
@[simp] theorem dropHalves_freeCtr (s : State) (p : Path) : (dropHalves s p).freeCtr = s.freeCtr := rfl
@[simp] theorem dropHalves_code512 (s : State) (p : Path) : (dropHalves s p).code512 = s.code512 := rfl
@[simp] theorem dropHalves_pwr (s : State) (p : Path) : (dropHalves s p).pwr = s.pwr := rfl
@[simp] theorem dropHalves_ras (s : State) (p : Path) : (dropHalves s p).ras = s.ras := rfl
@[simp] theorem dropHalves_fns (s : State) (p : Path) : (dropHalves s p).fns = s.fns := rfl
@[simp] theorem dropHalves_qm (s : State) (p : Path) : (dropHalves s p).qm = s.qm := rfl
@[simp] theorem dropHalves_msix (s : State) (p : Path) : (dropHalves s p).msix = s.msix := rfl
@[simp] theorem dropHalves_sched (s : State) (p : Path) : (dropHalves s p).sched = s.sched := rfl
@[simp] theorem dropHalves_dma (s : State) (p : Path) : (dropHalves s p).dma = s.dma := rfl
@[simp] theorem dropHalves_ing (s : State) (p : Path) : (dropHalves s p).ing = s.ing := rfl
@[simp] theorem dropHalves_plans (s : State) (p : Path) : (dropHalves s p).plans = s.plans := rfl
@[simp] theorem dropHalves_cache (s : State) (p : Path) : (dropHalves s p).cache = s.cache := rfl
@[simp] theorem dropHalves_cam (s : State) (p : Path) : (dropHalves s p).cam = s.cam := rfl
@[simp] theorem dropHalves_ciph (s : State) (p : Path) : (dropHalves s p).ciph = s.ciph := rfl
@[simp] theorem dropHalves_bry (s : State) (p : Path) : (dropHalves s p).bry = s.bry := rfl
@[simp] theorem dropHalves_led (s : State) (p : Path) : (dropHalves s p).led = s.led := rfl
@[simp] theorem dropHalves_dmc (s : State) (p : Path) : (dropHalves s p).dmc = s.dmc := rfl
@[simp] theorem dropHalves_sec (s : State) (p : Path) : (dropHalves s p).sec = s.sec := rfl
@[simp] theorem dropHalves_cores (s : State) (p : Path) : (dropHalves s p).cores = s.cores := rfl
@[simp] theorem dropHalves_dram (s : State) (p : Path) : (dropHalves s p).dram = s.dram := rfl
@[simp] theorem dropHalves_poison (s : State) (p : Path) : (dropHalves s p).poison = s.poison := rfl
@[simp] theorem dropHalves_host (s : State) (p : Path) : (dropHalves s p).host = s.host := rfl
@[simp] theorem dropHalves_out (s : State) (p : Path) : (dropHalves s p).out = s.out := rfl

/-! ## rasCount -/

@[simp] theorem rasCount_pending (s : State) (cls : Nat) (b : Bool) : (rasCount s cls b).pending = s.pending := rfl
@[simp] theorem rasCount_freeCtr (s : State) (cls : Nat) (b : Bool) : (rasCount s cls b).freeCtr = s.freeCtr := rfl
@[simp] theorem rasCount_code512 (s : State) (cls : Nat) (b : Bool) : (rasCount s cls b).code512 = s.code512 := rfl
@[simp] theorem rasCount_pwr (s : State) (cls : Nat) (b : Bool) : (rasCount s cls b).pwr = s.pwr := rfl
@[simp] theorem rasCount_regs (s : State) (cls : Nat) (b : Bool) : (rasCount s cls b).regs = s.regs := rfl
@[simp] theorem rasCount_fns (s : State) (cls : Nat) (b : Bool) : (rasCount s cls b).fns = s.fns := rfl
@[simp] theorem rasCount_qm (s : State) (cls : Nat) (b : Bool) : (rasCount s cls b).qm = s.qm := rfl
@[simp] theorem rasCount_msix (s : State) (cls : Nat) (b : Bool) : (rasCount s cls b).msix = s.msix := rfl
@[simp] theorem rasCount_sched (s : State) (cls : Nat) (b : Bool) : (rasCount s cls b).sched = s.sched := rfl
@[simp] theorem rasCount_dma (s : State) (cls : Nat) (b : Bool) : (rasCount s cls b).dma = s.dma := rfl
@[simp] theorem rasCount_ing (s : State) (cls : Nat) (b : Bool) : (rasCount s cls b).ing = s.ing := rfl
@[simp] theorem rasCount_plans (s : State) (cls : Nat) (b : Bool) : (rasCount s cls b).plans = s.plans := rfl
@[simp] theorem rasCount_cache (s : State) (cls : Nat) (b : Bool) : (rasCount s cls b).cache = s.cache := rfl
@[simp] theorem rasCount_cam (s : State) (cls : Nat) (b : Bool) : (rasCount s cls b).cam = s.cam := rfl
@[simp] theorem rasCount_ciph (s : State) (cls : Nat) (b : Bool) : (rasCount s cls b).ciph = s.ciph := rfl
@[simp] theorem rasCount_bry (s : State) (cls : Nat) (b : Bool) : (rasCount s cls b).bry = s.bry := rfl
@[simp] theorem rasCount_led (s : State) (cls : Nat) (b : Bool) : (rasCount s cls b).led = s.led := rfl
@[simp] theorem rasCount_dmc (s : State) (cls : Nat) (b : Bool) : (rasCount s cls b).dmc = s.dmc := rfl
@[simp] theorem rasCount_sec (s : State) (cls : Nat) (b : Bool) : (rasCount s cls b).sec = s.sec := rfl
@[simp] theorem rasCount_cores (s : State) (cls : Nat) (b : Bool) : (rasCount s cls b).cores = s.cores := rfl
@[simp] theorem rasCount_dram (s : State) (cls : Nat) (b : Bool) : (rasCount s cls b).dram = s.dram := rfl
@[simp] theorem rasCount_poison (s : State) (cls : Nat) (b : Bool) : (rasCount s cls b).poison = s.poison := rfl
@[simp] theorem rasCount_host (s : State) (cls : Nat) (b : Bool) : (rasCount s cls b).host = s.host := rfl
@[simp] theorem rasCount_out (s : State) (cls : Nat) (b : Bool) : (rasCount s cls b).out = s.out := rfl

/-! ## setQ -/

@[simp] theorem setQ_pending (s : State) (q : Nat) (v : HostQ) : (setQ s q v).pending = s.pending := rfl
@[simp] theorem setQ_freeCtr (s : State) (q : Nat) (v : HostQ) : (setQ s q v).freeCtr = s.freeCtr := rfl
@[simp] theorem setQ_code512 (s : State) (q : Nat) (v : HostQ) : (setQ s q v).code512 = s.code512 := rfl
@[simp] theorem setQ_pwr (s : State) (q : Nat) (v : HostQ) : (setQ s q v).pwr = s.pwr := rfl
@[simp] theorem setQ_ras (s : State) (q : Nat) (v : HostQ) : (setQ s q v).ras = s.ras := rfl
@[simp] theorem setQ_regs (s : State) (q : Nat) (v : HostQ) : (setQ s q v).regs = s.regs := rfl
@[simp] theorem setQ_fns (s : State) (q : Nat) (v : HostQ) : (setQ s q v).fns = s.fns := rfl
@[simp] theorem setQ_msix (s : State) (q : Nat) (v : HostQ) : (setQ s q v).msix = s.msix := rfl
@[simp] theorem setQ_sched (s : State) (q : Nat) (v : HostQ) : (setQ s q v).sched = s.sched := rfl
@[simp] theorem setQ_dma (s : State) (q : Nat) (v : HostQ) : (setQ s q v).dma = s.dma := rfl
@[simp] theorem setQ_ing (s : State) (q : Nat) (v : HostQ) : (setQ s q v).ing = s.ing := rfl
@[simp] theorem setQ_plans (s : State) (q : Nat) (v : HostQ) : (setQ s q v).plans = s.plans := rfl
@[simp] theorem setQ_cache (s : State) (q : Nat) (v : HostQ) : (setQ s q v).cache = s.cache := rfl
@[simp] theorem setQ_cam (s : State) (q : Nat) (v : HostQ) : (setQ s q v).cam = s.cam := rfl
@[simp] theorem setQ_ciph (s : State) (q : Nat) (v : HostQ) : (setQ s q v).ciph = s.ciph := rfl
@[simp] theorem setQ_bry (s : State) (q : Nat) (v : HostQ) : (setQ s q v).bry = s.bry := rfl
@[simp] theorem setQ_led (s : State) (q : Nat) (v : HostQ) : (setQ s q v).led = s.led := rfl
@[simp] theorem setQ_dmc (s : State) (q : Nat) (v : HostQ) : (setQ s q v).dmc = s.dmc := rfl
@[simp] theorem setQ_sec (s : State) (q : Nat) (v : HostQ) : (setQ s q v).sec = s.sec := rfl
@[simp] theorem setQ_cores (s : State) (q : Nat) (v : HostQ) : (setQ s q v).cores = s.cores := rfl
@[simp] theorem setQ_dram (s : State) (q : Nat) (v : HostQ) : (setQ s q v).dram = s.dram := rfl
@[simp] theorem setQ_poison (s : State) (q : Nat) (v : HostQ) : (setQ s q v).poison = s.poison := rfl
@[simp] theorem setQ_host (s : State) (q : Nat) (v : HostQ) : (setQ s q v).host = s.host := rfl
@[simp] theorem setQ_out (s : State) (q : Nat) (v : HostQ) : (setQ s q v).out = s.out := rfl

/-! ## modQ -/

@[simp] theorem modQ_pending (s : State) (q : Nat) (f : HostQ → HostQ) : (modQ s q f).pending = s.pending := rfl
@[simp] theorem modQ_freeCtr (s : State) (q : Nat) (f : HostQ → HostQ) : (modQ s q f).freeCtr = s.freeCtr := rfl
@[simp] theorem modQ_code512 (s : State) (q : Nat) (f : HostQ → HostQ) : (modQ s q f).code512 = s.code512 := rfl
@[simp] theorem modQ_pwr (s : State) (q : Nat) (f : HostQ → HostQ) : (modQ s q f).pwr = s.pwr := rfl
@[simp] theorem modQ_ras (s : State) (q : Nat) (f : HostQ → HostQ) : (modQ s q f).ras = s.ras := rfl
@[simp] theorem modQ_regs (s : State) (q : Nat) (f : HostQ → HostQ) : (modQ s q f).regs = s.regs := rfl
@[simp] theorem modQ_fns (s : State) (q : Nat) (f : HostQ → HostQ) : (modQ s q f).fns = s.fns := rfl
@[simp] theorem modQ_msix (s : State) (q : Nat) (f : HostQ → HostQ) : (modQ s q f).msix = s.msix := rfl
@[simp] theorem modQ_sched (s : State) (q : Nat) (f : HostQ → HostQ) : (modQ s q f).sched = s.sched := rfl
@[simp] theorem modQ_dma (s : State) (q : Nat) (f : HostQ → HostQ) : (modQ s q f).dma = s.dma := rfl
@[simp] theorem modQ_ing (s : State) (q : Nat) (f : HostQ → HostQ) : (modQ s q f).ing = s.ing := rfl
@[simp] theorem modQ_plans (s : State) (q : Nat) (f : HostQ → HostQ) : (modQ s q f).plans = s.plans := rfl
@[simp] theorem modQ_cache (s : State) (q : Nat) (f : HostQ → HostQ) : (modQ s q f).cache = s.cache := rfl
@[simp] theorem modQ_cam (s : State) (q : Nat) (f : HostQ → HostQ) : (modQ s q f).cam = s.cam := rfl
@[simp] theorem modQ_ciph (s : State) (q : Nat) (f : HostQ → HostQ) : (modQ s q f).ciph = s.ciph := rfl
@[simp] theorem modQ_bry (s : State) (q : Nat) (f : HostQ → HostQ) : (modQ s q f).bry = s.bry := rfl
@[simp] theorem modQ_led (s : State) (q : Nat) (f : HostQ → HostQ) : (modQ s q f).led = s.led := rfl
@[simp] theorem modQ_dmc (s : State) (q : Nat) (f : HostQ → HostQ) : (modQ s q f).dmc = s.dmc := rfl
@[simp] theorem modQ_sec (s : State) (q : Nat) (f : HostQ → HostQ) : (modQ s q f).sec = s.sec := rfl
@[simp] theorem modQ_cores (s : State) (q : Nat) (f : HostQ → HostQ) : (modQ s q f).cores = s.cores := rfl
@[simp] theorem modQ_dram (s : State) (q : Nat) (f : HostQ → HostQ) : (modQ s q f).dram = s.dram := rfl
@[simp] theorem modQ_poison (s : State) (q : Nat) (f : HostQ → HostQ) : (modQ s q f).poison = s.poison := rfl
@[simp] theorem modQ_host (s : State) (q : Nat) (f : HostQ → HostQ) : (modQ s q f).host = s.host := rfl
@[simp] theorem modQ_out (s : State) (q : Nat) (f : HostQ → HostQ) : (modQ s q f).out = s.out := rfl

/-! ## setItem -/

@[simp] theorem setItem_pending (s : State) (id : Nat) (v : Item) : (setItem s id v).pending = s.pending := rfl
@[simp] theorem setItem_freeCtr (s : State) (id : Nat) (v : Item) : (setItem s id v).freeCtr = s.freeCtr := rfl
@[simp] theorem setItem_code512 (s : State) (id : Nat) (v : Item) : (setItem s id v).code512 = s.code512 := rfl
@[simp] theorem setItem_pwr (s : State) (id : Nat) (v : Item) : (setItem s id v).pwr = s.pwr := rfl
@[simp] theorem setItem_ras (s : State) (id : Nat) (v : Item) : (setItem s id v).ras = s.ras := rfl
@[simp] theorem setItem_regs (s : State) (id : Nat) (v : Item) : (setItem s id v).regs = s.regs := rfl
@[simp] theorem setItem_fns (s : State) (id : Nat) (v : Item) : (setItem s id v).fns = s.fns := rfl
@[simp] theorem setItem_msix (s : State) (id : Nat) (v : Item) : (setItem s id v).msix = s.msix := rfl
@[simp] theorem setItem_sched (s : State) (id : Nat) (v : Item) : (setItem s id v).sched = s.sched := rfl
@[simp] theorem setItem_dma (s : State) (id : Nat) (v : Item) : (setItem s id v).dma = s.dma := rfl
@[simp] theorem setItem_ing (s : State) (id : Nat) (v : Item) : (setItem s id v).ing = s.ing := rfl
@[simp] theorem setItem_plans (s : State) (id : Nat) (v : Item) : (setItem s id v).plans = s.plans := rfl
@[simp] theorem setItem_cache (s : State) (id : Nat) (v : Item) : (setItem s id v).cache = s.cache := rfl
@[simp] theorem setItem_cam (s : State) (id : Nat) (v : Item) : (setItem s id v).cam = s.cam := rfl
@[simp] theorem setItem_ciph (s : State) (id : Nat) (v : Item) : (setItem s id v).ciph = s.ciph := rfl
@[simp] theorem setItem_bry (s : State) (id : Nat) (v : Item) : (setItem s id v).bry = s.bry := rfl
@[simp] theorem setItem_led (s : State) (id : Nat) (v : Item) : (setItem s id v).led = s.led := rfl
@[simp] theorem setItem_dmc (s : State) (id : Nat) (v : Item) : (setItem s id v).dmc = s.dmc := rfl
@[simp] theorem setItem_sec (s : State) (id : Nat) (v : Item) : (setItem s id v).sec = s.sec := rfl
@[simp] theorem setItem_cores (s : State) (id : Nat) (v : Item) : (setItem s id v).cores = s.cores := rfl
@[simp] theorem setItem_dram (s : State) (id : Nat) (v : Item) : (setItem s id v).dram = s.dram := rfl
@[simp] theorem setItem_poison (s : State) (id : Nat) (v : Item) : (setItem s id v).poison = s.poison := rfl
@[simp] theorem setItem_host (s : State) (id : Nat) (v : Item) : (setItem s id v).host = s.host := rfl
@[simp] theorem setItem_out (s : State) (id : Nat) (v : Item) : (setItem s id v).out = s.out := rfl

/-! ## modItem -/

@[simp] theorem modItem_pending (s : State) (id : Nat) (f : Item → Item) : (modItem s id f).pending = s.pending := rfl
@[simp] theorem modItem_freeCtr (s : State) (id : Nat) (f : Item → Item) : (modItem s id f).freeCtr = s.freeCtr := rfl
@[simp] theorem modItem_code512 (s : State) (id : Nat) (f : Item → Item) : (modItem s id f).code512 = s.code512 := rfl
@[simp] theorem modItem_pwr (s : State) (id : Nat) (f : Item → Item) : (modItem s id f).pwr = s.pwr := rfl
@[simp] theorem modItem_ras (s : State) (id : Nat) (f : Item → Item) : (modItem s id f).ras = s.ras := rfl
@[simp] theorem modItem_regs (s : State) (id : Nat) (f : Item → Item) : (modItem s id f).regs = s.regs := rfl
@[simp] theorem modItem_fns (s : State) (id : Nat) (f : Item → Item) : (modItem s id f).fns = s.fns := rfl
@[simp] theorem modItem_msix (s : State) (id : Nat) (f : Item → Item) : (modItem s id f).msix = s.msix := rfl
@[simp] theorem modItem_sched (s : State) (id : Nat) (f : Item → Item) : (modItem s id f).sched = s.sched := rfl
@[simp] theorem modItem_dma (s : State) (id : Nat) (f : Item → Item) : (modItem s id f).dma = s.dma := rfl
@[simp] theorem modItem_ing (s : State) (id : Nat) (f : Item → Item) : (modItem s id f).ing = s.ing := rfl
@[simp] theorem modItem_plans (s : State) (id : Nat) (f : Item → Item) : (modItem s id f).plans = s.plans := rfl
@[simp] theorem modItem_cache (s : State) (id : Nat) (f : Item → Item) : (modItem s id f).cache = s.cache := rfl
@[simp] theorem modItem_cam (s : State) (id : Nat) (f : Item → Item) : (modItem s id f).cam = s.cam := rfl
@[simp] theorem modItem_ciph (s : State) (id : Nat) (f : Item → Item) : (modItem s id f).ciph = s.ciph := rfl
@[simp] theorem modItem_bry (s : State) (id : Nat) (f : Item → Item) : (modItem s id f).bry = s.bry := rfl
@[simp] theorem modItem_led (s : State) (id : Nat) (f : Item → Item) : (modItem s id f).led = s.led := rfl
@[simp] theorem modItem_dmc (s : State) (id : Nat) (f : Item → Item) : (modItem s id f).dmc = s.dmc := rfl
@[simp] theorem modItem_sec (s : State) (id : Nat) (f : Item → Item) : (modItem s id f).sec = s.sec := rfl
@[simp] theorem modItem_cores (s : State) (id : Nat) (f : Item → Item) : (modItem s id f).cores = s.cores := rfl
@[simp] theorem modItem_dram (s : State) (id : Nat) (f : Item → Item) : (modItem s id f).dram = s.dram := rfl
@[simp] theorem modItem_poison (s : State) (id : Nat) (f : Item → Item) : (modItem s id f).poison = s.poison := rfl
@[simp] theorem modItem_host (s : State) (id : Nat) (f : Item → Item) : (modItem s id f).host = s.host := rfl
@[simp] theorem modItem_out (s : State) (id : Nat) (f : Item → Item) : (modItem s id f).out = s.out := rfl

/-! ## addEffects -/

@[simp] theorem addEffects_pending (s : State) (id : Nat) (es : List Effect) : (addEffects s id es).pending = s.pending := rfl
@[simp] theorem addEffects_freeCtr (s : State) (id : Nat) (es : List Effect) : (addEffects s id es).freeCtr = s.freeCtr := rfl
@[simp] theorem addEffects_code512 (s : State) (id : Nat) (es : List Effect) : (addEffects s id es).code512 = s.code512 := rfl
@[simp] theorem addEffects_pwr (s : State) (id : Nat) (es : List Effect) : (addEffects s id es).pwr = s.pwr := rfl
@[simp] theorem addEffects_ras (s : State) (id : Nat) (es : List Effect) : (addEffects s id es).ras = s.ras := rfl
@[simp] theorem addEffects_regs (s : State) (id : Nat) (es : List Effect) : (addEffects s id es).regs = s.regs := rfl
@[simp] theorem addEffects_fns (s : State) (id : Nat) (es : List Effect) : (addEffects s id es).fns = s.fns := rfl
@[simp] theorem addEffects_msix (s : State) (id : Nat) (es : List Effect) : (addEffects s id es).msix = s.msix := rfl
@[simp] theorem addEffects_sched (s : State) (id : Nat) (es : List Effect) : (addEffects s id es).sched = s.sched := rfl
@[simp] theorem addEffects_dma (s : State) (id : Nat) (es : List Effect) : (addEffects s id es).dma = s.dma := rfl
@[simp] theorem addEffects_ing (s : State) (id : Nat) (es : List Effect) : (addEffects s id es).ing = s.ing := rfl
@[simp] theorem addEffects_plans (s : State) (id : Nat) (es : List Effect) : (addEffects s id es).plans = s.plans := rfl
@[simp] theorem addEffects_cache (s : State) (id : Nat) (es : List Effect) : (addEffects s id es).cache = s.cache := rfl
@[simp] theorem addEffects_cam (s : State) (id : Nat) (es : List Effect) : (addEffects s id es).cam = s.cam := rfl
@[simp] theorem addEffects_ciph (s : State) (id : Nat) (es : List Effect) : (addEffects s id es).ciph = s.ciph := rfl
@[simp] theorem addEffects_bry (s : State) (id : Nat) (es : List Effect) : (addEffects s id es).bry = s.bry := rfl
@[simp] theorem addEffects_led (s : State) (id : Nat) (es : List Effect) : (addEffects s id es).led = s.led := rfl
@[simp] theorem addEffects_dmc (s : State) (id : Nat) (es : List Effect) : (addEffects s id es).dmc = s.dmc := rfl
@[simp] theorem addEffects_sec (s : State) (id : Nat) (es : List Effect) : (addEffects s id es).sec = s.sec := rfl
@[simp] theorem addEffects_cores (s : State) (id : Nat) (es : List Effect) : (addEffects s id es).cores = s.cores := rfl
@[simp] theorem addEffects_dram (s : State) (id : Nat) (es : List Effect) : (addEffects s id es).dram = s.dram := rfl
@[simp] theorem addEffects_poison (s : State) (id : Nat) (es : List Effect) : (addEffects s id es).poison = s.poison := rfl
@[simp] theorem addEffects_host (s : State) (id : Nat) (es : List Effect) : (addEffects s id es).host = s.host := rfl
@[simp] theorem addEffects_out (s : State) (id : Nat) (es : List Effect) : (addEffects s id es).out = s.out := rfl

/-! ## itemReady -/

@[simp] theorem itemReady_pending (s : State) (id r0 r1 : Nat) : (itemReady s id r0 r1).pending = s.pending := rfl
@[simp] theorem itemReady_freeCtr (s : State) (id r0 r1 : Nat) : (itemReady s id r0 r1).freeCtr = s.freeCtr := rfl
@[simp] theorem itemReady_code512 (s : State) (id r0 r1 : Nat) : (itemReady s id r0 r1).code512 = s.code512 := rfl
@[simp] theorem itemReady_pwr (s : State) (id r0 r1 : Nat) : (itemReady s id r0 r1).pwr = s.pwr := rfl
@[simp] theorem itemReady_ras (s : State) (id r0 r1 : Nat) : (itemReady s id r0 r1).ras = s.ras := rfl
@[simp] theorem itemReady_regs (s : State) (id r0 r1 : Nat) : (itemReady s id r0 r1).regs = s.regs := rfl
@[simp] theorem itemReady_fns (s : State) (id r0 r1 : Nat) : (itemReady s id r0 r1).fns = s.fns := rfl
@[simp] theorem itemReady_msix (s : State) (id r0 r1 : Nat) : (itemReady s id r0 r1).msix = s.msix := rfl
@[simp] theorem itemReady_sched (s : State) (id r0 r1 : Nat) : (itemReady s id r0 r1).sched = s.sched := rfl
@[simp] theorem itemReady_dma (s : State) (id r0 r1 : Nat) : (itemReady s id r0 r1).dma = s.dma := rfl
@[simp] theorem itemReady_ing (s : State) (id r0 r1 : Nat) : (itemReady s id r0 r1).ing = s.ing := rfl
@[simp] theorem itemReady_plans (s : State) (id r0 r1 : Nat) : (itemReady s id r0 r1).plans = s.plans := rfl
@[simp] theorem itemReady_cache (s : State) (id r0 r1 : Nat) : (itemReady s id r0 r1).cache = s.cache := rfl
@[simp] theorem itemReady_cam (s : State) (id r0 r1 : Nat) : (itemReady s id r0 r1).cam = s.cam := rfl
@[simp] theorem itemReady_ciph (s : State) (id r0 r1 : Nat) : (itemReady s id r0 r1).ciph = s.ciph := rfl
@[simp] theorem itemReady_bry (s : State) (id r0 r1 : Nat) : (itemReady s id r0 r1).bry = s.bry := rfl
@[simp] theorem itemReady_led (s : State) (id r0 r1 : Nat) : (itemReady s id r0 r1).led = s.led := rfl
@[simp] theorem itemReady_dmc (s : State) (id r0 r1 : Nat) : (itemReady s id r0 r1).dmc = s.dmc := rfl
@[simp] theorem itemReady_sec (s : State) (id r0 r1 : Nat) : (itemReady s id r0 r1).sec = s.sec := rfl
@[simp] theorem itemReady_cores (s : State) (id r0 r1 : Nat) : (itemReady s id r0 r1).cores = s.cores := rfl
@[simp] theorem itemReady_dram (s : State) (id r0 r1 : Nat) : (itemReady s id r0 r1).dram = s.dram := rfl
@[simp] theorem itemReady_poison (s : State) (id r0 r1 : Nat) : (itemReady s id r0 r1).poison = s.poison := rfl
@[simp] theorem itemReady_host (s : State) (id r0 r1 : Nat) : (itemReady s id r0 r1).host = s.host := rfl
@[simp] theorem itemReady_out (s : State) (id r0 r1 : Nat) : (itemReady s id r0 r1).out = s.out := rfl

/-! ## setEntry -/

@[simp] theorem setEntry_pending (s : State) (e : Nat) (v : Entry) : (setEntry s e v).pending = s.pending := rfl
@[simp] theorem setEntry_freeCtr (s : State) (e : Nat) (v : Entry) : (setEntry s e v).freeCtr = s.freeCtr := rfl
@[simp] theorem setEntry_code512 (s : State) (e : Nat) (v : Entry) : (setEntry s e v).code512 = s.code512 := rfl
@[simp] theorem setEntry_pwr (s : State) (e : Nat) (v : Entry) : (setEntry s e v).pwr = s.pwr := rfl
@[simp] theorem setEntry_ras (s : State) (e : Nat) (v : Entry) : (setEntry s e v).ras = s.ras := rfl
@[simp] theorem setEntry_regs (s : State) (e : Nat) (v : Entry) : (setEntry s e v).regs = s.regs := rfl
@[simp] theorem setEntry_fns (s : State) (e : Nat) (v : Entry) : (setEntry s e v).fns = s.fns := rfl
@[simp] theorem setEntry_qm (s : State) (e : Nat) (v : Entry) : (setEntry s e v).qm = s.qm := rfl
@[simp] theorem setEntry_msix (s : State) (e : Nat) (v : Entry) : (setEntry s e v).msix = s.msix := rfl
@[simp] theorem setEntry_dma (s : State) (e : Nat) (v : Entry) : (setEntry s e v).dma = s.dma := rfl
@[simp] theorem setEntry_ing (s : State) (e : Nat) (v : Entry) : (setEntry s e v).ing = s.ing := rfl
@[simp] theorem setEntry_plans (s : State) (e : Nat) (v : Entry) : (setEntry s e v).plans = s.plans := rfl
@[simp] theorem setEntry_cache (s : State) (e : Nat) (v : Entry) : (setEntry s e v).cache = s.cache := rfl
@[simp] theorem setEntry_cam (s : State) (e : Nat) (v : Entry) : (setEntry s e v).cam = s.cam := rfl
@[simp] theorem setEntry_ciph (s : State) (e : Nat) (v : Entry) : (setEntry s e v).ciph = s.ciph := rfl
@[simp] theorem setEntry_bry (s : State) (e : Nat) (v : Entry) : (setEntry s e v).bry = s.bry := rfl
@[simp] theorem setEntry_led (s : State) (e : Nat) (v : Entry) : (setEntry s e v).led = s.led := rfl
@[simp] theorem setEntry_dmc (s : State) (e : Nat) (v : Entry) : (setEntry s e v).dmc = s.dmc := rfl
@[simp] theorem setEntry_sec (s : State) (e : Nat) (v : Entry) : (setEntry s e v).sec = s.sec := rfl
@[simp] theorem setEntry_cores (s : State) (e : Nat) (v : Entry) : (setEntry s e v).cores = s.cores := rfl
@[simp] theorem setEntry_dram (s : State) (e : Nat) (v : Entry) : (setEntry s e v).dram = s.dram := rfl
@[simp] theorem setEntry_poison (s : State) (e : Nat) (v : Entry) : (setEntry s e v).poison = s.poison := rfl
@[simp] theorem setEntry_host (s : State) (e : Nat) (v : Entry) : (setEntry s e v).host = s.host := rfl
@[simp] theorem setEntry_out (s : State) (e : Nat) (v : Entry) : (setEntry s e v).out = s.out := rfl

/-! ## modEntry -/

@[simp] theorem modEntry_pending (s : State) (e : Nat) (f : Entry → Entry) : (modEntry s e f).pending = s.pending := rfl
@[simp] theorem modEntry_freeCtr (s : State) (e : Nat) (f : Entry → Entry) : (modEntry s e f).freeCtr = s.freeCtr := rfl
@[simp] theorem modEntry_code512 (s : State) (e : Nat) (f : Entry → Entry) : (modEntry s e f).code512 = s.code512 := rfl
@[simp] theorem modEntry_pwr (s : State) (e : Nat) (f : Entry → Entry) : (modEntry s e f).pwr = s.pwr := rfl
@[simp] theorem modEntry_ras (s : State) (e : Nat) (f : Entry → Entry) : (modEntry s e f).ras = s.ras := rfl
@[simp] theorem modEntry_regs (s : State) (e : Nat) (f : Entry → Entry) : (modEntry s e f).regs = s.regs := rfl
@[simp] theorem modEntry_fns (s : State) (e : Nat) (f : Entry → Entry) : (modEntry s e f).fns = s.fns := rfl
@[simp] theorem modEntry_qm (s : State) (e : Nat) (f : Entry → Entry) : (modEntry s e f).qm = s.qm := rfl
@[simp] theorem modEntry_msix (s : State) (e : Nat) (f : Entry → Entry) : (modEntry s e f).msix = s.msix := rfl
@[simp] theorem modEntry_dma (s : State) (e : Nat) (f : Entry → Entry) : (modEntry s e f).dma = s.dma := rfl
@[simp] theorem modEntry_ing (s : State) (e : Nat) (f : Entry → Entry) : (modEntry s e f).ing = s.ing := rfl
@[simp] theorem modEntry_plans (s : State) (e : Nat) (f : Entry → Entry) : (modEntry s e f).plans = s.plans := rfl
@[simp] theorem modEntry_cache (s : State) (e : Nat) (f : Entry → Entry) : (modEntry s e f).cache = s.cache := rfl
@[simp] theorem modEntry_cam (s : State) (e : Nat) (f : Entry → Entry) : (modEntry s e f).cam = s.cam := rfl
@[simp] theorem modEntry_ciph (s : State) (e : Nat) (f : Entry → Entry) : (modEntry s e f).ciph = s.ciph := rfl
@[simp] theorem modEntry_bry (s : State) (e : Nat) (f : Entry → Entry) : (modEntry s e f).bry = s.bry := rfl
@[simp] theorem modEntry_led (s : State) (e : Nat) (f : Entry → Entry) : (modEntry s e f).led = s.led := rfl
@[simp] theorem modEntry_dmc (s : State) (e : Nat) (f : Entry → Entry) : (modEntry s e f).dmc = s.dmc := rfl
@[simp] theorem modEntry_sec (s : State) (e : Nat) (f : Entry → Entry) : (modEntry s e f).sec = s.sec := rfl
@[simp] theorem modEntry_cores (s : State) (e : Nat) (f : Entry → Entry) : (modEntry s e f).cores = s.cores := rfl
@[simp] theorem modEntry_dram (s : State) (e : Nat) (f : Entry → Entry) : (modEntry s e f).dram = s.dram := rfl
@[simp] theorem modEntry_poison (s : State) (e : Nat) (f : Entry → Entry) : (modEntry s e f).poison = s.poison := rfl
@[simp] theorem modEntry_host (s : State) (e : Nat) (f : Entry → Entry) : (modEntry s e f).host = s.host := rfl
@[simp] theorem modEntry_out (s : State) (e : Nat) (f : Entry → Entry) : (modEntry s e f).out = s.out := rfl

/-! ## endEntry -/

@[simp] theorem endEntry_pending (s : State) (e : Nat) : (endEntry s e).pending = s.pending := rfl
@[simp] theorem endEntry_freeCtr (s : State) (e : Nat) : (endEntry s e).freeCtr = s.freeCtr := rfl
@[simp] theorem endEntry_code512 (s : State) (e : Nat) : (endEntry s e).code512 = s.code512 := rfl
@[simp] theorem endEntry_pwr (s : State) (e : Nat) : (endEntry s e).pwr = s.pwr := rfl
@[simp] theorem endEntry_ras (s : State) (e : Nat) : (endEntry s e).ras = s.ras := rfl
@[simp] theorem endEntry_regs (s : State) (e : Nat) : (endEntry s e).regs = s.regs := rfl
@[simp] theorem endEntry_fns (s : State) (e : Nat) : (endEntry s e).fns = s.fns := rfl
@[simp] theorem endEntry_qm (s : State) (e : Nat) : (endEntry s e).qm = s.qm := rfl
@[simp] theorem endEntry_msix (s : State) (e : Nat) : (endEntry s e).msix = s.msix := rfl
@[simp] theorem endEntry_dma (s : State) (e : Nat) : (endEntry s e).dma = s.dma := rfl
@[simp] theorem endEntry_ing (s : State) (e : Nat) : (endEntry s e).ing = s.ing := rfl
@[simp] theorem endEntry_plans (s : State) (e : Nat) : (endEntry s e).plans = s.plans := rfl
@[simp] theorem endEntry_cache (s : State) (e : Nat) : (endEntry s e).cache = s.cache := rfl
@[simp] theorem endEntry_cam (s : State) (e : Nat) : (endEntry s e).cam = s.cam := rfl
@[simp] theorem endEntry_ciph (s : State) (e : Nat) : (endEntry s e).ciph = s.ciph := rfl
@[simp] theorem endEntry_bry (s : State) (e : Nat) : (endEntry s e).bry = s.bry := rfl
@[simp] theorem endEntry_led (s : State) (e : Nat) : (endEntry s e).led = s.led := rfl
@[simp] theorem endEntry_dmc (s : State) (e : Nat) : (endEntry s e).dmc = s.dmc := rfl
@[simp] theorem endEntry_sec (s : State) (e : Nat) : (endEntry s e).sec = s.sec := rfl
@[simp] theorem endEntry_cores (s : State) (e : Nat) : (endEntry s e).cores = s.cores := rfl
@[simp] theorem endEntry_dram (s : State) (e : Nat) : (endEntry s e).dram = s.dram := rfl
@[simp] theorem endEntry_poison (s : State) (e : Nat) : (endEntry s e).poison = s.poison := rfl
@[simp] theorem endEntry_host (s : State) (e : Nat) : (endEntry s e).host = s.host := rfl
@[simp] theorem endEntry_out (s : State) (e : Nat) : (endEntry s e).out = s.out := rfl

/-! ## endEntries -/

@[simp] theorem endEntries_pending (s : State) (id : Nat) : (endEntries s id).pending = s.pending := rfl
@[simp] theorem endEntries_freeCtr (s : State) (id : Nat) : (endEntries s id).freeCtr = s.freeCtr := rfl
@[simp] theorem endEntries_code512 (s : State) (id : Nat) : (endEntries s id).code512 = s.code512 := rfl
@[simp] theorem endEntries_pwr (s : State) (id : Nat) : (endEntries s id).pwr = s.pwr := rfl
@[simp] theorem endEntries_ras (s : State) (id : Nat) : (endEntries s id).ras = s.ras := rfl
@[simp] theorem endEntries_regs (s : State) (id : Nat) : (endEntries s id).regs = s.regs := rfl
@[simp] theorem endEntries_fns (s : State) (id : Nat) : (endEntries s id).fns = s.fns := rfl
@[simp] theorem endEntries_qm (s : State) (id : Nat) : (endEntries s id).qm = s.qm := rfl
@[simp] theorem endEntries_msix (s : State) (id : Nat) : (endEntries s id).msix = s.msix := rfl
@[simp] theorem endEntries_dma (s : State) (id : Nat) : (endEntries s id).dma = s.dma := rfl
@[simp] theorem endEntries_ing (s : State) (id : Nat) : (endEntries s id).ing = s.ing := rfl
@[simp] theorem endEntries_plans (s : State) (id : Nat) : (endEntries s id).plans = s.plans := rfl
@[simp] theorem endEntries_cache (s : State) (id : Nat) : (endEntries s id).cache = s.cache := rfl
@[simp] theorem endEntries_cam (s : State) (id : Nat) : (endEntries s id).cam = s.cam := rfl
@[simp] theorem endEntries_ciph (s : State) (id : Nat) : (endEntries s id).ciph = s.ciph := rfl
@[simp] theorem endEntries_bry (s : State) (id : Nat) : (endEntries s id).bry = s.bry := rfl
@[simp] theorem endEntries_led (s : State) (id : Nat) : (endEntries s id).led = s.led := rfl
@[simp] theorem endEntries_dmc (s : State) (id : Nat) : (endEntries s id).dmc = s.dmc := rfl
@[simp] theorem endEntries_sec (s : State) (id : Nat) : (endEntries s id).sec = s.sec := rfl
@[simp] theorem endEntries_cores (s : State) (id : Nat) : (endEntries s id).cores = s.cores := rfl
@[simp] theorem endEntries_dram (s : State) (id : Nat) : (endEntries s id).dram = s.dram := rfl
@[simp] theorem endEntries_poison (s : State) (id : Nat) : (endEntries s id).poison = s.poison := rfl
@[simp] theorem endEntries_host (s : State) (id : Nat) : (endEntries s id).host = s.host := rfl
@[simp] theorem endEntries_out (s : State) (id : Nat) : (endEntries s id).out = s.out := rfl

/-! ## setCluster -/

@[simp] theorem setCluster_pending (s : State) (c : Nat) (v : Cluster) : (setCluster s c v).pending = s.pending := rfl
@[simp] theorem setCluster_freeCtr (s : State) (c : Nat) (v : Cluster) : (setCluster s c v).freeCtr = s.freeCtr := rfl
@[simp] theorem setCluster_code512 (s : State) (c : Nat) (v : Cluster) : (setCluster s c v).code512 = s.code512 := rfl
@[simp] theorem setCluster_ras (s : State) (c : Nat) (v : Cluster) : (setCluster s c v).ras = s.ras := rfl
@[simp] theorem setCluster_regs (s : State) (c : Nat) (v : Cluster) : (setCluster s c v).regs = s.regs := rfl
@[simp] theorem setCluster_fns (s : State) (c : Nat) (v : Cluster) : (setCluster s c v).fns = s.fns := rfl
@[simp] theorem setCluster_qm (s : State) (c : Nat) (v : Cluster) : (setCluster s c v).qm = s.qm := rfl
@[simp] theorem setCluster_msix (s : State) (c : Nat) (v : Cluster) : (setCluster s c v).msix = s.msix := rfl
@[simp] theorem setCluster_sched (s : State) (c : Nat) (v : Cluster) : (setCluster s c v).sched = s.sched := rfl
@[simp] theorem setCluster_dma (s : State) (c : Nat) (v : Cluster) : (setCluster s c v).dma = s.dma := rfl
@[simp] theorem setCluster_ing (s : State) (c : Nat) (v : Cluster) : (setCluster s c v).ing = s.ing := rfl
@[simp] theorem setCluster_plans (s : State) (c : Nat) (v : Cluster) : (setCluster s c v).plans = s.plans := rfl
@[simp] theorem setCluster_cache (s : State) (c : Nat) (v : Cluster) : (setCluster s c v).cache = s.cache := rfl
@[simp] theorem setCluster_cam (s : State) (c : Nat) (v : Cluster) : (setCluster s c v).cam = s.cam := rfl
@[simp] theorem setCluster_ciph (s : State) (c : Nat) (v : Cluster) : (setCluster s c v).ciph = s.ciph := rfl
@[simp] theorem setCluster_bry (s : State) (c : Nat) (v : Cluster) : (setCluster s c v).bry = s.bry := rfl
@[simp] theorem setCluster_led (s : State) (c : Nat) (v : Cluster) : (setCluster s c v).led = s.led := rfl
@[simp] theorem setCluster_dmc (s : State) (c : Nat) (v : Cluster) : (setCluster s c v).dmc = s.dmc := rfl
@[simp] theorem setCluster_sec (s : State) (c : Nat) (v : Cluster) : (setCluster s c v).sec = s.sec := rfl
@[simp] theorem setCluster_cores (s : State) (c : Nat) (v : Cluster) : (setCluster s c v).cores = s.cores := rfl
@[simp] theorem setCluster_dram (s : State) (c : Nat) (v : Cluster) : (setCluster s c v).dram = s.dram := rfl
@[simp] theorem setCluster_poison (s : State) (c : Nat) (v : Cluster) : (setCluster s c v).poison = s.poison := rfl
@[simp] theorem setCluster_host (s : State) (c : Nat) (v : Cluster) : (setCluster s c v).host = s.host := rfl
@[simp] theorem setCluster_out (s : State) (c : Nat) (v : Cluster) : (setCluster s c v).out = s.out := rfl

/-! ## dramStore -/

@[simp] theorem dramStore_pending (s : State) (a : Nat) (bs : List Byte) : (dramStore s a bs).pending = s.pending := rfl
@[simp] theorem dramStore_freeCtr (s : State) (a : Nat) (bs : List Byte) : (dramStore s a bs).freeCtr = s.freeCtr := rfl
@[simp] theorem dramStore_code512 (s : State) (a : Nat) (bs : List Byte) : (dramStore s a bs).code512 = s.code512 := rfl
@[simp] theorem dramStore_pwr (s : State) (a : Nat) (bs : List Byte) : (dramStore s a bs).pwr = s.pwr := rfl
@[simp] theorem dramStore_ras (s : State) (a : Nat) (bs : List Byte) : (dramStore s a bs).ras = s.ras := rfl
@[simp] theorem dramStore_regs (s : State) (a : Nat) (bs : List Byte) : (dramStore s a bs).regs = s.regs := rfl
@[simp] theorem dramStore_fns (s : State) (a : Nat) (bs : List Byte) : (dramStore s a bs).fns = s.fns := rfl
@[simp] theorem dramStore_qm (s : State) (a : Nat) (bs : List Byte) : (dramStore s a bs).qm = s.qm := rfl
@[simp] theorem dramStore_msix (s : State) (a : Nat) (bs : List Byte) : (dramStore s a bs).msix = s.msix := rfl
@[simp] theorem dramStore_sched (s : State) (a : Nat) (bs : List Byte) : (dramStore s a bs).sched = s.sched := rfl
@[simp] theorem dramStore_dma (s : State) (a : Nat) (bs : List Byte) : (dramStore s a bs).dma = s.dma := rfl
@[simp] theorem dramStore_ing (s : State) (a : Nat) (bs : List Byte) : (dramStore s a bs).ing = s.ing := rfl
@[simp] theorem dramStore_plans (s : State) (a : Nat) (bs : List Byte) : (dramStore s a bs).plans = s.plans := rfl
@[simp] theorem dramStore_cache (s : State) (a : Nat) (bs : List Byte) : (dramStore s a bs).cache = s.cache := rfl
@[simp] theorem dramStore_cam (s : State) (a : Nat) (bs : List Byte) : (dramStore s a bs).cam = s.cam := rfl
@[simp] theorem dramStore_ciph (s : State) (a : Nat) (bs : List Byte) : (dramStore s a bs).ciph = s.ciph := rfl
@[simp] theorem dramStore_bry (s : State) (a : Nat) (bs : List Byte) : (dramStore s a bs).bry = s.bry := rfl
@[simp] theorem dramStore_led (s : State) (a : Nat) (bs : List Byte) : (dramStore s a bs).led = s.led := rfl
@[simp] theorem dramStore_sec (s : State) (a : Nat) (bs : List Byte) : (dramStore s a bs).sec = s.sec := rfl
@[simp] theorem dramStore_cores (s : State) (a : Nat) (bs : List Byte) : (dramStore s a bs).cores = s.cores := rfl
@[simp] theorem dramStore_host (s : State) (a : Nat) (bs : List Byte) : (dramStore s a bs).host = s.host := rfl
@[simp] theorem dramStore_out (s : State) (a : Nat) (bs : List Byte) : (dramStore s a bs).out = s.out := rfl

/-! ## setLine -/

@[simp] theorem setLine_pending (s : State) (l w : Nat) (c : CLine) : (setLine s l w c).pending = s.pending := rfl
@[simp] theorem setLine_freeCtr (s : State) (l w : Nat) (c : CLine) : (setLine s l w c).freeCtr = s.freeCtr := rfl
@[simp] theorem setLine_code512 (s : State) (l w : Nat) (c : CLine) : (setLine s l w c).code512 = s.code512 := rfl
@[simp] theorem setLine_pwr (s : State) (l w : Nat) (c : CLine) : (setLine s l w c).pwr = s.pwr := rfl
@[simp] theorem setLine_ras (s : State) (l w : Nat) (c : CLine) : (setLine s l w c).ras = s.ras := rfl
@[simp] theorem setLine_regs (s : State) (l w : Nat) (c : CLine) : (setLine s l w c).regs = s.regs := rfl
@[simp] theorem setLine_fns (s : State) (l w : Nat) (c : CLine) : (setLine s l w c).fns = s.fns := rfl
@[simp] theorem setLine_qm (s : State) (l w : Nat) (c : CLine) : (setLine s l w c).qm = s.qm := rfl
@[simp] theorem setLine_msix (s : State) (l w : Nat) (c : CLine) : (setLine s l w c).msix = s.msix := rfl
@[simp] theorem setLine_sched (s : State) (l w : Nat) (c : CLine) : (setLine s l w c).sched = s.sched := rfl
@[simp] theorem setLine_dma (s : State) (l w : Nat) (c : CLine) : (setLine s l w c).dma = s.dma := rfl
@[simp] theorem setLine_ing (s : State) (l w : Nat) (c : CLine) : (setLine s l w c).ing = s.ing := rfl
@[simp] theorem setLine_plans (s : State) (l w : Nat) (c : CLine) : (setLine s l w c).plans = s.plans := rfl
@[simp] theorem setLine_cam (s : State) (l w : Nat) (c : CLine) : (setLine s l w c).cam = s.cam := rfl
@[simp] theorem setLine_ciph (s : State) (l w : Nat) (c : CLine) : (setLine s l w c).ciph = s.ciph := rfl
@[simp] theorem setLine_bry (s : State) (l w : Nat) (c : CLine) : (setLine s l w c).bry = s.bry := rfl
@[simp] theorem setLine_led (s : State) (l w : Nat) (c : CLine) : (setLine s l w c).led = s.led := rfl
@[simp] theorem setLine_dmc (s : State) (l w : Nat) (c : CLine) : (setLine s l w c).dmc = s.dmc := rfl
@[simp] theorem setLine_sec (s : State) (l w : Nat) (c : CLine) : (setLine s l w c).sec = s.sec := rfl
@[simp] theorem setLine_cores (s : State) (l w : Nat) (c : CLine) : (setLine s l w c).cores = s.cores := rfl
@[simp] theorem setLine_dram (s : State) (l w : Nat) (c : CLine) : (setLine s l w c).dram = s.dram := rfl
@[simp] theorem setLine_poison (s : State) (l w : Nat) (c : CLine) : (setLine s l w c).poison = s.poison := rfl
@[simp] theorem setLine_host (s : State) (l w : Nat) (c : CLine) : (setLine s l w c).host = s.host := rfl
@[simp] theorem setLine_out (s : State) (l w : Nat) (c : CLine) : (setLine s l w c).out = s.out := rfl

/-! ## dropLine -/

@[simp] theorem dropLine_pending (s : State) (l w : Nat) : (dropLine s l w).pending = s.pending := rfl
@[simp] theorem dropLine_freeCtr (s : State) (l w : Nat) : (dropLine s l w).freeCtr = s.freeCtr := rfl
@[simp] theorem dropLine_code512 (s : State) (l w : Nat) : (dropLine s l w).code512 = s.code512 := rfl
@[simp] theorem dropLine_pwr (s : State) (l w : Nat) : (dropLine s l w).pwr = s.pwr := rfl
@[simp] theorem dropLine_ras (s : State) (l w : Nat) : (dropLine s l w).ras = s.ras := rfl
@[simp] theorem dropLine_regs (s : State) (l w : Nat) : (dropLine s l w).regs = s.regs := rfl
@[simp] theorem dropLine_fns (s : State) (l w : Nat) : (dropLine s l w).fns = s.fns := rfl
@[simp] theorem dropLine_qm (s : State) (l w : Nat) : (dropLine s l w).qm = s.qm := rfl
@[simp] theorem dropLine_msix (s : State) (l w : Nat) : (dropLine s l w).msix = s.msix := rfl
@[simp] theorem dropLine_sched (s : State) (l w : Nat) : (dropLine s l w).sched = s.sched := rfl
@[simp] theorem dropLine_dma (s : State) (l w : Nat) : (dropLine s l w).dma = s.dma := rfl
@[simp] theorem dropLine_ing (s : State) (l w : Nat) : (dropLine s l w).ing = s.ing := rfl
@[simp] theorem dropLine_plans (s : State) (l w : Nat) : (dropLine s l w).plans = s.plans := rfl
@[simp] theorem dropLine_cam (s : State) (l w : Nat) : (dropLine s l w).cam = s.cam := rfl
@[simp] theorem dropLine_ciph (s : State) (l w : Nat) : (dropLine s l w).ciph = s.ciph := rfl
@[simp] theorem dropLine_bry (s : State) (l w : Nat) : (dropLine s l w).bry = s.bry := rfl
@[simp] theorem dropLine_led (s : State) (l w : Nat) : (dropLine s l w).led = s.led := rfl
@[simp] theorem dropLine_dmc (s : State) (l w : Nat) : (dropLine s l w).dmc = s.dmc := rfl
@[simp] theorem dropLine_sec (s : State) (l w : Nat) : (dropLine s l w).sec = s.sec := rfl
@[simp] theorem dropLine_cores (s : State) (l w : Nat) : (dropLine s l w).cores = s.cores := rfl
@[simp] theorem dropLine_dram (s : State) (l w : Nat) : (dropLine s l w).dram = s.dram := rfl
@[simp] theorem dropLine_poison (s : State) (l w : Nat) : (dropLine s l w).poison = s.poison := rfl
@[simp] theorem dropLine_host (s : State) (l w : Nat) : (dropLine s l w).host = s.host := rfl
@[simp] theorem dropLine_out (s : State) (l w : Nat) : (dropLine s l w).out = s.out := rfl

/-! ## touch -/

@[simp] theorem touch_pending (s : State) (l w : Nat) : (touch s l w).pending = s.pending := rfl
@[simp] theorem touch_freeCtr (s : State) (l w : Nat) : (touch s l w).freeCtr = s.freeCtr := rfl
@[simp] theorem touch_code512 (s : State) (l w : Nat) : (touch s l w).code512 = s.code512 := rfl
@[simp] theorem touch_pwr (s : State) (l w : Nat) : (touch s l w).pwr = s.pwr := rfl
@[simp] theorem touch_ras (s : State) (l w : Nat) : (touch s l w).ras = s.ras := rfl
@[simp] theorem touch_regs (s : State) (l w : Nat) : (touch s l w).regs = s.regs := rfl
@[simp] theorem touch_fns (s : State) (l w : Nat) : (touch s l w).fns = s.fns := rfl
@[simp] theorem touch_qm (s : State) (l w : Nat) : (touch s l w).qm = s.qm := rfl
@[simp] theorem touch_msix (s : State) (l w : Nat) : (touch s l w).msix = s.msix := rfl
@[simp] theorem touch_sched (s : State) (l w : Nat) : (touch s l w).sched = s.sched := rfl
@[simp] theorem touch_dma (s : State) (l w : Nat) : (touch s l w).dma = s.dma := rfl
@[simp] theorem touch_ing (s : State) (l w : Nat) : (touch s l w).ing = s.ing := rfl
@[simp] theorem touch_plans (s : State) (l w : Nat) : (touch s l w).plans = s.plans := rfl
@[simp] theorem touch_cam (s : State) (l w : Nat) : (touch s l w).cam = s.cam := rfl
@[simp] theorem touch_ciph (s : State) (l w : Nat) : (touch s l w).ciph = s.ciph := rfl
@[simp] theorem touch_bry (s : State) (l w : Nat) : (touch s l w).bry = s.bry := rfl
@[simp] theorem touch_led (s : State) (l w : Nat) : (touch s l w).led = s.led := rfl
@[simp] theorem touch_dmc (s : State) (l w : Nat) : (touch s l w).dmc = s.dmc := rfl
@[simp] theorem touch_sec (s : State) (l w : Nat) : (touch s l w).sec = s.sec := rfl
@[simp] theorem touch_cores (s : State) (l w : Nat) : (touch s l w).cores = s.cores := rfl
@[simp] theorem touch_dram (s : State) (l w : Nat) : (touch s l w).dram = s.dram := rfl
@[simp] theorem touch_poison (s : State) (l w : Nat) : (touch s l w).poison = s.poison := rfl
@[simp] theorem touch_host (s : State) (l w : Nat) : (touch s l w).host = s.host := rfl
@[simp] theorem touch_out (s : State) (l w : Nat) : (touch s l w).out = s.out := rfl

/-! ## emptyWay -/

@[simp] theorem emptyWay_pending (s : State) (w : Nat) (k : Option Nat) : (emptyWay s w k).pending = s.pending := rfl
@[simp] theorem emptyWay_freeCtr (s : State) (w : Nat) (k : Option Nat) : (emptyWay s w k).freeCtr = s.freeCtr := rfl
@[simp] theorem emptyWay_code512 (s : State) (w : Nat) (k : Option Nat) : (emptyWay s w k).code512 = s.code512 := rfl
@[simp] theorem emptyWay_pwr (s : State) (w : Nat) (k : Option Nat) : (emptyWay s w k).pwr = s.pwr := rfl
@[simp] theorem emptyWay_ras (s : State) (w : Nat) (k : Option Nat) : (emptyWay s w k).ras = s.ras := rfl
@[simp] theorem emptyWay_regs (s : State) (w : Nat) (k : Option Nat) : (emptyWay s w k).regs = s.regs := rfl
@[simp] theorem emptyWay_fns (s : State) (w : Nat) (k : Option Nat) : (emptyWay s w k).fns = s.fns := rfl
@[simp] theorem emptyWay_qm (s : State) (w : Nat) (k : Option Nat) : (emptyWay s w k).qm = s.qm := rfl
@[simp] theorem emptyWay_msix (s : State) (w : Nat) (k : Option Nat) : (emptyWay s w k).msix = s.msix := rfl
@[simp] theorem emptyWay_sched (s : State) (w : Nat) (k : Option Nat) : (emptyWay s w k).sched = s.sched := rfl
@[simp] theorem emptyWay_dma (s : State) (w : Nat) (k : Option Nat) : (emptyWay s w k).dma = s.dma := rfl
@[simp] theorem emptyWay_ing (s : State) (w : Nat) (k : Option Nat) : (emptyWay s w k).ing = s.ing := rfl
@[simp] theorem emptyWay_plans (s : State) (w : Nat) (k : Option Nat) : (emptyWay s w k).plans = s.plans := rfl
@[simp] theorem emptyWay_cam (s : State) (w : Nat) (k : Option Nat) : (emptyWay s w k).cam = s.cam := rfl
@[simp] theorem emptyWay_ciph (s : State) (w : Nat) (k : Option Nat) : (emptyWay s w k).ciph = s.ciph := rfl
@[simp] theorem emptyWay_bry (s : State) (w : Nat) (k : Option Nat) : (emptyWay s w k).bry = s.bry := rfl
@[simp] theorem emptyWay_led (s : State) (w : Nat) (k : Option Nat) : (emptyWay s w k).led = s.led := rfl
@[simp] theorem emptyWay_dmc (s : State) (w : Nat) (k : Option Nat) : (emptyWay s w k).dmc = s.dmc := rfl
@[simp] theorem emptyWay_sec (s : State) (w : Nat) (k : Option Nat) : (emptyWay s w k).sec = s.sec := rfl
@[simp] theorem emptyWay_cores (s : State) (w : Nat) (k : Option Nat) : (emptyWay s w k).cores = s.cores := rfl
@[simp] theorem emptyWay_dram (s : State) (w : Nat) (k : Option Nat) : (emptyWay s w k).dram = s.dram := rfl
@[simp] theorem emptyWay_poison (s : State) (w : Nat) (k : Option Nat) : (emptyWay s w k).poison = s.poison := rfl
@[simp] theorem emptyWay_host (s : State) (w : Nat) (k : Option Nat) : (emptyWay s w k).host = s.host := rfl
@[simp] theorem emptyWay_out (s : State) (w : Nat) (k : Option Nat) : (emptyWay s w k).out = s.out := rfl

/-! ## hostWrite -/

@[simp] theorem hostWrite_pending (s : State) (a : Nat) (bs : List Byte) : (hostWrite s a bs).pending = s.pending := rfl
@[simp] theorem hostWrite_freeCtr (s : State) (a : Nat) (bs : List Byte) : (hostWrite s a bs).freeCtr = s.freeCtr := rfl
@[simp] theorem hostWrite_code512 (s : State) (a : Nat) (bs : List Byte) : (hostWrite s a bs).code512 = s.code512 := rfl
@[simp] theorem hostWrite_pwr (s : State) (a : Nat) (bs : List Byte) : (hostWrite s a bs).pwr = s.pwr := rfl
@[simp] theorem hostWrite_ras (s : State) (a : Nat) (bs : List Byte) : (hostWrite s a bs).ras = s.ras := rfl
@[simp] theorem hostWrite_regs (s : State) (a : Nat) (bs : List Byte) : (hostWrite s a bs).regs = s.regs := rfl
@[simp] theorem hostWrite_fns (s : State) (a : Nat) (bs : List Byte) : (hostWrite s a bs).fns = s.fns := rfl
@[simp] theorem hostWrite_qm (s : State) (a : Nat) (bs : List Byte) : (hostWrite s a bs).qm = s.qm := rfl
@[simp] theorem hostWrite_msix (s : State) (a : Nat) (bs : List Byte) : (hostWrite s a bs).msix = s.msix := rfl
@[simp] theorem hostWrite_sched (s : State) (a : Nat) (bs : List Byte) : (hostWrite s a bs).sched = s.sched := rfl
@[simp] theorem hostWrite_dma (s : State) (a : Nat) (bs : List Byte) : (hostWrite s a bs).dma = s.dma := rfl
@[simp] theorem hostWrite_ing (s : State) (a : Nat) (bs : List Byte) : (hostWrite s a bs).ing = s.ing := rfl
@[simp] theorem hostWrite_plans (s : State) (a : Nat) (bs : List Byte) : (hostWrite s a bs).plans = s.plans := rfl
@[simp] theorem hostWrite_cache (s : State) (a : Nat) (bs : List Byte) : (hostWrite s a bs).cache = s.cache := rfl
@[simp] theorem hostWrite_cam (s : State) (a : Nat) (bs : List Byte) : (hostWrite s a bs).cam = s.cam := rfl
@[simp] theorem hostWrite_ciph (s : State) (a : Nat) (bs : List Byte) : (hostWrite s a bs).ciph = s.ciph := rfl
@[simp] theorem hostWrite_bry (s : State) (a : Nat) (bs : List Byte) : (hostWrite s a bs).bry = s.bry := rfl
@[simp] theorem hostWrite_led (s : State) (a : Nat) (bs : List Byte) : (hostWrite s a bs).led = s.led := rfl
@[simp] theorem hostWrite_dmc (s : State) (a : Nat) (bs : List Byte) : (hostWrite s a bs).dmc = s.dmc := rfl
@[simp] theorem hostWrite_sec (s : State) (a : Nat) (bs : List Byte) : (hostWrite s a bs).sec = s.sec := rfl
@[simp] theorem hostWrite_cores (s : State) (a : Nat) (bs : List Byte) : (hostWrite s a bs).cores = s.cores := rfl
@[simp] theorem hostWrite_dram (s : State) (a : Nat) (bs : List Byte) : (hostWrite s a bs).dram = s.dram := rfl
@[simp] theorem hostWrite_poison (s : State) (a : Nat) (bs : List Byte) : (hostWrite s a bs).poison = s.poison := rfl
@[simp] theorem hostWrite_out (s : State) (a : Nat) (bs : List Byte) : (hostWrite s a bs).out = s.out := rfl

/-! ## clearPoison -/

@[simp] theorem clearPoison_pending (s : State) (a n : Nat) : (clearPoison s a n).pending = s.pending := rfl
@[simp] theorem clearPoison_freeCtr (s : State) (a n : Nat) : (clearPoison s a n).freeCtr = s.freeCtr := rfl
@[simp] theorem clearPoison_code512 (s : State) (a n : Nat) : (clearPoison s a n).code512 = s.code512 := rfl
@[simp] theorem clearPoison_pwr (s : State) (a n : Nat) : (clearPoison s a n).pwr = s.pwr := rfl
@[simp] theorem clearPoison_ras (s : State) (a n : Nat) : (clearPoison s a n).ras = s.ras := rfl
@[simp] theorem clearPoison_regs (s : State) (a n : Nat) : (clearPoison s a n).regs = s.regs := rfl
@[simp] theorem clearPoison_fns (s : State) (a n : Nat) : (clearPoison s a n).fns = s.fns := rfl
@[simp] theorem clearPoison_qm (s : State) (a n : Nat) : (clearPoison s a n).qm = s.qm := rfl
@[simp] theorem clearPoison_msix (s : State) (a n : Nat) : (clearPoison s a n).msix = s.msix := rfl
@[simp] theorem clearPoison_sched (s : State) (a n : Nat) : (clearPoison s a n).sched = s.sched := rfl
@[simp] theorem clearPoison_dma (s : State) (a n : Nat) : (clearPoison s a n).dma = s.dma := rfl
@[simp] theorem clearPoison_ing (s : State) (a n : Nat) : (clearPoison s a n).ing = s.ing := rfl
@[simp] theorem clearPoison_plans (s : State) (a n : Nat) : (clearPoison s a n).plans = s.plans := rfl
@[simp] theorem clearPoison_cache (s : State) (a n : Nat) : (clearPoison s a n).cache = s.cache := rfl
@[simp] theorem clearPoison_cam (s : State) (a n : Nat) : (clearPoison s a n).cam = s.cam := rfl
@[simp] theorem clearPoison_ciph (s : State) (a n : Nat) : (clearPoison s a n).ciph = s.ciph := rfl
@[simp] theorem clearPoison_bry (s : State) (a n : Nat) : (clearPoison s a n).bry = s.bry := rfl
@[simp] theorem clearPoison_led (s : State) (a n : Nat) : (clearPoison s a n).led = s.led := rfl
@[simp] theorem clearPoison_dmc (s : State) (a n : Nat) : (clearPoison s a n).dmc = s.dmc := rfl
@[simp] theorem clearPoison_sec (s : State) (a n : Nat) : (clearPoison s a n).sec = s.sec := rfl
@[simp] theorem clearPoison_cores (s : State) (a n : Nat) : (clearPoison s a n).cores = s.cores := rfl
@[simp] theorem clearPoison_dram (s : State) (a n : Nat) : (clearPoison s a n).dram = s.dram := rfl
@[simp] theorem clearPoison_host (s : State) (a n : Nat) : (clearPoison s a n).host = s.host := rfl
@[simp] theorem clearPoison_out (s : State) (a n : Nat) : (clearPoison s a n).out = s.out := rfl

/-! ## setCore -/

@[simp] theorem setCore_pending (s : State) (i : Nat) (c : Core) : (setCore s i c).pending = s.pending := rfl
@[simp] theorem setCore_freeCtr (s : State) (i : Nat) (c : Core) : (setCore s i c).freeCtr = s.freeCtr := rfl
@[simp] theorem setCore_code512 (s : State) (i : Nat) (c : Core) : (setCore s i c).code512 = s.code512 := rfl
@[simp] theorem setCore_pwr (s : State) (i : Nat) (c : Core) : (setCore s i c).pwr = s.pwr := rfl
@[simp] theorem setCore_ras (s : State) (i : Nat) (c : Core) : (setCore s i c).ras = s.ras := rfl
@[simp] theorem setCore_regs (s : State) (i : Nat) (c : Core) : (setCore s i c).regs = s.regs := rfl
@[simp] theorem setCore_fns (s : State) (i : Nat) (c : Core) : (setCore s i c).fns = s.fns := rfl
@[simp] theorem setCore_qm (s : State) (i : Nat) (c : Core) : (setCore s i c).qm = s.qm := rfl
@[simp] theorem setCore_msix (s : State) (i : Nat) (c : Core) : (setCore s i c).msix = s.msix := rfl
@[simp] theorem setCore_sched (s : State) (i : Nat) (c : Core) : (setCore s i c).sched = s.sched := rfl
@[simp] theorem setCore_dma (s : State) (i : Nat) (c : Core) : (setCore s i c).dma = s.dma := rfl
@[simp] theorem setCore_ing (s : State) (i : Nat) (c : Core) : (setCore s i c).ing = s.ing := rfl
@[simp] theorem setCore_plans (s : State) (i : Nat) (c : Core) : (setCore s i c).plans = s.plans := rfl
@[simp] theorem setCore_cache (s : State) (i : Nat) (c : Core) : (setCore s i c).cache = s.cache := rfl
@[simp] theorem setCore_cam (s : State) (i : Nat) (c : Core) : (setCore s i c).cam = s.cam := rfl
@[simp] theorem setCore_ciph (s : State) (i : Nat) (c : Core) : (setCore s i c).ciph = s.ciph := rfl
@[simp] theorem setCore_bry (s : State) (i : Nat) (c : Core) : (setCore s i c).bry = s.bry := rfl
@[simp] theorem setCore_led (s : State) (i : Nat) (c : Core) : (setCore s i c).led = s.led := rfl
@[simp] theorem setCore_dmc (s : State) (i : Nat) (c : Core) : (setCore s i c).dmc = s.dmc := rfl
@[simp] theorem setCore_sec (s : State) (i : Nat) (c : Core) : (setCore s i c).sec = s.sec := rfl
@[simp] theorem setCore_dram (s : State) (i : Nat) (c : Core) : (setCore s i c).dram = s.dram := rfl
@[simp] theorem setCore_poison (s : State) (i : Nat) (c : Core) : (setCore s i c).poison = s.poison := rfl
@[simp] theorem setCore_host (s : State) (i : Nat) (c : Core) : (setCore s i c).host = s.host := rfl
@[simp] theorem setCore_out (s : State) (i : Nat) (c : Core) : (setCore s i c).out = s.out := rfl

/-! ## modCore -/

@[simp] theorem modCore_pending (s : State) (i : Nat) (f : Core → Core) : (modCore s i f).pending = s.pending := rfl
@[simp] theorem modCore_freeCtr (s : State) (i : Nat) (f : Core → Core) : (modCore s i f).freeCtr = s.freeCtr := rfl
@[simp] theorem modCore_code512 (s : State) (i : Nat) (f : Core → Core) : (modCore s i f).code512 = s.code512 := rfl
@[simp] theorem modCore_pwr (s : State) (i : Nat) (f : Core → Core) : (modCore s i f).pwr = s.pwr := rfl
@[simp] theorem modCore_ras (s : State) (i : Nat) (f : Core → Core) : (modCore s i f).ras = s.ras := rfl
@[simp] theorem modCore_regs (s : State) (i : Nat) (f : Core → Core) : (modCore s i f).regs = s.regs := rfl
@[simp] theorem modCore_fns (s : State) (i : Nat) (f : Core → Core) : (modCore s i f).fns = s.fns := rfl
@[simp] theorem modCore_qm (s : State) (i : Nat) (f : Core → Core) : (modCore s i f).qm = s.qm := rfl
@[simp] theorem modCore_msix (s : State) (i : Nat) (f : Core → Core) : (modCore s i f).msix = s.msix := rfl
@[simp] theorem modCore_sched (s : State) (i : Nat) (f : Core → Core) : (modCore s i f).sched = s.sched := rfl
@[simp] theorem modCore_dma (s : State) (i : Nat) (f : Core → Core) : (modCore s i f).dma = s.dma := rfl
@[simp] theorem modCore_ing (s : State) (i : Nat) (f : Core → Core) : (modCore s i f).ing = s.ing := rfl
@[simp] theorem modCore_plans (s : State) (i : Nat) (f : Core → Core) : (modCore s i f).plans = s.plans := rfl
@[simp] theorem modCore_cache (s : State) (i : Nat) (f : Core → Core) : (modCore s i f).cache = s.cache := rfl
@[simp] theorem modCore_cam (s : State) (i : Nat) (f : Core → Core) : (modCore s i f).cam = s.cam := rfl
@[simp] theorem modCore_ciph (s : State) (i : Nat) (f : Core → Core) : (modCore s i f).ciph = s.ciph := rfl
@[simp] theorem modCore_bry (s : State) (i : Nat) (f : Core → Core) : (modCore s i f).bry = s.bry := rfl
@[simp] theorem modCore_led (s : State) (i : Nat) (f : Core → Core) : (modCore s i f).led = s.led := rfl
@[simp] theorem modCore_dmc (s : State) (i : Nat) (f : Core → Core) : (modCore s i f).dmc = s.dmc := rfl
@[simp] theorem modCore_sec (s : State) (i : Nat) (f : Core → Core) : (modCore s i f).sec = s.sec := rfl
@[simp] theorem modCore_dram (s : State) (i : Nat) (f : Core → Core) : (modCore s i f).dram = s.dram := rfl
@[simp] theorem modCore_poison (s : State) (i : Nat) (f : Core → Core) : (modCore s i f).poison = s.poison := rfl
@[simp] theorem modCore_host (s : State) (i : Nat) (f : Core → Core) : (modCore s i f).host = s.host := rfl
@[simp] theorem modCore_out (s : State) (i : Nat) (f : Core → Core) : (modCore s i f).out = s.out := rfl

/-! ## coreUpd -/

@[simp] theorem coreUpd_pending (s : State) (i : Nat) (f : Core → Core) : (coreUpd s i f).pending = s.pending := rfl
@[simp] theorem coreUpd_freeCtr (s : State) (i : Nat) (f : Core → Core) : (coreUpd s i f).freeCtr = s.freeCtr := rfl
@[simp] theorem coreUpd_code512 (s : State) (i : Nat) (f : Core → Core) : (coreUpd s i f).code512 = s.code512 := rfl
@[simp] theorem coreUpd_pwr (s : State) (i : Nat) (f : Core → Core) : (coreUpd s i f).pwr = s.pwr := rfl
@[simp] theorem coreUpd_ras (s : State) (i : Nat) (f : Core → Core) : (coreUpd s i f).ras = s.ras := rfl
@[simp] theorem coreUpd_regs (s : State) (i : Nat) (f : Core → Core) : (coreUpd s i f).regs = s.regs := rfl
@[simp] theorem coreUpd_fns (s : State) (i : Nat) (f : Core → Core) : (coreUpd s i f).fns = s.fns := rfl
@[simp] theorem coreUpd_qm (s : State) (i : Nat) (f : Core → Core) : (coreUpd s i f).qm = s.qm := rfl
@[simp] theorem coreUpd_msix (s : State) (i : Nat) (f : Core → Core) : (coreUpd s i f).msix = s.msix := rfl
@[simp] theorem coreUpd_sched (s : State) (i : Nat) (f : Core → Core) : (coreUpd s i f).sched = s.sched := rfl
@[simp] theorem coreUpd_dma (s : State) (i : Nat) (f : Core → Core) : (coreUpd s i f).dma = s.dma := rfl
@[simp] theorem coreUpd_ing (s : State) (i : Nat) (f : Core → Core) : (coreUpd s i f).ing = s.ing := rfl
@[simp] theorem coreUpd_plans (s : State) (i : Nat) (f : Core → Core) : (coreUpd s i f).plans = s.plans := rfl
@[simp] theorem coreUpd_cache (s : State) (i : Nat) (f : Core → Core) : (coreUpd s i f).cache = s.cache := rfl
@[simp] theorem coreUpd_cam (s : State) (i : Nat) (f : Core → Core) : (coreUpd s i f).cam = s.cam := rfl
@[simp] theorem coreUpd_ciph (s : State) (i : Nat) (f : Core → Core) : (coreUpd s i f).ciph = s.ciph := rfl
@[simp] theorem coreUpd_bry (s : State) (i : Nat) (f : Core → Core) : (coreUpd s i f).bry = s.bry := rfl
@[simp] theorem coreUpd_led (s : State) (i : Nat) (f : Core → Core) : (coreUpd s i f).led = s.led := rfl
@[simp] theorem coreUpd_dmc (s : State) (i : Nat) (f : Core → Core) : (coreUpd s i f).dmc = s.dmc := rfl
@[simp] theorem coreUpd_sec (s : State) (i : Nat) (f : Core → Core) : (coreUpd s i f).sec = s.sec := rfl
@[simp] theorem coreUpd_dram (s : State) (i : Nat) (f : Core → Core) : (coreUpd s i f).dram = s.dram := rfl
@[simp] theorem coreUpd_poison (s : State) (i : Nat) (f : Core → Core) : (coreUpd s i f).poison = s.poison := rfl
@[simp] theorem coreUpd_host (s : State) (i : Nat) (f : Core → Core) : (coreUpd s i f).host = s.host := rfl
@[simp] theorem coreUpd_out (s : State) (i : Nat) (f : Core → Core) : (coreUpd s i f).out = s.out := rfl

/-! ## coreOff -/

@[simp] theorem coreOff_pending (s : State) (p : Nat) : (coreOff s p).pending = s.pending := rfl
@[simp] theorem coreOff_freeCtr (s : State) (p : Nat) : (coreOff s p).freeCtr = s.freeCtr := rfl
@[simp] theorem coreOff_code512 (s : State) (p : Nat) : (coreOff s p).code512 = s.code512 := rfl
@[simp] theorem coreOff_pwr (s : State) (p : Nat) : (coreOff s p).pwr = s.pwr := rfl
@[simp] theorem coreOff_ras (s : State) (p : Nat) : (coreOff s p).ras = s.ras := rfl
@[simp] theorem coreOff_regs (s : State) (p : Nat) : (coreOff s p).regs = s.regs := rfl
@[simp] theorem coreOff_fns (s : State) (p : Nat) : (coreOff s p).fns = s.fns := rfl
@[simp] theorem coreOff_qm (s : State) (p : Nat) : (coreOff s p).qm = s.qm := rfl
@[simp] theorem coreOff_msix (s : State) (p : Nat) : (coreOff s p).msix = s.msix := rfl
@[simp] theorem coreOff_sched (s : State) (p : Nat) : (coreOff s p).sched = s.sched := rfl
@[simp] theorem coreOff_dma (s : State) (p : Nat) : (coreOff s p).dma = s.dma := rfl
@[simp] theorem coreOff_ing (s : State) (p : Nat) : (coreOff s p).ing = s.ing := rfl
@[simp] theorem coreOff_cache (s : State) (p : Nat) : (coreOff s p).cache = s.cache := rfl
@[simp] theorem coreOff_cam (s : State) (p : Nat) : (coreOff s p).cam = s.cam := rfl
@[simp] theorem coreOff_ciph (s : State) (p : Nat) : (coreOff s p).ciph = s.ciph := rfl
@[simp] theorem coreOff_bry (s : State) (p : Nat) : (coreOff s p).bry = s.bry := rfl
@[simp] theorem coreOff_led (s : State) (p : Nat) : (coreOff s p).led = s.led := rfl
@[simp] theorem coreOff_dmc (s : State) (p : Nat) : (coreOff s p).dmc = s.dmc := rfl
@[simp] theorem coreOff_sec (s : State) (p : Nat) : (coreOff s p).sec = s.sec := rfl
@[simp] theorem coreOff_dram (s : State) (p : Nat) : (coreOff s p).dram = s.dram := rfl
@[simp] theorem coreOff_poison (s : State) (p : Nat) : (coreOff s p).poison = s.poison := rfl
@[simp] theorem coreOff_host (s : State) (p : Nat) : (coreOff s p).host = s.host := rfl
@[simp] theorem coreOff_out (s : State) (p : Nat) : (coreOff s p).out = s.out := rfl

/-! ## tileStart -/

@[simp] theorem tileStart_pending (s : State) (p : Nat) : (tileStart s p).pending = s.pending := rfl
@[simp] theorem tileStart_freeCtr (s : State) (p : Nat) : (tileStart s p).freeCtr = s.freeCtr := rfl
@[simp] theorem tileStart_code512 (s : State) (p : Nat) : (tileStart s p).code512 = s.code512 := rfl
@[simp] theorem tileStart_pwr (s : State) (p : Nat) : (tileStart s p).pwr = s.pwr := rfl
@[simp] theorem tileStart_ras (s : State) (p : Nat) : (tileStart s p).ras = s.ras := rfl
@[simp] theorem tileStart_regs (s : State) (p : Nat) : (tileStart s p).regs = s.regs := rfl
@[simp] theorem tileStart_fns (s : State) (p : Nat) : (tileStart s p).fns = s.fns := rfl
@[simp] theorem tileStart_qm (s : State) (p : Nat) : (tileStart s p).qm = s.qm := rfl
@[simp] theorem tileStart_msix (s : State) (p : Nat) : (tileStart s p).msix = s.msix := rfl
@[simp] theorem tileStart_sched (s : State) (p : Nat) : (tileStart s p).sched = s.sched := rfl
@[simp] theorem tileStart_dma (s : State) (p : Nat) : (tileStart s p).dma = s.dma := rfl
@[simp] theorem tileStart_ing (s : State) (p : Nat) : (tileStart s p).ing = s.ing := rfl
@[simp] theorem tileStart_cache (s : State) (p : Nat) : (tileStart s p).cache = s.cache := rfl
@[simp] theorem tileStart_cam (s : State) (p : Nat) : (tileStart s p).cam = s.cam := rfl
@[simp] theorem tileStart_ciph (s : State) (p : Nat) : (tileStart s p).ciph = s.ciph := rfl
@[simp] theorem tileStart_bry (s : State) (p : Nat) : (tileStart s p).bry = s.bry := rfl
@[simp] theorem tileStart_led (s : State) (p : Nat) : (tileStart s p).led = s.led := rfl
@[simp] theorem tileStart_dmc (s : State) (p : Nat) : (tileStart s p).dmc = s.dmc := rfl
@[simp] theorem tileStart_sec (s : State) (p : Nat) : (tileStart s p).sec = s.sec := rfl
@[simp] theorem tileStart_dram (s : State) (p : Nat) : (tileStart s p).dram = s.dram := rfl
@[simp] theorem tileStart_poison (s : State) (p : Nat) : (tileStart s p).poison = s.poison := rfl
@[simp] theorem tileStart_host (s : State) (p : Nat) : (tileStart s p).host = s.host := rfl
@[simp] theorem tileStart_out (s : State) (p : Nat) : (tileStart s p).out = s.out := rfl

/-! ## setPlan -/

@[simp] theorem setPlan_pending (s : State) (fn id : Nat) (p : Plan) : (setPlan s fn id p).pending = s.pending := rfl
@[simp] theorem setPlan_freeCtr (s : State) (fn id : Nat) (p : Plan) : (setPlan s fn id p).freeCtr = s.freeCtr := rfl
@[simp] theorem setPlan_code512 (s : State) (fn id : Nat) (p : Plan) : (setPlan s fn id p).code512 = s.code512 := rfl
@[simp] theorem setPlan_pwr (s : State) (fn id : Nat) (p : Plan) : (setPlan s fn id p).pwr = s.pwr := rfl
@[simp] theorem setPlan_ras (s : State) (fn id : Nat) (p : Plan) : (setPlan s fn id p).ras = s.ras := rfl
@[simp] theorem setPlan_regs (s : State) (fn id : Nat) (p : Plan) : (setPlan s fn id p).regs = s.regs := rfl
@[simp] theorem setPlan_fns (s : State) (fn id : Nat) (p : Plan) : (setPlan s fn id p).fns = s.fns := rfl
@[simp] theorem setPlan_qm (s : State) (fn id : Nat) (p : Plan) : (setPlan s fn id p).qm = s.qm := rfl
@[simp] theorem setPlan_msix (s : State) (fn id : Nat) (p : Plan) : (setPlan s fn id p).msix = s.msix := rfl
@[simp] theorem setPlan_sched (s : State) (fn id : Nat) (p : Plan) : (setPlan s fn id p).sched = s.sched := rfl
@[simp] theorem setPlan_dma (s : State) (fn id : Nat) (p : Plan) : (setPlan s fn id p).dma = s.dma := rfl
@[simp] theorem setPlan_ing (s : State) (fn id : Nat) (p : Plan) : (setPlan s fn id p).ing = s.ing := rfl
@[simp] theorem setPlan_cache (s : State) (fn id : Nat) (p : Plan) : (setPlan s fn id p).cache = s.cache := rfl
@[simp] theorem setPlan_cam (s : State) (fn id : Nat) (p : Plan) : (setPlan s fn id p).cam = s.cam := rfl
@[simp] theorem setPlan_ciph (s : State) (fn id : Nat) (p : Plan) : (setPlan s fn id p).ciph = s.ciph := rfl
@[simp] theorem setPlan_bry (s : State) (fn id : Nat) (p : Plan) : (setPlan s fn id p).bry = s.bry := rfl
@[simp] theorem setPlan_led (s : State) (fn id : Nat) (p : Plan) : (setPlan s fn id p).led = s.led := rfl
@[simp] theorem setPlan_dmc (s : State) (fn id : Nat) (p : Plan) : (setPlan s fn id p).dmc = s.dmc := rfl
@[simp] theorem setPlan_sec (s : State) (fn id : Nat) (p : Plan) : (setPlan s fn id p).sec = s.sec := rfl
@[simp] theorem setPlan_cores (s : State) (fn id : Nat) (p : Plan) : (setPlan s fn id p).cores = s.cores := rfl
@[simp] theorem setPlan_dram (s : State) (fn id : Nat) (p : Plan) : (setPlan s fn id p).dram = s.dram := rfl
@[simp] theorem setPlan_poison (s : State) (fn id : Nat) (p : Plan) : (setPlan s fn id p).poison = s.poison := rfl
@[simp] theorem setPlan_host (s : State) (fn id : Nat) (p : Plan) : (setPlan s fn id p).host = s.host := rfl
@[simp] theorem setPlan_out (s : State) (fn id : Nat) (p : Plan) : (setPlan s fn id p).out = s.out := rfl

/-! ## setRun -/

@[simp] theorem setRun_pending (s : State) (id : Nat) (r : Run) : (setRun s id r).pending = s.pending := rfl
@[simp] theorem setRun_freeCtr (s : State) (id : Nat) (r : Run) : (setRun s id r).freeCtr = s.freeCtr := rfl
@[simp] theorem setRun_code512 (s : State) (id : Nat) (r : Run) : (setRun s id r).code512 = s.code512 := rfl
@[simp] theorem setRun_pwr (s : State) (id : Nat) (r : Run) : (setRun s id r).pwr = s.pwr := rfl
@[simp] theorem setRun_ras (s : State) (id : Nat) (r : Run) : (setRun s id r).ras = s.ras := rfl
@[simp] theorem setRun_regs (s : State) (id : Nat) (r : Run) : (setRun s id r).regs = s.regs := rfl
@[simp] theorem setRun_fns (s : State) (id : Nat) (r : Run) : (setRun s id r).fns = s.fns := rfl
@[simp] theorem setRun_qm (s : State) (id : Nat) (r : Run) : (setRun s id r).qm = s.qm := rfl
@[simp] theorem setRun_msix (s : State) (id : Nat) (r : Run) : (setRun s id r).msix = s.msix := rfl
@[simp] theorem setRun_sched (s : State) (id : Nat) (r : Run) : (setRun s id r).sched = s.sched := rfl
@[simp] theorem setRun_dma (s : State) (id : Nat) (r : Run) : (setRun s id r).dma = s.dma := rfl
@[simp] theorem setRun_ing (s : State) (id : Nat) (r : Run) : (setRun s id r).ing = s.ing := rfl
@[simp] theorem setRun_cache (s : State) (id : Nat) (r : Run) : (setRun s id r).cache = s.cache := rfl
@[simp] theorem setRun_cam (s : State) (id : Nat) (r : Run) : (setRun s id r).cam = s.cam := rfl
@[simp] theorem setRun_ciph (s : State) (id : Nat) (r : Run) : (setRun s id r).ciph = s.ciph := rfl
@[simp] theorem setRun_bry (s : State) (id : Nat) (r : Run) : (setRun s id r).bry = s.bry := rfl
@[simp] theorem setRun_led (s : State) (id : Nat) (r : Run) : (setRun s id r).led = s.led := rfl
@[simp] theorem setRun_dmc (s : State) (id : Nat) (r : Run) : (setRun s id r).dmc = s.dmc := rfl
@[simp] theorem setRun_sec (s : State) (id : Nat) (r : Run) : (setRun s id r).sec = s.sec := rfl
@[simp] theorem setRun_cores (s : State) (id : Nat) (r : Run) : (setRun s id r).cores = s.cores := rfl
@[simp] theorem setRun_dram (s : State) (id : Nat) (r : Run) : (setRun s id r).dram = s.dram := rfl
@[simp] theorem setRun_poison (s : State) (id : Nat) (r : Run) : (setRun s id r).poison = s.poison := rfl
@[simp] theorem setRun_host (s : State) (id : Nat) (r : Run) : (setRun s id r).host = s.host := rfl
@[simp] theorem setRun_out (s : State) (id : Nat) (r : Run) : (setRun s id r).out = s.out := rfl

/-! ## setLayout -/

@[simp] theorem setLayout_pending (s : State) (l : Nat) (v : Layout) : (setLayout s l v).pending = s.pending := rfl
@[simp] theorem setLayout_freeCtr (s : State) (l : Nat) (v : Layout) : (setLayout s l v).freeCtr = s.freeCtr := rfl
@[simp] theorem setLayout_code512 (s : State) (l : Nat) (v : Layout) : (setLayout s l v).code512 = s.code512 := rfl
@[simp] theorem setLayout_pwr (s : State) (l : Nat) (v : Layout) : (setLayout s l v).pwr = s.pwr := rfl
@[simp] theorem setLayout_ras (s : State) (l : Nat) (v : Layout) : (setLayout s l v).ras = s.ras := rfl
@[simp] theorem setLayout_regs (s : State) (l : Nat) (v : Layout) : (setLayout s l v).regs = s.regs := rfl
@[simp] theorem setLayout_fns (s : State) (l : Nat) (v : Layout) : (setLayout s l v).fns = s.fns := rfl
@[simp] theorem setLayout_qm (s : State) (l : Nat) (v : Layout) : (setLayout s l v).qm = s.qm := rfl
@[simp] theorem setLayout_msix (s : State) (l : Nat) (v : Layout) : (setLayout s l v).msix = s.msix := rfl
@[simp] theorem setLayout_sched (s : State) (l : Nat) (v : Layout) : (setLayout s l v).sched = s.sched := rfl
@[simp] theorem setLayout_dma (s : State) (l : Nat) (v : Layout) : (setLayout s l v).dma = s.dma := rfl
@[simp] theorem setLayout_plans (s : State) (l : Nat) (v : Layout) : (setLayout s l v).plans = s.plans := rfl
@[simp] theorem setLayout_cache (s : State) (l : Nat) (v : Layout) : (setLayout s l v).cache = s.cache := rfl
@[simp] theorem setLayout_cam (s : State) (l : Nat) (v : Layout) : (setLayout s l v).cam = s.cam := rfl
@[simp] theorem setLayout_ciph (s : State) (l : Nat) (v : Layout) : (setLayout s l v).ciph = s.ciph := rfl
@[simp] theorem setLayout_bry (s : State) (l : Nat) (v : Layout) : (setLayout s l v).bry = s.bry := rfl
@[simp] theorem setLayout_led (s : State) (l : Nat) (v : Layout) : (setLayout s l v).led = s.led := rfl
@[simp] theorem setLayout_dmc (s : State) (l : Nat) (v : Layout) : (setLayout s l v).dmc = s.dmc := rfl
@[simp] theorem setLayout_sec (s : State) (l : Nat) (v : Layout) : (setLayout s l v).sec = s.sec := rfl
@[simp] theorem setLayout_cores (s : State) (l : Nat) (v : Layout) : (setLayout s l v).cores = s.cores := rfl
@[simp] theorem setLayout_dram (s : State) (l : Nat) (v : Layout) : (setLayout s l v).dram = s.dram := rfl
@[simp] theorem setLayout_poison (s : State) (l : Nat) (v : Layout) : (setLayout s l v).poison = s.poison := rfl
@[simp] theorem setLayout_host (s : State) (l : Nat) (v : Layout) : (setLayout s l v).host = s.host := rfl
@[simp] theorem setLayout_out (s : State) (l : Nat) (v : Layout) : (setLayout s l v).out = s.out := rfl

/-! ## modPort -/

@[simp] theorem modPort_pending (s : State) (n : Nat) (f : PortCnt → PortCnt) : (modPort s n f).pending = s.pending := rfl
@[simp] theorem modPort_freeCtr (s : State) (n : Nat) (f : PortCnt → PortCnt) : (modPort s n f).freeCtr = s.freeCtr := rfl
@[simp] theorem modPort_code512 (s : State) (n : Nat) (f : PortCnt → PortCnt) : (modPort s n f).code512 = s.code512 := rfl
@[simp] theorem modPort_pwr (s : State) (n : Nat) (f : PortCnt → PortCnt) : (modPort s n f).pwr = s.pwr := rfl
@[simp] theorem modPort_ras (s : State) (n : Nat) (f : PortCnt → PortCnt) : (modPort s n f).ras = s.ras := rfl
@[simp] theorem modPort_regs (s : State) (n : Nat) (f : PortCnt → PortCnt) : (modPort s n f).regs = s.regs := rfl
@[simp] theorem modPort_fns (s : State) (n : Nat) (f : PortCnt → PortCnt) : (modPort s n f).fns = s.fns := rfl
@[simp] theorem modPort_qm (s : State) (n : Nat) (f : PortCnt → PortCnt) : (modPort s n f).qm = s.qm := rfl
@[simp] theorem modPort_msix (s : State) (n : Nat) (f : PortCnt → PortCnt) : (modPort s n f).msix = s.msix := rfl
@[simp] theorem modPort_sched (s : State) (n : Nat) (f : PortCnt → PortCnt) : (modPort s n f).sched = s.sched := rfl
@[simp] theorem modPort_dma (s : State) (n : Nat) (f : PortCnt → PortCnt) : (modPort s n f).dma = s.dma := rfl
@[simp] theorem modPort_plans (s : State) (n : Nat) (f : PortCnt → PortCnt) : (modPort s n f).plans = s.plans := rfl
@[simp] theorem modPort_cache (s : State) (n : Nat) (f : PortCnt → PortCnt) : (modPort s n f).cache = s.cache := rfl
@[simp] theorem modPort_cam (s : State) (n : Nat) (f : PortCnt → PortCnt) : (modPort s n f).cam = s.cam := rfl
@[simp] theorem modPort_ciph (s : State) (n : Nat) (f : PortCnt → PortCnt) : (modPort s n f).ciph = s.ciph := rfl
@[simp] theorem modPort_bry (s : State) (n : Nat) (f : PortCnt → PortCnt) : (modPort s n f).bry = s.bry := rfl
@[simp] theorem modPort_led (s : State) (n : Nat) (f : PortCnt → PortCnt) : (modPort s n f).led = s.led := rfl
@[simp] theorem modPort_dmc (s : State) (n : Nat) (f : PortCnt → PortCnt) : (modPort s n f).dmc = s.dmc := rfl
@[simp] theorem modPort_sec (s : State) (n : Nat) (f : PortCnt → PortCnt) : (modPort s n f).sec = s.sec := rfl
@[simp] theorem modPort_cores (s : State) (n : Nat) (f : PortCnt → PortCnt) : (modPort s n f).cores = s.cores := rfl
@[simp] theorem modPort_dram (s : State) (n : Nat) (f : PortCnt → PortCnt) : (modPort s n f).dram = s.dram := rfl
@[simp] theorem modPort_poison (s : State) (n : Nat) (f : PortCnt → PortCnt) : (modPort s n f).poison = s.poison := rfl
@[simp] theorem modPort_host (s : State) (n : Nat) (f : PortCnt → PortCnt) : (modPort s n f).host = s.host := rfl
@[simp] theorem modPort_out (s : State) (n : Nat) (f : PortCnt → PortCnt) : (modPort s n f).out = s.out := rfl

/-! ## sendFrame -/

@[simp] theorem sendFrame_pending (s : State) (n : Nat) (bs : List Byte) : (sendFrame s n bs).pending = s.pending := rfl
@[simp] theorem sendFrame_freeCtr (s : State) (n : Nat) (bs : List Byte) : (sendFrame s n bs).freeCtr = s.freeCtr := rfl
@[simp] theorem sendFrame_code512 (s : State) (n : Nat) (bs : List Byte) : (sendFrame s n bs).code512 = s.code512 := rfl
@[simp] theorem sendFrame_pwr (s : State) (n : Nat) (bs : List Byte) : (sendFrame s n bs).pwr = s.pwr := rfl
@[simp] theorem sendFrame_ras (s : State) (n : Nat) (bs : List Byte) : (sendFrame s n bs).ras = s.ras := rfl
@[simp] theorem sendFrame_regs (s : State) (n : Nat) (bs : List Byte) : (sendFrame s n bs).regs = s.regs := rfl
@[simp] theorem sendFrame_fns (s : State) (n : Nat) (bs : List Byte) : (sendFrame s n bs).fns = s.fns := rfl
@[simp] theorem sendFrame_qm (s : State) (n : Nat) (bs : List Byte) : (sendFrame s n bs).qm = s.qm := rfl
@[simp] theorem sendFrame_msix (s : State) (n : Nat) (bs : List Byte) : (sendFrame s n bs).msix = s.msix := rfl
@[simp] theorem sendFrame_sched (s : State) (n : Nat) (bs : List Byte) : (sendFrame s n bs).sched = s.sched := rfl
@[simp] theorem sendFrame_dma (s : State) (n : Nat) (bs : List Byte) : (sendFrame s n bs).dma = s.dma := rfl
@[simp] theorem sendFrame_ing (s : State) (n : Nat) (bs : List Byte) : (sendFrame s n bs).ing = s.ing := rfl
@[simp] theorem sendFrame_plans (s : State) (n : Nat) (bs : List Byte) : (sendFrame s n bs).plans = s.plans := rfl
@[simp] theorem sendFrame_cache (s : State) (n : Nat) (bs : List Byte) : (sendFrame s n bs).cache = s.cache := rfl
@[simp] theorem sendFrame_cam (s : State) (n : Nat) (bs : List Byte) : (sendFrame s n bs).cam = s.cam := rfl
@[simp] theorem sendFrame_ciph (s : State) (n : Nat) (bs : List Byte) : (sendFrame s n bs).ciph = s.ciph := rfl
@[simp] theorem sendFrame_bry (s : State) (n : Nat) (bs : List Byte) : (sendFrame s n bs).bry = s.bry := rfl
@[simp] theorem sendFrame_led (s : State) (n : Nat) (bs : List Byte) : (sendFrame s n bs).led = s.led := rfl
@[simp] theorem sendFrame_dmc (s : State) (n : Nat) (bs : List Byte) : (sendFrame s n bs).dmc = s.dmc := rfl
@[simp] theorem sendFrame_sec (s : State) (n : Nat) (bs : List Byte) : (sendFrame s n bs).sec = s.sec := rfl
@[simp] theorem sendFrame_cores (s : State) (n : Nat) (bs : List Byte) : (sendFrame s n bs).cores = s.cores := rfl
@[simp] theorem sendFrame_dram (s : State) (n : Nat) (bs : List Byte) : (sendFrame s n bs).dram = s.dram := rfl
@[simp] theorem sendFrame_poison (s : State) (n : Nat) (bs : List Byte) : (sendFrame s n bs).poison = s.poison := rfl
@[simp] theorem sendFrame_host (s : State) (n : Nat) (bs : List Byte) : (sendFrame s n bs).host = s.host := rfl

/-! ## setBry -/

@[simp] theorem setBry_pending (s : State) (n : Nat) (p : BPort) : (setBry s n p).pending = s.pending := rfl
@[simp] theorem setBry_freeCtr (s : State) (n : Nat) (p : BPort) : (setBry s n p).freeCtr = s.freeCtr := rfl
@[simp] theorem setBry_code512 (s : State) (n : Nat) (p : BPort) : (setBry s n p).code512 = s.code512 := rfl
@[simp] theorem setBry_pwr (s : State) (n : Nat) (p : BPort) : (setBry s n p).pwr = s.pwr := rfl
@[simp] theorem setBry_ras (s : State) (n : Nat) (p : BPort) : (setBry s n p).ras = s.ras := rfl
@[simp] theorem setBry_regs (s : State) (n : Nat) (p : BPort) : (setBry s n p).regs = s.regs := rfl
@[simp] theorem setBry_fns (s : State) (n : Nat) (p : BPort) : (setBry s n p).fns = s.fns := rfl
@[simp] theorem setBry_qm (s : State) (n : Nat) (p : BPort) : (setBry s n p).qm = s.qm := rfl
@[simp] theorem setBry_msix (s : State) (n : Nat) (p : BPort) : (setBry s n p).msix = s.msix := rfl
@[simp] theorem setBry_sched (s : State) (n : Nat) (p : BPort) : (setBry s n p).sched = s.sched := rfl
@[simp] theorem setBry_dma (s : State) (n : Nat) (p : BPort) : (setBry s n p).dma = s.dma := rfl
@[simp] theorem setBry_ing (s : State) (n : Nat) (p : BPort) : (setBry s n p).ing = s.ing := rfl
@[simp] theorem setBry_plans (s : State) (n : Nat) (p : BPort) : (setBry s n p).plans = s.plans := rfl
@[simp] theorem setBry_cache (s : State) (n : Nat) (p : BPort) : (setBry s n p).cache = s.cache := rfl
@[simp] theorem setBry_cam (s : State) (n : Nat) (p : BPort) : (setBry s n p).cam = s.cam := rfl
@[simp] theorem setBry_ciph (s : State) (n : Nat) (p : BPort) : (setBry s n p).ciph = s.ciph := rfl
@[simp] theorem setBry_led (s : State) (n : Nat) (p : BPort) : (setBry s n p).led = s.led := rfl
@[simp] theorem setBry_dmc (s : State) (n : Nat) (p : BPort) : (setBry s n p).dmc = s.dmc := rfl
@[simp] theorem setBry_sec (s : State) (n : Nat) (p : BPort) : (setBry s n p).sec = s.sec := rfl
@[simp] theorem setBry_cores (s : State) (n : Nat) (p : BPort) : (setBry s n p).cores = s.cores := rfl
@[simp] theorem setBry_dram (s : State) (n : Nat) (p : BPort) : (setBry s n p).dram = s.dram := rfl
@[simp] theorem setBry_poison (s : State) (n : Nat) (p : BPort) : (setBry s n p).poison = s.poison := rfl
@[simp] theorem setBry_host (s : State) (n : Nat) (p : BPort) : (setBry s n p).host = s.host := rfl
@[simp] theorem setBry_out (s : State) (n : Nat) (p : BPort) : (setBry s n p).out = s.out := rfl

/-! ## modBry -/

@[simp] theorem modBry_pending (s : State) (n : Nat) (f : BPort → BPort) : (modBry s n f).pending = s.pending := rfl
@[simp] theorem modBry_freeCtr (s : State) (n : Nat) (f : BPort → BPort) : (modBry s n f).freeCtr = s.freeCtr := rfl
@[simp] theorem modBry_code512 (s : State) (n : Nat) (f : BPort → BPort) : (modBry s n f).code512 = s.code512 := rfl
@[simp] theorem modBry_pwr (s : State) (n : Nat) (f : BPort → BPort) : (modBry s n f).pwr = s.pwr := rfl
@[simp] theorem modBry_ras (s : State) (n : Nat) (f : BPort → BPort) : (modBry s n f).ras = s.ras := rfl
@[simp] theorem modBry_regs (s : State) (n : Nat) (f : BPort → BPort) : (modBry s n f).regs = s.regs := rfl
@[simp] theorem modBry_fns (s : State) (n : Nat) (f : BPort → BPort) : (modBry s n f).fns = s.fns := rfl
@[simp] theorem modBry_qm (s : State) (n : Nat) (f : BPort → BPort) : (modBry s n f).qm = s.qm := rfl
@[simp] theorem modBry_msix (s : State) (n : Nat) (f : BPort → BPort) : (modBry s n f).msix = s.msix := rfl
@[simp] theorem modBry_sched (s : State) (n : Nat) (f : BPort → BPort) : (modBry s n f).sched = s.sched := rfl
@[simp] theorem modBry_dma (s : State) (n : Nat) (f : BPort → BPort) : (modBry s n f).dma = s.dma := rfl
@[simp] theorem modBry_ing (s : State) (n : Nat) (f : BPort → BPort) : (modBry s n f).ing = s.ing := rfl
@[simp] theorem modBry_plans (s : State) (n : Nat) (f : BPort → BPort) : (modBry s n f).plans = s.plans := rfl
@[simp] theorem modBry_cache (s : State) (n : Nat) (f : BPort → BPort) : (modBry s n f).cache = s.cache := rfl
@[simp] theorem modBry_cam (s : State) (n : Nat) (f : BPort → BPort) : (modBry s n f).cam = s.cam := rfl
@[simp] theorem modBry_ciph (s : State) (n : Nat) (f : BPort → BPort) : (modBry s n f).ciph = s.ciph := rfl
@[simp] theorem modBry_led (s : State) (n : Nat) (f : BPort → BPort) : (modBry s n f).led = s.led := rfl
@[simp] theorem modBry_dmc (s : State) (n : Nat) (f : BPort → BPort) : (modBry s n f).dmc = s.dmc := rfl
@[simp] theorem modBry_sec (s : State) (n : Nat) (f : BPort → BPort) : (modBry s n f).sec = s.sec := rfl
@[simp] theorem modBry_cores (s : State) (n : Nat) (f : BPort → BPort) : (modBry s n f).cores = s.cores := rfl
@[simp] theorem modBry_dram (s : State) (n : Nat) (f : BPort → BPort) : (modBry s n f).dram = s.dram := rfl
@[simp] theorem modBry_poison (s : State) (n : Nat) (f : BPort → BPort) : (modBry s n f).poison = s.poison := rfl
@[simp] theorem modBry_host (s : State) (n : Nat) (f : BPort → BPort) : (modBry s n f).host = s.host := rfl
@[simp] theorem modBry_out (s : State) (n : Nat) (f : BPort → BPort) : (modBry s n f).out = s.out := rfl

/-! ## emitFlit -/

@[simp] theorem emitFlit_pending (s : State) (n : Nat) (bs : List Byte) : (emitFlit s n bs).pending = s.pending := rfl
@[simp] theorem emitFlit_freeCtr (s : State) (n : Nat) (bs : List Byte) : (emitFlit s n bs).freeCtr = s.freeCtr := rfl
@[simp] theorem emitFlit_code512 (s : State) (n : Nat) (bs : List Byte) : (emitFlit s n bs).code512 = s.code512 := rfl
@[simp] theorem emitFlit_pwr (s : State) (n : Nat) (bs : List Byte) : (emitFlit s n bs).pwr = s.pwr := rfl
@[simp] theorem emitFlit_ras (s : State) (n : Nat) (bs : List Byte) : (emitFlit s n bs).ras = s.ras := rfl
@[simp] theorem emitFlit_regs (s : State) (n : Nat) (bs : List Byte) : (emitFlit s n bs).regs = s.regs := rfl
@[simp] theorem emitFlit_fns (s : State) (n : Nat) (bs : List Byte) : (emitFlit s n bs).fns = s.fns := rfl
@[simp] theorem emitFlit_qm (s : State) (n : Nat) (bs : List Byte) : (emitFlit s n bs).qm = s.qm := rfl
@[simp] theorem emitFlit_msix (s : State) (n : Nat) (bs : List Byte) : (emitFlit s n bs).msix = s.msix := rfl
@[simp] theorem emitFlit_sched (s : State) (n : Nat) (bs : List Byte) : (emitFlit s n bs).sched = s.sched := rfl
@[simp] theorem emitFlit_dma (s : State) (n : Nat) (bs : List Byte) : (emitFlit s n bs).dma = s.dma := rfl
@[simp] theorem emitFlit_ing (s : State) (n : Nat) (bs : List Byte) : (emitFlit s n bs).ing = s.ing := rfl
@[simp] theorem emitFlit_plans (s : State) (n : Nat) (bs : List Byte) : (emitFlit s n bs).plans = s.plans := rfl
@[simp] theorem emitFlit_cache (s : State) (n : Nat) (bs : List Byte) : (emitFlit s n bs).cache = s.cache := rfl
@[simp] theorem emitFlit_cam (s : State) (n : Nat) (bs : List Byte) : (emitFlit s n bs).cam = s.cam := rfl
@[simp] theorem emitFlit_ciph (s : State) (n : Nat) (bs : List Byte) : (emitFlit s n bs).ciph = s.ciph := rfl
@[simp] theorem emitFlit_bry (s : State) (n : Nat) (bs : List Byte) : (emitFlit s n bs).bry = s.bry := rfl
@[simp] theorem emitFlit_led (s : State) (n : Nat) (bs : List Byte) : (emitFlit s n bs).led = s.led := rfl
@[simp] theorem emitFlit_dmc (s : State) (n : Nat) (bs : List Byte) : (emitFlit s n bs).dmc = s.dmc := rfl
@[simp] theorem emitFlit_sec (s : State) (n : Nat) (bs : List Byte) : (emitFlit s n bs).sec = s.sec := rfl
@[simp] theorem emitFlit_cores (s : State) (n : Nat) (bs : List Byte) : (emitFlit s n bs).cores = s.cores := rfl
@[simp] theorem emitFlit_dram (s : State) (n : Nat) (bs : List Byte) : (emitFlit s n bs).dram = s.dram := rfl
@[simp] theorem emitFlit_poison (s : State) (n : Nat) (bs : List Byte) : (emitFlit s n bs).poison = s.poison := rfl
@[simp] theorem emitFlit_host (s : State) (n : Nat) (bs : List Byte) : (emitFlit s n bs).host = s.host := rfl

/-! ## setSlot -/

@[simp] theorem setSlot_pending (s : State) (k : Nat) (v : KeySlot) : (setSlot s k v).pending = s.pending := rfl
@[simp] theorem setSlot_freeCtr (s : State) (k : Nat) (v : KeySlot) : (setSlot s k v).freeCtr = s.freeCtr := rfl
@[simp] theorem setSlot_code512 (s : State) (k : Nat) (v : KeySlot) : (setSlot s k v).code512 = s.code512 := rfl
@[simp] theorem setSlot_pwr (s : State) (k : Nat) (v : KeySlot) : (setSlot s k v).pwr = s.pwr := rfl
@[simp] theorem setSlot_ras (s : State) (k : Nat) (v : KeySlot) : (setSlot s k v).ras = s.ras := rfl
@[simp] theorem setSlot_regs (s : State) (k : Nat) (v : KeySlot) : (setSlot s k v).regs = s.regs := rfl
@[simp] theorem setSlot_fns (s : State) (k : Nat) (v : KeySlot) : (setSlot s k v).fns = s.fns := rfl
@[simp] theorem setSlot_qm (s : State) (k : Nat) (v : KeySlot) : (setSlot s k v).qm = s.qm := rfl
@[simp] theorem setSlot_msix (s : State) (k : Nat) (v : KeySlot) : (setSlot s k v).msix = s.msix := rfl
@[simp] theorem setSlot_sched (s : State) (k : Nat) (v : KeySlot) : (setSlot s k v).sched = s.sched := rfl
@[simp] theorem setSlot_dma (s : State) (k : Nat) (v : KeySlot) : (setSlot s k v).dma = s.dma := rfl
@[simp] theorem setSlot_ing (s : State) (k : Nat) (v : KeySlot) : (setSlot s k v).ing = s.ing := rfl
@[simp] theorem setSlot_plans (s : State) (k : Nat) (v : KeySlot) : (setSlot s k v).plans = s.plans := rfl
@[simp] theorem setSlot_cache (s : State) (k : Nat) (v : KeySlot) : (setSlot s k v).cache = s.cache := rfl
@[simp] theorem setSlot_cam (s : State) (k : Nat) (v : KeySlot) : (setSlot s k v).cam = s.cam := rfl
@[simp] theorem setSlot_bry (s : State) (k : Nat) (v : KeySlot) : (setSlot s k v).bry = s.bry := rfl
@[simp] theorem setSlot_led (s : State) (k : Nat) (v : KeySlot) : (setSlot s k v).led = s.led := rfl
@[simp] theorem setSlot_dmc (s : State) (k : Nat) (v : KeySlot) : (setSlot s k v).dmc = s.dmc := rfl
@[simp] theorem setSlot_sec (s : State) (k : Nat) (v : KeySlot) : (setSlot s k v).sec = s.sec := rfl
@[simp] theorem setSlot_cores (s : State) (k : Nat) (v : KeySlot) : (setSlot s k v).cores = s.cores := rfl
@[simp] theorem setSlot_dram (s : State) (k : Nat) (v : KeySlot) : (setSlot s k v).dram = s.dram := rfl
@[simp] theorem setSlot_poison (s : State) (k : Nat) (v : KeySlot) : (setSlot s k v).poison = s.poison := rfl
@[simp] theorem setSlot_host (s : State) (k : Nat) (v : KeySlot) : (setSlot s k v).host = s.host := rfl
@[simp] theorem setSlot_out (s : State) (k : Nat) (v : KeySlot) : (setSlot s k v).out = s.out := rfl

/-! ## setCReq -/

@[simp] theorem setCReq_pending (s : State) (a : Nat) (r : CReq) : (setCReq s a r).pending = s.pending := rfl
@[simp] theorem setCReq_freeCtr (s : State) (a : Nat) (r : CReq) : (setCReq s a r).freeCtr = s.freeCtr := rfl
@[simp] theorem setCReq_code512 (s : State) (a : Nat) (r : CReq) : (setCReq s a r).code512 = s.code512 := rfl
@[simp] theorem setCReq_pwr (s : State) (a : Nat) (r : CReq) : (setCReq s a r).pwr = s.pwr := rfl
@[simp] theorem setCReq_ras (s : State) (a : Nat) (r : CReq) : (setCReq s a r).ras = s.ras := rfl
@[simp] theorem setCReq_regs (s : State) (a : Nat) (r : CReq) : (setCReq s a r).regs = s.regs := rfl
@[simp] theorem setCReq_fns (s : State) (a : Nat) (r : CReq) : (setCReq s a r).fns = s.fns := rfl
@[simp] theorem setCReq_qm (s : State) (a : Nat) (r : CReq) : (setCReq s a r).qm = s.qm := rfl
@[simp] theorem setCReq_msix (s : State) (a : Nat) (r : CReq) : (setCReq s a r).msix = s.msix := rfl
@[simp] theorem setCReq_sched (s : State) (a : Nat) (r : CReq) : (setCReq s a r).sched = s.sched := rfl
@[simp] theorem setCReq_dma (s : State) (a : Nat) (r : CReq) : (setCReq s a r).dma = s.dma := rfl
@[simp] theorem setCReq_ing (s : State) (a : Nat) (r : CReq) : (setCReq s a r).ing = s.ing := rfl
@[simp] theorem setCReq_plans (s : State) (a : Nat) (r : CReq) : (setCReq s a r).plans = s.plans := rfl
@[simp] theorem setCReq_cache (s : State) (a : Nat) (r : CReq) : (setCReq s a r).cache = s.cache := rfl
@[simp] theorem setCReq_cam (s : State) (a : Nat) (r : CReq) : (setCReq s a r).cam = s.cam := rfl
@[simp] theorem setCReq_bry (s : State) (a : Nat) (r : CReq) : (setCReq s a r).bry = s.bry := rfl
@[simp] theorem setCReq_led (s : State) (a : Nat) (r : CReq) : (setCReq s a r).led = s.led := rfl
@[simp] theorem setCReq_dmc (s : State) (a : Nat) (r : CReq) : (setCReq s a r).dmc = s.dmc := rfl
@[simp] theorem setCReq_sec (s : State) (a : Nat) (r : CReq) : (setCReq s a r).sec = s.sec := rfl
@[simp] theorem setCReq_cores (s : State) (a : Nat) (r : CReq) : (setCReq s a r).cores = s.cores := rfl
@[simp] theorem setCReq_dram (s : State) (a : Nat) (r : CReq) : (setCReq s a r).dram = s.dram := rfl
@[simp] theorem setCReq_poison (s : State) (a : Nat) (r : CReq) : (setCReq s a r).poison = s.poison := rfl
@[simp] theorem setCReq_host (s : State) (a : Nat) (r : CReq) : (setCReq s a r).host = s.host := rfl
@[simp] theorem setCReq_out (s : State) (a : Nat) (r : CReq) : (setCReq s a r).out = s.out := rfl

/-! ## setSub -/

@[simp] theorem setSub_pending (s : State) (sc : Nat) (v : SubCh) : (setSub s sc v).pending = s.pending := rfl
@[simp] theorem setSub_freeCtr (s : State) (sc : Nat) (v : SubCh) : (setSub s sc v).freeCtr = s.freeCtr := rfl
@[simp] theorem setSub_code512 (s : State) (sc : Nat) (v : SubCh) : (setSub s sc v).code512 = s.code512 := rfl
@[simp] theorem setSub_pwr (s : State) (sc : Nat) (v : SubCh) : (setSub s sc v).pwr = s.pwr := rfl
@[simp] theorem setSub_ras (s : State) (sc : Nat) (v : SubCh) : (setSub s sc v).ras = s.ras := rfl
@[simp] theorem setSub_regs (s : State) (sc : Nat) (v : SubCh) : (setSub s sc v).regs = s.regs := rfl
@[simp] theorem setSub_fns (s : State) (sc : Nat) (v : SubCh) : (setSub s sc v).fns = s.fns := rfl
@[simp] theorem setSub_qm (s : State) (sc : Nat) (v : SubCh) : (setSub s sc v).qm = s.qm := rfl
@[simp] theorem setSub_msix (s : State) (sc : Nat) (v : SubCh) : (setSub s sc v).msix = s.msix := rfl
@[simp] theorem setSub_sched (s : State) (sc : Nat) (v : SubCh) : (setSub s sc v).sched = s.sched := rfl
@[simp] theorem setSub_dma (s : State) (sc : Nat) (v : SubCh) : (setSub s sc v).dma = s.dma := rfl
@[simp] theorem setSub_ing (s : State) (sc : Nat) (v : SubCh) : (setSub s sc v).ing = s.ing := rfl
@[simp] theorem setSub_plans (s : State) (sc : Nat) (v : SubCh) : (setSub s sc v).plans = s.plans := rfl
@[simp] theorem setSub_cache (s : State) (sc : Nat) (v : SubCh) : (setSub s sc v).cache = s.cache := rfl
@[simp] theorem setSub_cam (s : State) (sc : Nat) (v : SubCh) : (setSub s sc v).cam = s.cam := rfl
@[simp] theorem setSub_ciph (s : State) (sc : Nat) (v : SubCh) : (setSub s sc v).ciph = s.ciph := rfl
@[simp] theorem setSub_bry (s : State) (sc : Nat) (v : SubCh) : (setSub s sc v).bry = s.bry := rfl
@[simp] theorem setSub_led (s : State) (sc : Nat) (v : SubCh) : (setSub s sc v).led = s.led := rfl
@[simp] theorem setSub_sec (s : State) (sc : Nat) (v : SubCh) : (setSub s sc v).sec = s.sec := rfl
@[simp] theorem setSub_cores (s : State) (sc : Nat) (v : SubCh) : (setSub s sc v).cores = s.cores := rfl
@[simp] theorem setSub_dram (s : State) (sc : Nat) (v : SubCh) : (setSub s sc v).dram = s.dram := rfl
@[simp] theorem setSub_poison (s : State) (sc : Nat) (v : SubCh) : (setSub s sc v).poison = s.poison := rfl
@[simp] theorem setSub_host (s : State) (sc : Nat) (v : SubCh) : (setSub s sc v).host = s.host := rfl
@[simp] theorem setSub_out (s : State) (sc : Nat) (v : SubCh) : (setSub s sc v).out = s.out := rfl

/-! ## modSub -/

@[simp] theorem modSub_pending (s : State) (sc : Nat) (f : SubCh → SubCh) : (modSub s sc f).pending = s.pending := rfl
@[simp] theorem modSub_freeCtr (s : State) (sc : Nat) (f : SubCh → SubCh) : (modSub s sc f).freeCtr = s.freeCtr := rfl
@[simp] theorem modSub_code512 (s : State) (sc : Nat) (f : SubCh → SubCh) : (modSub s sc f).code512 = s.code512 := rfl
@[simp] theorem modSub_pwr (s : State) (sc : Nat) (f : SubCh → SubCh) : (modSub s sc f).pwr = s.pwr := rfl
@[simp] theorem modSub_ras (s : State) (sc : Nat) (f : SubCh → SubCh) : (modSub s sc f).ras = s.ras := rfl
@[simp] theorem modSub_regs (s : State) (sc : Nat) (f : SubCh → SubCh) : (modSub s sc f).regs = s.regs := rfl
@[simp] theorem modSub_fns (s : State) (sc : Nat) (f : SubCh → SubCh) : (modSub s sc f).fns = s.fns := rfl
@[simp] theorem modSub_qm (s : State) (sc : Nat) (f : SubCh → SubCh) : (modSub s sc f).qm = s.qm := rfl
@[simp] theorem modSub_msix (s : State) (sc : Nat) (f : SubCh → SubCh) : (modSub s sc f).msix = s.msix := rfl
@[simp] theorem modSub_sched (s : State) (sc : Nat) (f : SubCh → SubCh) : (modSub s sc f).sched = s.sched := rfl
@[simp] theorem modSub_dma (s : State) (sc : Nat) (f : SubCh → SubCh) : (modSub s sc f).dma = s.dma := rfl
@[simp] theorem modSub_ing (s : State) (sc : Nat) (f : SubCh → SubCh) : (modSub s sc f).ing = s.ing := rfl
@[simp] theorem modSub_plans (s : State) (sc : Nat) (f : SubCh → SubCh) : (modSub s sc f).plans = s.plans := rfl
@[simp] theorem modSub_cache (s : State) (sc : Nat) (f : SubCh → SubCh) : (modSub s sc f).cache = s.cache := rfl
@[simp] theorem modSub_cam (s : State) (sc : Nat) (f : SubCh → SubCh) : (modSub s sc f).cam = s.cam := rfl
@[simp] theorem modSub_ciph (s : State) (sc : Nat) (f : SubCh → SubCh) : (modSub s sc f).ciph = s.ciph := rfl
@[simp] theorem modSub_bry (s : State) (sc : Nat) (f : SubCh → SubCh) : (modSub s sc f).bry = s.bry := rfl
@[simp] theorem modSub_led (s : State) (sc : Nat) (f : SubCh → SubCh) : (modSub s sc f).led = s.led := rfl
@[simp] theorem modSub_sec (s : State) (sc : Nat) (f : SubCh → SubCh) : (modSub s sc f).sec = s.sec := rfl
@[simp] theorem modSub_cores (s : State) (sc : Nat) (f : SubCh → SubCh) : (modSub s sc f).cores = s.cores := rfl
@[simp] theorem modSub_dram (s : State) (sc : Nat) (f : SubCh → SubCh) : (modSub s sc f).dram = s.dram := rfl
@[simp] theorem modSub_poison (s : State) (sc : Nat) (f : SubCh → SubCh) : (modSub s sc f).poison = s.poison := rfl
@[simp] theorem modSub_host (s : State) (sc : Nat) (f : SubCh → SubCh) : (modSub s sc f).host = s.host := rfl
@[simp] theorem modSub_out (s : State) (sc : Nat) (f : SubCh → SubCh) : (modSub s sc f).out = s.out := rfl

/-! ## setLed -/

@[simp] theorem setLed_pending (s : State) (l : Ledger) : (setLed s l).pending = s.pending := rfl
@[simp] theorem setLed_freeCtr (s : State) (l : Ledger) : (setLed s l).freeCtr = s.freeCtr := rfl
@[simp] theorem setLed_code512 (s : State) (l : Ledger) : (setLed s l).code512 = s.code512 := rfl
@[simp] theorem setLed_pwr (s : State) (l : Ledger) : (setLed s l).pwr = s.pwr := rfl
@[simp] theorem setLed_ras (s : State) (l : Ledger) : (setLed s l).ras = s.ras := rfl
@[simp] theorem setLed_regs (s : State) (l : Ledger) : (setLed s l).regs = s.regs := rfl
@[simp] theorem setLed_fns (s : State) (l : Ledger) : (setLed s l).fns = s.fns := rfl
@[simp] theorem setLed_qm (s : State) (l : Ledger) : (setLed s l).qm = s.qm := rfl
@[simp] theorem setLed_msix (s : State) (l : Ledger) : (setLed s l).msix = s.msix := rfl
@[simp] theorem setLed_sched (s : State) (l : Ledger) : (setLed s l).sched = s.sched := rfl
@[simp] theorem setLed_dma (s : State) (l : Ledger) : (setLed s l).dma = s.dma := rfl
@[simp] theorem setLed_ing (s : State) (l : Ledger) : (setLed s l).ing = s.ing := rfl
@[simp] theorem setLed_plans (s : State) (l : Ledger) : (setLed s l).plans = s.plans := rfl
@[simp] theorem setLed_cache (s : State) (l : Ledger) : (setLed s l).cache = s.cache := rfl
@[simp] theorem setLed_cam (s : State) (l : Ledger) : (setLed s l).cam = s.cam := rfl
@[simp] theorem setLed_ciph (s : State) (l : Ledger) : (setLed s l).ciph = s.ciph := rfl
@[simp] theorem setLed_bry (s : State) (l : Ledger) : (setLed s l).bry = s.bry := rfl
@[simp] theorem setLed_dmc (s : State) (l : Ledger) : (setLed s l).dmc = s.dmc := rfl
@[simp] theorem setLed_sec (s : State) (l : Ledger) : (setLed s l).sec = s.sec := rfl
@[simp] theorem setLed_cores (s : State) (l : Ledger) : (setLed s l).cores = s.cores := rfl
@[simp] theorem setLed_dram (s : State) (l : Ledger) : (setLed s l).dram = s.dram := rfl
@[simp] theorem setLed_poison (s : State) (l : Ledger) : (setLed s l).poison = s.poison := rfl
@[simp] theorem setLed_host (s : State) (l : Ledger) : (setLed s l).host = s.host := rfl
@[simp] theorem setLed_out (s : State) (l : Ledger) : (setLed s l).out = s.out := rfl

/-! ## led -/

@[simp] theorem led_pending (s : State) (f : Ledger → Ledger) : (led s f).pending = s.pending := rfl
@[simp] theorem led_freeCtr (s : State) (f : Ledger → Ledger) : (led s f).freeCtr = s.freeCtr := rfl
@[simp] theorem led_code512 (s : State) (f : Ledger → Ledger) : (led s f).code512 = s.code512 := rfl
@[simp] theorem led_pwr (s : State) (f : Ledger → Ledger) : (led s f).pwr = s.pwr := rfl
@[simp] theorem led_ras (s : State) (f : Ledger → Ledger) : (led s f).ras = s.ras := rfl
@[simp] theorem led_regs (s : State) (f : Ledger → Ledger) : (led s f).regs = s.regs := rfl
@[simp] theorem led_fns (s : State) (f : Ledger → Ledger) : (led s f).fns = s.fns := rfl
@[simp] theorem led_qm (s : State) (f : Ledger → Ledger) : (led s f).qm = s.qm := rfl
@[simp] theorem led_msix (s : State) (f : Ledger → Ledger) : (led s f).msix = s.msix := rfl
@[simp] theorem led_sched (s : State) (f : Ledger → Ledger) : (led s f).sched = s.sched := rfl
@[simp] theorem led_dma (s : State) (f : Ledger → Ledger) : (led s f).dma = s.dma := rfl
@[simp] theorem led_ing (s : State) (f : Ledger → Ledger) : (led s f).ing = s.ing := rfl
@[simp] theorem led_plans (s : State) (f : Ledger → Ledger) : (led s f).plans = s.plans := rfl
@[simp] theorem led_cache (s : State) (f : Ledger → Ledger) : (led s f).cache = s.cache := rfl
@[simp] theorem led_cam (s : State) (f : Ledger → Ledger) : (led s f).cam = s.cam := rfl
@[simp] theorem led_ciph (s : State) (f : Ledger → Ledger) : (led s f).ciph = s.ciph := rfl
@[simp] theorem led_bry (s : State) (f : Ledger → Ledger) : (led s f).bry = s.bry := rfl
@[simp] theorem led_dmc (s : State) (f : Ledger → Ledger) : (led s f).dmc = s.dmc := rfl
@[simp] theorem led_sec (s : State) (f : Ledger → Ledger) : (led s f).sec = s.sec := rfl
@[simp] theorem led_cores (s : State) (f : Ledger → Ledger) : (led s f).cores = s.cores := rfl
@[simp] theorem led_dram (s : State) (f : Ledger → Ledger) : (led s f).dram = s.dram := rfl
@[simp] theorem led_poison (s : State) (f : Ledger → Ledger) : (led s f).poison = s.poison := rfl
@[simp] theorem led_host (s : State) (f : Ledger → Ledger) : (led s f).host = s.host := rfl
@[simp] theorem led_out (s : State) (f : Ledger → Ledger) : (led s f).out = s.out := rfl

/-! ## modVol -/

@[simp] theorem modVol_pending (s : State) (v : Nat) (f : LVol → LVol) : (modVol s v f).pending = s.pending := rfl
@[simp] theorem modVol_freeCtr (s : State) (v : Nat) (f : LVol → LVol) : (modVol s v f).freeCtr = s.freeCtr := rfl
@[simp] theorem modVol_code512 (s : State) (v : Nat) (f : LVol → LVol) : (modVol s v f).code512 = s.code512 := rfl
@[simp] theorem modVol_pwr (s : State) (v : Nat) (f : LVol → LVol) : (modVol s v f).pwr = s.pwr := rfl
@[simp] theorem modVol_ras (s : State) (v : Nat) (f : LVol → LVol) : (modVol s v f).ras = s.ras := rfl
@[simp] theorem modVol_regs (s : State) (v : Nat) (f : LVol → LVol) : (modVol s v f).regs = s.regs := rfl
@[simp] theorem modVol_fns (s : State) (v : Nat) (f : LVol → LVol) : (modVol s v f).fns = s.fns := rfl
@[simp] theorem modVol_qm (s : State) (v : Nat) (f : LVol → LVol) : (modVol s v f).qm = s.qm := rfl
@[simp] theorem modVol_msix (s : State) (v : Nat) (f : LVol → LVol) : (modVol s v f).msix = s.msix := rfl
@[simp] theorem modVol_sched (s : State) (v : Nat) (f : LVol → LVol) : (modVol s v f).sched = s.sched := rfl
@[simp] theorem modVol_dma (s : State) (v : Nat) (f : LVol → LVol) : (modVol s v f).dma = s.dma := rfl
@[simp] theorem modVol_ing (s : State) (v : Nat) (f : LVol → LVol) : (modVol s v f).ing = s.ing := rfl
@[simp] theorem modVol_plans (s : State) (v : Nat) (f : LVol → LVol) : (modVol s v f).plans = s.plans := rfl
@[simp] theorem modVol_cache (s : State) (v : Nat) (f : LVol → LVol) : (modVol s v f).cache = s.cache := rfl
@[simp] theorem modVol_cam (s : State) (v : Nat) (f : LVol → LVol) : (modVol s v f).cam = s.cam := rfl
@[simp] theorem modVol_ciph (s : State) (v : Nat) (f : LVol → LVol) : (modVol s v f).ciph = s.ciph := rfl
@[simp] theorem modVol_bry (s : State) (v : Nat) (f : LVol → LVol) : (modVol s v f).bry = s.bry := rfl
@[simp] theorem modVol_dmc (s : State) (v : Nat) (f : LVol → LVol) : (modVol s v f).dmc = s.dmc := rfl
@[simp] theorem modVol_sec (s : State) (v : Nat) (f : LVol → LVol) : (modVol s v f).sec = s.sec := rfl
@[simp] theorem modVol_cores (s : State) (v : Nat) (f : LVol → LVol) : (modVol s v f).cores = s.cores := rfl
@[simp] theorem modVol_dram (s : State) (v : Nat) (f : LVol → LVol) : (modVol s v f).dram = s.dram := rfl
@[simp] theorem modVol_poison (s : State) (v : Nat) (f : LVol → LVol) : (modVol s v f).poison = s.poison := rfl
@[simp] theorem modVol_host (s : State) (v : Nat) (f : LVol → LVol) : (modVol s v f).host = s.host := rfl
@[simp] theorem modVol_out (s : State) (v : Nat) (f : LVol → LVol) : (modVol s v f).out = s.out := rfl

/-! ## setCmd -/

@[simp] theorem setCmd_pending (s : State) (c : Nat) (v : LCmd) : (setCmd s c v).pending = s.pending := rfl
@[simp] theorem setCmd_freeCtr (s : State) (c : Nat) (v : LCmd) : (setCmd s c v).freeCtr = s.freeCtr := rfl
@[simp] theorem setCmd_code512 (s : State) (c : Nat) (v : LCmd) : (setCmd s c v).code512 = s.code512 := rfl
@[simp] theorem setCmd_pwr (s : State) (c : Nat) (v : LCmd) : (setCmd s c v).pwr = s.pwr := rfl
@[simp] theorem setCmd_ras (s : State) (c : Nat) (v : LCmd) : (setCmd s c v).ras = s.ras := rfl
@[simp] theorem setCmd_regs (s : State) (c : Nat) (v : LCmd) : (setCmd s c v).regs = s.regs := rfl
@[simp] theorem setCmd_fns (s : State) (c : Nat) (v : LCmd) : (setCmd s c v).fns = s.fns := rfl
@[simp] theorem setCmd_qm (s : State) (c : Nat) (v : LCmd) : (setCmd s c v).qm = s.qm := rfl
@[simp] theorem setCmd_msix (s : State) (c : Nat) (v : LCmd) : (setCmd s c v).msix = s.msix := rfl
@[simp] theorem setCmd_sched (s : State) (c : Nat) (v : LCmd) : (setCmd s c v).sched = s.sched := rfl
@[simp] theorem setCmd_dma (s : State) (c : Nat) (v : LCmd) : (setCmd s c v).dma = s.dma := rfl
@[simp] theorem setCmd_ing (s : State) (c : Nat) (v : LCmd) : (setCmd s c v).ing = s.ing := rfl
@[simp] theorem setCmd_plans (s : State) (c : Nat) (v : LCmd) : (setCmd s c v).plans = s.plans := rfl
@[simp] theorem setCmd_cache (s : State) (c : Nat) (v : LCmd) : (setCmd s c v).cache = s.cache := rfl
@[simp] theorem setCmd_cam (s : State) (c : Nat) (v : LCmd) : (setCmd s c v).cam = s.cam := rfl
@[simp] theorem setCmd_ciph (s : State) (c : Nat) (v : LCmd) : (setCmd s c v).ciph = s.ciph := rfl
@[simp] theorem setCmd_bry (s : State) (c : Nat) (v : LCmd) : (setCmd s c v).bry = s.bry := rfl
@[simp] theorem setCmd_dmc (s : State) (c : Nat) (v : LCmd) : (setCmd s c v).dmc = s.dmc := rfl
@[simp] theorem setCmd_sec (s : State) (c : Nat) (v : LCmd) : (setCmd s c v).sec = s.sec := rfl
@[simp] theorem setCmd_cores (s : State) (c : Nat) (v : LCmd) : (setCmd s c v).cores = s.cores := rfl
@[simp] theorem setCmd_dram (s : State) (c : Nat) (v : LCmd) : (setCmd s c v).dram = s.dram := rfl
@[simp] theorem setCmd_poison (s : State) (c : Nat) (v : LCmd) : (setCmd s c v).poison = s.poison := rfl
@[simp] theorem setCmd_host (s : State) (c : Nat) (v : LCmd) : (setCmd s c v).host = s.host := rfl
@[simp] theorem setCmd_out (s : State) (c : Nat) (v : LCmd) : (setCmd s c v).out = s.out := rfl

/-! ## modCu -/

@[simp] theorem modCu_pending (s : State) (u : Nat) (f : CU → CU) : (modCu s u f).pending = s.pending := rfl
@[simp] theorem modCu_freeCtr (s : State) (u : Nat) (f : CU → CU) : (modCu s u f).freeCtr = s.freeCtr := rfl
@[simp] theorem modCu_code512 (s : State) (u : Nat) (f : CU → CU) : (modCu s u f).code512 = s.code512 := rfl
@[simp] theorem modCu_pwr (s : State) (u : Nat) (f : CU → CU) : (modCu s u f).pwr = s.pwr := rfl
@[simp] theorem modCu_ras (s : State) (u : Nat) (f : CU → CU) : (modCu s u f).ras = s.ras := rfl
@[simp] theorem modCu_regs (s : State) (u : Nat) (f : CU → CU) : (modCu s u f).regs = s.regs := rfl
@[simp] theorem modCu_fns (s : State) (u : Nat) (f : CU → CU) : (modCu s u f).fns = s.fns := rfl
@[simp] theorem modCu_qm (s : State) (u : Nat) (f : CU → CU) : (modCu s u f).qm = s.qm := rfl
@[simp] theorem modCu_msix (s : State) (u : Nat) (f : CU → CU) : (modCu s u f).msix = s.msix := rfl
@[simp] theorem modCu_sched (s : State) (u : Nat) (f : CU → CU) : (modCu s u f).sched = s.sched := rfl
@[simp] theorem modCu_dma (s : State) (u : Nat) (f : CU → CU) : (modCu s u f).dma = s.dma := rfl
@[simp] theorem modCu_ing (s : State) (u : Nat) (f : CU → CU) : (modCu s u f).ing = s.ing := rfl
@[simp] theorem modCu_plans (s : State) (u : Nat) (f : CU → CU) : (modCu s u f).plans = s.plans := rfl
@[simp] theorem modCu_cache (s : State) (u : Nat) (f : CU → CU) : (modCu s u f).cache = s.cache := rfl
@[simp] theorem modCu_cam (s : State) (u : Nat) (f : CU → CU) : (modCu s u f).cam = s.cam := rfl
@[simp] theorem modCu_ciph (s : State) (u : Nat) (f : CU → CU) : (modCu s u f).ciph = s.ciph := rfl
@[simp] theorem modCu_bry (s : State) (u : Nat) (f : CU → CU) : (modCu s u f).bry = s.bry := rfl
@[simp] theorem modCu_dmc (s : State) (u : Nat) (f : CU → CU) : (modCu s u f).dmc = s.dmc := rfl
@[simp] theorem modCu_sec (s : State) (u : Nat) (f : CU → CU) : (modCu s u f).sec = s.sec := rfl
@[simp] theorem modCu_cores (s : State) (u : Nat) (f : CU → CU) : (modCu s u f).cores = s.cores := rfl
@[simp] theorem modCu_dram (s : State) (u : Nat) (f : CU → CU) : (modCu s u f).dram = s.dram := rfl
@[simp] theorem modCu_poison (s : State) (u : Nat) (f : CU → CU) : (modCu s u f).poison = s.poison := rfl
@[simp] theorem modCu_host (s : State) (u : Nat) (f : CU → CU) : (modCu s u f).host = s.host := rfl
@[simp] theorem modCu_out (s : State) (u : Nat) (f : CU → CU) : (modCu s u f).out = s.out := rfl

/-! ## camStore -/

@[simp] theorem camStore_pending (s : State) (off : Nat) (bs : List Byte) : (camStore s off bs).pending = s.pending := rfl
@[simp] theorem camStore_freeCtr (s : State) (off : Nat) (bs : List Byte) : (camStore s off bs).freeCtr = s.freeCtr := rfl
@[simp] theorem camStore_code512 (s : State) (off : Nat) (bs : List Byte) : (camStore s off bs).code512 = s.code512 := rfl
@[simp] theorem camStore_pwr (s : State) (off : Nat) (bs : List Byte) : (camStore s off bs).pwr = s.pwr := rfl
@[simp] theorem camStore_ras (s : State) (off : Nat) (bs : List Byte) : (camStore s off bs).ras = s.ras := rfl
@[simp] theorem camStore_regs (s : State) (off : Nat) (bs : List Byte) : (camStore s off bs).regs = s.regs := rfl
@[simp] theorem camStore_fns (s : State) (off : Nat) (bs : List Byte) : (camStore s off bs).fns = s.fns := rfl
@[simp] theorem camStore_qm (s : State) (off : Nat) (bs : List Byte) : (camStore s off bs).qm = s.qm := rfl
@[simp] theorem camStore_msix (s : State) (off : Nat) (bs : List Byte) : (camStore s off bs).msix = s.msix := rfl
@[simp] theorem camStore_sched (s : State) (off : Nat) (bs : List Byte) : (camStore s off bs).sched = s.sched := rfl
@[simp] theorem camStore_dma (s : State) (off : Nat) (bs : List Byte) : (camStore s off bs).dma = s.dma := rfl
@[simp] theorem camStore_ing (s : State) (off : Nat) (bs : List Byte) : (camStore s off bs).ing = s.ing := rfl
@[simp] theorem camStore_plans (s : State) (off : Nat) (bs : List Byte) : (camStore s off bs).plans = s.plans := rfl
@[simp] theorem camStore_cache (s : State) (off : Nat) (bs : List Byte) : (camStore s off bs).cache = s.cache := rfl
@[simp] theorem camStore_ciph (s : State) (off : Nat) (bs : List Byte) : (camStore s off bs).ciph = s.ciph := rfl
@[simp] theorem camStore_bry (s : State) (off : Nat) (bs : List Byte) : (camStore s off bs).bry = s.bry := rfl
@[simp] theorem camStore_led (s : State) (off : Nat) (bs : List Byte) : (camStore s off bs).led = s.led := rfl
@[simp] theorem camStore_dmc (s : State) (off : Nat) (bs : List Byte) : (camStore s off bs).dmc = s.dmc := rfl
@[simp] theorem camStore_sec (s : State) (off : Nat) (bs : List Byte) : (camStore s off bs).sec = s.sec := rfl
@[simp] theorem camStore_cores (s : State) (off : Nat) (bs : List Byte) : (camStore s off bs).cores = s.cores := rfl
@[simp] theorem camStore_dram (s : State) (off : Nat) (bs : List Byte) : (camStore s off bs).dram = s.dram := rfl
@[simp] theorem camStore_poison (s : State) (off : Nat) (bs : List Byte) : (camStore s off bs).poison = s.poison := rfl
@[simp] theorem camStore_host (s : State) (off : Nat) (bs : List Byte) : (camStore s off bs).host = s.host := rfl
@[simp] theorem camStore_out (s : State) (off : Nat) (bs : List Byte) : (camStore s off bs).out = s.out := rfl

end Sys2Proof.Machine
end

