-- ==== Sys2Proof/WellFormed.lean ====
section
/-! DEFINITION. Well-formed commands: every operand in the range the spec gives it. -/

namespace Sys2Proof.WellFormed
open Sys2Proof

/-- A function number (R327). -/
def okFn (x : Nat) : Bool := decide (x < 256)
/-- An access path (R479). -/
def okPath (p : Path) : Bool :=
  match p with
    | .host f => okFn f
    | .core i fn => decide (i < 148) && okFn fn
    | _ => true
/-- A register value of 64 bits (R475). -/
def ok64 (v : Nat) : Bool := decide (v < 2 ^ 64)
/-- A doorbell value of 32 bits (R289, R298). -/
def ok32 (v : Nat) : Bool := decide (v < 2 ^ 32)
/-- A local queue (R285). -/
def okQueue (q : Nat) : Bool := decide (q < 4096)
/-- Up to four inline descriptors of 64 bytes (R289). -/
def okSlots (l : List (List Byte)) : Bool := decide (l.length ≤ 4) && l.all (fun b => b.length == 64)
/-- A core: tiles 0 to 143, Frame cores 144 to 147, the Sill core 148 (Table 10-1). -/
def okCore (i : Nat) : Bool := decide (i < 149)
/-- A physical tile (R9). -/
def okTile (p : Nat) : Bool := decide (p < 144)
/-- A cluster (R9). -/
def okCluster (c : Nat) : Bool := decide (c < 16)
/-- A port of the two Ethernet or Bridy ports. -/
def okPort (n : Nat) : Bool := decide (n < 2)
/-- An initiator identity that is produced (Table 1-3). -/
def okInit (i : Nat) : Bool := decide (i < 164)
/-- An internal address (R17). -/
def okAddr (a : Nat) : Bool := decide (a < 2 ^ 40)
/-- A cache slice. -/
def okSlice (x : Nat) : Bool := decide (x < 32)
/-- A way of a slice. -/
def okWay (w : Nat) : Bool := decide (w < 16)
/-- A scratch slot (R253). -/
def okScratch (q : Nat) : Bool := decide (q < 12)
/-- A memory subchannel. -/
def okSub (x : Nat) : Bool := decide (x < 128)
/-- A memory channel. -/
def okChan (c : Nat) : Bool := decide (c < 64)
/-- A CAM entry (R407). -/
def okCamEntry (i : Nat) : Bool := decide (i < 131072)
/-- A key slot (R385). -/
def okKeySlot (k : Nat) : Bool := decide (k < 64)
/-- A drive. -/
def okDrive (d : Nat) : Bool := decide (d < 2)
/-- A lane of a Bridy port (R368). -/
def okLane (l : Nat) : Bool := decide (l < 5)
/-- Readings of the sensors (R446). -/
def okTemps (l : List Int) : Bool := decide (l.length ≤ 64)
/-- A source of a request to Sill: mailbox, SMBus, Bridy port 0 and 1 (R427). -/
def okSrc (x : Nat) : Bool := decide (x < 4)
/-- An offset of BAR0 (R473). -/
def okOff (o : Nat) : Bool := decide (o < 2 ^ 26)
/-- The size of a register access (R475). -/
def okAccess (n : Nat) : Bool := n == 4 || n == 8
/-- A 128-byte line of the internal address space. -/
def okLine (l : Nat) : Bool := decide (l < 2 ^ 33)
/-- A latency class (Table 0-6). -/
def okLc (l : Nat) : Bool := decide (l < 4)
/-- A DRAM port (Table 13-1). -/
def okDPort (p : Nat) : Bool := decide (p < 8)
/-- A class of RAS_CNT (R472). -/
def okClass (c : Nat) : Bool := decide (c < 11)

/-- Is every operand of a command in its range? Operands without a bound (device-wide item numbers, counts of errors, byte strings) pass. -/
def wf (i : Instr) : Bool :=
  match i with
  | .sqDb fn q v slots => okFn fn && okQueue q && ok32 v && okSlots slots
  | .cqDb fn q v => okFn fn && okQueue q && ok32 v
  | .descriptorFetch => true
  | .heldDescriptorInsert => true
  | .entryWaitGrant => true
  | .ikeyHeldInsert => true
  | .ikeyExpiry => true
  | .queueEnable p v => okPath p && ok64 v
  | .runPlan _ => true
  | .loadPlan _ => true
  | .unloadPlan _ => true
  | .unloadComplete fn _ => okFn fn
  | .move _ => true
  | .cipher _ => true
  | .digest _ => true
  | .codecEncode _ => true
  | .codecDecode _ => true
  | .camUpdate _ => true
  | .camSearch _ => true
  | .ledgerRead _ => true
  | .ledgerWrite _ => true
  | .ledgerAppend _ => true
  | .ledgerFlush _ => true
  | .ledgerTrim _ => true
  | .logRead _ => true
  | .ledgerResume _ => true
  | .tableAppend _ => true
  | .abort _ => true
  | .resumeQueue _ => true
  | .stateDump _ => true
  | .fnResize _ => true
  | .resizeUnitMove _ => true
  | .sanitise _ => true
  | .format _ => true
  | .poolFormat _ => true
  | .driveRebuild _ => true
  | .opProgressRecord _ => true
  | .ledgerOpEnd => true
  | .spareReport _ => true
  | .modeRequest _ => true
  | .nop _ => true
  | .runGrant => true
  | .scanBatch _ _ => true
  | .filterBatch _ _ _ => true
  | .computeBatch _ _ _ => true
  | .joinBuildBatch _ _ _ => true
  | .joinProbeBatch _ _ _ => true
  | .hashAggFold _ _ _ => true
  | .hashAggMerge _ _ => true
  | .windowAggBatch _ _ _ => true
  | .sortBatch _ _ _ => true
  | .topnBatch _ _ _ => true
  | .mergeIntermediate _ _ => true
  | .mergeFinal _ _ => true
  | .exchangeSend _ _ _ => true
  | .exchangeFragmentReceive _ _ _ _ => true
  | .outputBatch _ _ _ => true
  | .checkpointTimer _ _ => true
  | .checkpointComplete _ _ => true
  | .commitPoint _ => true
  | .msixCoalesceTimeout _ => true
  | .clusterWakeComplete c => okCluster c
  | .clockGatedWakeDone c => okCluster c
  | .clusterPowerGate c => okCluster c
  | .schedWinSnapshot p v => okPath p && ok64 v
  | .ingestFrame port _ => okPort port
  | .replyCacheExpiry => true
  | .layoutValidate p => okPath p
  | .layoutInvalidate p => okPath p
  | .layoutMemWrite p off _ => okPath p && okOff off
  | .gwFloorWrite p v => okPath p && ok64 v
  | .sysNop core => okCore core
  | .wfe core => okCore core
  | .wfeWake core => okCore core
  | .sev core => okCore core
  | .waitt core => okCore core
  | .waittDone core => okCore core
  | .timerFire core => okCore core
  | .reti core => okCore core
  | .trap core => okCore core
  | .fence core => okCore core
  | .brk core => okCore core
  | .ret core => okCore core
  | .movc core => okCore core
  | .alu core => okCore core
  | .alux core => okCore core
  | .alui core => okCore core
  | .aluq core => okCore core
  | .aop core => okCore core
  | .addai core => okCore core
  | .lia core => okCore core
  | .ld core => okCore core
  | .st core => okCore core
  | .ldm core => okCore core
  | .stm core => okCore core
  | .acld core => okCore core
  | .acst core => okCore core
  | .acldn core => okCore core
  | .acstn core => okCore core
  | .acop core => okCore core
  | .acxfer core => okCore core
  | .brd core => okCore core
  | .bra core => okCore core
  | .brac core => okCore core
  | .dbnz core => okCore core
  | .jmp core => okCore core
  | .jmpr core => okCore core
  | .call core => okCore core
  | .retm core => okCore core
  | .pushm core => okCore core
  | .popm core => okCore core
  | .movs core => okCore core
  | .fills core => okCore core
  | .cmps core => okCore core
  | .scans core => okCore core
  | .illegalOpcode core => okCore core
  | .interruptEntry core _ => okCore core
  | .windowLoadData core => okCore core
  | .varith core => okCore core
  | .vlogic core => okCore core
  | .vcmp core => okCore core
  | .vscale core => okCore core
  | .vmulw core => okCore core
  | .vdot4 core => okCore core
  | .vdot2w core => okCore core
  | .vdiv core _ => okCore core
  | .vld core => okCore core
  | .vst core => okCore core
  | .vldff core => okCore core
  | .vgather core => okCore core
  | .vgatherff core => okCore core
  | .vscatter core => okCore core
  | .vcompact core => okCore core
  | .vhash core => okCore core
  | .vmemb core => okCore core
  | .vsel core => okCore core
  | .vpred core => okCore core
  | .vxfer core => okCore core
  | .vconv core => okCore core
  | .vctl core => okCore core
  | .vpipe core => okCore core
  | .vectorChain core _ => okCore core
  | .pipeDecode core => okCore core
  | .pipeEncode core => okCore core
  | .pipeSort32 core => okCore core
  | .pipeMerge core => okCore core
  | .pipeEscpop core => okCore core
  | .cacheAccess init fn addr _ _ _ _ => okInit init && okFn fn.1 && okAddr addr
  | .wayRetireDone slice w _ => okSlice slice && okWay w
  | .scClean p => okPath p
  | .scCleanInval p => okPath p
  | .scLockLoad p => okPath p
  | .scOpDone => true
  | .scLockWrite p v => okPath p && ok64 v
  | .cacheDisable p => okPath p
  | .cacheDisableDone => true
  | .cacheEnable p => okPath p
  | .wayPowerDown p v => okPath p && ok64 v
  | .wayPowerOffDone w => okWay w
  | .wayPowerUp p v => okPath p && ok64 v
  | .scratchConvert p q v => okPath p && okScratch q && ok64 v
  | .scratchReady q => okScratch q
  | .scratchRelease p q v => okPath p && okScratch q && ok64 v
  | .dramRead l _ _ _ _ => okLine l.1 && okDPort l.2
  | .rowRepairDone sc _ => okSub sc
  | .dramWrite l _ _ => okLine l.1 && okDPort l.2
  | .writeBatchDrain sc _ => okSub sc
  | .refresh sc => okSub sc
  | .refreshRatePoll _ => true
  | .patrolScrubRead sc _ _ _ _ => okSub sc
  | .selfRefreshEntry sc => okSub sc
  | .delayApply p v => okPath p && ok64 v
  | .delayCopy ch => okChan ch
  | .delayShadowWrite p _ v => okPath p && ok64 v
  | .pprSoft p v => okPath p && ok64 v
  | .pprHard p v => okPath p && ok64 v
  | .dmcCtlWrite p v => okPath p && ok64 v
  | .dmaChannelGrant => true
  | .dmaSegmentEnd _ _ => true
  | .vfEnable _ => true
  | .vfEnableClear => true
  | .ledgerDataWriteDone _ _ => true
  | .commitSectorDone _ _ => true
  | .snapshotDone => true
  | .ledgerReadDone _ _ => true
  | .appendGroupClose _ => true
  | .peerRspTimeout _ => true
  | .xferGrantTimeout _ => true
  | .payloadFlit n _ _ _ => okPort n
  | .idleFlit n _ _ _ => okPort n
  | .retryReq n _ _ _ => okPort n
  | .retryReqRepeat n => okPort n
  | .swapReq n _ _ _ => okPort n
  | .laneFault n lane => okPort n && okLane lane
  | .trainFlit n _ _ _ => okPort n
  | .linkSilent n => okPort n
  | .retrainDelay n => okPort n
  | .bridyCmd n => okPort n
  | .xferRdy n => okPort n
  | .dataPacket n => okPort n
  | .rspPacket n => okPort n
  | .msgPacket n => okPort n
  | .mgmtPacket n => okPort n
  | .bridyPortEnable p n v => okPath p && okPort n && ok64 v
  | .bridyPortDisable p n v => okPath p && okPort n && ok64 v
  | .txEpochChange p n v => okPath p && okPort n && ok64 v
  | .keyLoad p v => okPath p && ok64 v
  | .keyErase p v => okPath p && ok64 v
  | .stagingZeroise p v => okPath p && ok64 v
  | .keyEraseDone k => okKeySlot k
  | .cipherMessageDone _ _ => true
  | .digestMessageDone _ _ => true
  | .camWindowWrite init fn addr _ => okInit init && okFn fn && okAddr addr
  | .camLookup fn key => okFn fn && okLc key.2.1
  | .camScrub ent _ => okCamEntry ent
  | .camSpareLoadDone => true
  | .status src _ => okSrc src
  | .attest src _ => okSrc src
  | .certs src _ => okSrc src
  | .fwWrite src _ => okSrc src
  | .fwCommit src _ _ => okSrc src
  | .fwAccept src _ => okSrc src
  | .debugOpen src _ _ => okSrc src
  | .porAssert => true
  | .porRelease _ _ sens => okTemps sens
  | .driveReady _ => true
  | .driveReadyTimeout _ => true
  | .dramFillDone => true
  | .modeAutoMove => true
  | .modeReqResume p => okPath p
  | .modeReqDrain p _ => okPath p
  | .modeReqRetain p => okPath p
  | .modeReqMaintain p => okPath p
  | .modeReqOffReady p => okPath p
  | .drainComplete => true
  | .drainTimeout => true
  | .wakePin _ sens => okTemps sens
  | .wakeTimer _ sens => okTemps sens
  | .wakeSmbus _ sens => okTemps sens
  | .perstDeassert _ sens => okTemps sens
  | .perstAssert => true
  | .thermalSample temps => okTemps temps
  | .powerEstimate _ _ => true
  | .devtimeWrite => true
  | .aonPostedWrite p off v => okPath p && okOff off && ok64 v
  | .detectedError cls _ _ => okClass cls
  | .spareTileRemap => true
  | .tileBistDone p _ => okTile p
  | .recoverEnd => true
  | .cfgParityScrub off _ _ => okOff off
  | .cfgParityRewrite p off v => okPath p && okOff off && ok64 v
  | .registerWrite p a n v => okPath p && okOff a && okAccess n && ok64 v
  | .aclkEdge => true
  | .swapReqRepeat n => okPort n
  | .driveStopsAnswering d => okDrive d

end Sys2Proof.WellFormed
end

