-- ==== Sys2Proof/Tests/Slice0.lean ====
section
/-! SUPPORT. Tests: well-formedness, and a witness of the hypotheses of each statement. -/

namespace Sys2Proof.Tests

-- The proofs of this file are checked one after another, so that they need less memory at once.
set_option Elab.async false

open Sys2Proof Sys2Proof.Machine Sys2Proof.Safety Sys2Proof.WellFormed

/-! ## An ill-formed term for each check -/

theorem test_wf_fn : wf (.sqDb 256 0 0 []) = false ∧ wf (.sqDb 255 0 0 []) = true := by decide
theorem test_wf_queue : wf (.cqDb 0 4096 0) = false ∧ wf (.cqDb 0 4095 0) = true := by decide
theorem test_wf_value32 : wf (.cqDb 0 0 (2 ^ 32)) = false ∧ wf (.cqDb 0 0 (2 ^ 32 - 1)) = true := by decide
theorem test_wf_slots : wf (.sqDb 0 0 0 [[0#8]]) = false ∧ wf (.sqDb 0 0 0 (List.replicate 5 (List.replicate 64 0#8))) = false
    ∧ wf (.sqDb 0 0 0 (List.replicate 4 (List.replicate 64 0#8))) = true := by decide
theorem test_wf_path : wf (.scClean (.host 256)) = false ∧ wf (.scClean .sill) = true := by decide
theorem test_wf_value64 : wf (.queueEnable .sill (2 ^ 64)) = false ∧ wf (.queueEnable .sill (2 ^ 64 - 1)) = true := by decide
theorem test_wf_core : wf (.alu 149) = false ∧ wf (.alu 148) = true := by decide
theorem test_wf_tile : wf (.tileBistDone 144 true) = false ∧ wf (.tileBistDone 143 true) = true := by decide
theorem test_wf_cluster : wf (.clusterPowerGate 16) = false ∧ wf (.clusterPowerGate 15) = true := by decide
theorem test_wf_port : wf (.ingestFrame 2 []) = false ∧ wf (.linkSilent 2) = false ∧ wf (.linkSilent 1) = true := by decide
theorem test_wf_initiator : wf (.cacheAccess 164 (0, false) 0 0 none 0 (0, none)) = false ∧ wf (.cacheAccess 163 (0, false) 0 0 none 0 (0, none)) = true := by decide
theorem test_wf_address : wf (.cacheAccess 0 (0, false) (2 ^ 40) 0 none 0 (0, none)) = false ∧ wf (.camWindowWrite 0 0 (2 ^ 40) []) = false := by decide
theorem test_wf_slice_way : wf (.wayRetireDone 32 0 []) = false ∧ wf (.wayRetireDone 0 16 []) = false ∧ wf (.wayPowerOffDone 16) = false
    ∧ wf (.wayRetireDone 31 15 []) = true := by decide
theorem test_wf_scratch : wf (.scratchReady 12) = false ∧ wf (.scratchReady 11) = true := by decide
theorem test_wf_subchannel : wf (.refresh 128) = false ∧ wf (.refresh 127) = true := by decide
theorem test_wf_channel : wf (.delayCopy 64) = false ∧ wf (.delayCopy 63) = true := by decide
theorem test_wf_cam_entry : wf (.camScrub 131072 0) = false ∧ wf (.camScrub 131071 0) = true := by decide
theorem test_wf_key_slot : wf (.keyEraseDone 64) = false ∧ wf (.keyEraseDone 63) = true := by decide
theorem test_wf_drive : wf (.driveStopsAnswering 2) = false ∧ wf (.driveStopsAnswering 1) = true := by decide
theorem test_wf_lane : wf (.laneFault 0 5) = false ∧ wf (.laneFault 0 4) = true := by decide
theorem test_wf_temps : wf (.thermalSample (List.replicate 65 0)) = false ∧ wf (.thermalSample (List.replicate 64 0)) = true := by decide
theorem test_wf_source : wf (.status 4 []) = false ∧ wf (.status 3 []) = true := by decide
theorem test_wf_offset : wf (.aonPostedWrite .sill (2 ^ 26) 0) = false ∧ wf (.aonPostedWrite .sill (2 ^ 26 - 1) 0) = true := by decide
theorem test_wf_access : wf (.registerWrite .sill 0 2 0) = false ∧ wf (.registerWrite .sill 0 8 0) = true := by decide
theorem test_wf_line : wf (.dramRead (2 ^ 33, 0) 0 0 0 0) = false ∧ wf (.dramRead (2 ^ 33 - 1, 0) 0 0 0 0) = true := by decide
theorem test_wf_class : wf (.detectedError 11 0 0) = false ∧ wf (.detectedError 10 0 0) = true := by decide


/-! ## Sequencer instructions: a state at each instruction -/

/-- Core 0 executes these words from PC 0 on. -/
def tcore (ws : List Nat) : Core := { coreInit 0 with run := .run, mem := mwrite [] 0 (ws.flatMap (natLE 2)) }
/-- Core 0 has power and nothing else happens. -/
def tst (c : Core) : State := { State.reset with cores := [(0, c)] }

theorem issues_of {c : Core} {row : SRow} {w1 w2 : Nat} (hr : c.run = .run) (hl : c.vec.links = [])
    (hf : fetchAt 0 c c.pc.toNat = .ins (some row) w1 w2) : Issues (tst c) 0 c row w1 w2 := ⟨rfl, hr, hl, hf⟩
theorem stands_of {c : Core} {st : CRun} {row : SRow} {w1 w2 : Nat} (hr : c.run = st)
    (hf : fetchAt 0 c c.pc.toNat = .ins (some row) w1 w2) : Stands (tst c) 0 c st row w1 w2 := ⟨rfl, hr, hf⟩
theorem words_of {c : Core} {wa k : Nat} (h : wa + k ≤ dataEnd 0 ∧ (List.range k).all (fun j => dataOk 0 c (wa + j)) = true) :
    DataWords 0 c wa k := ⟨h.1, fun j hj => List.all_eq_true.mp h.2 j (List.mem_range.mpr hj)⟩

/-- One word of each register instruction (Table 10-7): SYS NOP, ADD D1,D2, the last ALUX, ADD D1,#FFFF, ALUQ #-1, the last AOP,
ADDAI, LIA with bit 23. -/
theorem test_register_instructions :
    Issues (tst (tcore [0x0400])) 0 (tcore [0x0400]) .nop 0x0400 0
    ∧ Issues (tst (tcore [0x104A])) 0 (tcore [0x104A]) .alu 0x104A 0
    ∧ Issues (tst (tcore [0x16C0])) 0 (tcore [0x16C0]) .alux 0x16C0 0
    ∧ Issues (tst (tcore [0x1848, 0xFFFF])) 0 (tcore [0x1848, 0xFFFF]) .alui 0x1848 0xFFFF
    ∧ Issues (tst (tcore [0x1C1F])) 0 (tcore [0x1C1F]) .aluq 0x1C1F 0
    ∧ Issues (tst (tcore [0x21C0])) 0 (tcore [0x21C0]) .aop 0x21C0 0
    ∧ Issues (tst (tcore [0x2490, 0xFFFF])) 0 (tcore [0x2490, 0xFFFF]) .addai 0x2490 0xFFFF
    ∧ Issues (tst (tcore [0x2C80, 1])) 0 (tcore [0x2C80, 1]) .lia 0x2C80 1 :=
  ⟨issues_of rfl rfl rfl, issues_of rfl rfl rfl, issues_of rfl rfl rfl, issues_of rfl rfl rfl, issues_of rfl rfl rfl, issues_of rfl rfl rfl,
    issues_of rfl rfl rfl, issues_of rfl rfl rfl⟩

/-- ADD D1,D2 of FFFF and 1 gives 0 (Table 10-9). -/
theorem test_alu_wraps : (aluFn 1 0xFFFF 1).toNat = 0 ∧ (aluFn 15 0 0x1234).toNat = 0x3412 := by decide

/-- ACOP MOV of AC0, and ADDT at the top of its range, which overflows. -/
theorem test_acop :
    let top := setD (setAC (tcore [0x50E0]) 0 (BitVec.ofInt 72 acMax)) 0 1
    Issues (tst (tcore [0x5000])) 0 (tcore [0x5000]) .acop 0x5000 0 ∧ (acopFn 0 0 0 0).isSome = true
    ∧ Issues (tst top) 0 top .acop 0x50E0 0 ∧ acopFn 3 (acreg top 0) (BitVec.ofInt 72 (sgn 16 (dreg top 0))) (dreg top 0) = none
    ∧ top.exl = false :=
  ⟨issues_of rfl rfl rfl, rfl, issues_of rfl rfl rfl, by decide, rfl⟩

/-- ACGET and ACPUT of word 4, and a reserved word. -/
theorem test_acxfer :
    Issues (tst (tcore [0x5500])) 0 (tcore [0x5500]) .acxfer 0x5500 0 ∧ Issues (tst (tcore [0x5700])) 0 (tcore [0x5700]) .acxfer 0x5700 0
    ∧ opOf 0x5540 = 0x15 ∧ 5 ≤ fld 0x5540 8 6 ∧ fld 0x5500 8 6 = 4 :=
  ⟨issues_of rfl rfl rfl, issues_of rfl rfl rfl, by decide, by decide, by decide⟩

/-- The branches with condition LTU, and a reserved condition and a reserved field. -/
theorem test_branches :
    Issues (tst (tcore [0x5A00, 0xFFFE])) 0 (tcore [0x5A00, 0xFFFE]) .brd 0x5A00 0xFFFE
    ∧ Issues (tst (tcore [0x5E80, 0])) 0 (tcore [0x5E80, 0]) .bra 0x5E80 0
    ∧ Issues (tst (tcore [0x6040, 0])) 0 (tcore [0x6040, 0]) .brac 0x6040 0
    ∧ Issues (tst (tcore [0x6400, 0xFFFE])) 0 (tcore [0x6400, 0xFFFE]) .dbnz 0x6400 0xFFFE
    ∧ (opOf 0x5B00 = 0x16 ∧ 6 ≤ fld 0x5B00 9 7) ∧ (opOf 0x6041 = 0x18 ∧ bitOf 0x6041 6 = true ∧ fld 0x6041 1 0 ≠ 0) :=
  ⟨issues_of rfl rfl rfl, issues_of rfl rfl rfl, issues_of rfl rfl rfl, issues_of rfl rfl rfl, by decide, by decide⟩

theorem test_jumps :
    Issues (tst (tcore [0x6801, 2])) 0 (tcore [0x6801, 2]) .jmp 0x6801 2 ∧ Issues (tst (tcore [0x6C03])) 0 (tcore [0x6C03]) .jmpr 0x6C03 0 :=
  ⟨issues_of rfl rfl rfl, issues_of rfl rfl rfl⟩

/-- The system instructions where they complete and where they wait; the waits that end; an armed timer that is due. -/
theorem test_system_instructions :
    let w := tcore [0x0440]
    let we := { w with evpend := 1, emask := 1 }
    let f := { tcore [0x04C0] with d := (Vector.replicate 8 0).set 6 1 }
    let r := tcore [0x0500]
    let u := { tcore [0, 0x0A80] with k := false, pc := 1, uplo := 0 }
    let tm := { tcore [] with timer := some 0 }
    (Issues (tst we) 0 we .wfe 0x0440 0 ∧ we.evpend &&& we.emask ≠ 0) ∧ (Issues (tst w) 0 w .wfe 0x0440 0 ∧ w.evpend &&& w.emask = 0)
    ∧ Stands (tst { we with run := .wfe }) 0 { we with run := .wfe } .wfe .wfe 0x0440 0
    ∧ (Issues (tst (tcore [0x04C0])) 0 (tcore [0x04C0]) .waitt 0x04C0 0 ∧ reached (tst (tcore [0x04C0])) 0 = true)
    ∧ (Issues (tst f) 0 f .waitt 0x04C0 0 ∧ reached (tst f) (waitTarget f) = false)
    ∧ Stands (tst { tcore [0x04C0] with run := .waitt }) 0 { tcore [0x04C0] with run := .waitt } .waitt .waitt 0x04C0 0
    ∧ (tget (tst tm).cores 0 = some tm ∧ tm.timer = some 0 ∧ reached (tst tm) 0 = true)
    ∧ (Issues (tst (tcore [0x0583])) 0 (tcore [0x0583]) .fence 0x0583 0 ∧ (tcore [0x0583]).vec.pipes = [])
    ∧ (Issues (tst r) 0 r .reti 0x0500 0 ∧ r.k = true)
    ∧ (Issues (tst (tcore [0x0A00])) 0 (tcore [0x0A00]) .movc 0x0A00 0 ∧ (tcore [0x0A00]).k = true)
    ∧ (Issues (tst u) 0 u .movc 0x0A80 0 ∧ u.k = false ∧ kernelReg (fld 0x0A80 8 4) = false ∧ fld 0x0A80 8 4 ≠ 0)
    ∧ Issues (tst (tcore [0x08F0])) 0 (tcore [0x08F0]) .movc 0x08F0 0 :=
  ⟨⟨issues_of rfl rfl rfl, by decide⟩, ⟨issues_of rfl rfl rfl, rfl⟩, stands_of rfl rfl, ⟨issues_of rfl rfl rfl, by decide⟩,
    ⟨issues_of rfl rfl rfl, by decide⟩, stands_of rfl rfl, ⟨rfl, rfl, by decide⟩, ⟨issues_of rfl rfl rfl, rfl⟩, ⟨issues_of rfl rfl rfl, rfl⟩,
    ⟨issues_of rfl rfl rfl, rfl⟩, ⟨issues_of rfl rfl rfl, rfl, rfl, by decide⟩, issues_of rfl rfl rfl⟩

/-- SEV to position 7 of its cluster, to the group, and to a position outside. -/
theorem test_sev :
    let c := tcore [0x0487]
    let s := { tst c with cores := [(0, c), (7, c)] }
    (Issues s 0 c .sev 0x0487 0 ∧ coreKind 0 ≠ 2 ∧ sevAt s 0 7 = some 7 ∧ tget s.cores 7 = some c)
    ∧ Issues (tst (tcore [0x04A0])) 0 (tcore [0x04A0]) .sev 0x04A0 0 ∧ 7 ∈ sevGroup s 0
    ∧ (Issues (tst (tcore [0x0488])) 0 (tcore [0x0488]) .sev 0x0488 0 ∧ bitOf 0x0488 5 = false ∧ sevAt (tst c) 0 8 = none ∧ c.exl = false) :=
  ⟨⟨⟨rfl, rfl, rfl, rfl⟩, by decide, rfl, rfl⟩, issues_of rfl rfl rfl, by decide, issues_of rfl rfl rfl, rfl, rfl, rfl⟩

/-- TRAP 63, BREAK, a word that is no instruction, and an interrupt that waits at a core in WFE. -/
theorem test_exceptions :
    let i := { tcore [] with ie := true, irqDispatch := true, run := .wfe }
    Issues (tst (tcore [0x057F])) 0 (tcore [0x057F]) .trap 0x057F 0 ∧ Issues (tst (tcore [0x05C0])) 0 (tcore [0x05C0]) .brk 0x05C0 0
    ∧ (tcore [0x057F]).exl = false ∧ fetchAt 0 (tcore [0]) 0 = .ins none 0 0
    ∧ (i.ie = true ∧ i.vec.links = [] ∧ irqCode i = some Exc.dispatch) :=
  ⟨issues_of rfl rfl rfl, issues_of rfl rfl rfl, rfl, rfl, rfl, rfl, rfl⟩

/-- The loads and stores at the first words of data memory, and at its last ones. -/
theorem test_loads_and_stores :
    let lo := fun (ws : List Nat) => setA (tcore ws) 0 0x100000
    let hi := fun (ws : List Nat) (k : Nat) => setA (tcore ws) 0 (0x1C0000 - k)
    (Issues (tst (lo [0x3000])) 0 (lo [0x3000]) .ld 0x3000 0 ∧ DataWords 0 (lo [0x3000]) (eaOf (lo [0x3000]) 0x3000 0 1).1 1)
    ∧ (Issues (tst (hi [0x3008] 2)) 0 (hi [0x3008] 2) .ld 0x3008 0 ∧ DataWords 0 (hi [0x3008] 2) (eaOf (hi [0x3008] 2) 0x3008 0 2).1 2)
    ∧ (Issues (tst (hi [0x3808] 4)) 0 (hi [0x3808] 4) .ldm 0x3808 0 ∧ DataWords 0 (hi [0x3808] 4) (eaOf (hi [0x3808] 4) 0x3808 0 4).1 4
        ∧ (eaOf (hi [0x3808] 4) 0x3808 0 4).1 % 4 = 0)
    ∧ (Issues (tst (lo [0x4000])) 0 (lo [0x4000]) .acld 0x4000 0 ∧ DataWords 0 (lo [0x4000]) (eaOf (lo [0x4000]) 0x4000 0 5).1 5)
    ∧ (Issues (tst (lo [0x4800])) 0 (lo [0x4800]) .acldn 0x4800 0 ∧ laneChk 0 (lo [0x4800]) (acnAddr (lo [0x4800]) 0x4800) 9 = .ok)
    ∧ (Issues (tst (hi [0x3400] 1)) 0 (hi [0x3400] 1) .st 0x3400 0 ∧ DataWords 0 (hi [0x3400] 1) (eaOf (hi [0x3400] 1) 0x3400 0 1).1 1)
    ∧ (Issues (tst (lo [0x3C00])) 0 (lo [0x3C00]) .stm 0x3C00 0 ∧ DataWords 0 (lo [0x3C00]) (eaOf (lo [0x3C00]) 0x3C00 0 2).1 2
        ∧ (eaOf (lo [0x3C00]) 0x3C00 0 2).1 % 2 = 0)
    ∧ (Issues (tst (hi [0x4400] 5)) 0 (hi [0x4400] 5) .acst 0x4400 0 ∧ DataWords 0 (hi [0x4400] 5) (eaOf (hi [0x4400] 5) 0x4400 0 5).1 5)
    ∧ (Issues (tst (hi [0x4C00] 5)) 0 (hi [0x4C00] 5) .acstn 0x4C00 0 ∧ laneChk 0 (hi [0x4C00] 5) (acnAddr (hi [0x4C00] 5) 0x4C00) 9 = .ok) :=
  ⟨⟨issues_of rfl rfl rfl, words_of (by decide)⟩, ⟨issues_of rfl rfl rfl, words_of (by decide)⟩,
    ⟨issues_of rfl rfl rfl, words_of (by decide), by decide⟩, ⟨issues_of rfl rfl rfl, words_of (by decide)⟩,
    ⟨issues_of rfl rfl rfl, by decide⟩, ⟨issues_of rfl rfl rfl, words_of (by decide)⟩,
    ⟨issues_of rfl rfl rfl, words_of (by decide), by decide⟩, ⟨issues_of rfl rfl rfl, words_of (by decide)⟩,
    ⟨issues_of rfl rfl rfl, by decide⟩⟩

/-- The stack with its frame just above SLIM (CALL of D0 and PUSHM of D0 push 3 words and 1 word), and the pops at the top of data
memory. -/
theorem test_stack :
    let c := setA (tcore [0x7000, 1]) 7 0x100003
    let p := setA (tcore [0x7C00, 1]) 7 0x100001
    let t := fun (ws : List Nat) (k : Nat) => setA (tcore ws) 7 (0x1C0000 - k)
    (Issues (tst c) 0 c .call 0x7000 1 ∧ maskWords 1 = 1 ∧ 3 ≤ areg c 7 ∧ DataWords 0 c (areg c 7 - 3) 3 ∧ c.slim.toNat + 3 ≤ areg c 7)
    ∧ (Issues (tst p) 0 p .pushm 0x7C00 1 ∧ 1 ≤ areg p 7 ∧ DataWords 0 p (areg p 7 - 1) 1 ∧ p.slim.toNat + 1 ≤ areg p 7)
    ∧ (Issues (tst (t [0x7400, 1] 3)) 0 (t [0x7400, 1] 3) .retm 0x7400 1 ∧ DataWords 0 (t [0x7400, 1] 3) (areg (t [0x7400, 1] 3) 7) 3)
    ∧ (Issues (tst (t [0x0600] 2)) 0 (t [0x0600] 2) .ret 0x0600 0 ∧ DataWords 0 (t [0x0600] 2) (areg (t [0x0600] 2) 7) 2)
    ∧ (Issues (tst (t [0x7E00, 1] 1)) 0 (t [0x7E00, 1] 1) .popm 0x7E00 1 ∧ DataWords 0 (t [0x7E00, 1] 1) (areg (t [0x7E00, 1] 1) 7) 1) :=
  ⟨⟨issues_of rfl rfl rfl, by decide, by decide, words_of (by decide), by decide⟩, ⟨issues_of rfl rfl rfl, by decide, words_of (by decide), by decide⟩,
    ⟨issues_of rfl rfl rfl, words_of (by decide)⟩, ⟨issues_of rfl rfl rfl, words_of (by decide)⟩, ⟨issues_of rfl rfl rfl, words_of (by decide)⟩⟩

/-- The string instructions with D6 = 0 and with D6 = 1. -/
theorem test_strings :
    let c := fun (w : Nat) => setA (setA (setD (tcore [w]) 6 1) 4 0x100000) 5 0x1BFFFF
    (∀ x ∈ [((0x7800 : Nat), SRow.movs), (0x7900, .fills), (0x7A00, .cmps), (0x7B40, .scans)],
      Issues (tst (tcore [x.1])) 0 (tcore [x.1]) x.2 x.1 0 ∧ Issues (tst (c x.1)) 0 (c x.1) x.2 x.1 0)
    ∧ dreg (tcore [0x7800]) 6 = 0 ∧ dreg (c 0x7800) 6 ≠ 0 ∧ DataWords 0 (c 0x7800) (areg (c 0x7800) 4) 1
    ∧ DataWords 0 (c 0x7800) (areg (c 0x7800) 5) 1 := by
  refine ⟨?_, by decide, by decide, words_of (by decide), words_of (by decide)⟩
  intro x hx
  simp only [List.mem_cons, List.not_mem_nil, or_false] at hx
  rcases hx with rfl | rfl | rfl | rfl <;> exact ⟨issues_of rfl rfl rfl, issues_of rfl rfl rfl⟩

/-- A one-word load through the window onto the last word of the populated DRAM, in a window of the function. -/
theorem test_window_load :
    let c := { setA (tcore [0x3000]) 0 0xFFFFFF with winb := 0x3FFF }
    let s := { tst c with fns := { (tst c).fns with windows := [(0, [⟨0, 2 ^ 38⟩])] } }
    bitOf 0x3000 3 = false ∧ winBase ≤ (eaOf c 0x3000 0 1).1 ∧ (eaOf c 0x3000 0 1).1 < 2 ^ 24
    ∧ winAddr c (eaOf c 0x3000 0 1).1 + 2 = dramSize s ∧ winOk s c.fntag.toNat (winAddr c (eaOf c 0x3000 0 1).1) 2 = true
    ∧ poisonedIn s (winAddr c (eaOf c 0x3000 0 1).1) 2 = false
    ∧ Issues s 0 c .ld 0x3000 0 ∧ Stands { s with cores := [(0, { c with run := .load })] } 0 { c with run := .load } .load .ld 0x3000 0 :=
  ⟨by decide, by decide, by decide, by decide, by decide, by decide, ⟨rfl, rfl, rfl, rfl⟩, rfl, rfl, rfl⟩


/-! ## Vector instructions -/

/-- A tile whose vectors are `v`, and whose A0 is the first word of data memory. -/
def vcore (w1 w2 : Nat) (v : Vec) : Core := { setA (tcore [w1, w2]) 0 0x100000 with vec := v }
/-- One element; V1 holds 1 in it. -/
def vone : Vec := setLane (setVcr {} 0 1) 1 0 1

/-- A lane result that is no trap. -/
def isVal : Arith → Bool
  | .val _ _ _ => true
  | .trap _ => false

/-- One word pair of each short lane operation that traps on no element. -/
theorem test_short_lanes : ∀ x ∈ [(SRow.varith, 0x8080, 0x1000), (.vlogic, 0x8480, 0x1000), (.vscale, 0x8C84, 0x0120), (.vdot4, 0x9480, 0x1000),
    (.vdiv, 0x9C80, 0x1000), (.vhash, 0xBC84, 0x0010), (.vconv, 0xD084, 0x0040)],
    Issues (tst (vcore x.2.1 x.2.2 vone)) 0 (vcore x.2.1 x.2.2 vone) x.1 x.2.1 x.2.2 ∧ vaL x.2.2 = false
    ∧ vactives (vcore x.2.1 x.2.2 vone).vec (vaPg x.2.2) = [0] ∧ irqCode (vcore x.2.1 x.2.2 vone) = none
    ∧ ∃ y sat wn, laneOp x.1 x.2.2 vone (vlane vone (vaA x.2.1) 0) (shortB (vcore x.2.1 x.2.2 vone) x.2.2 0) (vlane vone (vaD x.2.1) 0)
      = .val y sat wn := by
  intro x hx
  simp only [List.mem_cons, List.not_mem_nil, or_false] at hx
  rcases hx with rfl | rfl | rfl | rfl | rfl | rfl | rfl <;> exact ⟨issues_of rfl rfl rfl, rfl, rfl, rfl, _, _, _, rfl⟩

/-- Every short form at VIDX = VL. -/
theorem test_finished : ∀ x ∈ [(SRow.varith, 0x8080, 0x1000), (.vlogic, 0x8480, 0x1000), (.vcmp, 0x88C0, 0x1052), (.vscale, 0x8C84, 0x0120),
    (.vmulw, 0x9080, 0x1000), (.vdot4, 0x9480, 0x1000), (.vdot2w, 0x9900, 0x2000), (.vdiv, 0x9C80, 0x1000), (.vld, 0xA080, 0),
    (.vst, 0xA480, 0), (.vldff, 0xA880, 0x0020), (.vgather, 0xAC80, 0), (.vgatherff, 0xB080, 0x0020), (.vscatter, 0xB480, 0),
    (.vcompact, 0xB884, 0), (.vhash, 0xBC84, 0x0010), (.vsel, 0xC480, 0x1070), (.vpred, 0xC9C8, 0x0400), (.vxfer, 0xCC04, 0xC000),
    (.vconv, 0xD084, 0x0040)],
    Issues (tst (vcore x.2.1 x.2.2 (setVcr vone 1 1))) 0 (vcore x.2.1 x.2.2 (setVcr vone 1 1)) x.1 x.2.1 x.2.2
    ∧ isLong x.1 x.2.2 = false ∧ vlOf (setVcr vone 1 1) ≤ vidxOf (setVcr vone 1 1) := by
  intro x hx
  simp only [List.mem_cons, List.not_mem_nil, or_false] at hx
  rcases hx with rfl | rfl | rfl | rfl | rfl | rfl | rfl | rfl | rfl | rfl | rfl | rfl | rfl | rfl | rfl | rfl | rfl | rfl | rfl | rfl <;>
    exact ⟨issues_of rfl rfl rfl, rfl, by decide⟩

/-- VSEL, VCONV PTOB, VCMP, VPRED, VMULW, VDOT2W, VCOMPACT, the eight functions of VXFER, VCTL's read and SBASE. -/
theorem test_vector_words : ∀ x ∈ [(SRow.vsel, 0xC480, 0x1070), (.vconv, 0xD080, 0x1050), (.vcmp, 0x88C0, 0x1052), (.vpred, 0xC9C8, 0x0400),
    (.vmulw, 0x9080, 0x1000), (.vdot2w, 0x9900, 0x2000), (.vcompact, 0xB884, 0), (.vxfer, 0xCC04, 0xC000), (.vxfer, 0xCC44, 0xC000),
    (.vxfer, 0xCC84, 0xC000), (.vxfer, 0xCCC0, 0x0700), (.vxfer, 0xCD00, 0x0700), (.vxfer, 0xCD40, 0x0700), (.vxfer, 0xCD80, 0x0700),
    (.vxfer, 0xCDC4, 0), (.vctl, 0xD400, 0x0000), (.vctl, 0xD480, 0x0400)],
    Issues (tst (vcore x.2.1 x.2.2 vone)) 0 (vcore x.2.1 x.2.2 vone) x.1 x.2.1 x.2.2 ∧ vidxOf (vcore x.2.1 x.2.2 vone).vec < vlOf vone := by
  intro x hx
  simp only [List.mem_cons, List.not_mem_nil, or_false] at hx
  rcases hx with rfl | rfl | rfl | rfl | rfl | rfl | rfl | rfl | rfl | rfl | rfl | rfl | rfl | rfl | rfl | rfl | rfl <;>
    exact ⟨issues_of rfl rfl rfl, by decide⟩
/-- VDOT2W of zero pairs stays in 144 bits. -/
theorem test_dot2w_narrows : narrow144 (vmOvf vone) 0 = some (0, false) := by decide

/-- The vector loads and stores of one element at the first bytes of data memory; an index that is NULL makes no access. -/
theorem test_vector_memory : ∀ x ∈ [(SRow.vld, 0xA080, 0, false), (.vgather, 0xAC80, 0, true), (.vldff, 0xA880, 0x0020, false),
    (.vgatherff, 0xB080, 0x0020, true), (.vst, 0xA480, 0, false), (.vscatter, 0xB480, 0, true)],
    Issues (tst (vcore x.2.1 x.2.2.1 vone)) 0 (vcore x.2.1 x.2.2.1 vone) x.1 x.2.1 x.2.2.1 ∧ vidxOf vone < vlOf vone
    ∧ vactives vone (vmPg x.2.2.1) = [0] ∧ vmElem 0 (vcore x.2.1 x.2.2.1 vone) x.2.2.2 x.2.1 x.2.2.1 0 = .ok (some 0x200000) := by
  intro x hx
  simp only [List.mem_cons, List.not_mem_nil, or_false] at hx
  rcases hx with rfl | rfl | rfl | rfl | rfl | rfl <;> exact ⟨issues_of rfl rfl rfl, by decide, rfl, rfl⟩
/-- A first-fault load of two elements, whose second lies above the data bound of user mode. -/
theorem test_first_fault_stops :
    ∀ x ∈ [(SRow.vldff, 0xA880, 0x0020, false, setVcr vone 0 2), (.vgatherff, 0xB080, 0x0020, true, setLane (setVcr vone 0 2) 0 1 1)],
    let c := { vcore x.2.1 x.2.2.1 x.2.2.2.2 with k := false, uplo := 0, uphi := 0x7FFFF, udlo := 0x100000, udhi := 0x100004 }
    Issues (tst c) 0 c x.1 x.2.1 x.2.2.1 ∧ vidxOf c.vec < vlOf c.vec ∧ vactives c.vec (vmPg x.2.2.1) = [0, 1]
    ∧ vmElem 0 c x.2.2.2.1 x.2.1 x.2.2.1 0 = .ok (some 0x200000) ∧ vmElem 0 c x.2.2.2.1 x.2.1 x.2.2.1 1 = .error ⟨1, 0, 3, 4, 0x100004⟩ := by
  intro x hx
  simp only [List.mem_cons, List.not_mem_nil, or_false] at hx
  rcases hx with rfl | rfl <;> exact ⟨issues_of rfl rfl rfl, by decide, rfl, rfl, rfl⟩
theorem test_null_index : vmElem 0 (vcore 0xAC80 0 (setLane vone 0 0 nullLane)) true 0xAC80 0 0 = .ok none := rfl

/-- A write of VL by VCTL: 32 is taken, 33 is refused. -/
theorem test_vctl :
    let c := fun (x : Nat) => setD (vcore 0xD440 0 vone) 0 x
    (Issues (tst (c 32)) 0 (c 32) .vctl 0xD440 0 ∧ vcrBad 0 (dreg (c 32) 0) = false)
    ∧ (Issues (tst (c 33)) 0 (c 33) .vctl 0xD440 0 ∧ vcrBad 0 (dreg (c 33) 0) = true ∧ (c 33).exl = false) :=
  ⟨⟨issues_of rfl rfl rfl, by decide⟩, issues_of rfl rfl rfl, by decide, rfl⟩

/-- Two elements; the second holds the largest number in V0, V1 and V2. -/
def vbig : Vec :=
  let big : Lane := BitVec.ofNat 72 (2 ^ 71 - 1)
  setLane (setLane (setLane (setLane (setVcr {} 0 2) 1 0 1) 0 1 big) 1 1 big) 2 1 big
/-- Two elements, of which the second traps: a sum and a product out of the lane's range, a dot product out of it, a division by 0. -/
theorem test_element_faults :
    ∀ x ∈ [(SRow.varith, 0x8080, 0x1000, vbig, St.arithOverflow), (.vscale, 0x8C84, 0x0120, vbig, St.arithOverflow),
      (.vdot4, 0x9480, 0x1000, vbig, St.arithOverflow), (.vdiv, 0x9C80, 0x1000, setLane vbig 1 1 0, St.divideByZero)],
    let c := vcore x.2.1 x.2.2.1 x.2.2.2.1
    Issues (tst c) 0 c x.1 x.2.1 x.2.2.1 ∧ vactives c.vec (vaPg x.2.2.1) = [0, 1]
    ∧ isVal (laneOp x.1 x.2.2.1 c.vec (vlane c.vec (vaA x.2.1) 0) (shortB c x.2.2.1 0) (vlane c.vec (vaD x.2.1) 0)) = true
    ∧ laneOp x.1 x.2.2.1 c.vec (vlane c.vec (vaA x.2.1) 1) (shortB c x.2.2.1 1) (vlane c.vec (vaD x.2.1) 1) = .trap x.2.2.2.2 := by
  intro x hx
  simp only [List.mem_cons, List.not_mem_nil, or_false] at hx
  rcases hx with rfl | rfl | rfl | rfl <;> exact ⟨issues_of rfl rfl rfl, rfl, by decide, by decide⟩

/-- VPIPE with one place free and with none, on the last block of data memory; and a block of each pipe command that ends with an outcome: one raw
element, one element to code, one row, two runs of one row, and an ESCAPE count. A count of 0 has none. -/
theorem test_pipes :
    let q : PipeCmd := ⟨0, 0x100000, [], 0x100000, 0x1BFFFF⟩
    let c := fun (l : List PipeCmd) => { setA (tcore [0xD800, 0]) 0 (0x1C0000 - 16) with vec := { vone with pipes := l } }
    let p := fun (fn w1 n : Nat) => (⟨fn, 0x100000, [0, w1, 0x100, 0x10, 0x200, 0x10, 0x300, 0x10, n, 1, 1, 0, 0, 0, 0, 0], 0x100000, 0x1BFFFF⟩ : PipeCmd)
    (Issues (tst (c [q])) 0 (c [q]) .vpipe 0xD800 0 ∧ DataWords 0 (c [q]) (areg (c [q]) 0) 16)
    ∧ (Issues (tst (c [q, q])) 0 (c [q, q]) .vpipe 0xD800 0 ∧ DataWords 0 (c [q, q]) (areg (c [q, q]) 0) 16)
    ∧ (∃ o, pipeDecode (p 0 3 1) [] = some o ∧ o.loose = []) ∧ (∃ o, pipeEncode (p 1 0xFF0 1) [] = some o ∧ o.loose = [])
    ∧ (∃ o, pipeSort (p 2 1 32) [] = some o ∧ o.loose = []) ∧ (∃ o, pipeMerge (p 3 9 2) [] = some o ∧ o.loose = [])
    ∧ (∃ o, pipeEscpop (p 4 0 127) [] = some o ∧ o.loose = []) ∧ pipeSort (p 2 1 0) [] = none :=
  ⟨⟨issues_of rfl rfl rfl, words_of (by decide)⟩, ⟨issues_of rfl rfl rfl, words_of (by decide)⟩, ⟨_, rfl, rfl⟩, ⟨_, rfl, rfl⟩, ⟨_, rfl, rfl⟩,
    ⟨_, rfl, rfl⟩, ⟨_, rfl, rfl⟩, rfl⟩

/-- Streams S0 to S2 of one element each, 16 words apart. -/
def vstreams : Vec :=
  [(16, 0), (17, 0x10), (19, 1), (20, 16), (21, 0x10), (23, 1), (24, 32), (25, 0x10), (27, 1)].foldl (fun v p => setVcr v p.1 p.2) vone
/-- A link that writes Q of each row, as the first of its chain; and a second link that reads Q. -/
theorem test_links : (∀ x ∈ [(SRow.varith, 0x8200, 0x1008), (.vlogic, 0x8600, 0x1008), (.vcmp, 0x8A00, 0x1008), (.vscale, 0x8E00, 0x0018),
    (.vdot4, 0x9600, 0x1008), (.vdiv, 0x9E00, 0x1008), (.vhash, 0xBE00, 0x0008), (.vconv, 0xD200, 0x0018)],
    Issues (tst (vcore x.2.1 x.2.2 vstreams)) 0 (vcore x.2.1 x.2.2 vstreams) x.1 x.2.1 x.2.2 ∧ vaL x.2.2 = true
    ∧ VLink.writesQ ⟨x.1, x.2.1, x.2.2⟩ = true ∧ linkOk [] ⟨x.1, x.2.1, x.2.2⟩ = true)
    ∧ linkOk [⟨.varith, 0x8200, 0x1028⟩] ⟨.vlogic, 0x8620, 0x1008⟩ = true := by
  refine ⟨fun x hx => ?_, by decide⟩
  simp only [List.mem_cons, List.not_mem_nil, or_false] at hx
  rcases hx with rfl | rfl | rfl | rfl | rfl | rfl | rfl | rfl <;> exact ⟨issues_of rfl rfl rfl, rfl, rfl, rfl⟩
/-- A whole chain of one link of each row on one element, S2 ← S0 fn S1. -/
theorem test_chains : ∀ x ∈ [(SRow.varith, 0x8080, 0x1008), (.vlogic, 0x8480, 0x1008), (.vcmp, 0x8880, 0x1008), (.vscale, 0x8C80, 0x0018),
    (.vdot4, 0x9480, 0x1008), (.vhash, 0xBC80, 0x0008), (.vconv, 0xD080, 0x0018), (.vdiv, 0x9C80, 0x1008), (.vcompact, 0xB880, 0x1008)],
    let l : VLink := ⟨x.1, x.2.1, x.2.2⟩
    Issues (tst (vcore x.2.1 x.2.2 vstreams)) 0 (vcore x.2.1 x.2.2 vstreams) x.1 x.2.1 x.2.2 ∧ isLong x.1 x.2.2 = true
    ∧ l.readsA = false ∧ l.readsB = false ∧ l.writesQ = false ∧ (streamOf vstreams (vaA x.2.1)).count = 1 ∧ vidxOf vstreams = 0
    ∧ lengthFault vstreams 1 [l] = none ∧ destMeets vstreams 1 [l] = false ∧ accessFault 0 (vcore x.2.1 x.2.2 vstreams) 0 [l] = none
    ∧ elemOk 0 (vcore x.2.1 x.2.2 vstreams) (streamAt (streamOf vstreams (vaD x.2.1)) 0) 9 = true
    ∧ isVal (laneOp .varith 0x1008 vstreams 0 0 0) = true := by
  intro x hx
  simp only [List.mem_cons, List.not_mem_nil, or_false] at hx
  rcases hx with rfl | rfl | rfl | rfl | rfl | rfl | rfl | rfl | rfl <;>
    exact ⟨issues_of rfl rfl rfl, rfl, rfl, rfl, rfl, rfl, rfl, rfl, by decide, rfl, rfl, by decide⟩

/-- VMEMB and LOOKUP with the smallest directory at the first bytes of local store: a key that holds NULL, a key whose slot is empty, and one
found at entry 0. -/
theorem test_membership :
    let v := fun (key : Lane) => setVcr (setVcr (setLane vone 2 0 key) 12 (8 + 32)) 11 0x10
    let c := fun (w2 : Nat) (key : Lane) => vcore (if w2 = 0x2000 then 0xC000 else 0xC0C0) w2 (v key)
    let full := { c 0x2080 5 with mem := mput (mput [] 0x200000 9 (2 ^ 71)) (0x200000 + 9 * 256 + 9) 9 5 }
    (Issues (tst (c 0x2000 5)) 0 (c 0x2000 5) .vmemb 0xC000 0x2000 ∧ Issues (tst (c 0x2080 5)) 0 (c 0x2080 5) .vmemb 0xC0C0 0x2080)
    ∧ vidxOf (v 5) < vlOf (v 5) ∧ vaFn 0x2080 / 8 = 1 ∧ fld (vcr (v 5) 12) 4 0 = 8 ∧ fld (vcr (v 5) 12) 7 5 = 1 ∧ fld (vcr (v 5) 12) 12 8 = 0
    ∧ vactives (v 5) 0 = [0] ∧ nullKey [vlane (v nullLane) 2 0] = true ∧ nullKey [vlane (v 5) 2 0] = false
    ∧ dirProbe (tst (c 0x2080 5)) 0 (c 0x2080 5) 0 0x200000 8 18 0 [5] 256 0 = .ok none
    ∧ dirProbe (tst full) 0 full 0 0x200000 8 18 0 [5] 256 0 = .ok (some 0) :=
  ⟨⟨issues_of rfl rfl rfl, issues_of rfl rfl rfl⟩, by decide, by decide, by decide, by decide, by decide, rfl, by decide, by decide, rfl, rfl⟩
/-- SRCH in an array of one element, and of a NULL lane. -/
theorem test_search :
    let v := [(20, 0), (21, 0x8010), (23, 1)].foldl (fun v p => setVcr v p.1 p.2) vone
    let c := vcore 0xC084 0x1100 v
    Issues (tst c) 0 c .vmemb 0xC084 0x1100 ∧ vidxOf v < vlOf v ∧ vaFn 0x1100 / 8 = 2 ∧ srchWaits (tst c) 0 c (streamOf v 1) = false
    ∧ vactives v 0 = [0] ∧ vlane v 1 0 ≠ nullLane ∧ (streamOf v 1).count = 1 ∧ srchChk (tst c) 0 c 0 (streamOf v 1) 0 = .ok () :=
  ⟨issues_of rfl rfl rfl, by decide, by decide, rfl, rfl, by decide, rfl, rfl⟩

/-! ## Host queues -/

/-- The link is up in Serve; queue 0 of FN 0 has SQ and CQ rings of 16 slots, and queue 1 is as `q`. -/
def qst (q : HostQ) : State :=
  regPut (regPut (regPut { State.reset with
    pwr := { State.reset.pwr with por := false, perst := false, linkRdy := true, mode := Mode.serve },
    fns := { State.reset.fns with queueRange := [(0, (0, 4096))] },
    qm := { State.reset.qm with queues := [(0, q)] } } Reg.QM_SQ_BASE 0 0x1000) Reg.QM_CQ_BASE 0 0x2000) Reg.QM_Q_CFG 0 0x404
/-- A descriptor of opcode NOP with OWN = 1. -/
def nopDesc : List Byte := natLE 8 (2 ^ 63 + 0x7F) ++ List.replicate 56 0
/-- A completion entry. -/
def cqe : CqEntry := ⟨2 ^ 63, 0, 0, 0, true⟩

/-- An active queue; a last position and one past the ring, 4 inline slots and 5; a disabled queue; a function that is not there. -/
theorem test_doorbells :
    liveQueue (qst { st := .active }) 0 0 = some 0 ∧ liveQueue (qst {}) 0 0 = none ∧ liveQueue (qst { st := .active }) 255 0 = none
    ∧ sqSize (qst {}) 0 = 16 ∧ cqSize (qst {}) 0 = 16 ∧ fld 0x4000F 15 0 < sqSize (qst {}) 0 ∧ fld 0x4000F 18 16 ≤ 4
    ∧ fld 0x40010 15 0 ≥ sqSize (qst {}) 0 ∧ fld 0x5000F 18 16 > 4
    ∧ unfetched (qst { st := .active, head := 14 }) 0 14 15 = true := by decide

/-- A ring with one free slot and two entries in overflow: HEAD moves on and one entry finds a slot. -/
theorem test_overflow :
    let s := qst { st := .active, cqTail := 15, cqHead := 1, overflow := [cqe, cqe] }
    liveQueue s 0 0 = some 0 ∧ (getQ s 0).overflow ≠ [] ∧ (getQ s 0).cqTail < cqSize s 0 ∧ (getQ s 0).cqHead < cqSize s 0
    ∧ ringFull s 0 = false ∧ ringFull (qst { cqTail := 15, cqHead := 0 }) 0 = true ∧ (getQ (qst {}) 0).overflow = []
    ∧ (getQ (moveOverflow 2 s 0) 0).overflow.length = 1 := by decide

/-- A host write of QM_Q_CTL: queue 0 passes the checks; a queue with no rings fails the first. -/
theorem test_queue_enable :
    Reaches (qst {}) (.host 0) Reg.QM_Q_CTL ∧ devQueue (qst {}) 0 0 = some 0 ∧ bitOf (2 ^ 31) 31 = true ∧ (getQ (qst {}) 0).st = .disabled
    ∧ fld (selGet (dropHalves (qst {}) (.host 0)) (.host 0) Reg.QM_Q_SEL) 11 0 = 0
    ∧ enableErr (dropHalves (qst {}) (.host 0)) 0 0 0 = 0 ∧ enableErr (qst {}) 0 1 1 = 1 := by
  refine ⟨⟨rfl, by decide, fun i h => ?_⟩, by decide⟩
  rfl

/-- A turn of an active queue with one descriptor; a held descriptor for which there is room; an expired key; an entry not signalled. -/
theorem test_queue_engine :
    let s := qst { st := .active, tail := 1, unsig := 1 }
    let h := fun w => { s with qm := { s.qm with held := [⟨0, nopDesc, w, []⟩] } }
    nextQueue s = some 0
    ∧ ((h .flowFull).qm.held.find? (fun x => (x.why == .flowFull && flowRoom (h .flowFull) x.queue (newItem (h .flowFull) x.queue x.desc))
        && mayConsume (h .flowFull) x.queue)).isSome = true ∧ (checkIn (h .flowFull) 0 nopDesc).2 = none
    ∧ ((h .ikeyFull).qm.held.find? (fun x => x.why == .ikeyFull && mayConsume (h .ikeyFull) x.queue)).isSome = true
    ∧ (checkIn (h .ikeyFull) 0 nopDesc).2 = none
    ∧ 0 + rfld s Reg.QM_IKEY_CTL 0 11 0 * 1000000000 ≤ now { s with pwr := { s.pwr with devtime := 4096000000000 } }
    ∧ (getQ s 0).unsig > 0 ∧ (getQ s 0).unsigAt + 1000 * rfld s Reg.QM_Q_CFG 0 43 32 ≤ now s := by
  exact ⟨rfl, rfl, rfl, rfl, rfl, by decide, by decide, by decide⟩

/-! ## Plans and their clauses -/

/-- A memory, or `n` bytes, that hold fields: offset, bytes, value. -/
def tput (fs : List (Nat × Nat × Nat)) : Mem := fs.foldl (fun m f => mput m f.1 f.2.1 f.2.2) []
def tbytes (n : Nat) (fs : List (Nat × Nat × Nat)) : List Byte := mreads (tput fs) 0 n
/-- A host item of queue 0 whose thread has not run. -/
def titem (op sc : Nat) (fs : List (Nat × Nat × Nat)) : Item :=
  { fn := 0, queue := 0, localQ := 0, tag := 1, opcode := op, subcode := sc, lc := 0, deadline := 2 ^ 40, ordered := false, noIrq := false,
    flowKey := none, ikey := none, desc := tbytes 64 fs, entry := some 0 }
/-- The running entry of item 1 on tile 0. -/
def tent (task : Option Nat) : Entry :=
  { st := .running, kind := 0, lc := 0, fn := 0, item := 1, task := task, deadline := 0, eff := 0, arrseq := 0, arrival := 0, tile := some 0,
    since := 0 }
/-- Item 1 in a state: its thread, or the thread of its task 0, runs. -/
def ist (s : State) (task : Option Nat) (it : Item) : State :=
  { s with
    qm := { s.qm with items := [(1, it)] },
    sched := { s.sched with
      entries := [(0, tent task)] } }
/-- A clause record: header and configuration at an image offset. -/
def tclause (o kind len pos st nin nout work : Nat) (cfg : List (Nat × Nat × Nat)) : List (Nat × Nat × Nat) :=
  [(o, 1, kind), (o + 2, 2, len), (o + 5, 1, pos), (o + 6, 2, 1), (o + 12, 4, st), (o + 16, 2, nin), (o + 18, 2, nout), (o + 20, 4, work)]
    ++ cfg.map (fun f => (o + 32 + f.1, f.2))
/-- An image: one pipeline from TABLE slot 0: SCAN of column 0, FILTER NOT_NULL, COMPUTE of column 1 as the sum of column 0 with itself,
and OUTPUT of column 1 to slot 1. `byNum` takes the row number from column 0. -/
def timg (byNum : Nat) : Mem :=
  tput ([(0, 4, 0x6E616C50), (4, 2, 1), (8, 4, 448), (12, 1, 1), (14, 2, 4), (17, 1, 8), (18, 2, 2), (20, 4, 64), (24, 4, 80), (32, 4, 344),
      (36, 4, 408), (40, 4, 440), (44, 4, 1), (48, 2, 0xFFFF), (66, 1, 4), (70, 2, 1)]
    ++ tclause 80 1 16 0 0 0 1 18560 [(0, 1, 1), (10, 1, 1)] ++ tclause 128 2 72 1 0 1 0 0 [(0, 2, 0x0101), (40, 1, 9)]
    ++ tclause 232 3 32 2 0 1 1 0 [(0, 1, 1), (8, 2, 0x0101)] ++ tclause 296 12 16 3 0 1 0 0 [(0, 1, 1), (2, 2, 1), (4, 1, byNum), (8, 1, 1)]
    ++ [(344, 1, 2), (347, 1, 1), (376, 1, 3), (379, 1, 1), (408, 4, 0x10001), (412, 4, 32768), (424, 8, 2 ^ 64 - 1), (432, 8, 2 ^ 64 - 1)])
/-- A LOAD_PLAN of PLAN_ID 3 from the bytes at 0x8000 of host memory. -/
def lpItem : Item := titem 2 0 [(32, 2, 3), (36, 4, 448), (40, 8, 0x8000)]
def lpSt (img : Mem) : State := ist { qst { st := .active } with host := mcopy [] img 0 0x8000 448 } none lpItem

/-- The image is well formed and is loaded; with no magic number the early checks still pass and the image fails; with another length they
fail. -/
theorem test_load_plan :
    itemAt (lpSt (timg 0)) 1 0x02 0 = some lpItem ∧ loadEarly (lpSt (timg 0)) lpItem = none
    ∧ imageCheck (timg 0) 448 [] (heldLayout (lpSt (timg 0)) 0) = none
    ∧ storeFit (lpSt (timg 0)) 448 = some 0
    ∧ mcopy [] (lpSt (timg 0)).host (lpItem.body 40 8) 0 448 = timg 0
    ∧ (allocTables 0 (readImage (timg 0)) [] (readImage (timg 0)).stids (lpSt (timg 0))).isSome = true
    ∧ imageCheck (mput (timg 0) 0 4 0) 448 [] (heldLayout (lpSt []) 0) = some St.planFormat
    ∧ loadEarly (lpSt []) lpItem = some St.planFormat := by decide +kernel

/-- A NOP; an item that is ready and finds a place, or a full ring and full overflow; one that waits for an earlier item of its queue; one
that is held; one that failed. -/
theorem test_commit_points :
    let q := qst { st := .active }
    let nop := titem 0x7F 0 []
    let full := qst { st := .active, cqTail := 15, cqHead := 0, overflow := List.replicate 1024 cqe }
    let rdy := { nop with phase := .ready }
    let after := fun (s : State) => modItem (commitResults (ist s none rdy) 1 rdy) 1 (fun x => { x with reachedAt := now s })
    let two := { q with qm := { q.qm with items := [(1, nop), (2, { rdy with ordered := true })] } }
    itemAt (ist q none nop) 1 0x7F 0 = some nop
    ∧ itemOnTile (ist q none rdy) rdy = true ∧ orderedMay (ist q none rdy) 1 rdy = true ∧ dataMoving (ist q none rdy) 1 = false
    ∧ hasPlace (after q) rdy = true ∧ hasPlace (after full) rdy = false
    ∧ orderedMay two 2 { rdy with ordered := true } = false
    ∧ getItem (ist q none { nop with phase := .held }) 1 = some { nop with phase := .held } ∧ hasPlace (ist q none nop) nop = true
    ∧ ({ rdy with status := 0x302 }).status ≠ 0 ∧ continues (ist q none rdy) rdy = false ∧ endsLater (ist q none rdy) 1 = false := by decide +kernel

/-- Plan 0 of FN 0 in state `st` with an image. -/
def planSt (st : Nat) (img : Mem) (s : State) : State := setPlan s 0 0 { st := st, image := img, imageLen := 448 }
/-- UNLOAD_PLAN of a plan past 1023, in LOADING, ABSENT, and READY; a plan in UNLOADING with no waiting item, one, and a run. -/
theorem test_unload :
    let it := titem 0x03 0 []
    let s := fun st => ist (planSt st (timg 0) (qst { st := .active })) none it
    let u := fun w => setPlan (s 4) 0 0 { st := 4, image := timg 0, imageLen := 448, unloaders := w }
    itemAt (s 2) 1 0x03 0 = some it ∧ 1023 < (titem 0x03 0 [(32, 2, 1024)]).body 32 2 ∧ it.body 32 2 = 0
    ∧ planState (s 1) 0 0 = 1 ∧ planState (s 2) 0 1 = 0 ∧ planState (s 2) 0 0 = 2 ∧ orderedMay (s 2) 1 it = true
    ∧ planActive (u []) 0 0 = 0 ∧ (getPlan (u []) 0 0).map (·.unloaders) = some [] ∧ (getPlan (u [1]) 0 0).map (·.unloaders) = some [1]
    ∧ planActive (setRun (u []) 1 { fn := 0, planId := 0 }) 0 0 ≠ 0 := by decide +kernel

/-- DRAM with a table at 0x1000: one INT72 column, one segment of one row that is deleted. -/
def tdram : Mem :=
  tput [(0x1000, 4, 0x72447444), (0x1004, 2, 1), (0x1006, 2, 1), (0x1008, 8, 1), (0x1010, 4, 1), (0x1018, 8, 0x1080), (0x1020, 8, 0x1100),
    (0x1080, 1, 1), (0x1108, 4, 1), (0x1110, 8, 0x1180), (0x1118, 8, 0x1300), (0x1180, 1, 1), (0x1300, 8, 0x1380), (0x1308, 8, 0x1400), (0x1412, 1, 1)]
/-- RUN_PLAN of plan 0 with the table and an output buffer of `len` bytes. -/
def rpItem (len : Nat) : Item :=
  { titem 0x01 0 [(34, 2, 2), (36, 4, 16), (48, 8, 0x10000)] with
    entry := none,
    params := tbytes 64 [(0, 1, 2), (3, 1, 1), (8, 8, 0x1000), (32, 1, 3), (35, 1, 1), (40, 8, 0x20000), (48, 8, len)] }
/-- The status of a check that fails. -/
def errOf {ε α : Type} : Except ε α → Option ε
  | .ok _ => none
  | .error st => some st
/-- RUN_PLAN passes its checks with the whole of DRAM in FN 0's window; a plan that is ABSENT fails them. -/
theorem test_run_plan :
    let w := fun (s : State) => { s with dram := tdram, fns := { s.fns with windows := [(0, [⟨0, 2 ^ 38⟩])] } }
    let it := rpItem 9
    let s := fun st => ist (w (planSt st (timg 0) (qst { st := .active }))) none it
    getItem (s 2) 1 = some it ∧ headOfFlow (s 2) 1 it = true ∧ planState (s 1) 0 0 = 1
    ∧ errOf (runCheck (s 2) it) = none ∧ errOf (runCheck (s 0) it) = some St.planNotLoaded := by decide +kernel
/-- The run of item 1, of plan 0, with task 0 on tile 0 in state `t`; the time is 1 ms. -/
def clSt (byNum len : Nat) (t : Task) : State :=
  let s := planSt 2 (timg byNum) (ist (qst { st := .active }) (some 0) { rpItem len with phase := .running })
  setRun { s with dram := tdram, pwr := { s.pwr with devtime := 1000000 } } 1
    { fn := 0, planId := 0, granted := [0], tiles := 1, workAddr := 0x10000,
      workLen := 65536, waiting := false, binds := [⟨true, false, 0#72, 0x1000, 0⟩, ⟨true, false, 0#72, 0x20000, len⟩], nsegs := [(0, 1)],
      tasks := [(0, t)], nextTask := 1, started := [(0, 1)] }
def task0 : Task := { pipe := 0, idx := 0, tile := 0 }
/-- A batch of one row, 0 in column 0 and 5 in column 1, at the input of a clause. -/
def batchTask (pos : Nat) : Task := { task0 with st := { inq := [(pos, [⟨1, [{ src := 0, cols := [(0, 0#72), (1, 5#72)] }], 0, 0, 0⟩])] } }

/-- A run that can be granted and one that was; a waiting task and a waiting descriptor; a checkpoint that is due, one that is not, and one
being written. -/
theorem test_grants :
    let s := clSt 0 9 task0
    let wait := match getRun s 1 with
      | some r => setRun { s with plans := { s.plans with grantWait := [1] } } 1 { r with waiting := true, granted := [], tasks := [] }
      | none => s
    let w := fun x => { s with sched := { s.sched with waiters := [x] } }
    grantOrder wait = [1] ∧ (grantItem wait 1).isSome = true ∧ (grantItem s 1).isNone = true
    ∧ (w (.task 1 0)).sched.waiters.find? (waiterMay (w (.task 1 0))) = some (.task 1 0)
    ∧ (w (.desc 0)).sched.waiters.find? (waiterMay (w (.desc 0))) = some (.desc 0)
    ∧ getTask s 1 0 = some task0 ∧ taskRuns s 1 0 = true ∧ task0.since + 1000 * (planImage s 0 0).ckptUs ≤ now s
    ∧ now s < ({ task0 with since := 999999 } : Task).since + 1000 * (planImage s 0 0).ckptUs
    ∧ ((({ task0 with writing := some {} } : Task).writing).map (·.marks)) = some [] := by decide +kernel

/-- The one segment of the table, as a scan keeps it. -/
def tseg : SegView := segView (clSt 0 9 task0) (readSeg tdram (readTable tdram 0x1000) 0) [0]
/-- The first segment, unclaimed; a claimed segment whose one row is deleted; a batch of one row at FILTER, at COMPUTE, and at OUTPUT by row number and in sequence; an
OUTPUT buffer too short. -/
theorem test_row_clauses :
    (ctxAt (clSt 0 9 task0) 1 0 0 Kind.scan).any (fun x =>
      let s := { clSt 0 9 task0 with fns := { (clSt 0 9 task0).fns with windows := [(0, [⟨0, 2 ^ 38⟩])] } }
      inputsEmpty x.t && ! x.t.st.srcDone && (descCheck s (winOk s 0) (scanTable s x).addr).isNone
        && (claimUnit (modSt s 1 0 (fun t => { t with tabOk := true })) 1 0 x.t.pipe x.g).any (fun y => y.1 == 0
          && winOk y.2 0 (scanTable s x).segdir 32 && ! poisonedIn y.2 (scanTable s x).segdir 32
          && (readSeg y.2.dram (scanTable s x) 0).rows != 0 && (segCheck y.2 0 (scanTable s x) (readSeg y.2.dram (scanTable s x) 0) [0]).isNone)) = true
    ∧ (ctxAt (clSt 0 9 { task0 with st := { claim := some 0, seg := some tseg, tabOk := true } }) 1 0 0 Kind.scan).any (fun x =>
      let s := clSt 0 9 { task0 with st := { claim := some 0, seg := some tseg, tabOk := true } }
      inputsEmpty x.t && ! x.t.st.srcDone && x.t.st.claim == some 0 && x.t.st.seg.any (fun v =>
          (errOf (scanBlock (modSt s 1 0 (fun t => { t with tabOk := true })) x (scanTable s x) v 0 0)).isNone)) = true
    ∧ (batchAt (clSt 0 9 (batchTask 1)) 1 0 1 Kind.filter).any (fun y =>
        (setsToCheck y.2.1).isEmpty && (tablesToBuild y.2.1).isEmpty
        && (errOf (termsOver (termEnv y.1 y.2.1 (colsHere y.1 y.2.1) []) (colsHere y.1 y.2.1) (y.2.1.g.post y.2.1.c) y.2.2.rows
          (y.2.1.g.filterTerms y.2.1.c) 0)).isNone) = true
    ∧ (batchAt (clSt 0 9 (batchTask 2)) 1 0 2 Kind.compute).any (fun y =>
        (errOf (copsOver y.2.1.c.ovf y.2.1.c.rnd y.2.1.g.valInfo y.2.1.run.binds (y.2.1.g.cops y.2.1.c) (colsHere y.1 y.2.1)
          y.2.2.rows)).isNone) = true
    ∧ (batchAt (clSt 1 9 (batchTask 3)) 1 0 3 Kind.output).any (fun y => bitOf (y.2.1.g.cb y.2.1.c 4) 0
        && y.2.2.rows.all (fun r => laneInt (rowCol r (y.2.1.g.cb y.2.1.c 5)) == some 0)) = true
    ∧ (batchAt (clSt 0 9 (batchTask 3)) 1 0 3 Kind.output).any (fun y => ! bitOf (y.2.1.g.cb y.2.1.c 4) 0
        && (reuseRanges y.2.1.t.reuse 1 y.2.2.rows).1.length == 1) = true
    ∧ (batchAt (clSt 1 8 (batchTask 3)) 1 0 3 Kind.output).any (fun y =>
        ((y.2.1.run.binds[1]?).map (·.len)) == some 8 && beyond 8 9 (some 0)) = true := by decide +kernel

/-! ## Clauses over breakers -/

/-- An image with pipelines 0 and 1 of one clause each: breaker 0 leads from 1 to 0 and breaker 1 back, of these kinds and sizes; pipeline 0
reads a table (0) or breaker 0 (1). A clause is its kind, its STATE_BYTES and its configuration. -/
def jimg (src bk0 bk1 n1 : Nat) (c0 c1 : Nat × Nat × List (Nat × Nat × Nat)) : Mem :=
  tput ([(12, 1, 2), (14, 2, 2), (16, 1, 2), (17, 1, 8), (20, 4, 64), (24, 4, 128), (28, 4, 96), (66, 1, 1), (67, 1, src), (70, 2, 2), (80, 2, 1),
      (82, 1, 1), (86, 2, 1), (96, 1, bk0), (98, 1, 1), (104, 8, 0x10000), (112, 1, bk1), (115, 1, 1), (120, 8, n1)]
    ++ tclause 128 c0.1 88 0 c0.2.1 0 0 0 c0.2.2 ++ tclause 248 c1.1 88 0 c1.2.1 0 0 0 c1.2.2 ++ [(252, 1, 1)])
/-- Task 0 of pipeline 0 runs that plan in state `t`; task 1 of pipeline 1 wrote `out` bytes to breaker 0, which is at 0x10000. -/
def jst (img : Mem) (t : TaskSt) (out : Nat) (dram : Mem) (claims : Tab Nat) : State :=
  let s := planSt 2 img (ist { qst { st := .active } with dram := dram } (some 0) { rpItem 0 with phase := .running })
  setRun { s with pwr := { s.pwr with devtime := 1000000 } } 1
    { fn := 0, planId := 0, granted := [0], tiles := 1, workAddr := 0x10000, workLen := 0x40000, waiting := false, claims := claims, ended := [1],
      tasks := [(0, { pipe := 0, idx := 0, tile := 0, st := t }), (1, { pipe := 1, idx := 0, tile := 0, ended := true, st := { outPos := [(0, out)] } })] }
/-- The batch of one row waits at clause 0, whose state is `c`. -/
def jbatch (c : CState) : TaskSt := { (batchTask 0).st with cst := [(0, c)] }
/-- Configurations: JOIN_BUILD of one key column to breaker `b`, whole or in partitions; JOIN_PROBE on breaker `b`; a region of two rows in
partition 0. -/
def cBuild (b part : Nat) : List (Nat × Nat × Nat) := [(0, 1, part), (1, 1, 1), (3, 1, b), (5, 1, part)]
def cProbe (jt b : Nat) : List (Nat × Nat × Nat) := [(0, 1, jt), (1, 1, 1), (3, 1, b), (5, 1, 8)]
def partDram : Mem := tput [(0x10000, 8, 32), (0x10028, 2, 2)]

/-- The end of input of clause 0, whose state is `c`. -/
def jend (c : CState) : TaskSt := { srcDone := true, cst := [(0, c)] }
/-- JOIN_BUILD of a batch, and at the end of a PARTITION build; JOIN_PROBE on the CAM, on a table that fits, on one that does not, with the
table built, and by partition with no build rows and with two that do not fit one table. -/
theorem test_joins :
    (batchAt (jst (jimg 0 2 2 0x10000 (4, 0, cBuild 1 0) (1, 0, [])) (jbatch .empty) 0 [] []) 1 0 0 Kind.build).isSome = true
    ∧ (batchAt (jst (jimg 0 5 5 0x10000 (4, 0, cBuild 1 1) (1, 0, [])) (jbatch .empty) 0 [] []) 1 0 0 Kind.build).any (fun y =>
        y.2.1.g.cb y.2.1.c 0 != 0) = true
    ∧ (let s := jst (jimg 0 5 5 0x10000 (4, 0, cBuild 1 1) (1, 0, [])) (jend .empty) 0 [] []
       (batchAt s 1 0 0 Kind.build).isNone && (ctxAt s 1 0 0 Kind.build).isSome && (ctxAt (feed s 1 0 0) 1 0 0 Kind.build).any (fun x =>
        x.g.cb x.c 0 == 1 && ! x.t.st.flushed.contains 0 && upstreamDone x.g x.t 0 && (headBatch x).isNone)) = true
    ∧ (batchAt (jst (jimg 0 2 2 0 (5, 0, cProbe 0 0xFF) (4, 0, cBuild 0 0)) (jbatch .empty) 0 [] []) 1 0 0 Kind.probe).any (fun y =>
        y.2.1.g.cb y.2.1.c 3 == 0xFF) = true
    ∧ (batchAt (jst (jimg 0 2 2 0 (5, 9999, cProbe 0 0) (4, 0, cBuild 0 0)) (jbatch .empty) 9 [] []) 1 0 0 Kind.probe).any (fun y =>
        ! byPartition y.2.1 && ! spansBad y.1 (allSpans y.1 y.2.1.g y.2.1.run 0)
        && (buildTable (keyTypes y.1 y.2.1.g 0) (probeArea y.2.1) 8 18 (buildEntries 1 (allRows y.1 y.2.1.g y.2.1.run 0))).isSome) = true
    ∧ (batchAt (jst (jimg 0 2 2 0 (5, 0, cProbe 0 0) (4, 0, cBuild 0 0)) (jbatch .empty) 9 [] []) 1 0 0 Kind.probe).any (fun y =>
        ! byPartition y.2.1 && ! spansBad y.1 (allSpans y.1 y.2.1.g y.2.1.run 0)
        && (buildTable (keyTypes y.1 y.2.1.g 0) (probeArea y.2.1) 8 18 (buildEntries 1 (allRows y.1 y.2.1.g y.2.1.run 0))).isNone) = true
    ∧ (batchAt (jst (jimg 0 2 2 0 (5, 0, cProbe 0 0) (4, 0, cBuild 0 0)) (jbatch (.probe { d := 8 } false 0)) 0 [] []) 1 0 0 Kind.probe).any
        (fun y => tgetD y.2.1.t.st.cst 0 .empty == .probe { d := 8 } false 0 && ! byPartition y.2.1) = true
    ∧ (batchAt (jst (jimg 1 5 2 0 (5, 0, cProbe 2 0) (4, 0, cBuild 0 1)) (jbatch .empty) 0 [] []) 1 0 0 Kind.probe).any (fun y =>
        byPartition y.2.1 && ! spansBad y.1 (unitSpans y.1 y.2.1.g y.2.1.run 0 1 0) && (unitLanes y.1 y.2.1.g y.2.1.run 0 1 0).isEmpty) = true
    ∧ (batchAt (jst (jimg 1 5 2 0 (5, 0, cProbe 2 0) (4, 0, cBuild 0 1)) (jbatch .empty) 4128 partDram []) 1 0 0 Kind.probe).any (fun y =>
        byPartition y.2.1 && (chunkTables [] 0 8 18 (buildEntries 1 ((unitLanes y.1 y.2.1.g y.2.1.run 0 1 0).map (·.2.2))) { d := 8 }).length == 2
        && y.2.1.g.cb y.2.1.c 0 != 0 && y.2.1.g.cn y.2.1.c 44 4 == 0) = true := by decide +kernel

/-- A FINAL aggregate over one PARTIAL entry. -/
def mergeSt : State :=
  jst (jimg 1 3 3 0 (6, 0, [(0, 1, 2), (2, 1, 1), (16, 1, 1)]) (6, 0, [(0, 1, 1), (2, 1, 1), (16, 1, 1)])) {} 18 [] []
/-- A state with no region left to claim. -/
def lastSt : State := jst (jimg 1 3 3 0 (6, 0, [(0, 1, 2)]) (6, 0, [(0, 1, 1)])) {} 0 [] [(0, 1)]
/-- HASH_AGG of one count with no key: a fold of one row, and the end of its input; a merge with a region to claim, and with none left;
WINDOW_AGG of one count. -/
theorem test_aggregates :
    (batchAt (jst (jimg 0 3 3 0 (6, 0, [(2, 1, 1), (16, 1, 1)]) (1, 0, [])) (jbatch .empty) 0 [] []) 1 0 0 Kind.agg).any (fun y =>
        (errOf (foldRows 1 0 y.2.1 [] [0] y.2.2.rows (y.1, []))).isNone) = true
    ∧ (let s := jst (jimg 0 3 3 0 (6, 0, [(2, 1, 1), (16, 1, 1)]) (1, 0, [])) (jend .empty) 0 [] []
       (batchAt s 1 0 0 Kind.agg).isNone && (ctxAt s 1 0 0 Kind.agg).isSome && (ctxAt (feed s 1 0 0) 1 0 0 Kind.agg).any (fun x =>
        x.g.cb x.c 0 != 2 && ! x.t.st.flushed.contains 0 && upstreamDone x.g x.t 0 && (headBatch x).isNone)) = true
    ∧ (ctxAt mergeSt 1 0 0 Kind.agg).any (fun x => x.g.cb x.c 0 == 2 && (claimUnit (markBlock mergeSt 1 0) 1 0 x.t.pipe x.g).any (fun y =>
        ! spansBad y.2 (unitSpans y.2 x.g x.run 0 2 0) && (errOf (mergeEntries x [] [0] (unitLanes y.2 x.g x.run 0 2 0) [])).isNone)) = true
    ∧ (ctxAt lastSt 1 0 0 Kind.agg).any (fun x => (claimUnit (markBlock lastSt 1 0) 1 0 x.t.pipe x.g).isNone) = true
    ∧ (batchAt (jst (jimg 0 3 3 0 (7, 200, [(1, 1, 1), (2, 1, 1), (3, 1, 20), (4, 1, 1), (16, 1, 1), (18, 1, 2)]) (1, 0, [])) (jbatch .empty) 0 [] [])
        1 0 0 Kind.window).any (fun y =>
          (errOf (windowRows y.1 y.2.1 ⟨[], 1, 20, 10, [], 0, 0, 0, 0, 0⟩ [] ((y.2.1.c.stateBytes - 64) / 45) y.2.2.rows [])).isNone) = true := by
  decide +kernel

/-- TOPN; SORT with an empty run, with one that is late and with one that fills; the ends of their inputs; an INTERMEDIATE and a FINAL merge of
one run, and with none left; and a fan-in of 0. -/
theorem test_sorts :
    let sort : List (Nat × Nat × Nat) := [(0, 1, 1), (2, 1, 1), (3, 1, 9)]
    let topn : List (Nat × Nat × Nat) := [(0, 1, 1), (2, 1, 1), (4, 4, 1)]
    let one := fun (cfg : List (Nat × Nat × Nat)) kind (t : TaskSt) => jst (jimg 0 4 4 0x10000 (kind, 0, cfg) (1, 0, [])) t 0 [] []
    let merge := fun (m fan : Nat) (claims : Tab Nat) => jst (jimg 1 4 4 0x10000 (10, 0, [(0, 1, m), (2, 1, 1), (4, 2, fan)])
      (8, 0, [(0, 1, 1), (3, 1, 9)])) {} 256 (tput [(0x10000, 4, 1), (0x10080, 8, 1), (0x10098, 8, 128)]) claims
    let ends := fun (s : State) kind => (batchAt s 1 0 0 kind).isNone && (ctxAt s 1 0 0 kind).isSome && (ctxAt (feed s 1 0 0) 1 0 0 kind).any (fun x =>
      ! x.t.st.flushed.contains 0 && upstreamDone x.g x.t 0 && (headBatch x).isNone)
    (batchAt (one topn 9 (jbatch .empty)) 1 0 0 Kind.topn).isSome = true
    ∧ ends (one topn 9 (jend (.topn []))) Kind.topn = true ∧ ends (one sort 8 (jend .empty)) Kind.sort = true
    ∧ (batchAt (one sort 8 (jbatch .empty)) 1 0 0 Kind.sort).any (fun y => (sortRun y.2.1.t 0).1.isEmpty && y.2.2.rows.length == 1) = true
    ∧ (batchAt (one [(0, 1, 1), (2, 1, 1)] 8 (jbatch .empty)) 1 0 0 Kind.sort).any (fun y =>
        (sortClose y.1 1 0 y.2.1 (y.2.2.rows.map (runRow y.2.1.g y.2.1.c (colsHere y.1 y.2.1)))).isSome) = true
    ∧ (batchAt (one sort 8 (jbatch (.sort [[0#72]] 0))) 1 0 0 Kind.sort).any (fun y =>
        decide (now y.1 ≥ 32000) && (sortClose y.1 1 0 y.2.1 [[0#72]]).isSome) = true
    ∧ (ctxAt (merge 0 2 []) 1 0 0 Kind.merge).any (fun x => x.g.cb x.c 0 == 0 && (claimUnit (merge 0 2 []) 1 0 x.t.pipe x.g).any (fun y =>
        ! spansBad y.2 (headSpans y.2 x.g x.run 0 ++ (brkRuns y.2 x.g x.run 0).map (runSpan y.2.dram)))) = true
    ∧ (ctxAt (merge 0 2 [(0, 1)]) 1 0 0 Kind.merge).any (fun x => (claimUnit (merge 0 2 [(0, 1)]) 1 0 x.t.pipe x.g).isNone) = true
    ∧ (ctxAt (merge 1 2 []) 1 0 0 Kind.merge).any (fun x => x.g.cb x.c 0 == 1 && inputsEmpty x.t
        && decide ((brkRuns (merge 1 2 []) x.g x.run 0).length ≤ 2) && (claimUnit (markBlock (merge 1 2 []) 1 0) 1 0 x.t.pipe x.g).any (fun y =>
        (finalRange y.2 x 0).length == 1 && ! spansBad y.2 (finalSpans y.2 x (finalRange y.2 x 0)))) = true
    ∧ (ctxAt (merge 1 2 [(0, 1)]) 1 0 0 Kind.merge).any (fun x => (claimUnit (markBlock (merge 1 2 [(0, 1)]) 1 0) 1 0 x.t.pipe x.g).isNone) = true
    ∧ (ctxAt (merge 1 0 []) 1 0 0 Kind.merge).any (fun x => decide ((brkRuns (merge 1 0 []) x.g x.run 0).length > x.g.cn x.c 4 2)) = true := by
  decide +kernel

/-- A fragment of one row, last of its block. -/
def tfrag : Frag := ⟨0, ⟨0, 0, 0⟩, true, [{ src := 0, cols := [(0, 0#72)] }]⟩
/-- A send of a batch, of a fragment that was ready and has room, and of END; a receive that feeds the next clause, one that hands its rows on,
and one whose region is full. -/
theorem test_exchange :
    let send := fun (t : TaskSt) => jst (jimg 0 2 2 0 (11, 0, [(0, 1, 3), (2, 1, 1), (12, 4, 4096), (16, 4, 4096)]) (1, 0, [])) t 0 [] []
    let recv := fun (k1 : Nat) => jst (jimg 1 2 k1 0 (11, 0, [(0, 1, 3), (2, 1, 1)]) (4, 0, cBuild 0 0)) { outbox := [tfrag] } 0 [] []
    (batchAt (send (jbatch .empty)) 1 0 0 Kind.exchange).any (fun y => y.2.1.g.cb y.2.1.c 0 != 1 && y.2.1.t.st.outPend.isEmpty) = true
    ∧ (ctxAt (send { outPend := [tfrag] }) 1 0 0 Kind.exchange).any (fun x => x.t.st.outPend == [tfrag]
        && fragBytes x 1 == 4096 && inboxLoad x x.run 0 0 == 0) = true
    ∧ (let s := send (jend .empty)
       (batchAt s 1 0 0 Kind.exchange).isNone && (ctxAt (feed s 1 0 0) 1 0 0 Kind.exchange).any (fun x =>
        ! x.t.st.endSent && upstreamDone x.g x.t 0 && (headBatch x).isNone)) = true
    ∧ (∀ z ∈ [(2, true), (1, false)], (ctxAt (recv z.1) 1 0 0 Kind.exchange).any (fun x =>
        (x.g.pipe x.t.pipe).ncl ≤ 1 && (x.t.st.outbox.find? (fun f => f.dst == 0 && untaken x.t.st 0 f)).any (fun f =>
          (emitInbox 1 0 x 1 (modSt (recv z.1) 1 0 (fun q => { q with inbox := [(0, f)] }))).isSome == z.2)) = true)
    ∧ (ctxAt (clSt 0 9 task0) 1 0 0 Kind.scan).any (fun x => x.c.pos + 1 < (x.g.pipe x.t.pipe).ncl) = true := by decide +kernel

/-! ## Clusters, ingest, layouts -/

theorem reaches_of {s : State} {p : Path} {off : Nat} (h : denyClass s p (some (.reg off)) = none ∧ rowOpen s p off = true)
    (hb : s.regs.bad = []) : Reaches s p off := ⟨h.1, h.2, fun i _ => by simp [instBad, dropHalves, hb]⟩

/-- Cluster 0 after 1 s free, kept warm or not; a wait that has not ended; a clock-gated cluster with an entry placed; a wake that ends, with
a kernel image, and one that has not ended. -/
theorem test_clusters :
    let s := fun (cl : Cluster) => let s := setCluster (qst {}) 0 cl; { s with pwr := { s.pwr with devtime := 1000000000 } }
    let free : Cluster := { st := .active, freeSince := some 0 }
    let e : Entry := { tent none with st := .ready, tile := some 3, placed := true }
    let p := { s { st := .clockGated } with sched := { (s {}).sched with entries := [(0, e)] } }
    (getCluster (s free) 0).st = .active ∧ 0 + 1000 * rfld (s free) Reg.SCHED_WARM 0 31 16 ≤ now (s free) ∧ keptWarm (s free) 0 = false
    ∧ keptWarm { s free with plans := { (s free).plans with plans := [(0, { st := 3, image := [], imageLen := 0, tiles := [0] })] } } 0 = true
    ∧ now (s free) < 1000000000 + 1000 * rfld (s free) Reg.SCHED_WARM 0 31 16
    ∧ p.sched.entries.any (fun p => p.2.placed && (p.2.tile.map (· / 8)) == some 0) = true
    ∧ (0 ≤ now (s { st := .waking }) ∧ kimgValid (regPut (s { st := .waking }) Reg.TILE_KIMG 0 1) = true)
    ∧ now (s {}) < (getCluster (s { st := .waking, wakeEnd := 2000000000 }) 0).wakeEnd := by decide +kernel

/-- Port 0 is up with IPv4, IPv6, address 10.0.0.1 and UDP port 0x1234; layout 1 is bound when `b` says so. -/
def ingSt (b : Option (Nat × Nat)) (cache : List ReplyEnt) : State :=
  let s := regPut (regPut (qst { st := .active }) (portReg 0 Reg.ING_PORT0_CTL) 0 0xE0001234) (portReg 0 Reg.ING_PORT0_IPV4) 0 0x0A000001
  { s with ing := { s.ing with layouts := [(1, { valid := true, bound := b })], cache := cache } }
/-- A frame of an EtherType and a body; a UDP datagram with no checksum; an envelope of layout 1, key 7 and a payload of `n` bytes. -/
def eth (ty : Nat) (body : List Byte) : List Byte := List.replicate 12 0#8 ++ natBE 2 ty ++ body
def udp (port : Nat) (p : List Byte) : List Byte :=
  eth 0x0800 (natBE 2 0x4500 ++ natBE 2 (28 + p.length) ++ natBE 4 0 ++ natBE 2 0x4011 ++ natBE 2 0 ++ natBE 4 0x0A000002 ++ natBE 4 0x0A000001
    ++ natBE 2 5 ++ natBE 2 port ++ natBE 2 (8 + p.length) ++ natBE 2 0 ++ p)
def env (n : Nat) (p : List Byte) : List Byte := natBE 4 0x495A0100 ++ natBE 2 0x0100 ++ natBE 2 n ++ natBE 8 7 ++ natBE 8 0 ++ natBE 8 0 ++ p
/-- The envelope of a frame, or the reason it is dropped. -/
def envOf (s : State) (f : List Byte) : Sum Nat (List Byte) :=
  match parseIp s 0 (parseEth f) with
  | .error k => .inl k
  | .ok d => match parseUdp s 0 d with
    | .error k => .inl k
    | .ok p => .inr p

/-- An ARP request for the port, and another; a Neighbor Solicitation for address 0; a frame of no kind, one to another UDP port, one whose
length fields differ, and good envelopes with and without a payload. -/
theorem test_ingest_frames :
    let s := ingSt none []
    let arp := natBE 8 0x0001080006040001 ++ natBE 8 0 ++ natBE 8 0 ++ natBE 4 0x0A000001
    let ns := natBE 4 0x60000000 ++ natBE 2 24 ++ natBE 2 0x3AFF ++ natBE 16 0 ++ natBE 16 0 ++ natBE 8 0x8700000000000000 ++ natBE 16 0
    portsUp s = true ∧ (getPort s 0).down = false ∧ ingestServes s = true ∧ portCtl s 0 31 31 = 1 ∧ portCtl s 0 27 16 = 0
    ∧ (parseEth (eth 0x0806 arp)).tag = none ∧ (parseEth (eth 0x0806 arp)).type = 0x0806 ∧ portCtl s 0 30 30 = 1 ∧ arp.length = 28
    ∧ beAt arp 0 8 = 0x0001080006040001 ∧ beAt arp 24 4 = portIp4 s 0 ∧ beAt (natBE 16 0 ++ natBE 12 0) 24 4 ≠ portIp4 s 0
    ∧ portCtl s 0 29 29 = 1 ∧ ns.length = 64 ∧ beAt ns 6 1 = 58 ∧ beAt ns 40 1 = 135 ∧ beAt ns 48 16 = portIp6 s 0
    ∧ envOf s (eth 0x1111 []) = .inl 0 ∧ envOf s (udp 0x1235 (env 0 [])) = .inl 0 ∧ envOf s (udp 0x1234 (env 1 [])) = .inl 5
    ∧ envOf s (udp 0x1234 (env 0 [])) = .inr (env 0 []) ∧ envOf s (udp 0x1234 (env 1 [9#8])) = .inr (env 1 [9#8])
    ∧ beAt (env 1 []) 6 2 ≠ 0 ∧ beAt (env 1 []) 4 1 = 1 ∧ beAt (env 1 []) 8 8 = 7 := by decide +kernel

/-- A layout that is not bound; a key PENDING, DONE with a reply and with none; a key at the floor and one above it. -/
theorem test_ingest_messages :
    (getLayout (ingSt none []) 1).bound = none
    ∧ (getLayout (ingSt (some (0, 0)) []) 1).bound = some (0, 0) ∧ (getLayout (ingSt (some (0, 0)) []) 1).valid = true
    ∧ (∀ c ∈ [(⟨7, none, none⟩ : ReplyEnt), ⟨7, some 0, some []⟩, ⟨7, some 0, none⟩], cacheFind (ingSt (some (0, 0)) [c]) 7 = some c)
    ∧ cacheFind (ingSt (some (0, 0)) []) 7 = none ∧ tgetD (ingSt (some (0, 0)) []).ing.floors (fld 7 63 48) 0 < fld 7 47 0
    ∧ (cacheReserve (ingSt (some (0, 0)) []) 7).isSome = true
    ∧ fld 0 47 0 ≤ tgetD (ingSt (some (0, 0)) []).ing.floors (fld 0 63 48) 0 := by decide +kernel

/-- A host write of the ingest registers; an entry of 10 s and one that is PENDING. -/
theorem test_floors_and_layouts :
    Reaches (qst {}) (.host 0) Reg.ING_GW_FLOOR ∧ Reaches (qst {}) (.host 0) Reg.ING_LAYOUT_CTL ∧ Reaches (qst {}) .sill Reg.SCHED_WIN_SEL
    ∧ (0 + 10000000000 ≤ now { ingSt none [⟨7, some 0, none⟩, ⟨8, none, none⟩] with pwr := { State.reset.pwr with devtime := 10000000000 } })
    ∧ pathUp (qst {}) (.host 0) = true ∧ denyClass (qst {}) (.host 0) (some (.layMem 0)) = none ∧ regOpen (qst {}) (.host 0) (.layMem 0) = true
    ∧ (getLayout (qst {}) 0).valid = false ∧ (getLayout (qst {}) 0).bound = none ∧ (getLayout (ingSt (some (0, 0)) []) 1).bound ≠ none :=
  ⟨reaches_of (by decide) rfl, reaches_of (by decide) rfl, reaches_of (by decide) rfl, by decide⟩
/-- A cache whose entries are all PENDING has no place for another key. -/
theorem test_cache_full : ∀ l : List ReplyEnt, l.length = 1048576 → (∀ e ∈ l, e.doneAt = none ∧ e.key = 8) →
    cacheReserve (ingSt (some (0, 0)) l) 7 = none ∧ cacheFind (ingSt (some (0, 0)) l) 7 = none := by
  intro l hl he
  have hf : ∀ l : List ReplyEnt, (∀ e ∈ l, e.doneAt = none ∧ e.key = 8) →
      oldestDone (ingSt (some (0, 0)) l) = none ∧ cacheFind (ingSt (some (0, 0)) l) 7 = none := by
    intro l
    induction l with
    | nil => intro _; decide
    | cons e l ih =>
      intro h
      have h1 := h e (List.mem_cons_self ..)
      have h2 := ih (fun x hx => h x (List.mem_cons_of_mem _ hx))
      simp only [oldestDone, cacheFind, ingSt] at h2 ⊢
      simp [List.foldl_cons, h1.1, h1.2]
      simpa using h2
  have h := hf l he
  refine ⟨?_, h.2⟩
  have hc : (ingSt (some (0, 0)) l).ing.cache = l := rfl
  simp only [cacheReserve, hc, hl, h.1, Nat.lt_irrefl, if_false, Option.map_none]
theorem test_cache_full_met : ∃ l : List ReplyEnt, l.length = 1048576 ∧ ∀ e ∈ l, e.doneAt = none ∧ e.key = 8 :=
  ⟨List.replicate 1048576 ⟨8, none, none⟩, List.length_replicate, fun _ h => by rw [List.eq_of_mem_replicate h]; exact ⟨rfl, rfl⟩⟩

/-! ## Codec, table append, MOVE, resize -/

/-- An item that runs, with the whole of DRAM in the window of FN 0. -/
def engSt (dram : Mem) (it : Item) : State :=
  ist { qst { st := .active } with dram := dram, fns := { (qst {}).fns with windows := [(0, [⟨0, 2 ^ 38⟩])] } } none it
/-- A CODEC item on bytes from 0x1000, with `n` flush points. -/
def codecIt (dir n inLen outLen : Nat) : Item :=
  titem 0x22 0 [(32, 8, 0x1000 + dir * 2 ^ 40 + n * 2 ^ 48), (40, 8, 0x2000), (48, 4, inLen), (52, 4, outLen), (56, 8, 0x3000)]
/-- The results of a decode of these bytes into 8. -/
def decEnd (bs : List Byte) : Nat × Nat := ((streamDecode bs 8).status, (streamDecode bs 8).consumed)

/-- Encodes: a length of all ones, a flush point of 0, no input, a short buffer, and one that runs; decodes of a whole stream, of no stream,
and of one that breaks off. -/
theorem test_codec :
    let s := fun it => engSt [] it
    let chk := fun (it : Item) => codecCheck (s it) it (codecBody it)
    (∀ it ∈ [codecIt 0 0 0 0, codecIt 1 0 0 0], itemAt (s it) 1 0x22 0 = some it)
    ∧ chk (codecIt 0 0 (2 ^ 32 - 1) 0) = some St.lengthInvalid ∧ chk (codecIt 1 0 (2 ^ 32 - 1) 0) = some St.lengthInvalid
    ∧ (∀ it ∈ [codecIt 0 1 8 16, codecIt 0 0 0 0, codecIt 0 0 8 15, codecIt 0 0 8 16], chk it = none ∧ (codecBody it).decode = false)
    ∧ flushList (s (codecIt 0 1 8 16)) (codecBody (codecIt 0 1 8 16)) = [0] ∧ flushList (s (codecIt 0 0 8 16)) (codecBody (codecIt 0 0 8 16)) = []
    ∧ (∀ n ∈ [10, 8], chk (codecIt 1 0 n 8) = none ∧ (codecBody (codecIt 1 0 n 8)).decode = true)
    ∧ poisonedIn { s (codecIt 1 0 8 8) with poison := [32] } 0x1000 (streamDecode (mreads [] 0x1000 8) 8).seen = true
    ∧ decEnd (streamEncode 0 [] [1#8, 2#8]) = (0, 10) ∧ decEnd (natLE 8 0) = (St.codecFormat, 0)
    ∧ decEnd (natLE 8 0x80001) = (St.codecTruncated, 8) := by decide +kernel
/-- Input of whole elements of 2 bytes. -/
theorem test_codec_input : let bs := [1#8, 2#8, 3#8, 4#8]; bs.length % 2 ^ 1 = 0 ∧ bs.length < 2 ^ 48 - 1 ∧ bs.length ≤ 4 := by decide

/-- An append to the open table at 0x1000 of no rows and of one, from INT64 bytes; a table that is not open. -/
theorem test_table_append :
    let open_ := mput tdram 0x1014 4 1
    let it := fun (n : Nat) => titem 0x50 0 [(32, 8, 0x1000), (40, 8, 0x100), (48, 8, 0x4000), (56, 4, n), (60, 3, 1000)]
    let s := fun (d : Mem) (n : Nat) => { engSt d (it n) with host := mput [] 0x110 1 4 }
    let bad := fun (d : Mem) (n : Nat) => appendCheck (s d n) (it n) (readTable d 0x1000) (srcEnts (s d n) (it n) 1) (segSplit 1 n) false
    itemAt (s open_ 1) 1 0x50 0 = some (it 1) ∧ bad open_ 0 = none ∧ bad open_ 1 = none ∧ bad tdram 0 = some St.tableClosed := by
  decide +kernel

/-- MOVE of one segment of 8 bytes, of a chain of none, with a reserved transform, and of a segment whose destination is too short. -/
theorem test_move :
    let mv := fun (ctl len : Nat) => titem 0x10 0 [(32, 8, 0x1000), (40, 8, 0x2000), (48, 4, if ctl = 0x10000 then 0 else 8), (52, 4, len), (56, 4, ctl)]
    let s := fun it => engSt [] it
    let fine := fun (it : Item) => match moveSegs (s it) it with
      | .ok g => (some g.length, segsFail (s it) it g 0)
      | .error _ => (none, none)
    itemAt (s (mv 0 8)) 1 0x10 0 = some (mv 0 8) ∧ errOf (moveSegs (s (mv 4 8)) (mv 4 8)) = some St.invalidField
    ∧ errOf (moveSegs (s (mv 0x30000 8)) (mv 0x30000 8)) = none ∧ listFails (mv 0x30000 8) [⟨0, 0, 0, 0, 0, 0, 0, 0⟩] (some 0) = some 0
    ∧ fine (mv 0 8) = (some 1, none) ∧ fine (mv 0x10000 8) = (some 0, none) ∧ fine (mv 0 7) = (some 1, some (St.bufferTooSmall, 0)) := by
  decide +kernel
/-- A transfer that waits for a free channel; one in progress: from host memory, over poison, stopped, with a segment after it, and at its
last. -/
theorem test_dma :
    let g : Seg := ⟨0x1000, 0x2000, 0, 0, 8, 8, 0, 0⟩
    let x : Xfer := { fn := 0, level := 0, segs := [g], who := .move 1 }
    let s := engSt [] (titem 0x10 0 [])
    freeChan s 0 = some 0 ∧ ({ g with ctl := 0x2000 } : Seg).srcHost = true ∧ segPoisoned { s with poison := [0x20] } g = true
    ∧ segPoisoned s g = false ∧ itemFailed (titem 0x10 0 []) = false ∧ (titem 0x10 0 []).abortBy = [] ∧ x.segs[x.pos]? = some g
    ∧ ({ g with ctl := 0x5000 } : Seg).dstHost = true ∧ fld ({ g with ctl := 0x5000 } : Seg).ctl 12 11 = 2
    ∧ ({ x with who := .data 1 none } : Xfer).stop = false
    ∧ (∀ w ∈ segWrites s g, w.1 = 0x2000 ∧ w.2.length = 8) := by decide +kernel

/-- FN_RESIZE of one tile from FN 0 to FN 1: it may go on, waits for another, is of no kind, names no unit; a tile, a window that is zeroed,
and queues that are busy. -/
theorem test_resize :
    let rz := fun (kind n : Nat) => titem 0x60 4 [(32, 1, kind), (34, 1, 1), (36, 4, n)]
    let s := fun (it : Item) => let s := engSt [] it; { s with fns := { s.fns with vfEnable := true, numVFs := 1 } }
    let r := fun (kind : Nat) (z : Bool) => ({ item := 1, kind := kind, fromFn := 0, toFn := 1, zero := z, left := [5], moved := 0, waitFor := [] } : Resize)
    let st := fun (kind : Nat) (z : Bool) => let s := s (rz 1 1); { s with fns := { s.fns with resize := some (r kind z) } }
    itemAt (s (rz 1 1)) 1 0x60 4 = some (rz 1 1) ∧ rzEarlier (s (rz 1 1)) (rz 1 1) = false ∧ rzEarlier (st 1 false) (rz 1 1) = true
    ∧ rzCheck (s (rz 0 1)) (rzBody (rz 0 1)) = some St.invalidField ∧ rzCheck (s (rz 1 1)) (rzBody (rz 1 1)) = none
    ∧ rzCheck (s (rz 1 0)) (rzBody (rz 1 0)) = none ∧ (rzBody (rz 1 0)).hasFrom = true
    ∧ hosts (st 1 false) 5 = [] ∧ hosts (setPlan (st 1 false) 0 0 { st := 3, image := [], imageLen := 0, tiles := [5] }) 5 ≠ []
    ∧ gateOpen { s (rz 1 0) with qm := { (s (rz 1 0)).qm with queues := [(0, { st := .active, cqTail := 15, overflow := List.replicate 1024 cqe })] } }
      1 (rz 1 0) = false
    ∧ gateOpen (s (rz 1 0)) 1 (rz 1 0) = true ∧ rzMay (st 8 false) (r 8 false) 1 = true
    ∧ rzWaited (st 9 true) (r 9 true) = true ∧ unitMay (st 8 false) (r 8 false) 5 = true
    ∧ unitMay (st 2 false) { r 2 false with left := [0] } 0 = false := by decide +kernel

/-- VF Enable clear and set. -/
theorem test_vf : hostUp (qst {}) = true ∧ (qst {}).fns.vfEnable = false ∧ (qst {}).fns.clearing = false
    ∧ ({ (qst {}).fns with vfEnable := true } : Funcs).vfEnable = true := by decide

/-! ## Cipher and digest engines -/

/-- Slot 0 holds an AES-128 key of zeros that may be used both ways. -/
def keySt (it : Item) : State :=
  setSlot (engSt [] it) 0 { typ := 1, usage := 3, key := List.replicate 16 0#8 }
/-- CIPHER of a mode from and to host memory, and DIGEST by SHA-256 of host memory. -/
def cipIt (mode flags n : Nat) : Item :=
  { titem 0x20 0 [(32, 1, mode), (33, 1, flags), (36, 4, n)] with params := List.replicate 64 0#8 }
def digIt (alg flags n : Nat) : Item := titem 0x21 0 [(32, 1, alg), (33, 1, flags), (35, 1, 32), (36, 4, n)]

/-- The key port: a load that passes its checks and one that names another function's slot; an erase of an own slot and of another's; a slot
to clean. -/
theorem test_key_commands :
    let s := { keySt (cipIt 1 0 0) with ciph := { (keySt (cipIt 1 0 0)).ciph with staging := [(0, List.replicate 64 0#8)] } }
    let other := { s with fns := { s.fns with keyFn := [(0, 1)] } }
    Reaches s (.host 0) Reg.CIPH_KEY_CMD ∧ fld (keySelOf s (.host 0)) 5 0 = 0
    ∧ keyLoadErr s 0 0 1 16 3 (List.replicate 64 0#8) = 0 ∧ keyLoadErr other 0 0 1 16 3 [] = 1
    ∧ keySelOf (selPut s (.host 0) Reg.CIPH_KEY_SEL 0x03100100) (.host 0) = 0x03100100
    ∧ fld 0x03100100 11 8 = 1 ∧ fld 0x03100100 22 16 = 16 ∧ fld 0x03100100 28 24 = 3
    ∧ holder s.fns.keyFn 0 = 0 ∧ holder other.fns.keyFn 0 ≠ 0
    ∧ (keySlot (eraseSlot s 0) 0).erasing = true ∧ slotUsers (eraseSlot s 0) 0 = 0 :=
  ⟨reaches_of (by decide) rfl, by decide +kernel⟩

/-- CIPHER and DIGEST of a reserved mode, of no data, and of one block. -/
theorem test_engine_items :
    (∀ it ∈ [cipIt 0 0x1E 16, cipIt 1 0x1E 0, cipIt 1 0x1E 16], itemAt (keySt it) 1 0x20 0 = some it)
    ∧ cipherCheck (keySt (cipIt 0 0x1E 16)) (cipIt 0 0x1E 16) (cBody (cipIt 0 0x1E 16)) = some St.invalidField
    ∧ (∀ n ∈ [0, 16], cipherCheck (keySt (cipIt 1 0x1E n)) (cipIt 1 0x1E n) (cBody (cipIt 1 0x1E n)) = none)
    ∧ ((cBody (cipIt 1 0x1E 0)).mac && (cBody (cipIt 1 0x1E 0)).last) = false
    ∧ (∀ it ∈ [digIt 0 0x0E 0, digIt 1 0x0A 0, digIt 1 0x0E 0], itemAt (keySt it) 1 0x21 0 = some it)
    ∧ digestCheck (keySt (digIt 0 0x0E 0)) (digIt 0 0x0E 0) (dBody (digIt 0 0x0E 0)) = some St.invalidField
    ∧ (∀ f ∈ [0x0A, 0x0E], digestCheck (keySt (digIt 1 f 0)) (digIt 1 f 0) (dBody (digIt 1 f 0)) = none)
    ∧ (dBody (digIt 1 0x0A 0)).last = false ∧ (dBody (digIt 1 0x0E 0)).last = true := by decide +kernel
/-- Messages that run: from host memory, and from poisoned DRAM. -/
theorem test_engine_ends :
    let s := fun (it : Item) => let s := keySt it
      { s with poison := [0], ciph := { s.ciph with
        creqs := [(0, { item := 1, prio := 1, st := .running 0, kslot := 0, typ := 1, key := List.replicate 16 0#8, ctx := [] })],
        dreqs := [(0, { item := some 1, prio := 1, core := some 0, kslot := none, key := [], ctx := [] })] } }
    (∀ it ∈ [cipIt 1 0x1E 16, cipIt 1 0x06 16], getItem (ciphEnd (s it) 0) 1 = some it)
    ∧ (cBody (cipIt 1 0x1E 16)).srcHost = true ∧ (cBody (cipIt 1 0x1E 16)).dstHost = true
    ∧ (cBody (cipIt 1 0x06 16)).srcHost = false ∧ poisonedIn (ciphEnd (s (cipIt 1 0x06 16)) 0) 0 16 = true
    ∧ (∀ it ∈ [digIt 1 0x0E 16, digIt 1 0x06 16], getItem (digEnd (s it) 0) 1 = some it)
    ∧ (dBody (digIt 1 0x0E 16)).srcHost = true ∧ (dBody (digIt 1 0x06 16)).srcHost = false
    ∧ poisonedIn (digEnd (s (digIt 1 0x06 16)) 0) 0 16 = true := by decide +kernel
/-- Keys of each AES type, and a block. -/
theorem test_aes_keys : ∀ t ∈ [1, 2, 3], isAes t = true ∧ (List.replicate (klenOf t) 0#8).length = klenOf t := by decide

/-! ## Bridy ports -/

/-- Port 0 in a state; slot 0 holds a link key. -/
def brySt (p : BPort) : State :=
  setBry (setSlot { qst {} with pwr := { (qst {}).pwr with devtime := 20000000 } } 0 { typ := 3, usage := 0, key := List.replicate 32 0#8 }) 0 p

/-- A host write of BRY_PORT0_CTL and BRY_PORT0_KEY; ports DISABLED, UP and silent, DOWN and TRAINING without keys, with the last device and with
another. -/
theorem test_bridy_states :
    Reaches (brySt {}) (.host 0) (bryReg Reg.BRY_PORT0_CTL 0) ∧ Reaches (brySt {}) .sill (bryReg Reg.BRY_PORT0_KEY 0)
    ∧ (bryPort (brySt {}) 0).st = BSt.disabled ∧ (bryPort (brySt { st := BSt.up }) 0).st = BSt.up
    ∧ (bryPort (brySt { st := BSt.up }) 0).goodAt + 10000000 ≤ now (brySt { st := BSt.up })
    ∧ (bryPort (brySt { st := BSt.down }) 0).downUntil ≤ now (brySt { st := BSt.down })
    ∧ bryKeys (qst {}) 0 = false ∧ bryKeys (brySt { st := BSt.training, lastPeer := some 7 }) 0 = true
    ∧ (bryPort (brySt { st := BSt.training, lastPeer := some 7 }) 0).lastPeer = some 7 :=
  ⟨reaches_of (by decide) rfl, reaches_of (by decide) rfl, by decide⟩

/-- A good flit of a type, at an UP port. -/
def tflit (ty : Nat) : List Byte := mkFlit ty 0 0xFF 0 0 [0, 0, 0] 0 []
theorem test_flits :
    let s := brySt { st := BSt.up }
    let p := { (bryPort s 0) with retryAt := some 0 }
    let q := { (bryPort s 0) with swapWait := some (1, 0) }
    flitAt (fecCount s 0 0 0) 0 (tflit 0) 0 = true ∧ flitAt (fecCount s 0 0 0) 0 (tflit 2) 2 = true
    ∧ flitType (tflit 1) = 1 ∧ flitGood (tflit 1) = true ∧ flitGood [0x10#8] = false ∧ flitType [0x10#8] = 1
    ∧ beAt (tflit 1) 2 3 = (bryPort (takeLink (fecCount s 0 0 0) 0 (tflit 1)) 0).rxFseq
    ∧ beAt (tflit 1) 2 3 ≠ (bryPort (takeLink (fecCount (brySt { st := BSt.up, rxFseq := 5 }) 0 0 0) 0 (tflit 1)) 0).rxFseq
    ∧ flitAt (fecCount s 0 0 0) 0 (tflit 3) 3 = true ∧ (bryPort (takeLink (fecCount s 0 0 0) 0 (tflit 3)) 0).spareTx = none
    ∧ (bryPort (takeLink (fecCount (brySt { st := BSt.up, spareTx := some 1 }) 0 0 0) 0 (tflit 3)) 0).spareTx = some 1
    ∧ 0 + 2000 * p.rttUs ≤ now s ∧ q.swapWait = some (1, 0) ∧ 0 + 10000 ≤ now s
    ∧ (bryPort s 0).spareRx = none ∧ (bryPort s 0).swapWait = none
    ∧ (bryPort (brySt { st := BSt.up, spareRx := some 2 }) 0).spareRx ≠ none := by decide +kernel

/-- A packet of each class and type in the inbox; the commands that XFER_RDY, DATA and RSP name. -/
theorem test_packets :
    let k := fun (c t : Nat) => (⟨c, t, natBE 8 5 ++ natBE 4 0 ++ natBE 4 8⟩ : BPacket)
    let s := fun (c t : Nat) => brySt { st := BSt.up, inbox := [k c t] }
    (∀ x ∈ [(1, 8), (0, 1), (0, 2), (0, 3), (0, 4)], ((takeInbox (s x.1 x.2) 0 x.1 x.2).map (·.1)) = some (k x.1 x.2))
    ∧ beAt (k 0 2).body 0 8 ≠ 0 ∧ beAt (natBE 16 0) 0 8 = 0 ∧ beAt (k 0 3).body 8 4 + beAt (k 0 3).body 12 4 = 8
    ∧ beAt (k 0 4).body 8 2 = 0 ∧ beAt (natBE 8 5 ++ natBE 2 1) 8 2 ≠ 0 := by decide +kernel

/-! ## The Ledger store -/

/-- Volume 0 is a BLOCK volume and volume 1 a LOG; INIT 1 is function 0's. -/
def ledSt (f : Ledger → Ledger) (it : Item) : State :=
  let s := engSt [] it
  regPut { s with
    pwr := { s.pwr with devtime := 2 ^ 40 }, poison := [0],
    led := f { vols := [(0, { p := { kind := 1, nblocks := 100 } }), (1, { p := { kind := 2, nblocks := 10 } })],
               pool := some { poolId := 1, blocks := 1000, mapBlocks := 1, gen := 1 },
               drives := [(0, { st := 1, ok := true, blocks := 1000 })] } } Reg.LED_INIT 0 (2 ^ 31 + 1)
/-- A LEDGER item with a key: command, volume, flags, count, length of its buffer. -/
def ledIt (c v fl n len : Nat) : Item :=
  { titem 0x40 0 [(32, 1, c), (33, 1, v), (34, 1, fl), (36, 4, n), (56, 4, len)] with ikey := some (2 ^ 48 + 5) }
/-- The replay table holds the key of `ledIt` with code 1 of volume 0. -/
def ledRp (cmd : Option Nat) (l : Ledger) : Ledger := { l with rp := [{ init := 1, seq := 5, src := some 0, lcmd := 1, vol := 0, cmd := cmd }] }

/-- Each command goes on; a reserved one, one without a key, a duplicate in progress and one with a stored answer, one of no blocks; no slot
free; an APPEND from poisoned DRAM. -/
theorem test_ledger_items :
    let cs := fun f it => ledCase (ledSt f it) it (lBody it)
    let good := [ledIt 1 0 0 1 4096, ledIt 2 0 0 1 4096, ledIt 3 1 0 16 16, ledIt 3 1 2 16 16, ledIt 4 0 0 0 0, ledIt 5 0 0 1 0, ledIt 8 1 0 1 64,
      ledIt 9 1 0 0 0]
    (∀ it ∈ good, itemAt (ledSt id it) 1 0x40 0 = some it ∧ cs id it = .go ∧ slotFree (ledSt id it) false = true)
    ∧ cs id (ledIt 6 0 0 0 0) = .fail St.invalidField ∧ ledCmds.contains (lBody (ledIt 6 0 0 0 0)).lcmd = false
    ∧ cs id { ledIt 1 0 0 1 4096 with ikey := none } = .fail St.ledgerNoKey
    ∧ cs (ledRp (some 7)) (ledIt 1 0 0 1 4096) = .attach 7
    ∧ (match cs (ledRp none) (ledIt 1 0 0 1 4096) with
      | .stored e => e.seq
      | _ => 0) = 5
    ∧ cs id (ledIt 1 0 0 0 0) = .none0
    ∧ slotFree (regPut (ledSt id (ledIt 1 0 0 1 4096)) Reg.LED_CTL 0 (4096 * 65536)) false = false
    ∧ (lBody (ledIt 3 1 2 16 16)).bufInt = true
    ∧ poisonedIn (ledSt id (ledIt 3 1 2 16 16)) (lBody (ledIt 3 1 2 16 16)).bufAddr (lBody (ledIt 3 1 2 16 16)).count = true
    ∧ (lBody (ledIt 3 1 0 16 16)).bufInt = false := by decide +kernel

/-- SANITISE and FORMAT of volume 0, of the pool and of a rebuild, each with a key; an operation in progress after recovery. -/
theorem test_ledger_operations :
    let ad := fun (c v : Nat) => { titem 0x60 c [(32, 1, v)] with ikey := some (2 ^ 48 + 5) }
    let st := ledSt id (ad 5 0)
    let o : LOp := { kind := 2, vol := 0, item := none, key := 2 ^ 48 + 5, body := [] }
    itemAt st 1 0x60 5 = some (ad 5 0)
    ∧ (∀ v ∈ [0, 0xFF, 0xFE], itemAt (ledSt id (ad 6 v)) 1 0x60 6 = some (ad 6 v) ∧ (ad 6 v).body 32 1 = v)
    ∧ st.led.op = none ∧ ledKeyCase st (ad 5 0) 0 codeSanitise (ownsVol st (ad 5 0) 0) = .go
    ∧ ledKeyCase st (ad 5 0) 0 codeSanitise false = .fail St.accessDenied
    ∧ gateOpen (ledSt id (ad 6 0xFE)) 1 (ad 6 0xFE) = true
    ∧ st.led.op.any (fun p => p.item.isNone && some p.key == (ad 5 0).ikey && (ad 5 0).ikey.isSome && p.vol == 0) = false
    ∧ (ledSt (fun l => { l with op := some o }) (ad 5 0)).led.op = some o ∧ o.item = none ∧ (ad 5 0).ikey = some o.key ∧ o.vol = 0 := by
  decide +kernel

/-- Units that write and that commit, a snapshot, READ and LOG_READ whose blocks can be read and cannot, an open group, a drive in service and
none, a forwarded command sent once and four times, a grant of which nothing came, and an operation that runs. -/
theorem test_ledger_engine :
    let cu : CU := { vol := 0, ckind := 1, cmds := [], st := .writing }
    let fw : Fwd := ⟨1, 2, 0, false, 1, 0, 0, [], [], 0, 0, 0, none⟩
    let cm : LCmd := { src := .item 1, fn := 0, vol := 1, lcmd := 8, count := 1, st := .reading }
    let s := ledSt (fun l => { l with
      cus := [(1, cu), (2, { cu with st := .committing }), (3, { cu with fwd := some fw }), (4, { cu with fwd := some { fw with tries := 3 } }),
        (5, { cu with st := .ready })],
      cmds := [(1, { cm with lcmd := 1, vol := 0 }), (2, cm), (3, { cm with grant := some 1, decl := 8 }), (4, { cm with lcmd := 4 })],
      snap := some { seq := 1, vols := [], rp := [], floors := [], fwdSeq := 0 },
      op := some { kind := 2, vol := 0, item := none, key := 1, body := [], st := .running, doneGib := 0 } }) (titem 0 0 [])
    let g := modVol s 1 (fun v => { v with opened := [⟨0, 0, [], [], 2⟩] })
    let p := modVol s 1 (fun v => { v with p := { v.p with pages := [(0, (0, 1))], map := [(0, 900)] } })
    tget s.led.cus 1 = some cu ∧ tget s.led.cus 2 = some { cu with st := .committing } ∧ s.led.snap.isSome = true ∧ s.led.pool.isSome = true
    ∧ getCmd s 1 = some { cm with lcmd := 1, vol := 0 } ∧ getCmd s 2 = some cm
    ∧ readable s 1 [] = true ∧ readable s 1 [(0, 0)] = false ∧ readable p (getVol p 1).p.pages.length [(0, 0)] = false
    ∧ chainOk (chainBefore s (getVol s 1).p 0) (fitRecs 0 (recsFrom s (getVol s 1).p 0)) = true
    ∧ (let r := modVol { s with led := { s.led with drives := [(0, { st := 1, mem := mput [] (4096 * 900 + 8) 2 1 })] } } 1 (fun v =>
        { v with p := { v.p with pages := [(0, (0, 1))], map := [(0, 900)], nextRec := 1 } })
      chainOk (chainBefore r (getVol r 1).p 0) (fitRecs 64 (recsFrom r (getVol r 1).p 0)) = false)
    ∧ tget s.led.cus 5 = some { cu with st := .ready }
    ∧ (getVol g 1).opened.head? = some ⟨0, 0, [], [], 2⟩ ∧ (getVol g 1).opened.getLast? = some ⟨0, 0, [], [], 2⟩
    ∧ (4, { cm with lcmd := 4 }) ∈ g.led.cmds ∧ (2 : Nat) < 4 ∧ (getVol g 1).openAt + 1000 * (getVol g 1).p.groupUs ≤ now g
    ∧ (tget s.led.drives 0).any (fun x => x.st == 1) = true
    ∧ (tget (ledSt (fun l => { l with drives := [(0, {})] }) (titem 0 0 [])).led.drives 0).any (fun x => x.st == 0) = true
    ∧ tget s.led.cus 3 = some { cu with fwd := some fw } ∧ fw.done = none ∧ fw.sentAt + 1000000 * rfld s Reg.LED_CTL 0 7 0 ≤ now s
    ∧ tget s.led.cus 4 = some { cu with fwd := some { fw with tries := 3 } }
    ∧ gotAll { cm with grant := some 1, decl := 8 } = false ∧ cm.boundAt + 1000000 * rfld s Reg.LED_CTL 0 15 8 ≤ now s
    ∧ s.led.op.any (fun o => o.st == .running && o.doneGib == 0) = true := by decide +kernel

/-! ## DRAM, cache, CAM -/

/-- Line 0 waits in its write queue, in its read queue behind a bank of a repair, or at its stop; it is the one picked, or another is; a
batch that starts and one that an urgent read stops; a refresh, a delay copy, a scrub, self-refresh in Idle and the end of a repair. -/
theorem test_dram :
    let s := qst {}
    let w := fun (c : SubCh) => setSub s 0 c
    let q := fun (l : Nat) => (⟨l, 7, 0⟩ : MemReq)
    let stop := { s with dmc := { s.dmc with stops := [(0, [⟨0, some [], false, 7, 0⟩])] } }
    let held := w { repairs := [⟨0, 5, false⟩] }
    let idle := { s with pwr := { s.pwr with mode := Mode.idle, devtime := 2 ^ 40 } }
    let late := regPut (w { rq := [q 0] }) (Reg.DMC_PORT0_TGT + 8 * 7) 0 0
    subOf 0 = 0 ∧ stopOf 0 = 0 ∧ 0 < dramLines s ∧ 128 < dramLines s ∧ subOf 128 = 1 ∧ bankHeld s 0 = false ∧ (getSub s 0).wq = [] ∧ (getSub s 0).rq = []
    ∧ (getSub (w { wq := [q 0] }) 0).wq = [q 0] ∧ pickReq (queueRead (subReq s 0) 0 7) (getSub (queueRead (subReq s 0) 0 7) 0).rq = some ⟨0, 7, now s⟩
    ∧ pickReq (queueRead (subReq held 0) 0 7) (getSub (queueRead (subReq held 0) 0 7) 0).rq = none
    ∧ pickReq s [q 0] = some (q 0)
    ∧ tgetD s.dmc.stops 0 [] = [] ∧ tgetD stop.dmc.stops 0 [] ≠ [] ∧ bankHeld held 0 = true ∧ (getSub s 127).asleep = false
    ∧ urgentRead s 127 = false ∧ urgentRead late 0 = true ∧ bankHeld (w { wq := [q 0] }) 0 = false
    ∧ 63 ∈ ({ s.dmc with pend := [63] } : Dmc).pend
    ∧ rfld s Reg.DMC_CTL 0 7 0 ≠ 0
    ∧ (let l := lineAt 127 ((getSub s 127).scrub % (dramLines s / 128))
      pickReq s ((getSub s 127).rq ++ [⟨l, 6, now s⟩]) = some ⟨l, 6, now s⟩)
    ∧ (let l := lineAt 0 ((getSub held 0).scrub % (dramLines held / 128))
      pickReq held ((getSub held 0).rq ++ [⟨l, 6, now held⟩]) ≠ some ⟨l, 6, now held⟩)
    ∧ modeOf idle = Mode.idle ∧ rfld idle Reg.DMC_CTL 0 31 16 ≠ 0 ∧ (getSub idle 127).repairs = [] ∧ (getSub idle 127).rq = []
    ∧ (getSub idle 127).lastReq + 1000 * rfld idle Reg.DMC_CTL 0 31 16 ≤ now idle
    ∧ (getSub held 0).repairs.find? (fun r => r.bank == 0) = some ⟨0, 5, false⟩ := by decide +kernel

/-- The DRAM and cache registers are reached by FN 0; a channel that is pending and one that is not; a repair that runs and Maintain. -/
theorem test_memory_registers :
    let s := qst {}
    let m := { s with pwr := { s.pwr with mode := Mode.maintain } }
    (∀ off ∈ [Reg.DMC_DLY_APPLY, Reg.DMC_CTL, Reg.DMC_DLY_BIN, Reg.DMC_DLY_VAL, Reg.DMC_PPR_CMD, Reg.SC_OP, Reg.SC_CTL, Reg.SC_PWR, Reg.SC_LOCK,
      slotReg 0, slotReg 11], Reaches s (.host 0) off ∧ Reaches m .sill off)
    ∧ pfPath (.host 0) = true ∧ fld (selGet (dropHalves s (.host 0)) (.host 0) Reg.DMC_DLY_SEL) 14 8 / 2 = 0
    ∧ fld (selGet (dropHalves s (.host 0)) (.host 0) Reg.DMC_DLY_SEL) 3 0 ≠ 15 ∧ s.dmc.pend = []
    ∧ fld (2 ^ 30) 31 30 = 1 ∧ fld (2 ^ 31) 31 30 = 2 ∧ repairing s = false ∧ repairing (setSub s 0 { repairs := [⟨0, 5, false⟩] }) = true
    ∧ modeOf m = Mode.maintain ∧ repairing m = false ∧ modeOf s ≠ Mode.maintain ∧ rfld s (slotReg 11) 0 30 30 = 0 := by
  refine ⟨fun off h => ?_, by decide⟩
  simp only [List.mem_cons, List.not_mem_nil, or_false] at h
  rcases h with rfl | rfl | rfl | rfl | rfl | rfl | rfl | rfl | rfl | rfl | rfl <;>
    exact ⟨reaches_of (by decide) rfl, reaches_of (by decide) rfl⟩

/-- Scratch slot 0 holds way 0 and is READY or not, and a run's; the requests that are misaligned, denied, of no storage, waiting and served, in
DRAM and in scratch. -/
theorem test_cache :
    let s := qst {}
    let sl := fun (v : Nat) => regPut s (slotReg 0) 0 v
    let op := fun (n : Nat) => regPut s Reg.SC_OP_LEN 0 n
    let ret := fun (w : Tab Nat) => ({ s.cache with retiring := [0], wstate := w } : Cache)
    let rq := fun (init a : Nat) => (⟨init, 0, false, a, 128, none, 255, 0, none⟩ : FabReq)
    rfld (sl (2 ^ 31)) (slotReg 0) 0 31 31 = 1 ∧ rfld (sl (2 ^ 31)) (slotReg 0) 0 0 0 = 0 ∧ rfld (sl (2 ^ 31 + 1)) (slotReg 0) 0 0 0 = 1
    ∧ rfld (sl (2 ^ 31 + 2 ^ 30)) (slotReg 0) 0 30 30 = 1 ∧ rfld s (slotReg 11) 0 31 31 = 0
    ∧ s.cache.waits = [] ∧ dataShape 1 128 = false ∧ dataShape 0 128 = true ∧ dataShape 0xE000000000 128 = true
    ∧ reqCheck s (rq 0x90 0) = .denied 0 ∧ reqCheck s (rq 0x94 0x7F80000000) = .unbacked ∧ reqCheck s (rq 0x94 0xE000000000) = .unbacked
    ∧ reqCheck s (rq 0x94 0) = .ok ∧ reqWaits s (rq 0x94 0) = false ∧ winOk s 0 0 128 = false
    ∧ reqCheck (sl (2 ^ 31)) (rq 0x90 0xE000000000) = .ok ∧ reqWaits (sl (2 ^ 31)) (rq 0x90 0xE000000000) = true
    ∧ reqCheck (sl (2 ^ 31 + 1)) (rq 0x90 0xE000000000) = .ok ∧ reqWaits (sl (2 ^ 31 + 1)) (rq 0x90 0xE000000000) = false
    ∧ scratchWay (sl (2 ^ 31 + 1)) (0xE000000000 / 128) ∉ s.cache.absent ∧ poisonedIn s 0 128 = false
    ∧ 0 + 128 ≤ ledgerArea s ∧ 0 + 128 ≤ dramSize s ∧ regGet s Reg.SC_OP_LEN 0 = 0
    ∧ s.cache.op = none ∧ regGet (op 128) Reg.SC_OP_LEN 0 ≠ 0
    ∧ regGet (op 128) Reg.SC_OP_BASE 0 + regGet (op 128) Reg.SC_OP_LEN 0 ≤ dramSize (op 128)
    ∧ dramSize (op (2 ^ 40)) < regGet (op (2 ^ 40)) Reg.SC_OP_BASE 0 + regGet (op (2 ^ 40)) Reg.SC_OP_LEN 0
    ∧ rfld (regPut s Reg.SC_STATUS 0 1) Reg.SC_STATUS 0 0 0 = 1
    ∧ isOff (regPut s Reg.SC_PWR 0 (2 ^ 15)) 15 = true ∧ s.cache.lost = []
    ∧ 0 * 16 + 0 ∈ (ret []).retiring ∧ [16, 17].find? (fun p => tgetD (ret []).wstate (0 * 18 + p) 1 == 1) = some 16
    ∧ [16, 17].find? (fun p => tgetD (ret [(16, 2), (17, 2)]).wstate (0 * 18 + p) 1 == 1) = none := by decide +kernel

/-- The CAM with entry 0 valid and matching everything, with no entry, and while a block loads; a search that waits; an update of one record
to set an entry, good, misaligned and with a reserved flag; a search of one key, good, misaligned, without a length and too short. -/
theorem test_cam :
    let s := qst {}
    let c := fun (x : Cam) => { s with cam := x }
    let up := fun (a fl : Nat) => titem 0x30 0 [(32, 8, a), (48, 4, 1), (56, 1, fl)]
    let upd := up 0 1
    let rec1 := fun (op : Nat) => { engSt [] upd with host := mput [] 45 1 op }
    let se := fun (a len fl : Nat) => titem 0x31 0 [(32, 8, a), (40, 8, 0x40), (48, 4, 1), (52, 4, len), (56, 1, fl)]
    let src := se 0 16 3
    let fail := fun (op : Nat) => camRecFail (rec1 op) 0 (chunks 64 1 (itemRead (rec1 op) true 0 64)) 0
    camLoading s 0 = false ∧ camLoading (c { load := some 0 }) 0 = true ∧ camStoredValid s 0 = false
    ∧ camStoredValid (c { mem := mput [] 44 1 1 }) 0 = true ∧ camPick [⟨0, 0, 3⟩, ⟨1, 1, 2⟩] = some ⟨1, 1, 2⟩
    ∧ itemAt (rec1 1) 1 0x30 0 = some upd ∧ fail 1 = none ∧ fail 0 = some (St.invalidField, 0)
    ∧ (up 1 1).body 32 8 % 64 ≠ 0 ∧ 1 < (up 0 2).body 56 1 ∧ bitOf ((up 0 0).body 56 1) 0 = false
    ∧ winIt (engSt [] (up 0 0)) (up 0 0) (2 ^ 38) 64 = false
    ∧ itemAt (engSt [] src) 1 0x31 0 = some src ∧ 16 * src.body 48 4 ≤ src.body 52 4 ∧ src.body 52 4 ≠ 0xFFFFFFFF
    ∧ (se 1 16 3).body 32 8 % 64 ≠ 0 ∧ (se 0 0xFFFFFFFF 3).body 52 4 = 0xFFFFFFFF ∧ (se 0 15 3).body 52 4 < 16 * (se 0 15 3).body 48 4
    ∧ bitOf ((se 0 16 0).body 56 1) 0 = false ∧ winIt (engSt [] (se 0 16 0)) (se 0 16 0) (2 ^ 38) 32 = false
    ∧ (camFind (c { mem := mput [] 44 1 1 }) 0 0).any (fun h => h.index == 0 && h.count == 1) = true ∧ camFind s 0 0 = none
    ∧ memWf (c { mem := mput [] 44 1 1 }).cam.mem = true
    ∧ 131071 ∈ (c { reload := [131071] }).cam.reload ∧ rfld s Reg.CAM_STAT 0 17 17 = 0 ∧ s.cam.load = none
    ∧ rfld (regPut s Reg.CAM_STAT 0 (2 ^ 17)) Reg.CAM_STAT 0 17 17 ≠ 0 := by decide +kernel

/-- An engine's request whose bytes lie in its function's window and are poisoned. -/
theorem test_poisoned_windows :
    let upd := titem 0x30 0 [(32, 8, 0), (48, 4, 1), (56, 1, 0)]
    let s := { engSt [] upd with poison := [0] }
    itemAt s 1 0x30 0 = some upd ∧ winIt s upd 0 64 = true ∧ poisonedIn s 0 64 = true := by decide +kernel

/-! ## Power, clocks and modes -/

/-- A request from FN 0, from a host that has no link, with one outstanding; items for a target that is reserved, that is taken, that finds
the slot busy, and that comes in Maintain. -/
theorem test_mode_requests :
    let s := qst {}
    let q : ModeReq := { target := 2, ingestStop := false, drainMs := 0, wakeAt := 0, item := none, since := 0 }
    let it := fun (t : Nat) => titem 0x60 8 [(32, 1, t)]
    let st := fun (m : Nat) (r : Option ModeReq) => let s := engSt [] (it 2); { s with pwr := { s.pwr with mode := m, req := r } }
    let err := fun (s : State) => errOf (modeRequest s { q with item := some 1 })
    reqPath (.host 0) s = true ∧ reqPath (.host 0) State.reset = false ∧ reqPath .jtag s = false ∧ s.pwr.por = false ∧ workMode (modeOf s) = true ∧ s.pwr.req = none
    ∧ ({ s.pwr with req := some q }).req = some q
    ∧ (∀ t ∈ [1, 2, 5], itemAt (engSt [] (it t)) 1 0x60 8 = some (it t) ∧ (it t).body 32 1 = t)
    ∧ err (st Mode.serve none) = none ∧ err (st Mode.serve (some q)) = some ReqErr.busy ∧ err (st Mode.maintain none) = some ReqErr.invalid := by
  decide +kernel

/-- In Drain: with an item at work and with none, toward each target; a hot sensor, a pool, a snapshot being written, no place for the item's
entry; a drain past its limit. -/
theorem test_drains :
    let q := fun (t : Nat) => ({ target := t, ingestStop := false, drainMs := 1, wakeAt := 0, item := none, since := 0 } : ModeReq)
    let st := fun (r : ModeReq) => let s := qst {}; { s with pwr := { s.pwr with mode := Mode.drain, req := some r, devtime := 2 ^ 40 } }
    let hot := fun (k : Int) => { st (q 4) with pwr := { (st (q 4)).pwr with temps := [(0, k)] } }
    let pool := led (st (q 3)) (fun l => { l with pool := some { poolId := 1, blocks := 1, mapBlocks := 1, gen := 1 } })
    let full := ist { qst { st := .active, cqTail := 15, cqHead := 0, overflow := List.replicate 1024 cqe } with pwr := (st (q 3)).pwr } none
      { titem 0x60 8 [] with phase := .committed }
    modeOf (st (q 2)) = Mode.drain ∧ (∀ t ∈ [2, 3, 4, 5], drained (st (q t)) (q t) = true)
    ∧ drained { full with pwr := (st (q 2)).pwr } (q 2) = false
    ∧ (hot 1000).pwr.temps.any (fun t => decide (tripTemp (hot 1000) - 40 ≤ t.2)) = true
    ∧ (hot 0).pwr.temps.any (fun t => decide (tripTemp (hot 0) - 40 ≤ t.2)) = false
    ∧ pool.led.pool.isSome = true ∧ (q 3).snapBegun = false ∧ pool.led.snap = none ∧ drained pool (q 3) = true
    ∧ (st (q 3)).led.pool = none ∧ reqMay full { q 3 with item := some 1 } = false ∧ reqMay (st (q 3)) (q 3) = true
    ∧ drained full { q 3 with item := some 1 } = true
    ∧ (q 2).since + 1000000 * (q 2).drainMs ≤ now (st (q 2)) ∧ now (qst {}) < (q 2).since + 1000000 * (q 2).drainMs := by decide +kernel

/-- A mode with no load, Maintain that Provision entered, and Hold. -/
theorem test_mode_moves :
    let s := fun (m : Nat) => { qst {} with pwr := { (qst {}).pwr with mode := m, maintAuto := true } }
    workMode (modeOf (s Mode.batch)) = true ∧ modeOf (s Mode.maintain) = Mode.maintain ∧ ledgerOp (s Mode.maintain) = false
    ∧ workMode (modeOf (s Mode.hold)) = false ∧ modeOf (s Mode.hold) ≠ Mode.maintain := by decide

/-- The AON domain with power and without; posted writes of AON_DEVTIME, of which the last counts. -/
theorem test_devtime :
    let s := qst {}
    (s.pwr.por = false ∧ s.regs.posted = []) ∧ State.reset.pwr.por = true
    ∧ reqPath .sill s = true ∧ aonWritable .sill Reg.AON_DEVTIME = true ∧ aonWritable (.host 0) Reg.AON_DEVTIME = false
    ∧ (lastWrites [⟨.sill, Reg.AON_DEVTIME, 5⟩, ⟨.sill, Reg.AON_DEVTIME, 7⟩]).find? (fun w => w.off == Reg.AON_DEVTIME)
      = some ⟨.sill, Reg.AON_DEVTIME, 7⟩ := by decide

/-- Samples of 64 sensors that are cold, and of which sensor 0 is at the threshold again; estimates above and below the limit. -/
theorem test_samples :
    let s := qst {}
    let h := { s with pwr := { s.pwr with hot := [0] } }
    let ts := fun (t : Int) => List.replicate 64 t
    s.pwr.mode ≠ Mode.retain ∧ (ts 0).length = 64 ∧ s.pwr.hot = [] ∧ s.pwr.therm = false
    ∧ 0 ∈ h.pwr.hot ∧ (ts (tripTemp h))[0]? = some (tripTemp h)
    ∧ 1000 * rfld s Reg.PWR_LIMIT 0 8 0 < 1000000 ∧ 100 * 0 ≤ 95 * (1000 * rfld s Reg.PWR_LIMIT 0 8 0)
    ∧ limitable (setCluster s 0 { st := .active }) ≠ [] ∧ lowerSet (setCluster s 0 { st := .active }) ≠ []
    ∧ raiseSet (setCluster s 0 { st := .active }) ≠ [] := by decide +kernel

/-! ## Security, start-up, faults, registers, ADMIN -/

/-- The boot flash: record A names slot A, the record B is not one, and slot B holds this header; `tr` is TRY. -/
def flashSt (m tr : Nat) (head : List (Nat × Nat × Nat)) : State :=
  let s := { qst {} with pwr := { (qst {}).pwr with mode := m } }
  let p := natLE 4 0x54504F42 ++ natLE 8 1 ++ natLE 1 0 ++ natLE 1 tr ++ natLE 1 0 ++ natLE 17 0
  let cells := fun (a : Nat) (bs : List Byte) => bs.zipIdx.map (fun x => (a + x.2, x.1))
  { s with sec := { s.sec with
    flash := cells 0 (p ++ sha384 p) ++ cells 0x1000 [0, 0, 0, 0] ++ cells (slotAddr 1) (tbytes 16 head) } }
/-- A header that passes step 1. -/
def goodHead : List (Nat × Nat × Nat) := [(0, 4, 0x4D524146), (4, 2, 1), (12, 4, 1)]
/-- A state with one request in the mailbox. -/
def askSt (s : State) (r : SReq) : State := { s with sec := { s.sec with reqs := [r] } }

theorem asked_of {s : State} (cmd : Nat) (data : List Byte) (h : sillServes s = true) :
    Asked (askSt s ⟨0, cmd, data⟩) cmd 0 data (askSt s ⟨0, cmd, data⟩) ⟨0, cmd, data⟩ :=
  ⟨h, fun _ => by decide, by decide, rfl, rfl, rfl, .inl ⟨by decide, rfl⟩⟩

/-- A request from the mailbox in Serve and in Lockdown, and one over SMBus. -/
theorem test_requests :
    Asked (askSt (qst {}) ⟨0, 1, []⟩) 1 0 [] (askSt (qst {}) ⟨0, 1, []⟩) ⟨0, 1, []⟩
    ∧ Asked (askSt (flashSt Mode.lockdown 0 []) ⟨0, 2, []⟩) 2 0 [] (askSt (flashSt Mode.lockdown 0 []) ⟨0, 2, []⟩) ⟨0, 2, []⟩
    ∧ Asked (qst {}) 3 1 [] (askSt (qst {}) ⟨1, 3, []⟩) ⟨1, 3, []⟩ :=
  ⟨asked_of 1 [] (by decide), asked_of 2 [] (by decide), by decide, fun _ => by decide, by decide, rfl, rfl, rfl, .inr ⟨rfl, rfl, rfl, rfl⟩⟩
/-- Slot B with no header, with one of a low SVN, and with a faulty compare; a boot pointer whose TRY is the slot in use and one whose TRY is
none; a request of another source. A slot that passes step 4 rests on the opaque fuses. -/
theorem test_firmware :
    let s := flashSt Mode.serve 0 goodHead
    let none_ := flashSt Mode.serve 0 []
    let other := { s with sec := { s.sec with fwSrc := some 1 } }
    (bootPtr s).map (·.try_) = some 0 ∧ (bootPtr (flashSt Mode.serve 0xFF [])).map (·.try_) = some 0xFF ∧ s.sec.slot = 0
    ∧ inactiveSlot s = 1 ∧ workMode (modeOf s) = true
    ∧ verifySlot none_ 1 false false = .bad ∧ verifySlot { s with sec := { s.sec with svnFused := 1 } } 1 false false = .rollback
    ∧ verifySlot s 1 true false = .fault
    ∧ fwOther s ⟨0, 0x10, []⟩ = false ∧ fwOther other ⟨0, 0x10, []⟩ = true
    ∧ leAt (natLE 5 0) 0 4 + ((natLE 5 0).length - 4) ≤ slotSize30 ∧ slotSize30 < leAt (natLE 4 slotSize30 ++ [0]) 0 4 + ((natLE 4 slotSize30 ++ [0]).length - 4) ∧ bitOf 8 3 = true
    ∧ ((takeInbox (brySt { st := BSt.up, inbox := [⟨2, 9, [1]⟩] }) 0 2 9).map (·.1)) = some ⟨2, 9, [1]⟩
    ∧ (brySt { st := BSt.up }).sec.reqs = [] := by decide +kernel

/-- POR_L low and high, a boot with no boot pointer, Retain with every wake source on and off, PERST# low and high. -/
theorem test_resets :
    let s := fun (m en : Nat) => { qst {} with pwr := { (qst {}).pwr with mode := m, wakeEn := en, wakeAt := 1, devtime := 2, perst := true } }
    let f := { State.reset with sec := { State.reset.sec with flash := [(0, 0), (1, 0), (2, 0), (3, 0), (0x1000, 0), (0x1001, 0), (0x1002, 0), (0x1003, 0)] } }
    let b := fun (x : State) => { x with pwr := { x.pwr with por := false, mode := Mode.boot } }
    State.reset.pwr.por = true ∧ (qst {}).pwr.por = false ∧ modeOf (bootVerify (b f) 0) = Mode.lockdown
    ∧ modeOf (s Mode.retain 15) = Mode.retain ∧ (∀ k ∈ [0, 1, 2, 3], bitOf (s Mode.retain 15).pwr.wakeEn k = true ∧ bitOf (s Mode.retain 0).pwr.wakeEn k = false)
    ∧ (s Mode.retain 15).pwr.wakeAt ≠ 0 ∧ (s Mode.retain 15).pwr.wakeAt ≤ (s Mode.retain 15).pwr.devtime ∧ (qst {}).pwr.wakeAt = 0
    ∧ (s Mode.serve 0).pwr.perst = true ∧ modeOf (s Mode.serve 0) = Mode.serve ∧ (qst {}).pwr.perst = false ∧ modeOf (qst {}) = Mode.serve
    ∧ modeOf { (s Mode.boot 0) with pwr := { (s Mode.boot 0).pwr with perst := false } } = Mode.boot := by decide +kernel

/-- Provision with drives awaited, in time and late, and with the fill done, an operation that runs and none. -/
theorem test_startup :
    let s := fun (step t : Nat) => { qst {} with pwr := { (qst {}).pwr with mode := Mode.provision, startStep := step, devtime := t } }
    let op := led (s 6 0) (fun l => { l with op := some { kind := 2, vol := 0, item := none, key := 1, body := [] } })
    modeOf (s 5 0) = Mode.provision ∧ (s 5 0).pwr.startStep = 5 ∧ now (s 5 0) ≤ (s 5 0).pwr.drivesAt + 10000000000
    ∧ (s 5 (2 ^ 40)).pwr.drivesAt + 10000000000 ≤ now (s 5 (2 ^ 40)) ∧ (s 6 0).pwr.startStep = 6 ∧ (s 5 0).pwr.startStep ≠ 6
    ∧ ledgerOp { op with pwr := { op.pwr with startStep := 7, fromRetain := false } } = true ∧ ledgerOp (s 6 0) = false := by decide

/-- Tile 0 in Serve, in Provision and in Recover, with a spare and without, with rows to spare and none; a cache line, a Bridy lane and the Sill core; a recovery that is fenced, one that has ended; a tile under self-test. -/
theorem test_faults :
    let s := fun (m : Nat) => { qst {} with cores := [(0, coreInit 0)], pwr := { (qst {}).pwr with mode := m } }
    let r : Recovery := { phys := 0, logical := 0, startAt := 0, kind := 1, inPlace := false, fenced := true, replaying := [] }
    unitOn (s Mode.serve) 1 0 = true ∧ unitOn (s Mode.serve) 3 0 = true ∧ modeOf (s Mode.recover) = Mode.recover ∧ unitOn (s Mode.recover) 1 0 = true
    ∧ logTile (s Mode.serve) 0 = some 0 ∧ logTile (s Mode.serve) 143 = none ∧ spareFreeIn (s Mode.serve) 0 = true
    ∧ spareFreeIn { s Mode.serve with ras := { (s Mode.serve).ras with pstate := [(0, 0)] } } 0 = false ∧ 0 < (s Mode.serve).ras.sramFree
    ∧ mayRecover (s Mode.serve) = true ∧ mayRecover (s Mode.provision) = false ∧ unitOn (s Mode.provision) 1 0 = true
    ∧ inArray 1 = true ∧ inArray 3 = true ∧ inArray 2 = false ∧ unitOn (s Mode.recover) 9 0 = true
    ∧ unitOn { s Mode.serve with cores := [(148, coreInit 148)] } 1 148 = true
    ∧ kimgValid (regPut (s Mode.recover) Reg.TILE_KIMG 0 1) = true ∧ recovered (s Mode.recover) r = false
    ∧ recovered (s Mode.recover) { r with fenced := false } = true ∧ ({ (s Mode.serve).ras with bist := [143] }).bist.contains 143 = true := by
  decide +kernel

/-- A write with no link, of 3 bytes, of no register, and of one that is open and, in Lockdown, closed; a scrub of an instance of a function's
and of the device's; a rewrite of one that mismatches and of one that does not. -/
theorem test_register_writes :
    let s := qst { st := .active }
    let l := { s with pwr := { s.pwr with mode := Mode.lockdown } }
    let b := { s with regs := { s.regs with bad := [(Reg.QM_Q_CFG, 0)] } }
    pathUp State.reset (.host 0) = false ∧ pathUp s (.host 0) = true ∧ regShape 0 3 = false ∧ targetOf 0 (2 ^ 40) = none
    ∧ regShape Reg.PWR_LIMIT 8 = true ∧ targetOf 0 Reg.PWR_LIMIT = some (.reg Reg.PWR_LIMIT)
    ∧ denyClass s (.host 0) (some (.reg Reg.PWR_LIMIT)) = none ∧ regOpen s (.host 0) (.reg Reg.PWR_LIMIT) = true
    ∧ pathUp l (.core 144 0) = true ∧ targetOf (pathFn (.core 144 0)) Reg.PWR_LIMIT = some (.reg Reg.PWR_LIMIT)
    ∧ denyClass l (.core 144 0) (some (.reg Reg.PWR_LIMIT)) = none ∧ regOpen l (.core 144 0) (.reg Reg.PWR_LIMIT) = false
    ∧ (denyClass s .smbus (some (.reg Reg.SC_CTL))).isSome = true ∧ targetOf 0 0x710000 = some (.errlog 0)
    ∧ regShape Reg.PWR_LIMIT 4 = true ∧ reg64 Reg.PWR_LIMIT = false ∧ (∀ k ∈ [0, 4], regShape (Reg.SC_OP_BASE + k) 4 = true
      ∧ targetOf 0 (Reg.SC_OP_BASE + k) = some (.reg Reg.SC_OP_BASE) ∧ reg64 Reg.SC_OP_BASE = true
      ∧ denyClass s (.host 0) (some (.reg Reg.SC_OP_BASE)) = none ∧ regOpen s (.host 0) (.reg Reg.SC_OP_BASE) = true)
    ∧ targetOf 0 0xA10000 = some (.layMem 0) ∧ regOpen s (.host 0) (.layMem 0) = true ∧ denyClass s (.host 0) (some (.layMem 0)) = none
    ∧ instIs s Reg.PWR_LIMIT 0 = true ∧ parOwned Reg.PWR_LIMIT = false ∧ instIs s Reg.QM_Q_CFG 0 = true ∧ instIs s Reg.QM_Q_CFG 4095 = true
    ∧ parOwned Reg.QM_Q_CFG = true
    ∧ instBad s Reg.QM_Q_CFG 0 = false ∧ 0 ∈ activeQueues s ∧ queueHolder s 0 = instOwner s Reg.QM_Q_CFG 0
    ∧ rowOpen b (.host 0) Reg.QM_Q_CFG = true ∧ (regFields Reg.QM_Q_CFG).isSome = true ∧ regInst b (.host 0) 0 Reg.QM_Q_CFG = some 0
    ∧ instBad b Reg.QM_Q_CFG 0 = true := by decide +kernel

/-- ABORT of an item that is not there, of itself, of one that runs and one that failed, from a function that is not there; RESUME_QUEUE of each
queue state; reports and dumps of each buffer length. -/
theorem test_admin_items :
    let ab := fun (tag fn : Nat) => titem 0x60 1 [(34, 2, tag), (36, 1, fn)]
    let two := fun (it : Item) (tag fn : Nat) => let s := engSt [] (ab tag fn); { s with qm := { s.qm with items := [(1, ab tag fn), (2, { it with tag := 7 })] } }
    let nop := titem 0x7F 0 []
    let rq := fun (fl : Nat) => titem 0x60 2 [(35, 1, fl)]
    let rs := fun (q : HostQ) (fl : Nat) => ist (qst q) none (rq fl)
    let rep := fun (a n : Nat) => titem 0x60 7 [(32, 8, a), (40, 4, n)]
    let dmp := fun (n : Nat) => titem 0x60 3 [(40, 4, n), (44, 2, 1)]
    (∀ t ∈ [1, 2, 7], itemAt (two nop t 0) 1 0x60 1 = some (ab t 0)) ∧ fnExists (two nop 2 9) (targetFn (ab 2 9) 9) = false
    ∧ devQueue (two nop 7 0) 0 0 = some 0 ∧ itemTagged (two nop 2 0) 0 2 = none ∧ (itemTagged (two nop 1 0) 0 1).map (·.1) = some 1
    ∧ (itemTagged (two nop 7 0) 0 7).map (·.1) = some 2 ∧ abortCase (two nop 7 0) 2 nop ≠ .tooLate
    ∧ gateOpen (two nop 7 0) 1 (ab 7 0) = true ∧ (let s := two nop 7 0; devQueue { s with fns := { s.fns with queueRange := [] } } 0 0 = none)
    ∧ abortCase (two nop 7 0) 2 { nop with phase := .ready, status := 1 } = .tooLate
    ∧ (∀ fl ∈ [0, 1], itemAt (rs { st := .frozen } fl) 1 0x60 2 = some (rq fl) ∧ bitOf ((rq fl).body 35 1) 0 = (fl == 1))
    ∧ (getQ (rs {} 0) 0).st = .disabled ∧ (getQ (rs { st := .active } 0) 0).st = .active ∧ (getQ (rs { st := .frozen } 0) 0).st = .frozen
    ∧ parLeft (rs { st := .frozen } 0) 0 = false ∧ gateOpen (rs { st := .frozen } 0) 1 (rq 0) = true
    ∧ (let b := rs { st := .frozen, parityFrozen := true } 0
      parLeft { b with regs := { b.regs with bad := [(Reg.QM_Q_CFG, 0)] } } 0 = true)
    ∧ (∀ x ∈ [(1, 128), (64, 127), (64, 128)], itemAt (engSt [] (rep x.1 x.2)) 1 0x60 7 = some (rep x.1 x.2))
    ∧ (rep 64 0xFFFFFFFF).body 40 4 = 0xFFFFFFFF ∧ (dmp 0xFFFFFFFF).body 40 4 = 0xFFFFFFFF ∧ (titem 0x60 3 []).body 44 2 % 1024 = 0
    ∧ (titem 0x60 3 [(32, 8, 1)]).body 32 8 % 4096 ≠ 0 ∧ (rep 1 128).body 32 8 % 64 ≠ 0 ∧ (rep 64 127).body 40 4 < 128 ∧ (rep 64 128).body 40 4 = 128
    ∧ (∀ n ∈ [0, 2 ^ 31], itemAt (engSt [] (dmp n)) 1 0x60 3 = some (dmp n) ∧ (dmp n).body 44 2 % 1024 ≠ 0)
    ∧ (dmp 0).body 40 4 < (dumpBytes (engSt [] (dmp 0)) 1).length ∧ (dumpBytes (engSt [] (dmp (2 ^ 31))) 1).length ≤ (dmp (2 ^ 31)).body 40 4 := by
  decide +kernel

/-! ## The block as a whole -/

/-- Reset is canonical and idles; a command at the front runs; a denied write: the SMBus bridge on a register it may not write, with power and
without. -/
theorem test_block :
    State.reset.pending = [] ∧ MemOk State.reset ∧ Goes (step State.reset) ∧ Goes (step { qst {} with pending := [.aclkEdge] })
    ∧ rowTarget (.dmcCtlWrite .smbus 0) = some (.smbus, Reg.DMC_CTL) ∧ denyClass (qst {}) .smbus (some (.reg Reg.DMC_CTL)) = some 1
    ∧ pathUp (qst {}) .smbus = true ∧ pathUp State.reset .smbus = false ∧ (qst {}).pwr.evQueue.length < 64 :=
  ⟨rfl, by unfold MemOk; decide, ⟨_, rfl⟩, ⟨_, rfl⟩, rfl, by decide, by decide, by decide, by decide⟩

end Sys2Proof.Tests
end

/-! Proofs for the sequencer's ACXFER and branches (chapter 10, R205 to R207). -/

namespace Sys2Proof.Machine
open Sys2Proof Sys2Proof.Safety

/-! ## Bit fields -/

theorem bitOf_iff_fld (w i : Nat) : bitOf w i = true ↔ fld w i i = 1 := by
  simp only [bitOf, fld, Nat.add_sub_cancel_left, Nat.pow_one, beq_iff_eq]
/-- Only the bits that fit in a field are written to it. -/
theorem setFld_mod (w hi lo v : Nat) : setFld w hi lo (v % 2 ^ (hi + 1 - lo)) = setFld w hi lo v := by
  simp only [setFld, Nat.mod_mod]
/-- A field that reaches the top of a number is all of its bits from `lo` on. -/
theorem fld_of_lt {w hi lo : Nat} (hw : w < 2 ^ (hi + 1)) (hlo : lo ≤ hi + 1) : fld w hi lo = w / 2 ^ lo := by
  have hb : w / 2 ^ lo < 2 ^ (hi + 1 - lo) := by
    rw [Nat.div_lt_iff_lt_mul (Nat.two_pow_pos lo), ← Nat.pow_add, Nat.sub_add_cancel hlo]
    exact hw
  rw [fld, Nat.shiftRight_eq_div_pow, Nat.mod_eq_of_lt hb]

/-! ## Words of an accumulator (R203, R206) -/

/-- ACGET's word, by the bits it shows: word 4 is bits [71:64] with their sign extension. -/
theorem acWord_eq (a : Lane) (w : Nat) :
    acWord a w = if w < 4 then fld a.toNat (16 * w + 15) (16 * w) else fld a.toNat 71 64 + (if a.msb then 0xFF00 else 0) := by
  have hwidth : 16 * w + 15 + 1 - 16 * w = 16 := by omega
  have hword : fld a.toNat (16 * w + 15) (16 * w) = a.toNat / 2 ^ (16 * w) % 65536 := by
    simp only [fld, hwidth, Nat.shiftRight_eq_div_pow, Nat.reducePow]
  have htop : fld a.toNat 71 64 = a.toNat / 2 ^ 64 := fld_of_lt a.isLt (by decide)
  rw [acWord, hword, htop]
/-- ACPUT's accumulator: word 4 takes the low byte alone. -/
theorem acPut_eq (a : Lane) (w v : Nat) :
    acPut a w v = if w < 4 then BitVec.ofNat 72 (setFld a.toNat (16 * w + 15) (16 * w) v)
      else BitVec.ofNat 72 (setFld a.toNat 71 64 (v % 256)) := by
  have hlow : setFld a.toNat 71 64 (v % 256) = setFld a.toNat 71 64 v := setFld_mod a.toNat 71 64 v
  rw [acPut, hlow]

/-! ## Reserved encodings (R198, Table 10-7) -/

@[simp] theorem rowIf_false (r : SRow) : rowIf false r = none := rfl
theorem instrRow_acxfer (kind w2 : Nat) {w1 : Nat} (h : opOf w1 = 0x15) :
    instrRow kind w1 w2 = rowIf (decide (fld w1 8 6 ≤ 4) && fld w1 3 3 == 0) .acxfer := by simp only [instrRow, h]
theorem instrRow_brd (kind w2 : Nat) {w1 : Nat} (h : opOf w1 = 0x16) :
    instrRow kind w1 w2 = rowIf (brOk w1 6 2) .brd := by simp only [instrRow, h]
theorem instrRow_bra (kind w2 : Nat) {w1 : Nat} (h : opOf w1 = 0x17) :
    instrRow kind w1 w2 = rowIf (brOk w1 6 2) .bra := by simp only [instrRow, h]
theorem instrRow_brac (kind w2 : Nat) {w1 : Nat} (h : opOf w1 = 0x18) :
    instrRow kind w1 w2 = rowIf (brOk w1 6 1 && fld w1 5 4 == 0) .brac := by simp only [instrRow, h]
/-- The encodings that R207 reserves: conditions 6 and 7, and a field b that is not 0 beside z = 1. -/
theorem brOk_eq_false {w1 zb bhi : Nat} (h : 6 ≤ fld w1 9 7 ∨ (bitOf w1 zb ∧ fld w1 bhi 0 ≠ 0)) : brOk w1 zb bhi = false := by
  rcases h with hcond | ⟨hz, hb⟩
  · have hcond6 : decide (fld w1 9 7 < 6) = false := decide_eq_false (by omega)
    simp only [brOk, hcond6, Bool.false_and]
  · have hz1 : fld w1 zb zb ≠ 0 := by rw [(bitOf_iff_fld w1 zb).mp hz]; decide
    simp only [brOk, beq_false_of_ne hz1, beq_false_of_ne hb, Bool.or_false, Bool.and_false]
/-- BRD, BRA and BRAC with a reserved condition or field are no instruction. -/
theorem instrRow_branch_reserved (kind w1 w2 : Nat) (hop : opOf w1 = 0x16 ∨ opOf w1 = 0x17 ∨ opOf w1 = 0x18)
    (hres : 6 ≤ fld w1 9 7 ∨ (bitOf w1 6 ∧ fld w1 (if opOf w1 = 0x18 then 1 else 2) 0 ≠ 0)) : instrRow kind w1 w2 = none := by
  have hbad := brOk_eq_false hres
  rcases hop with h | h | h <;> simp only [h, reduceIte, Nat.reduceEqDiff] at hbad
  · rw [instrRow_brd kind w2 h, hbad, rowIf_false]
  · rw [instrRow_bra kind w2 h, hbad, rowIf_false]
  · rw [instrRow_brac kind w2 h, hbad, Bool.false_and, rowIf_false]

/-! ## What completes an instruction -/

section
variable {s : State} {n : Nat} {c : Core} {row : SRow} {w1 w2 : Nat}

/-- An instruction of `k` words that issues and changes registers only. -/
theorem issue_step1 (h : Issues s n c row w1 w2) (k : Nat) (f : Core → Nat → Core → Core) :
    issue n row s (fun s _ c w1 _ => step1 s k (f c w1)) = setCore s n (f c w1 (pcAdd c k)) := by
  rw [issue_done h rfl]
/-- A branch that issues: its effect on the registers, and the PC at its target or after its two words (R207). -/
theorem issue_branchBy (h : Issues s n c row w1 w2) (taken : Core → Nat → Bool) (f : Core → Nat → Core → Core) :
    issue n row s (fun s _ c w1 w2 => branchBy s c w2 (taken c w1) (f c w1)) = setCore s n { f c w1 c with
      pc := if taken c w1 then BitVec.ofNat 24 (addrAdd (wadd c.pc.toNat 2) (sgn 16 w2)) else BitVec.ofNat 24 (c.pc.toNat + 2) } := by
  rw [issue_done h rfl]
  cases taken c w1 <;> rfl

end

/-! ## The instructions -/

/-- ACXFER that issues: ACPUT with dir 1, else ACGET (R206). -/
theorem doAcxfer_of {s : State} {n : Nat} {c : Core} {w1 w2 : Nat} (h : Issues s n c .acxfer w1 w2) :
    doAcxfer n s = setCore s n (
      if bitOf w1 9 then setAC (pcAdd c 1) (fld w1 5 4) (acPut (acreg c (fld w1 5 4)) (fld w1 8 6) (dreg c (fld w1 2 0)))
      else setD (pcAdd c 1) (fld w1 2 0) (acWord (acreg c (fld w1 5 4)) (fld w1 8 6))) := by
  rw [doAcxfer]; exact issue_step1 h 1 _
/-- The conditions of R207. -/
theorem condHolds_eq (n a b : Nat) : condHolds 0 n a b = decide (a = b) ∧ condHolds 1 n a b = decide (a ≠ b)
    ∧ condHolds 2 n a b = decide (sgn n a < sgn n b) ∧ condHolds 3 n a b = decide (sgn n a ≥ sgn n b)
    ∧ condHolds 4 n a b = decide (a < b) ∧ condHolds 5 n a b = decide (a ≥ b) :=
  ⟨rfl, by rw [Bool.eq_iff_iff]; simp only [condHolds, bne_iff_ne, decide_eq_true_eq], rfl, rfl, rfl, rfl⟩

/-- Settles O2: ACGET and ACPUT by the word they move, and the words 5 to 7 by the decoder's row. -/
theorem acxferMovesOneWord : Obligations.AcxferMovesOneWord := by
  unfold Obligations.AcxferMovesOneWord
  refine ⟨fun s n c w1 w2 h => ?_, fun kind w1 w2 hop hw => ?_⟩
  · have hdone := doAcxfer_of h
    rw [acPut_eq, acWord_eq] at hdone
    exact next_congr hdone
  · have hbad : decide (fld w1 8 6 ≤ 4) = false := decide_eq_false (by omega)
    rw [instrRow_acxfer kind w2 hop, hbad, Bool.false_and, rowIf_false]

/-- Settles O3: the conditions, the decoder's reserved rows, and each branch by the rule of its displacement. -/
theorem branchesFollowTheirConditions : Obligations.BranchesFollowTheirConditions := by
  unfold Obligations.BranchesFollowTheirConditions
  refine ⟨condHolds_eq, instrRow_branch_reserved, fun s n c w1 w2 => ⟨?brd, ?bra, ?brac, ?dbnz⟩⟩
  case brd => exact fun h => next_congr (issue_branchBy h _ _)
  case bra => exact fun h => next_congr (issue_branchBy h _ _)
  case brac => exact fun h => next_congr (issue_branchBy h _ _)
  case dbnz =>
    intro h
    refine next_congr ((issue_branchBy h _ _).trans ?_)
    simp only [bne_iff_ne]

end Sys2Proof.Machine

/-! Proofs for completion rings and their overflow (chapter 14, R298 to R302). -/

namespace Sys2Proof.Machine
open Sys2Proof Sys2Proof.Safety

/-! ## What signalling an interrupt leaves of the queues -/

/-- A message changes the MSI-X state and what is sent, and nothing else. -/
theorem sendMsix_eq (s : State) (fn vec : Nat) : ∃ m o, sendMsix s fn vec = { s with msix := m, out := o } := by
  unfold sendMsix
  split
  · split
    · exact ⟨s.msix, s.out, rfl⟩
    · exact ⟨_, s.out, rfl⟩
  · exact ⟨s.msix, _, rfl⟩
@[simp] theorem sendMsix_regs (s : State) (fn vec : Nat) : (sendMsix s fn vec).regs = s.regs := by
  obtain ⟨m, o, h⟩ := sendMsix_eq s fn vec
  rw [h]
@[simp] theorem sendMsix_host (s : State) (fn vec : Nat) : (sendMsix s fn vec).host = s.host := by
  obtain ⟨m, o, h⟩ := sendMsix_eq s fn vec
  rw [h]
@[simp] theorem getQ_sendMsix (s : State) (fn vec r : Nat) : getQ (sendMsix s fn vec) r = getQ s r := by
  obtain ⟨m, o, h⟩ := sendMsix_eq s fn vec
  rw [h]; rfl

@[simp] theorem signalRing_regs (s : State) (r : Nat) : (signalRing s r).regs = s.regs := by simp [signalRing]
@[simp] theorem signalRing_host (s : State) (r : Nat) : (signalRing s r).host = s.host := by simp [signalRing]
@[simp] theorem getQ_signalRing_self (s : State) (r : Nat) : getQ (signalRing s r) r = { getQ s r with unsig := 0 } := by
  simp [signalRing]

/-- Counting an entry changes its ring's coalescing counts, and may signal (R310). -/
theorem countIrq_cases (s : State) (r : Nat) : ∃ u a,
    countIrq s r = signalRing (setQ s r { getQ s r with unsig := u, unsigAt := a }) r
      ∨ countIrq s r = setQ s r { getQ s r with unsig := u, unsigAt := a } :=
  ⟨_, _, (Decidable.em _).imp (fun h => if_pos h) (fun h => if_neg h)⟩
@[simp] theorem countIrq_regs (s : State) (r : Nat) : (countIrq s r).regs = s.regs := by
  obtain ⟨u, a, h | h⟩ := countIrq_cases s r <;> simp [h]
@[simp] theorem countIrq_host (s : State) (r : Nat) : (countIrq s r).host = s.host := by
  obtain ⟨u, a, h | h⟩ := countIrq_cases s r <;> simp [h]
theorem getQ_countIrq_self (s : State) (r : Nat) : ∃ u a, getQ (countIrq s r) r = { getQ s r with unsig := u, unsigAt := a } := by
  obtain ⟨u, a, h | h⟩ := countIrq_cases s r
  · exact ⟨0, a, by rw [h, getQ_signalRing_self, getQ_setQ_self]⟩
  · exact ⟨u, a, by rw [h, getQ_setQ_self]⟩

/-! ## Writing one entry -/

@[simp] theorem ringPut_regs (s : State) (r : Nat) (e : CqEntry) : (ringPut s r e).regs = s.regs := by
  simp only [ringPut]; split <;> simp
theorem ringPut_host (s : State) (r : Nat) (e : CqEntry) :
    (ringPut s r e).host = mwrite s.host (cqBase s r + 32 * (getQ s r).cqTail) (entryBytes e) := by
  simp only [ringPut]; split <;> simp [hostWrite, entryBytes]
/-- An entry moves its ring's tail one slot on; the rest of the queue but its coalescing counts stays. -/
theorem getQ_ringPut_self (s : State) (r : Nat) (e : CqEntry) : ∃ u a,
    getQ (ringPut s r e) r = { getQ s r with cqTail := ((getQ s r).cqTail + 1) % cqSize s r, unsig := u, unsigAt := a } := by
  simp only [ringPut]
  split
  · obtain ⟨u, a, h⟩ := getQ_countIrq_self (setQ (hostWrite s (cqBase s r + 32 * (getQ s r).cqTail) (entryBytes e)) r
      { getQ s r with cqTail := ((getQ s r).cqTail + 1) % cqSize s r }) r
    rw [getQ_setQ_self] at h
    exact ⟨u, a, h⟩
  · exact ⟨_, _, getQ_setQ_self _ _ _⟩
@[simp] theorem entryBytes_length (e : CqEntry) : (entryBytes e).length = 32 := by simp [entryBytes]

/-! ## Placing and moving entries -/

/-- A completion goes behind the entries in overflow (R302). -/
theorem placeEntry_overflow {s : State} {r : Nat} (e : CqEntry) (h : (getQ s r).overflow ≠ []) :
    placeEntry s r e = setQ s r { getQ s r with overflow := (getQ s r).overflow ++ [e] } := by
  have hne : (getQ s r).overflow.isEmpty = false := List.isEmpty_eq_false_iff.mpr h
  simp [placeEntry, hne]

@[simp] theorem moveOverflow_zero (s : State) (r : Nat) : moveOverflow 0 s r = s := rfl
theorem moveOverflow_nil (n : Nat) {s : State} {r : Nat} (h : (getQ s r).overflow = []) : moveOverflow n s r = s := by
  cases n with
  | zero => rfl
  | succ n => simp only [moveOverflow, h]
theorem moveOverflow_full (n : Nat) {s : State} {r : Nat} (h : ringFull s r = true) : moveOverflow n s r = s := by
  cases n with
  | zero => rfl
  | succ n =>
    simp only [moveOverflow, h, if_true]
    split <;> rfl
/-- The oldest overflow entry enters the ring. -/
def moveOldest (s : State) (r : Nat) (e : CqEntry) (rest : List CqEntry) : State :=
  ringPut (modQ s r (fun q => { q with overflow := rest })) r e
theorem moveOverflow_succ (n : Nat) {s : State} {r : Nat} {e : CqEntry} {rest : List CqEntry}
    (h : (getQ s r).overflow = e :: rest) (hf : ringFull s r = false) :
    moveOverflow (n + 1) s r = moveOverflow n (moveOldest s r e rest) r := by
  simp [moveOverflow, h, hf, moveOldest]

/-- CQ_DB of a live queue with a HEAD inside the ring (R298, R302). -/
theorem doCqDb_of {s : State} {fn q v d : Nat} (hlive : liveQueue s fn q = some d) (hhead : fld v 15 0 < cqSize s d) :
    doCqDb fn q v s
      = moveOverflow (getQ s d).overflow.length (modQ s d (fun x => { x with cqHead := fld v 15 0 })) d := by
  simp only [doCqDb, hlive, ge_iff_le, if_neg (Nat.not_le.mpr hhead), getQ_modQ_self]

/-! ## The slots of a ring from its tail on -/

/-- The address of the `i`th slot from the tail on. -/
def cqSlot (s : State) (r i : Nat) : Nat := cqBase s r + 32 * (((getQ s r).cqTail + i) % cqSize s r)
/-- The slots that a ring can still take: those from its tail to the one behind HEAD (R298). -/
def ringFree (s : State) (r : Nat) : Nat :=
  if (getQ s r).cqTail < (getQ s r).cqHead then (getQ s r).cqHead - (getQ s r).cqTail - 1
  else cqSize s r + (getQ s r).cqHead - (getQ s r).cqTail - 1

theorem cqSize_congr {s t : State} (h : t.regs = s.regs) (r : Nat) : cqSize t r = cqSize s r := by
  simp only [cqSize, rfld, regGet, h]
theorem cqBase_congr {s t : State} (h : t.regs = s.regs) (r : Nat) : cqBase t r = cqBase s r := by
  simp only [cqBase, rfld, regGet, h]
/-- The position after `x` in a ring of `n` slots. -/
theorem succ_mod_eq_ite {x n : Nat} (h : x < n) : (x + 1) % n = if x + 1 = n then 0 else x + 1 := by
  split
  case isTrue hlast => rw [hlast, Nat.mod_self]
  case isFalse hmid => exact Nat.mod_eq_of_lt (by omega)
theorem cqSlot_zero {s : State} {r : Nat} (h : (getQ s r).cqTail < cqSize s r) :
    cqSlot s r 0 = cqBase s r + 32 * (getQ s r).cqTail := by
  rw [cqSlot, Nat.add_zero, Nat.mod_eq_of_lt h]
/-- A ring's slots repeat after its size. -/
theorem cqSlot_add_size (s : State) (r i : Nat) : cqSlot s r (i + cqSize s r) = cqSlot s r i := by
  rw [cqSlot, cqSlot, ← Nat.add_assoc, Nat.add_mod_right]
/-- The slots after the first lie apart from it. -/
theorem cqSlot_apart {s : State} {r j : Nat} (ht : (getQ s r).cqTail < cqSize s r) (hj : 0 < j) (hjn : j < cqSize s r) :
    cqSlot s r j + 32 ≤ cqSlot s r 0 ∨ cqSlot s r 0 + 32 ≤ cqSlot s r j := by
  have hne : ((getQ s r).cqTail + j) % cqSize s r ≠ (getQ s r).cqTail := by
    rcases Nat.lt_or_ge ((getQ s r).cqTail + j) (cqSize s r) with hlt | hge
    · rw [Nat.mod_eq_of_lt hlt]; omega
    · rw [Nat.mod_eq_sub_mod hge, Nat.mod_eq_of_lt (by omega)]; omega
  rw [cqSlot_zero ht, cqSlot]
  omega
theorem ringFree_lt {s : State} {r : Nat} (ht : (getQ s r).cqTail < cqSize s r) (hh : (getQ s r).cqHead < cqSize s r) :
    ringFree s r < cqSize s r := by
  rw [ringFree]; split <;> omega

/-! ## Entries that have entered the ring -/

/-- From `s` to `t` the first `k` overflow entries of ring `r` have entered it in their order, from the tail on; the slots behind
them are as they were. -/
structure Entered (s t : State) (r k : Nat) : Prop where
  regs : t.regs = s.regs
  overflow : (getQ t r).overflow = (getQ s r).overflow.drop k
  tail : (getQ t r).cqTail = ((getQ s r).cqTail + k) % cqSize s r
  head : (getQ t r).cqHead = (getQ s r).cqHead
  written : ∀ i (h : i < (getQ s r).overflow.length), i < k →
    mreads t.host (cqSlot s r i) 32 = entryBytes (getQ s r).overflow[i]
  kept : ∀ j, k ≤ j → j < cqSize s r → mreads t.host (cqSlot s r j) 32 = mreads s.host (cqSlot s r j) 32

namespace Entered
variable {s u t : State} {r j k : Nat}

theorem refl (ht : (getQ s r).cqTail < cqSize s r) : Entered s s r 0 where
  regs := rfl
  overflow := List.drop_zero.symm
  tail := (Nat.mod_eq_of_lt ht).symm
  head := rfl
  written _ _ hi := absurd hi (Nat.not_lt_zero _)
  kept _ _ _ := rfl

theorem size (h : Entered s t r k) : cqSize t r = cqSize s r := cqSize_congr h.regs r
theorem tail_lt (h : Entered s t r k) : (getQ t r).cqTail < cqSize t r := by
  rw [h.tail, h.size]
  exact Nat.mod_lt _ (Nat.two_pow_pos _)
/-- The tail has moved on by `k` slots. -/
theorem cqSlot_eq (h : Entered s t r k) (i : Nat) : cqSlot t r i = cqSlot s r (k + i) := by
  rw [cqSlot, cqSlot, h.tail, h.size, cqBase_congr h.regs, Nat.mod_add_mod, Nat.add_assoc]

/-- What has entered stays while more enters, as long as the ring does not come round to it. -/
theorem trans (h₁ : Entered s u r j) (h₂ : Entered u t r k) (hjk : j + k ≤ cqSize s r) : Entered s t r (j + k) where
  regs := h₂.regs.trans h₁.regs
  overflow := by rw [h₂.overflow, h₁.overflow, List.drop_drop]
  tail := by rw [h₂.tail, h₁.tail, h₁.size, Nat.mod_add_mod, Nat.add_assoc]
  head := h₂.head.trans h₁.head
  written i hi hijk := by
    rcases Nat.lt_or_ge i j with hij | hji
    · have hround : cqSlot u r (i + cqSize s r - j) = cqSlot s r i := by
        rw [h₁.cqSlot_eq, show j + (i + cqSize s r - j) = i + cqSize s r by omega, cqSlot_add_size]
      have hkept := h₂.kept (i + cqSize s r - j) (by omega) (by rw [h₁.size]; omega)
      rw [hround] at hkept
      exact hkept.trans (h₁.written i hi hij)
    · have hlen : i - j < (getQ u r).overflow.length := by rw [h₁.overflow, List.length_drop]; omega
      have hwritten := h₂.written (i - j) hlen (by omega)
      simpa only [h₁.cqSlot_eq, h₁.overflow, List.getElem_drop, Nat.add_sub_cancel' hji] using hwritten
  kept i hi hin := by
    have hkept := h₂.kept (i - j) (by omega) (by rw [h₁.size]; omega)
    rw [h₁.cqSlot_eq, Nat.add_sub_cancel' (by omega)] at hkept
    exact hkept.trans (h₁.kept i (by omega) hin)

end Entered

/-! ## The overflow entries that enter -/

/-- The oldest entry is written at the tail. -/
theorem moveOldest_host (s : State) (r : Nat) (e : CqEntry) (rest : List CqEntry) :
    (moveOldest s r e rest).host = mwrite s.host (cqBase s r + 32 * (getQ s r).cqTail) (entryBytes e) := by
  rw [moveOldest, ringPut_host, cqBase_congr (modQ_regs s r _), getQ_modQ_self, modQ_host]
theorem getQ_moveOldest_self (s : State) (r : Nat) (e : CqEntry) (rest : List CqEntry) : ∃ u a,
    getQ (moveOldest s r e rest) r
      = { getQ s r with overflow := rest, cqTail := ((getQ s r).cqTail + 1) % cqSize s r, unsig := u, unsigAt := a } := by
  obtain ⟨u, a, h⟩ := getQ_ringPut_self (modQ s r (fun q => { q with overflow := rest })) r e
  rw [getQ_modQ_self, cqSize_congr (modQ_regs s r _)] at h
  exact ⟨u, a, h⟩
theorem entered_moveOldest {s : State} {r : Nat} {e : CqEntry} {rest : List CqEntry} (h : (getQ s r).overflow = e :: rest)
    (ht : (getQ s r).cqTail < cqSize s r) : Entered s (moveOldest s r e rest) r 1 := by
  obtain ⟨u, a, hq⟩ := getQ_moveOldest_self s r e rest
  have hhost := moveOldest_host s r e rest
  rw [← cqSlot_zero ht] at hhost
  refine ⟨?regs, ?overflow, ?tail, ?head, ?written, ?kept⟩
  case regs => rw [moveOldest, ringPut_regs, modQ_regs]
  case overflow => rw [hq, h, List.drop_one, List.tail_cons]
  case tail => rw [hq]
  case head => rw [hq]
  case written =>
    intro i hi hlt
    obtain rfl := Nat.lt_one_iff.mp hlt
    have hread := mreads_mwrite_self s.host (cqSlot s r 0) (entryBytes e)
    rw [entryBytes_length] at hread
    simpa only [hhost, h, List.getElem_cons_zero] using hread
  case kept =>
    intro j hj hjn
    rw [hhost, mreads_mwrite_out _ _ _ _ _ (by rw [entryBytes_length]; exact cqSlot_apart ht hj hjn)]

/-- An entry that enters a ring takes one of its free slots. -/
theorem Entered.ringFree_eq {s t : State} {r : Nat} (h : Entered s t r 1) (ht : (getQ s r).cqTail < cqSize s r)
    (hh : (getQ s r).cqHead < cqSize s r) (hf : ringFull s r = false) : ringFree s r = ringFree t r + 1 := by
  simp only [ringFull, beq_eq_false_iff_ne, ne_eq, succ_mod_eq_ite ht] at hf
  simp only [ringFree, h.tail, h.head, h.size, succ_mod_eq_ite ht]
  by_cases hlast : (getQ s r).cqTail + 1 = cqSize s r
  · simp only [if_pos hlast] at hf ⊢
    split <;> split <;> omega
  · simp only [if_neg hlast] at hf ⊢
    split <;> split <;> omega

/-- As many overflow entries as are asked for, waiting and find a free slot enter the ring (R302). -/
theorem moveOverflow_entered (n : Nat) (s : State) (r : Nat) (ht : (getQ s r).cqTail < cqSize s r)
    (hh : (getQ s r).cqHead < cqSize s r) :
    ∃ k, k ≤ n ∧ k ≤ (getQ s r).overflow.length ∧ k ≤ ringFree s r ∧ Entered s (moveOverflow n s r) r k
      ∧ (k = n ∨ k = (getQ s r).overflow.length ∨ ringFull (moveOverflow n s r) r = true) := by
  induction n generalizing s with
  | zero => exact ⟨0, Nat.le_refl 0, Nat.zero_le _, Nat.zero_le _, Entered.refl ht, .inl rfl⟩
  | succ n ih =>
    cases hover : (getQ s r).overflow with
    | nil =>
      rw [moveOverflow_nil _ hover]
      exact ⟨0, Nat.zero_le _, Nat.zero_le _, Nat.zero_le _, Entered.refl ht, .inr (.inl rfl)⟩
    | cons e rest =>
      cases hfull : ringFull s r with
      | true =>
        rw [moveOverflow_full _ hfull]
        exact ⟨0, Nat.zero_le _, Nat.zero_le _, Nat.zero_le _, Entered.refl ht, .inr (.inr hfull)⟩
      | false =>
        have hone := entered_moveOldest hover ht
        have hfree := hone.ringFree_eq ht hh hfull
        have hlt := ringFree_lt ht hh
        obtain ⟨k, hn, hlen, hroom, hk, hend⟩ := ih (moveOldest s r e rest) hone.tail_lt (by rwa [hone.head, hone.size])
        rw [moveOverflow_succ n hover hfull]
        rw [hone.overflow, hover, List.drop_one, List.tail_cons] at hlen hend
        refine ⟨1 + k, by omega, by rw [List.length_cons]; omega, by omega, hone.trans hk (by omega), ?_⟩
        rw [List.length_cons]
        exact hend.imp (by omega) (Or.imp_left (by omega))

/-- Settles O17: the doorbell's own equation, the place of a newer completion, and by induction on the moves that what enters the ring
is a first part of the overflow, in its order. -/
theorem overflowEntersTheRingInOrder : Obligations.OverflowEntersTheRingInOrder := by
  unfold Obligations.OverflowEntersTheRingInOrder
  refine ⟨fun s fn q v d hlive hhead => next_congr (doCqDb_of hlive hhead), fun s r e hne => ?newer, fun n s r ht hh => ?moves⟩
  case newer =>
    rw [placeEntry_overflow e hne, getQ_setQ_self]
    exact ⟨rfl, setQ_host _ _ _⟩
  case moves =>
    obtain ⟨k, hn, hlen, hroom, hk, hend⟩ := moveOverflow_entered n s r ht hh
    exact ⟨k, hn, hlen, Nat.lt_of_le_of_lt hroom (ringFree_lt ht hh), hk.overflow, hk.tail, hk.head, hk.written, hend⟩

end Sys2Proof.Machine

/-! Proofs for the routing CAM's search (chapter 19, R405 and R409). -/

namespace Sys2Proof.Machine
open Sys2Proof

/-! ## Fields of a byte string and of memory -/

/-- A field of one byte is that byte. -/
theorem leAt_one (bs : List Byte) (a : Nat) : leAt bs a 1 = (bs.getD a 0#8).toNat := by
  have hget : bs.getD a 0#8 = (bs.drop a).headD 0#8 := by simp
  rw [hget, leAt, sub]
  cases bs.drop a <;> simp [leNat]
/-- A field reads the number written between what precedes it and what follows it. -/
theorem leAt_append_natLE (pre post : List Byte) (n v : Nat) : leAt (pre ++ (natLE n v ++ post)) pre.length n = v % 256 ^ n := by
  rw [leAt, sub, List.drop_left, List.take_left' (natLE_length n v), natLE_length, Nat.sub_self, List.replicate_zero, List.append_nil,
    leNat_natLE]
theorem getD_mreads (m : Mem) (a : Nat) {n j : Nat} (h : j < n) : (mreads m a n).getD j 0#8 = mread m (a + j) := by
  induction n generalizing a j with
  | zero => omega
  | succ n ih =>
    cases j with
    | zero => rfl
    | succ j => rw [mreads, List.getD_cons_succ, ih (a + 1) (by omega), Nat.add_right_comm, Nat.add_assoc]
theorem mread_eq_zero {m : Mem} {a : Nat} (h : ∀ c ∈ m, c.1 ≠ a) : mread m a = 0#8 := by
  have hnone : List.lookup a m = none := List.lookup_eq_none_iff.mpr (fun c hc => bne_iff_ne.mpr (h c hc).symm)
  rw [mread, hnone, Option.getD_none]
/-- The addresses of a canonical memory rise strictly. -/
theorem memWfFrom_pairwise {lo : Nat} {m : Mem} (h : memWfFrom lo m = true) : m.Pairwise (fun c d => c.1 < d.1) := by
  induction m generalizing lo with
  | nil => exact List.Pairwise.nil
  | cons c m ih =>
    simp only [memWfFrom, Bool.and_eq_true] at h
    exact List.Pairwise.cons (memWfFrom_ge h.2) (ih h.2)

/-! ## The entries in use -/

/-- The entries noted so far, with the entry of one more cell. -/
def noteEntry (acc : List Nat) (c : Host.Cell) : List Nat := if acc.contains (c.1 / 64) then acc else acc ++ [c.1 / 64]
theorem camUsed_eq (s : State) : camUsed s = s.cam.mem.foldl noteEntry [] := rfl

theorem mem_noteEntry {acc : List Nat} {c : Host.Cell} {i : Nat} : i ∈ noteEntry acc c ↔ i ∈ acc ∨ c.1 / 64 = i := by
  rw [noteEntry]
  split
  · next hin => exact (or_iff_left_of_imp (fun hi => hi ▸ List.contains_iff_mem.mp hin)).symm
  · rw [List.mem_append, List.mem_singleton, eq_comm (a := i)]
theorem mem_foldl_noteEntry {m : Mem} {acc : List Nat} {i : Nat} :
    i ∈ m.foldl noteEntry acc ↔ i ∈ acc ∨ ∃ c ∈ m, c.1 / 64 = i := by
  induction m generalizing acc with
  | nil => simp
  | cons c m ih => simp only [List.foldl_cons, ih, mem_noteEntry, List.mem_cons, exists_eq_or_imp, or_assoc]
theorem mem_camUsed {s : State} {i : Nat} : i ∈ camUsed s ↔ ∃ c ∈ s.cam.mem, c.1 / 64 = i := by
  rw [camUsed_eq, mem_foldl_noteEntry, or_iff_right List.not_mem_nil]

theorem noteEntry_pairwise {acc : List Nat} {c : Host.Cell} (hacc : acc.Pairwise (· < ·)) (hle : ∀ j ∈ acc, j ≤ c.1 / 64) :
    (noteEntry acc c).Pairwise (· < ·) := by
  rw [noteEntry]
  split
  · exact hacc
  · next hnew =>
    refine List.pairwise_append.mpr ⟨hacc, List.pairwise_singleton _ _, fun j hj i hi => ?_⟩
    rw [List.mem_singleton.mp hi]
    exact Nat.lt_of_le_of_ne (hle j hj) (fun heq => hnew (List.contains_iff_mem.mpr (heq ▸ hj)))
theorem foldl_noteEntry_pairwise {m : Mem} {acc : List Nat} (hm : m.Pairwise (fun c d => c.1 < d.1)) (hacc : acc.Pairwise (· < ·))
    (hle : ∀ j ∈ acc, ∀ c ∈ m, j ≤ c.1 / 64) : (m.foldl noteEntry acc).Pairwise (· < ·) := by
  induction m generalizing acc with
  | nil => exact hacc
  | cons c m ih =>
    obtain ⟨hc, hm⟩ := List.pairwise_cons.mp hm
    refine ih hm (noteEntry_pairwise hacc (fun j hj => hle j hj c List.mem_cons_self)) (fun j hj d hd => ?_)
    rcases mem_noteEntry.mp hj with hj | rfl
    · exact hle j hj d (List.mem_cons_of_mem c hd)
    · exact Nat.div_le_div_right (Nat.le_of_lt (hc d hd))
/-- The entries of a canonical CAM memory are listed in ascending order, none twice. -/
theorem camUsed_pairwise {s : State} (h : memWf s.cam.mem = true) : (camUsed s).Pairwise (· < ·) :=
  foldl_noteEntry_pairwise (memWfFrom_pairwise h) List.Pairwise.nil (fun _ hj => absurd hj List.not_mem_nil)

theorem camFlags_eq (s : State) (i : Nat) : leAt (camEntry s i) 44 1 = (mread s.cam.mem (64 * i + 44)).toNat := by
  rw [leAt_one, camEntry, getD_mreads _ _ (by decide)]
/-- A VALID entry holds a byte that is not 0, so it is in use. -/
theorem mem_camUsed_of_camValid {s : State} {i : Nat} (h : camValid s i = true) : i ∈ camUsed s := by
  simp only [camValid, Bool.and_eq_true, camFlags_eq] at h
  obtain ⟨⟨hbit, -⟩, -⟩ := h
  refine Decidable.byContradiction (fun hunused => ?_)
  have hzero : mread s.cam.mem (64 * i + 44) = 0#8 :=
    mread_eq_zero (fun c hc heq => hunused (mem_camUsed.mpr ⟨c, hc, by omega⟩))
  rw [hzero] at hbit
  exact absurd hbit (by decide)
theorem camValid_of_camMatches {s : State} {k i : Nat} (h : camMatches s k i = true) : camValid s i = true :=
  (Bool.and_eq_true_iff.mp h).1

/-! ## The best entries of a search (R409) -/

/-- May a search of `fn` for `k` answer with entry `i`: its block is held by `fn` and not leaving it, and it is valid and matches? -/
def CamEligible (s : State) (fn k i : Nat) : Prop :=
  holder s.fns.camFn (i / 8192) = fn ∧ leavingUnit s 5 (i / 8192) = false ∧ camMatches s k i = true
/-- The eligible entries, in the order in which a search lists them. -/
def camMatching (s : State) (fn k : Nat) : List Nat :=
  (camUsed s).filter (fun i => holder s.fns.camFn (i / 8192) == fn && ! leavingUnit s 5 (i / 8192) && camMatches s k i)
/-- The highest priority among the eligible entries, 0 when there is none. -/
def camTop (s : State) (fn k : Nat) : Nat := (camMatching s fn k).foldl (fun m i => max m (camPrio s i)) 0
/-- The eligible entries of the highest priority. -/
def camBest (s : State) (fn k : Nat) : List Nat := (camMatching s fn k).filter (fun i => camPrio s i == camTop s fn k)

section
variable {s : State} {fn k i : Nat}

theorem mem_camMatching : i ∈ camMatching s fn k ↔ CamEligible s fn k i := by
  simp only [camMatching, List.mem_filter, Bool.and_eq_true, beq_iff_eq, Bool.not_eq_true', and_assoc]
  exact and_iff_right_of_imp (fun ⟨_, _, hmatch⟩ => mem_camUsed_of_camValid (camValid_of_camMatches hmatch))

theorem camTop_eq (s : State) (fn k : Nat) : camTop s fn k = (((camMatching s fn k).map (camPrio s)).max?).getD 0 := by
  rw [camTop, ← List.foldl_map, List.foldl_max, Nat.zero_max]
theorem camPrio_le_camTop (h : CamEligible s fn k i) : camPrio s i ≤ camTop s fn k := by
  rw [camTop_eq]
  exact List.le_max?_getD_of_mem (List.mem_map_of_mem (mem_camMatching.mpr h))
theorem exists_camPrio_eq_camTop (h : CamEligible s fn k i) : ∃ j, CamEligible s fn k j ∧ camPrio s j = camTop s fn k := by
  rw [camTop_eq]
  cases htop : ((camMatching s fn k).map (camPrio s)).max? with
  | none =>
    have hnil := List.map_eq_nil_iff.mp (List.max?_eq_none_iff.mp htop)
    exact absurd (hnil ▸ mem_camMatching.mpr h) List.not_mem_nil
  | some top =>
    obtain ⟨j, hj, hprio⟩ := List.mem_map.mp (List.max?_eq_some_iff.mp htop).1
    exact ⟨j, mem_camMatching.mp hj, hprio⟩

theorem mem_camBest : i ∈ camBest s fn k ↔ CamEligible s fn k i ∧ camPrio s i = camTop s fn k := by
  rw [camBest, List.mem_filter, mem_camMatching, beq_iff_eq]
theorem camBest_pairwise (h : memWf s.cam.mem = true) : (camBest s fn k).Pairwise (· < ·) :=
  ((camUsed_pairwise h).filter _).filter _
theorem camBest_eq_nil_iff : camBest s fn k = [] ↔ ∀ i, ¬ CamEligible s fn k i := by
  simp only [List.eq_nil_iff_forall_not_mem, mem_camBest, not_and]
  constructor
  · intro h i hi
    obtain ⟨j, hj, hprio⟩ := exists_camPrio_eq_camTop hi
    exact h j hj hprio
  · exact fun h i hi => absurd hi (h i)
/-- The first of the best entries is the one of the lowest index. -/
theorem camBest_head_le {j : Nat} {r : List Nat} (hwf : memWf s.cam.mem = true) (hbest : camBest s fn k = j :: r)
    (hi : i ∈ camBest s fn k) : j ≤ i := by
  have hsorted := camBest_pairwise (fn := fn) (k := k) hwf
  rw [hbest] at hi hsorted
  rcases List.mem_cons.mp hi with rfl | hi
  · exact Nat.le_refl _
  · exact Nat.le_of_lt (List.rel_of_pairwise_cons hsorted hi)

/-! ## What a search answers (R409, Table 19-4) -/

/-- A search answers with the first of the best entries. -/
theorem camFind_eq (s : State) (fn k : Nat) : camFind s fn k = (camBest s fn k).head?.map (fun i =>
    ⟨i, leAt (camEntry s i) 40 4, camTop s fn k, min 65535 (camBest s fn k).length⟩) := by
  unfold camFind
  dsimp only
  split
  · next hbest => rw [show camBest s fn k = [] from hbest]; rfl
  · next i r hbest => rw [show camBest s fn k = i :: r from hbest]; rfl
theorem camFind_eq_none_iff : camFind s fn k = none ↔ ∀ i, ¬ CamEligible s fn k i := by
  rw [camFind_eq, Option.map_eq_none_iff, List.head?_eq_none_iff, camBest_eq_nil_iff]
theorem camFind_eq_some {h : CamHit} (hit : camFind s fn k = some h) : (∃ r, camBest s fn k = h.index :: r)
    ∧ h.prio = camTop s fn k ∧ h.result = leAt (camEntry s h.index) 40 4 ∧ h.count = min 65535 (camBest s fn k).length := by
  rw [camFind_eq] at hit
  obtain ⟨i, hhead, rfl⟩ := Option.map_eq_some_iff.mp hit
  exact ⟨List.head?_eq_some_iff.mp hhead, rfl, rfl, rfl⟩

end

theorem camResult_none : leAt (camResult none) 0 4 = 0 ∧ leAt (camResult none) 10 1 = 0 ∧ leAt (camResult none) 12 2 = 0 := by decide
theorem camResult_flags (h : CamHit) : leAt (camResult (some h)) 10 1 = 1 + 2 * b2n (decide (1 < h.count)) := by
  have hlt : 1 + 2 * b2n (decide (1 < h.count)) < 256 := by unfold b2n; split <;> omega
  rw [camResult, List.append_assoc, List.append_assoc, List.append_assoc]
  exact (leAt_append_natLE _ _ 1 _).trans (Nat.mod_eq_of_lt hlt)
theorem camResult_count (h : CamHit) : leAt (camResult (some h)) 12 2 = h.count % 65536 := by
  rw [camResult, List.append_assoc]
  exact leAt_append_natLE _ _ 2 h.count
/-- Bit 0 of RFLAGS is HIT and bit 1 is MULTI. -/
theorem bitOf_rflags (multi : Bool) : bitOf (1 + 2 * b2n multi) 0 = true ∧ bitOf (1 + 2 * b2n multi) 1 = multi := by
  cases multi <;> decide

/-- Settles O46: the answer is the first of the best entries, and these are sorted because the CAM's memory is canonical. -/
theorem camSearchFindsTheBestEntry : Obligations.CamSearchFindsTheBestEntry := by
  unfold Obligations.CamSearchFindsTheBestEntry
  intro s fn k hwf
  refine ⟨fun h hit => ?hit, camFind_eq_none_iff.mp, camResult_none, fun hnone => ?noBlock⟩
  case noBlock => exact camFind_eq_none_iff.mpr (fun i ⟨hholder, _⟩ => hnone (i / 8192) hholder)
  case hit =>
    obtain ⟨⟨r, hbest⟩, hprio, hresult, hcount⟩ := camFind_eq_some hit
    obtain ⟨hmine, htop⟩ := mem_camBest.mp (hbest ▸ List.mem_cons_self : h.index ∈ camBest s fn k)
    obtain ⟨hhit, hmulti⟩ := bitOf_rflags (decide (1 < h.count))
    have hmem : ∀ i, i ∈ camBest s fn k ↔ CamEligible s fn k i ∧ camPrio s i = h.prio := fun i => hprio ▸ mem_camBest
    refine ⟨hmine, hprio.trans htop.symm, hresult, fun i hi => ⟨?highest, fun htie => ?lowest⟩,
      ⟨camBest s fn k, (camBest_pairwise hwf).imp Nat.ne_of_lt, hmem, hcount⟩, ?hitBit, ?multiBit, ?mcount⟩
    case highest => exact hprio ▸ camPrio_le_camTop hi
    case lowest => exact camBest_head_le hwf hbest ((hmem i).mpr ⟨hi, htie⟩)
    case hitBit => rw [camResult_flags, hhit]
    case multiBit => rw [camResult_flags, hmulti]
    case mcount => rw [camResult_count]; omega

end Sys2Proof.Machine

/-! Proofs for the block codec's stream mode (chapter 3, R54 to R60). -/

namespace Sys2Proof.Machine
open Sys2Proof

/-! ## Little-endian byte strings -/

theorem leNat_append (as bs : List Byte) : leNat (as ++ bs) = leNat as + 256 ^ as.length * leNat bs := by
  induction as with
  | nil => simp [leNat]
  | cons a as ih => simp only [List.cons_append, leNat, ih, List.length_cons, Nat.pow_succ', Nat.mul_add, Nat.add_assoc, Nat.mul_assoc]
theorem leNat_lt (bs : List Byte) : leNat bs < 256 ^ bs.length := by
  induction bs with
  | nil => simp [leNat]
  | cons b bs ih =>
    simp only [leNat, List.length_cons, Nat.pow_succ]
    have hb := b.isLt
    omega
/-- The bytes of a byte string's number are the byte string. -/
theorem natLE_leNat (bs : List Byte) : natLE bs.length (leNat bs) = bs := by
  induction bs with
  | nil => rfl
  | cons b bs ih =>
    have hb := b.isLt
    have hdiv : (b.toNat + 256 * leNat bs) / 256 = leNat bs := by omega
    have hmod : BitVec.ofNat 8 (b.toNat + 256 * leNat bs) = b := by
      apply BitVec.eq_of_toNat_eq
      rw [BitVec.toNat_ofNat]
      omega
    rw [leNat, List.length_cons, natLE, hdiv, ih, hmod]
/-- Only the value modulo `256 ^ n` shows in `n` bytes. -/
theorem natLE_mod (n v : Nat) : natLE n (v % 256 ^ n) = natLE n v := by
  induction n generalizing v with
  | zero => rfl
  | succ n ih =>
    have hlow : BitVec.ofNat 8 (v % 256 ^ (n + 1)) = BitVec.ofNat 8 v := by
      apply BitVec.eq_of_toNat_eq
      rw [BitVec.toNat_ofNat, BitVec.toNat_ofNat]
      exact Nat.mod_mod_of_dvd v (Nat.dvd_mul_left 256 (256 ^ n))
    have hhigh : v % 256 ^ (n + 1) / 256 = v / 256 % 256 ^ n := by
      rw [Nat.pow_succ', Nat.mod_mul_right_div_self]
    rw [natLE, natLE, hlow, hhigh, ih]
/-- A field at the front reads the number written there. -/
theorem leAt_natLE_append (post : List Byte) (n v : Nat) : leAt (natLE n v ++ post) 0 n = v % 256 ^ n := leAt_append_natLE [] post n v

/-! ## The elements of an input -/

theorem elemsOf_length (e n : Nat) (bs : List Byte) : (elemsOf e n bs).length = n := by
  induction n generalizing bs with
  | zero => rfl
  | succ n ih => rw [elemsOf, List.length_cons, ih]
theorem elemsOf_lt {e n : Nat} {bs : List Byte} : ∀ x ∈ elemsOf e n bs, x < 256 ^ e := by
  induction n generalizing bs with
  | zero => simp [elemsOf]
  | succ n ih =>
    intro x hx
    rcases List.mem_cons.mp hx with rfl | hx
    · exact Nat.lt_of_lt_of_le (leNat_lt _) (Nat.pow_le_pow_right (by decide) (List.length_take_le e bs))
    · exact ih x hx
/-- The bytes of the elements of an input of whole elements are the input. -/
theorem elemsOf_bytes {e n : Nat} {bs : List Byte} (h : bs.length = n * e) : (elemsOf e n bs).flatMap (natLE e) = bs := by
  induction n generalizing bs with
  | zero => rw [Nat.zero_mul] at h; rw [List.eq_nil_of_length_eq_zero h]; rfl
  | succ n ih =>
    rw [Nat.succ_mul] at h
    have htake : (bs.take e).length = e := by rw [List.length_take]; omega
    have hfirst : natLE e (leNat (bs.take e)) = bs.take e := by
      have hbytes := natLE_leNat (bs.take e)
      rwa [htake] at hbytes
    rw [elemsOf, List.flatMap_cons, hfirst, ih (by rw [List.length_drop]; omega), List.take_append_drop]

/-! ## Packed deltas (R55) -/

/-- The element packed at place `j`. -/
theorem packDeltas_get (w : Nat) (ds : List Nat) {j : Nat} (h : j < ds.length) : packDeltas w ds >>> (j * w) % 2 ^ w = ds[j] % 2 ^ w := by
  induction ds generalizing j with
  | nil => simp at h
  | cons d ds ih =>
    cases j with
    | zero => simp [packDeltas]
    | succ j =>
      have hnext : packDeltas w (d :: ds) >>> ((j + 1) * w) = packDeltas w ds >>> (j * w) := by
        rw [Nat.succ_mul, Nat.add_comm, Nat.shiftRight_add, packDeltas, Nat.shiftRight_eq_div_pow _ w, Nat.add_mul_div_left _ _ (Nat.two_pow_pos w),
          Nat.div_eq_of_lt (Nat.mod_lt _ (Nat.two_pow_pos w)), Nat.zero_add]
      rw [hnext, ih (by simpa using h), List.getElem_cons_succ]
theorem packDeltas_lt (w : Nat) (ds : List Nat) : packDeltas w ds < 2 ^ (ds.length * w) := by
  induction ds with
  | nil => simp [packDeltas]
  | cons d ds ih =>
    have hd := Nat.mod_lt d (Nat.two_pow_pos w)
    rw [packDeltas, List.length_cons, Nat.succ_mul, Nat.pow_add]
    calc d % 2 ^ w + 2 ^ w * packDeltas w ds < 2 ^ w * (packDeltas w ds + 1) := by rw [Nat.mul_succ]; omega
      _ ≤ 2 ^ w * 2 ^ (ds.length * w) := Nat.mul_le_mul_left _ ih
      _ = 2 ^ (ds.length * w) * 2 ^ w := Nat.mul_comm _ _

/-! ## The form of a block (R56) -/

theorem lt_two_pow_bitLen {n v : Nat} (h : v < 2 ^ n) : v < 2 ^ bitLen n v := by
  induction n generalizing v with
  | zero => simpa [bitLen] using h
  | succ n ih =>
    rw [bitLen]
    split
    · next hz => rw [beq_iff_eq.mp hz]; decide
    · have hhalf := ih (v := v / 2) (by rw [Nat.pow_succ] at h; omega)
      rw [Nat.pow_succ]; omega
theorem bitLen_le {n k v : Nat} (h : v < 2 ^ k) : bitLen n v ≤ k := by
  induction n generalizing k v with
  | zero => exact Nat.zero_le k
  | succ n ih =>
    rw [bitLen]
    split
    · exact Nat.zero_le k
    · next hz =>
      cases k with
      | zero => exact absurd (beq_iff_eq.mpr (Nat.lt_one_iff.mp h)) hz
      | succ k => exact Nat.succ_le_succ (ih (by rw [Nat.pow_succ] at h; omega))
theorem bitLen_pos {n v : Nat} (h : v ≠ 0) : 0 < bitLen (n + 1) v := by
  rw [bitLen, if_neg (by simpa using h)]
  exact Nat.succ_pos _

theorem minSigned_mem (bits : Nat) (xs : List Nat) (h : xs ≠ []) : minSigned bits xs ∈ xs := by
  induction xs using minSigned.induct bits with
  | case1 => exact absurd rfl h
  | case2 x => exact List.mem_singleton_self x
  | case3 x xs hne y hle ih => rw [minSigned.eq_3 _ _ _ hne, if_pos hle]; exact List.mem_cons_self
  | case4 x xs hne y hle ih => rw [minSigned.eq_3 _ _ _ hne, if_neg hle]; exact List.mem_cons_of_mem x (ih hne)

/-- The difference of an element from the base of its block, of `bits` bits. -/
def delta (bits base v : Nat) : Nat := (v + 2 ^ bits - base) % 2 ^ bits

theorem delta_lt (bits base v : Nat) : delta bits base v < 2 ^ bits := Nat.mod_lt _ (Nat.two_pow_pos bits)
/-- Adding the difference to the base gives the element back. -/
theorem add_delta {bits base v : Nat} (hbase : base < 2 ^ bits) (hv : v < 2 ^ bits) : (base + delta bits base v) % 2 ^ bits = v := by
  rw [delta, Nat.add_mod_mod, show base + (v + 2 ^ bits - base) = v + 2 ^ bits by omega, Nat.add_mod_right, Nat.mod_eq_of_lt hv]
theorem le_foldl_max {l : List Nat} {m x : Nat} (h : x ∈ l) : x ≤ l.foldl max m := by
  rw [List.foldl_max]
  exact Nat.le_trans (List.le_max?_getD_of_mem h) (Nat.le_max_right _ _)

/-- A run is of one value. -/
theorem chooseForm_run {bits v : Nat} {xs : List Nat} (h : chooseForm bits xs = .run v) (hne : xs ≠ []) : xs = List.replicate xs.length v := by
  cases xs with
  | nil => exact absurd rfl hne
  | cons x rest =>
    rw [chooseForm] at h
    split at h
    case isTrue hall =>
      obtain rfl := BlockForm.run.inj h
      refine List.eq_replicate_iff.mpr ⟨rfl, fun y hy => ?_⟩
      rcases List.mem_cons.mp hy with rfl | hy
      · rfl
      · exact beq_iff_eq.mp (List.all_eq_true.mp hall y hy)
    case isFalse => exact absurd h (by simp)
/-- A frame of reference has its base among the elements, and a width from 1 to `bits` that holds every difference. -/
theorem chooseForm_forr {bits base w : Nat} {xs : List Nat} (h : chooseForm bits xs = .forr base w) (hx : ∀ x ∈ xs, x < 2 ^ bits) :
    base < 2 ^ bits ∧ 1 ≤ w ∧ w ≤ bits ∧ ∀ x ∈ xs, delta bits base x < 2 ^ w := by
  cases xs with
  | nil => exact absurd h (by simp [chooseForm])
  | cons x rest =>
    rw [chooseForm] at h
    split at h
    case isTrue => exact absurd h (by simp)
    case isFalse hall =>
      obtain ⟨rfl, rfl⟩ := BlockForm.forr.inj h
      have hbase := hx _ (minSigned_mem bits (x :: rest) (by simp))
      generalize hm : minSigned bits (x :: rest) = base at hbase ⊢
      change _ ∧ 1 ≤ bitLen (bits + 1) (((x :: rest).map (delta bits base)).foldl max 0)
        ∧ bitLen (bits + 1) (((x :: rest).map (delta bits base)).foldl max 0) ≤ bits
        ∧ ∀ y ∈ x :: rest, delta bits base y < 2 ^ bitLen (bits + 1) (((x :: rest).map (delta bits base)).foldl max 0)
      generalize htop : ((x :: rest).map (delta bits base)).foldl max 0 = top
      have hle : ∀ y ∈ x :: rest, delta bits base y ≤ top := fun y hy => htop ▸ le_foldl_max (List.mem_map_of_mem hy)
      have hlt : top < 2 ^ bits := by
        rw [← htop, List.foldl_max, Nat.zero_max]
        cases hmax : ((x :: rest).map (delta bits base)).max? with
        | none => exact Nat.two_pow_pos bits
        | some t =>
          obtain ⟨y, _, rfl⟩ := List.mem_map.mp (List.max?_eq_some_iff.mp hmax).1
          exact delta_lt bits base y
      have hpos : top ≠ 0 := by
        intro hzero
        have hbaseEq : ∀ y ∈ x :: rest, y = base := by
          intro y hy
          have hback := add_delta hbase (hx y hy)
          have hdelta : delta bits base y = 0 := Nat.le_zero.mp (hzero ▸ hle y hy)
          rw [hdelta, Nat.add_zero, Nat.mod_eq_of_lt hbase] at hback
          exact hback.symm
        refine hall (List.all_eq_true.mpr (fun y hy => beq_iff_eq.mpr ?_))
        rw [hbaseEq y (List.mem_cons_of_mem x hy), hbaseEq x List.mem_cons_self]
      have hwide : top < 2 ^ (bits + 1) := Nat.lt_of_lt_of_le hlt (Nat.pow_le_pow_right (by decide) (Nat.le_succ bits))
      exact ⟨hbase, bitLen_pos hpos, bitLen_le hlt, fun y hy => Nat.lt_of_le_of_lt (hle y hy) (lt_two_pow_bitLen hwide)⟩

/-! ## Decoding one block (R54, R58, R60) -/

/-- The header of a stream block: its first byte, its count less one and its base (Table 3-5). -/
def blockHeader (head count base : Nat) : List Byte := natLE 1 head ++ natLE 3 0 ++ natLE 4 count ++ natLE 8 base

section
variable {head count base : Nat} (rest : List Byte)

@[simp] theorem blockHeader_length : (blockHeader head count base).length = 16 := by simp [blockHeader]
theorem blockHeader_head : leAt (blockHeader head count base ++ rest) 0 1 = head % 256 := by
  simp only [blockHeader, List.append_assoc]
  exact leAt_natLE_append _ 1 head
theorem blockHeader_count : leAt (blockHeader head count base ++ rest) 4 4 = count % 2 ^ 32 := by
  simp only [blockHeader, List.append_assoc]
  rw [← List.append_assoc (natLE 1 head)]
  exact leAt_append_natLE (natLE 1 head ++ natLE 3 0) _ 4 count
theorem blockHeader_base : leAt (blockHeader head count base ++ rest) 8 8 = base % 2 ^ 64 := by
  rw [blockHeader, List.append_assoc]
  exact leAt_append_natLE (natLE 1 head ++ natLE 3 0 ++ natLE 4 count) rest 8 base

end

/-- The deltas of a frame of reference, as their bytes. -/
def deltaBytes (e base w : Nat) (xs : List Nat) : List Byte :=
  natLE (ceilDiv (xs.length * w) 64 * 8) (packDeltas w (xs.map (delta (8 * e) base)))
theorem streamBlock_run {e v : Nat} {xs : List Nat} (h : chooseForm (8 * e) xs = .run v) :
    streamBlock e xs = blockHeader 0x40 (xs.length - 1) v := by rw [streamBlock, h]; rfl
theorem streamBlock_forr {e base w : Nat} {xs : List Nat} (h : chooseForm (8 * e) xs = .forr base w) :
    streamBlock e xs = blockHeader (w - 1) (xs.length - 1) base ++ deltaBytes e base w xs := by rw [streamBlock, h]; rfl
theorem streamBlock_length_ge (e : Nat) (xs : List Nat) : 16 ≤ (streamBlock e xs).length := by
  cases h : chooseForm (8 * e) xs with
  | run v => exact Nat.le_of_eq (by rw [streamBlock_run h, blockHeader_length])
  | forr base w => rw [streamBlock_forr h, List.length_append, blockHeader_length]; omega

/-- A block that the encoder of R59 makes: at most 512 elements, or a longer run of one value. -/
structure BlockOk (e : Nat) (xs : List Nat) : Prop where
  ne_nil : xs ≠ []
  fits : ∀ x ∈ xs, x < 256 ^ e
  short : xs.length ≤ 512 ∨ ∃ v, chooseForm (8 * e) xs = .run v
  count : xs.length ≤ 2 ^ 32

theorem two_pow_bits (e : Nat) : 2 ^ (8 * e) = 256 ^ e := Nat.pow_mul 2 8 e
/-- The 64 bits that hold a block's base. -/
theorem base_eq {e base : Nat} (he : e ≤ 8) (h : base < 256 ^ e) : base % 2 ^ 64 % 2 ^ (8 * e) = base := by
  have hwide : base < 2 ^ 64 := Nat.lt_of_lt_of_le h (Nat.le_trans (Nat.pow_le_pow_right (by decide) he) (by decide : 256 ^ 8 ≤ 2 ^ 64))
  rw [Nat.mod_eq_of_lt hwide, two_pow_bits, Nat.mod_eq_of_lt h]
/-- The deltas of a block fit their bytes. -/
theorem packDeltas_fits (w : Nat) (ds : List Nat) : packDeltas w ds < 256 ^ (ceilDiv (ds.length * w) 64 * 8) := by
  refine Nat.lt_of_lt_of_le (packDeltas_lt w ds) ?_
  rw [← two_pow_bits]
  refine Nat.pow_le_pow_right (by decide) ?_
  rw [ceilDiv]
  omega
/-- A decoded element of a frame of reference. -/
theorem natLE_unpacked {e base w : Nat} {xs : List Nat} (hbase : base < 256 ^ e) (hx : ∀ x ∈ xs, x < 256 ^ e)
    (hw : ∀ x ∈ xs, delta (8 * e) base x < 2 ^ w) {j : Nat} (hj : j < xs.length) :
    natLE e (base + packDeltas w (xs.map (delta (8 * e) base)) >>> (j * w) % 2 ^ w) = natLE e xs[j] := by
  have hmem := List.getElem_mem hj
  rw [packDeltas_get w _ (by simpa using hj), List.getElem_map, Nat.mod_eq_of_lt (hw _ hmem), ← natLE_mod, ← two_pow_bits,
    add_delta (by rwa [two_pow_bits]) (by rw [two_pow_bits]; exact hx _ hmem)]
theorem flatMap_range_getElem {f : Nat → List Byte} {g : Nat → List Byte} {xs : List Nat}
    (h : ∀ j (hj : j < xs.length), f j = g xs[j]) : (List.range xs.length).flatMap f = xs.flatMap g := by
  have hmap : (List.range xs.length).map f = xs.map g := by
    apply List.ext_getElem
    · simp
    · intro j _ hj
      simpa using h j (by simpa using hj)
  rw [List.flatMap_def, hmap, List.flatMap_def]

section
variable {e left pos : Nat} {xs : List Nat} {rest acc : List Byte}

/-- The header of a block that the encoder makes passes the checks of R60 step 4. -/
theorem streamHeader_ok {form w base : Nat} {tail : List Byte} (hok : BlockOk e xs)
    (hform : form = 1 ∧ w = 1 ∨ form = 0 ∧ 1 ≤ w ∧ w ≤ 8 * e ∧ w ≤ 64 ∧ xs.length ≤ 512) (hleft : xs.length * e ≤ left) :
    streamHeader e left (blockHeader (64 * form + (w - 1)) (xs.length - 1) base ++ tail) = none := by
  have hpos := List.length_pos_iff.mpr hok.ne_nil
  have hcount := hok.count
  have hlen : ∀ l : List Byte, (blockHeader (64 * form + (w - 1)) (xs.length - 1) base ++ l).length = 16 + l.length := by simp
  have hne : (blockHeader (64 * form + (w - 1)) (xs.length - 1) base ++ tail).isEmpty = false := by
    rw [List.isEmpty_eq_false_iff, ← List.length_pos_iff, hlen]; omega
  have hcnt : (xs.length - 1) % 2 ^ 32 + 1 = xs.length := by omega
  have hwide : (64 * form + (w - 1)) % 256 / 64 = form ∧ (64 * form + (w - 1)) % 256 % 64 + 1 = w := by omega
  simp only [streamHeader, blockHeader_head, blockHeader_count, hne, hcnt, hlen, hwide]
  rw [if_neg (by decide), if_neg (by omega), if_neg (by omega), if_neg (by omega), if_neg (by omega), if_neg (by omega)]

/-- A block that the encoder makes decodes to its elements, and decoding goes on behind it. -/
theorem streamDecodeBlocks_streamBlock (fuel : Nat) (he : e ≤ 8) (hok : BlockOk e xs) (hleft : xs.length * e ≤ left) (h0 : left ≠ 0) :
    streamDecodeBlocks e (fuel + 1) left pos (streamBlock e xs ++ rest) acc
      = streamDecodeBlocks e fuel (left - xs.length * e) (pos + (streamBlock e xs).length) rest (acc ++ xs.flatMap (natLE e)) := by
  have hpos := List.length_pos_iff.mpr hok.ne_nil
  have hcount := hok.count
  have hcnt : (xs.length - 1) % 2 ^ 32 + 1 = xs.length := by omega
  cases hform : chooseForm (8 * e) xs with
  | run v =>
    have hrep := chooseForm_run hform hok.ne_nil
    have hv : v < 256 ^ e := hok.fits v (hrep ▸ List.mem_replicate.mpr ⟨by omega, rfl⟩)
    have hout : (List.replicate xs.length (natLE e v)).flatten = xs.flatMap (natLE e) := by
      rw [← List.map_replicate, ← List.flatMap_def, ← hrep]
    have hhead := streamHeader_ok (base := v) (tail := rest) hok (form := 1) (w := 1) (.inl ⟨rfl, rfl⟩) hleft
    rw [streamBlock_run hform, blockHeader_length, streamDecodeBlocks, if_neg h0, hhead]
    simp only [blockHeader_head, blockHeader_count, blockHeader_base, hcnt, base_eq he hv, hout]
    rw [if_pos (by decide), List.drop_left' blockHeader_length]
  | forr base w =>
    obtain ⟨hbase, hw1, hw8, hw⟩ := chooseForm_forr hform (by rw [two_pow_bits]; exact hok.fits)
    rw [two_pow_bits] at hbase
    have hshort : xs.length ≤ 512 := hok.short.resolve_right (by simp [hform])
    have hhead := streamHeader_ok (base := base) (tail := deltaBytes e base w xs ++ rest) hok (form := 0) (w := w)
      (.inr ⟨rfl, hw1, hw8, by omega, hshort⟩) hleft
    rw [Nat.mul_zero, Nat.zero_add] at hhead
    have hw64 : (w - 1) % 256 % 64 + 1 = w := by omega
    have hform0 : (w - 1) % 256 / 64 ≠ 1 := by omega
    have hlen : (deltaBytes e base w xs).length = ceilDiv (xs.length * w) 64 * 8 := by rw [deltaBytes, natLE_length]
    have hfits := packDeltas_fits w (xs.map (delta (8 * e) base))
    rw [List.length_map] at hfits
    have hds : leNat (deltaBytes e base w xs) = packDeltas w (xs.map (delta (8 * e) base)) := by
      rw [deltaBytes, leNat_natLE, Nat.mod_eq_of_lt hfits]
    have hout := flatMap_range_getElem (fun j hj => natLE_unpacked (w := w) hbase hok.fits hw hj)
    rw [streamBlock_forr hform, List.append_assoc, streamDecodeBlocks, if_neg h0, hhead]
    simp only [blockHeader_head, blockHeader_count, blockHeader_base, hcnt, base_eq he hbase, hw64, if_neg hform0]
    rw [List.drop_left' blockHeader_length, List.take_left' hlen, hds, hout, ← List.drop_drop, List.drop_left' blockHeader_length,
      List.drop_left' hlen, List.length_append, List.length_append, List.length_append, blockHeader_length, hlen, if_neg (by omega), Nat.add_assoc]

end

/-! ## The encoder's cuts (R59) -/

theorem runLen_spec (v : Nat) (xs : List Nat) : runLen v xs ≤ xs.length ∧ xs.take (runLen v xs) = List.replicate (runLen v xs) v := by
  induction xs with
  | nil => exact ⟨Nat.le_refl 0, rfl⟩
  | cons x xs ih =>
    rw [runLen]
    split
    case isTrue hx =>
      subst hx
      exact ⟨Nat.succ_le_succ ih.1, by rw [List.take_succ_cons, ih.2, List.replicate_succ]⟩
    case isFalse => exact ⟨Nat.zero_le _, rfl⟩
theorem chooseForm_replicate (bits k v : Nat) : chooseForm bits (List.replicate (k + 1) v) = .run v := by
  rw [List.replicate_succ, chooseForm, if_pos (List.all_eq_true.mpr (fun y hy => beq_iff_eq.mpr (List.eq_of_mem_replicate hy)))]

/-- The elements from the head of `x :: xs` up to the next flush point. -/
def cutLimit (flush : List Nat) (pos n : Nat) : Nat :=
  match flush.filter (fun f => pos < f) with
  | f :: _ => f - pos
  | [] => n
theorem cutLimit_pos (flush : List Nat) (pos : Nat) {n : Nat} (h : 0 < n) : 0 < cutLimit flush pos n := by
  rw [cutLimit]
  split
  · next f fs hf =>
    have hmem : f ∈ flush.filter (fun f => pos < f) := hf ▸ List.mem_cons_self
    have hlt := of_decide_eq_true (List.mem_filter.mp hmem).2
    omega
  · exact h
/-- The number of elements of the next block: those of a run, or up to 512. -/
def cutLength (x : Nat) (avail : List Nat) : Nat :=
  if (avail.take (min 512 avail.length)).all (· == x) then min (runLen x avail) (2 ^ 32) else min 512 avail.length
/-- One step of the encoder. -/
theorem streamBlocks_cons (e fuel pos : Nat) (flush : List Nat) (x : Nat) (xs : List Nat) : ∃ fl,
    let k := cutLength x ((x :: xs).take (cutLimit flush pos (x :: xs).length))
    streamBlocks e (fuel + 1) pos flush (x :: xs)
      = streamBlock e ((x :: xs).take k) ++ streamBlocks e fuel (pos + k) fl ((x :: xs).drop k) := ⟨_, rfl⟩

theorem cutLength_pos (x : Nat) (xs : List Nat) : 0 < cutLength x (x :: xs) := by
  rw [cutLength]
  split
  · rw [runLen, if_pos rfl]; omega
  · rw [List.length_cons]; omega
theorem cutLength_le (x : Nat) (avail : List Nat) : cutLength x avail ≤ avail.length := by
  have hrun := (runLen_spec x avail).1
  rw [cutLength]
  split <;> omega
/-- What the encoder cuts off is one block. -/
theorem blockOk_cut {e x : Nat} {xs : List Nat} (hx : ∀ y ∈ x :: xs, y < 256 ^ e) : BlockOk e ((x :: xs).take (cutLength x (x :: xs))) := by
  have hpos := cutLength_pos x xs
  have hle := cutLength_le x (x :: xs)
  have hlen : ((x :: xs).take (cutLength x (x :: xs))).length = cutLength x (x :: xs) := by rw [List.length_take]; omega
  refine ⟨List.ne_nil_of_length_pos (by omega), fun y hy => hx y (List.mem_of_mem_take hy), ?short, ?count⟩
  all_goals rw [hlen, cutLength]; split
  case short.isTrue =>
    obtain ⟨hrunLe, hrun⟩ := runLen_spec x (x :: xs)
    have hrunPos : 0 < runLen x (x :: xs) := by rw [runLen, if_pos rfl]; omega
    obtain ⟨k, hk⟩ := Nat.exists_eq_succ_of_ne_zero (show min (runLen x (x :: xs)) (2 ^ 32) ≠ 0 by omega)
    have htake : (x :: xs).take (min (runLen x (x :: xs)) (2 ^ 32)) = List.replicate (k + 1) x := by
      rw [Nat.min_comm, ← List.take_take, hrun, List.take_replicate, Nat.min_comm, hk]
    exact .inr ⟨x, by rw [htake, chooseForm_replicate]⟩
  case short.isFalse => exact .inl (Nat.min_le_left _ _)
  case count.isTrue => exact Nat.min_le_right _ _
  case count.isFalse => omega
/-- A cut off what is available up to a flush point is a cut off the elements. -/
theorem exists_cut (flush : List Nat) (pos : Nat) {e x : Nat} {xs : List Nat} (hx : ∀ y ∈ x :: xs, y < 256 ^ e) :
    let k := cutLength x ((x :: xs).take (cutLimit flush pos (x :: xs).length))
    0 < k ∧ k ≤ (x :: xs).length ∧ BlockOk e ((x :: xs).take k) := by
  obtain ⟨lim, hlim⟩ := Nat.exists_eq_succ_of_ne_zero (Nat.ne_of_gt (cutLimit_pos flush pos (n := (x :: xs).length) (by simp)))
  have hle := cutLength_le x (x :: xs.take lim)
  have hok := blockOk_cut (e := e) (x := x) (xs := xs.take lim)
    (fun y hy => hx y (List.mem_of_mem_take (i := lim + 1) (by simpa using hy)))
  rw [hlim, List.take_succ_cons]
  have htake : (x :: xs.take lim).length ≤ lim + 1 := by rw [List.length_cons, List.length_take]; omega
  refine ⟨cutLength_pos x _, Nat.le_trans hle (by rw [List.length_cons, List.length_cons, List.length_take]; omega), ?_⟩
  have hcut : (x :: xs.take lim).take (cutLength x (x :: xs.take lim)) = (x :: xs).take (cutLength x (x :: xs.take lim)) := by
    rw [← List.take_succ_cons, List.take_take, List.take_succ_cons, Nat.min_eq_left (Nat.le_trans hle htake)]
  rwa [hcut] at hok

/-- Decoding what the encoder made of elements gives them back, and ends with the last. -/
theorem streamDecodeBlocks_streamBlocks {e : Nat} (he : e ≤ 8) (he0 : 0 < e) (fuel : Nat) : ∀ (dfuel pos p : Nat) (flush xs : List Nat) (acc : List Byte),
    xs.length ≤ fuel → (∀ x ∈ xs, x < 256 ^ e) → (streamBlocks e fuel p flush xs).length < dfuel →
    streamDecodeBlocks e dfuel (xs.length * e) pos (streamBlocks e fuel p flush xs) acc
      = ⟨0, pos + (streamBlocks e fuel p flush xs).length, pos + (streamBlocks e fuel p flush xs).length, acc ++ xs.flatMap (natLE e)⟩ := by
  induction fuel with
  | zero =>
    intro dfuel pos p flush xs acc hlen _ hd
    obtain ⟨d, rfl⟩ := Nat.exists_eq_succ_of_ne_zero (Nat.ne_zero_of_lt hd)
    obtain rfl := List.eq_nil_of_length_eq_zero (Nat.le_zero.mp hlen)
    simp [streamBlocks, streamDecodeBlocks]
  | succ fuel ih =>
    intro dfuel pos p flush xs acc hlen hx hd
    obtain ⟨d, rfl⟩ := Nat.exists_eq_succ_of_ne_zero (Nat.ne_zero_of_lt hd)
    cases xs with
    | nil => simp [streamBlocks, streamDecodeBlocks]
    | cons x xs =>
      obtain ⟨fl, hstep⟩ := streamBlocks_cons e fuel p flush x xs
      obtain ⟨hkpos, hkle, hok⟩ := exists_cut flush p hx
      generalize cutLength x ((x :: xs).take (cutLimit flush p (x :: xs).length)) = k at hstep hkpos hkle hok
      have htake : ((x :: xs).take k).length = k := by rw [List.length_take]; omega
      have hdrop : ((x :: xs).drop k).length = (x :: xs).length - k := List.length_drop
      have hsize := streamBlock_length_ge e ((x :: xs).take k)
      rw [hstep, List.length_append] at hd
      have hle : k * e ≤ (x :: xs).length * e := Nat.mul_le_mul_right e hkle
      have hne : (x :: xs).length * e ≠ 0 := Nat.mul_ne_zero (by simp) (Nat.ne_of_gt he0)
      have hrest := ih d (pos + (streamBlock e ((x :: xs).take k)).length) (p + k) fl ((x :: xs).drop k) (acc ++ ((x :: xs).take k).flatMap (natLE e))
        (by omega) (fun y hy => hx y (List.mem_of_mem_drop hy)) (by omega)
      rw [hdrop, Nat.sub_mul] at hrest
      rw [hstep, streamDecodeBlocks_streamBlock d he hok (by rwa [htake]) hne, htake, hrest, List.length_append, List.append_assoc,
        ← List.flatMap_append, List.take_append_drop, Nat.add_assoc]

/-! ## The whole stream (R58, R60) -/

/-- The header of a coded stream: its version, its element size with the stored flag, and the length of its input. -/
def streamHead (esize stored len : Nat) : List Byte := natLE 1 1 ++ natLE 1 (2 * esize + stored) ++ natLE 6 len

section
variable {esize stored len outLen : Nat} {tail : List Byte}

@[simp] theorem streamHead_length : (streamHead esize stored len).length = 8 := by simp [streamHead]
theorem streamHead_version : leAt (streamHead esize stored len ++ tail) 0 1 = 1 := by
  simp only [streamHead, List.append_assoc]
  exact leAt_natLE_append _ 1 1
theorem streamHead_flags (he : esize ≤ 3) (hs : stored ≤ 1) : leAt (streamHead esize stored len ++ tail) 1 1 = 2 * esize + stored := by
  simp only [streamHead, List.append_assoc]
  exact (leAt_append_natLE (natLE 1 1) _ 1 _).trans (Nat.mod_eq_of_lt (by omega))
theorem streamHead_size (hl : len < 2 ^ 48) : leAt (streamHead esize stored len ++ tail) 2 6 = len := by
  rw [streamHead, List.append_assoc]
  exact (leAt_append_natLE (natLE 1 1 ++ natLE 1 (2 * esize + stored)) tail 6 len).trans (Nat.mod_eq_of_lt hl)

/-- A stream with a good header decodes as its flags say (R60). -/
theorem streamDecode_streamHead (he : esize ≤ 3) (hs : stored ≤ 1) (hl : len < 2 ^ 48 - 1) (hroom : len ≤ outLen) :
    streamDecode (streamHead esize stored len ++ tail) outLen
      = if stored = 1 then
          if tail.length < len then ⟨St.codecTruncated, 0, 8, []⟩ else ⟨0, 8 + len, 8 + len, tail.take len⟩
        else streamDecodeBlocks (2 ^ esize) (tail.length + 9) len 8 tail [] := by
  have hlength : (streamHead esize stored len ++ tail).length = tail.length + 8 := by rw [List.length_append, streamHead_length]; omega
  have hne : (streamHead esize stored len ++ tail).isEmpty = false := by
    rw [List.isEmpty_eq_false_iff, ← List.length_pos_iff, hlength]; omega
  have hsize : fld (2 * esize + stored) 2 1 = esize := by rw [fld, Nat.shiftRight_eq_div_pow]; omega
  have hstored : bitOf (2 * esize + stored) 0 = decide (stored = 1) := by
    rw [bitOf, Nat.shiftRight_zero, Bool.eq_iff_iff, beq_iff_eq, decide_eq_true_iff]; omega
  simp only [streamDecode, streamHead_version, streamHead_flags he hs, streamHead_size (show len < 2 ^ 48 by omega), hne, hlength, hsize, hstored,
    List.drop_left' streamHead_length, decide_eq_true_eq]
  rw [if_neg (by decide), if_neg (by omega), if_neg (by omega), if_neg (by omega)]
  simp only [Nat.add_comm 8 len, Nat.add_lt_add_iff_right, Nat.add_assoc, Nat.reduceAdd]

end

/-- Settles O32: a stream stored raw gives its bytes back, and a coded one its elements block by block. -/
theorem decodeOfEncodeIsTheInput : Obligations.DecodeOfEncodeIsTheInput := by
  unfold Obligations.DecodeOfEncodeIsTheInput
  intro esize flush bs outLen hesize hwhole hlen hroom
  have he8 : 2 ^ esize ≤ 8 := Nat.pow_le_pow_right (by decide) hesize
  have hn : bs.length = bs.length / 2 ^ esize * 2 ^ esize := (Nat.div_mul_cancel (Nat.dvd_of_mod_eq_zero hwhole)).symm
  generalize hcoded : streamBlocks (2 ^ esize) (bs.length / 2 ^ esize) 0 flush (elemsOf (2 ^ esize) (bs.length / 2 ^ esize) bs) = coded
  have hencode : streamEncode esize flush bs = streamHead esize 1 bs.length ++ bs ∨ streamEncode esize flush bs = streamHead esize 0 bs.length ++ coded := by
    rw [← hcoded, streamEncode]
    split
    · exact .inl rfl
    · exact .inr rfl
  rcases hencode with h | h <;> simp only [h]
  · rw [streamDecode_streamHead hesize (Nat.le_refl 1) hlen hroom, if_pos rfl, if_neg (Nat.lt_irrefl _), List.length_append, streamHead_length,
      List.take_length]
    exact ⟨rfl, rfl, rfl⟩
  · have hdecode := streamDecodeBlocks_streamBlocks he8 (Nat.two_pow_pos esize) (bs.length / 2 ^ esize) (coded.length + 9) 8 0 flush
      (elemsOf (2 ^ esize) (bs.length / 2 ^ esize) bs) [] (Nat.le_of_eq (elemsOf_length _ _ _)) elemsOf_lt (by rw [hcoded]; omega)
    rw [elemsOf_length, ← hn, elemsOf_bytes hn, hcoded, List.nil_append] at hdecode
    rw [streamDecode_streamHead hesize (Nat.zero_le 1) hlen hroom, if_neg (by decide), hdecode, List.length_append, streamHead_length]
    exact ⟨rfl, rfl, rfl⟩

end Sys2Proof.Machine

/-! Proofs for denied register writes (chapters 1 and 20, R15, R420), for the step, and for the state after reset. -/

namespace Sys2Proof.Machine
open Sys2Proof Sys2Proof.Safety

/-! ## Fields of a number -/

theorem testBit_fld (w hi lo i : Nat) : (fld w hi lo).testBit i = (decide (i < hi + 1 - lo) && w.testBit (lo + i)) := by
  rw [fld, Nat.testBit_mod_two_pow, Nat.testBit_shiftRight]
/-- A bit of a number with a field replaced. -/
theorem testBit_setFld (w v i : Nat) {hi lo : Nat} (h : lo ≤ hi + 1) :
    (setFld w hi lo v).testBit i = if i < lo then w.testBit i else if i < hi + 1 then v.testBit (i - lo) else w.testBit i := by
  have hlow : w % 2 ^ lo < 2 ^ lo := Nat.mod_lt _ (Nat.two_pow_pos lo)
  have hmid : v % 2 ^ (hi + 1 - lo) < 2 ^ (hi + 1 - lo) := Nat.mod_lt _ (Nat.two_pow_pos _)
  have hsplit : setFld w hi lo v = 2 ^ lo * (2 ^ (hi + 1 - lo) * (w >>> (hi + 1)) + v % 2 ^ (hi + 1 - lo)) + w % 2 ^ lo := by
    rw [setFld, Nat.shiftLeft_eq, Nat.shiftLeft_eq, Nat.mul_add, ← Nat.mul_assoc, ← Nat.pow_add, Nat.add_sub_cancel' h, Nat.mul_comm,
      Nat.mul_comm (2 ^ lo)]
  rw [hsplit, Nat.testBit_two_pow_mul_add _ hlow]
  by_cases hi1 : i < lo
  · rw [if_pos hi1, if_pos hi1, Nat.testBit_mod_two_pow, decide_eq_true hi1, Bool.true_and]
  · rw [if_neg hi1, if_neg hi1, Nat.testBit_two_pow_mul_add _ hmid]
    by_cases hi2 : i < hi + 1
    · rw [if_pos hi2, if_pos (by omega), Nat.testBit_mod_two_pow, decide_eq_true (by omega), Bool.true_and]
    · rw [if_neg hi2, if_neg (by omega), Nat.testBit_shiftRight, show hi + 1 + (i - lo - (hi + 1 - lo)) = i by omega]
/-- A field reads what was put into it. -/
theorem fld_setFld_self (w v : Nat) {hi lo : Nat} (h : lo ≤ hi + 1) : fld (setFld w hi lo v) hi lo = v % 2 ^ (hi + 1 - lo) := by
  apply Nat.eq_of_testBit_eq
  intro i
  rw [testBit_fld, testBit_setFld _ _ _ h, Nat.testBit_mod_two_pow]
  by_cases hi1 : i < hi + 1 - lo
  · rw [if_neg (by omega), if_pos (by omega), Nat.add_sub_cancel_left]
  · rw [decide_eq_false hi1, Bool.false_and, Bool.false_and]
/-- A field apart from the one replaced reads as before. -/
theorem fld_setFld_apart (w v : Nat) {hi lo hi' lo' : Nat} (h : lo ≤ hi + 1) (hapart : hi' < lo ∨ hi < lo') :
    fld (setFld w hi lo v) hi' lo' = fld w hi' lo' := by
  apply Nat.eq_of_testBit_eq
  intro i
  rw [testBit_fld, testBit_fld, testBit_setFld _ _ _ h]
  by_cases hi1 : i < hi' + 1 - lo'
  · congr 1
    split
    · rfl
    · rw [if_neg (by omega)]
  · rw [decide_eq_false hi1, Bool.false_and, Bool.false_and]

/-! ## Fields of a register -/

section
variable (s : State) (off inst v : Nat) {hi lo : Nat}

theorem regGet_regSetFld_self (hi lo : Nat) : regGet (regSetFld s off inst hi lo v) off inst = setFld (regGet s off inst) hi lo v :=
  regGet_regPut_self ..
theorem regGet_regSetFld_ne (hi lo : Nat) {off' inst' : Nat} (h : regKey off' inst' ≠ regKey off inst) :
    regGet (regSetFld s off inst hi lo v) off' inst' = regGet s off' inst' := regGet_regPut_ne _ _ _ _ _ _ h
theorem rfld_regSetFld_self (h : lo ≤ hi + 1) : rfld (regSetFld s off inst hi lo v) off inst hi lo = v % 2 ^ (hi + 1 - lo) := by
  rw [rfld, regGet_regSetFld_self, fld_setFld_self _ _ h]
theorem rfld_regSetFld_apart {hi' lo' : Nat} (h : lo ≤ hi + 1) (hapart : hi' < lo ∨ hi < lo') :
    rfld (regSetFld s off inst hi lo v) off inst hi' lo' = rfld s off inst hi' lo' := by
  rw [rfld, regGet_regSetFld_self, fld_setFld_apart _ _ h hapart, rfld]

end

@[simp] theorem regGet_dropHalves (s : State) (p : Path) (off inst : Nat) : regGet (dropHalves s p) off inst = regGet s off inst := rfl
@[simp] theorem rfld_dropHalves (s : State) (p : Path) (off inst hi lo : Nat) : rfld (dropHalves s p) off inst hi lo = rfld s off inst hi lo := rfl

/-! ## A denied request (R15, R420) -/

/-- An event changes the queue to the AON domain and nothing else (R510). -/
theorem logEvent_eq (s : State) (evid fn a0 a1 a2 : Nat) : ∃ w, logEvent s evid fn a0 a1 a2 = { s with pwr := w } := by
  unfold logEvent
  split
  · exact ⟨_, rfl⟩
  · exact ⟨_, rfl⟩
/-- An event that finds the queue with room joins it. -/
theorem logEvent_evQueue {s : State} (h : s.pwr.evQueue.length < 64) (evid fn a0 a1 a2 : Nat) :
    (logEvent s evid fn a0 a1 a2).pwr.evQueue = s.pwr.evQueue ++ [eventBytes s evid fn a0 a1 a2] := by
  rw [logEvent, if_pos h]
/-- The count and the record of a denial. -/
def denyRecord (s : State) (init fn cls : Nat) : State :=
  regSetFld (regSetFld (regSetFld (cntAdd s Reg.SEC_DENY_CNT 0 63 32 1) Reg.SEC_DENY_CNT 0 23 16 init) Reg.SEC_DENY_CNT 0 15 8 fn)
    Reg.SEC_DENY_CNT 0 7 0 cls
theorem deny_eq (s : State) (init fn addr cls : Nat) :
    deny s init fn addr cls = logEvent (denyRecord s init fn cls) Ev.accessDenied fn (init * 256 + fn) addr cls := rfl
/-- A denial changes the registers and the queue of events, and nothing else. -/
theorem deny_frame (s : State) (init fn addr cls : Nat) :
    ∃ w, deny s init fn addr cls = { s with regs := (denyRecord s init fn cls).regs, pwr := w } := by
  obtain ⟨w, h⟩ := logEvent_eq (denyRecord s init fn cls) Ev.accessDenied fn (init * 256 + fn) addr cls
  exact ⟨w, by rw [deny_eq, h]; rfl⟩
theorem regGet_deny (s : State) (init fn addr cls off inst : Nat) :
    regGet (deny s init fn addr cls) off inst = regGet (denyRecord s init fn cls) off inst := by
  obtain ⟨w, h⟩ := deny_frame s init fn addr cls
  rw [h]; rfl
theorem rfld_deny (s : State) (init fn addr cls off inst hi lo : Nat) :
    rfld (deny s init fn addr cls) off inst hi lo = rfld (denyRecord s init fn cls) off inst hi lo := by
  rw [rfld, regGet_deny, rfld]
theorem regGet_denyRecord_ne (s : State) (init fn cls : Nat) {off inst : Nat} (h : regKey off inst ≠ regKey Reg.SEC_DENY_CNT 0) :
    regGet (denyRecord s init fn cls) off inst = regGet s off inst := by
  rw [denyRecord, cntAdd, regGet_regSetFld_ne _ _ _ _ _ _ h, regGet_regSetFld_ne _ _ _ _ _ _ h, regGet_regSetFld_ne _ _ _ _ _ _ h,
    regGet_regSetFld_ne _ _ _ _ _ _ h]
/-- The count of denials saturates (R478). -/
theorem denyRecord_count (s : State) (init fn cls : Nat) :
    rfld (denyRecord s init fn cls) Reg.SEC_DENY_CNT 0 63 32 = min (rfld s Reg.SEC_DENY_CNT 0 63 32 + 1) (2 ^ 32 - 1) := by
  rw [denyRecord, rfld_regSetFld_apart _ _ _ _ (by decide) (by decide), rfld_regSetFld_apart _ _ _ _ (by decide) (by decide),
    rfld_regSetFld_apart _ _ _ _ (by decide) (by decide), cntAdd, rfld_regSetFld_self _ _ _ _ (by decide), satAdd]
  exact Nat.mod_eq_of_lt (by omega)
theorem denyRecord_initiator (s : State) (init fn cls : Nat) : rfld (denyRecord s init fn cls) Reg.SEC_DENY_CNT 0 23 16 = init % 256 := by
  rw [denyRecord, rfld_regSetFld_apart _ _ _ _ (by decide) (by decide), rfld_regSetFld_apart _ _ _ _ (by decide) (by decide)]
  exact rfld_regSetFld_self _ _ _ _ (by decide)
theorem denyRecord_function (s : State) (init fn cls : Nat) : rfld (denyRecord s init fn cls) Reg.SEC_DENY_CNT 0 15 8 = fn % 256 := by
  rw [denyRecord, rfld_regSetFld_apart _ _ _ _ (by decide) (by decide)]
  exact rfld_regSetFld_self _ _ _ _ (by decide)
theorem denyRecord_class (s : State) (init fn cls : Nat) : rfld (denyRecord s init fn cls) Reg.SEC_DENY_CNT 0 7 0 = cls % 256 := by
  rw [denyRecord]
  exact rfld_regSetFld_self _ _ _ _ (by decide)
theorem eventBytes_congr {s t : State} (h : t.pwr = s.pwr) (evid fn a0 a1 a2 : Nat) :
    eventBytes t evid fn a0 a1 a2 = eventBytes s evid fn a0 a1 a2 := by simp only [eventBytes, now, h]
theorem denyRecord_pwr (s : State) (init fn cls : Nat) : (denyRecord s init fn cls).pwr = s.pwr := rfl
theorem deny_evQueue {s : State} (h : s.pwr.evQueue.length < 64) (init fn addr cls : Nat) :
    (deny s init fn addr cls).pwr.evQueue
      = s.pwr.evQueue ++ [eventBytes s Ev.accessDenied fn (init * 256 + fn) addr cls] := by
  rw [deny_eq, logEvent_evQueue (by rw [denyRecord_pwr]; exact h), denyRecord_pwr, eventBytes_congr (denyRecord_pwr s init fn cls)]

/-! ## Commands that write one register -/

/-- A command that is the write of one register goes through that register's gate. -/
theorem exec_rowTarget {c : Instr} {p : Path} {off : Nat} (h : rowTarget c = some (p, off)) (s : State) :
    ∃ f, exec c s = .next (rowGate s p off f) := by
  unfold rowTarget at h
  split at h <;> cases h <;> exact ⟨_, rfl⟩
theorem rowGate_denied {s : State} {p : Path} {off cls : Nat} (h : denyClass s p (some (.reg off)) = some cls) (f : State → State) :
    rowGate s p off f = if pathUp s p then deny (dropHalves s p) (pathInit p) (pathTag p) (regAddr off) cls else s := by
  rw [rowGate, h]

/-- Settles O55: every such command goes through its register's gate, which records the denial and runs nothing else. -/
theorem deniedWritesAreCounted : Obligations.DeniedWritesAreCounted := by
  unfold Obligations.DeniedWritesAreCounted
  intro c s p off cls htarget hdeny
  obtain ⟨f, hexec⟩ := exec_rowTarget htarget s
  rw [hexec, rowGate_denied hdeny]
  refine ⟨fun hdown => by rw [hdown]; rfl, fun hup => ⟨_, by rw [if_pos hup], ?_⟩⟩
  obtain ⟨w, hframe⟩ := deny_frame (dropHalves s p) (pathInit p) (pathTag p) (regAddr off) cls
  refine ⟨?count, ?init, ?fn, ?cls, ?others, fun hroom => ?event, ?rest⟩
  case count => rw [rfld_deny, denyRecord_count]; rfl
  case init => rw [rfld_deny, denyRecord_initiator]
  case fn => rw [rfld_deny, denyRecord_function]
  case cls => rw [rfld_deny, denyRecord_class]
  case others =>
    intro o i hne
    rw [regGet_deny, regGet_denyRecord_ne _ _ _ _ hne, regGet_dropHalves]
  case event =>
    rw [deny_evQueue (by rw [dropHalves_pwr]; exact hroom), dropHalves_pwr, eventBytes_congr (dropHalves_pwr s p)]
  case rest =>
    rw [hframe]
    exact ⟨rfl, rfl, rfl, rfl, rfl, rfl, rfl, rfl, rfl⟩

/-! ## The step and the reset state -/

/-- Settles O57: the two cases of the queue. -/
theorem stepRunsTheFrontCommand : Obligations.StepRunsTheFrontCommand := by
  unfold Obligations.StepRunsTheFrontCommand
  refine ⟨fun c rest s => rfl, fun s hempty => ?_⟩
  rw [step, hempty]

/-- A core that no table lists is at power-up, with A7 one word past its data memory (R196). -/
theorem getCore_reset_a7 (i : Nat) : (getCore State.reset i).a[7] = BitVec.ofNat 24 (dataEnd i) := by
  change ((Vector.replicate 8 (0 : BitVec 24)).set 7 (BitVec.ofNat 24 (dataEnd i)))[7] = _
  rw [Vector.getElem_set_self]
theorem fnExists_reset (fn : Nat) : fnExists State.reset fn = true ↔ fn = 0 := by
  change (fn == 0 || (false && _ && _)) = true ↔ fn = 0
  rw [Bool.false_and, Bool.false_and, Bool.or_false, beq_iff_eq]

/-- Settles O58: the reset state lists no register, core, queue or cell, so each reads its reset value. -/
theorem resetLeavesResetValues : Obligations.ResetLeavesResetValues := by
  unfold Obligations.ResetLeavesResetValues
  refine ⟨⟨rfl, rfl, rfl, fun off inst => rfl, fun i hi => ?tiles, fun i hi => ?others, rfl, rfl, rfl, rfl, fun d => rfl, fnExists_reset⟩, ?mem⟩
  case tiles =>
    have hkind : coreKind i = 0 := if_pos hi
    rw [getCore_reset_a7, dataEnd, if_pos hkind]
  case others =>
    have hkind : coreKind i ≠ 0 := by
      rw [coreKind, if_neg (by omega)]
      split <;> decide
    rw [getCore_reset_a7, dataEnd, if_neg hkind]
  case mem => exact ⟨rfl, rfl, rfl, rfl, rfl, rfl, rfl, by simp [State.reset], by simp [State.reset], by simp [State.reset], by simp [State.reset]⟩

end Sys2Proof.Machine

/-! Proofs for AES (chapter 18, R385): the inverse cipher of FIPS 197 undoes the cipher. -/

namespace Sys2Proof.Machine
open Sys2Proof

/-! ## The AES field on bytes -/

/-- Multiplication by x, on bytes. -/
def gfX (a : Byte) : Byte := (a <<< 1) ^^^ (if a.msb then 0x1B#8 else 0#8)
/-- The product over the low `n` bits of `b`, on bytes. -/
def gfMul : Nat → Byte → Nat → Byte
  | 0, _, _ => 0#8
  | n + 1, a, b => (if b % 2 = 1 then a else 0#8) ^^^ gfMul n (gfX a) (b / 2)

theorem aesX_toNat (a : Byte) : aesX a.toNat = (gfX a).toNat := by
  revert a; decide
theorem aesMul_toNat (n : Nat) (a : Byte) (b : Nat) : aesMul n a.toNat b = (gfMul n a b).toNat := by
  induction n generalizing a b with
  | zero => rfl
  | succ n ih =>
    rw [aesMul, gfMul, aesX_toNat, ih, BitVec.toNat_xor]
    split <;> rfl
theorem gfX_xor (a b : Byte) : gfX (a ^^^ b) = gfX a ^^^ gfX b := by
  have hmsb : (a ^^^ b).msb = (a.msb != b.msb) := BitVec.msb_xor
  have hred : (if (a.msb != b.msb) then 0x1B#8 else 0#8) = (if a.msb then 0x1B#8 else 0#8) ^^^ (if b.msb then 0x1B#8 else 0#8) := by
    cases a.msb <;> cases b.msb <;> rfl
  rw [gfX, gfX, gfX, hmsb, hred, BitVec.shiftLeft_xor_distrib]
  ac_rfl
/-- The product distributes over the sum. -/
theorem gfMul_xor (n : Nat) (a b : Byte) (c : Nat) : gfMul n (a ^^^ b) c = gfMul n a c ^^^ gfMul n b c := by
  induction n generalizing a b c with
  | zero => simp only [gfMul, BitVec.xor_self]
  | succ n ih =>
    rw [gfMul, gfMul, gfMul, gfX_xor, ih]
    split
    · ac_rfl
    · simp only [BitVec.zero_xor]

/-! ## Columns (MixColumns and its inverse) -/

/-- One byte of a column multiplied by a row of the circulant. -/
def gfRow (p q r t : Nat) (a b c d : Byte) : Byte := gfMul 8 a p ^^^ gfMul 8 b q ^^^ gfMul 8 c r ^^^ gfMul 8 d t

/-- The polynomials 14, 11, 13, 9 and 2, 3, 1, 1 are inverse to each other: what one byte of a column gives to its own place, and to
the three others. -/
theorem gf_inverse : ∀ a : Byte,
    gfMul 8 (gfMul 8 a 2) 14 ^^^ gfMul 8 (gfMul 8 a 1) 11 ^^^ gfMul 8 (gfMul 8 a 1) 13 ^^^ gfMul 8 (gfMul 8 a 3) 9 = a := by decide
theorem gf_inverse_next : ∀ a : Byte,
    gfMul 8 (gfMul 8 a 3) 14 ^^^ gfMul 8 (gfMul 8 a 2) 11 ^^^ gfMul 8 (gfMul 8 a 1) 13 ^^^ gfMul 8 (gfMul 8 a 1) 9 = 0#8 := by decide
theorem gf_inverse_opposite : ∀ a : Byte,
    gfMul 8 (gfMul 8 a 1) 14 ^^^ gfMul 8 (gfMul 8 a 3) 11 ^^^ gfMul 8 (gfMul 8 a 2) 13 ^^^ gfMul 8 (gfMul 8 a 1) 9 = 0#8 := by decide
theorem gf_inverse_previous : ∀ a : Byte,
    gfMul 8 (gfMul 8 a 1) 14 ^^^ gfMul 8 (gfMul 8 a 1) 11 ^^^ gfMul 8 (gfMul 8 a 3) 13 ^^^ gfMul 8 (gfMul 8 a 2) 9 = 0#8 := by decide

/-- The inverse circulant undoes the circulant, at the first place of a column; the other places follow by turning the column. -/
theorem gfRow_inverse (a b c d : Byte) :
    gfRow 14 11 13 9 (gfRow 2 3 1 1 a b c d) (gfRow 1 2 3 1 a b c d) (gfRow 1 1 2 3 a b c d) (gfRow 3 1 1 2 a b c d) = a := by
  have hsum : gfRow 14 11 13 9 (gfRow 2 3 1 1 a b c d) (gfRow 1 2 3 1 a b c d) (gfRow 1 1 2 3 a b c d) (gfRow 3 1 1 2 a b c d)
      = (gfMul 8 (gfMul 8 a 2) 14 ^^^ gfMul 8 (gfMul 8 a 1) 11 ^^^ gfMul 8 (gfMul 8 a 1) 13 ^^^ gfMul 8 (gfMul 8 a 3) 9)
        ^^^ (gfMul 8 (gfMul 8 b 3) 14 ^^^ gfMul 8 (gfMul 8 b 2) 11 ^^^ gfMul 8 (gfMul 8 b 1) 13 ^^^ gfMul 8 (gfMul 8 b 1) 9)
        ^^^ (gfMul 8 (gfMul 8 c 1) 14 ^^^ gfMul 8 (gfMul 8 c 3) 11 ^^^ gfMul 8 (gfMul 8 c 2) 13 ^^^ gfMul 8 (gfMul 8 c 1) 9)
        ^^^ (gfMul 8 (gfMul 8 d 1) 14 ^^^ gfMul 8 (gfMul 8 d 1) 11 ^^^ gfMul 8 (gfMul 8 d 3) 13 ^^^ gfMul 8 (gfMul 8 d 2) 9) := by
    simp only [gfRow, gfMul_xor]
    ac_rfl
  rw [hsum, gf_inverse, gf_inverse_next, gf_inverse_opposite, gf_inverse_previous, BitVec.xor_zero, BitVec.xor_zero, BitVec.xor_zero]
theorem gfRow_turn (p q r t : Nat) (a b c d : Byte) : gfRow p q r t a b c d = gfRow q r t p b c d a := by
  rw [gfRow, gfRow]; ac_rfl

/-- A row of the inverse circulant over a multiplied column is the next row over the turned column, multiplied. -/
theorem gfRow_column_turn (p q r t : Nat) (a b c d : Byte) :
    gfRow p q r t (gfRow 2 3 1 1 a b c d) (gfRow 1 2 3 1 a b c d) (gfRow 1 1 2 3 a b c d) (gfRow 3 1 1 2 a b c d)
      = gfRow q r t p (gfRow 2 3 1 1 b c d a) (gfRow 1 2 3 1 b c d a) (gfRow 1 1 2 3 b c d a) (gfRow 3 1 1 2 b c d a) := by
  rw [gfRow_turn p, gfRow_turn 2 3 1 1 a, gfRow_turn 1 2 3 1 a, gfRow_turn 1 1 2 3 a, gfRow_turn 3 1 1 2 a]

/-- The columns of a block multiplied by a circulant. -/
def gfMix (p q r t : Nat) : List Byte → List Byte
  | a :: b :: c :: d :: rest =>
    gfRow p q r t a b c d :: gfRow t p q r a b c d :: gfRow r t p q a b c d :: gfRow q r t p a b c d :: gfMix p q r t rest
  | _ => []

/-- Whole columns of which there is no first are none. -/
theorem eq_nil_of_no_column {bs : List Byte} (hne : ∀ a b c d rest, bs = a :: b :: c :: d :: rest → False) (h : bs.length % 4 = 0) : bs = [] := by
  match bs, hne, h with
  | [], _, _ => rfl
  | [_], _, h => simp at h
  | [_, _], _, h => simp at h
  | [_, _, _], _, h => simp at h
  | a :: b :: c :: d :: rest, hne, _ => exact (hne a b c d rest rfl).elim
theorem gfMix_length (p q r t : Nat) {bs : List Byte} (h : bs.length % 4 = 0) : (gfMix p q r t bs).length = bs.length := by
  induction bs using gfMix.induct with
  | case1 a b c d rest ih =>
    simp only [List.length_cons] at h
    simp only [gfMix, List.length_cons, ih (by omega)]
  | case2 bs hne =>
    obtain rfl := eq_nil_of_no_column hne h
    rfl
theorem gfMix_inverse {bs : List Byte} (h : bs.length % 4 = 0) : gfMix 14 11 13 9 (gfMix 2 3 1 1 bs) = bs := by
  induction bs using gfMix.induct with
  | case1 a b c d rest ih =>
    have hb := (gfRow_column_turn 9 14 11 13 a b c d).trans (gfRow_inverse b c d a)
    have hc := (gfRow_column_turn 13 9 14 11 a b c d).trans ((gfRow_column_turn 9 14 11 13 b c d a).trans (gfRow_inverse c d a b))
    have hd := (gfRow_column_turn 11 13 9 14 a b c d).trans
      ((gfRow_column_turn 13 9 14 11 b c d a).trans ((gfRow_column_turn 9 14 11 13 c d a b).trans (gfRow_inverse d a b c)))
    simp only [List.length_cons] at h
    rw [gfMix, gfMix, ih (by omega), gfRow_inverse, hb, hc, hd]
  | case2 bs hne =>
    obtain rfl := eq_nil_of_no_column hne h
    rfl

/-- A block of the cipher: 16 numbers that are bytes. -/
def IsBlock (s : List Nat) : Prop := s.length = 16 ∧ ∀ x ∈ s, x < 256

theorem isBlock_toN {bs : List Byte} (h : bs.length = 16) : IsBlock (toN bs) := by
  refine ⟨by rw [toN, List.length_map, h], fun x hx => ?_⟩
  obtain ⟨b, _, rfl⟩ := List.mem_map.mp hx
  exact b.isLt
theorem toN_ofN {s : List Nat} (h : ∀ x ∈ s, x < 256) : toN (ofN s) = s := by
  rw [toN, ofN, List.map_map]
  refine (List.map_congr_left fun x hx => ?_).trans (List.map_id s)
  rw [Function.comp_apply, BitVec.toNat_ofNat, Nat.mod_eq_of_lt (h x hx), id]
theorem ofN_toN (bs : List Byte) : ofN (toN bs) = bs := by
  rw [toN, ofN, List.map_map]
  refine (List.map_congr_left fun b _ => ?_).trans (List.map_id bs)
  rw [Function.comp_apply, BitVec.ofNat_toNat, BitVec.setWidth_eq, id]

theorem aesMix_toN (p q r t : Nat) {bs : List Byte} (h : bs.length = 16) : aesMix [p, q, r, t] (toN bs) = toN (gfMix p q r t bs) := by
  match bs, h with
  | [b0, b1, b2, b3, b4, b5, b6, b7, b8, b9, b10, b11, b12, b13, b14, b15], _ =>
    simp [aesMix, toN, gfMix, gfRow, List.range_succ, aesMul_toNat]
theorem aesShift_inverse {s : List Nat} (h : s.length = 16) : aesShift 3 (aesShift 1 s) = s := by
  match s, h with
  | [_, _, _, _, _, _, _, _, _, _, _, _, _, _, _, _], _ => rfl

/-- The inverse column mix undoes the column mix. -/
theorem aesMix_inverse {s : List Nat} (h : IsBlock s) : IsBlock (aesMix [2, 3, 1, 1] s) ∧ aesMix [14, 11, 13, 9] (aesMix [2, 3, 1, 1] s) = s := by
  obtain ⟨hlen, hlt⟩ := h
  obtain ⟨bs, hbs, rfl⟩ : ∃ bs : List Byte, bs.length = 16 ∧ toN bs = s := ⟨ofN s, by rw [ofN, List.length_map, hlen], toN_ofN hlt⟩
  have hmixed : (gfMix 2 3 1 1 bs).length = 16 := by rw [gfMix_length _ _ _ _ (by rw [hbs]), hbs]
  rw [aesMix_toN _ _ _ _ hbs, aesMix_toN _ _ _ _ hmixed, gfMix_inverse (by rw [hbs])]
  exact ⟨isBlock_toN hmixed, rfl⟩

/-! ## Substitution and row shift -/

/-- The inverse of a byte's substitution, by its own formula. -/
def aesUnsub (y : Nat) : Nat :=
  let i := rotl8 1 y ^^^ rotl8 3 y ^^^ rotl8 6 y ^^^ 5
  if i = 0 then 0 else aesInv 7 i
set_option maxRecDepth 3000 in
theorem aesSub_spec : ∀ x < 256, aesSub x < 256 ∧ aesUnsub (aesSub x) = x := by decide

theorem aesSbox_length : aesSbox.length = 256 := by rw [aesSbox, List.length_map, List.length_range]
theorem sboxAt_aesSbox {x : Nat} (h : x < 256) : sboxAt aesSbox x = aesSub x := by
  rw [sboxAt, aesSbox, List.getElem?_map, List.getElem?_range h, Option.map_some, Option.getD_some]
theorem sboxAt_lt (x : Nat) : sboxAt aesSbox x < 256 := by
  by_cases h : x < 256
  · rw [sboxAt_aesSbox h]; exact (aesSub_spec x h).1
  · rw [sboxAt, List.getElem?_eq_none (by rw [aesSbox_length]; omega)]; decide
/-- The inverse table finds the byte that a substitution came from. -/
theorem sboxAt_inverse {x : Nat} (h : x < 256) : sboxAt aesSboxInv (sboxAt aesSbox x) = x := by
  have hy := sboxAt_lt x
  rw [sboxAt, aesSboxInv, List.getElem?_map, List.getElem?_range hy, Option.map_some, Option.getD_some, sboxAt_aesSbox h,
    List.findIdx_eq (by rw [aesSbox_length]; exact h)]
  refine ⟨?found, fun j hj => ?first⟩
  case found => simp only [aesSbox, List.getElem_map, List.getElem_range, BEq.rfl]
  case first =>
    simp only [aesSbox, List.getElem_map, List.getElem_range, beq_eq_false_iff_ne]
    intro heq
    have hback := congrArg aesUnsub heq
    rw [(aesSub_spec j (by omega)).2, (aesSub_spec x h).2] at hback
    omega

theorem isBlock_aesShift (d : Nat) {s : List Nat} (h : IsBlock s) : IsBlock (aesShift d s) := by
  refine ⟨by rw [aesShift, List.length_map, List.length_range], fun x hx => ?_⟩
  obtain ⟨k, _, rfl⟩ := List.mem_map.mp hx
  dsimp only
  cases hget : s[k % 4 + 4 * ((k / 4 + d * (k % 4)) % 4)]? with
  | none => decide
  | some y => exact h.2 y (List.mem_of_getElem? hget)
theorem zipWith_xor_lt {a b : List Nat} (ha : ∀ x ∈ a, x < 256) (hb : ∀ x ∈ b, x < 256) : ∀ x ∈ List.zipWith (· ^^^ ·) a b, x < 256 := by
  induction a generalizing b with
  | nil => exact fun x hx => absurd hx List.not_mem_nil
  | cons x a ih =>
    cases b with
    | nil => exact fun x hx => absurd hx List.not_mem_nil
    | cons y b =>
      intro z hz
      rcases List.mem_cons.mp hz with rfl | hz
      · exact Nat.xor_lt_two_pow (n := 8) (ha x List.mem_cons_self) (hb y List.mem_cons_self)
      · exact ih (fun w hw => ha w (List.mem_cons_of_mem x hw)) (fun w hw => hb w (List.mem_cons_of_mem y hw)) z hz
theorem isBlock_xorN {s k : List Nat} (hs : IsBlock s) (hk : IsBlock k) : IsBlock (xorN s k) := by
  exact ⟨by rw [xorN, List.length_zipWith, hs.1, hk.1, Nat.min_self], zipWith_xor_lt hs.2 hk.2⟩
theorem xorN_xorN {s k : List Nat} (h : s.length ≤ k.length) : xorN (xorN s k) k = s := by
  induction s generalizing k with
  | nil => rfl
  | cons x s ih =>
    cases k with
    | nil => simp at h
    | cons y k =>
      have htail := ih (k := k) (by simpa using h)
      simp only [xorN, List.zipWith_cons_cons] at htail ⊢
      rw [htail, Nat.xor_assoc, Nat.xor_self, Nat.xor_zero]

/-! ## Rounds -/

/-- Substitution and row shift of a block, and what undoes them. -/
def subShift (s : List Nat) : List Nat := aesShift 1 (s.map (sboxAt aesSbox))
def unsubShift (s : List Nat) : List Nat := (aesShift 3 s).map (sboxAt aesSboxInv)
def encRound (s k : List Nat) : List Nat := xorN (aesMix [2, 3, 1, 1] (subShift s)) k
def decRound (s k : List Nat) : List Nat := aesMix [14, 11, 13, 9] (xorN (unsubShift s) k)

theorem isBlock_subShift {s : List Nat} (h : IsBlock s) : IsBlock (subShift s) := by
  refine isBlock_aesShift 1 ⟨by rw [List.length_map, h.1], fun x hx => ?_⟩
  obtain ⟨y, _, rfl⟩ := List.mem_map.mp hx
  exact sboxAt_lt y
theorem unsubShift_subShift {s : List Nat} (h : IsBlock s) : unsubShift (subShift s) = s := by
  rw [unsubShift, subShift, aesShift_inverse (by rw [List.length_map, h.1]), List.map_map]
  exact (List.map_congr_left fun x hx => sboxAt_inverse (h.2 x hx)).trans (List.map_id s)
theorem isBlock_encRound {s k : List Nat} (hs : IsBlock s) (hk : IsBlock k) : IsBlock (encRound s k) :=
  isBlock_xorN (aesMix_inverse (isBlock_subShift hs)).1 hk
theorem isBlock_encRounds {ks : List (List Nat)} (hks : ∀ k ∈ ks, IsBlock k) {s : List Nat} (hs : IsBlock s) : IsBlock (ks.foldl encRound s) := by
  induction ks generalizing s with
  | nil => exact hs
  | cons k ks ih => exact ih (fun j hj => hks j (List.mem_cons_of_mem k hj)) (isBlock_encRound hs (hks k List.mem_cons_self))
/-- The rounds of the inverse cipher, taken backwards, undo the rounds of the cipher. -/
theorem decRounds_encRounds {ks : List (List Nat)} (hks : ∀ k ∈ ks, IsBlock k) {s : List Nat} (hs : IsBlock s) :
    ks.reverse.foldl decRound (subShift (ks.foldl encRound s)) = subShift s := by
  induction ks generalizing s with
  | nil => rfl
  | cons k ks ih =>
    have hk := hks k List.mem_cons_self
    have hround := isBlock_encRound hs hk
    obtain ⟨hmixed, hunmix⟩ := aesMix_inverse (isBlock_subShift hs)
    rw [List.foldl_cons, List.reverse_cons, List.foldl_append, ih (fun j hj => hks j (List.mem_cons_of_mem k hj)) hround, List.foldl_cons, List.foldl_nil,
      decRound, unsubShift_subShift hround, encRound, xorN_xorN (Nat.le_of_eq (by rw [hmixed.1, hk.1])), hunmix]
/-- The inverse cipher undoes the cipher under any round keys that are blocks. -/
theorem aesDec_aesEnc {ks : List (List Nat)} (hks : ∀ k ∈ ks, IsBlock k) (hne : ks ≠ []) {blk : List Byte} (hblk : blk.length = 16) :
    aesDec ks (aesEnc ks blk) = blk := by
  have hhead : IsBlock (ks.headD []) := by
    obtain ⟨k, rest, rfl⟩ := List.exists_cons_of_ne_nil hne
    exact hks k List.mem_cons_self
  have hlast : IsBlock (ks.getLastD []) := hks _ (by rw [List.getLastD_eq_getLast?, List.getLast?_eq_some_getLast hne]; exact List.getLast_mem hne)
  have hmid : ∀ k ∈ (ks.drop 1).dropLast, IsBlock k := fun k hk => hks k (List.mem_of_mem_drop ((List.dropLast_sublist _).subset hk))
  have hstart := isBlock_xorN (isBlock_toN hblk) hhead
  have hend := isBlock_subShift (isBlock_encRounds hmid hstart)
  have henc : aesEnc ks blk = ofN (xorN (subShift ((ks.drop 1).dropLast.foldl encRound (xorN (toN blk) (ks.headD [])))) (ks.getLastD [])) := rfl
  have hdec : ∀ c, aesDec ks c
      = ofN (xorN (unsubShift ((ks.drop 1).dropLast.reverse.foldl decRound (xorN (toN c) (ks.getLastD [])))) (ks.headD [])) := fun _ => rfl
  rw [hdec, henc, toN_ofN (isBlock_xorN hend hlast).2, xorN_xorN (Nat.le_of_eq (by rw [hend.1, hlast.1])), decRounds_encRounds hmid hstart,
    unsubShift_subShift hstart, xorN_xorN (Nat.le_of_eq (by rw [(isBlock_toN hblk).1, hhead.1])), ofN_toN]

/-! ## Round keys -/

/-- A word of the key schedule: four bytes. -/
def IsWord (w : List Nat) : Prop := w.length = 4 ∧ ∀ x ∈ w, x < 256

theorem isWord_xor {a b : List Nat} (ha : IsWord a) (hb : IsWord b) : IsWord (List.zipWith (· ^^^ ·) a b) :=
  ⟨by rw [List.length_zipWith, ha.1, hb.1, Nat.min_self], zipWith_xor_lt ha.2 hb.2⟩
theorem isWord_map_sbox {w : List Nat} (h : w.length = 4) : IsWord (w.map (sboxAt aesSbox)) := by
  refine ⟨by rw [List.length_map, h], fun x hx => ?_⟩
  obtain ⟨y, _, rfl⟩ := List.mem_map.mp hx
  exact sboxAt_lt y
theorem aesX_lt {a : Nat} (h : a < 256) : aesX a < 256 := by
  have hbyte := aesX_toNat (BitVec.ofNat 8 a)
  rw [BitVec.toNat_ofNat, Nat.mod_eq_of_lt h] at hbyte
  rw [hbyte]
  exact (gfX _).isLt
/-- A word with the round constant in its first byte. -/
def addRcon (rcon : Nat) : List Nat → List Nat
  | b :: r => (b ^^^ rcon) :: r
  | [] => []
theorem isWord_addRcon {w : List Nat} {rcon : Nat} (h : IsWord w) (hr : rcon < 256) : IsWord (addRcon rcon w) := by
  obtain ⟨hlen, hlt⟩ := h
  cases w with
  | nil => simp at hlen
  | cons b r =>
    refine ⟨hlen, fun x hx => ?_⟩
    rcases List.mem_cons.mp hx with rfl | hx
    · exact Nat.xor_lt_two_pow (n := 8) (hlt b List.mem_cons_self) hr
    · exact hlt x (List.mem_cons_of_mem b hx)

/-- The schedule makes words, one a step. -/
theorem aesSched_words {nk : Nat} (hnk : 0 < nk) (n : Nat) : ∀ (i rcon : Nat) (ws : List (List Nat)), rcon < 256 → nk ≤ ws.length →
    (∀ w ∈ ws, IsWord w) → (aesSched nk n i rcon ws).length = n + ws.length ∧ ∀ w ∈ aesSched nk n i rcon ws, IsWord w := by
  induction n with
  | zero => exact fun i rcon ws _ _ hws => ⟨(Nat.zero_add _).symm, hws⟩
  | succ n ih =>
    intro i rcon ws hr hlen hws
    have hget : ∀ j < ws.length, IsWord ((ws[j]?).getD []) := by
      intro j hj
      rw [List.getElem?_eq_getElem hj, Option.getD_some]
      exact hws _ (List.getElem_mem hj)
    have hlast := hget 0 (by omega)
    have hturned : IsWord (((((ws[0]?).getD []).drop 1) ++ (((ws[0]?).getD []).take 1)).map (sboxAt aesSbox)) := isWord_map_sbox (by
      rw [List.length_append, List.length_drop, List.length_take, hlast.1]; rfl)
    have hnew : ∀ t, IsWord t → ∀ w ∈ List.zipWith (· ^^^ ·) ((ws[nk - 1]?).getD []) t :: ws, IsWord w := by
      intro t ht w hw
      rcases List.mem_cons.mp hw with rfl | hw
      · exact isWord_xor (hget (nk - 1) (by omega)) ht
      · exact hws w hw
    have hstep : ∀ t r, IsWord t → r < 256 → _ := fun t r ht hr =>
      ih (i + 1) r (List.zipWith (· ^^^ ·) ((ws[nk - 1]?).getD []) t :: ws) hr (by rw [List.length_cons]; omega) (hnew t ht)
    simp only [List.length_cons] at hstep
    rw [aesSched, Nat.add_right_comm]
    by_cases hmod : i % nk = 0
    · simp only [if_pos hmod]
      exact hstep _ _ (isWord_addRcon hturned hr) (aesX_lt hr)
    · simp only [if_neg hmod]
      split
      · exact hstep _ _ (isWord_map_sbox hlast.1) hr
      · exact hstep _ _ hlast hr

theorem chunks_words {nk : Nat} {key : List Byte} (h : key.length = 4 * nk) :
    (chunks 4 nk key).length = nk ∧ ∀ c ∈ chunks 4 nk key, c.length = 4 := by
  induction nk generalizing key with
  | zero => exact ⟨rfl, fun c hc => absurd hc List.not_mem_nil⟩
  | succ nk ih =>
    obtain ⟨hlen, hword⟩ := ih (key := key.drop 4) (by rw [List.length_drop]; omega)
    have hne : key.isEmpty = false := List.isEmpty_eq_false_iff.mpr (List.ne_nil_of_length_pos (by omega))
    simp only [chunks, hne]
    refine ⟨congrArg (· + 1) hlen, fun c hc => ?_⟩
    rcases List.mem_cons.mp hc with rfl | hc
    · rw [List.length_take]; omega
    · exact hword c hc
/-- Four words in a row are one block. -/
theorem isBlock_flatten {ws : List (List Nat)} (hlen : ws.length = 4) (hws : ∀ w ∈ ws, IsWord w) : IsBlock ws.flatten := by
  match ws, hlen with
  | [a, b, c, d], _ =>
    refine ⟨?_, fun x hx => ?_⟩
    · simp only [List.flatten_cons, List.flatten_nil, List.length_append, List.length_nil, (hws a (by simp)).1, (hws b (by simp)).1,
        (hws c (by simp)).1, (hws d (by simp)).1]
    · obtain ⟨w, hw, hx⟩ := List.mem_flatten.mp hx
      exact (hws w hw).2 x hx
/-- The round keys of a key of whole words are blocks, and there are `nk + 7` of them. -/
theorem aesKeys_blocks {nk : Nat} (hnk : 0 < nk) {key : List Byte} (h : key.length = 4 * nk) :
    aesKeys key ≠ [] ∧ ∀ k ∈ aesKeys key, IsBlock k := by
  have hdiv : key.length / 4 = nk := by omega
  obtain ⟨hlen, hchunks⟩ := chunks_words h
  have hwords : ∀ w ∈ ((chunks 4 nk key).map (·.map BitVec.toNat)).reverse, IsWord w := by
    intro w hw
    obtain ⟨c, hc, rfl⟩ := List.mem_map.mp (List.mem_reverse.mp hw)
    refine ⟨by rw [List.length_map, hchunks c hc], fun x hx => ?_⟩
    obtain ⟨b, _, rfl⟩ := List.mem_map.mp hx
    exact b.isLt
  have hstart : ((chunks 4 nk key).map (·.map BitVec.toNat)).reverse.length = nk := by rw [List.length_reverse, List.length_map, hlen]
  obtain ⟨hcount, hall⟩ := aesSched_words hnk (4 * (nk + 7) - nk) nk 1 _ (by decide) (Nat.le_of_eq hstart.symm) hwords
  simp only [aesKeys, hdiv]
  refine ⟨by simp, fun k hk => ?_⟩
  obtain ⟨r, hr, rfl⟩ := List.mem_map.mp hk
  have hr := List.mem_range.mp hr
  refine isBlock_flatten ?_ (fun w hw => hall w (List.mem_reverse.mp (List.mem_of_mem_drop (List.mem_of_mem_take hw))))
  rw [List.length_take, List.length_drop, List.length_reverse, hcount, hstart]
  omega

/-- Settles O37: for each AES type, by the rounds under its round keys. -/
theorem aesDecryptUndoesEncrypt : Obligations.AesDecryptUndoesEncrypt := by
  unfold Obligations.AesDecryptUndoesEncrypt
  intro typ key block htyp hkey hblock
  simp only [isAes, Bool.and_eq_true, decide_eq_true_eq] at htyp
  have hcipher : cipherOf typ key = ⟨16, aesEnc (aesKeys key), aesDec (aesKeys key)⟩ := if_neg (by omega)
  have hlen : ∃ nk, 0 < nk ∧ key.length = 4 * nk := by
    obtain rfl | rfl | rfl : typ = 1 ∨ typ = 2 ∨ typ = 3 := by omega
    · exact ⟨4, by decide, hkey⟩
    · exact ⟨6, by decide, hkey⟩
    · exact ⟨8, by decide, hkey⟩
  obtain ⟨nk, hnk, hlen⟩ := hlen
  obtain ⟨hne, hblocks⟩ := aesKeys_blocks hnk hlen
  rw [hcipher]
  exact aesDec_aesEnc hblocks hne hblock

end Sys2Proof.Machine

/-! The vector unit (spec chapter 11): what writing lanes, control registers and predicates leaves, the fold over the active elements, and
the issue of a short form. -/

namespace Sys2Proof.Machine
open Sys2Proof Sys2Proof.Safety

/-! ## Lanes, predicates and control registers -/

theorem bitOf_eq_testBit (w i : Nat) : bitOf w i = w.testBit i := by
  rw [bitOf, Nat.testBit_eq_decide_div_mod_eq, Nat.shiftRight_eq_div_pow]
  rfl
@[simp] theorem setVcr_v (v : Vec) (n x : Nat) : (setVcr v n x).v = v.v := rfl
@[simp] theorem setVcr_p (v : Vec) (n x : Nat) : (setVcr v n x).p = v.p := rfl
@[simp] theorem setVcr_pipes (v : Vec) (n x : Nat) : (setVcr v n x).pipes = v.pipes := rfl
@[simp] theorem setVcr_links (v : Vec) (n x : Nat) : (setVcr v n x).links = v.links := rfl
@[simp] theorem setLane_p (v : Vec) (n j : Nat) (x : Lane) : (setLane v n j x).p = v.p := rfl
@[simp] theorem setLane_pipes (v : Vec) (n j : Nat) (x : Lane) : (setLane v n j x).pipes = v.pipes := rfl
@[simp] theorem setLane_links (v : Vec) (n j : Nat) (x : Lane) : (setLane v n j x).links = v.links := rfl
@[simp] theorem setPred_v (v : Vec) (n x : Nat) : (setPred v n x).v = v.v := rfl
@[simp] theorem setPred_cr (v : Vec) (n x : Nat) : (setPred v n x).cr = v.cr := rfl
@[simp] theorem setPred_pipes (v : Vec) (n x : Nat) : (setPred v n x).pipes = v.pipes := rfl
@[simp] theorem setPred_links (v : Vec) (n x : Nat) : (setPred v n x).links = v.links := rfl

theorem vlane_congr {v v' : Vec} (h : v'.v = v.v) (m j : Nat) : vlane v' m j = vlane v m j := by rw [vlane, vlane, h]
theorem vcr_congr {v v' : Vec} (h : v'.cr = v.cr) (k : Nat) : vcr v' k = vcr v k := by rw [vcr, vcr, h]
theorem vpred_congr {v v' : Vec} (h : v'.p = v.p) (k : Nat) : vpred v' k = vpred v k := by rw [vpred, vpred, h]

theorem getD_setIfInBounds {α : Type} {n : Nat} (v : Vector α n) (i j : Nat) (x d : α) :
    (v.setIfInBounds i x).toList.getD j d = if j = i ∧ i < n then x else v.toList.getD j d := by
  simp only [List.getD_eq_getElem?_getD, Vector.toList_setIfInBounds, List.getElem?_set]
  by_cases hji : i = j
  · subst hji
    by_cases hin : i < n <;> simp [hin]
  · simp [hji, Ne.symm hji]

theorem vcr_setVcr (v : Vec) (n x k : Nat) : vcr (setVcr v n x) k = if k = n ∧ n < 32 then x % 65536 else vcr v k := by
  simp only [vcr, setVcr, getD_setIfInBounds]
  split <;> simp
theorem vcr_setVcr_self (v : Vec) {n x : Nat} (hn : n < 32) (hx : x < 65536) : vcr (setVcr v n x) n = x := by
  rw [vcr_setVcr, if_pos ⟨rfl, hn⟩, Nat.mod_eq_of_lt hx]
theorem vcr_setVcr_ne (v : Vec) (n x : Nat) {k : Nat} (h : k ≠ n) : vcr (setVcr v n x) k = vcr v k := by
  rw [vcr_setVcr, if_neg (fun hk => h hk.1)]
@[simp] theorem vlane_setVcr (v : Vec) (n x m j : Nat) : vlane (setVcr v n x) m j = vlane v m j := rfl
@[simp] theorem vpred_setVcr (v : Vec) (n x m : Nat) : vpred (setVcr v n x) m = vpred v m := rfl
@[simp] theorem vpred_setLane (v : Vec) (n j : Nat) (x : Lane) (m : Nat) : vpred (setLane v n j x) m = vpred v m := rfl
@[simp] theorem vlane_setPred (v : Vec) (n x m j : Nat) : vlane (setPred v n x) m j = vlane v m j := rfl
@[simp] theorem vcr_setPred (v : Vec) (n x k : Nat) : vcr (setPred v n x) k = vcr v k := rfl
theorem vlane_setLane (v : Vec) (n i : Nat) (x : Lane) {m j : Nat} (hm : m < 16) (hj : j < 32) :
    vlane (setLane v n i x) m j = if m = n ∧ j = i then x else vlane v m j := by
  simp only [setLane, vlane, setVcr_v, getD_setIfInBounds]
  by_cases hmn : m = n
  · subst hmn
    by_cases hji : j = i
    · subst hji; simp [hm, hj]
    · simp [hm, hji, Ne.symm hji]
  · simp [hmn]
theorem vcr_setLane_ne (v : Vec) (n j : Nat) (x : Lane) {k : Nat} (h : k ≠ 4) : vcr (setLane v n j x) k = vcr v k := by
  rw [setLane, vcr_setVcr_ne _ _ _ h]
  rfl
theorem vpred_setPred (v : Vec) (n x : Nat) {m : Nat} (hm : m < 8) :
    vpred (setPred v n x) m = if m = n then x % 2 ^ 32 else vpred v m := by
  simp only [vpred, setPred, getD_setIfInBounds]
  by_cases hmn : m = n
  · subst hmn; simp [hm]
  · simp [hmn]
/-- A bit of a predicate just written. -/
theorem bitOf_vpred_setPred_self (v : Vec) {n : Nat} (x : Nat) (hn : n < 8) {j : Nat} (hj : j < 32) :
    bitOf (vpred (setPred v n x) n) j = x.testBit j := by
  rw [vpred_setPred _ _ _ hn, if_pos rfl, bitOf_eq_testBit, Nat.testBit_mod_two_pow]
  simp [hj]

/-! ## What the elements of an instruction leave of the vector state -/

/-- The predicates, the pipes, the links and the control registers but V_LIVE (4) and the counters (6 to 9) stand. -/
structure VecRest (v v' : Vec) : Prop where
  p : v'.p = v.p
  pipes : v'.pipes = v.pipes
  links : v'.links = v.links
  cr : ∀ k, k ∉ [4, 6, 7, 8, 9] → vcr v' k = vcr v k

/-- The elements `es` wrote lanes: element `j` wrote `w j m` to lane `j` of register `m` where that is a value, and all else stands. -/
structure ElemsPut (v v' : Vec) (es : List Nat) (w : Nat → Nat → Option Lane) : Prop where
  lane : ∀ m j, m < 16 → j < 32 → vlane v' m j = if j ∈ es then (w j m).getD (vlane v m j) else vlane v m j
  rest : VecRest v v'

/-- Elements that write their value `y j` to register `d` only. -/
def toReg (d : Nat) (y : Nat → Lane) (j m : Nat) : Option Lane := if m = d then some (y j) else none

theorem VecRest.refl (v : Vec) : VecRest v v := ⟨rfl, rfl, rfl, fun _ _ => rfl⟩
theorem VecRest.trans {u v w : Vec} (h : VecRest u v) (h' : VecRest v w) : VecRest u w :=
  ⟨h'.p.trans h.p, h'.pipes.trans h.pipes, h'.links.trans h.links, fun k hk => (h'.cr k hk).trans (h.cr k hk)⟩
theorem vecRest_setVcr (v : Vec) {n : Nat} (x : Nat) (hn : n ∈ [4, 6, 7, 8, 9]) : VecRest v (setVcr v n x) :=
  ⟨rfl, rfl, rfl, fun _ hk => vcr_setVcr_ne _ _ _ (fun h => hk (h ▸ hn))⟩
theorem vecRest_setLane (v : Vec) (n j : Nat) (x : Lane) : VecRest v (setLane v n j x) :=
  ⟨rfl, rfl, rfl, fun k hk => vcr_setLane_ne v n j x (fun h => hk (by simp [h]))⟩
theorem vcounts_v (v : Vec) (sat wn : Bool) : (vcounts v sat wn).v = v.v := rfl
theorem vecRest_vcounts (v : Vec) (sat wn : Bool) : VecRest v (vcounts v sat wn) := by
  unfold vcounts vcount
  exact (((vecRest_setVcr v _ (by decide)).trans (vecRest_setVcr _ _ (by decide))).trans (vecRest_setVcr _ _ (by decide))).trans
    (vecRest_setVcr _ _ (by decide))

theorem ElemsPut.refl (v : Vec) (w : Nat → Nat → Option Lane) : ElemsPut v v [] w := ⟨by simp, .refl v⟩
theorem ElemsPut.append {u v v' : Vec} {es es' : List Nat} {w : Nat → Nat → Option Lane} (h : ElemsPut u v es w)
    (h' : ElemsPut v v' es' w) : ElemsPut u v' (es ++ es') w := by
  refine ⟨fun m j hm hj => ?_, h.rest.trans h'.rest⟩
  rw [h'.lane m j hm hj, h.lane m j hm hj]
  cases w j m with
  | none => simp
  | some x => by_cases hes : j ∈ es <;> by_cases hes' : j ∈ es' <;> simp [hes, hes']
theorem elemsPut_setLane (v : Vec) (d j : Nat) (y : Nat → Lane) : ElemsPut v (setLane v d j (y j)) [j] (toReg d y) := by
  refine ⟨fun m i hm hi => ?_, vecRest_setLane v d j _⟩
  rw [vlane_setLane _ _ _ _ hm hi]
  by_cases hij : i = j <;> by_cases hmd : m = d <;> simp [toReg, hij, hmd]
/-- Counting the events of an element changes no lane. -/
theorem elemsPut_vcounts {v v' : Vec} {es : List Nat} {w : Nat → Nat → Option Lane} (sat wn : Bool)
    (h : ElemsPut (vcounts v sat wn) v' es w) : ElemsPut v v' es w :=
  ⟨h.lane, (vecRest_vcounts v sat wn).trans h.rest⟩
theorem elemsPut_foldl {g : Vec → Nat → Vec} {w : Nat → Nat → Option Lane} (es : List Nat)
    (hg : ∀ v, ∀ j ∈ es, ElemsPut v (g v j) [j] w) (v : Vec) : ElemsPut v (es.foldl g v) es w := by
  induction es generalizing v with
  | nil => exact .refl v w
  | cons e es ih => exact (hg v e (by simp)).append (ih (fun v j hj => hg v j (by simp [hj])) (g v e))
/-- The lanes of elements that write one register. -/
theorem ElemsPut.vlane_toReg {v v' : Vec} {es : List Nat} {d : Nat} {y : Nat → Lane} (h : ElemsPut v v' es (toReg d y)) (m j : Nat)
    (hm : m < 16) (hj : j < 32) : vlane v' m j = if m = d ∧ j ∈ es then y j else vlane v m j := by
  rw [h.lane m j hm hj]
  by_cases hmd : m = d <;> by_cases hje : j ∈ es <;> simp [toReg, hmd, hje]

/-! ## Active elements and folds over them -/

theorem mem_vactives (v : Vec) (pg j : Nat) : j ∈ vactives v pg ↔ j < vlOf v ∧ vidxOf v ≤ j ∧ vactive v pg j = true := by
  simp [vactives]
theorem vactives_pairwise (v : Vec) (pg : Nat) : (vactives v pg).Pairwise (· < ·) := List.Pairwise.filter _ List.pairwise_lt_range
theorem vactives_nil_of_gate {v : Vec} (h : vidxOf v ≥ vlOf v) (pg : Nat) : vactives v pg = [] := by
  rw [List.eq_nil_iff_forall_not_mem]
  intro j hj
  obtain ⟨hl, hi, -⟩ := (mem_vactives v pg j).mp hj
  omega
/-- A rising list, cut at one of its members: the members below it, it, and the rest. -/
theorem split_rising {l : List Nat} (hl : l.Pairwise (· < ·)) {e : Nat} (he : e ∈ l) :
    ∃ post, l = l.filter (fun j => decide (j < e)) ++ e :: post := by
  obtain ⟨as, bs, rfl⟩ := List.append_of_mem he
  obtain ⟨-, hbs, hab⟩ := List.pairwise_append.mp hl
  have has : as.filter (fun j => decide (j < e)) = as :=
    List.filter_eq_self.mpr (fun a ha => decide_eq_true (hab a ha e (by simp)))
  have hbs : (e :: bs).filter (fun j => decide (j < e)) = [] := by
    refine List.filter_eq_nil_iff.mpr (fun b hb => ?_)
    rcases List.mem_cons.mp hb with rfl | hb
    · simp
    · simpa using Nat.le_of_lt (List.rel_of_pairwise_cons hbs hb)
  exact ⟨bs, by rw [List.filter_append, has, hbs, List.append_nil]⟩

theorem vecFold_ok {α : Type} {f : Nat → α → Except VFault α} {g : α → Nat → α} (es : List Nat)
    (h : ∀ x, ∀ j ∈ es, f j x = .ok (g x j)) (x : α) : vecFold f es x = (none, es.foldl g x) := by
  induction es generalizing x with
  | nil => rfl
  | cons e es ih =>
    rw [vecFold, h x e (by simp)]
    exact ih (fun x j hj => h x j (by simp [hj])) (g x e)
theorem vecFold_error {α : Type} {f : Nat → α → Except VFault α} {g : α → Nat → α} (pre : List Nat) {e : Nat} (post : List Nat)
    {t : VFault} (h : ∀ x, ∀ j ∈ pre, f j x = .ok (g x j)) (he : ∀ x, f e x = .error t) (x : α) :
    vecFold f (pre ++ e :: post) x = (some t, pre.foldl g x) := by
  induction pre generalizing x with
  | nil => simp [vecFold, he]
  | cons a pre ih =>
    rw [List.cons_append, vecFold, h x a (by simp)]
    exact ih (fun x j hj => h x j (by simp [hj])) (g x a)

/-- The bits of the members of a rising list that satisfy `p`, added up. -/
theorem testBit_foldl_bits (p : Nat → Bool) (i : Nat) (l : List Nat) (t : Nat) (hl : l.Pairwise (· < ·)) (ht : ∀ j ∈ l, t < 2 ^ j) :
    (l.foldl (fun t j => t + (if p j = true then 2 ^ j else 0)) t).testBit i = (t.testBit i || (decide (i ∈ l) && p i)) := by
  induction l generalizing t with
  | nil => simp
  | cons j l ih =>
    obtain ⟨hj, hl⟩ := List.pairwise_cons.mp hl
    have htj : t < 2 ^ j := ht j (by simp)
    have hbound : t + (if p j = true then 2 ^ j else 0) < 2 ^ (j + 1) := by rw [Nat.pow_succ]; split <;> omega
    rw [List.foldl_cons, ih _ hl (fun k hk => Nat.lt_of_lt_of_le hbound (Nat.pow_le_pow_right (by omega) (hj k hk)))]
    have hbit : (t + (if p j = true then 2 ^ j else 0)).testBit i = (t.testBit i || (decide (i = j) && p i)) := by
      by_cases hp : p j = true
      · rw [if_pos hp, Nat.add_comm]
        rcases Nat.lt_trichotomy i j with hij | rfl | hij
        · rw [Nat.testBit_two_pow_add_gt hij]; simp [Nat.ne_of_lt hij]
        · rw [Nat.testBit_two_pow_add_eq, Nat.testBit_lt_two_pow htj]; simp [hp]
        · have hi : 2 ^ (j + 1) ≤ 2 ^ i := Nat.pow_le_pow_right (by omega) hij
          rw [Nat.testBit_lt_two_pow (by rw [Nat.pow_succ] at hi; omega), Nat.testBit_lt_two_pow (by omega)]
          simp [Nat.ne_of_gt hij]
      · rw [if_neg hp, Nat.add_zero]
        by_cases hij : i = j
        · subst hij; simp [hp]
        · simp [hij]
    have hmem : decide (i ∈ j :: l) = (decide (i = j) || decide (i ∈ l)) := by simp
    rw [hbit, hmem, Bool.or_assoc, ← Bool.and_or_distrib_right]

/-! ## Issue and completion of a short form -/

/-- The core after a vector instruction that left the vector state `v` completes (R241). -/
def vecCore (c : Core) (v : Vec) : Core :=
  { pcAdd c 2 with vec := { vecEnd v with pipes := c.vec.pipes }, evpend := c.evpend ||| 2 }
theorem vidxOf_vecCore (c : Core) (v : Vec) : vidxOf (vecCore c v).vec = 0 := vcr_setVcr_self _ (by decide) (by decide)
theorem vlane_vecCore (c : Core) (v : Vec) (m j : Nat) : vlane (vecCore c v).vec m j = vlane v m j := rfl
theorem vpred_vecCore (c : Core) (v : Vec) (m : Nat) : vpred (vecCore c v).vec m = vpred v m := rfl
theorem vcr_vecCore (c : Core) (v : Vec) {k : Nat} (h : k ≠ 1) : vcr (vecCore c v).vec k = vcr v k :=
  vcr_setVcr_ne _ _ _ h

section
variable {s t : State} {n : Nat} {c : Core} {row : SRow} {w1 w2 : Nat} {stop : Option Nat}
  {body : State → Nat → Core → Nat → Nat → IRes}

/-- A short form that issues acts as its body says. -/
theorem issueV_short (h : Issues s n c row w1 w2) (hl : isLong row w2 = false) :
    issueV n row s stop body = applyRes s n c.pc.toNat (body s n c w1 w2) := by
  obtain ⟨hc, hrun, hlinks, hf⟩ := h
  simp [issueV, getCore_of hc, hrun, hf, hl, hlinks]
theorem applyRes_done (hc : tget s.cores n = some c) (hrun : c.run = .run) (epc : Nat) (f : Core → Core) :
    applyRes s n epc (.done s f) = setCore s n (f c) := by
  simp [applyRes, coreUpd_of hc, hrun]
theorem applyRes_vecDone (hc : tget s.cores n = some c) (hrun : c.run = .run) (epc : Nat) (v : Vec) :
    applyRes s n epc (vecDone s v id) = setCore s n (vecCore c v) := applyRes_done hc hrun epc _
/-- A short form that completes with the vector state `v`. -/
theorem issueV_vecDone (h : Issues s n c row w1 w2) (hl : isLong row w2 = false) {v : Vec}
    (hb : body s n c w1 w2 = vecDone s v id) : issueV n row s stop body = setCore s n (vecCore c v) := by
  rw [issueV_short h hl, hb, applyRes_vecDone h.1 h.2.1]
/-- The gate of VIDX changes nothing for a body that works on the active elements only. -/
theorem vecGate_vecDone_foldl (g : Vec → Nat → Vec) (v : Vec) (pg : Nat) :
    vecGate s v (vecDone s ((vactives v pg).foldl g v) id) = vecDone s ((vactives v pg).foldl g v) id := by
  unfold vecGate
  split
  case isTrue hg => rw [vactives_nil_of_gate hg]; rfl
  case isFalse => rfl
theorem vecGate_open {v : Vec} (h : vidxOf v < vlOf v) (k : IRes) : vecGate s v k = k := if_neg (by omega)
theorem vecGate_closed {v : Vec} (h : vlOf v ≤ vidxOf v) (k : IRes) : vecGate s v k = vecDone s v id := if_pos h
end

theorem isLong_of_vaL {w2 : Nat} (row : SRow) (h : vaL w2 = false) : isLong row w2 = false := by simp [isLong, h]
theorem fld_lt (w hi lo : Nat) : fld w hi lo < 2 ^ (hi + 1 - lo) := Nat.mod_lt _ (Nat.two_pow_pos _)
theorem vaD_lt (w1 : Nat) : vaD w1 < 16 := fld_lt w1 9 6

end Sys2Proof.Machine

/-! The short lane operations (R228, R231, R240, R241): the elements that do not trap write their lanes, and the first that traps faults. -/

namespace Sys2Proof.Machine
open Sys2Proof Sys2Proof.Safety

/-- The marks that each element of a set has, as functions of the element. -/
theorem exists_marks {p : Nat → Prop} {r : Nat → Bool → Bool → Prop} (h : ∀ j, p j → ∃ a b, r j a b) :
    ∃ f g : Nat → Bool, ∀ j, p j → r j (f j) (g j) := by
  have hpair (j : Nat) : ∃ m : Bool × Bool, p j → r j m.1 m.2 := by
    by_cases hj : p j
    · obtain ⟨a, b, hab⟩ := h j hj
      exact ⟨(a, b), fun _ => hab⟩
    · exact ⟨(false, false), fun hp => absurd hp hj⟩
  obtain ⟨m, hm⟩ := Classical.axiomOfChoice hpair
  exact ⟨fun j => (m j).1, fun j => (m j).2, hm⟩

/-- What element `j` of a lane operation that gives `y j` and counts `sat j` and `wn j` leaves. -/
def putCounted (d : Nat) (y : Nat → Lane) (sat wn : Nat → Bool) (v : Vec) (j : Nat) : Vec :=
  setLane (vcounts v (sat j) (wn j)) d j (y j)
theorem elemsPut_putCounted (d : Nat) (y : Nat → Lane) (sat wn : Nat → Bool) (es : List Nat) (v : Vec) :
    ElemsPut v (es.foldl (putCounted d y sat wn) v) es (toReg d y) :=
  elemsPut_foldl es (fun v j _ => elemsPut_vcounts _ _ (elemsPut_setLane (vcounts v (sat j) (wn j)) d j y)) v

section
variable {c : Core} {row : SRow} {w1 w2 : Nat}

theorem shortElem_val {y : Nat → Lane} {sat wn : Nat → Bool} {j : Nat}
    (h : laneOp row w2 c.vec (vlane c.vec (vaA w1) j) (shortB c w2 j) (vlane c.vec (vaD w1) j) = .val (y j) (sat j) (wn j)) (v : Vec) :
    shortElem c row w1 w2 j v = .ok (putCounted (vaD w1) y sat wn v j) := by
  simp only [shortElem, h]
  rfl
theorem shortElem_trap {j st : Nat}
    (h : laneOp row w2 c.vec (vlane c.vec (vaA w1) j) (shortB c w2 j) (vlane c.vec (vaD w1) j) = .trap st) (v : Vec) :
    shortElem c row w1 w2 j v = .error ⟨j, 0, unitOf row w2, ecodeOf st, 0⟩ := by
  simp only [shortElem, h]
/-- A short lane operation none of whose active elements traps completes with their lanes. -/
theorem shortBody_val {y : Nat → Lane} {sat wn : Nat → Bool}
    (h : ∀ j ∈ vactives c.vec (vaPg w2),
      laneOp row w2 c.vec (vlane c.vec (vaA w1) j) (shortB c w2 j) (vlane c.vec (vaD w1) j) = .val (y j) (sat j) (wn j)) (s : State) :
    shortBody row s c w1 w2 = vecDone s ((vactives c.vec (vaPg w2)).foldl (putCounted (vaD w1) y sat wn) c.vec) id := by
  rw [shortBody, shortLane, vecFold_ok _ (fun v j hj => shortElem_val (h j hj) v)]
  exact vecGate_vecDone_foldl _ _ _
/-- A short lane operation whose element `e` is the first to trap. -/
theorem shortBody_trap {y : Nat → Lane} {sat wn : Nat → Bool} {e st : Nat} (he : e ∈ vactives c.vec (vaPg w2))
    (htrap : laneOp row w2 c.vec (vlane c.vec (vaA w1) e) (shortB c w2 e) (vlane c.vec (vaD w1) e) = .trap st)
    (h : ∀ j ∈ vactives c.vec (vaPg w2), j < e →
      laneOp row w2 c.vec (vlane c.vec (vaA w1) j) (shortB c w2 j) (vlane c.vec (vaD w1) j) = .val (y j) (sat j) (wn j)) (s : State) :
    shortBody row s c w1 w2 = vecFault s
      (((vactives c.vec (vaPg w2)).filter (fun j => decide (j < e))).foldl (putCounted (vaD w1) y sat wn) c.vec)
      ⟨e, 0, unitOf row w2, ecodeOf st, 0⟩ := by
  obtain ⟨hel, hei, -⟩ := (mem_vactives _ _ _).mp he
  obtain ⟨post, hsplit⟩ := split_rising (vactives_pairwise c.vec (vaPg w2)) he
  have hval : ∀ v, ∀ j ∈ (vactives c.vec (vaPg w2)).filter (fun j => decide (j < e)),
      shortElem c row w1 w2 j v = .ok (putCounted (vaD w1) y sat wn v j) := fun v j hj => by
    obtain ⟨hj, hlt⟩ := List.mem_filter.mp hj
    exact shortElem_val (h j hj (of_decide_eq_true hlt)) v
  have hfold := vecFold_error _ post hval (shortElem_trap htrap) c.vec
  rw [← hsplit] at hfold
  rw [shortBody, vecGate_open (by omega), shortLane, hfold]
  rfl
end

section
variable {s : State} {n stop : Nat} {c : Core} {row : SRow} {cmd : Instr} {w1 w2 : Nat}

/-- VDIV at which no interrupt is taken is a plain lane operation. -/
theorem vdivBody_noStop (h : c.ie = false ∨ irqCode c = none ∨ stop = 0) :
    vdivBody stop s c w1 w2 = shortBody .vdiv s c w1 w2 := by
  refine if_neg (fun ⟨hie, hirq, hstop, _⟩ => ?_)
  rcases h with h | h | h <;> simp_all
/-- The commands of the short lane operations issue `shortBody`. -/
theorem shortOp_issue (h : (row, cmd) ∈ [(SRow.varith, Instr.varith n), (.vlogic, .vlogic n), (.vscale, .vscale n), (.vdot4, .vdot4 n),
      (.vdiv, .vdiv n 0), (.vdiv, .vdiv n stop), (.vhash, .vhash n), (.vconv, .vconv n)])
    (hfn : row = .vconv → vaFn w2 ≠ 5) (hirq : c.ie = false ∨ irqCode c = none ∨ cmd ≠ .vdiv n stop ∨ stop = 0) :
    ∃ st body, exec cmd s = .next (issueV n row s st body) ∧ body s n c w1 w2 = shortBody row s c w1 w2 := by
  simp only [List.mem_cons, Prod.mk.injEq, List.not_mem_nil, or_false] at h
  rcases h with ⟨rfl, rfl⟩ | ⟨rfl, rfl⟩ | ⟨rfl, rfl⟩ | ⟨rfl, rfl⟩ | ⟨rfl, rfl⟩ | ⟨rfl, rfl⟩ | ⟨rfl, rfl⟩ | ⟨rfl, rfl⟩
  case inr.inr.inr.inr.inl => exact ⟨_, _, rfl, vdivBody_noStop (.inr (.inr rfl))⟩
  case inr.inr.inr.inr.inr.inl =>
    refine ⟨_, _, rfl, vdivBody_noStop ?_⟩
    rcases hirq with h | h | h | h
    · exact .inl h
    · exact .inr (.inl h)
    · exact absurd rfl h
    · exact .inr (.inr h)
  case inr.inr.inr.inr.inr.inr.inr => exact ⟨_, _, rfl, if_neg (hfn rfl)⟩
  all_goals exact ⟨_, _, rfl, rfl⟩
/-- A short form whose VIDX is at or above VL (R228, R241). -/
theorem gated_issue (h : (row, cmd) ∈ [(SRow.varith, Instr.varith n), (.vlogic, .vlogic n), (.vcmp, .vcmp n), (.vscale, .vscale n),
      (.vmulw, .vmulw n), (.vdot4, .vdot4 n), (.vdot2w, .vdot2w n), (.vdiv, .vdiv n stop), (.vld, .vld n), (.vst, .vst n),
      (.vldff, .vldff n), (.vgather, .vgather n), (.vgatherff, .vgatherff n), (.vscatter, .vscatter n), (.vcompact, .vcompact n),
      (.vhash, .vhash n), (.vsel, .vsel n), (.vpred, .vpred n), (.vxfer, .vxfer n), (.vconv, .vconv n)])
    (hgate : vlOf c.vec ≤ vidxOf c.vec) :
    ∃ st body, exec cmd s = .next (issueV n row s st body) ∧ body s n c w1 w2 = vecDone s c.vec id := by
  have hdiv : vdivBody stop s c w1 w2 = vecDone s c.vec id := by
    rw [vdivBody, vactives_nil_of_gate hgate, if_neg (by simp)]
    exact vecGate_closed hgate _
  simp only [List.mem_cons, Prod.mk.injEq, List.not_mem_nil, or_false] at h
  rcases h with ⟨rfl, rfl⟩ | ⟨rfl, rfl⟩ | ⟨rfl, rfl⟩ | ⟨rfl, rfl⟩ | ⟨rfl, rfl⟩ | ⟨rfl, rfl⟩ | ⟨rfl, rfl⟩ | ⟨rfl, rfl⟩ | ⟨rfl, rfl⟩
    | ⟨rfl, rfl⟩ | ⟨rfl, rfl⟩ | ⟨rfl, rfl⟩ | ⟨rfl, rfl⟩ | ⟨rfl, rfl⟩ | ⟨rfl, rfl⟩ | ⟨rfl, rfl⟩ | ⟨rfl, rfl⟩ | ⟨rfl, rfl⟩ | ⟨rfl, rfl⟩
    | ⟨rfl, rfl⟩
  case inr.inr.inr.inr.inr.inr.inr.inl => exact ⟨_, _, rfl, hdiv⟩
  case inr.inr.inr.inr.inr.inr.inr.inr.inr.inr.inr.inr.inr.inr.inr.inr.inr.inr.inr =>
    refine ⟨_, _, rfl, ?_⟩
    show (if vaFn w2 = 5 then ptobBody s c w1 w2 else shortBody .vconv s c w1 w2) = _
    rw [ptobBody, shortBody, vecGate_closed hgate, vecGate_closed hgate, ite_self]
  all_goals exact ⟨_, _, rfl, vecGate_closed hgate _⟩

/-- The fields of the core that a lane operation completed with. -/
theorem vecCore_elems {v' : Vec} {es : List Nat} {d : Nat} {y : Nat → Lane} (h : ElemsPut c.vec v' es (toReg d y)) :
    let x := vecCore c v'
    x.pc = BitVec.ofNat 24 (c.pc.toNat + 2) ∧ vidxOf x.vec = 0
      ∧ (∀ m j, m < 16 → j < 32 → vlane x.vec m j = if m = d ∧ j ∈ es then y j else vlane c.vec m j)
      ∧ x.vec.p = c.vec.p ∧ x.d = c.d ∧ x.a = c.a ∧ x.ac = c.ac ∧ x.mem = c.mem
      ∧ ∀ k, k ∉ [1, 4, 6, 7, 8, 9] → vcr x.vec k = vcr c.vec k :=
  ⟨rfl, vidxOf_vecCore c v', h.vlane_toReg, h.rest.p, rfl, rfl, rfl, rfl, fun k hk => by
    rw [List.mem_cons, not_or] at hk
    rw [vcr_vecCore c v' hk.1, h.rest.cr k hk.2]⟩
/-- A core whose VIDX is at or above VL only moves on. -/
theorem vecCore_gated (hl : c.vec.links = []) :
    vecCore c c.vec = { pcAdd c 2 with vec := setVcr c.vec 1 0, evpend := c.evpend ||| 2 } := by
  simp only [vecCore, vecEnd, setVcr, ← hl]
end

/-- Settles O9: the fold over the active elements writes each lane once, and the gate leaves only VIDX, EVPEND and the PC. -/
theorem shortLaneOperationsWriteActiveLanes : Obligations.ShortLaneOperationsWriteActiveLanes := by
  unfold Obligations.ShortLaneOperationsWriteActiveLanes
  refine ⟨?_, ?_⟩
  · intro s n stop c w1 w2 row cmd hcmd hi hl hfn hirq y hy
    obtain ⟨sat, wn, hval⟩ := exists_marks hy
    obtain ⟨st, body, hexec, hbody⟩ := shortOp_issue (s := s) (w1 := w1) hcmd hfn hirq
    rw [shortBody_val hval] at hbody
    refine ⟨_, hexec.trans (congrArg _ (issueV_vecDone hi (isLong_of_vaL row hl) hbody)), ?_⟩
    exact vecCore_elems (elemsPut_putCounted _ y sat wn _ _)
  · intro s n stop c w1 w2 row cmd hcmd hi hl hgate
    obtain ⟨st, body, hexec, hbody⟩ := gated_issue (s := s) (w1 := w1) (w2 := w2) hcmd hgate
    rw [hexec, issueV_vecDone hi hl hbody, vecCore_gated hi.2.2.1]

/-! ## Element faults and the vector memory instructions (R233, R234, R240) -/

/-- The core at the entry to an exception (R219). -/
def excCore (c : Core) (epc code svc : Nat) (ea : Nat) : Core :=
  dropLinks { c with
    run := .run, esr := srOf c, epc := BitVec.ofNat 24 epc, ecause := BitVec.ofNat 16 (svc * 256 + code), eaddr := BitVec.ofNat 24 ea
    k := true, ie := false, exl := true, pc := BitVec.ofNat 24 (c.ebase.toNat + 8 * code) }
theorem syncExc_some {s : State} {n : Nat} {c : Core} (hc : tget s.cores n = some c) (hexl : c.exl = false) (epc code ea svc : Nat) :
    syncExc s n epc code (some ea) svc = setCore s n (excCore c epc code svc ea) := by
  rw [syncExc, getCore_of hc, hexl, if_neg (by simp), excEntry, coreUpd_of hc]
  rfl
/-- The core at the VECTOR exception of an element fault (R240). -/
def faultCore (c : Core) (v : Vec) (t : VFault) : Core :=
  { c with vec := { setVcr (setVcr { v with links := [] } 1 t.elem) 3 (t.link * 4096 + t.unit_ * 256 + t.ecode) with pipes := c.vec.pipes } }
theorem applyRes_vecFault {s : State} {n : Nat} {c : Core} (hc : tget s.cores n = some c) (hrun : c.run = .run) (hexl : c.exl = false)
    (epc : Nat) (v : Vec) (t : VFault) :
    applyRes s n epc (vecFault s v t) = setCore s n (excCore (faultCore c v t) epc Exc.vector 0 t.eaddr) := by
  have hcore : coreUpd s n (fun c => faultCore (if c.run = .load then { c with run := .run } else c) v t)
      = setCore s n (faultCore c v t) := by simp [coreUpd_of hc, hrun]
  have hf : applyRes s n epc (vecFault s v t) = syncExc (setCore s n (faultCore c v t)) n epc Exc.vector (some t.eaddr) 0 := by
    rw [← hcore]; rfl
  rw [hf, syncExc_some (tget_setCore_self _ _ _) (show (faultCore c v t).exl = false from hexl), setCore_setCore]

theorem unitOf_le (row : SRow) (w2 : Nat) : unitOf row w2 ≤ 6 := by
  unfold unitOf
  split
  · split <;> omega
  all_goals omega
theorem ecodeOf_lt (st : Nat) : ecodeOf st < 256 := by
  unfold ecodeOf
  split
  · omega
  · split <;> omega
theorem vidxOf_faultCore (c : Core) (v : Vec) {t : VFault} (h : t.elem < 65536) : vidxOf (faultCore c v t).vec = t.elem :=
  (vcr_setVcr_ne (setVcr { v with links := [] } 1 t.elem) 3 _ (by decide)).trans (vcr_setVcr_self _ (by decide) h)
theorem vcause_faultCore (c : Core) (v : Vec) {t : VFault} (hl : t.link = 0) (hu : t.unit_ ≤ 6) (he : t.ecode < 256) :
    vcr (faultCore c v t).vec 3 = t.unit_ * 256 + t.ecode := by
  refine (vcr_setVcr_self (setVcr { v with links := [] } 1 t.elem) (by decide) ?_).trans ?_ <;> omega
theorem vlane_faultCore (c : Core) (v : Vec) (t : VFault) (m j : Nat) : vlane (faultCore c v t).vec m j = vlane v m j := rfl
@[simp] theorem excCore_epc (c : Core) (epc code svc ea : Nat) : (excCore c epc code svc ea).epc = BitVec.ofNat 24 epc := rfl
theorem vlane_excCore (c : Core) (epc code svc ea m j : Nat) : vlane (excCore c epc code svc ea).vec m j = vlane c.vec m j := rfl
theorem vcr_excCore (c : Core) (epc code svc ea k : Nat) : vcr (excCore c epc code svc ea).vec k = vcr c.vec k := rfl

/-- Settles O13: the elements below the first that traps are folded in, and VECTOR is entered with the instruction's PC. -/
theorem elementFaultsArePrecise : Obligations.ElementFaultsArePrecise := by
  unfold Obligations.ElementFaultsArePrecise
  intro s n c w1 w2 row cmd e st y hcmd hi hl hexl he32 he htrap hy
  obtain ⟨sat, wn, hval⟩ := exists_marks (fun j (hj : j ∈ vactives c.vec (vaPg w2) ∧ j < e) => hy j hj.1 hj.2)
  have hmem : (row, cmd) ∈ [(SRow.varith, Instr.varith n), (.vlogic, .vlogic n), (.vscale, .vscale n), (.vdot4, .vdot4 n),
      (.vdiv, .vdiv n 0), (.vdiv, .vdiv n 0), (.vhash, .vhash n), (.vconv, .vconv n)] := by
    simp only [List.mem_cons] at hcmd ⊢
    grind
  have hconv : row ≠ .vconv := by
    rintro rfl
    simp at hcmd
  obtain ⟨stop, body, hexec, hbody⟩ := shortOp_issue (s := s) (w1 := w1) (w2 := w2) (c := c) hmem (fun h => absurd h hconv)
    (.inr (.inr (.inr rfl)))
  rw [shortBody_trap he htrap (fun j hj hlt => hval j ⟨hj, hlt⟩)] at hbody
  have hput := elemsPut_putCounted (vaD w1) y sat wn ((vactives c.vec (vaPg w2)).filter (fun j => decide (j < e))) c.vec
  have hissue := (issueV_short (stop := stop) hi (isLong_of_vaL row hl)).trans
    ((congrArg _ hbody).trans (applyRes_vecFault hi.1 hi.2.1 hexl _ _ _))
  refine ⟨_, hexec.trans (congrArg _ hissue), ?_⟩
  simp only [getCore_setCore_self]
  refine ⟨by simp, rfl, rfl, ?_, ?_, fun m j hm hj => ?_, rfl, rfl, rfl, rfl⟩
  · rw [vidxOf, vcr_excCore]
    exact vidxOf_faultCore c _ (Nat.lt_trans he32 (by decide))
  · rw [vcr_excCore]
    exact vcause_faultCore c _ rfl (unitOf_le row w2) (ecodeOf_lt st)
  · rw [vlane_excCore, vlane_faultCore, hput.vlane_toReg m j hm hj]
    simp only [List.mem_filter, decide_eq_true_eq]

end Sys2Proof.Machine

/-! The vector memory instructions (R233, R234). -/

namespace Sys2Proof.Machine
open Sys2Proof Sys2Proof.Safety

/-- What a load gives an element: its lane in memory, or NULL where its index is NULL. -/
def loadedLane (m : Mem) : Option Int → Lane
  | some b => BitVec.ofNat 72 (mnat m b.toNat 9)
  | none => nullLane
/-- The memory after element `j` of a store. -/
def storeLane (c : Core) (w1 w2 : Nat) (at_ : Nat → Option Int) (m : Mem) (j : Nat) : Mem :=
  match at_ j with
  | some b => mput m b.toNat (formWidth (fld w2 8 8)) (vlane c.vec (vmV w1) j).toNat
  | none => m

section
variable {s : State} {n : Nat} {c : Core} {indexed : Bool} {w1 w2 : Nat} {at_ : Nat → Option Int}

theorem vmLoad_ok (hc : tget s.cores n = some c) {j : Nat} (h : vmElem n c indexed w1 w2 j = .ok (at_ j)) (v : Vec) :
    vmLoad s n c indexed w1 w2 j v = .ok (setLane v (vmV w1) j (loadedLane c.mem (at_ j))) := by
  rw [vmLoad, h]
  cases at_ j with
  | some b => rw [loadedLane, ← getCore_of hc]; rfl
  | none => rfl
theorem vmLoad_error {j : Nat} {f : VFault} (h : vmElem n c indexed w1 w2 j = .error f) (v : Vec) :
    vmLoad s n c indexed w1 w2 j v = .error f := by rw [vmLoad, h]
/-- An element's fault names the element. -/
theorem vmElem_elem {j : Nat} {f : VFault} (h : vmElem n c indexed w1 w2 j = .error f) : f.elem = j := by
  have hchk : ∀ b : Int, (if elemOk n c b (formWidth (fld w2 8 8)) then .ok (some b) else .error ⟨j, 0, 3, 4, elemWord b⟩ :
      Except VFault (Option Int)) = .error f → f.elem = j := by
    intro b hb
    split at hb
    · cases hb
    · cases hb; rfl
  unfold vmElem at h
  split at h
  · split at h
    · cases h
    · cases h; rfl
    · exact hchk _ h
  · exact hchk _ h

/-- The lanes that the elements `es` of a load write. -/
def loadLanes (c : Core) (w1 : Nat) (at_ : Nat → Option Int) (es : List Nat) : Vec :=
  es.foldl (fun v j => setLane v (vmV w1) j (loadedLane c.mem (at_ j))) c.vec
theorem elemsPut_loadLanes (c : Core) (w1 : Nat) (at_ : Nat → Option Int) (es : List Nat) :
    ElemsPut c.vec (loadLanes c w1 at_ es) es (toReg (vmV w1) (fun j => loadedLane c.mem (at_ j))) :=
  elemsPut_foldl es (fun v j _ => elemsPut_setLane v (vmV w1) j (fun j => loadedLane c.mem (at_ j))) c.vec
theorem vecFold_vmLoad (hc : tget s.cores n = some c) {es : List Nat} (h : ∀ j ∈ es, vmElem n c indexed w1 w2 j = .ok (at_ j)) :
    vecFold (vmLoad s n c indexed w1 w2) es c.vec = (none, loadLanes c w1 at_ es) :=
  vecFold_ok es (fun v j hj => vmLoad_ok hc (h j hj) v) c.vec

theorem vldBody_ok (hc : tget s.cores n = some c) (h : ∀ j ∈ vactives c.vec (vmPg w2), vmElem n c indexed w1 w2 j = .ok (at_ j)) :
    vldBody indexed s n c w1 w2 = vecDone s (loadLanes c w1 at_ (vactives c.vec (vmPg w2))) id := by
  rw [vldBody, vecFold_vmLoad hc h]
  exact vecGate_vecDone_foldl _ _ _
/-- The predicate that a first-fault load writes where it loaded the elements `es`. -/
def loadedBits (es : List Nat) : Nat := es.foldl (fun t j => t + 2 ^ j) 0
theorem testBit_loadedBits {es : List Nat} (h : es.Pairwise (· < ·)) (j : Nat) : (loadedBits es).testBit j = decide (j ∈ es) := by
  have hbits := testBit_foldl_bits (fun _ => true) j es 0 h (fun k _ => Nat.two_pow_pos k)
  simpa [loadedBits] using hbits
theorem vldffBody_ok (hc : tget s.cores n = some c) (hgate : vidxOf c.vec < vlOf c.vec)
    (h : ∀ j ∈ vactives c.vec (vmPg w2), vmElem n c indexed w1 w2 j = .ok (at_ j)) :
    vldffBody indexed s n c w1 w2 = vecDone s
      (setPred (loadLanes c w1 at_ (vactives c.vec (vmPg w2))) (fld w2 7 5) (loadedBits (vactives c.vec (vmPg w2)))) id := by
  rw [vldffBody, vecGate_open hgate, vecFold_vmLoad hc h]
  rfl
/-- A first-fault load whose element `e`, not its first, may not be accessed loads the elements below it. -/
theorem vldffBody_stops (hc : tget s.cores n = some c) (hgate : vidxOf c.vec < vlOf c.vec) {e : Nat} {f : VFault}
    (he : e ∈ vactives c.vec (vmPg w2)) (hhead : (vactives c.vec (vmPg w2)).head? ≠ some e)
    (hf : vmElem n c indexed w1 w2 e = .error f)
    (h : ∀ j ∈ vactives c.vec (vmPg w2), j < e → vmElem n c indexed w1 w2 j = .ok (at_ j)) :
    let es := (vactives c.vec (vmPg w2)).filter (fun j => decide (j < e))
    vldffBody indexed s n c w1 w2 = vecDone s (setPred (loadLanes c w1 at_ es) (fld w2 7 5) (loadedBits es)) id := by
  obtain ⟨post, hsplit⟩ := split_rising (vactives_pairwise c.vec (vmPg w2)) he
  have hok : ∀ v, ∀ j ∈ (vactives c.vec (vmPg w2)).filter (fun j => decide (j < e)),
      vmLoad s n c indexed w1 w2 j v = .ok (setLane v (vmV w1) j (loadedLane c.mem (at_ j))) := fun v j hj => by
    obtain ⟨hj, hlt⟩ := List.mem_filter.mp hj
    exact vmLoad_ok hc (h j hj (of_decide_eq_true hlt)) v
  have hfold := vecFold_error _ post hok (vmLoad_error (s := s) hf) c.vec
  rw [← hsplit] at hfold
  intro es
  rw [vldffBody, vecGate_open hgate, hfold]
  simp only [vmElem_elem hf, if_neg hhead]
  rfl

/-! ## Stores -/

/-- Whatever updates core `n` next acts on `c'` and leaves `s` with that core replaced. -/
def CoreIs (s : State) (n : Nat) (t : State) (c' : Core) : Prop := ∀ f, coreUpd t n f = setCore s n (f c')
theorem coreIs_self (hc : tget s.cores n = some c) : CoreIs s n s c := coreUpd_of hc
theorem CoreIs.coreUpd {t : State} {c' : Core} (h : CoreIs s n t c') (f : Core → Core) : CoreIs s n (coreUpd t n f) (f c') := fun g => by
  rw [h f, coreUpd_setCore]
theorem CoreIs.applyRes_vecDone {t : State} {c' : Core} (h : CoreIs s n t c') (hrun : c'.run = .run) (epc : Nat) (v : Vec) :
    applyRes s n epc (vecDone t v id) = setCore s n (vecCore c' v) := by
  refine (h _).trans ?_
  simp only [hrun]
  rfl
/-- The state after element `j` of a store. -/
def storeElem (n : Nat) (c : Core) (w1 w2 : Nat) (at_ : Nat → Option Int) (t : State) (j : Nat) : State :=
  match at_ j with
  | some b => elemWrite t n b (formWidth (fld w2 8 8)) (vlane c.vec (vmV w1) j)
  | none => t
theorem CoreIs.storeElem {t : State} {m : Mem} (h : CoreIs s n t { c with mem := m }) (j : Nat) :
    CoreIs s n (storeElem n c w1 w2 at_ t j) { c with mem := storeLane c w1 w2 at_ m j } := by
  unfold Machine.storeElem storeLane
  cases at_ j with
  | some b => exact h.coreUpd _
  | none => exact h
theorem CoreIs.foldl_storeElem (es : List Nat) {t : State} {m : Mem} (h : CoreIs s n t { c with mem := m }) :
    CoreIs s n (es.foldl (Machine.storeElem n c w1 w2 at_) t) { c with mem := es.foldl (storeLane c w1 w2 at_) m } := by
  induction es generalizing t m with
  | nil => exact h
  | cons e es ih => exact ih (h.storeElem e)
theorem vstBody_ok (h : ∀ j ∈ vactives c.vec (vmPg w2), vmElem n c indexed w1 w2 j = .ok (at_ j)) :
    vstBody indexed s n c w1 w2 = vecDone ((vactives c.vec (vmPg w2)).foldl (storeElem n c w1 w2 at_) s) c.vec id := by
  rw [vstBody, vecFold_ok (g := storeElem n c w1 w2 at_) _ (fun t j hj => by
    rw [h j hj, storeElem]
    cases at_ j <;> rfl)]
  unfold vecGate
  split
  case isTrue hg => rw [vactives_nil_of_gate hg]; rfl
  case isFalse => rfl
end

section
variable {s : State} {n : Nat} {c : Core} {row : SRow} {cmd : Instr} {indexed first : Bool} {w1 w2 : Nat} {at_ : Nat → Option Int}

/-- The vector memory rows have no long form. -/
theorem isLong_memory (h : row ∈ [SRow.vld, .vgather, .vldff, .vgatherff, .vst, .vscatter]) : isLong row w2 = false := by
  simp only [List.mem_cons, List.not_mem_nil, or_false] at h
  rcases h with rfl | rfl | rfl | rfl | rfl | rfl <;> rfl
/-- The vector state that a load completes with: its lanes, and under a first-fault form its predicate. -/
def loadVec (c : Core) (first : Bool) (w1 w2 : Nat) (at_ : Nat → Option Int) (es : List Nat) : Vec :=
  if first then setPred (loadLanes c w1 at_ es) (fld w2 7 5) (loadedBits es) else loadLanes c w1 at_ es
theorem vlane_loadVec (c : Core) (first : Bool) (w1 w2 : Nat) (at_ : Nat → Option Int) (es : List Nat) {m j : Nat} (hm : m < 16)
    (hj : j < 32) : vlane (loadVec c first w1 w2 at_ es) m j
      = if m = vmV w1 ∧ j ∈ es then loadedLane c.mem (at_ j) else vlane c.vec m j := by
  refine Eq.trans ?_ ((elemsPut_loadLanes c w1 at_ es).vlane_toReg m j hm hj)
  cases first <;> rfl
theorem vcr_loadVec (c : Core) (first : Bool) (w1 w2 : Nat) (at_ : Nat → Option Int) (es : List Nat) {k : Nat}
    (hk : k ∉ [4, 6, 7, 8, 9]) : vcr (loadVec c first w1 w2 at_ es) k = vcr c.vec k := by
  refine Eq.trans ?_ ((elemsPut_loadLanes c w1 at_ es).rest.cr k hk)
  cases first <;> rfl
theorem bitOf_loadVec (c : Core) (w1 w2 : Nat) (at_ : Nat → Option Int) {es : List Nat} (hes : es.Pairwise (· < ·)) {j : Nat} (hj : j < 32) :
    bitOf (vpred (loadVec c true w1 w2 at_ es) (fld w2 7 5)) j = decide (j ∈ es) := by
  rw [loadVec, if_pos rfl, bitOf_vpred_setPred_self _ _ (fld_lt w2 7 5) hj, testBit_loadedBits hes]
/-- A load all of whose active elements may be accessed. -/
theorem load_issue (h : (row, cmd, indexed, first) ∈ [(SRow.vld, Instr.vld n, false, false), (.vgather, .vgather n, true, false),
      (.vldff, .vldff n, false, true), (.vgatherff, .vgatherff n, true, true)])
    (hi : Issues s n c row w1 w2) (hgate : vidxOf c.vec < vlOf c.vec)
    (hat : ∀ j ∈ vactives c.vec (vmPg w2), vmElem n c indexed w1 w2 j = .ok (at_ j)) :
    exec cmd s = .next (setCore s n (vecCore c (loadVec c first w1 w2 at_ (vactives c.vec (vmPg w2))))) := by
  simp only [List.mem_cons, Prod.mk.injEq, List.not_mem_nil, or_false] at h
  rcases h with ⟨rfl, rfl, rfl, rfl⟩ | ⟨rfl, rfl, rfl, rfl⟩ | ⟨rfl, rfl, rfl, rfl⟩ | ⟨rfl, rfl, rfl, rfl⟩
  · exact congrArg _ (issueV_vecDone hi rfl (vldBody_ok hi.1 hat))
  · exact congrArg _ (issueV_vecDone hi rfl (vldBody_ok hi.1 hat))
  · exact congrArg _ (issueV_vecDone hi rfl (vldffBody_ok hi.1 hgate hat))
  · exact congrArg _ (issueV_vecDone hi rfl (vldffBody_ok hi.1 hgate hat))
end

/-- Settles O12: the elements are folded in order, and each writes its own lane, or its own bytes. -/
theorem vectorMemoryInstructionsComplete : Obligations.VectorMemoryInstructionsComplete := by
  unfold Obligations.VectorMemoryInstructionsComplete
  refine ⟨?_, ?_, ?_⟩
  · intro s n c w1 w2 row cmd indexed first hcmd hi hgate at_ hat
    refine ⟨_, load_issue hcmd hi hgate hat, rfl, vidxOf_vecCore _ _, rfl, fun m j hm hj => ?_, fun j hj hfirst => ?_⟩
    · rw [vlane_vecCore, vlane_loadVec _ _ _ _ _ _ hm hj]
      rfl
    · subst hfirst
      exact bitOf_loadVec c w1 w2 at_ (vactives_pairwise _ _) hj
  · intro s n c w1 w2 row cmd indexed e f hcmd hi hgate he act heact hhead hf at_ hat
    have hissue : exec cmd s = .next (setCore s n (vecCore c (loadVec c true w1 w2 at_ (act.filter (fun j => decide (j < e)))))) := by
      simp only [List.mem_cons, Prod.mk.injEq, List.not_mem_nil, or_false] at hcmd
      rcases hcmd with ⟨rfl, rfl, rfl⟩ | ⟨rfl, rfl, rfl⟩
      · exact congrArg _ (issueV_vecDone hi rfl (vldffBody_stops hi.1 hgate heact hhead hf hat))
      · exact congrArg _ (issueV_vecDone hi rfl (vldffBody_stops hi.1 hgate heact hhead hf hat))
    refine ⟨_, hissue, rfl, vidxOf_vecCore _ _, rfl, rfl, ?_, fun m j hm hj => ?_, fun j hj => ?_⟩
    · rw [vcr_vecCore _ _ (by decide), vcr_loadVec _ _ _ _ _ _ (by decide)]
    · rw [vlane_vecCore, vlane_loadVec _ _ _ _ _ _ hm hj]
      simp only [List.mem_filter, decide_eq_true_eq]
      rfl
    · rw [vpred_vecCore, bitOf_loadVec c w1 w2 at_ ((vactives_pairwise _ _).filter _) hj]
      simp only [List.mem_filter, decide_eq_true_eq]
      rfl
  · intro s n c w1 w2 row cmd indexed hcmd hi at_ hat
    have hissue : exec cmd s = .next (applyRes s n c.pc.toNat (vstBody indexed s n c w1 w2)) := by
      simp only [List.mem_cons, Prod.mk.injEq, List.not_mem_nil, or_false] at hcmd
      rcases hcmd with ⟨rfl, rfl, rfl⟩ | ⟨rfl, rfl, rfl⟩
      · exact congrArg _ (issueV_short hi rfl)
      · exact congrArg _ (issueV_short hi rfl)
    have hcore := (coreIs_self hi.1).foldl_storeElem (w1 := w1) (w2 := w2) (at_ := at_) (vactives c.vec (vmPg w2))
    rw [vstBody_ok hat, hcore.applyRes_vecDone hi.2.1] at hissue
    exact ⟨_, hissue, rfl, vidxOf_vecCore _ _, rfl, rfl, rfl, rfl, rfl, rfl⟩

end Sys2Proof.Machine

/-! What every step keeps: the commands that wait, the ordering code, and the canonical form of every memory. One lemma for each function of
the model that answers a state, in the order of the definitions: what it does to a state that keeps these of `s` keeps them too. -/

namespace Sys2Proof.Machine
open Sys2Proof Sys2Proof.Safety

/-! ## Register effects leave memory -/

@[simp] theorem setD_mem (c : Core) (k v : Nat) : (setD c k v).mem = c.mem := rfl
@[simp] theorem setA_mem (c : Core) (k v : Nat) : (setA c k v).mem = c.mem := rfl
@[simp] theorem setAC_mem (c : Core) (k : Nat) (v : Lane) : (setAC c k v).mem = c.mem := rfl
@[simp] theorem pcAdd_mem (c : Core) (n : Nat) : (pcAdd c n).mem = c.mem := rfl
@[simp] theorem pcTo_mem (c : Core) (v : Nat) : (pcTo c v).mem = c.mem := rfl
@[simp] theorem eaOf_mem (c : Core) (w1 w2 k : Nat) (x : Core) : ((eaOf c w1 w2 k).2 x).mem = x.mem := by
  unfold eaOf
  split <;> rfl
@[simp] theorem strNext_mem (w1 : Nat) (src : Bool) (x : Core) : (strNext w1 src x).mem = x.mem := by
  unfold strNext
  dsimp only
  split <;> split <;> rfl
@[simp] theorem timerFire_mem (s : State) (c : Core) : (timerFire s c).mem = c.mem := by
  unfold timerFire
  split
  · split <;> rfl
  · rfl
@[simp] theorem cregWrite_mem (s : State) (c : Core) (n v : Nat) : (cregWrite s c n v).mem = c.mem := by
  unfold cregWrite
  dsimp only
  iterate 4 (split; · simp)
  split <;> rfl
theorem foldl_mem {α β : Type} {f : β → α → β} {g : β → Core} (hf : ∀ b x, (g (f b x)).mem = (g b).mem) (l : List α) (b : β) :
    (g (l.foldl f b)).mem = (g b).mem := by
  induction l generalizing b with
  | nil => rfl
  | cons x l ih => rw [List.foldl_cons, ih, hf]
@[simp] theorem maskPop_mem (c : Core) (mask : Nat) (ws : List Nat) : (maskPop c mask ws).mem = c.mem := by
  have hd (r : Core × List Nat) (k : Nat) : (if bitOf mask k then (setD r.1 k (r.2.getD 0 0), r.2.drop 1) else r).1.mem = r.1.mem := by
    split <;> rfl
  have ha (r : Core × List Nat) (k : Nat) : (if bitOf mask (8 + k) then (setA r.1 k (aValue r.2), r.2.drop 2) else r).1.mem = r.1.mem := by
    split <;> rfl
  have hac (r : Core × List Nat) (k : Nat) : (setAC r.1 k (acValue (r.2.take 5)), r.2.drop 5).1.mem = r.1.mem := rfl
  unfold maskPop
  dsimp only
  split
  · rw [foldl_mem (g := Prod.fst) hac, foldl_mem (g := Prod.fst) ha, foldl_mem (g := Prod.fst) hd]
  · rw [foldl_mem (g := Prod.fst) ha, foldl_mem (g := Prod.fst) hd]

/-! ## The relation -/

/-- State `t` holds the queue of commands and the ordering code of `s`, and its memories are canonical where those of `s` are. -/
structure KeepsMem (s t : State) : Prop where
  pending : t.pending = s.pending
  code512 : t.code512 = s.code512
  memOk : MemOk s → MemOk t

/-- The same, with the mark of a thermal trip: only a thermal sample and a loss of power change that mark. -/
structure Keeps (s t : State) : Prop where
  pending : t.pending = s.pending
  code512 : t.code512 = s.code512
  therm : t.pwr.therm = s.pwr.therm
  memOk : MemOk s → MemOk t

namespace KeepsMem

theorem trans {s t u : State} (h : KeepsMem s t) (h' : Keeps t u) : KeepsMem s u :=
  ⟨h'.pending.trans h.pending, h'.code512.trans h.code512, fun m => h'.memOk (h.memOk m)⟩
protected theorem ite {s t u : State} {c : Prop} [Decidable c] (ht : KeepsMem s t) (hu : KeepsMem s u) :
    KeepsMem s (if c then t else u) := by
  split
  · exact ht
  · exact hu
theorem setTherm {s t : State} {b : Bool} (h : KeepsMem s t) : KeepsMem s { t with pwr := { t.pwr with therm := b } } :=
  ⟨h.pending, h.code512, h.memOk⟩

end KeepsMem

theorem Keeps.mem {s t : State} (h : Keeps s t) : KeepsMem s t := ⟨h.pending, h.code512, h.memOk⟩

/-- The same of every state that an optional, or a checked, result may hold. -/
def KeepsO (s : State) (o : Option State) : Prop := ∀ t, o = some t → Keeps s t
def KeepsE {ε : Type} (s : State) (r : Except ε State) : Prop := ∀ t, r = .ok t → Keeps s t

/-- The same of what an instruction does: the state it leaves, and the core's memory under its effect on the registers. -/
def KeepsR (s : State) : IRes → Prop
  | .done t f => Keeps s t ∧ ∀ c, (f c).mem = c.mem
  | .exc t f _ _ _ => Keeps s t ∧ ∀ c, (f c).mem = c.mem
  | .hold => True
  | .load => True

/-- Do two states agree in the parts that `Keeps` speaks of? -/
def SameKept (t u : State) : Prop :=
  (t.pending, t.code512, t.pwr.therm, t.dram, t.host, t.msix.table, t.cam.mem, t.cam.copy, t.pwr.retention, t.sec.mbox, t.cores,
      t.ing.layouts, t.led.drives, t.plans.plans)
    = (u.pending, u.code512, u.pwr.therm, u.dram, u.host, u.msix.table, u.cam.mem, u.cam.copy, u.pwr.retention, u.sec.mbox, u.cores,
      u.ing.layouts, u.led.drives, u.plans.plans)

theorem memOk_congr {t u : State} (h : SameKept u t) (ht : MemOk t) : MemOk u := by
  simp only [SameKept, Prod.mk.injEq] at h
  obtain ⟨-, -, -, hdram, hhost, htable, hcam, hcopy, hret, hmbox, hcores, hlay, hdrv, hplans⟩ := h
  unfold MemOk at ht ⊢
  rw [hdram, hhost, htable, hcam, hcopy, hret, hmbox, hcores, hlay, hdrv, hplans]
  exact ht

section
variable {s t u : State}

/-! ## The canonical memories -/

theorem memWf_nil : memWf [] = true := rfl
theorem memOk_dram (h : MemOk s) : memWf s.dram = true := h.1
theorem memOk_host (h : MemOk s) : memWf s.host = true := h.2.1
theorem memOk_core (h : MemOk s) {n : Nat} {c : Core} (hc : tget s.cores n = some c) : memWf c.mem = true := by
  obtain ⟨-, -, -, -, -, -, -, hcores, -⟩ := h
  obtain ⟨p, hp, rfl⟩ := mem_of_tget hc
  exact hcores p hp
theorem memOk_getCore (h : MemOk s) (n : Nat) : memWf (getCore s n).mem = true := by
  rw [getCore, tgetD]
  cases hc : tget s.cores n with
  | none => rfl
  | some c => exact memOk_core h hc

theorem memOk_getPlan (h : MemOk s) {fn id : Nat} {p : Plan} (hp : getPlan s fn id = some p) : memWf p.image = true := by
  obtain ⟨-, -, -, -, -, -, -, -, -, -, hplans⟩ := h
  unfold getPlan at hp
  split at hp
  · obtain ⟨q, hq, rfl⟩ := mem_of_tget hp
    exact hplans q hq
  · cases hp
theorem memOk_getLayout (h : MemOk s) (l : Nat) : memWf (getLayout s l).mem = true := by
  obtain ⟨-, -, -, -, -, -, -, -, hlay, -⟩ := h
  rw [getLayout, tgetD]
  cases hl : tget s.ing.layouts l with
  | none => rfl
  | some v =>
    obtain ⟨q, hq, rfl⟩ := mem_of_tget hl
    exact hlay q hq
/-- Are the memories of a table of drives canonical? -/
def DrivesOk (ds : Tab Drive) : Prop := ∀ p ∈ ds, memWf p.2.mem = true
theorem memOk_drives (h : MemOk s) : DrivesOk s.led.drives := h.2.2.2.2.2.2.2.2.2.1
theorem drivesOk_map {ds : Tab Drive} (h : DrivesOk ds) {f : Nat × Drive → Nat × Drive} (hf : ∀ p, memWf p.2.mem = true → memWf (f p).2.mem = true) :
    DrivesOk (ds.map f) := fun q hq => by
  obtain ⟨p, hp, rfl⟩ := List.mem_map.mp hq
  exact hf p (h p hp)
theorem memOk_withDram (h : MemOk s) {m : Mem} (hm : memWf m = true) (hu : SameKept u { s with dram := m }) : MemOk u :=
  memOk_congr hu ⟨hm, h.2⟩
theorem memOk_withHost (h : MemOk s) {m : Mem} (hm : memWf m = true) (hu : SameKept u { s with host := m }) : MemOk u :=
  memOk_congr hu ⟨h.1, hm, h.2.2⟩
theorem memOk_withCores (h : MemOk s) {cs : Tab Core} (hcs : ∀ p ∈ cs, memWf p.2.mem = true) : MemOk { s with cores := cs } := by
  obtain ⟨h1, h2, h3, h4, h5, h6, h7, -, h9⟩ := h
  exact ⟨h1, h2, h3, h4, h5, h6, h7, hcs, h9⟩

namespace Keeps

/-! ## Composition -/

theorem refl : Keeps s s := ⟨rfl, rfl, rfl, id⟩
theorem trans (h : Keeps s t) (h' : Keeps t u) : Keeps s u :=
  ⟨h'.pending.trans h.pending, h'.code512.trans h.code512, h'.therm.trans h.therm, fun m => h'.memOk (h.memOk m)⟩
/-- A change of other parts of the state. -/
theorem frame (h : Keeps s t) (hu : SameKept u t) : Keeps s u :=
  h.trans ⟨congrArg (·.1) hu, congrArg (·.2.1) hu, congrArg (·.2.2.1) hu, memOk_congr hu⟩
protected theorem ite {c : Prop} [Decidable c] (ht : Keeps s t) (hu : Keeps s u) : Keeps s (if c then t else u) := by
  split
  · exact ht
  · exact hu
theorem foldl {α : Type} {f : State → α → State} {l : List α} (h : Keeps s t) (hf : ∀ u x, Keeps s u → Keeps s (f u x)) :
    Keeps s (l.foldl f t) := by
  induction l generalizing t with
  | nil => exact h
  | cons x l ih => exact ih (hf t x h)
theorem of_some {o : Option State} (ho : o = some t) (h : KeepsO s o) : Keeps s t := h t ho
theorem of_ok {ε : Type} {r : Except ε State} (hr : r = .ok t) (h : KeepsE s r) : Keeps s t := h t hr
theorem of_some_fst {α : Type} {o : Option (State × α)} {a : α} (ho : o = some (t, a)) (h : KeepsO s (o.map (·.1))) : Keeps s t :=
  h t (by rw [ho]; rfl)
theorem of_some_snd {α : Type} {o : Option (α × State)} {a : α} (ho : o = some (a, t)) (h : KeepsO s (o.map (·.2))) : Keeps s t :=
  h t (by rw [ho]; rfl)
theorem of_ok_fst {ε α : Type} {r : Except ε (State × α)} {a : α} (hr : r = .ok (t, a)) (h : KeepsE s (r.map (·.1))) : Keeps s t :=
  h t (by rw [hr]; rfl)
theorem getD {o : Option State} (ho : KeepsO s o) (h : Keeps s t) : Keeps s (o.getD t) := by
  cases o with
  | none => exact h
  | some u => exact ho u rfl
theorem foldlState {α β : Type} {f : β → α → β} {l : List α} {b : β} {g : β → State} (h : Keeps s (g b))
    (hf : ∀ p x, Keeps s (g p) → Keeps s (g (f p x))) : Keeps s (g (l.foldl f b)) := by
  induction l generalizing b with
  | nil => exact h
  | cons x l ih => exact ih (hf b x h)
theorem foldlFst {α β : Type} {f : State × β → α → State × β} {l : List α} {b : β} (h : Keeps s t)
    (hf : ∀ p x, Keeps s p.1 → Keeps s (f p x).1) : Keeps s (l.foldl f (t, b)).1 := by
  suffices hp : ∀ p : State × β, Keeps s p.1 → Keeps s (l.foldl f p).1 from hp (t, b) h
  induction l with
  | nil => exact fun p hp => hp
  | cons x l ih => exact fun p hp => ih _ (hf p x hp)
theorem foldlSnd {α β : Type} {f : β × State → α → β × State} {l : List α} {b : β} (h : Keeps s t)
    (hf : ∀ p x, Keeps s p.2 → Keeps s (f p x).2) : Keeps s (l.foldl f (b, t)).2 := by
  suffices hp : ∀ p : β × State, Keeps s p.2 → Keeps s (l.foldl f p).2 from hp (b, t) h
  induction l with
  | nil => exact fun p hp => hp
  | cons x l ih => exact fun p hp => ih _ (hf p x hp)
theorem of_fst {α : Type} {p : State × α} {a : α} (hp : p = (t, a)) (h : Keeps s p.1) : Keeps s t := by rw [hp] at h; exact h
theorem of_snd {α : Type} {p : α × State} {a : α} (hp : p = (a, t)) (h : Keeps s p.2) : Keeps s t := by rw [hp] at h; exact h

end Keeps

namespace KeepsO
theorem none : KeepsO s none := fun _ h => nomatch h
theorem some (h : Keeps s t) : KeepsO s (some t) := fun _ ht => Option.some.inj ht ▸ h
protected theorem ite {c : Prop} [Decidable c] {a b : Option State} (ha : KeepsO s a) (hb : KeepsO s b) : KeepsO s (if c then a else b) := by
  split
  · exact ha
  · exact hb
theorem orElse {a : Option State} {b : Unit → Option State} (ha : KeepsO s a) (hb : KeepsO s (b ())) : KeepsO s (a.orElse b) := by
  cases a with
  | none => exact hb
  | some u => exact ha
theorem or {a b : Option State} (ha : KeepsO s a) (hb : KeepsO s b) : KeepsO s (a.or b) := by
  cases a with
  | none => exact hb
  | some u => exact ha
theorem foldl {α : Type} {f : Option State → α → Option State} {l : List α} {o : Option State} (ho : KeepsO s o)
    (hf : ∀ o x, KeepsO s o → KeepsO s (f o x)) : KeepsO s (l.foldl f o) := by
  induction l generalizing o with
  | nil => exact ho
  | cons x l ih => exact ih (hf o x ho)
theorem bindState {o : Option State} {f : State → Option State} (ho : KeepsO s o) (hf : ∀ u, Keeps s u → KeepsO s (f u)) :
    KeepsO s (o.bind f) := by
  cases o with
  | none => exact KeepsO.none
  | some u => exact hf u (ho u rfl)
theorem mapState {o : Option State} {f : State → State} (ho : KeepsO s o) (hf : ∀ u, Keeps s u → Keeps s (f u)) : KeepsO s (o.map f) := by
  cases o with
  | none => exact KeepsO.none
  | some u => exact KeepsO.some (hf u (ho u rfl))
theorem map {α : Type} {o : Option α} {f : α → State} (hf : ∀ x, Keeps s (f x)) : KeepsO s (o.map f) := by
  cases o with
  | none => exact KeepsO.none
  | some x => exact KeepsO.some (hf x)
theorem bind {α : Type} {o : Option α} {f : α → Option State} (hf : ∀ x, KeepsO s (f x)) : KeepsO s (o.bind f) := by
  cases o with
  | none => exact KeepsO.none
  | some x => exact hf x
end KeepsO

namespace KeepsE
theorem error {ε : Type} {e : ε} : KeepsE s (.error e) := fun _ h => nomatch h
theorem ok {ε : Type} (h : Keeps s t) : KeepsE (ε := ε) s (.ok t) := fun _ ht => Except.ok.inj ht ▸ h
protected theorem ite {ε : Type} {c : Prop} [Decidable c] {a b : Except ε State} (ha : KeepsE s a) (hb : KeepsE s b) :
    KeepsE s (if c then a else b) := by
  split
  · exact ha
  · exact hb
theorem mapIte {ε α : Type} {c : Prop} [Decidable c] {a b : Except ε α} {g : α → State} (ha : KeepsE s (a.map g)) (hb : KeepsE s (b.map g)) :
    KeepsE s ((if c then a else b).map g) := by
  split
  · exact ha
  · exact hb
end KeepsE

namespace KeepsR
theorem done {f : Core → Core} (h : Keeps s t) (hf : ∀ c, (f c).mem = c.mem) : KeepsR s (.done t f) := ⟨h, hf⟩
theorem exc {f : Core → Core} {code : Nat} {ea : Option Nat} {svc : Nat} (h : Keeps s t) (hf : ∀ c, (f c).mem = c.mem) :
    KeepsR s (.exc t f code ea svc) := ⟨h, hf⟩
theorem hold : KeepsR s .hold := trivial
theorem load : KeepsR s .load := trivial
protected theorem ite {c : Prop} [Decidable c] {a b : IRes} (ha : KeepsR s a) (hb : KeepsR s b) : KeepsR s (if c then a else b) := by
  split
  · exact ha
  · exact hb
end KeepsR

/-! ## Changes of one memory -/

namespace Keeps
theorem setCore {i c} (h : Keeps s t) (hc : MemOk t → memWf c.mem = true) : Keeps s (setCore t i c) :=
  h.trans ⟨rfl, rfl, rfl, fun m => memOk_withCores m (fun p hp => (mem_tset hp).elim (fun hv => hv ▸ hc m) (m.2.2.2.2.2.2.2.1 p))⟩
theorem modCore {i f} (h : Keeps s t) (hf : ∀ c, memWf c.mem = true → memWf (f c).mem = true) : Keeps s (modCore t i f) :=
  h.setCore (fun m => hf _ (memOk_getCore m i))
theorem coreUpd {i f} (h : Keeps s t) (hf : ∀ c, memWf c.mem = true → memWf (f c).mem = true) : Keeps s (coreUpd t i f) := by
  unfold Machine.coreUpd tupd
  split
  next c hc => exact h.setCore (fun m => hf c (memOk_core m hc))
  next => exact h.frame rfl
theorem withCores {cs} (h : Keeps s t) (hcs : MemOk t → ∀ p ∈ cs, memWf p.2.mem = true)
    (hu : SameKept u { t with cores := cs }) : Keeps s u :=
  h.trans ⟨congrArg (·.1) hu, congrArg (·.2.1) hu, congrArg (·.2.2.1) hu, fun m => memOk_congr hu (memOk_withCores m (hcs m))⟩
theorem led {f} (h : Keeps s t) (hf : ∀ l : Ledger, (f l).drives = l.drives) : Keeps s (led t f) :=
  h.frame (by rw [SameKept, Machine.led, hf])
theorem withDrives {f} (h : Keeps s t) (hf : DrivesOk t.led.drives → DrivesOk (f t.led).drives) : Keeps s (Machine.led t f) :=
  h.trans ⟨rfl, rfl, rfl, fun m => by
    obtain ⟨h1, h2, h3, h4, h5, h6, h7, h8, h9, hdrv, h11⟩ := m
    exact ⟨h1, h2, h3, h4, h5, h6, h7, h8, h9, hf hdrv, h11⟩⟩
theorem withPlans {ps} (h : Keeps s t) (hp : MemOk t → ∀ p ∈ ps, memWf p.2.image = true)
    (hu : SameKept u { t with plans := { t.plans with plans := ps } }) : Keeps s u :=
  h.trans ⟨congrArg (·.1) hu, congrArg (·.2.1) hu, congrArg (·.2.2.1) hu, fun m => memOk_congr hu (by
    obtain ⟨h1, h2, h3, h4, h5, h6, h7, h8, h9, h10, -⟩ := id m
    exact ⟨h1, h2, h3, h4, h5, h6, h7, h8, h9, h10, hp m⟩)⟩
theorem setPlan {fn id p} (h : Keeps s t) (hp : MemOk t → memWf p.image = true) : Keeps s (setPlan t fn id p) :=
  h.withPlans (fun m q hq => (mem_tset hq).elim (fun e => e ▸ hp m) (m.2.2.2.2.2.2.2.2.2.2 q)) rfl
theorem setPlanOf {fn id p} (h : Keeps s t) (hp : MemOk s → memWf p.image = true) : Keeps s (Machine.setPlan t fn id p) :=
  ⟨h.pending, h.code512, h.therm, fun m => (Keeps.refl.setPlan (fun _ => hp m)).memOk (h.memOk m)⟩
/-- A plan that takes the place of one with the same image. -/
theorem replan {fn id i j} {p q : Plan} (h : Keeps s t) (hq : getPlan t i j = some q) (hi : p.image = q.image) :
    Keeps s (Machine.setPlan t fn id p) :=
  h.setPlan (fun m => hi ▸ memOk_getPlan m hq)
theorem withCam {cam} (h : Keeps s t) (hm : MemOk t → memWf cam.mem = true) (hc : MemOk t → memWf cam.copy = true)
    (hu : SameKept u { t with cam := cam }) : Keeps s u :=
  h.trans ⟨congrArg (·.1) hu, congrArg (·.2.1) hu, congrArg (·.2.2.1) hu,
    fun m => memOk_congr hu ⟨m.1, m.2.1, m.2.2.1, hm m, hc m, m.2.2.2.2.2⟩⟩
theorem memOk_cam (m : MemOk t) : memWf t.cam.mem = true := m.2.2.2.1
theorem memOk_camCopy (m : MemOk t) : memWf t.cam.copy = true := m.2.2.2.2.1
theorem withCamMem {m} (h : Keeps s t) (hm : MemOk t → memWf m = true) (hu : SameKept u { t with cam := { t.cam with mem := m } }) :
    Keeps s u :=
  .withCam (cam := { t.cam with mem := m }) h hm memOk_camCopy hu
theorem withDram {m} (h : Keeps s t) (hm : MemOk t → memWf m = true) (hu : SameKept u { t with dram := m }) : Keeps s u :=
  h.trans ⟨congrArg (·.1) hu, congrArg (·.2.1) hu, congrArg (·.2.2.1) hu, fun k => memOk_withDram k (hm k) hu⟩
theorem mwriteDram {a bs} (h : Keeps s t) (hu : SameKept u { t with dram := mwrite t.dram a bs }) : Keeps s u :=
  h.withDram (fun m => memWf_mwrite _ _ (memOk_dram m)) hu
theorem mzeroDram {a n} (h : Keeps s t) (hu : SameKept u { t with dram := mzero t.dram a n }) : Keeps s u :=
  h.withDram (fun m => memWf_mzero _ _ (memOk_dram m)) hu
theorem vecFold {α : Type} {f : Nat → α → Except VFault α} {es : List Nat} {x : α} {g : α → State} (h : Keeps s (g x))
    (hf : ∀ e x, Keeps s (g x) → KeepsE s ((f e x).map g)) : Keeps s (g (Machine.vecFold f es x).2) := by
  induction es generalizing x with
  | nil => exact h
  | cons e es ih =>
    unfold Machine.vecFold
    split
    next y e => exact ih (hf _ _ h (g y) (by rw [e]; rfl))
    · exact h
theorem memOk_plan (m : MemOk t) {f : Nat × Plan → Bool} {k : Nat} {p : Plan} (hp : t.plans.plans.find? f = some (k, p)) :
    memWf p.image = true := m.2.2.2.2.2.2.2.2.2.2 (k, p) (List.mem_of_find?_eq_some hp)
theorem memWf_foldl_mcopy {α : Type} (f : α → Nat) (l : List α) {m src : Mem} (hm : memWf m = true) (hs : memWf src = true) :
    memWf (l.foldl (fun m c => mcopy m src (f c) (f c) 4096) m) = true := by
  induction l generalizing m with
  | nil => exact hm
  | cons c l ih => exact ih (memWf_mcopy _ _ _ hm hs)
theorem memWf_foldl_mwrite (a : Nat) (l : List (Nat × List Byte)) {m : Mem} (hm : memWf m = true) :
    memWf (l.foldl (fun m p => mwrite m (a + p.1) p.2) m) = true := by
  induction l generalizing m with
  | nil => exact hm
  | cons p l ih => exact ih (memWf_mwrite _ _ hm)

end Keeps

end

end Sys2Proof.Machine

/-! What each function of the model keeps: the commands that wait, the ordering code and the canonical form of every memory. One lemma
for each function that answers a state, in the order of the definitions; a lemma follows its function's own branches and cites the
lemmas of the functions it calls. -/

namespace Sys2Proof.Machine
open Sys2Proof Sys2Proof.Safety

section
variable {s t u : State}

namespace Keeps

/-! ## Time and modes -/

theorem nextFree (h : Keeps s t) : Keeps s (nextFree t).2 := .frame h rfl
theorem freeRes (h : Keeps s t) : Keeps s (freeRes t).2 := .frame h rfl
theorem freeBytes {n} (h : Keeps s t) : Keeps s (freeBytes t n).2 := .frame h rfl

/-! ## Registers (R475 to R479) -/

theorem regPut {off inst v} (h : Keeps s t) : Keeps s (regPut t off inst v) := .frame h rfl
theorem regSetFld {off inst hi lo v} (h : Keeps s t) : Keeps s (regSetFld t off inst hi lo v) := .regPut h
theorem regWrite {off inst v} (h : Keeps s t) : Keeps s (regWrite t off inst v) := .regPut h
theorem cntAdd {off inst hi lo k} (h : Keeps s t) : Keeps s (cntAdd t off inst hi lo k) := .regSetFld h
theorem selPut {p off v} (h : Keeps s t) : Keeps s (selPut t p off v) := .frame h rfl

/-! ## Events (R510, R511) and logs (R509) -/

theorem logEvent {evid fn a0 a1 a2} (h : Keeps s t) : Keeps s (logEvent t evid fn a0 a1 a2) := .ite (.frame h rfl) (.frame h rfl)
theorem drainEvents (h : Keeps s t) : Keeps s (drainEvents t) := .frame h rfl
theorem deny {init fn addr cls} (h : Keeps s t) : Keeps s (deny t init fn addr cls) :=
  .logEvent (.regSetFld (.regSetFld (.regSetFld (.cntAdd h))))
theorem rasCount {cls lasting} (h : Keeps s t) : Keeps s (rasCount t cls lasting) := .frame h rfl

/-! ## MSI-X (R310, R311) -/

theorem sendMsix {fn vec} (h : Keeps s t) : Keeps s (sendMsix t fn vec) := .ite (.ite h (.frame h rfl)) (.frame h rfl)
theorem fnEvent {fn} (h : Keeps s t) : Keeps s (fnEvent t fn) := .ite (.sendMsix h) h

/-! ## Updates of the tables -/

theorem setQ {q v} (h : Keeps s t) : Keeps s (setQ t q v) := .frame h rfl
theorem modQ {q f} (h : Keeps s t) : Keeps s (modQ t q f) := .setQ h
theorem setItem {id v} (h : Keeps s t) : Keeps s (setItem t id v) := .frame h rfl
theorem modItem {id f} (h : Keeps s t) : Keeps s (modItem t id f) := .frame h rfl
theorem setEntry {e v} (h : Keeps s t) : Keeps s (setEntry t e v) := .frame h rfl
theorem modEntry {e f} (h : Keeps s t) : Keeps s (modEntry t e f) := .frame h rfl
theorem setCluster {c v} (h : Keeps s t) : Keeps s (setCluster t c v) := .frame h rfl
theorem hostWrite {a bs} (h : Keeps s t) : Keeps s (hostWrite t a bs) :=
  h.trans ⟨rfl, rfl, rfl, fun m => memOk_withHost m (memWf_mwrite a bs (memOk_host m)) rfl⟩
theorem clearPoison {a n} (h : Keeps s t) : Keeps s (clearPoison t a n) := .frame h rfl
theorem addPoison {l} (h : Keeps s t) : Keeps s (addPoison t l) := .ite h (.frame h rfl)
theorem errLogWrite {fn it standing} (h : Keeps s t) : Keeps s (errLogWrite t fn it standing) := by
  unfold Machine.errLogWrite
  split
  · exact .frame h rfl

/-! ## Where a line lies (R264) -/

theorem setSub {sc v} (h : Keeps s t) : Keeps s (setSub t sc v) := .frame h rfl
theorem modSub {sc f} (h : Keeps s t) : Keeps s (modSub t sc f) := .setSub h

/-! ## Requests: wake, activate, neighbour refresh (R273, R280) -/

theorem subReq {sc} (h : Keeps s t) : Keeps s (subReq t sc) := .modSub h
theorem activate {sc bank row} (h : Keeps s t) : Keeps s (activate t sc bank row) := by
  unfold Machine.activate
  refine .ite h ?_
  dsimp only
  split
  · exact .setSub (.nextFree (.cntAdd h))
  · exact .setSub (.nextFree (.cntAdd h))
theorem openLine {l} (h : Keeps s t) : Keeps s (openLine t l) := .activate h

/-! ## Lasting errors (R277, R279) -/

theorem repairRow {l} (h : Keeps s t) : Keeps s (repairRow t l) := .ite h (.ite (.logEvent (.frame h rfl)) (.modSub h))

/-! ## Reads and the line code (R265 to R269) -/

theorem stampLines {a b} (h : Keeps s t) : Keeps s (stampLines t a b) := .frame h rfl
theorem stampVer {l} (h : Keeps s t) : Keeps s (stampVer t l) := .stampLines h
theorem notePin {l pin} (h : Keeps s t) : Keeps s (notePin t l pin) := .ite (.cntAdd (.frame h rfl)) (.setSub h)
theorem corrected {l pin again} (h : Keeps s t) : Keeps s (corrected t l pin again) :=
  .ite (.rasCount (.stampVer (.cntAdd h))) (.notePin (.repairRow (.rasCount (.stampVer (.cntAdd h)))))
theorem poisonLine {l} (h : Keeps s t) : Keeps s (poisonLine t l) := .repairRow (.rasCount (.cntAdd (.stampVer (.addPoison h))))
theorem readLine {l d0 d1 d2 pin} (h : Keeps s t) : Keeps s (readLine t l d0 d1 d2 pin) := by
  unfold Machine.readLine
  split
  · exact h
  · exact .corrected h
  · split
    · exact .rasCount (.cntAdd h)
    · exact .corrected (.rasCount (.cntAdd h))
    · exact .poisonLine h

/-! ## Ports, urgency and the order of service (R270, R271) -/

theorem queueRead {l port} (h : Keeps s t) : Keeps s (queueRead t l port) := .ite h (.modSub h)
theorem doDramRead {l port d0 d1 d2 pin} (h : Keeps s t) : Keeps s (doDramRead l port d0 d1 d2 pin t) := by
  unfold Machine.doDramRead
  refine .ite h ?_
  dsimp only
  split
  · exact .queueRead (.subReq h)
  · exact .ite (.readLine (.openLine (.modSub (.queueRead (.subReq h))))) (.queueRead (.subReq h))

/-! ## Repairs end (R277, R278) -/

theorem repairMade {sc r} (h : Keeps s t) : Keeps s (repairMade t sc r) := .ite (.cntAdd (.frame h rfl)) (.cntAdd (.frame h rfl))
theorem doRowRepairDone {sc bank decs} (h : Keeps s t) : Keeps s (doRowRepairDone sc bank decs t) := by
  unfold Machine.doRowRepairDone
  split
  · exact h
  · exact .logEvent (.repairMade (.foldl h (fun _ _ hu => .readLine hu)))

/-! ## Writes (R267, R272) -/

theorem enqWrite {q} (h : Keeps s t) : Keeps s (enqWrite t q) := .modSub h
theorem lineStore {w} (h : Keeps s t) : Keeps s (lineStore t w) := by
  unfold Machine.lineStore
  split
  · exact .ite (.addPoison (.stampVer (.mwriteDram h rfl))) (.clearPoison (.stampVer (.mwriteDram h rfl)))
  · exact .stampVer h
theorem queueWrite {w} (h : Keeps s t) : Keeps s (queueWrite t w) := .enqWrite (.lineStore h)
theorem stopWrite {w} (h : Keeps s t) : Keeps s (stopWrite t w) := .ite (.queueWrite (.subReq h)) (.frame h rfl)
theorem doDramWrite {l port bytes bad} (h : Keeps s t) : Keeps s (doDramWrite l port bytes bad t) := .ite h (.stopWrite h)
theorem stopDrain {l} (h : Keeps s t) : Keeps s (stopDrain l t).2 := by
  induction l generalizing t with
  | nil => exact h
  | cons w l ih =>
    unfold Machine.stopDrain
    split
    · exact ih (.queueWrite h)
    · exact h
theorem stopMoveUp {k} (h : Keeps s t) : Keeps s (stopMoveUp t k) := .frame (.stopDrain h) rfl
theorem drainWrites {sc n} (h : Keeps s t) : Keeps s (drainWrites sc n t) := by
  induction n generalizing t with
  | zero => exact h
  | succ n ih =>
    unfold Machine.drainWrites
    split
    · exact h
    · exact ih (.modSub (.openLine h))
theorem doWriteBatchDrain {sc n} (h : Keeps s t) : Keeps s (doWriteBatchDrain sc n t) := .ite h (.stopMoveUp (.drainWrites h))
theorem flushWrites (h : Keeps s t) : Keeps s (flushWrites t) :=
  .frame (.foldl h (fun _ _ hu => .foldl hu (fun _ _ hv => .lineStore hv))) rfl

/-! ## Writes of the device's blocks to DRAM and to the scratch window (R11, R267, R268) -/

theorem dramStore {a bs} (h : Keeps s t) : Keeps s (dramStore t a bs) := .stampLines (.clearPoison (.mwriteDram h rfl))

/-! ## Refresh and delays (R274 to R276) -/

theorem delayCopy {ch} (h : Keeps s t) : Keeps s (delayCopy t ch) := .ite h (.frame h rfl)
theorem doRefresh {sc} (h : Keeps s t) : Keeps s (doRefresh sc t) := .ite h (.ite (.modSub h) (.delayCopy (.modSub h)))
theorem doDelayCopy {ch} (h : Keeps s t) : Keeps s (doDelayCopy ch t) := .ite h (.delayCopy (.modSub (.modSub h)))
theorem shadowSet {ch temp} (h : Keeps s t) : Keeps s (shadowSet t ch temp) := by
  unfold Machine.shadowSet
  extract_lets b s1 s2
  have h2 : Keeps s s2 := .foldl (.regSetFld h) (fun _ _ hu => .foldl hu (fun _ _ hv => .regPut hv))
  clear_value s2
  exact .frame h2 rfl
theorem shadowApply {ch} (h : Keeps s t) : Keeps s (shadowApply t ch) := .ite h (.frame h rfl)
theorem retuneStop {m t'} (h : Keeps s t) : Keeps s (retuneStop t m t') := by
  unfold Machine.retuneStop
  refine .foldl h (fun _ _ hu => ?_)
  dsimp only
  split
  · exact .ite (.shadowApply (.shadowSet hu)) hu
  · exact hu
theorem doRefreshRatePoll {rates} (h : Keeps s t) : Keeps s (doRefreshRatePoll rates t) := by
  unfold Machine.doRefreshRatePoll
  refine .foldl h (fun _ _ hu => ?_)
  split
  · exact .ite hu (.foldl hu (fun _ _ hv => .modSub hv))
theorem doDelayApply {p v} (h : Keeps s t) : Keeps s (doDelayApply p v t) := .ite h (.frame h rfl)
theorem doDelayShadowWrite {p bin v} (h : Keeps s t) : Keeps s (doDelayShadowWrite p bin v t) := .ite h (.regWrite h)
theorem doDmcCtlWrite {p v} (h : Keeps s t) : Keeps s (doDmcCtlWrite p v t) := .ite h (.regWrite h)

/-! ## Repair commands (R278, R279) -/

theorem pprStart {v hard} (h : Keeps s t) : Keeps s (pprStart t v hard) := by
  unfold Machine.pprStart
  refine .ite (.regPut h) ?_
  split
  · exact .modSub (.regPut h)
  · exact .ite (.modSub (.regPut h)) (.regPut h)
theorem doPprSoft {p v} (h : Keeps s t) : Keeps s (doPprSoft p v t) := .ite h (.pprStart h)
theorem doPprHard {p v} (h : Keeps s t) : Keeps s (doPprHard p v t) := .ite h (.pprStart h)
theorem reapplyRepairs (h : Keeps s t) : Keeps s (reapplyRepairs t) :=
  .foldl (.foldl h (fun _ _ hu => .ite hu (.cntAdd (.modSub (.regPut hu))))) (fun _ _ hu => .modSub hu)

/-! ## Self-refresh and the patrol scrub (R280, R281) -/

theorem doSelfRefreshEntry {sc} (h : Keeps s t) : Keeps s (doSelfRefreshEntry sc t) := .ite (.modSub h) h
theorem wakeDram (h : Keeps s t) : Keeps s (wakeDram t) := .frame h rfl
theorem sleepDram (h : Keeps s t) : Keeps s (sleepDram t) := .foldl h (fun _ _ hu => .modSub hu)
theorem doPatrolScrubRead {sc d0 d1 d2 pin} (h : Keeps s t) : Keeps s (doPatrolScrubRead sc d0 d1 d2 pin t) :=
  .ite h (.ite h (.ite (.modSub h) (.readLine (.openLine (.modSub h)))))

/-! ## Changes of lines -/

theorem setLine {l w c} (h : Keeps s t) : Keeps s (setLine t l w c) := .frame h rfl
theorem dropLine {l w} (h : Keeps s t) : Keeps s (dropLine t l w) := .frame h rfl
theorem touch {l w} (h : Keeps s t) : Keeps s (touch t l w) := .frame h rfl
theorem emptyWay {w slice} (h : Keeps s t) : Keeps s (emptyWay t w slice) := .frame h rfl
theorem usePlace {l write x} (h : Keeps s t) : Keeps s (usePlace t l write x) := by
  unfold Machine.usePlace
  split
  · exact .touch (.setLine h)
  · exact .touch (.setLine h)
  · exact h
theorem touchLine {part l write} (h : Keeps s t) : Keeps s (touchLine t part l write) := .usePlace h
theorem touchRange {part a n write} (h : Keeps s t) : Keeps s (touchRange t part a n write) :=
  .ite h (.foldl h (fun _ _ hu => .touchLine hu))
theorem dramReq {l port} (h : Keeps s t) : Keeps s (dramReq t l port) := .queueRead (.subReq h)
theorem writeBack {l port} (h : Keeps s t) : Keeps s (writeBack t l port) := .stopWrite h
theorem lineTraffic {l port write full x} (h : Keeps s t) : Keeps s (lineTraffic t l port write full x) := by
  unfold Machine.lineTraffic
  split
  · exact h
  · refine .ite ?_ (.dramReq ?_)
    · split
      · exact .ite (.writeBack h) h
      · exact h
    · split
      · exact .ite (.writeBack h) h
      · exact h
  · exact .ite (.writeBack (.ite h (.dramReq h))) (.ite h (.dramReq h))

/-! ## Stores -/

theorem scratchLine {a bs} (h : Keeps s t) : Keeps s (scratchLine t a bs) := .ite h (.clearPoison (.mwriteDram h rfl))
theorem scratchStore {a bs} (h : Keeps s t) : Keeps s (scratchStore t a bs) :=
  .ite (.clearPoison (.mwriteDram h rfl)) (.foldl h (fun _ _ hu => .scratchLine hu))
theorem dramWrite {part a bs} (h : Keeps s t) : Keeps s (dramWrite t part a bs) := .ite (.scratchStore h) (.dramStore (.touchRange h))
theorem dramZero {part a n} (h : Keeps s t) : Keeps s (dramZero t part a n) := .stampLines (.clearPoison (.mzeroDram (.touchRange h) rfl))
theorem dramTouch {part a n} (h : Keeps s t) : Keeps s (dramTouch t part a n) := .ite h (.touchRange h)
theorem itemTouch {fn host a n} (h : Keeps s t) : Keeps s (itemTouch t fn host a n) := .ite h (.dramTouch h)

/-! ## Prefetch (R251) -/

theorem prefetch {fn tile stream l} (h : Keeps s t) : Keeps s (prefetch t fn tile stream l) := by
  unfold Machine.prefetch
  refine .ite h (.ite (.foldl (.frame h rfl) (fun _ _ hu => .ite hu ?_)) (.frame h rfl))
  split
  · exact .usePlace (.lineTraffic hu)
  · exact hu

/-! ## Errors and retirement (R259, R260) -/

theorem retireWay {slice w} (h : Keeps s t) : Keeps s (retireWay t slice w) := .ite h (.regSetFld (.frame h rfl))
theorem badLine {slice w set} (h : Keeps s t) : Keeps s (badLine t slice w set) := by
  unfold Machine.badLine
  split
  · exact .addPoison h
  · split
    · exact .ite (.addPoison (.frame h rfl)) (.frame h rfl)
    · exact h
theorem wayError {slice w set err} (h : Keeps s t) : Keeps s (wayError t slice w set err) :=
  .ite (.ite (.retireWay (.cntAdd (.frame h rfl))) (.cntAdd (.frame h rfl))) (.ite (.rasCount (.cntAdd h)) (.ite (.retireWay
    (.badLine (.rasCount (.cntAdd h)))) h))

/-! ## The end of a retirement copy -/

theorem lostPoison {q slice} (h : Keeps s t) : Keeps s (lostPoison t q slice) := .foldl h (fun _ _ hu => .addPoison hu)
theorem wayRetireDone {slice w bad} (h : Keeps s t) : Keeps s (wayRetireDone slice w bad t) := by
  have hcache {u c} (hu : Keeps s u) : Keeps s { u with cache := c } := .frame hu rfl
  have hbad : Keeps s (bad.foldl (fun s set => Machine.badLine s slice w set) t) := .foldl h (fun _ _ hu => .badLine hu)
  unfold Machine.wayRetireDone
  refine .ite h ?_
  extract_lets _ _ _ _ u old retire _ _ v x
  have hu : Keeps s u := .cntAdd (.ite (.regSetFld (hcache hbad)) (hcache hbad))
  have hv : Keeps s v := hcache (hcache hu)
  have hx : Keeps s x := by
    unfold x
    split
    · exact .lostPoison hv
    · exact .emptyWay hv
  split
  · exact .logEvent (hcache (hcache hu))
  · exact .logEvent (.regSetFld hx)

/-! ## Locks, maintenance -/

theorem doScLockWrite {p v} (h : Keeps s t) : Keeps s (doScLockWrite p v t) := .ite h (.regPut h)
theorem scOp {p cmd} (h : Keeps s t) : Keeps s (scOp p cmd t) :=
  .ite h (.ite (.cntAdd h) (.ite h (.ite (.regSetFld (.regPut h)) (.ite (.regSetFld (.regSetFld (.regPut h))) (.regSetFld (.frame h
    rfl))))))
theorem doScClean {p} (h : Keeps s t) : Keeps s (doScClean p t) := .scOp h
theorem doScCleanInval {p} (h : Keeps s t) : Keeps s (doScCleanInval p t) := .scOp h
theorem doScLockLoad {p} (h : Keeps s t) : Keeps s (doScLockLoad p t) := .scOp h
theorem lockLoad {l} (h : Keeps s t) : Keeps s (lockLoad t l) := by
  unfold Machine.lockLoad
  dsimp only
  split
  · refine .ite h ?_
    split
    · exact .setLine (.dropLine h)
    · exact .cntAdd h
  · split
    · exact .setLine h
    · exact .cntAdd h
theorem doScOpDone (h : Keeps s t) : Keeps s (doScOpDone t) := by
  unfold Machine.doScOpDone
  split
  · exact h
  · exact .ite (.frame (.frame h rfl) rfl) (.ite (.cntAdd (.frame (.frame h rfl) rfl)) (.foldl (.regSetFld (.frame h rfl)) (fun _ _ hu =>
      .lockLoad hu)))

/-! ## Disable, power -/

theorem doCacheDisable {p} (h : Keeps s t) : Keeps s (doCacheDisable p t) := .ite h (.ite (.regSetFld (.regSetFld h)) (.regSetFld h))
theorem doCacheDisableDone (h : Keeps s t) : Keeps s (doCacheDisableDone t) := .ite (.regSetFld (.frame h rfl)) h
theorem cacheOn (h : Keeps s t) : Keeps s (cacheOn t) := .regSetFld (.regSetFld (.frame h rfl))
theorem doCacheEnable {p} (h : Keeps s t) : Keeps s (doCacheEnable p t) := .ite (.cacheOn h) h
theorem scPwr {p v} (h : Keeps s t) : Keeps s (scPwr p v t) := .ite h (.regSetFld (.frame (.foldl h (fun _ _ hu => .emptyWay hu)) rfl))
theorem doWayPowerDown {p v} (h : Keeps s t) : Keeps s (doWayPowerDown p v t) := .scPwr h
theorem doWayPowerUp {p v} (h : Keeps s t) : Keeps s (doWayPowerUp p v t) := .scPwr h
theorem doWayPowerOffDone {w} (h : Keeps s t) : Keeps s (doWayPowerOffDone w t) := .ite (.regSetFld (.emptyWay (.frame h rfl))) h

/-! ## Scratch (R253, R254) -/

theorem scratchOff {q} (h : Keeps s t) : Keeps s (scratchOff t q) := .clearPoison (.mzeroDram (.regPut h) rfl)
theorem scratchOn {q way part run} (h : Keeps s t) : Keeps s (scratchOn t q way part run) := .ite h (.emptyWay (.regPut h))
theorem scratchWrite {p q v} (h : Keeps s t) : Keeps s (scratchWrite p q v t) :=
  .ite h (.ite (.regPut (.ite (.scratchOff h) h)) (.ite (.regSetFld h) (.ite (.scratchOn h) h)))
theorem doScratchConvert {p q v} (h : Keeps s t) : Keeps s (doScratchConvert p q v t) := .scratchWrite h
theorem doScratchRelease {p q v} (h : Keeps s t) : Keeps s (doScratchRelease p q v t) := .scratchWrite h
theorem scratchReady {q} (h : Keeps s t) : Keeps s (scratchReady q t) :=
  .ite (.regSetFld (.mzeroDram (.foldl h (fun _ _ hu => .lostPoison hu)) rfl)) h

/-! ## Parsed frames -/

theorem modPort {n f} (h : Keeps s t) : Keeps s (modPort t n f) := .frame h rfl
theorem sendFrame {n bs} (h : Keeps s t) : Keeps s (sendFrame t n bs) := .frame h rfl

/-! ## Reply cache (R183, R184) -/

theorem raiseFloor {key} (h : Keeps s t) : Keeps s (raiseFloor t key) := .frame h rfl
theorem cacheRemove {key} (h : Keeps s t) : Keeps s (cacheRemove t key) := .raiseFloor (.frame h rfl)
theorem cacheReserve {key} (h : Keeps s t) : KeepsO s (cacheReserve t key) := .ite (.some (.frame h rfl)) (.map (fun _ => .frame h rfl))
theorem cacheDone {key reply} (h : Keeps s t) : Keeps s (cacheDone t key reply) := .frame h rfl

/-! ## The composer (R186 to R188) -/

theorem sendReply {m row} (h : Keeps s t) : Keeps s (sendReply t m row) := .sendFrame (.cacheDone (.modPort h))
theorem failReply {m} (h : Keeps s t) : Keeps s (failReply t m) := .ite (.sendReply (.modPort h)) (.cacheDone (.modPort h))

/-! ## The table of cores -/

theorem forgetProgs {p} (h : Keeps s t) : Keeps s (forgetProgs t p) := .frame h rfl
theorem tileStart {p} (h : Keeps s t) : Keeps s (tileStart t p) :=
  .setCore (.forgetProgs h) (fun m => memWf_mcopy _ _ _ memWf_nil (memOk_dram m))
theorem memOk_cores (m : MemOk t) : ∀ p ∈ t.cores, memWf p.2.mem = true := m.2.2.2.2.2.2.2.1
theorem coreOff {p} (h : Keeps s t) : Keeps s (coreOff t p) :=
  .forgetProgs (.withCores h (fun m q hq => memOk_cores m q (mem_terase hq)) rfl)
theorem coreStop {p} (h : Keeps s t) : Keeps s (coreStop t p) := .modCore h (fun _ hc => hc)
theorem notifyTile {p} (h : Keeps s t) : Keeps s (notifyTile t p) := .modCore h (fun _ hc => hc)

/-! ## Plans and runs -/

theorem setRun {id r} (h : Keeps s t) : Keeps s (setRun t id r) := .frame h rfl
theorem modTask {id k f} (h : Keeps s t) : Keeps s (modTask t id k f) := by
  unfold Machine.modTask
  split
  · exact .setRun h
  · exact h

/-! ## The clause area (R64) -/

theorem setProgs {p l} (h : Keeps s t) : Keeps s (setProgs t p l) := .frame h rfl
theorem copyProgs {p l} (h : Keeps s t) : Keeps s (copyProgs t p l) :=
  .foldl (.setProgs h) (fun _ _ hu => .modCore hu (fun _ hc => memWf_mwrite _ _ hc))
theorem loadPrograms {p fn plan pipe} (h : Keeps s t) : Keeps s (loadPrograms t p fn plan pipe) := by
  unfold Machine.loadPrograms
  refine .ite (.setProgs h) ?_
  dsimp only
  split
  · exact .setProgs (.modCore h (fun _ hc => memWf_mwrite _ _ hc))
  · exact .copyProgs h
theorem dropPrograms {fn plan} (h : Keeps s t) : Keeps s (dropPrograms t fn plan) := .frame h rfl
theorem pinPlan {fn plan tiles} (h : Keeps s t) : Keeps s (pinPlan t fn plan tiles) :=
  .foldl (.dropPrograms h) (fun _ _ hu => .foldl hu (fun _ _ hv => .loadPrograms hv))
theorem startPrograms {e p} (h : Keeps s t) : Keeps s (startPrograms t e p) := by
  unfold Machine.startPrograms
  split
  · exact h
  · split
    · exact .loadPrograms h
    · split
      · exact .loadPrograms h
      · exact h

/-! ## A clause's area -/

theorem storeClause {r g tile c v} (h : Keeps s t) : Keeps s (storeClause t r g tile c v) := by
  unfold Machine.storeClause
  exact .modCore h (fun _ hc => memWf_foldl_mwrite _ _ (memWf_mzero _ _ hc))
theorem storeTask {r t' tile} (h : Keeps s t) : Keeps s (storeTask t r t' tile) := .foldl h (fun _ _ hu => .storeClause hu)
theorem seatTask {id k tile} (h : Keeps s t) : Keeps s (seatTask t id k tile) := by
  unfold Machine.seatTask
  split
  · exact h
  · split
    · exact h
    · exact .setRun h
theorem resumeThread {e tile} (h : Keeps s t) : Keeps s (resumeThread t e tile) := by
  unfold Machine.resumeThread
  dsimp only
  split
  · refine .modTask ?_
    split
    · exact .modCore h (fun _ hc => hc)
    · exact h
  · split
    · exact .modCore h (fun _ hc => hc)
    · exact h
theorem startThread {e tile} (h : Keeps s t) : Keeps s (startThread t e tile) := by
  unfold Machine.startThread
  refine .ite (.resumeThread (.startPrograms h)) (.resumeThread ?_)
  split
  · exact .seatTask (.startPrograms h)
  · split
    · exact .storeTask (.seatTask (.startPrograms h))
    · exact .seatTask (.startPrograms h)

/-! ## Waiting times (R171) -/

theorem countWait {e t'} (h : Keeps s t) : Keeps s (countWait t e t') := .frame h rfl

/-! ## Placement (R160) -/

theorem dispatch {i e t'} (h : Keeps s t) : Keeps s (dispatch t i e t') := .setEntry (.startThread (.notifyTile (.countWait h)))
theorem placeOn {i e t'} (h : Keeps s t) : Keeps s (placeOn t i e t') := .setEntry h
theorem suspend {j v t'} (h : Keeps s t) : Keeps s (suspend t j v t') := .setEntry h
theorem wakeCluster {c} (h : Keeps s t) : Keeps s (wakeCluster t c) := .ite (.setCluster h) h
theorem place {i e} (h : Keeps s t) : KeepsO s (place t i e) := by
  unfold Machine.place
  dsimp only
  split
  · exact .some (.dispatch h)
  · split
    · exact .some (.placeOn (.ite h (.setCluster h)))
    · split
      · exact .some (.dispatch (.suspend h))
      · split
        · exact .some (.placeOn h)
        · split
          · exact .ite (.some (.placeOn (.wakeCluster h))) .none
          · exact .none
theorem scheduleOne {l} (h : Keeps s t) : KeepsO s (scheduleOne t l) := by
  induction l with
  | nil => exact .none
  | cons p l ih =>
    unfold Machine.scheduleOne
    split
    next e => exact .some (.of_some e (.place h))
    next => exact ih
theorem scheduleN {n} (h : Keeps s t) : Keeps s (scheduleN n t) := by
  induction n generalizing t with
  | zero => exact h
  | succ n ih =>
    unfold Machine.scheduleN
    split
    next e => exact ih (.of_some e (Keeps.scheduleOne h))
    next => exact h
theorem noteBusy (h : Keeps s t) : Keeps s (noteBusy t) := .frame h rfl
theorem noteFree (h : Keeps s t) : Keeps s (noteFree t) := .frame h rfl

/-! ## Warm clusters (R169) -/

theorem warmWake (h : Keeps s t) : Keeps s (warmWake t) := .ite (.foldl h (fun _ _ hu => .wakeCluster hu)) h
theorem schedule (h : Keeps s t) : Keeps s (schedule t) := .warmWake (.noteFree (.noteBusy (.scheduleN h)))

/-! ## Flows (R164 to R166) -/

theorem recalcFlow {f} (h : Keeps s t) : Keeps s (recalcFlow t f) := by
  unfold Machine.recalcFlow
  split
  · exact h
  · split
    · exact h
    · exact .frame h rfl

/-! ## Insertion (R157, R168) -/

theorem insertEntry {kind id it task flow elig} (h : Keeps s t) : Keeps s (insertEntry t kind id it task flow elig) := by
  unfold Machine.insertEntry
  split
  · exact h
  · dsimp only
    split
    · exact .recalcFlow (.modItem (.frame h rfl))
    · exact .modItem (.frame h rfl)
theorem joinFlow {fn key id} (h : Keeps s t) : KeepsO s ((joinFlow t fn key id).map (·.2)) := by
  unfold Machine.joinFlow
  split
  · exact .some (.frame h rfl)
  · split
    · exact .some (.frame h rfl)
    · exact .none

/-! ## Ends of threads -/

theorem endEntries {id} (h : Keeps s t) : Keeps s (endEntries t id) := .frame h rfl
theorem endEntry {i} (h : Keeps s t) : Keeps s (endEntry t i) := .frame h rfl
theorem entryWait {i} (h : Keeps s t) : Keeps s (entryWait t i) := .modEntry h
theorem entryResume {i} (h : Keeps s t) : Keeps s (entryResume t i) := .modEntry h
theorem leaveFlow {fn key id} (h : Keeps s t) : Keeps s (leaveFlow t fn key id) := by
  unfold Machine.leaveFlow
  split
  · exact h
  · split
    · exact h
    · dsimp only
      split
      · exact .frame h rfl
      · exact .recalcFlow (.frame h rfl)

/-! ## Commands of the scheduler -/

theorem doSchedWinSnapshot {p v} (h : Keeps s t) : Keeps s (doSchedWinSnapshot p v t) := .frame h rfl
theorem startPlaced {c} (h : Keeps s t) : Keeps s (startPlaced t c) := .foldl h (fun _ _ hu => .dispatch hu)
theorem doClusterWakeComplete {c} (h : Keeps s t) : Keeps s (doClusterWakeComplete c t) :=
  .ite (.schedule (.startPlaced (.setCluster (.foldl h (fun _ _ hu => .tileStart hu))))) h
theorem doClusterPowerGate {c} (h : Keeps s t) : Keeps s (doClusterPowerGate c t) :=
  .ite (.ite (.setCluster h) (.foldl (.setCluster h) (fun _ _ hu => .coreOff hu))) h
theorem doClockGatedWakeDone {c} (h : Keeps s t) : Keeps s (doClockGatedWakeDone c t) := .ite (.schedule (.startPlaced (.setCluster h))) h

/-! ## Completion rings -/

theorem signalRing {r} (h : Keeps s t) : Keeps s (signalRing t r) := .sendMsix (.modQ h)
theorem countIrq {r} (h : Keeps s t) : Keeps s (countIrq t r) := .ite (.signalRing (.setQ h)) (.setQ h)
theorem ringPut {r e} (h : Keeps s t) : Keeps s (ringPut t r e) := .ite (.countIrq (.setQ (.hostWrite h))) (.setQ (.hostWrite h))
theorem placeEntry {r e} (h : Keeps s t) : Keeps s (placeEntry t r e) := .ite (.ringPut h) (.ite (.fnEvent (.setQ h)) (.setQ h))
theorem moveOverflow {n r} (h : Keeps s t) : Keeps s (moveOverflow n t r) := by
  induction n generalizing t with
  | zero => exact h
  | succ n ih =>
    unfold Machine.moveOverflow
    split
    · exact h
    · exact .ite h (ih (.ringPut (.modQ h)))

/-! ## Statuses, freezes -/

theorem freezeQueue {it} (h : Keeps s t) : Keeps s (freezeQueue t it) := .fnEvent (.modQ (.errLogWrite h))

/-! ## Idempotence entries at completion (R304) -/

theorem ikeyDone {id it errSeq} (h : Keeps s t) : Keeps s (ikeyDone t id it errSeq) := .frame h rfl
theorem deadlineCheck {it reached} (h : Keeps s t) : Keeps s (deadlineCheck t it reached) :=
  .ite (.ite (.logEvent (.frame h rfl)) (.frame h rfl)) h

/-! ## The end of an item -/

theorem xferAt {id fn level cmd src n} (h : Keeps s t) : Keeps s (xferAt t id fn level cmd src n) := .ite h (.frame h rfl)
theorem dataXfer {id cmd src n} (h : Keeps s t) : Keeps s (dataXfer t id cmd src n) := by
  unfold Machine.dataXfer
  split
  · exact h
  · exact .xferAt h
theorem dropItem {id it} (h : Keeps s t) : Keeps s (dropItem t id it) := .leaveFlow (.endEntries (.frame h rfl))
theorem finishOne {id it} (h : Keeps s t) : Keeps s (finishOne t id it) := by
  unfold Machine.finishOne
  dsimp only
  split
  · exact .ite (.dropItem h) (.dropItem (.failReply (.fnEvent (.errLogWrite h))))
  · exact .dropItem (.ikeyDone (.placeEntry (.ite (.freezeQueue h) h)))
theorem wakeFollowers {id it errSeq} (h : Keeps s t) : Keeps s (wakeFollowers t id it errSeq).1 := by
  unfold Machine.wakeFollowers
  refine .foldl (.foldl h (fun _ _ hu => .modItem hu)) (fun _ _ hu => ?_)
  split
  · exact .ite (.getD (.map (fun _ => .entryResume (.setItem hu))) hu) hu
  · exact hu
theorem abortedHead {fn key} (h : Keeps s t) : Keeps s (abortedHead t fn key).1 := by
  unfold Machine.abortedHead
  split
  · exact h
  · split
    · exact h
    · split
      · split
        · exact h
        · exact .setItem h
      · exact h
theorem completeList {n l} (h : Keeps s t) : Keeps s (completeList n t l) := by
  induction n generalizing t l with
  | zero => unfold Machine.completeList; exact h
  | succ n ih =>
    unfold Machine.completeList
    cases l with
    | nil => exact h
    | cons id l =>
      dsimp only
      split
      · exact ih h
      · refine .ite (ih ?_) (ih h)
        exact .abortedHead (.wakeFollowers (.finishOne h))
theorem complete {id} (h : Keeps s t) : Keeps s (complete t id) := .schedule (.completeList h)
theorem closeItem {id} (h : Keeps s t) : Keeps s (closeItem t id) := by
  unfold Machine.closeItem
  split
  · exact h
  · exact .ite (.schedule (.getD (.map (fun _ => .entryResume h)) h)) (.complete h)
theorem failItem {id st r0 r1} (h : Keeps s t) : Keeps s (failItem t id st r0 r1) := .complete (.modItem h)
theorem commitNow {id r0 r1} (h : Keeps s t) : Keeps s (commitNow t id r0 r1) := by
  unfold Machine.commitNow
  split
  · exact h
  · exact .closeItem (.leaveFlow (.modItem (.deadlineCheck h)))
theorem itemReady {id r0 r1} (h : Keeps s t) : Keeps s (itemReady t id r0 r1) := .modItem h
theorem toEngine {id} (h : Keeps s t) : Keeps s (toEngine t id) := by
  unfold Machine.toEngine
  split
  · exact h
  · dsimp only
    split
    · exact .schedule (.entryWait (.modItem h))
    · exact .modItem h
theorem engineDone {id r0 r1} (h : Keeps s t) : Keeps s (engineDone t id r0 r1) := by
  unfold Machine.engineDone
  split
  · exact h
  · dsimp only
    split
    · exact .schedule (.entryResume (.itemReady h))
    · exact .itemReady h
theorem engineFail {id st r0 r1} (h : Keeps s t) : Keeps s (engineFail t id st r0 r1) := .closeItem (.modItem h)

/-! ## Entries and matching (R404, R405, R409) -/

theorem camCount {n multi} (h : Keeps s t) : Keeps s (camCount t n multi) := .cntAdd (.cntAdd (.frame h rfl))
theorem camCountHit {h'} (h : Keeps s t) : Keeps s (camCountHit t h') := .camCount h
theorem camServe {q} (h : Keeps s t) : Keeps s (camServe t q) := .frame (.frame h rfl) rfl
theorem camNext (h : Keeps s t) : Keeps s (camNext t) := by
  unfold Machine.camNext
  split
  · exact .camServe h
  · exact h
theorem camBefore {lc} (h : Keeps s t) : Keeps s (camBefore lc t) := by
  unfold Machine.camBefore
  refine .foldl h (fun _ _ hu => ?_)
  split
  · exact .ite (.camServe hu) hu
  · exact hu
theorem camSearch {lc fn k} (h : Keeps s t) : Keeps s (camSearch t lc fn k).1 := .camCountHit (.camBefore h)
theorem doCamLookup {fn key lc take} (h : Keeps s t) : Keeps s (doCamLookup fn key lc take t) :=
  .ite (.camNext (.frame h rfl)) (.frame h rfl)

/-! ## Changing an entry (R407, R408, R416) -/

theorem camStore {off bs} (h : Keeps s t) : Keeps s (camStore t off bs) :=
  .withCam h (fun m => memWf_mwrite _ _ (memOk_cam m)) (fun m => memWf_mwrite _ _ (memOk_camCopy m)) rfl
theorem camWrite {i rec} (h : Keeps s t) : Keeps s (camWrite t i rec) :=
  .ite (.camStore (.camStore (.camStore h))) (.camStore (.camStore h))
theorem camHold {w} (h : Keeps s t) : Keeps s (camHold t w) := .frame h rfl
theorem camRecord {i op rec} (h : Keeps s t) : Keeps s (camRecord t i op rec) := .ite (.camWrite h) (.camStore h)
theorem camApply {i op rec} (h : Keeps s t) : Keeps s (camApply t i op rec) := .ite (.camHold h) (.camRecord h)
theorem camLand {off bytes} (h : Keeps s t) : Keeps s (camLand t off bytes) := .ite (.cntAdd h) (.camStore h)
theorem camResume {x} (h : Keeps s t) : Keeps s (camResume t x) := by
  unfold Machine.camResume
  split
  · exact .camLand h
  · exact .camRecord h
theorem doCamWindowWrite {init fn addr bytes} (h : Keeps s t) : Keeps s (doCamWindowWrite init fn addr bytes t) :=
  .ite (.deny h) (.ite (.camHold h) (.camLand h))

/-! ## Host items (R413 to R415) -/

theorem addEffects {id es} (h : Keeps s t) : Keeps s (addEffects t id es) := .modItem h
theorem doCamUpdate {id} (h : Keeps s t) : Keeps s (doCamUpdate id t) := by
  unfold Machine.doCamUpdate
  split
  · exact h
  · refine .ite (.failItem h) (.ite (.failItem h) (.ite (.failItem h) (.ite (.failItem h) ?_)))
    dsimp only
    split
    · exact .failItem (.itemTouch h)
    · exact .itemReady (.addEffects (.itemTouch h))
theorem doCamSearch {id} (h : Keeps s t) : Keeps s (doCamSearch id t) := by
  unfold Machine.doCamSearch
  split
  · exact h
  · exact .ite (.failItem h) (.ite (.failItem h) (.ite (.failItem h) (.ite (.failItem h) (.ite (.failItem h) (.itemReady (.ite (.camCount
      (.camBefore (.itemTouch h))) (.addEffects (.camCount (.camBefore (.itemTouch h))))))))))

/-! ## Errors and the spare block (R416) -/

theorem camStat (h : Keeps s t) : Keeps s (camStat t) := .regSetFld h
theorem doCamScrub {i err} (h : Keeps s t) : Keeps s (doCamScrub i err t) := by
  unfold Machine.doCamScrub
  extract_lets inReload _ out _ s1
  have hout : Keeps s out := .frame h rfl
  have h1 : Keeps s s1 := .rasCount (.cntAdd hout)
  clear_value s1
  refine .ite h (.ite (.ite ?_ h) (.ite (.ite h (.camStat (.frame h rfl))) (.ite (.camStat (.frame h1 rfl)) ?_)))
  · exact .rasCount (.camStat (.cntAdd (.withCamMem h (fun m => memWf_mwrite _ _ (memOk_cam m)) rfl)))
  · exact .logEvent (.camStat (.regSetFld (.frame h1 rfl)))
theorem doCamSpareLoadDone (h : Keeps s t) : Keeps s (doCamSpareLoadDone t) := by
  unfold Machine.doCamSpareLoadDone
  split
  · exact h
  · extract_lets _ s1 s2 held
    have h1 : Keeps s s1 := .withCamMem h (fun m => memWf_mcopy _ _ _ (memOk_cam m) (memOk_camCopy m)) rfl
    have h2 : Keeps s s2 := .regSetFld (.regSetFld h1)
    clear_value s2
    exact .foldl (.logEvent (.camStat (.frame h2 rfl))) (fun _ _ hu => .camResume hu)

/-! ## What a segment writes (R316) -/

theorem memWrite {part host a bs} (h : Keeps s t) : Keeps s (memWrite t part host a bs) := .ite (.hostWrite h) (.dramWrite h)
theorem segMove {part g} (h : Keeps s t) : Keeps s (segMove t part g) :=
  .foldl (.ite h (.dramTouch (.dramTouch h))) (fun _ _ hu => .ite (.memWrite (.freeBytes hu)) (.memWrite hu))

/-! ## MOVE (R317, R318) -/

theorem doMove {id listErr} (h : Keeps s t) : Keeps s (doMove id listErr t) := by
  unfold Machine.doMove
  split
  · exact h
  · split
    · exact .failItem h
    · split
      · exact .failItem h
      · exact .ite (.itemReady h) (.toEngine (.frame h rfl))

/-! ## Channels (R320, R336) -/

theorem grantChans {l} (h : Keeps s t) : Keeps s (grantChans l t) := by
  induction l generalizing t with
  | nil => exact h
  | cons x l ih =>
    unfold Machine.grantChans
    split
    · exact ih (.frame h rfl)
    · exact ih (.frame h rfl)
theorem doDmaChannelGrant (h : Keeps s t) : Keeps s (doDmaChannelGrant t) := .grantChans (.frame h rfl)
theorem freeChannel {c} (h : Keeps s t) : Keeps s (freeChannel t c) := by
  unfold Machine.freeChannel
  dsimp only
  split
  · exact .frame h rfl
  · exact .frame h rfl

/-! ## Key slots (R387 to R390) -/

theorem setSlot {k v} (h : Keeps s t) : Keeps s (setSlot t k v) := .frame h rfl
theorem keyCmdEnd {fn err} (h : Keeps s t) : Keeps s (keyCmdEnd t fn err) := .frame h rfl
theorem doKeyLoad {p v} (h : Keeps s t) : Keeps s (doKeyLoad p v t) := .ite h (.keyCmdEnd (.ite (.setSlot h) h))
theorem eraseSlot {k} (h : Keeps s t) : Keeps s (eraseSlot t k) := .ite h (.setSlot h)
theorem doKeyErase {p v} (h : Keeps s t) : Keeps s (doKeyErase p v t) := .ite h (.ite (.keyCmdEnd h) (.keyCmdEnd (.eraseSlot h)))
theorem doStagingZeroise {p v} (h : Keeps s t) : Keeps s (doStagingZeroise p v t) := .ite h (.keyCmdEnd h)
theorem doKeyEraseDone {k} (h : Keeps s t) : Keeps s (doKeyEraseDone k t) := .ite (.frame h rfl) h

/-! ## The cipher scheduler (R398, R399) -/

theorem setCReq {a r} (h : Keeps s t) : Keeps s (setCReq t a r) := .frame h rfl
theorem ciphStart {n} (h : Keeps s t) : Keeps s (ciphStart n t) := by
  induction n generalizing t with
  | zero => exact h
  | succ n ih =>
    unfold Machine.ciphStart
    split
    · exact ih (.setCReq h)
    · exact h
theorem ciphMakeRoom {p} (h : Keeps s t) : Keeps s (ciphMakeRoom t p) := by
  unfold Machine.ciphMakeRoom
  refine .ite h ?_
  split
  · exact h
  · split
    · exact .frame h rfl
    · exact .frame h rfl
theorem ciphArrive {r} (h : Keeps s t) : Keeps s (ciphArrive t r) := .frame (.ciphMakeRoom h) rfl
theorem ciphPacket (h : Keeps s t) : Keeps s (ciphPacket t) := .ciphStart (.ciphMakeRoom h)
theorem ciphEnd {a} (h : Keeps s t) : Keeps s (ciphEnd t a) := .ciphStart (.frame h rfl)

/-! ## Contexts (R397) -/

theorem ctxWrite {addr wrap ctx} (h : Keeps s t) : Keeps s (ctxWrite t addr wrap ctx) := .hostWrite h

/-! ## CIPHER (R391 to R393) -/

theorem doCipher {id} (h : Keeps s t) : Keeps s (doCipher id t) := by
  unfold Machine.doCipher
  split
  · exact h
  · dsimp only
    split
    · exact .failItem h
    · exact .ite (.itemReady h) (.toEngine (.ciphArrive (.ite (.dataXfer h) h)))

/-! ## The end of a cipher message (R394 to R398) -/

theorem countCmp {fn p} (h : Keeps s t) : Keeps s (countCmp t fn p) := .ite (.logEvent (.frame (.frame h rfl) rfl)) (.frame h rfl)
theorem saveCtx {it b r m} (h : Keeps s t) : Keeps s (saveCtx t it b r m) := .ctxWrite h
theorem cipherFinish {id it b r pair} (h : Keeps s t) : Keeps s (cipherFinish t id it b r pair) :=
  .ite (.engineDone (.saveCtx (.ite (.dataXfer (.memWrite (.itemTouch h))) (.memWrite (.itemTouch h))))) (.ite (.engineDone (.ite
    (.dataXfer (.memWrite (.itemTouch h))) (.memWrite (.itemTouch h)))) (.ite (.engineDone (.memWrite (.ite (.dataXfer (.memWrite
    (.itemTouch h))) (.memWrite (.itemTouch h))))) (.ite (.engineFail (.ite (.countCmp (.ite (.dataXfer (.memWrite (.itemTouch h)))
    (.memWrite (.itemTouch h)))) (.memWrite (.freeBytes (.countCmp (.ite (.dataXfer (.memWrite (.itemTouch h))) (.memWrite (.itemTouch
    h)))))))) (.engineDone (.ite (.countCmp (.ite (.dataXfer (.memWrite (.itemTouch h))) (.memWrite (.itemTouch h)))) (.memWrite
    (.freeBytes (.countCmp (.ite (.dataXfer (.memWrite (.itemTouch h))) (.memWrite (.itemTouch h)))))))))))
theorem doCipherMessageDone {a pair} (h : Keeps s t) : Keeps s (doCipherMessageDone a pair t) := by
  unfold Machine.doCipherMessageDone
  split
  · exact h
  · refine .ite h ?_
    dsimp only
    split
    · exact .ciphEnd h
    · exact .ite (.engineFail (.ciphEnd h)) (.cipherFinish (.ciphEnd h))

/-! ## DIGEST (R386, R391 to R393, R402) -/

theorem digStart {n} (h : Keeps s t) : Keeps s (digStart n t) := by
  induction n generalizing t with
  | zero => exact h
  | succ n ih =>
    unfold Machine.digStart
    split
    · exact ih (.frame h rfl)
    · exact h
theorem digArrive {r} (h : Keeps s t) : Keeps s (digArrive t r) := .digStart (.frame h rfl)
theorem digEnd {a} (h : Keeps s t) : Keeps s (digEnd t a) := .digStart (.frame h rfl)
theorem doDigest {id} (h : Keeps s t) : Keeps s (doDigest id t) := by
  unfold Machine.doDigest
  split
  · exact h
  · dsimp only
    split
    · exact .failItem h
    · exact .ite (.itemReady h) (.toEngine (.digArrive (.ite (.dataXfer h) h)))
theorem digestFinish {id it b r pair} (h : Keeps s t) : Keeps s (digestFinish t id it b r pair) :=
  .ite (.engineDone (.ctxWrite (.itemTouch h))) (.ite (.engineDone (.dataXfer (.hostWrite (.itemTouch h)))) (.ite (.engineFail
    (.countCmp (.itemTouch h))) (.engineDone (.countCmp (.itemTouch h)))))
theorem digestItemDone {id r pair} (h : Keeps s t) : Keeps s (digestItemDone t id r pair) := by
  unfold Machine.digestItemDone
  split
  · exact h
  · exact .ite (.engineFail h) (.digestFinish h)
theorem ciphDrop {id} (h : Keeps s t) : Keeps s (ciphDrop t id) := .digStart (.ciphStart (.frame h rfl))

/-! ## The Bridy Link ports -/

theorem setBry {n p} (h : Keeps s t) : Keeps s (setBry t n p) := .frame h rfl
theorem modBry {n f} (h : Keeps s t) : Keeps s (modBry t n f) := .setBry h

/-! ## Flits (Table 17-1) -/

theorem emitFlit {n f} (h : Keeps s t) : Keeps s (emitFlit t n f) := .frame h rfl
theorem sendCtl {n ftype fseq lflags} (h : Keeps s t) : Keeps s (sendCtl t n ftype fseq lflags) := .setBry (.emitFlit h)
theorem txPump {k n} (h : Keeps s t) : Keeps s (txPump k t n) := by
  induction k generalizing t with
  | zero => exact h
  | succ k ih =>
    unfold Machine.txPump
    refine .ite h ?_
    split
    · exact h
    · have hpay (l : List Nat) : Keeps s (l.foldl (fun u _ => Machine.ciphPacket u) t) := .foldl h (fun _ _ hu => .ciphPacket hu)
      exact .ite (ih (.setBry (hpay _))) (ih (.setBry (.emitFlit (hpay _))))
theorem pump {n} (h : Keeps s t) : Keeps s (pump t n) := .txPump h

/-! ## Packets out (Tables 17-2, 17-3, R382) -/

theorem sendPacket {n cls ptype body} (h : Keeps s t) : Keeps s (sendPacket t n cls ptype body) := .pump (.setBry h)
theorem sendRdy {n key grant} (h : Keeps s t) : Keeps s (sendRdy t n key grant) := .sendPacket h
theorem issuePre {n} (h : Keeps s t) : Keeps s (issuePre t n) := .sendRdy (.modBry h)
theorem issueAll {k n} (h : Keeps s t) : Keeps s (issueAll k t n) := by
  induction k generalizing t with
  | zero => exact h
  | succ k ih => exact ih (.issuePre h)

/-! ## States (R378) -/

theorem lapseGrants {n} (h : Keeps s t) : Keeps s (lapseGrants t n) := .frame h rfl
theorem bryDown {n cause} (h : Keeps s t) : Keeps s (bryDown t n cause) := .modBry h
theorem bryHalt {n cause} (h : Keeps s t) : Keeps s (bryHalt t n cause) := .modBry (.lapseGrants h)
theorem bryTrain {n} (h : Keeps s t) : Keeps s (bryTrain t n) := .modBry h
theorem bryCtlWrite {n v} (h : Keeps s t) : Keeps s (bryCtlWrite t n v) := .regWrite h
theorem doBridyPortEnable {_p n v} (h : Keeps s t) : Keeps s (doBridyPortEnable _p n v t) :=
  .ite h (.ite (.bryTrain (.modBry (.bryCtlWrite h))) (.bryCtlWrite h))
theorem bryDisable {n} (h : Keeps s t) : Keeps s (bryDisable t n) := .modBry (.lapseGrants h)
theorem doBridyPortDisable {_p n v} (h : Keeps s t) : Keeps s (doBridyPortDisable _p n v t) := .ite h (.bryDisable (.bryCtlWrite h))
theorem doRetrainDelay {n} (h : Keeps s t) : Keeps s (doRetrainDelay n t) := .ite (.bryTrain (.modBry h)) h
theorem doLinkSilent {n} (h : Keeps s t) : Keeps s (doLinkSilent n t) := .ite (.bryDown h) h
theorem doTxEpochChange {_p n v} (h : Keeps s t) : Keeps s (doTxEpochChange _p n v t) :=
  .ite h (.ite (.regWrite h) (.modBry (.regWrite h)))

/-! ## Reception -/

theorem fecCount {n corr uncorr} (h : Keeps s t) : Keeps s (fecCount t n corr uncorr) := .modBry h
theorem laneSwapped {n dir lane} (h : Keeps s t) : Keeps s (laneSwapped t n dir lane) := .logEvent (.logEvent (.rasCount (.frame h rfl)))
theorem takeLink {n f} (h : Keeps s t) : Keeps s (takeLink t n f) := .ite (.laneSwapped (.setBry (.modBry h))) (.modBry h)
theorem doIdleFlit {n f corr uncorr} (h : Keeps s t) : Keeps s (doIdleFlit n f corr uncorr t) :=
  .ite (.pump (.takeLink (.fecCount h))) (.fecCount h)
theorem doRetryReq {n f corr uncorr} (h : Keeps s t) : Keeps s (doRetryReq n f corr uncorr t) :=
  .ite (.pump (.modBry (.foldl (.takeLink (.fecCount h)) (fun _ _ hu => .emitFlit hu)))) (.fecCount h)
theorem askRetry {n} (h : Keeps s t) : Keeps s (askRetry t n) := .sendCtl (.modBry h)
theorem doRetryReqRepeat {n} (h : Keeps s t) : Keeps s (doRetryReqRepeat n t) := by
  unfold Machine.doRetryReqRepeat
  dsimp only
  split
  · exact .ite (.askRetry h) h
  · exact h
theorem doSwapReq {n f corr uncorr} (h : Keeps s t) : Keeps s (doSwapReq n f corr uncorr t) := by
  unfold Machine.doSwapReq
  refine .ite ?_ (.fecCount h)
  dsimp only
  split
  · exact .sendCtl (.laneSwapped (.modBry (.takeLink (.fecCount h))))
  · exact .ite (.sendCtl (.takeLink (.fecCount h))) (.takeLink (.fecCount h))
theorem doLaneFault {n lane} (h : Keeps s t) : Keeps s (doLaneFault n lane t) :=
  .ite h (.ite (.bryDown h) (.ite h (.sendCtl (.setBry h))))
theorem doSwapReqRepeat {n} (h : Keeps s t) : Keeps s (doSwapReqRepeat n t) := by
  unfold Machine.doSwapReqRepeat
  dsimp only
  split
  · exact .ite (.sendCtl (.setBry h)) h
  · exact h
theorem bryUp {n devser nextF rtt} (h : Keeps s t) : Keeps s (bryUp t n devser nextF rtt) :=
  .pump (.ite (.issueAll (.foldl (.modBry h) (fun _ _ hu => .emitFlit hu))) (.foldl (.modBry h) (fun _ _ hu => .emitFlit hu)))
theorem doTrainFlit {n devser nextF rtt} (h : Keeps s t) : Keeps s (doTrainFlit n devser nextF rtt t) :=
  .ite h (.ite (.modBry h) (.ite (.bryHalt h) (.bryUp h)))

/-! ## Packets in (R373, R382) -/

theorem authFailed {n pctr e} (h : Keeps s t) : Keeps s (authFailed t n pctr e) := .bryHalt (.logEvent (.modBry h))
theorem takePacket {n cls pkt} (h : Keeps s t) : Keeps s (takePacket t n cls pkt) := by
  unfold Machine.takePacket
  refine .ite (.modBry h) ?_
  dsimp only
  split
  · exact .authFailed (.ciphPacket h)
  · exact .ite (.modBry (.ciphPacket h)) (.authFailed (.ciphPacket h))
theorem rxParse {k n c bs} (h : Keeps s t) : Keeps s (rxParse k t n c bs) := by
  induction k generalizing t bs with
  | zero => exact h
  | succ k ih =>
    unfold Machine.rxParse
    exact .ite h (.ite (.modBry h) (.ite (.modBry h) (.ite (.modBry (.modBry h)) (.ite (.modBry h) (ih (.takePacket h))))))
theorem rxPayload {n f} (h : Keeps s t) : Keeps s (rxPayload t n f) := by
  unfold Machine.rxPayload
  dsimp only
  split
  · exact .rxParse h
  · exact .ite (.rxParse h) h
theorem doPayloadFlit {n f corr uncorr} (h : Keeps s t) : Keeps s (doPayloadFlit n f corr uncorr t) :=
  .ite (.fecCount h) (.ite (.askRetry (.modBry (.fecCount h))) (.ite (.askRetry (.modBry (.takeLink (.fecCount h)))) (.ite (.sendCtl
    (.pump (.rxPayload (.modBry (.takeLink (.fecCount h)))))) (.pump (.rxPayload (.modBry (.takeLink (.fecCount h))))))))
theorem takeInbox {n cls ptype} (h : Keeps s t) : KeepsO s ((takeInbox t n cls ptype).map (·.2)) := by
  unfold Machine.takeInbox
  split
  · split
    · rw [Option.map_some]
      dsimp only
      exact .some (.modBry h)
    · exact .none
  · exact .none
theorem doMsgPacket {n} (h : Keeps s t) : Keeps s (doMsgPacket n t) := by
  unfold Machine.doMsgPacket
  split
  next e =>
    exact .modBry (.of_some_snd e (Keeps.takeInbox h))
  · exact h

/-! ## The pool of the Ledger store -/

theorem modVol {v f} (h : Keeps s t) : Keeps s (modVol t v f) := .led h (fun _ => rfl)

/-! ## Writing drives -/

theorem drvWrite {blk bs} (h : Keeps s t) : Keeps s (drvWrite t blk bs) :=
  .withDrives h (fun hd => drivesOk_map hd (fun p hp => by
    split
    · exact memWf_mwrite _ _ hp
    · exact hp))
theorem superWrite {q} (h : Keeps s t) : Keeps s (superWrite t q) := by
  unfold Machine.superWrite
  refine .withDrives h (fun hd => drivesOk_map hd (fun p hp => ?_))
  split
  · exact memWf_mwrite _ _ hp
  · exact hp
theorem superMod {f} (h : Keeps s t) : Keeps s (superMod t f) := by
  unfold Machine.superMod
  split
  · exact .superWrite h
  · exact h

/-! ## Allocation (R346, R358, R360) -/

theorem allocBlocks {n} (h : Keeps s t) : Keeps s (allocBlocks t n).2 := by
  unfold Machine.allocBlocks
  split
  · exact h
  · dsimp only
    exact .led h (fun _ => rfl)
theorem freeBlocks {bs} (h : Keeps s t) : Keeps s (freeBlocks t bs) := .led h (fun _ => rfl)
theorem retireDrive {d} (h : Keeps s t) : Keeps s (retireDrive t d) := by
  unfold Machine.retireDrive
  refine .withDrives h (fun hd q hq => ?_)
  unfold tupd at hq
  split at hq
  next v hv =>
    obtain ⟨p, hp, rfl⟩ := mem_of_tget hv
    have hm : memWf p.2.mem = true := hd p hp
    rcases mem_tset hq with hq | hq
    · rw [hq]
      exact hm
    · exact hd q hq
  next => exact hd q hq
theorem spareBlock {d} (h : Keeps s t) : Keeps s (spareBlock t d).2 := by
  unfold Machine.spareBlock
  split
  · exact h
  · dsimp only
    split
    · dsimp only
      exact .led h (fun _ => rfl)
    · exact .retireDrive h
theorem remapMeta {d b} (h : Keeps s t) : Keeps s (remapMeta t d b) := by
  unfold Machine.remapMeta
  dsimp only
  split
  · exact .superMod (.spareBlock h)
  · exact .spareBlock h

/-! ## Snapshots (R366) -/

theorem beginSnap (h : Keeps s t) : Keeps s (beginSnap t) := .ite h (.led h (fun _ => rfl))

/-! ## Recovery (R365) -/

theorem ledRecover (h : Keeps s t) : Keeps s (ledRecover t) := by
  unfold Machine.ledRecover
  extract_lets cand supers setSt conflict
  have hset (hd : DrivesOk t.led.drives) (f : Nat → Drive → Nat) : DrivesOk (setSt f) := drivesOk_map hd (fun _ hp => hp)
  have hcand (hd : DrivesOk t.led.drives) (x : Nat × Drive × Pool) (hx : x ∈ supers) : memWf x.2.1.mem = true := by
    obtain ⟨d, hdm, hm⟩ := List.mem_filterMap.mp hx
    obtain ⟨q, -, rfl⟩ := Option.map_eq_some_iff.mp hm
    exact hd d (List.mem_filter.mp hdm).1
  clear_value supers setSt
  split
  · exact .withDrives h (fun hd => hset hd _)
  next a rest =>
    extract_lets q best snap page vols lvols mapped fresh rp drv drv' last
    have hbest (hd : DrivesOk t.led.drives) : memWf best.2.mem = true := by
      refine List.foldlRecOn (motive := fun b : List Sector × Drive => memWf b.2.mem = true) _ _ (hcand hd a List.mem_cons_self)
        (fun b hb x hx => ?_)
      dsimp only
      split
      · exact hcand hd x hx
      · exact hb
    have hdrv (hd : DrivesOk t.led.drives) : DrivesOk drv := by
      unfold drv
      exact hset hd _
    have hdrv' (hd : DrivesOk t.led.drives) : DrivesOk drv' := by
      refine drivesOk_map (hdrv hd) (fun p hp => ?_)
      split
      · exact memWf_foldl_mcopy _ _ hp (hbest hd)
      · exact hp
    exact .ite (.withDrives h (fun hd => hset hd _)) (.withDrives h hdrv')

/-! ## The Ledger engine -/

theorem setCmd {c v} (h : Keeps s t) : Keeps s (setCmd t c v) := .led h (fun _ => rfl)
theorem modCmd {c f} (h : Keeps s t) : Keeps s (modCmd t c f) := .led h (fun _ => rfl)
theorem modCu {u' f} (h : Keeps s t) : Keeps s (modCu t u' f) := .led h (fun _ => rfl)

/-! ## Freezes (R361) and the replay table (R357) -/

theorem freezeVol {v st} (h : Keeps s t) : Keeps s (freezeVol t v st) := .modVol h
theorem freezeFor {v st} (h : Keeps s t) : Keeps s (freezeFor t v st) :=
  .ite (.foldl h (fun _ _ hu => .freezeVol hu)) (.ite (.freezeVol h) h)
theorem rpMake {src key lcmd vol cmd} (h : Keeps s t) : Keeps s (rpMake t src key lcmd vol cmd) := by
  unfold Machine.rpMake
  refine .led (.ite h ?_) (fun _ => rfl)
  split
  · exact .led h (fun _ => rfl)
  · exact h
theorem rpDone {c st r0 r1 committed} (h : Keeps s t) : Keeps s (rpDone t c st r0 r1 committed) := .led h (fun _ => rfl)
theorem countDup (h : Keeps s t) : Keeps s (countDup t) := .led h (fun _ => rfl)

/-! ## The end of a command (R344, R345) -/

theorem sendRsp {n key st r0 r1} (h : Keeps s t) : Keeps s (sendRsp t n key st r0 r1) := .sendPacket h
theorem ledCommitItem {id} (h : Keeps s t) : Keeps s (ledCommitItem t id) := by
  unfold Machine.ledCommitItem
  split
  · exact .ite (.schedule (.leaveFlow (.modItem (.deadlineCheck h)))) h
  · exact h
theorem ledItemEnd {id st r0 r1 dup} (h : Keeps s t) : Keeps s (ledItemEnd t id st r0 r1 dup) := by
  unfold Machine.ledItemEnd
  refine .ite (.engineFail (.ite (.modItem h) h)) ?_
  split
  · exact .ite (.closeItem (.modItem (.ite (.modItem h) h))) (.engineDone (.ite (.modItem h) h))
  · exact .ite (.modItem h) h
theorem ledAnswer {c st r0 r1} (h : Keeps s t) : Keeps s (ledAnswer t c st r0 r1) := by
  unfold Machine.ledAnswer
  refine .foldl ?_ (fun _ _ hu => .ledItemEnd hu)
  split
  · exact .ledItemEnd h
  · exact .getD (.map (fun _ => .issuePre (.sendRsp h))) (.sendRsp h)
  · exact h
theorem endCmd {k st r0 r1} (h : Keeps s t) : Keeps s (endCmd t k st r0 r1) := by
  unfold Machine.endCmd
  split
  · exact h
  · exact .ledAnswer (.ite (.rpDone (.led h (fun _ => rfl))) (.freezeFor (.rpDone (.led h (fun _ => rfl)))))
theorem endCmdFree {k} (h : Keeps s t) : Keeps s (endCmdFree t k) := .endCmd (.freeRes (.freeRes h))

/-! ## Records (R348) -/

theorem putRec {vol k flags payload} (h : Keeps s t) : Keeps s (putRec t vol k flags payload) := by
  unfold Machine.putRec
  exact .modVol h
theorem dropRecs {vol gone} (h : Keeps s t) : Keeps s (dropRecs t vol gone) := by
  unfold Machine.dropRecs
  exact .modVol (.foldl (.modVol h) (fun _ _ hu => .putRec hu))

/-! ## Forwarding (R355, R374 to R376, R380) -/

theorem sendData {n key data} (h : Keeps s t) : Keeps s (sendData t n key data) := .foldl h (fun _ _ hu => .sendPacket hu)
theorem sendFwd {f n} (h : Keeps s t) : Keeps s (sendFwd t f n) :=
  .ite (.sendData (.sendPacket (.ite (.modBry h) h))) (.sendPacket (.ite (.modBry h) h))
theorem fwdNow {u' c f} (h : Keeps s t) : Keeps s (fwdNow t u' c f) :=
  .sendFwd (.ite (.modCu (.led h (fun _ => rfl))) (.foldl (.modCu (.led h (fun _ => rfl))) (fun _ _ hu => .getD (.map (fun _ =>
    .ledCommitItem hu)) hu)))
theorem forward {u' f} (h : Keeps s t) : Keeps s (forward t u' f) := by
  unfold Machine.forward
  split
  · exact h
  · exact .ite h (.modCu h)
theorem addCu {c} (h : Keeps s t) : Keeps s (addCu t c).2 := by
  unfold Machine.addCu
  dsimp only
  exact .led h (fun _ => rfl)

/-! ## Starting a QUEUED command (R344, R346, R349, R354) -/

theorem startWrite {k c data} (h : Keeps s t) : Keeps s (startWrite t k c data) := .forward (.setCmd (.addCu (.allocBlocks h)))
theorem startTrim {k c} (h : Keeps s t) : Keeps s (startTrim t k c) := .forward (.setCmd (.addCu h))
theorem closeGroup {vol} (h : Keeps s t) : Keeps s (closeGroup t vol) := by
  unfold Machine.closeGroup
  dsimp only
  split
  · exact .forward (.modVol (.foldl (.addCu (.allocBlocks h)) (fun _ _ hu => .modCmd hu)))
  · exact h
theorem peerAppend {k c} (h : Keeps s t) : Keeps s (peerAppend t k c) :=
  .ite (.endCmd (.closeGroup h)) (.ite (.endCmd (.ite (.modVol (.addCu (.closeGroup h))) (.closeGroup h))) (.ite (.endCmd (.ite
    (.modVol (.addCu (.closeGroup h))) (.closeGroup h))) (.closeGroup (.foldl (.setCmd (.ite (.modVol (.addCu (.closeGroup h)))
    (.closeGroup h))) (fun _ _ hu => .putRec hu)))))
theorem stageData {k c} (h : Keeps s t) : Keeps s (stageData t k c) := by
  unfold Machine.stageData
  split
  · exact .dataXfer (.setCmd h)
  · exact h
theorem enqueueCmd {k c} (h : Keeps s t) : Keeps s (enqueueCmd t k c) := by
  unfold Machine.enqueueCmd
  dsimp only
  split
  · exact .setCmd h
  · exact .ite (.endCmd h) (.putRec (.setCmd h))
  · exact .setCmd h
theorem startCmd {k c} (h : Keeps s t) : Keeps s (startCmd t k c) := by
  unfold Machine.startCmd
  dsimp only
  split
  · exact .setCmd h
  · exact .ite (.ite (.startWrite h) (.setCmd h)) (.ite (.stageData h) (.ite (.endCmd h) (.startWrite (.itemTouch h))))
  · exact .ite (.ite (.peerAppend h) (.setCmd h)) (.ite (.stageData h) (.setCmd h))
  · exact .forward (.setCmd (.addCu h))
  · exact .startTrim h
  · exact .setCmd h

/-! ## Commits (R346, R347, R366) -/

theorem issueCu {u' c} (h : Keeps s t) : Keeps s (issueCu t u' c) := by
  unfold Machine.issueCu
  refine .ite ?_ (.foldl (.led h (fun _ => rfl)) (fun _ _ hu => .getD (.map (fun _ => .ledCommitItem (.modCmd hu))) (.modCmd hu)))
  split
  · exact .ledCommitItem (.foldl (.led h (fun _ => rfl)) (fun _ _ hv => .getD (.map (fun _ => .ledCommitItem (.modCmd hv))) (.modCmd
      hv)))
  · exact .foldl (.led h (fun _ => rfl)) (fun _ _ hv => .getD (.map (fun _ => .ledCommitItem (.modCmd hv))) (.modCmd hv))
theorem makeDurable {u' c} (h : Keeps s t) : Keeps s (makeDurable t u' c) :=
  .ite (.led (.led (.ite (.modVol (.freeBlocks h)) (.modVol (.freeBlocks h))) (fun _ => rfl)) (fun _ => rfl)) (.led (.ite (.modVol
    (.freeBlocks h)) (.modVol (.freeBlocks h))) (fun _ => rfl))
theorem advanceDurable {n} (h : Keeps s t) : Keeps s (advanceDurable n t) := by
  induction n generalizing t with
  | zero => exact h
  | succ n ih =>
    unfold Machine.advanceDurable
    split
    · exact ih (.ite (.beginSnap (.makeDurable h)) (.makeDurable h))
    · exact h

/-! ## What moves next -/

theorem cmdMove {k c} (h : Keeps s t) : KeepsO s (cmdMove t k c) := by
  unfold Machine.cmdMove
  split
  · exact .ite (.some (.enqueueCmd h)) .none
  · exact .ite .none (.some (.startCmd h))
  · exact .ite (.some (.startCmd h)) .none
  · refine .ite .none (.some ?_)
    split
    · exact .endCmd h
    · exact .endCmdFree h
  · exact .ite (.some (.endCmd (.led (.freeRes h) (fun _ => rfl)))) .none
  · exact .none
theorem cuMove {u' c} (h : Keeps s t) : KeepsO s (cuMove t u' c) := by
  unfold Machine.cuMove
  split
  · exact .ite (.some (.fwdNow h)) .none
  · exact .ite (.ite (.some (.issueCu h)) (.ite .none (.some (.modCu (.led h (fun _ => rfl)))))) (.ite (.some (.foldl (.modCu h) (fun _ _
      hu => .endCmdFree hu))) (.ite (.some (.led h (fun _ => rfl))) .none))
theorem opMove (h : Keeps s t) : KeepsO s (opMove t) := by
  unfold Machine.opMove
  split
  · exact .ite .none (.some (.addCu (.led h (fun _ => rfl))))
  · exact .none
theorem firstMove {l} (h : Keeps s t) : KeepsO s (firstMove l t) := by
  induction l with
  | nil => exact .none
  | cons p l ih => exact .or (Keeps.cmdMove h) ih
theorem firstCu {l} (h : Keeps s t) : KeepsO s (firstCu l t) := by
  induction l with
  | nil => exact .none
  | cons p l ih => exact .or (Keeps.cuMove h) ih
theorem ledAdvance {n} (h : Keeps s t) : Keeps s (ledAdvance n t) := by
  induction n generalizing t with
  | zero => exact h
  | succ n ih =>
    unfold Machine.ledAdvance
    split
    next e => exact ih (.of_some e (.or (Keeps.firstMove h) (.or (Keeps.firstCu h) (Keeps.opMove h))))
    next => exact h
theorem ledRun (h : Keeps s t) : Keeps s (ledRun t) := .ledAdvance h

/-! ## Acceptance -/

theorem acceptCmd {c} (h : Keeps s t) : Keeps s (acceptCmd t c).2 := by
  unfold Machine.acceptCmd
  dsimp only
  exact .led h (fun _ => rfl)

/-! ## Host LEDGER items (Table 16-3, R343) -/

theorem ledAttach {id c} (h : Keeps s t) : Keeps s (ledAttach t id c) := by
  unfold Machine.ledAttach
  exact .led (.toEngine (.countDup h)) (fun _ => rfl)
theorem ledStored {id e} (h : Keeps s t) : Keeps s (ledStored t id e) :=
  .ite (.failItem (.modItem (.countDup h))) (.itemReady (.modItem (.countDup h)))
theorem ledNothing {id} (h : Keeps s t) : Keeps s (ledNothing t id) := .itemReady (.freeRes (.freeRes h))

/-! ## Commands of the peer (R344, R374 to R376) -/

theorem peerAccept {n p} (h : Keeps s t) : Keeps s (peerAccept t n p) :=
  .rpMake (.acceptCmd (.ite (.modBry h) (.ite h (.sendRdy (.modBry h)))))
theorem peerAttach {n p k} (h : Keeps s t) : Keeps s (peerAttach t n p k) := by
  unfold Machine.peerAttach
  refine .ite (.issuePre (.modBry (.modCmd h))) ?_
  split
  · split
    · exact .ite (.modCmd h) (.sendRdy (.modCmd h))
    · exact .modCmd h
  · exact .modCmd h
theorem peerCmd {n p} (h : Keeps s t) : Keeps s (peerCmd t n p) := by
  unfold Machine.peerCmd
  dsimp only
  split
  · exact .sendRsp h
  · exact .peerAttach (.countDup h)
  · exact .sendRsp (.countDup h)
  · exact .sendRsp (.freeRes (.freeRes h))
  · exact .ite (.peerAccept h) (.led h (fun _ => rfl))
theorem peerRetry {n} (h : Keeps s t) : Keeps s (peerRetry n t) := by
  induction n generalizing t with
  | zero => exact h
  | succ n ih =>
    unfold Machine.peerRetry
    split
    · exact .ite (ih (.ledRun (.peerCmd (.led h (fun _ => rfl))))) h
    · exact h
theorem ledTick (h : Keeps s t) : Keeps s (ledTick t) := .peerRetry (.ledRun h)

/-! ## The item commands -/

theorem ledAccept {id it b data} (h : Keeps s t) : Keeps s (ledAccept t id it b data) := .ledTick (.toEngine (.rpMake (.acceptCmd h)))
theorem ledItem {id codes go} (h : Keeps s t) (hgo : ∀ u it b, Keeps s u → Keeps s (go u it b)) : Keeps s (ledItem id codes go t) := by
  unfold Machine.ledItem
  split
  · exact h
  · refine .ite h ?_
    split
    · exact .failItem h
    · exact .ledAttach h
    · exact .ledStored h
    · exact .ledNothing h
    · exact .ite (hgo _ _ _ h) h
theorem doLedgerRead {id} (h : Keeps s t) : Keeps s (doLedgerRead id t) := .ledItem h (fun _ _ _ hu => .ledAccept hu)
theorem doLedgerWrite {id} (h : Keeps s t) : Keeps s (doLedgerWrite id t) := .ledItem h (fun _ _ _ hu => .ledAccept hu)
theorem doLedgerAppend {id} (h : Keeps s t) : Keeps s (doLedgerAppend id t) :=
  .ledItem h (fun _ _ _ hu => .ite (.failItem hu) (.ledAccept (.itemTouch hu)))
theorem doLedgerFlush {id} (h : Keeps s t) : Keeps s (doLedgerFlush id t) := .ledItem h (fun _ _ _ hu => .ledAccept hu)
theorem doLedgerTrim {id} (h : Keeps s t) : Keeps s (doLedgerTrim id t) := .ledItem h (fun _ _ _ hu => .ledAccept hu)
theorem doLogRead {id} (h : Keeps s t) : Keeps s (doLogRead id t) := .ledItem h (fun _ _ _ hu => .ledAccept hu)
theorem doLedgerResume {id} (h : Keeps s t) : Keeps s (doLedgerResume id t) :=
  .ledItem h (fun _ _ _ hu => .ledTick (.itemReady (.rpDone (.freeRes (.foldl (.dropRecs (.modVol (.rpMake (.led hu (fun _ =>
    rfl))))) (fun _ _ hv => .endCmd hv))))))

/-! ## Standing APPENDs (R23, R344, R361) -/

theorem journalRelease {it vol payload} (h : Keeps s t) : KeepsE s (journalRelease t it vol payload) := by
  unfold Machine.journalRelease
  split
  · exact .error
  · exact .ok (.ledTick (.acceptCmd h))

/-! ## Events of the drives (R344 to R347, R349, R360, R366) -/

theorem mediaFail (h : Keeps s t) : Keeps s (mediaFail t) :=
  .freezeFor (.led (.foldl (.foldl h (fun _ _ hu => .endCmd hu)) (fun _ _ hu => .dropRecs hu)) (fun _ => rfl))
theorem driveFault (h : Keeps s t) : Keeps s (driveFault t) := .rasCount h
theorem afterDrives (h : Keeps s t) : Keeps s (afterDrives t) := .ite (.mediaFail h) h
theorem doLedgerDataWriteDone {c bad} (h : Keeps s t) : Keeps s (doLedgerDataWriteDone c bad t) := by
  unfold Machine.doLedgerDataWriteDone
  split
  · exact h
  · refine .ite (.ledTick h) (.ite h ?_)
    extract_lets step z moved ents u
    have hz : Keeps s z.2.2 := by
      refine foldlState (g := fun z : List (Nat × List Byte) × List (Nat × Nat) × State => z.2.2) h (fun z x hz => ?_)
      have hb {a} : Keeps s (Machine.spareBlock (Machine.driveFault z.2.2) a).2 := .spareBlock (.driveFault hz)
      unfold step
      split
      · exact hz
      · dsimp only
        split
        · exact hb
        · dsimp only
          exact .led hb (fun _ => rfl)
    exact .ledTick (.afterDrives (.modCu (.foldl hz (fun _ _ hu => .drvWrite hu))))
theorem doCommitSectorDone {u' bad} (h : Keeps s t) : Keeps s (doCommitSectorDone u' bad t) := by
  unfold Machine.doCommitSectorDone
  split
  · exact h
  · refine .ite h (.ledTick (.afterDrives (.advanceDurable (.modCu (.drvWrite ?_)))))
    split
    · exact .remapMeta (.driveFault h)
    · exact h
theorem doSnapshotDone (h : Keeps s t) : Keeps s (doSnapshotDone t) := by
  unfold Machine.doSnapshotDone
  split
  · refine .ledTick (.superMod (.withDrives h (fun hd => drivesOk_map hd (fun p hp => ?_))))
    split
    · exact hp
    · exact hp
  · exact h
theorem readOut {k c n} (h : Keeps s t) : Keeps s (readOut t k c n) := by
  unfold Machine.readOut
  split
  · exact .dataXfer h
  · exact h
theorem doLedgerReadDone {k bad} (h : Keeps s t) : Keeps s (doLedgerReadDone k bad t) := by
  unfold Machine.doLedgerReadDone
  split
  · exact h
  · exact .ite h (.ite (.ledTick (.endCmd h)) (.ite (.ledTick (.readOut (.setCmd (.memWrite h)))) (.ite (.ledTick (.endCmd h)) (.ledTick
      (.readOut (.setCmd (.memWrite h)))))))
theorem doAppendGroupClose {vol} (h : Keeps s t) : Keeps s (doAppendGroupClose vol t) := by
  unfold Machine.doAppendGroupClose
  dsimp only
  split
  · exact .ite (.ledTick (.closeGroup h)) h
  · exact h
theorem doDriveStopsAnswering {d} (h : Keeps s t) : Keeps s (doDriveStopsAnswering d t) := by
  unfold Machine.doDriveStopsAnswering
  split
  · exact .ite (.ledTick (.afterDrives (.retireDrive (.driveFault h)))) h
  · exact h

/-! ## Events of the peer (R355, R356, R359, R375, R376) -/

theorem fwdFail {u' st} (h : Keeps s t) : Keeps s (fwdFail t u' st) := by
  unfold Machine.fwdFail
  split
  · exact h
  · exact .ite (.led (.foldl (.freezeVol (.modCu h)) (fun _ _ hu => .endCmd hu)) (fun _ => rfl)) (.foldl (.freezeVol (.modCu h)) (fun _ _
      hu => .endCmd hu))
theorem doPeerRspTimeout {u'} (h : Keeps s t) : Keeps s (doPeerRspTimeout u' t) := by
  unfold Machine.doPeerRspTimeout
  split
  · exact h
  · exact .ite h (.ite (.ledTick (.fwdFail h)) (.sendFwd (.led (.modCu h) (fun _ => rfl))))
theorem doXferGrantTimeout {k} (h : Keeps s t) : Keeps s (doXferGrantTimeout k t) := by
  unfold Machine.doXferGrantTimeout
  split
  · exact h
  · exact .ite (.ledTick (.endCmd h)) h
theorem doBridyCmd {n} (h : Keeps s t) : Keeps s (doBridyCmd n t) := by
  unfold Machine.doBridyCmd
  split
  next e =>
    exact .ledTick (.peerCmd (.of_some_snd e (Keeps.takeInbox h)))
  · exact h
theorem doXferRdy {n} (h : Keeps s t) : Keeps s (doXferRdy n t) := by
  unfold Machine.doXferRdy
  split
  · exact h
  next e =>
    refine .ite (.modBry (.of_some_snd e (Keeps.takeInbox h))) ?_
    split
    · exact .sendData (.of_some_snd e (Keeps.takeInbox h))
    · exact .of_some_snd e (Keeps.takeInbox h)
theorem doDataPacket {n} (h : Keeps s t) : Keeps s (doDataPacket n t) := by
  unfold Machine.doDataPacket
  split
  · exact h
  next e =>
    dsimp only
    split
    · exact .modBry (.of_some_snd e (Keeps.takeInbox h))
    · exact .ite (.ledTick (.endCmd (.of_some_snd e (Keeps.takeInbox h)))) (.ledTick (.setCmd (.of_some_snd e (Keeps.takeInbox h))))
theorem doRspPacket {n} (h : Keeps s t) : Keeps s (doRspPacket n t) := by
  unfold Machine.doRspPacket
  split
  · exact h
  next e =>
    dsimp only
    split
    · exact .of_some_snd e (Keeps.takeInbox h)
    · exact .ite (.ledTick (.fwdFail (.of_some_snd e (Keeps.takeInbox h)))) (.ledTick (.modCu (.of_some_snd e (Keeps.takeInbox h))))

/-! ## Sanitise, format, rebuild (R341, R363, R364) -/

theorem startOp {o} (h : Keeps s t) : Keeps s (startOp t o) := by
  unfold Machine.startOp
  refine .ite ?_ (.superMod (.led h (fun _ => rfl)))
  split
  · exact .ledCommitItem (.superMod (.led h (fun _ => rfl)))
  · exact .superMod (.led h (fun _ => rfl))
theorem queueOp {id it kind vol lcmd body st} (h : Keeps s t) : Keeps s (queueOp t id it kind vol lcmd body st) :=
  .ledTick (.ite (.led (.toEngine (.ite (.modVol (.rpMake (.led h (fun _ => rfl)))) (.rpMake (.led h (fun _ => rfl))))) (fun _ =>
    rfl)) (.startOp (.toEngine (.ite (.modVol (.rpMake (.led h (fun _ => rfl)))) (.rpMake (.led h (fun _ => rfl)))))))
theorem opItem {id it bad own vol lcmd post go} (h : Keeps s t) (hgo : ∀ u, Keeps s u → Keeps s (go u)) :
    Keeps s (opItem t id it bad own vol lcmd post go) := by
  unfold Machine.opItem
  refine .ite (.failItem h) (.ite (.toEngine (.led (.countDup h) (fun _ => rfl))) ?_)
  split
  · exact .failItem h
  · exact .ledAttach h
  · exact .ledStored h
  · exact h
  · split
    · exact .failItem h
    · exact hgo _ h
theorem doSanitise {id} (h : Keeps s t) : Keeps s (doSanitise id t) := by
  unfold Machine.doSanitise
  split
  · exact h
  · exact .opItem h (fun _ hu => .queueOp hu)
theorem doFormat {id} (h : Keeps s t) : Keeps s (doFormat id t) := by
  unfold Machine.doFormat
  split
  · exact h
  · exact .ite h (.opItem h (fun _ hu => .queueOp hu))
theorem freshPool (h : Keeps s t) : Keeps s (freshPool t) := by
  unfold Machine.freshPool
  refine .ite h (.superWrite (.superWrite (.withDrives (.frame h rfl) (fun hd => drivesOk_map hd (fun p hp => ?_)))))
  split
  · exact memWf_mzero _ _ hp
  · exact hp
theorem doPoolFormat {id} (h : Keeps s t) : Keeps s (doPoolFormat id t) := by
  unfold Machine.doPoolFormat
  split
  · exact h
  · exact .ite h (.opItem h (fun _ hu => .ite (.queueOp (.freshPool hu)) hu))
theorem doDriveRebuild {id} (h : Keeps s t) : Keeps s (doDriveRebuild id t) := by
  unfold Machine.doDriveRebuild
  split
  · exact h
  · refine .ite h (.opItem h (fun u hu => .ite hu (.queueOp (.withDrives hu (fun hd => drivesOk_map hd (fun p hp => ?_))))))
    split
    · exact hp
    · exact hp
theorem doOpProgressRecord {gib} (h : Keeps s t) : Keeps s (doOpProgressRecord gib t) := by
  unfold Machine.doOpProgressRecord
  split
  · exact .ite h (.superMod (.led h (fun _ => rfl)))
  · exact h
theorem opWork {o} (h : Keeps s t) : Keeps s (opWork t o) := by
  unfold Machine.opWork
  split
  · exact h
  · refine .ite (.withDrives h (fun hd => drivesOk_map hd (fun p hp => ?_))) (.ite ?_ h)
    · split
      · exact memWf_filter hp _
      · exact hp
    · split
      next src hsrc =>
        refine .withDrives h (fun hd => drivesOk_map hd (fun p hp => ?_))
        split
        · have hm := hd _ (List.mem_of_find?_eq_some hsrc)
          exact hm
        · exact hp
      · exact h
theorem doLedgerOpEnd (h : Keeps s t) : Keeps s (doLedgerOpEnd t) := by
  unfold Machine.doLedgerOpEnd
  split
  · exact h
  · refine .ite h ?_
    dsimp only
    split
    · refine .ledTick (.startOp (.led (.foldl ?_ (fun _ _ hu => .ledItemEnd hu)) (fun _ => rfl)))
      split
      · exact .ledItemEnd (.rpDone (.freeRes (.freeRes (.ite (.modVol (.superMod (.led (.opWork h) (fun _ => rfl)))) (.superMod (.led
          (.opWork h) (fun _ => rfl)))))))
      · exact .rpDone (.freeRes (.freeRes (.ite (.modVol (.superMod (.led (.opWork h) (fun _ => rfl)))) (.superMod (.led (.opWork h)
          (fun _ => rfl))))))
    · refine .ledTick (.foldl ?_ (fun _ _ hu => .ledItemEnd hu))
      split
      · exact .ledItemEnd (.rpDone (.freeRes (.freeRes (.ite (.modVol (.superMod (.led (.opWork h) (fun _ => rfl)))) (.superMod (.led
          (.opWork h) (fun _ => rfl)))))))
      · exact .rpDone (.freeRes (.freeRes (.ite (.modVol (.superMod (.led (.opWork h) (fun _ => rfl)))) (.superMod (.led (.opWork h)
          (fun _ => rfl))))))

/-! ## ABORT of a Ledger item (R309, R345) -/

theorem reopenGroup {u'} (h : Keeps s t) : Keeps s (reopenGroup t u') := by
  unfold Machine.reopenGroup
  split
  · exact h
  · exact .ite h (.modVol (.led (.foldl h (fun _ _ hu => .freeBlocks hu)) (fun _ => rfl)))
theorem ledDrop {id} (h : Keeps s t) : Keeps s (ledDrop t id) := by
  unfold Machine.ledDrop
  refine .ledTick ?_
  split
  · refine .ite (.modVol (.superMod (.led (.led (.foldl (.foldl h (fun _ _ hu => ?_)) (fun _ _ hu => .ite (.modVol hu) hu)) (fun _ =>
      rfl)) (fun _ => rfl)))) (.led (.foldl (.foldl h (fun _ _ hu => ?_)) (fun _ _ hu => .ite (.modVol hu) hu)) (fun _ => rfl))
    · split
      · exact hu
      · refine .foldl (.rpDone (.led ?_ (fun _ => rfl))) (fun _ _ hv => .ledItemEnd hv)
        split
        · exact .ite (.freeBlocks (.led (.dropRecs (.getD (.map (fun _ => .reopenGroup hu)) hu)) (fun _ => rfl))) (.dropRecs (.getD
            (.map (fun _ => .reopenGroup hu)) hu))
        · exact .dropRecs (.getD (.map (fun _ => .reopenGroup hu)) hu)
    · split
      · exact hu
      · refine .foldl (.rpDone (.led ?_ (fun _ => rfl))) (fun _ _ hv => .ledItemEnd hv)
        split
        · exact .ite (.freeBlocks (.led (.dropRecs (.getD (.map (fun _ => .reopenGroup hu)) hu)) (fun _ => rfl))) (.dropRecs (.getD
            (.map (fun _ => .reopenGroup hu)) hu))
        · exact .dropRecs (.getD (.map (fun _ => .reopenGroup hu)) hu)
  · refine .led (.foldl (.foldl h (fun _ _ hu => ?_)) (fun _ _ hu => .ite (.modVol hu) hu)) (fun _ => rfl)
    split
    · exact hu
    · refine .foldl (.rpDone (.led ?_ (fun _ => rfl))) (fun _ _ hv => .ledItemEnd hv)
      split
      · exact .ite (.freeBlocks (.led (.dropRecs (.getD (.map (fun _ => .reopenGroup hu)) hu)) (fun _ => rfl))) (.dropRecs (.getD
          (.map (fun _ => .reopenGroup hu)) hu))
      · exact .dropRecs (.getD (.map (fun _ => .reopenGroup hu)) hu)

/-! ## Runs and tasks -/

theorem taskEntryIn {id it k} (h : Keeps s t) : Keeps s (taskEntryIn t id it k) := .modItem (.insertEntry h)
theorem startTask {id p tile} (h : Keeps s t) : Keeps s (startTask t id p tile) := by
  unfold Machine.startTask
  split
  · exact .ite (.taskEntryIn (.setRun h)) (.frame h rfl)
  · exact h
theorem startTasks {n id} (h : Keeps s t) : Keeps s (startTasks n t id) := by
  induction n generalizing t with
  | zero => exact h
  | succ n ih =>
    unfold Machine.startTasks
    split
    · exact h
    · dsimp only
      split
      · exact h
      · exact ih (.foldl h (fun _ _ hu => .startTask hu))

/-! ## The end of a run -/

theorem freeTables {fn ids} (h : Keeps s t) : Keeps s (freeTables t fn ids) := .frame h rfl
theorem dropPlan {fn id} (h : Keeps s t) : Keeps s (dropPlan t fn id) := by
  unfold Machine.dropPlan
  split
  · exact h
  · exact .freeTables (.dropPrograms (.withPlans h (fun m p hp => m.2.2.2.2.2.2.2.2.2.2 p (mem_terase hp)) rfl))
theorem writeArea {r fin} (h : Keeps s t) : Keeps s (writeArea t r fin) := .ite h (.frame (.hostWrite h) rfl)
theorem writeStats {id fin} (h : Keeps s t) : Keeps s (writeStats t id fin) := by
  unfold Machine.writeStats
  split
  · exact h
  · exact .writeArea h
theorem endRun {id} (h : Keeps s t) : Keeps s (endRun t id) := by
  unfold Machine.endRun
  split
  · exact h
  · exact .foldl (.frame (.frame h rfl) rfl) (fun _ _ hu => .scratchOff hu)
theorem addPlanCounts {r} (h : Keeps s t) : Keeps s (addPlanCounts t r) := by
  unfold Machine.addPlanCounts
  split
  · exact h
  next hp => exact .replan h hp rfl
theorem failRun {id st place} (h : Keeps s t) : Keeps s (failRun t id st place) := by
  unfold Machine.failRun
  refine .failItem (.endRun (.writeStats ?_))
  split
  · exact .addPlanCounts (.modItem h)
  · exact .modItem h

/-! ## The end of a task -/

theorem writeRows {addr w form cols ps} (h : Keeps s t) : Keeps s (writeRows t addr w form cols ps) :=
  .foldl h (fun _ _ hu => .hostWrite hu)
theorem fillReuse {id k g r t'} (h : Keeps s t) : Keeps s (fillReuse t id k g r t') := by
  unfold Machine.fillReuse
  split
  · exact h
  · exact .modTask (.foldl h (fun _ _ hu => .writeRows hu))
theorem settleTask {id k} (h : Keeps s t) : Keeps s (settleTask t id k) := by
  unfold Machine.settleTask
  split
  · refine .ite h (.ite (.modTask (.itemReady h)) ?_)
    dsimp only
    split
    · split
      · exact .endEntry (.modTask (.fillReuse h))
      · exact .modTask (.fillReuse h)
    · refine .schedule ?_
      split
      · refine .ite (.itemReady (.startTasks (.ite (.setRun ?_) ?_))) (.startTasks (.ite (.setRun ?_) ?_))
        · split
          · exact .endEntry (.modTask (.fillReuse h))
          · exact .modTask (.fillReuse h)
        · split
          · exact .endEntry (.modTask (.fillReuse h))
          · exact .modTask (.fillReuse h)
        · split
          · exact .endEntry (.modTask (.fillReuse h))
          · exact .modTask (.fillReuse h)
        · split
          · exact .endEntry (.modTask (.fillReuse h))
          · exact .modTask (.fillReuse h)
      · refine .startTasks (.ite (.setRun ?_) ?_)
        · split
          · exact .endEntry (.modTask (.fillReuse h))
          · exact .modTask (.fillReuse h)
        · split
          · exact .endEntry (.modTask (.fillReuse h))
          · exact .modTask (.fillReuse h)
  · exact h

/-! ## The grant (R74) -/

theorem placeScratch {id g} (h : Keeps s t) : Keeps s (placeScratch t id g) := by
  unfold Machine.placeScratch
  split
  · exact h
  · split
    · exact h
    · refine .setRun (.foldl h (fun _ _ hu => ?_))
      split
      · exact .scratchOn hu
theorem grantRun {id} (h : Keeps s t) : KeepsO s (grantRun t id) := by
  unfold Machine.grantRun
  split
  · exact .none
  · refine .ite .none ?_
    split
    · exact .none
    · exact .some (.schedule (.startTasks (.placeScratch (.setRun h))))
theorem grantOne {id} (h : Keeps s t) : KeepsO s (grantOne t id) := by
  unfold Machine.grantOne
  split
  · exact .none
  · split
    · exact .none
    · split
      · exact .none
      · exact .ite .none (.some (.schedule (.modEntry (.frame h rfl))))
theorem grantItem {id} (h : Keeps s t) : KeepsO s (grantItem t id) := .ite (Keeps.grantRun h) (Keeps.grantOne h)
theorem grantAll {ids} (h : Keeps s t) : Keeps s (grantAll t ids) := by
  unfold Machine.grantAll
  refine .foldl h (fun _ _ hu => ?_)
  split
  next e =>
    exact .frame (.of_some e (Keeps.grantItem hu)) rfl
  · exact hu
theorem doRunGrant (h : Keeps s t) : Keeps s (doRunGrant t) := .grantAll h

/-! ## The batch at a clause -/

theorem modSt {id k f} (h : Keeps s t) : Keeps s (modSt t id k f) := .modTask h
theorem setCst {id k x v} (h : Keeps s t) : Keeps s (setCst t id k x v) := .modSt (.ite h (.storeClause h))
theorem popBatch {id k pos} (h : Keeps s t) : Keeps s (popBatch t id k pos) := .modSt h
theorem pushBatch {id k pos b} (h : Keeps s t) : Keeps s (pushBatch t id k pos b) := .ite h (.modSt h)
theorem countClause {id k c i o sat wrap} (h : Keeps s t) : Keeps s (countClause t id k c i o sat wrap) := by
  unfold Machine.countClause
  exact .modSt h
theorem failBatch {id k x b st place} (h : Keeps s t) : Keeps s (failBatch t id k x b st place) := .failRun (.countClause h)

/-! ## Breaker regions -/

theorem regionAppend {id k x b bs} (h : Keeps s t) : KeepsO s (regionAppend t id k x b bs) := .ite .none (.some (.modSt (.dramWrite h)))
theorem pageAppend {id k x b bits part row} (h : Keeps s t) : KeepsO s (pageAppend t id k x b bits part row) :=
  .ite (.some (.modSt (.dramWrite (.dramWrite (.dramWrite (.ite (.dramWrite h) h)))))) (.ite .none (.some (.modSt (.dramWrite (.ite
    (.dramWrite (.ite (.dramWrite h) h)) (.dramWrite (.dramWrite (.ite (.dramWrite h) h))))))))

/-! ## Leaving the last clause -/

theorem emit {id k x b} (h : Keeps s t) : KeepsO s (emit t id k x b) := by
  unfold Machine.emit
  refine .ite (.some (.pushBatch h)) (.ite ?_ ?_)
  · split
    · exact .some (.setRun h)
    · exact .some h
  · split
    · exact .some h
    · exact .foldl (.some h) (fun _ _ hu => .bindState hu (fun _ hv => Keeps.regionAppend hv))
theorem emitAll {id k x bs} (h : Keeps s t) : KeepsO s (emitAll t id k x bs) :=
  .foldl (.some h) (fun _ _ hu => .bindState hu (fun _ hv => Keeps.emit hv))
theorem finishCmd {id k x r} (h : Keeps s t) (hr : KeepsO s r) : Keeps s (finishCmd t id k x r) := by
  unfold Machine.finishCmd
  split
  · exact .settleTask (hr _ rfl)
  · exact .failRun h

/-! ## Sources that no clause of their own reads (R75, R118) -/

theorem claimUnit {id k p g} (h : Keeps s t) : KeepsO s ((claimUnit t id k p g).map (·.2)) := by
  unfold Machine.claimUnit
  split
  · split
    · exact .some (.modTask h)
    · split
      · exact .some (.modTask (.setRun h))
      · exact .none
  · exact .none
theorem spansTouch {fn l} (h : Keeps s t) : Keeps s (spansTouch t fn l) := .foldl h (fun _ _ hu => .dramTouch hu)
theorem markBlock {id k} (h : Keeps s t) : Keeps s (markBlock t id k) := .modTask h
theorem pullSource {id k} (h : Keeps s t) : Keeps s (pullSource t id k) := by
  unfold Machine.pullSource
  split
  · refine .ite h (.ite h ?_)
    split
    · exact .modSt h
    next e =>
      exact .ite (.failRun (.of_some_snd e (Keeps.claimUnit (.markBlock h)))) (.foldl (.modSt (.spansTouch (.of_some_snd e
        (Keeps.claimUnit (.markBlock h))))) (fun _ _ hu => .pushBatch hu))
  · exact h

/-! ## The receiving side of an exchange (R151 to R153) -/

theorem exchMark {id p pos} (h : Keeps s t) : Keeps s (exchMark t id p pos) := by
  unfold Machine.exchMark
  split
  · exact h
  · exact .ite (.foldl h (fun _ _ hu => .modSt hu)) h
theorem exchTake {id k x} (h : Keeps s t) : Keeps s (exchTake t id k x) := by
  unfold Machine.exchTake
  split
  · exact h
  · refine .ite h ?_
    split
    · exact h
    · exact .exchMark (.modSt (.pushBatch (.markBlock h)))

/-! ## Feeding a clause -/

theorem feed {id k pos} (h : Keeps s t) : Keeps s (feed t id k pos) := by
  unfold Machine.feed
  refine .ite (.pullSource h) ?_
  split
  · exact .exchTake h
  · exact h
theorem batchAt {id k pos kind} (h : Keeps s t) : KeepsO s ((batchAt t id k pos kind).map (·.1)) := by
  unfold Machine.batchAt
  split
  · exact .none
  next x _ =>
    dsimp only
    split
    · exact .none
    · rw [Option.map_map]
      exact .map (fun _ => .ite (.feed h) h)
theorem noBatch {id k pos kind} (h : Keeps s t) : Keeps s (noBatch t id k pos kind) := by
  unfold Machine.noBatch
  split
  · exact h
  · exact .settleTask (.feed h)

/-! ## Scan (R93) -/

theorem scanTouch {x v b planes} (h : Keeps s t) : Keeps s (scanTouch t x v b planes) := by
  unfold Machine.scanTouch
  refine .ite (.ite h (.dramTouch h)) (.foldl (.ite h (.dramTouch h)) (fun _ _ hu => ?_))
  split
  · exact .dramTouch (.dramTouch hu)
  · exact hu
theorem doScanBatch {id k} (h : Keeps s t) : Keeps s (doScanBatch id k t) := by
  unfold Machine.doScanBatch
  split
  · exact h
  · refine .ite (.settleTask h) ?_
    dsimp only
    split
    · exact .failRun h
    · split
      · split
        · exact .settleTask (.modSt (.modSt h))
        next e =>
          refine .ite (.failRun (.of_some_snd e (Keeps.claimUnit (.modSt h)))) (.ite (.failRun (.of_some_snd e (Keeps.claimUnit
            (.modSt h)))) (.ite (.modSt (.of_some_snd e (Keeps.claimUnit (.modSt h)))) ?_))
          split
          · exact .failRun (.of_some_snd e (Keeps.claimUnit (.modSt h)))
          · exact .modSt (.of_some_snd e (Keeps.claimUnit (.modSt h)))
      · split
        · exact .failRun (.countClause (.modSt h))
        · exact .finishCmd (.countClause (.modSt (.scanTouch (.markBlock (.modSt h))))) (Keeps.emit (.countClause (.modSt (.scanTouch
            (.markBlock (.modSt h))))))

/-! ## Filter (R95 to R102) -/

theorem doFilterBatch {id k pos} (h : Keeps s t) : Keeps s (doFilterBatch id k pos t) := by
  unfold Machine.doFilterBatch
  split
  · exact .noBatch h
  next e =>
    refine .ite (.failBatch (.of_some_fst e (Keeps.batchAt h))) (.ite (.failBatch (.of_some_fst e (Keeps.batchAt h))) (.ite
      (.failBatch (.of_some_fst e (Keeps.batchAt h))) ?_))
    dsimp only
    split
    · exact .failBatch (.ite (.ite (.spansTouch (.of_some_fst e (Keeps.batchAt h))) (.setCst (.spansTouch (.of_some_fst e
        (Keeps.batchAt h))))) (.camCount (.camBefore (.ite (.spansTouch (.of_some_fst e (Keeps.batchAt h))) (.setCst (.spansTouch
        (.of_some_fst e (Keeps.batchAt h))))))))
    · exact .finishCmd (.countClause (.popBatch (.ite (.ite (.spansTouch (.of_some_fst e (Keeps.batchAt h))) (.setCst (.spansTouch
        (.of_some_fst e (Keeps.batchAt h))))) (.camCount (.camBefore (.ite (.spansTouch (.of_some_fst e (Keeps.batchAt h)))
        (.setCst (.spansTouch (.of_some_fst e (Keeps.batchAt h)))))))))) (Keeps.emit (.countClause (.popBatch (.ite (.ite
        (.spansTouch (.of_some_fst e (Keeps.batchAt h))) (.setCst (.spansTouch (.of_some_fst e (Keeps.batchAt h))))) (.camCount
        (.camBefore (.ite (.spansTouch (.of_some_fst e (Keeps.batchAt h))) (.setCst (.spansTouch (.of_some_fst e (Keeps.batchAt
        h)))))))))))

/-! ## Compute (R103 to R108) -/

theorem doComputeBatch {id k pos} (h : Keeps s t) : Keeps s (doComputeBatch id k pos t) := by
  unfold Machine.doComputeBatch
  split
  · exact .noBatch h
  next e =>
    split
    · exact .failBatch (.of_some_fst e (Keeps.batchAt h))
    · exact .finishCmd (.countClause (.popBatch (.of_some_fst e (Keeps.batchAt h)))) (Keeps.emit (.countClause (.popBatch (.of_some_fst
        e (Keeps.batchAt h)))))

/-! ## Output (R513, R514) -/

theorem countOutput {id k c i o} (h : Keeps s t) : Keeps s (countOutput t id k c i o) := .countClause (.modSt h)
theorem doOutputBatch {id k pos} (h : Keeps s t) : Keeps s (doOutputBatch id k pos t) := by
  unfold Machine.doOutputBatch
  split
  · exact .noBatch h
  next e =>
    dsimp only
    split
    · exact .failRun (.countOutput (.dataXfer (.writeRows (.popBatch (.of_some_fst e (Keeps.batchAt h))))))
    · refine .ite (.settleTask (.countOutput (.dataXfer (.writeRows (.popBatch (.of_some_fst e (Keeps.batchAt h))))))) (.settleTask
        (.modTask ?_))
      split
      · exact .setRun (.countOutput (.dataXfer (.writeRows (.popBatch (.of_some_fst e (Keeps.batchAt h))))))
      · exact .countOutput (.dataXfer (.writeRows (.popBatch (.of_some_fst e (Keeps.batchAt h)))))

/-! ## Building (R115 to R117) -/

theorem flushStage {id k x q} (h : Keeps s t) : KeepsO s (flushStage t id k x q) :=
  .foldl (.some h) (fun _ _ hu => .bindState hu (fun _ hv => Keeps.pageAppend hv))
theorem stageRow {id k x acc part lanes} (h : Keeps s acc.1) : KeepsO s ((stageRow id k x acc part lanes).map (·.1)) := by
  unfold Machine.stageRow
  dsimp only
  split
  · exact .some h
  · rw [Option.map_map]
    exact .mapState (Keeps.flushStage h) (fun _ hu => hu)
theorem stageRows {id k x} {part : Row → Nat} {lanes : Row → List Lane} {l : List Row}
    {o : Option (State × Tab (Nat × List (List Lane)))}
    (ho : KeepsO s (o.map (·.1))) :
    KeepsO s ((l.foldl (fun a r => a.bind (fun a => Machine.stageRow id k x a (part r) (lanes r))) o).map (·.1)) := by
  induction l generalizing o with
  | nil => exact ho
  | cons r l ih =>
    refine ih ?_
    cases o with
    | none => exact .none
    | some a => exact Keeps.stageRow (ho a.1 rfl)
theorem doJoinBuildBatch {id k pos} (h : Keeps s t) : Keeps s (doJoinBuildBatch id k pos t) := by
  unfold Machine.doJoinBuildBatch
  split
  · split
    · exact h
    · dsimp only
      split
      · exact .feed h
      · exact .ite (.settleTask (.feed h)) (.finishCmd (.feed h)
          (.mapState (.foldl (.some (.feed h)) (fun _ _ ho => .bindState ho (fun _ hu => Keeps.flushStage hu))) (fun _ hu => .modSt
            (.setCst hu))))
  next e =>
    have hb := Keeps.of_some_fst e (Keeps.batchAt h)
    dsimp only
    split
    · exact .finishCmd (.countClause (.modSt (.popBatch hb)))
        (.foldl (.some (.countClause (.modSt (.popBatch hb)))) (fun _ _ ho => .bindState ho (fun _ hu => Keeps.regionAppend hu)))
    · refine .finishCmd (.countClause (.modSt (.popBatch hb))) (fun v hv => ?_)
      obtain ⟨a, ha, rfl⟩ := Option.map_eq_some_iff.mp hv
      exact .setCst (stageRows (.some (.countClause (.modSt (.popBatch hb)))) a.1 (by rw [ha]; rfl))

/-! ## Probing (R113, R114, R119 to R124) -/

theorem camProbe {id x rows} (h : Keeps s t) : Keeps s (camProbe t id x rows).1 := by
  refine foldlFst h (fun acc r ha => ?_)
  dsimp only
  split
  · exact ha
  · dsimp only
    split
    · exact ha
    · exact .camSearch ha
theorem doJoinProbeBatch {id k pos} (h : Keeps s t) : Keeps s (doJoinProbeBatch id k pos t) := by
  unfold Machine.doJoinProbeBatch
  split
  · exact .noBatch h
  next u x b e =>
    have hb := Keeps.of_some_fst e (Keeps.batchAt h)
    dsimp only
    split
    · exact .finishCmd (.countClause (.camProbe (.popBatch hb))) (Keeps.emitAll (.countClause (.camProbe (.popBatch hb))))
    · split
      · refine .ite hb (.ite (.failBatch hb) (.ite (.failRun (.countClause hb)) (.finishCmd ?_ (Keeps.emitAll ?_))))
        · exact .countClause (.modSt (.setCst (.spansTouch hb)))
        · exact .countClause (.modSt (.setCst (.spansTouch hb)))
      · split
        · exact .failBatch hb
        next v table nul total e =>
          have hv : Keeps s v := by
            revert e
            split
            · intro e; cases e; exact hb
            · split
              · exact nofun
              · split
                · exact nofun
                · intro e; cases e; exact .setCst (.spansTouch hb)
          exact .finishCmd (.countClause (.popBatch hv)) (Keeps.emitAll (.countClause (.popBatch hv)))

/-! ## Aggregates (R125 to R129) -/

theorem flushAgg {id k x slots} (h : Keeps s t) : KeepsO s (flushAgg t id k x slots) :=
  .foldl (.some h) (fun _ _ hu => .bindState hu (fun _ hv => .mapState (.ite (Keeps.regionAppend hv) (Keeps.pageAppend hv)) (fun
    y hw => .countClause hw)))
theorem emitGroups {id k x slots} (h : Keeps s t) : Keeps s (emitGroups t id k x slots) := by
  unfold Machine.emitGroups
  split
  · exact .failRun h
  · exact .finishCmd (.countClause h) (Keeps.emitAll (.countClause h))
theorem foldRow {id k x keys types acc r} (h : Keeps s acc.1) : KeepsE s ((foldRow id k x keys types acc r).map (·.1)) := by
  unfold Machine.foldRow
  refine .mapIte (.ok h) (.mapIte ?_ .error)
  split
  next e => exact .ok (.of_some e (Keeps.flushAgg h))
  · exact .error
theorem foldRows {id k x keys types l acc} (h : Keeps s acc.1) : KeepsE s ((foldRows id k x keys types l acc).map (·.1)) := by
  induction l generalizing acc with
  | nil => exact .ok h
  | cons r l ih =>
    unfold Machine.foldRows
    split
    · exact .error
    next acc' e => exact ih ((Keeps.foldRow h) acc'.1 (by rw [e]; rfl))
theorem doHashAggFold {id k pos} (h : Keeps s t) : Keeps s (doHashAggFold id k pos t) := by
  unfold Machine.doHashAggFold
  split
  next e =>
    refine .ite (.of_some_fst e (Keeps.batchAt h)) ?_
    dsimp only
    split
    · exact .failRun (.countClause (.popBatch (.of_some_fst e (Keeps.batchAt h))))
    next e₁ =>
      exact .settleTask (.setCst (.of_ok_fst e₁ (Keeps.foldRows (.countClause (.popBatch (.of_some_fst e (Keeps.batchAt h)))))))
  · dsimp only
    split
    · exact .ite (.feed h) h
    · exact .ite (.ite (.feed h) h) (.ite (.finishCmd (.modSt (.setCst (.ite (.feed h) h))) (Keeps.flushAgg (.modSt (.setCst (.ite (.feed
        h) h))))) (.emitGroups (.modSt (.setCst (.ite (.feed h) h)))))
theorem doHashAggMerge {id k} (h : Keeps s t) : Keeps s (doHashAggMerge id k t) := by
  unfold Machine.doHashAggMerge
  split
  · exact h
  · refine .ite h ?_
    dsimp only
    split
    · exact .ite (.settleTask (.modSt h)) (.emitGroups (.setCst (.modSt h)))
    next e =>
      refine .ite (.failRun (.countClause (.modSt (.of_some_snd e (Keeps.claimUnit (.markBlock h)))))) ?_
      split
      · exact .failRun (.countClause (.modSt (.of_some_snd e (Keeps.claimUnit (.markBlock h)))))
      · exact .ite (.emitGroups (.setCst (.spansTouch (.countClause (.modSt (.of_some_snd e (Keeps.claimUnit (.markBlock h))))))))
          (.setCst (.spansTouch (.countClause (.modSt (.of_some_snd e (Keeps.claimUnit (.markBlock h)))))))

/-! ## State tables and window aggregates (R131 to R134) -/

theorem doWindowAggBatch {id k pos} (h : Keeps s t) : Keeps s (doWindowAggBatch id k pos t) := by
  unfold Machine.doWindowAggBatch
  split
  · exact .noBatch h
  next e =>
    dsimp only
    split
    · exact .failBatch (.of_some_fst e (Keeps.batchAt h))
    · exact .finishCmd (.countClause (.setCst (.spansTouch (.popBatch (.of_some_fst e (Keeps.batchAt h)))))) (Keeps.emit (.countClause
        (.setCst (.spansTouch (.popBatch (.of_some_fst e (Keeps.batchAt h)))))))
theorem stApply {fn w} (h : Keeps s t) : Keeps s (stApply t fn w) := by
  unfold Machine.stApply
  dsimp only
  split
  · exact h
  · exact .ite (.frame h rfl) (.frame (.dramWrite h) rfl)
theorem releaseWindows {r} (h : Keeps s t) : Keeps s (releaseWindows t r) := .foldl h (fun _ _ hu => .stApply hu)

/-! ## Runs (R143) -/

theorem writeRun {id k x b kw pw rows} (h : Keeps s t) : KeepsO s (writeRun t id k x b kw pw rows) :=
  .ite .none (.some (.countClause (.modSt (.dramWrite (.dramWrite h)))))
theorem sealRegion {id k x b} (h : Keeps s t) : Keeps s (sealRegion t id k x b) := .ite (.modSt (.dramWrite h)) h
theorem closeRun {id k x b kw pw rows} (h : Keeps s t) : KeepsO s (closeRun t id k x b kw pw rows) := .ite (.some h) (Keeps.writeRun h)

/-! ## Sort and top-N (R141, R142, R148) -/

theorem sortClose {id k x rows} (h : Keeps s t) : KeepsO s (sortClose t id k x rows) := Keeps.closeRun h
theorem keepRun {id k x rows begins since} (h : Keeps s t) : Keeps s (keepRun t id k x rows begins since) := .modTask (.setCst h)
theorem doSortBatch {id k pos} (h : Keeps s t) : Keeps s (doSortBatch id k pos t) := by
  unfold Machine.doSortBatch
  split
  next e =>
    split
    · dsimp only
      split
      · exact .failRun (.countClause (.modSt (.popBatch (.of_some_fst e (Keeps.batchAt h)))))
      next e₁ =>
        refine .ite (.keepRun (.of_some e₁ (.ite (Keeps.sortClose (.countClause (.modSt (.popBatch (.of_some_fst e (Keeps.batchAt
          h)))))) (.some (.countClause (.modSt (.popBatch (.of_some_fst e (Keeps.batchAt h))))))))) ?_
        split
        · exact .failRun (.of_some e₁ (.ite (Keeps.sortClose (.countClause (.modSt (.popBatch (.of_some_fst e (Keeps.batchAt
            h)))))) (.some (.countClause (.modSt (.popBatch (.of_some_fst e (Keeps.batchAt h))))))))
        next e₂ =>
          exact .keepRun (.of_some e₂ (Keeps.sortClose (.of_some e₁ (.ite (Keeps.sortClose (.countClause (.modSt (.popBatch
            (.of_some_fst e (Keeps.batchAt h)))))) (.some (.countClause (.modSt (.popBatch (.of_some_fst e (Keeps.batchAt
            h))))))))))
  · dsimp only
    split
    · exact .ite (.feed h) h
    · exact .ite (.ite (.feed h) h) (.finishCmd (.modSt (.ite (.feed h) h)) (.mapState (Keeps.sortClose (.modSt (.ite (.feed h) h))) (fun
        x hu => .keepRun (.sealRegion hu))))
theorem doTopnBatch {id k pos} (h : Keeps s t) : Keeps s (doTopnBatch id k pos t) := by
  unfold Machine.doTopnBatch
  dsimp only
  split
  next e =>
    exact .setCst (.countClause (.popBatch (.of_some_fst e (Keeps.batchAt h))))
  · split
    · exact .ite (.feed h) h
    · exact .ite (.ite (.feed h) h) (.finishCmd (.modSt (.ite (.feed h) h)) (.mapState (Keeps.closeRun (.modSt (.ite (.feed h) h))) (fun
        x hu => .sealRegion hu)))

/-! ## Merge (R144 to R147) -/

theorem doMergeIntermediate {id k} (h : Keeps s t) : Keeps s (doMergeIntermediate id k t) := by
  unfold Machine.doMergeIntermediate
  split
  · exact h
  · refine .ite h ?_
    split
    · dsimp only
      split
      · exact .settleTask (.sealRegion (.modSt h))
      next e =>
        exact .ite (.failRun (.countClause (.of_some_snd e (Keeps.claimUnit h)))) (.finishCmd (.countClause (.of_some_snd e
          (Keeps.claimUnit h))) (Keeps.writeRun (.spansTouch (.countClause (.of_some_snd e (Keeps.claimUnit h))))))
theorem doMergeFinal {id k} (h : Keeps s t) : Keeps s (doMergeFinal id k t) := by
  unfold Machine.doMergeFinal
  split
  · exact h
  · refine .ite h (.ite (.failRun h) ?_)
    split
    · exact .settleTask (.modSt h)
    next e =>
      exact .ite (.failRun (.countClause (.modSt (.of_some_snd e (Keeps.claimUnit (.markBlock h)))))) (.finishCmd (.countClause
        (.modSt (.of_some_snd e (Keeps.claimUnit (.markBlock h))))) (Keeps.emitAll (.spansTouch (.countClause (.modSt (.of_some_snd
        e (Keeps.claimUnit (.markBlock h))))))))

/-! ## Exchange (R149 to R153) -/

theorem releaseHeld {id k} (h : Keeps s t) : Keeps s (releaseHeld t id k) := .modSt h
theorem sendReady {x id k n} (h : Keeps s t) : Keeps s (sendReady x id k n t) := by
  induction n generalizing t with
  | zero => exact h
  | succ n ih =>
    unfold Machine.sendReady
    split
    · split
      · exact h
      · exact .ite h (ih (.modSt h))
    · exact h
theorem exchSettle {id p pos} (h : Keeps s t) : Keeps s (exchSettle t id p pos) := by
  unfold Machine.exchSettle
  dsimp only
  split
  · exact .exchMark h
  · exact .foldl (.exchMark h) (fun _ _ hu => .ite (.settleTask hu) hu)
theorem sendBatch {id k pos x b} (h : Keeps s t) : Keeps s (sendBatch t id k pos x b) := by
  unfold Machine.sendBatch
  dsimp only
  split
  · refine .sendReady ?_
    split
    · exact .ite (.releaseHeld (.countClause (.modSt (.popBatch (.releaseHeld h))))) (.countClause (.modSt (.popBatch (.releaseHeld
        h))))
    · exact .countClause (.modSt (.popBatch (.releaseHeld h)))
  · refine .sendReady ?_
    split
    · exact .ite (.releaseHeld (.countClause (.modSt (.popBatch h)))) (.countClause (.modSt (.popBatch h)))
    · exact .countClause (.modSt (.popBatch h))
theorem doExchangeSend {id k pos} (h : Keeps s t) : Keeps s (doExchangeSend id k pos t) := by
  unfold Machine.doExchangeSend
  split
  · exact h
  · refine .ite (.sendReady h) ?_
    split
    next e =>
      exact .ite (.failBatch (.of_some_fst e (Keeps.batchAt h))) (.ite (.failBatch (.of_some_fst e (Keeps.batchAt h))) (.sendBatch
        (.of_some_fst e (Keeps.batchAt h))))
    · dsimp only
      split
      · exact .feed h
      · exact .ite (.feed h) (.exchSettle (.modSt (.feed h)))
theorem emitInbox {id k x n} (h : Keeps s t) : KeepsO s (emitInbox id k x n t) := by
  induction n generalizing t with
  | zero => exact .some h
  | succ n ih =>
    unfold Machine.emitInbox
    split
    · exact .some h
    · exact .bindState (Keeps.emit (.modSt h)) (fun _ hu => ih hu)
theorem doExchangeFragmentReceive {id k pos sender} (h : Keeps s t) : Keeps s (doExchangeFragmentReceive id k pos sender t) := by
  unfold Machine.doExchangeFragmentReceive
  split
  · exact h
  · split
    · exact h
    · refine .ite (.exchSettle (.exchTake (.modSt h))) ?_
      split
      · exact .failRun (.modSt h)
      next e =>
        exact .exchSettle (.of_some e (Keeps.emitInbox (.modSt h)))

/-! ## Checkpoints (R77, R153) -/

theorem ckptIrq {id k} (h : Keeps s t) : Keeps s (ckptIrq t id k) := by
  unfold Machine.ckptIrq
  split
  · exact .coreUpd h (fun _ hc => hc)
  · exact h
theorem writeLines {r g t' st} (h : Keeps s t) : Keeps s (writeLines t r g t' st) := .foldl h (fun _ _ hu => .dramWrite hu)
theorem doCheckpointTimer {id k} (h : Keeps s t) : Keeps s (doCheckpointTimer id k t) := by
  unfold Machine.doCheckpointTimer
  split
  · refine .ite ?_ h
    split
    · exact .modTask (.writeLines (.ckptIrq h))
  · exact h
theorem writeRecord {r g t'} (h : Keeps s t) : Keeps s (writeRecord t r g t') := .ite h (.frame (.dramWrite h) rfl)
theorem doCheckpointComplete {id k} (h : Keeps s t) : Keeps s (doCheckpointComplete id k t) := by
  unfold Machine.doCheckpointComplete
  split
  · split
    · exact h
    · exact .foldl (.modTask (.setRun (.writeRecord h))) (fun _ _ hu => .modSt hu)
  · exact h

/-! ## Doorbells (R288, R289, R298) -/

theorem doSqDb {fn q v slots} (h : Keeps s t) : Keeps s (doSqDb fn q v slots t) := by
  unfold Machine.doSqDb
  split
  · exact h
  · exact .ite (.modQ h) (.modQ (.modQ h))
theorem doCqDb {fn q v} (h : Keeps s t) : Keeps s (doCqDb fn q v t) := by
  unfold Machine.doCqDb
  split
  · exact h
  · exact .ite h (.moveOverflow (.modQ h))

/-! ## Fetching (R290, R291) -/

theorem consume {d desc} (h : Keeps s t) : Keeps s (consume t d desc) := .frame (.hostWrite h) rfl
theorem addItem {it} (h : Keeps s t) : Keeps s (addItem t it).2 := .frame h rfl
theorem reject {d it st} (h : Keeps s t) : Keeps s (reject t d it st) := by
  unfold Machine.reject
  split
  next e =>
    exact .failItem (.of_snd e (.addItem (.consume h)))

/-! ## Idempotence keys (R304, R305) -/

theorem removeKey {k} (h : Keeps s t) : Keeps s (removeKey t k) := .frame h rfl
theorem makeKey {id it} (h : Keeps s t) : Keeps s (makeKey t id it) := by
  unfold Machine.makeKey
  split
  · exact h
  · refine .frame (.ite ?_ h) rfl
    dsimp only
    split
    · exact .frame h rfl
    · exact h

/-! ## Insertion (R157, R164 to R168, R293) -/

theorem insertItem {d it} (h : Keeps s t) : Keeps s (insertItem t d it) := by
  unfold Machine.insertItem
  split
  next e =>
    dsimp only
    split
    · refine .schedule (.frame (.ite (.getD (.map (fun _ => .recalcFlow ?_)) ?_) (.insertEntry ?_)) rfl)
      · split
        · exact .makeKey (.of_snd e (.addItem (.consume h)))
        · split
          next e₁ =>
            exact .of_some_snd e₁ (Keeps.joinFlow (.makeKey (.of_snd e (.addItem (.consume h)))))
          · exact .makeKey (.of_snd e (.addItem (.consume h)))
      · split
        · exact .makeKey (.of_snd e (.addItem (.consume h)))
        · split
          next e₁ =>
            exact .of_some_snd e₁ (Keeps.joinFlow (.makeKey (.of_snd e (.addItem (.consume h)))))
          · exact .makeKey (.of_snd e (.addItem (.consume h)))
      · split
        · exact .makeKey (.of_snd e (.addItem (.consume h)))
        · split
          next e₁ =>
            exact .of_some_snd e₁ (Keeps.joinFlow (.makeKey (.of_snd e (.addItem (.consume h)))))
          · exact .makeKey (.of_snd e (.addItem (.consume h)))
    · refine .schedule (.ite (.getD (.map (fun _ => .recalcFlow ?_)) ?_) (.insertEntry ?_))
      · split
        · exact .makeKey (.of_snd e (.addItem (.consume h)))
        · split
          next e₁ =>
            exact .of_some_snd e₁ (Keeps.joinFlow (.makeKey (.of_snd e (.addItem (.consume h)))))
          · exact .makeKey (.of_snd e (.addItem (.consume h)))
      · split
        · exact .makeKey (.of_snd e (.addItem (.consume h)))
        · split
          next e₁ =>
            exact .of_some_snd e₁ (Keeps.joinFlow (.makeKey (.of_snd e (.addItem (.consume h)))))
          · exact .makeKey (.of_snd e (.addItem (.consume h)))
      · split
        · exact .makeKey (.of_snd e (.addItem (.consume h)))
        · split
          next e₁ =>
            exact .of_some_snd e₁ (Keeps.joinFlow (.makeKey (.of_snd e (.addItem (.consume h)))))
          · exact .makeKey (.of_snd e (.addItem (.consume h)))
theorem checkIn {d desc} (h : Keeps s t) : Keeps s (checkIn t d desc).1 := by
  have hadd {it} : Keeps s (Machine.addItem (Machine.consume t d desc) it).2 := .addItem (.consume h)
  have hins {it} : Keeps s (Machine.insertItem t d it) := .insertItem h
  have hrej {it st} : Keeps s (Machine.reject t d it st) := .reject h
  unfold Machine.checkIn
  extract_lets it
  clear_value it
  split
  · dsimp only
    exact hrej
  · split
    · dsimp only
      exact hrej
    · split
      · dsimp only
        exact hrej
      · dsimp only
        exact h
      · dsimp only
        exact hadd
      · exact .complete hadd
      · split
        · exact .failItem (.makeKey hadd)
        · split
          · dsimp only
            exact h
          · dsimp only
            exact hins
theorem hold {d desc w} (h : Keeps s t) : Keeps s (hold t d desc w) := by
  unfold Machine.hold
  refine .ite (.frame h rfl) ?_
  split
  · exact .frame (.frame h rfl) rfl
  · exact .frame (.frame h rfl) rfl
  · exact .frame h rfl
theorem fetchOne {d} (h : Keeps s t) : Keeps s (fetchOne t d) := by
  unfold Machine.fetchOne
  refine .ite (.modQ h) ?_
  split
  next e =>
    exact .of_fst e (.checkIn h)
  next e₁ =>
    exact .hold (.of_fst e₁ (.checkIn h))
theorem fetchN {n d} (h : Keeps s t) : Keeps s (fetchN n t d) := by
  induction n generalizing t with
  | zero => exact h
  | succ n ih => exact .ite (ih (.fetchOne h)) h
theorem doDescriptorFetch (h : Keeps s t) : Keeps s (doDescriptorFetch t) := by
  unfold Machine.doDescriptorFetch
  split
  · exact h
  · exact .fetchN (.frame h rfl)

/-! ## Held descriptors -/

theorem retryHeld {p} (h : Keeps s t) : Keeps s (retryHeld t p) := by
  unfold Machine.retryHeld
  split
  · exact h
  · split
    next e =>
      exact .of_fst e (.checkIn h)
    next e₁ =>
      exact .hold (.of_fst e₁ (.checkIn h))
theorem doHeldDescriptorInsert (h : Keeps s t) : Keeps s (doHeldDescriptorInsert t) := .retryHeld h
theorem doIkeyHeldInsert (h : Keeps s t) : Keeps s (doIkeyHeldInsert t) := .retryHeld h
theorem doIkeyExpiry (h : Keeps s t) : Keeps s (doIkeyExpiry t) := .foldl h (fun _ _ hu => .removeKey hu)

/-! ## QUEUE_ENABLE (R285) -/

theorem doQueueEnable {p v} (h : Keeps s t) : Keeps s (doQueueEnable p v t) := by
  unfold Machine.doQueueEnable
  dsimp only
  split
  · exact h
  · exact .ite h (.ite (.modQ h) (.modQ h))

/-! ## MSIX_COALESCE_TIMEOUT (R310) -/

theorem doMsixCoalesceTimeout {d} (h : Keeps s t) : Keeps s (doMsixCoalesceTimeout d t) := .ite (.signalRing h) h

/-! ## NOP (R312) -/

theorem doNop {id} (h : Keeps s t) : Keeps s (doNop id t) := by
  unfold Machine.doNop
  split
  · exact .itemReady h
  · exact h

/-! ## State tables (R84, R130) -/

theorem allocTable {fn i l} (h : Keeps s t) : KeepsO s (allocTable t fn i l) := .map (fun _ => .frame (.dramZero h) rfl)
theorem allocTables {fn g lay l} (h : Keeps s t) : KeepsO s (allocTables fn g lay l t) := by
  induction l generalizing t with
  | nil => exact .some h
  | cons i l ih =>
    unfold Machine.allocTables
    refine .ite (ih h) ?_
    split
    · exact ih h
    · split
      next e => exact ih (.of_some e (Keeps.allocTable h))
      next => exact .none

/-! ## LOAD_PLAN, steps 1 to 8 (R69) -/

theorem loadFail {id fn pid st} (h : Keeps s t) : Keeps s (loadFail t id fn pid st) := .failItem (.dropPlan h)
theorem doLoadPlan {id} (h : Keeps s t) : Keeps s (doLoadPlan id t) := by
  unfold Machine.doLoadPlan
  split
  · exact h
  next it _ =>
    split
    · exact .failItem h
    · dsimp only
      have hm : MemOk s → memWf (mcopy [] t.host (it.body 40 8) 0 (it.body 36 4)) = true :=
        fun m => memWf_mcopy _ _ _ memWf_nil (memOk_host (h.memOk m))
      split
      · exact .failItem (.dramWrite h)
      · split
        · exact .loadFail (.setPlanOf (.dramWrite h) hm)
        next e => exact .itemReady (.of_some e (Keeps.allocTables (.setPlanOf (.dramWrite h) hm)))

/-! ## Steps 9 and 10: binding and the digest (R81, R82) -/

theorem setLayout {l v} (h : Keeps s t) (hv : MemOk t → memWf v.mem = true) : Keeps s (setLayout t l v) :=
  h.trans ⟨rfl, rfl, rfl, fun m => by
    obtain ⟨h1, h2, h3, h4, h5, h6, h7, h8, hlay, h9⟩ := id m
    exact ⟨h1, h2, h3, h4, h5, h6, h7, h8, fun p hp => (mem_tset hp).elim (fun e => e ▸ hv m) (hlay p), h9⟩⟩
theorem unbindLayout {fn pid} (h : Keeps s t) : Keeps s (unbindLayout t fn pid) :=
  h.trans ⟨rfl, rfl, rfl, fun m => by
    obtain ⟨h1, h2, h3, h4, h5, h6, h7, h8, hlay, h9⟩ := m
    refine ⟨h1, h2, h3, h4, h5, h6, h7, h8, fun q hq => ?_, h9⟩
    obtain ⟨p, hp, rfl⟩ := List.mem_map.mp hq
    split
    · exact hlay p hp
    · exact hlay p hp⟩
theorem startUnload {fn pid ids} (h : Keeps s t) : Keeps s (startUnload t fn pid ids) := by
  unfold Machine.startUnload
  split
  · exact h
  next hp => exact .unbindLayout (.replan h hp rfl)
theorem standBind {fn pid g binds digest} (h : Keeps s t) : Keeps s (standBind t fn pid g binds digest) := by
  unfold Machine.standBind
  extract_lets tiles u v w x
  have hu : Keeps s u := by
    unfold u
    split
    · exact .startUnload h
    · exact h
  have hw : Keeps s w := .setLayout hu (fun m => memOk_getLayout m _)
  have hx : Keeps s x := by
    unfold x
    split
    next hp => exact .replan hw hp rfl
    · exact hw
  exact .foldl (.pinPlan hx) (fun _ _ hy => .wakeCluster hy)
theorem loadCommit {it} (h : Keeps s t) : KeepsE s (loadCommit t it) := by
  unfold Machine.loadCommit
  dsimp only
  split
  · exact .error
  next hp =>
    split
    · split
      · exact .error
      · exact .ok (.standBind h)
    · exact .ok (.replan h hp rfl)

/-! ## UNLOAD_PLAN and UNLOAD_COMPLETE (R70) -/

theorem doUnloadPlan.unload {id it pid} (h : Keeps s t) : Keeps s (doUnloadPlan.unload id t it pid) :=
  .ite h (.schedule (.leaveFlow (.endEntries (.modItem (.startUnload (.deadlineCheck h))))))
theorem doUnloadPlan {id} (h : Keeps s t) : Keeps s (doUnloadPlan id t) := by
  have hunload {it pid} : Keeps s (Machine.doUnloadPlan.unload id t it pid) := Keeps.doUnloadPlan.unload h
  unfold Machine.doUnloadPlan
  split
  · exact h
  · refine .ite (.failItem h) ?_
    split
    · exact h
    · exact hunload
    · exact hunload
    · exact .failItem h
theorem doUnloadComplete {fn pid} (h : Keeps s t) : Keeps s (doUnloadComplete fn pid t) := by
  unfold Machine.doUnloadComplete
  split
  · exact h
  · exact .ite (.foldl (.dropPlan h) (fun _ _ hu => .complete (.modItem (.freeRes (.freeRes hu))))) h

/-! ## RUN_PLAN (R73, R74) -/

theorem doRunPlan {id} (h : Keeps s t) : Keeps s (doRunPlan id t) := by
  unfold Machine.doRunPlan
  split
  · exact h
  · refine .ite h ?_
    split
    · exact .failItem (.writeArea h)
    · exact .frame h rfl

/-! ## ENTRY_WAIT_GRANT (R168) -/

theorem doEntryWaitGrant (h : Keeps s t) : Keeps s (doEntryWaitGrant t) := by
  unfold Machine.doEntryWaitGrant
  split
  · exact h
  · exact .retryHeld h
  · dsimp only
    split
    · exact .schedule (.taskEntryIn (.frame h rfl))
    · exact .frame h rfl

/-! ## The release of held effects -/

theorem releaseEffect {part x} (h : Keeps s t) : Keeps s (releaseEffect t part x) := by
  unfold Machine.releaseEffect
  split
  · exact .dramWrite h
  · exact .hostWrite h
  · exact .camApply h
theorem releaseEffects {part es} (h : Keeps s t) : Keeps s (releaseEffects t part es) := .foldl h (fun _ _ hu => .releaseEffect hu)
theorem journalStep {it r} (h : Keeps s t) : KeepsE s (journalStep t it r) := by
  unfold Machine.journalStep
  split
  · exact .ok h
  · split
    next e =>
      exact Keeps.journalRelease (.of_snd e (.nextFree h))
theorem releaseStanding {id it m r} (h : Keeps s t) : KeepsE s (releaseStanding t id it m r) := by
  unfold Machine.releaseStanding
  split
  · exact .error
  next e =>
    exact .ok (.endRun (.sendReply (.addPlanCounts (.releaseWindows (.of_ok e (Keeps.journalStep h))))))
theorem releaseItem {id it} (h : Keeps s t) : KeepsE s (releaseItem t id it) := by
  unfold Machine.releaseItem
  split
  · exact Keeps.releaseStanding h
  · exact .ok (.endRun (.writeStats (.addPlanCounts (.releaseEffects (.releaseWindows h)))))
  · exact .ite (Keeps.loadCommit h) (.ok (.releaseEffects h))

/-! ## COMMIT_POINT -/

theorem releaseNow {id it} (h : Keeps s t) : Keeps s (releaseNow t id it) := by
  unfold Machine.releaseNow
  split
  next e =>
    exact .complete (.modItem (.deadlineCheck (.of_ok e (Keeps.releaseItem h))))
  · exact .ite (.failRun h) (.loadFail h)
theorem commitResults {id it} (h : Keeps s t) : Keeps s (commitResults t id it) :=
  .ite h (.ite (.setItem h) (.ite (.setItem (.freeRes (.freeRes h))) (.ite (.setItem (.freeRes h)) h)))
theorem doCommitPoint {id} (h : Keeps s t) : Keeps s (doCommitPoint id t) := by
  unfold Machine.doCommitPoint
  split
  · exact h
  · split
    · exact .ite (.ite h (.complete h)) (.ite h (.ite (.releaseNow (.modItem (.commitResults h))) (.modItem (.modItem (.commitResults
        h)))))
    · exact .ite (.releaseNow h) h
    · exact .ite h (.complete h)
    · exact .ite (.ledTick h) h
    · exact h

/-! ## Undoing work before the commit point (R309, R324, R400) -/

theorem dropXfer {w} (h : Keeps s t) : Keeps s (dropXfer t w) := .frame h rfl
theorem dropResize {id} (h : Keeps s t) : Keeps s (dropResize t id) := by
  unfold Machine.dropResize
  split
  · exact .ite (.dropXfer (.frame h rfl)) h
  · exact h
theorem dropModeReq {id} (h : Keeps s t) : Keeps s (dropModeReq t id) := .frame h rfl
theorem undoWork {id it} (h : Keeps s t) : Keeps s (undoWork t id it) :=
  .dropModeReq (.dropResize (.ledDrop (.ciphDrop (.dropXfer (.ite (.dropPlan (.endRun h)) (.endRun h))))))

/-! ## FN_RESIZE: its body and checks (R331, R332) -/

theorem doFnResize {id} (h : Keeps s t) : Keeps s (doFnResize id t) := by
  unfold Machine.doFnResize
  split
  · exact h
  · refine .ite h ?_
    dsimp only
    split
    · exact .failItem h
    · exact .ite (.ite (.commitNow h) h) (.toEngine (.frame h rfl))

/-! ## When a unit moves (Table 15-7) -/

theorem queueOff {d} (h : Keeps s t) : Keeps s (queueOff t d) := .frame h rfl
theorem camErase {blk} (h : Keeps s t) : Keeps s (camErase t blk) :=
  .withCam h (fun m => memWf_filter (memOk_cam m) _) (fun m => memWf_filter (memOk_camCopy m) _) rfl
theorem unitsTo {r us} (h : Keeps s t) : Keeps s (unitsTo t r us) := by
  unfold Machine.unitsTo
  dsimp only
  split
  · exact .frame h rfl
  · exact .frame (.foldl h (fun _ _ hu => .queueOff hu)) rfl
  · exact .foldl (.frame h rfl) (fun _ _ hu => .camErase hu)
  · exact .foldl (.frame h rfl) (fun _ _ hu => .frame hu rfl)
  · exact .frame h rfl
  · exact .frame h rfl
  · exact .frame h rfl
  · exact h

/-! ## STANDING reservations on leaving tiles (R334) -/

theorem standingRemake {fn j} (h : Keeps s t) : Keeps s (standingRemake t fn j) := by
  unfold Machine.standingRemake
  split
  · exact h
  next k p hp =>
    dsimp only
    split
    · exact h
    · split
      · exact .wakeCluster h
      · exact h
      · refine .pinPlan (.withPlans h (fun m q hq => ?_) rfl)
        have himg : memWf p.image = true := memOk_plan m hp
        rcases mem_tset hq with hq | hq
        · rw [hq]
          exact himg
        · exact m.2.2.2.2.2.2.2.2.2.2 q hq

/-! ## RESIZE_UNIT_MOVE (R333, R335) -/

theorem startZero {r} (h : Keeps s t) : Keeps s (startZero t r) := .ite h (.frame h rfl)
theorem assignNow {r} (h : Keeps s t) : Keeps s (assignNow t r) := by
  unfold Machine.assignNow
  split
  · exact h
  · exact .ite (.frame h rfl) (.ite (.regSetFld h) h)
theorem doResizeUnitMove {u'} (h : Keeps s t) : Keeps s (doResizeUnitMove u' t) := by
  unfold Machine.doResizeUnitMove
  split
  · exact h
  · exact .ite h (.ite (.schedule (.standingRemake h)) (.ite (.startZero h) (.ite h (.ite (.schedule (.commitNow (.frame (.assignNow
      (.unitsTo h)) rfl))) (.schedule (.frame (.assignNow (.unitsTo h)) rfl))))))

/-! ## Reset of a function (R286) -/

theorem abandon {id} (h : Keeps s t) : Keeps s (abandon t id) := by
  unfold Machine.abandon
  split
  · exact h
  · refine .dropItem ?_
    split
    · refine .ite ?_ (.cacheDone ?_)
      · split
        · split
          next e =>
            exact .of_ok e (Keeps.releaseItem h)
          · exact .undoWork h
        · exact h
        · exact .undoWork h
      · split
        · split
          next e =>
            exact .of_ok e (Keeps.releaseItem h)
          · exact .undoWork h
        · exact h
        · exact .undoWork h
    · split
      · split
        next e =>
          exact .of_ok e (Keeps.releaseItem h)
        · exact .undoWork h
      · exact h
      · exact .undoWork h
theorem abandonAll {fn} (h : Keeps s t) : Keeps s (abandonAll t fn) := by
  unfold Machine.abandonAll
  refine .foldl (.foldl h (fun _ _ hu => .abandon hu)) (fun _ _ hu => ?_)
  split
  · exact .getD (.map (fun _ => .entryResume (.setItem hu))) (.setItem hu)
  · exact hu
theorem unloadAll {fn} (h : Keeps s t) : Keeps s (unloadAll t fn) := .foldl h (fun _ _ hu => .dropPlan (.unbindLayout hu))
theorem vfRegs {fn} (h : Keeps s t) : Keeps s (vfRegs t fn) := by
  have hq {l : List Nat} {f : Nat → Nat} :
      Keeps s (l.foldl (fun s q => { s with qm := { s.qm with queues := terase s.qm.queues (f q) } }) t) := .foldl h (fun _ _ hu =>
        .frame hu rfl)
  unfold Machine.vfRegs
  exact .ite h (.frame hq rfl)
theorem fnReset {fn} (h : Keeps s t) : Keeps s (fnReset t fn) := by
  have hm {u qm ciph pend} (hu : Keeps s u) : Keeps s { u with
      qm := qm, msix := { table := u.msix.table.filter (fun c => c.1 / 0x8000 != fn), pend := pend }, ciph := ciph } :=
    hu.trans ⟨rfl, rfl, rfl, fun m => ⟨m.1, m.2.1, memWf_filter m.2.2.1 _, m.2.2.2⟩⟩
  exact .schedule (.vfRegs (hm (.unloadAll (.foldl (.abandonAll (.frame h rfl)) (fun _ _ hu => .queueOff hu)))))

/-! ## SR-IOV (R327) -/

theorem doVfEnable {n} (h : Keeps s t) : Keeps s (doVfEnable n t) := .ite (.frame h rfl) h
theorem vfReturn (h : Keeps s t) : Keeps s (vfReturn t) :=
  .frame (.foldl (.foldl h (fun _ _ hu => .eraseSlot hu)) (fun _ _ hu => .camErase hu)) rfl
theorem vfSettle (h : Keeps s t) : Keeps s (vfSettle t) := .ite (.schedule (.vfReturn h)) h
theorem vfResize (h : Keeps s t) : Keeps s (vfResize t) := by
  unfold Machine.vfResize
  split
  · exact .ite h (.engineFail (.dropResize h))
  · exact h
theorem vfClear (h : Keeps s t) : Keeps s (vfClear t) :=
  .ite h (.vfSettle (.frame (.foldl (.vfResize h) (fun _ _ hu => .fnReset hu)) rfl))
theorem doVfEnableClear (h : Keeps s t) : Keeps s (doVfEnableClear t) := .ite (.vfClear h) h

/-! ## Moves (R440, R512) -/

theorem unfreezeHold (h : Keeps s t) : Keeps s (unfreezeHold t) := .frame (.foldl h (fun _ _ hu => .modQ hu)) rfl
theorem setMode {m} (h : Keeps s t) : Keeps s (setMode t m) :=
  .ite h (.ite (.ite (.unfreezeHold (.ite (.frame (.frame (.ite (.wakeDram h) h) rfl) rfl) (.frame (.ite (.wakeDram h) h) rfl)))
    (.ite (.frame (.frame (.ite (.wakeDram h) h) rfl) rfl) (.frame (.ite (.wakeDram h) h) rfl))) (.logEvent (.ite (.unfreezeHold (.ite
    (.frame (.frame (.ite (.wakeDram h) h) rfl) rfl) (.frame (.ite (.wakeDram h) h) rfl))) (.ite (.frame (.frame (.ite (.wakeDram h) h)
    rfl) rfl) (.frame (.ite (.wakeDram h) h) rfl)))))
theorem gateCluster {c} (h : Keeps s t) : Keeps s (gateCluster t c) := .foldl (.setCluster (.frame h rfl)) (fun _ _ hu => .coreOff hu)
theorem gateAll (h : Keeps s t) : Keeps s (gateAll t) := .foldl h (fun _ _ hu => .gateCluster hu)

/-! ## Stopping items -/

theorem stopItem {id st} (h : Keeps s t) : Keeps s (stopItem t id st) := by
  unfold Machine.stopItem
  split
  · exact h
  · exact .ite h (.ite (.failRun h) (.failItem (.undoWork h)))
theorem noItem {d st} (h : Keeps s t) : Keeps s (noItem t d st).2 := .freeRes (.freeRes h)
theorem freezeBare {d st} (h : Keeps s t) : Keeps s (freezeBare t d st) := .ite (.freezeQueue (.noItem h)) h

/-! ## Hold (R444) -/

theorem cancelReq (h : Keeps s t) : Keeps s (cancelReq t) := by
  unfold Machine.cancelReq
  split
  · exact h
  · dsimp only
    split
    · exact .failItem (.frame h rfl)
    · exact .frame h rfl
theorem stopDma (h : Keeps s t) : Keeps s (stopDma t) := .frame h rfl
theorem holdEntry {cause} (h : Keeps s t) : Keeps s (holdEntry t cause) := by
  have hpwr {w act} (hw : Keeps s w) : Keeps s { w with pwr := { w.pwr with holdFroze := act } } := .frame hw rfl
  have hhold {w frm} (hw : Keeps s w) : Keeps s { w with
      pwr := { w.pwr with holdCause := cause, holdFrom := frm, reqWait := none, maintAuto := false }, ras := { w.ras with rcv := none } }
        :=
    .frame hw rfl
  unfold Machine.holdEntry
  refine .ite h (.gateAll (hpwr ?_))
  exact .foldl (.stopDma (.foldl (.setMode (hhold (.cancelReq h))) (fun _ _ hu => .stopItem hu))) (fun _ _ hu => .freezeBare hu)

/-! ## Requests (R441, R444, R445) -/

theorem resume (h : Keeps s t) : KeepsE s (resume t) :=
  .ite .error (.ite (.ok (.schedule (.setMode (.frame h rfl)))) (.ite (.ite .error (.ite (.ok (.setMode (.frame h rfl))) (.ite (.ok
    (.setMode (.frame h rfl))) (.ok (.schedule (.setMode (.frame h rfl))))))) (.ite (.ite .error (.ok (.schedule (.setMode (.frame h
    rfl))))) .error)))
theorem judgeReq {q} (h : Keeps s t) : KeepsE s (judgeReq t q) :=
  .ite (Keeps.resume h) (.ite .error (.ite .error (.ite (.ok (.setMode (.frame h rfl))) .error)))
theorem modeRequest {q} (h : Keeps s t) : KeepsE s (modeRequest t q) := .ite (.ite .error (.ok (.frame h rfl))) (Keeps.judgeReq h)
theorem regReq {r} (h : Keeps s t) (hr : KeepsE s r) : Keeps s (regReq t r) := by
  unfold Machine.regReq
  split
  · exact .frame (hr _ rfl) rfl
  · exact .frame h rfl
theorem itemReq {id r} (h : Keeps s t) (hr : KeepsE s r) : Keeps s (itemReq t id r) := by
  unfold Machine.itemReq
  split
  · exact .toEngine (hr _ rfl)
  · exact .failItem h
theorem modeReqWrite {v} (h : Keeps s t) : Keeps s (modeReqWrite t v) := .regReq h (Keeps.modeRequest h)
theorem modeReqRow {p target stop} (h : Keeps s t) : Keeps s (modeReqRow p target stop t) :=
  .ite (.modeReqWrite (.regPut h)) (.ite (.deny h) h)
theorem doModeReqResume {p} (h : Keeps s t) : Keeps s (doModeReqResume p t) := .modeReqRow h
theorem doModeReqDrain {p stop} (h : Keeps s t) : Keeps s (doModeReqDrain p stop t) := .modeReqRow h
theorem doModeReqRetain {p} (h : Keeps s t) : Keeps s (doModeReqRetain p t) := .modeReqRow h
theorem doModeReqMaintain {p} (h : Keeps s t) : Keeps s (doModeReqMaintain p t) := .modeReqRow h
theorem doModeReqOffReady {p} (h : Keeps s t) : Keeps s (doModeReqOffReady p t) := .modeReqRow h
theorem doModeRequest {id} (h : Keeps s t) : Keeps s (doModeRequest id t) := by
  unfold Machine.doModeRequest
  split
  · exact h
  · exact .ite (.failItem h) (.itemReq h (Keeps.modeRequest h))
theorem judgeWaiting (h : Keeps s t) : Keeps s (judgeWaiting t) := by
  unfold Machine.judgeWaiting
  split
  · exact h
  · dsimp only
    split
    · exact .regReq (.frame h rfl) (Keeps.judgeReq (.frame h rfl))
    · split
      next e =>
        exact .of_ok e (Keeps.judgeReq (.frame h rfl))
      · exact .failItem (.frame h rfl)

/-! ## What a loss of power leaves (R434, R443, R452, R496) -/

end Keeps

namespace KeepsMem

theorem powerOff (h : Keeps s t) : KeepsMem s (powerOff t) :=
  ⟨h.pending, h.code512, fun m => by
    obtain ⟨-, hhost, -, -, -, -, -, -, -, hdrv, -⟩ := h.memOk m
    exact ⟨memWf_nil, hhost, memWf_nil, memWf_nil, memWf_nil, memWf_nil, memWf_nil, List.forall_mem_nil _, List.forall_mem_nil _,
      drivesOk_map hdrv (fun _ hp => hp), List.forall_mem_nil _⟩⟩
theorem retained (h : Keeps s t) : KeepsMem s (retained t) := by
  unfold Machine.retained
  extract_lets u
  have hu : Keeps s u := .sleepDram (.flushWrites h)
  clear_value u
  refine ⟨hu.pending, hu.code512, fun m => ?_⟩
  obtain ⟨hdram, hhost, -, -, -, -, -, -, -, hdrv, -⟩ := hu.memOk m
  obtain ⟨-, -, -, -, -, hret, -⟩ := h.memOk m
  exact ⟨memWf_filter hdram _, hhost, memWf_nil, memWf_nil, memWf_nil, hret, memWf_nil, List.forall_mem_nil _, List.forall_mem_nil _,
    drivesOk_map hdrv (fun _ hp => hp), List.forall_mem_nil _⟩
theorem retainEntry {wakeAt} (h : Keeps s t) : KeepsMem s (retainEntry t wakeAt) := by
  have hpwr {w} (hw : Keeps s w) : Keeps s { w with pwr := { w.pwr with wakeAt := wakeAt } } := .frame hw rfl
  unfold Machine.retainEntry
  exact .retained (hpwr (.setMode h))

end KeepsMem

namespace Keeps

/-! ## Drain (R442, R445) -/

theorem reqDone {q m} (h : Keeps s t) : Keeps s (reqDone t q m) := by
  unfold Machine.reqDone
  dsimp only
  split
  · exact .commitNow (.frame h rfl)
  · exact .frame h rfl
theorem maintainRefused {q} (h : Keeps s t) : Keeps s (maintainRefused t q) := by
  have herr {w} (hw : Keeps s w) : Keeps s { w with pwr := { w.pwr with reqErr := ReqErr.cause } } := .frame hw rfl
  unfold Machine.maintainRefused
  extract_lets _ u
  have hu : Keeps s u := .setMode (.frame h rfl)
  split
  · exact .failItem hu
  · exact .schedule (herr hu)
end Keeps

namespace KeepsMem

theorem doDrainComplete (h : Keeps s t) : KeepsMem s (doDrainComplete t) := by
  unfold Machine.doDrainComplete
  split
  · exact h.mem
  · exact .ite h.mem (.ite (.ite h.mem (Keeps.mem (.beginSnap (.frame h rfl)))) (.ite h.mem (.ite
      (.ite (Keeps.mem (.maintainRefused h)) (Keeps.mem (.reqDone (.setMode h)))) (.ite
      (.retainEntry (.reqDone h)) (Keeps.mem (.reqDone h))))))

end KeepsMem

namespace Keeps

/-! ## The mode controller's own moves (R439) -/

theorem doModeAutoMove (h : Keeps s t) : Keeps s (doModeAutoMove t) :=
  .ite (.ite (.setMode h) (.ite (.setMode h) (.setMode h))) (.ite (.schedule (.setMode (.frame h rfl))) h)

/-! ## AON writes (R435, R485) -/

theorem aonPost {p off v} (h : Keeps s t) : Keeps s (aonPost t p off v) := .ite (.frame h rfl) h
theorem doAonPostedWrite {p off v} (h : Keeps s t) : Keeps s (doAonPostedWrite p off v t) := .ite (.aonPost h) h
theorem devtimeSet {v} (h : Keeps s t) : Keeps s (devtimeSet t v) := .ite (.frame h rfl) h
theorem aonApply {w} (h : Keeps s t) : Keeps s (aonApply t w) :=
  .ite (.modeReqWrite (.regPut h)) (.ite (.frame h rfl) (.ite (.devtimeSet h) (.ite (.frame h rfl) h)))
theorem doDevtimeWrite (h : Keeps s t) : Keeps s (doDevtimeWrite t) := by
  unfold Machine.doDevtimeWrite
  split
  · exact h
  · exact .devtimeSet (.frame h rfl)
theorem aonCopy (h : Keeps s t) : Keeps s (aonCopy t) := .frame h rfl
theorem doAclkEdge (h : Keeps s t) : Keeps s (doAclkEdge t) :=
  .ite h (.aonCopy (.drainEvents (.foldl (.frame (.frame h rfl) rfl) (fun _ _ hu => .aonApply hu))))
theorem fclkTick (h : Keeps s t) : Keeps s (fclkTick t) := .ite (.frame h rfl) h

/-! ## Temperature (R412, R446, R447, R450) -/

end Keeps

namespace KeepsMem

theorem thermalTrip {k t'} (h : KeepsMem s t) : KeepsMem s (thermalTrip t k t') :=
  ((h.trans (.logEvent .refl)).setTherm).trans (.gateAll (.holdEntry .refl))
theorem doThermalSample {temps} (h : Keeps s t) : KeepsMem s (doThermalSample temps t) := by
  unfold Machine.doThermalSample
  split
  · exact h.mem
  · extract_lets _ _ twice _ u1 u2 u3 u4 _ u5
    have h3 : Keeps s u3 := .regSetFld (.foldl (.frame h rfl) (fun _ _ hu => .setCluster hu))
    have h4 : Keeps s u4 := .ite (.foldl h3 (fun _ _ hu => .retuneStop hu)) h3
    have h5 : KeepsMem s u5 := .ite (.setTherm h4.mem) h4.mem
    clear_value twice
    split
    · exact h5
    · exact .ite h5 (.thermalTrip h5)

end KeepsMem

namespace Keeps

/-! ## Power (R448, R449) -/

theorem doPowerEstimate {total perCl} (h : Keeps s t) : Keeps s (doPowerEstimate total perCl t) := by
  have hlim {w b} (hw : Keeps s w) : Keeps s { w with pwr := { w.pwr with limiting := b } } := .frame hw rfl
  unfold Machine.doPowerEstimate
  extract_lets lim _ u v
  have hu : Keeps s u := .frame h rfl
  refine .ite h (hlim (.ite ?_ (.ite ?_ hu)))
  · exact .foldl hu (fun _ _ hw => .setCluster hw)
  · exact .foldl hu (fun _ _ hw => .setCluster hw)

/-! ## The boot flash (R419, R421, R429) -/

theorem flashWrite {a bs} (h : Keeps s t) : Keeps s (flashWrite t a bs) := .frame h rfl
theorem flashErase {k} (h : Keeps s t) : Keeps s (flashErase t k) := .frame h rfl
theorem writePtr {p} (h : Keeps s t) : Keeps s (writePtr t p) := by
  unfold Machine.writePtr
  extract_lets head u
  have hu : Keeps s u := .flashWrite h
  clear_value u
  exact .frame hu rfl

/-! ## Lockdown (R432) -/

theorem enginesOff (h : Keeps s t) : Keeps s (enginesOff t) :=
  h.trans ⟨rfl, rfl, rfl, fun m => by
    obtain ⟨hdram, hhost, -, hcam, hcopy, hret, hmbox, hcores, -, hdrv, -⟩ := m
    refine ⟨hdram, hhost, memWf_nil, hcam, hcopy, hret, hmbox, fun q hq => ?_, nofun, drivesOk_map hdrv (fun _ hp => hp), nofun⟩
    obtain ⟨p, hp, he⟩ := List.mem_filterMap.mp hq
    have hm := hcores p hp
    split at he
    · cases he; exact hm
    · split at he
      · cases he
      · cases he; exact hm⟩
theorem lockdown {cause} (h : Keeps s t) : Keeps s (lockdown t cause) := by
  unfold Machine.lockdown
  refine .ite h ?_
  have h1 : Keeps s { t with ciph := { wrapGone := true } } := .frame h rfl
  extract_lets s1 s2 s3 s4 _ _ s5 s6
  have h4 : Keeps s s4 := .regSetFld (.regSetFld (.regSetFld (.regSetFld (.enginesOff h1))))
  have h6 : Keeps s s6 := .logEvent (.frame h4 rfl)
  exact .frame (.setMode h6) rfl
theorem sillFault (h : Keeps s t) : Keeps s (sillFault t) := .lockdown (.logEvent (.frame (.freeRes h) rfl))

/-! ## The boot chain (R423, R426, R429, R431) -/

theorem memWf_frameMem (body : List Byte) (k : Nat) : memWf (frameMem body k) = true :=
  memWf_mwrite _ _ (memWf_mwrite _ _ memWf_nil)
theorem loadFrame {slot} (h : Keeps s t) : Keeps s (loadFrame t slot) :=
  .foldl h (fun _ k hu => .setCore hu (fun _ => memWf_frameMem _ k))
theorem loadFrame_pwr (t : State) (k : Nat) : (Machine.loadFrame t k).pwr = t.pwr := rfl
theorem finishBlow {i} (h : Keeps s t) : Keeps s (finishBlow t i) := .ite (.frame h rfl) h
theorem bootDone {i} (h : Keeps s t) : Keeps s (bootDone t i) := by
  unfold Machine.bootDone
  extract_lets u _ v w
  have hu : Keeps s u := .finishBlow (.loadFrame h)
  clear_value u
  have hw : Keeps s w := .setMode (.frame hu rfl)
  clear_value w
  exact .frame hw rfl
theorem bootFactory {i f} (h : Keeps s t) : Keeps s (bootFactory t i f) := .ite (.sillFault h) (.ite (.bootDone h) (.lockdown h))
theorem bootSlots {a b faults} (h : Keeps s t) : Keeps s (bootSlots t a b faults) := by
  unfold Machine.bootSlots
  split
  · exact .bootFactory h
  · exact .sillFault h
  · split
    · exact .bootFactory h
    · exact .sillFault h
    · exact .lockdown h
theorem bootVerify {faults} (h : Keeps s t) : Keeps s (bootVerify t faults) := by
  have hc := setCore (i := sillCore) (c := { coreInit sillCore with run := .run }) h (fun _ => memWf_nil)
  unfold Machine.bootVerify
  dsimp only
  split
  · exact .lockdown hc
  · exact .ite (.bootSlots (.writePtr (.frame hc rfl))) (.bootSlots (.frame hc rfl))

/-! ## Requests (R427 to R430) -/

theorem answerReq {r st data} (h : Keeps s t) : Keeps s (answerReq t r st data) :=
  .ite (.frame (.frame h rfl) rfl) (.ite (.frame (.frame h rfl) rfl) (.foldl (.frame h rfl) (fun _ _ hu => .sendPacket hu)))
theorem sillArrive {r} (h : Keeps s t) : Keeps s (sillArrive t r) := .ite h (.ite (.frame h rfl) (.answerReq (.frame h rfl)))
theorem sillServe {cmd src data go} (h : Keeps s t) (hgo : ∀ u r, Keeps s u → Keeps s (go u r)) : Keeps s (sillServe cmd src data t go)
  := by
  unfold Machine.sillServe
  extract_lets _ u
  have hu : Keeps s u := .ite (.sillArrive h) h
  refine .ite h (.ite (.ite (.frame h rfl) h) ?_)
  split
  · exact hu
  · exact .ite hu (.ite (.answerReq hu) (hgo _ _ hu))
theorem doStatus {src data} (h : Keeps s t) : Keeps s (doStatus src data t) := .sillServe h (fun _ _ hu => .answerReq hu)
theorem doAttest {src data} (h : Keeps s t) : Keeps s (doAttest src data t) :=
  .sillServe h (fun _ _ hu => .ite (.answerReq hu) (.answerReq (.nextFree hu)))
theorem doCerts {src data} (h : Keeps s t) : Keeps s (doCerts src data t) := .sillServe h (fun _ _ hu => .answerReq hu)
theorem doFwWrite {src data} (h : Keeps s t) : Keeps s (doFwWrite src data t) :=
  .sillServe h (fun _ _ hu => .ite (.answerReq hu) (.ite (.answerReq hu) (.answerReq (.flashWrite (.frame (.ite (.flashErase hu)
    hu) rfl)))))
theorem doFwCommit {src data faults} (h : Keeps s t) : Keeps s (doFwCommit src data faults t) := by
  unfold Machine.doFwCommit
  refine .sillServe h (fun _ _ hu => .ite (.answerReq hu) (.ite (.answerReq (.frame hu rfl)) ?_))
  split
  · exact .sillFault (.frame hu rfl)
  · exact .answerReq (.frame hu rfl)
  · exact .answerReq (.frame hu rfl)
  · refine .ite (.answerReq (.frame hu rfl)) ?_
    split
    · exact .answerReq (.frame hu rfl)
    · exact .answerReq (.writePtr (.frame hu rfl))
theorem doFwAccept {src data} (h : Keeps s t) : Keeps s (doFwAccept src data t) := by
  refine .sillServe h (fun u r hu => ?_)
  split
  · exact .answerReq hu
  · extract_lets v
    have hv : Keeps s v := .writePtr hu
    clear_value v
    exact .ite (.answerReq hu) (.answerReq (.frame hv rfl))
theorem doDebugOpen {src data fault} (h : Keeps s t) : Keeps s (doDebugOpen src data fault t) := by
  refine .sillServe h (fun u r hu => ?_)
  extract_lets v
  have hv : Keeps s v := .foldl hu (fun _ _ hw => .eraseSlot hw)
  clear_value v
  exact .ite (.sillFault hu) (.ite (.answerReq (.frame hv rfl)) (.answerReq hu))
theorem doMgmtPacket {n} (h : Keeps s t) : Keeps s (doMgmtPacket n t) := by
  unfold Machine.doMgmtPacket
  refine .ite h ?_
  split
  next e =>
    exact .sillArrive (.of_some_snd e (Keeps.takeInbox h))
  · exact h
theorem mboxSubmit {v} (h : Keeps s t) : Keeps s (mboxSubmit t v) :=
  .ite h (.ite (.regWrite h) (.ite (.frame h rfl) (.sillArrive (.regWrite h))))

/-! ## DIGEST_MESSAGE_DONE (R402) -/

theorem doDigestMessageDone {a pair} (h : Keeps s t) : Keeps s (doDigestMessageDone a pair t) := by
  unfold Machine.doDigestMessageDone
  split
  · exact h
  · refine .ite h ?_
    dsimp only
    split
    · exact .digestItemDone (.digEnd h)
    · exact .ite (.sillFault (.digEnd h)) (.digEnd h)

/-! ## A halted Frame core (R424) -/

theorem stopFrame (h : Keeps s t) : Keeps s (stopFrame t) := .foldl h (fun _ _ hu => .coreStop hu)

/-! ## Frame start-up, steps 4 to 7 (R502, R504) -/

theorem stopDelays {m t'} (h : Keeps s t) : Keeps s (stopDelays t m t') :=
  .foldl h (fun _ _ hu => .delayCopy (.shadowApply (.shadowSet hu)))
theorem startFrame {wake sens} (h : Keeps s t) : Keeps s (startFrame t wake sens) := by
  have hepoch {w} (hw : Keeps s w) : Keeps s { w with dmc := { w.dmc with epoch := (w.dmc.epoch + 1) % 16 } } := .frame hw rfl
  have hpwr {w} (hw : Keeps s w) : Keeps s { w with
      pwr := { w.pwr with fromRetain := wake, drivesOut := true, drivesAt := now w, startStep := 5 } } := .frame hw rfl
  unfold Machine.startFrame
  extract_lets u v
  have hu : Keeps s u := .foldl h (fun _ _ hu => .stopDelays hu)
  have hv : Keeps s v := .ite hu (.reapplyRepairs hu)
  exact hpwr (.ite hv (hepoch hv))
theorem memWf_foundDrive (hd : DrivesOk t.led.drives) (d : Nat) (f : Nat × Bool × Option (List (Nat × Byte))) :
    memWf (foundDrive t d f).mem = true := by
  unfold Machine.foundDrive
  dsimp only
  split
  · rw [tgetD]
    cases hg : tget t.led.drives d with
    | none => rfl
    | some x =>
      obtain ⟨p, hp, rfl⟩ := mem_of_tget hg
      exact hd p hp
  next cells _ =>
    exact List.foldlRecOn (motive := fun m : Mem => memWf m = true) cells _ memWf_nil (fun m hm c _ => memWf_mwrite _ _ hm)
theorem drivesReady {found} (h : Keeps s t) : Keeps s (drivesReady t found) := by
  refine .frame (.ledRecover (.withDrives h (fun hd q hq => ?_))) rfl
  obtain ⟨p, -, he⟩ := List.mem_filterMap.mp hq
  split at he
  · cases he
  · cases he
    exact memWf_foundDrive hd _ _
theorem doDriveReady {found} (h : Keeps s t) : Keeps s (doDriveReady found t) := .ite (.drivesReady h) h
theorem doDriveReadyTimeout {found} (h : Keeps s t) : Keeps s (doDriveReadyTimeout found t) := .ite (.drivesReady h) h
theorem fillDram (h : Keeps s t) : Keeps s (fillDram t) := .withDram h (fun _ => memWf_nil) rfl
theorem frameTables (h : Keeps s t) : Keeps s (frameTables t) := by
  have hset {w} (hw : Keeps s w) : Keeps s { w with
      fns := { w.fns with windows := [(0, [⟨0, ledgerArea w⟩])] }, plans := { poolSize := poolGib w * 1024, poolBase := stPoolArea w },
      qm := { w.qm with ikeys := [], floors := [] }, ing := { w.ing with toClear := true } } :=
    .withPlans (ps := []) hw (fun _ => nofun) rfl
  unfold Machine.frameTables
  exact hset (.cacheOn (.regPut (.dramWrite h)))
theorem doDramFillDone (h : Keeps s t) : Keeps s (doDramFillDone t) := by
  have hstep {w} (hw : Keeps s w) : Keeps s { w with pwr := { w.pwr with startStep := 7, fromRetain := false } } := .frame hw rfl
  have hauto {w} (hw : Keeps s w) : Keeps s { w with pwr := { w.pwr with maintAuto := true } } := .frame hw rfl
  unfold Machine.doDramFillDone
  exact .ite h (.ite (.setMode (hauto (hstep (.frameTables (.ite h (.fillDram h))))))
    (.schedule (.setMode (hstep (.frameTables (.ite h (.fillDram h)))))))

/-! ## POR_L (R495, R496, R502) -/

end Keeps

namespace KeepsMem

theorem doPorAssert (h : Keeps s t) : KeepsMem s (doPorAssert t) := .powerOff h

end KeepsMem

namespace Keeps
theorem boot {wake faults sens} (h : Keeps s t) : Keeps s (boot t wake faults sens) := by
  have hv : Keeps s (Machine.bootVerify t faults) := .bootVerify h
  unfold Machine.boot
  exact .ite (.startFrame hv) hv
theorem doPorRelease {bad faults sens} (h : Keeps s t) : Keeps s (doPorRelease bad faults sens t) :=
  .ite h (.ite (.lockdown (.logEvent (.frame h rfl))) (.boot (.logEvent (.frame h rfl))))

/-! ## Wakes from Retain (R443, R504) -/

theorem wake {src faults sens} (h : Keeps s t) : Keeps s (wake t src faults sens) := .ite (.boot (.setMode (.frame h rfl))) h
theorem doWakePin {faults sens} (h : Keeps s t) : Keeps s (doWakePin faults sens t) := .wake h
theorem doWakeTimer {faults sens} (h : Keeps s t) : Keeps s (doWakeTimer faults sens t) := .ite (.wake h) h
theorem doWakeSmbus {faults sens} (h : Keeps s t) : Keeps s (doWakeSmbus faults sens t) := .ite (.wake (.frame h rfl)) h

/-! ## PERST# (R497) -/

theorem doPerstDeassert {faults sens} (h : Keeps s t) : Keeps s (doPerstDeassert faults sens t) := .ite h (.wake (.frame h rfl))
theorem doPerstAssert (h : Keeps s t) : Keeps s (doPerstAssert t) := .ite h (.ite (.frame h rfl) (.vfClear (.fnReset (.frame h rfl))))

/-! ## A Frame core that halts (R424) -/

theorem frameHalt {k} (h : Keeps s t) : Keeps s (frameHalt t k) := by
  have hhold {w} (hw : Keeps s w) : Keeps s { Machine.loadFrame w w.sec.slot with pwr := { w.pwr with holdCause := 0 } } :=
    .frame (Keeps.loadFrame (slot := w.sec.slot) hw) (by dsimp only [SameKept]; rw [loadFrame_pwr])
  have hstart {w} (hw : Keeps s w) : Keeps s { w with pwr := { w.pwr with startStep := 3 } } := .frame hw rfl
  unfold Machine.frameHalt
  extract_lets hs _ s1 s2 l _ s3
  have h2 : Keeps s s2 := .holdEntry (.stopFrame (.logEvent (.frame h rfl)))
  refine .ite (.lockdown h2) ?_
  split
  · exact .startFrame (hstart (.setMode (hhold h2)))
  · exact .sillFault h2
  · exact .lockdown h2

/-! ## Taking back the threads of a tile (R461, R463) -/

theorem restartItem {id} (h : Keeps s t) : Keeps s (restartItem t id) := by
  unfold Machine.restartItem
  split
  · exact h
  · exact .ite (.setItem (.undoWork h)) h
theorem replayThread {e} (h : Keeps s t) : Keeps s (replayThread t e) := by
  unfold Machine.replayThread
  split
  · refine .ite h ?_
    split
    · exact .modTask (.setRun h)
    · exact h
  · exact .ite h (.restartItem h)
theorem takeBack {m} (h : Keeps s t) : Keeps s (takeBack t m) := .foldl h (fun _ _ hu => .setEntry (.ite (.replayThread hu) hu))

/-! ## A tile without a spare (R462) -/

theorem shrinkGrants {m} (h : Keeps s t) : Keeps s (shrinkGrants t m) := by
  unfold Machine.shrinkGrants
  refine .foldl (.foldl h (fun _ _ hu => ?_)) (fun _ _ hu => .stopItem hu)
  split
  · exact hu
  · exact .ite (.failRun (.setRun hu)) (.setRun hu)
theorem remakeAbsent (h : Keeps s t) : Keeps s (remakeAbsent t) :=
  .foldl h (fun _ _ hu => .foldl hu (fun _ _ hv => .standingRemake hv))
theorem tileGone {p m} (h : Keeps s t) : Keeps s (tileGone t p m) :=
  .schedule (.remakeAbsent (.shrinkGrants (.coreOff (.frame (.takeBack h) rfl))))

/-! ## Recover (R460 to R462, R468) -/

theorem enterRecover {p m kind inPlace} (h : Keeps s t) : Keeps s (enterRecover t p m kind inPlace) :=
  .schedule (.ite (.tileStart (.takeBack (.setMode (.frame h rfl)))) (.coreStop (.takeBack (.setMode (.frame h rfl)))))
theorem remapTile {p m} (h : Keeps s t) : Keeps s (remapTile t p m) := .schedule (.logEvent (.tileStart (.coreOff (.frame h rfl))))
theorem tileFault {p} (h : Keeps s t) : Keeps s (tileFault t p) := by
  unfold Machine.tileFault
  refine .ite (.holdEntry h) ?_
  split
  · exact h
  · exact .ite (.tileGone h) (.ite (.enterRecover h) (.remapTile (.takeBack h)))
theorem doSpareTileRemap (h : Keeps s t) : Keeps s (doSpareTileRemap t) := by
  unfold Machine.doSpareTileRemap
  split
  · exact h
  · exact .ite h (.remapTile (.frame h rfl))
theorem doRecoverEnd (h : Keeps s t) : Keeps s (doRecoverEnd t) := by
  unfold Machine.doRecoverEnd
  split
  · exact h
  · exact .ite h (.judgeWaiting (.schedule (.logEvent (.setMode (.frame h rfl)))))

/-! ## Tiles that halt (R220, R457) -/

theorem tileHalt {p} (h : Keeps s t) : Keeps s (tileHalt t p) := by
  unfold Machine.tileHalt
  dsimp only
  split
  · exact .modCore h (fun _ hc => hc)
  · refine .schedule (.frame (.takeBack ?_) rfl)
    split
    · exact .stopItem (.modCore h (fun _ hc => hc))
    · exact .modCore h (fun _ hc => hc)
theorem doTileBistDone {p pass} (h : Keeps s t) : Keeps s (doTileBistDone p pass t) :=
  .ite h (.ite (.schedule (.tileStart (.rasCount (.logEvent (.frame h rfl))))) (.tileFault (.rasCount (.logEvent (.frame h rfl)))))

/-! ## DETECTED_ERROR (R456, R458, R459, R469) -/

theorem useRow {cls unit} (h : Keeps s t) : Keeps s (useRow t cls unit) := .logEvent (.frame h rfl)
theorem unitFault {cls unit} (h : Keeps s t) : Keeps s (unitFault t cls unit) :=
  .ite (.ite (.tileFault h) (.holdEntry h)) (.ite (.retireWay (.badLine h)) (.ite (.holdEntry (.frame h rfl)) (.ite (.doCamScrub h)
    (.ite (.ite (.holdEntry h) (.logEvent (.frame h rfl))) (.ite (.modPort h) (.holdEntry h))))))
theorem doDetectedError {cls unit form} (h : Keeps s t) : Keeps s (doDetectedError cls unit form t) := by
  unfold Machine.doDetectedError
  refine .ite h (.ite (.rasCount (.ite (.cntAdd h) h)) (.ite (.holdEntry (.ite h (.rasCount (.ite (.cntAdd h) h)))) (.ite (.unitFault
    (.ite h (.rasCount (.ite (.cntAdd h) h)))) (.ite (.ite (.holdEntry (.useRow (.ite h (.rasCount (.ite (.cntAdd h) h))))) ?_) (.ite
    (.badLine (.useRow (.ite h (.rasCount (.ite (.cntAdd h) h))))) (.useRow (.ite h (.rasCount (.ite (.cntAdd h) h)))))))))
  split
  · exact .ite (.enterRecover (.useRow (.ite h (.rasCount (.ite (.cntAdd h) h))))) (.schedule (.tileStart (.takeBack (.useRow (.ite h
      (.rasCount (.ite (.cntAdd h) h)))))))
  · exact .useRow (.ite h (.rasCount (.ite (.cntAdd h) h)))

/-! ## A second fault during Recover (R459) -/

theorem secondFault {b} (h : Keeps s t) : Keeps s (secondFault b t) := .ite (.holdEntry h) h
theorem doClusterWakeCompleteAll {c} (h : Keeps s t) : Keeps s (doClusterWakeCompleteAll c t) := .remakeAbsent (.doClusterWakeComplete h)

/-! ## Drops and reports (R178, R179) -/

theorem reportDrop {k port layout key rx} (h : Keeps s t) : Keeps s (reportDrop t k port layout key rx) := by
  unfold Machine.reportDrop
  dsimp only
  split
  · exact .frame h rfl
  · exact .ite (.frame h rfl) (.placeEntry h)
theorem drop {port k layout key rx} (h : Keeps s t) : Keeps s (drop t port k layout key rx) :=
  .ite (.ite (.reportDrop (.modPort h)) (.reportDrop (.modPort h))) (.modPort h)

/-! ## The item of a message (R83, R176, R182 to R185) -/

theorem ingestSearch {lc fn g lm x} (h : Keeps s t) : Keeps s (ingestSearch t lc fn g lm x).1 := by
  unfold Machine.ingestSearch
  dsimp only
  split
  · exact h
  · split
    · exact .camSearch h
    · exact h
theorem makeStanding {fn pid m lc deadline flow} (h : Keeps s t) : Keeps s (makeStanding t fn pid m lc deadline flow) := by
  unfold Machine.makeStanding
  dsimp only
  split
  · exact .schedule (.insertEntry (.setRun (.addItem h)))
  · refine .schedule (.insertEntry (.setRun ?_))
    split
    next e =>
      exact .of_some_snd e (Keeps.joinFlow (.addItem h))
    · exact .addItem h
theorem admitMessage {port frame p rx fn pid} (h : Keeps s t) : Keeps s (admitMessage t port frame p rx fn pid) := by
  unfold Machine.admitMessage
  dsimp only
  split
  · exact .drop h
  · split
    · exact .drop h
    · exact .ite (.drop (.frame h rfl)) (.ite (.drop (.frame h rfl)) (.makeStanding (.ingestSearch h)))
theorem serveMessage {port frame p} (h : Keeps s t) : Keeps s (serveMessage t port frame p) := by
  unfold Machine.serveMessage
  refine .ite (.sendFrame (.modPort h)) ?_
  dsimp only
  split
  · exact .drop h
  · refine .ite (.drop h) ?_
    split
    · split
      · exact .drop h
      · exact h
      · exact .sendFrame (.modPort h)
    · refine .ite (.drop h) ?_
      split
      · exact .drop h
      next e =>
        exact .admitMessage (.of_some e (Keeps.cacheReserve h))

/-! ## INGEST_FRAME (R173, R174) -/

theorem doIngestFrame {port f} (h : Keeps s t) : Keeps s (doIngestFrame port f t) := by
  unfold Machine.doIngestFrame
  refine .ite h (.ite (.drop h) (.ite (.ite (.sendFrame h) (.drop h)) (.ite (.sendFrame h) ?_)))
  split
  · exact .drop h
  · split
    · exact .drop h
    · exact .drop h
    · exact .serveMessage h

/-! ## Reply cache, layouts and floors (R181, R184) -/

theorem doReplyCacheExpiry (h : Keeps s t) : Keeps s (doReplyCacheExpiry t) := .foldl h (fun _ _ hu => .cacheRemove hu)
theorem doLayoutValidate {p} (h : Keeps s t) : Keeps s (doLayoutValidate p t) := .ite h (.setLayout h (fun m => memOk_getLayout m _))
theorem doLayoutInvalidate {p} (h : Keeps s t) : Keeps s (doLayoutInvalidate p t) := .ite h (.setLayout h (fun m => memOk_getLayout m _))
theorem doLayoutMemWrite {p off bytes} (h : Keeps s t) : Keeps s (doLayoutMemWrite p off bytes t) :=
  .ite h (.setLayout h (fun m => memWf_mwrite _ _ (memOk_getLayout m _)))
theorem doGwFloorWrite {p v} (h : Keeps s t) : Keeps s (doGwFloorWrite p v t) := .frame h rfl

/-! ## Reads -/

theorem dropHalves {p} (h : Keeps s t) : Keeps s (dropHalves t p) := .frame h rfl
theorem regRead {p fn a n} (h : Keeps s t) : Keeps s (regRead t p fn a n).2 := by
  unfold Machine.regRead
  dsimp only
  split
  · exact .dropHalves h
  · split
    · exact .dropHalves h
    · split
      · exact .dropHalves h
      · split
        · exact .dropHalves h
        · split
          · split
            · exact .dropHalves h
            · split
              · exact .ite (.frame h rfl) (.dropHalves h)
              · split
                · exact .dropHalves h
                · exact .dropHalves h
          · exact .dropHalves h

/-! ## Parity (R481 to R483) -/

theorem parResume {fn} (h : Keeps s t) : Keeps s (parResume t fn) := .foldl h (fun _ _ hu => .modQ hu)
theorem parCured {off inst} (h : Keeps s t) : Keeps s (parCured t off inst) := .ite (.parResume (.frame h rfl)) (.frame h rfl)
theorem doCfgParityScrub {off inst mismatch} (h : Keeps s t) : Keeps s (doCfgParityScrub off inst mismatch t) :=
  .ite h (.ite (.foldl (.logEvent (.frame h rfl)) (fun _ _ hu => .modQ (.freezeBare hu))) (.holdEntry (.logEvent (.frame h rfl))))

/-! ## Effects of a write, register by register -/

theorem initEmpty {w} (h : Keeps s t) : Keeps s (initEmpty t w) := by
  unfold Machine.initEmpty
  exact .led h (fun _ => rfl)
theorem writeSc {p off v} (h : Keeps s t) : Keeps s (writeSc t p off v) :=
  .ite (.ite (.doCacheEnable (.regWrite h)) (.doCacheDisable (.regWrite h))) (.ite (.doScLockWrite h) (.ite (.scPwr h) (.ite
    (.scratchWrite h) (.ite (.scOp h) (.ite (.regWrite h) (.regWrite h))))))
theorem writeDmc {p off v} (h : Keeps s t) : Keeps s (writeDmc t p off v) :=
  .ite (.doDmcCtlWrite h) (.ite (.doDelayShadowWrite h) (.ite (.doDelayShadowWrite h) (.ite (.doDelayApply h) (.ite (.ite
    (.doPprSoft h) (.ite (.doPprHard h) h)) (.ite (.aonPost h) (.regWrite h))))))
theorem writeQm {p fn off v} (h : Keeps s t) : Keeps s (writeQm t p fn off v) := by
  unfold Machine.writeQm
  refine .ite (.doQueueEnable h) (.ite ?_ (.ite (.regWrite h) (.ite (.ite h (.regWrite h)) (.regWrite h))))
  split
  · exact .ite (.regWrite h) h
  · exact h
theorem writeDma {p off v} (h : Keeps s t) : Keeps s (writeDma t p off v) :=
  .ite (.ite (.frame h rfl) (.doDmaChannelGrant (.regWrite h))) (.regWrite h)
theorem writeIng {p off v} (h : Keeps s t) : Keeps s (writeIng t p off v) :=
  .ite (.ite (.doLayoutValidate h) (.doLayoutInvalidate h)) (.ite (.doGwFloorWrite h) (.regWrite h))
theorem writeLed {p off v} (h : Keeps s t) : Keeps s (writeLed t p off v) :=
  .ite (.ite (.initEmpty (.regWrite h)) (.regWrite h)) (.regWrite h)
theorem writeBry {p off v} (h : Keeps s t) : Keeps s (writeBry t p off v) :=
  .ite (.ite (.doBridyPortEnable h) (.doBridyPortDisable h)) (.ite (.doTxEpochChange h) (.regWrite h))
theorem writeCiph {p fn off v} (h : Keeps s t) : Keeps s (writeCiph t p fn off v) :=
  .ite (.ite (.doKeyLoad h) (.ite (.doKeyErase h) (.doStagingZeroise h))) (.ite (.frame h rfl) h)
theorem regEffect {p fn off v} (h : Keeps s t) : Keeps s (regEffect t p fn off v) := by
  unfold Machine.regEffect
  refine .ite (.doSchedWinSnapshot h) (.ite (.selPut h) ?_)
  split
  · exact .aonPost h
  · exact .aonPost h
  · exact .ite (.ite (.regWrite h) h) (.ite (.ite (.regWrite h) h) h)
  · exact .schedule (.regWrite h)
  · exact .schedule (.regWrite h)
  · exact .writeSc h
  · exact .writeDmc h
  · exact .writeQm h
  · exact .writeDma h
  · exact .writeIng h
  · exact .writeLed h
  · exact .writeBry h
  · exact .writeCiph h
  · exact .ite (.mboxSubmit h) h
  · exact h
theorem msixWrite {fn o bs} (h : Keeps s t) : Keeps s (msixWrite t fn o bs) := by
  have hw : Keeps s { t with msix := { t.msix with table := mwrite t.msix.table (fn * 0x8000 + o) bs } } :=
    h.trans ⟨rfl, rfl, rfl, fun m => ⟨m.1, m.2.1, memWf_mwrite _ _ m.2.2.1, m.2.2.2⟩⟩
  exact .ite (.sendMsix (.frame hw rfl)) hw

/-! ## Rewrites of a mismatching register (R482) -/

theorem parStore {p fn off inst v} (h : Keeps s t) : Keeps s (parStore t p fn off inst v) :=
  .ite (.modQ h) (.ite (.regWrite h) (.regEffect h))
theorem regStore {p fn off v} (h : Keeps s t) : Keeps s (regStore t p fn off v) := by
  unfold Machine.regStore
  split
  · exact .ite (.parCured (.parStore h)) (.regEffect h)
  · exact .regEffect h
theorem rowGate {p off f} (h : Keeps s t) (hf : ∀ u, Keeps s u → Keeps s (f u)) : Keeps s (rowGate t p off f) := by
  unfold Machine.rowGate
  split
  · exact .ite (.deny (.dropHalves h)) h
  · exact .ite (hf _ (.dropHalves h)) h
theorem rowWrite {p off f} (h : Keeps s t) (hf : ∀ u, Keeps s u → Keeps s (f u)) : Keeps s (rowWrite t p off f) := by
  refine .rowGate h (fun u hu => ?_)
  split
  · exact .ite (.parCured (hf _ hu)) (hf _ hu)
  · exact hf _ hu
theorem rowWriteVal {p off v f} (h : Keeps s t) (hf : ∀ u, Keeps s u → Keeps s (f u)) : Keeps s (rowWriteVal t p off v f) := by
  refine .rowGate h (fun u hu => ?_)
  split
  · exact .ite (.parCured (.parStore hu)) (hf _ hu)
  · exact hf _ hu
theorem rowWriteMem {p off f} (h : Keeps s t) (hf : ∀ u, Keeps s u → Keeps s (f u)) : Keeps s (rowWriteMem t p off f) := by
  unfold Machine.rowWriteMem
  refine .ite h ?_
  split
  · exact .deny (.dropHalves h)
  · exact .ite (hf _ (.dropHalves h)) h
theorem doCfgParityRewrite {p off v} (h : Keeps s t) : Keeps s (doCfgParityRewrite p off v t) := by
  unfold Machine.doCfgParityRewrite
  refine .ite ?_ h
  split
  · exact .ite (.parCured (.parStore (.dropHalves h))) h
  · exact h

/-! ## Accesses -/

theorem regWriteAt {p fn a n v} (h : Keeps s t) : Keeps s (regWriteAt t p fn a n v).1 := by
  have hu := dropHalves (p := p) h
  unfold Machine.regWriteAt
  dsimp only
  split
  · exact hu
  · split
    · exact hu
    · split
      · exact hu
      · split
        · exact hu
        · split
          · split
            · exact .regStore hu
            · split
              · exact .ite (.regStore hu) hu
              · split
                · exact .frame hu rfl
                · split
                  · exact .ite (.regStore hu) hu
                  · exact hu
          · exact .doLayoutMemWrite hu
          · exact hu.trans ⟨rfl, rfl, rfl, fun m =>
              ⟨m.1, m.2.1, m.2.2.1, m.2.2.2.1, m.2.2.2.2.1, m.2.2.2.2.2.1, memWf_mwrite _ _ m.2.2.2.2.2.2.1, m.2.2.2.2.2.2.2⟩⟩
          · exact .msixWrite hu
          · exact hu
theorem doRegisterWrite {p a n v} (h : Keeps s t) : Keeps s (doRegisterWrite p a n v t) :=
  .ite h (.ite (.deny (.regWriteAt h)) (.regWriteAt h))

/-! ## The window (R194, R14) -/

theorem fabRead {i c a n} (h : Keeps s t) : Keeps s (fabRead t i c a n).2 := by
  unfold Machine.fabRead
  dsimp only
  split
  · exact .regRead h
  · split
    · exact h
    · split
      · exact h
      · exact .dramTouch h
theorem fabWrite {i c a n v} (h : Keeps s t) : Keeps s (fabWrite t i c a n v) := by
  unfold Machine.fabWrite
  exact .ite (.regWriteAt h) (.ite (.coreUpd h (fun _ hc => memWf_mput _ _ _ hc)) (.ite (.doCamWindowWrite h) (.dramWrite h)))

/-! ## Checked accesses (R202, R218) -/

theorem accRead {i c ea n k} (h : Keeps s t) : Keeps s (accRead t i c ea n k).2 := by
  refine foldlSnd h (fun r wa hr => ?_)
  dsimp only
  split
  · exact .fabRead hr
  · exact hr
theorem ownWrite {i wa n v} (h : Keeps s t) : Keeps s (ownWrite t i wa n v) :=
  coreUpd (f := fun x => { x with mem := mput x.mem (2 * wa) n v }) h (fun _ hc => memWf_mput _ _ _ hc)
theorem accWrite {i c ea u' ws} (h : Keeps s t) : Keeps s (accWrite t i c ea u' ws) :=
  .foldl h (fun _ _ hu => .ite (.fabWrite hu) (.ownWrite hu))
theorem accDeny {i c wa x} (h : Keeps s t) : Keeps s (accDeny t i c wa x) := by
  unfold Machine.accDeny
  split
  · exact .deny h
  · exact h

/-! ## Exceptions and interrupts (R217 to R220) -/

theorem excEntry {i epc code ea svc} (h : Keeps s t) : Keeps s (excEntry t i epc code ea svc) := by
  unfold Machine.excEntry
  refine .coreUpd ?_ (fun _ hc => hc)
  split
  · exact h
  · exact .freeRes h
theorem coreHalt {i} (h : Keeps s t) : Keeps s (coreHalt t i) := .ite (.tileHalt h) (.ite (.frameHalt h) (.coreUpd h (fun _ hc => hc)))
theorem syncExc {i epc code ea svc} (h : Keeps s t) : Keeps s (syncExc t i epc code ea svc) := .ite (.coreHalt h) (.excEntry h)

/-! ## Issue (R193, R198, R210) -/

theorem applyRes {i epc r} (h : Keeps s t) (hr : KeepsR s r) : Keeps s (applyRes t i epc r) := by
  have hrun (c : Core) : (if c.run = .load then { c with run := .run } else c).mem = c.mem := by split <;> rfl
  cases r with
  | done u f => exact .coreUpd hr.1 (fun c hc => by rw [hr.2, hrun]; exact hc)
  | exc u f => exact .syncExc (.coreUpd hr.1 (fun c hc => by rw [hr.2, hrun]; exact hc))
  | hold => exact h
  | load => exact .coreUpd h (fun _ hc => hc)
theorem issue {i row body} (h : Keeps s t) (hb : ∀ c w1 w2, KeepsR s (body t i c w1 w2)) : Keeps s (issue i row t body) := by
  unfold Machine.issue
  refine .ite h ?_
  split
  · exact .syncExc h
  · refine .ite h ?_
    split
    · exact .syncExc h
    · exact .applyRes h (hb _ _ _)
theorem reissue {i st body} (h : Keeps s t) (hb : ∀ r c w1 w2, KeepsR s (body r t i c w1 w2)) : Keeps s (reissue i t st body) := by
  unfold Machine.reissue
  refine .ite h ?_
  split
  · exact h
  · exact .applyRes h (hb _ _ _ _)
  · exact h
theorem doIllegalOpcode {i} (h : Keeps s t) : Keeps s (doIllegalOpcode i t) := by
  unfold Machine.doIllegalOpcode
  refine .ite h ?_
  split
  · exact .syncExc h
  · exact .syncExc h
  · exact h
theorem step1 {n f} (h : Keeps s t) (hf : ∀ c, (f c).mem = c.mem) : KeepsR s (step1 t n f) := .done h (fun _ => hf _)
theorem raise {code} (h : Keeps s t) : KeepsR s (raise t code) := .exc h (fun _ => rfl)

/-! ## Interrupts (R218, R221) -/

theorem memWf_irqTaken (c : Core) (code : Nat) (hc : memWf c.mem = true) : memWf (irqTaken c code).mem = true := by
  unfold Machine.irqTaken
  split
  · exact hc
  · split
    · exact hc
    · exact hc
theorem doInterruptEntry {i debug} (h : Keeps s t) : Keeps s (doInterruptEntry i debug t) := by
  unfold Machine.doInterruptEntry
  have hd := Keeps.ite (c := debug ∧ t.sec.debugOpen) (coreUpd (i := i) (f := fun c => { c with irqDebug := true }) h (fun _ hc => hc)) h
  refine .ite hd ?_
  split
  · exact hd
  · exact .excEntry (.coreUpd hd (fun c hc => memWf_irqTaken c _ hc))

/-! ## SYS (Table 10-8) -/

theorem doSysNop {i} (h : Keeps s t) : Keeps s (doSysNop i t) := .issue h (fun _ _ _ => Keeps.step1 h (fun _ => rfl))
theorem wfeBody {w1 c} (h : Keeps s t) : KeepsR s (wfeBody t w1 c) := .ite (.done h (fun _ => rfl)) (Keeps.step1 h (fun _ => rfl))
theorem doWfe {i} (h : Keeps s t) : Keeps s (doWfe i t) := .issue h (fun _ _ _ => Keeps.wfeBody h)
theorem doWfeWake {i} (h : Keeps s t) : Keeps s (doWfeWake i t) := .reissue h (fun _ _ _ _ => .ite (Keeps.wfeBody h) .hold)
theorem sevSet {j} (h : Keeps s t) : Keeps s (sevSet t j) := .coreUpd h (fun _ hc => hc)
theorem doSev {i} (h : Keeps s t) : Keeps s (doSev i t) := by
  unfold Machine.doSev
  refine .issue h (fun _ _ _ => .ite (Keeps.raise h) (.ite (Keeps.step1 (.foldl h (fun _ _ hu => .sevSet hu)) (fun _ => rfl)) ?_))
  split
  · exact Keeps.step1 (.sevSet h) (fun _ => rfl)
  · exact Keeps.raise h
theorem doWaitt {i} (h : Keeps s t) : Keeps s (doWaitt i t) :=
  .issue h (fun _ _ _ => .ite (Keeps.step1 h (fun _ => rfl)) (.done h (fun _ => rfl)))
theorem doWaittDone {i} (h : Keeps s t) : Keeps s (doWaittDone i t) :=
  .reissue h (fun _ _ _ _ => .ite (Keeps.step1 h (fun _ => rfl)) .hold)
theorem doTimerFire {i} (h : Keeps s t) : Keeps s (doTimerFire i t) := .coreUpd h (fun c hc => (timerFire_mem t c).symm ▸ hc)
theorem doReti {i} (h : Keeps s t) : Keeps s (doReti i t) := .issue h (fun _ _ _ => .ite (Keeps.raise h) (.done h (fun _ => rfl)))
theorem doTrap {i} (h : Keeps s t) : Keeps s (doTrap i t) := by
  unfold Machine.doTrap
  refine .ite h ?_
  split
  · exact .syncExc h
  · refine .ite h ?_
    split
    · exact .syncExc h
    · exact .syncExc h
theorem doBreak {i} (h : Keeps s t) : Keeps s (doBreak i t) := .issue h (fun _ _ _ => Keeps.raise h)
theorem doFence {i} (h : Keeps s t) : Keeps s (doFence i t) := .issue h (fun _ _ _ => .ite .hold (Keeps.step1 h (fun _ => rfl)))

/-! ## MOVC (R197, Table 10-5) -/

theorem doMovc {i} (h : Keeps s t) : Keeps s (doMovc i t) := by
  refine .issue h (fun c w1 w2 => .ite (Keeps.raise h) (.ite (Keeps.step1 h (fun c => cregWrite_mem _ c _ _)) (Keeps.step1 h (fun c =>
    ?_))))
  dsimp only
  split
  · rw [setA_mem]; split <;> rfl
  · rw [setD_mem]; split <;> rfl

/-! ## 16-bit ALU (R199, Table 10-9) -/

theorem doAlu {i} (h : Keeps s t) : Keeps s (doAlu i t) := .issue h (fun _ _ _ => Keeps.step1 h (fun _ => rfl))
theorem doAlux {i} (h : Keeps s t) : Keeps s (doAlux i t) := .issue h (fun _ _ _ => Keeps.step1 h (fun _ => rfl))
theorem doAlui {i} (h : Keeps s t) : Keeps s (doAlui i t) := .issue h (fun _ _ _ => Keeps.step1 h (fun _ => rfl))
theorem doAluq {i} (h : Keeps s t) : Keeps s (doAluq i t) := .issue h (fun _ _ _ => Keeps.step1 h (fun _ => rfl))

/-! ## Address registers -/

theorem doAop {i} (h : Keeps s t) : Keeps s (doAop i t) := .issue h (fun _ _ _ => Keeps.step1 h (fun _ => by split <;> simp))
theorem doAddai {i} (h : Keeps s t) : Keeps s (doAddai i t) := .issue h (fun _ _ _ => Keeps.step1 h (fun _ => rfl))
theorem doLia {i} (h : Keeps s t) : Keeps s (doLia i t) := .issue h (fun _ _ _ => Keeps.step1 h (fun _ => rfl))

/-! ## Accumulators (R204, R206) -/

theorem doAcop {i} (h : Keeps s t) : Keeps s (doAcop i t) := by
  unfold Machine.doAcop
  refine .issue h (fun _ _ _ => ?_)
  dsimp only
  split
  · exact Keeps.step1 h (fun _ => rfl)
  · exact Keeps.raise h
theorem doAcxfer {i} (h : Keeps s t) : Keeps s (doAcxfer i t) := .issue h (fun _ _ _ => Keeps.step1 h (fun _ => by split <;> simp))

/-! ## Branches (R205, R207, R210) -/

theorem branchBy {c w2 taken f} (h : Keeps s t) (hf : ∀ c, (f c).mem = c.mem) : KeepsR s (branchBy t c w2 taken f) :=
  .done h (fun c => (pcTo_mem _ _).trans (hf c))
theorem doBrd {i} (h : Keeps s t) : Keeps s (doBrd i t) := .issue h (fun _ _ _ => Keeps.branchBy h (fun _ => rfl))
theorem doBra {i} (h : Keeps s t) : Keeps s (doBra i t) := .issue h (fun _ _ _ => Keeps.branchBy h (fun _ => rfl))
theorem doBrac {i} (h : Keeps s t) : Keeps s (doBrac i t) := .issue h (fun _ _ _ => Keeps.branchBy h (fun _ => rfl))
theorem doDbnz {i} (h : Keeps s t) : Keeps s (doDbnz i t) := .issue h (fun _ _ _ => Keeps.branchBy h (fun _ => rfl))
theorem doJmp {i} (h : Keeps s t) : Keeps s (doJmp i t) := .issue h (fun _ _ _ => .done h (fun _ => rfl))
theorem doJmpr {i} (h : Keeps s t) : Keeps s (doJmpr i t) := .issue h (fun _ _ _ => .done h (fun _ => rfl))

/-! ## Checked loads and stores -/

theorem poisonedLoad {i} (h : Keeps s t) : Keeps s (poisonedLoad t i) := by
  unfold Machine.poisonedLoad
  refine .ite h ?_
  split
  · exact .stopItem h
  · exact h
theorem loadWords {i c ea n k ldm data f} (h : Keeps s t) (hf : ∀ u ws, Keeps s u → KeepsR s (f u ws)) :
    KeepsR s (loadWords t i c ea n k ldm data f) := by
  unfold Machine.loadWords
  split
  · exact .exc (.accDeny h) (fun _ => rfl)
  · exact .hold
  · exact .ite .load (hf _ _ (.accRead (.ite (.poisonedLoad h) h)))
theorem storeWords {i c ea k ldm ws f} (h : Keeps s t) (hf : ∀ u, Keeps s u → KeepsR s (f u)) :
    KeepsR s (storeWords t i c ea k ldm ws f) := by
  unfold Machine.storeWords
  split
  · exact .exc (.accDeny h) (fun _ => rfl)
  · exact .hold
  · exact hf _ (.accWrite h)

/-! ## LD, ST, LDM, STM (R200, R202) -/

theorem ldBody {data i c w1 w2} (h : Keeps s t) : KeepsR s (ldBody data t i c w1 w2) :=
  Keeps.loadWords h (fun _ _ hu => Keeps.step1 hu (fun _ => by split <;> simp))
theorem doLd {i} (h : Keeps s t) : Keeps s (doLd i t) := .issue h (fun _ _ _ => Keeps.ldBody h)
theorem doSt {i} (h : Keeps s t) : Keeps s (doSt i t) :=
  .issue h (fun _ _ _ => Keeps.storeWords h (fun _ hu => Keeps.step1 hu (fun _ => by simp)))
theorem ldmBody {data i c w1 w2} (h : Keeps s t) : KeepsR s (ldmBody data t i c w1 w2) := by
  have hset (x : Core) (p : Nat × Nat) : (setD x (fld w1 2 0 + p.2) p.1).mem = x.mem := rfl
  unfold Machine.ldmBody
  refine Keeps.loadWords h (fun _ _ hu => Keeps.step1 hu (fun _ => ?_))
  rw [foldl_mem (g := fun x => x) hset, eaOf_mem]
theorem doLdm {i} (h : Keeps s t) : Keeps s (doLdm i t) := .issue h (fun _ _ _ => Keeps.ldmBody h)
theorem doStm {i} (h : Keeps s t) : Keeps s (doStm i t) :=
  .issue h (fun _ _ _ => Keeps.storeWords h (fun _ hu => Keeps.step1 hu (fun _ => by simp)))

/-! ## Accumulators in memory (R203) -/

theorem acldBody {data i c w1 w2} (h : Keeps s t) : KeepsR s (acldBody data t i c w1 w2) := by
  unfold Machine.acldBody
  exact Keeps.loadWords h (fun _ _ hu => .ite (.exc hu (fun _ => rfl)) (Keeps.step1 hu (fun _ => by simp)))
theorem doAcld {i} (h : Keeps s t) : Keeps s (doAcld i t) := .issue h (fun _ _ _ => Keeps.acldBody h)
theorem doAcst {i} (h : Keeps s t) : Keeps s (doAcst i t) :=
  .issue h (fun _ _ _ => Keeps.storeWords h (fun _ hu => Keeps.step1 hu (fun _ => by simp)))
theorem doAcldn {i} (h : Keeps s t) : Keeps s (doAcldn i t) := by
  unfold Machine.doAcldn
  refine .issue h (fun _ _ _ => ?_)
  split
  · exact .exc h (fun _ => rfl)
  · exact Keeps.step1 h (fun _ => rfl)
theorem byteWrite {i b n v} (h : Keeps s t) : Keeps s (byteWrite t i b n v) := .coreUpd h (fun _ hc => memWf_mwrite _ _ hc)
theorem doAcstn {i} (h : Keeps s t) : Keeps s (doAcstn i t) := by
  unfold Machine.doAcstn
  refine .issue h (fun _ _ _ => ?_)
  split
  · exact .exc h (fun _ => rfl)
  · exact Keeps.step1 (.byteWrite h) (fun _ => rfl)

/-! ## The stack (R208, R209) -/

theorem pushFrame {i c ws f} (h : Keeps s t) (hf : ∀ u a, Keeps s u → KeepsR s (f u a)) : KeepsR s (pushFrame t i c ws f) := by
  unfold Machine.pushFrame
  dsimp only
  split
  · exact .exc h (fun _ => rfl)
  · exact .ite (.exc h (fun _ => rfl)) (hf _ _ (.accWrite h))
theorem popFrame {i c n k} (h : Keeps s t) (hk : ∀ ws, KeepsR s (k ws)) : KeepsR s (popFrame t i c n k) := by
  unfold Machine.popFrame
  split
  · exact .exc h (fun _ => rfl)
  · exact hk _
theorem doCall {i} (h : Keeps s t) : Keeps s (doCall i t) :=
  .issue h (fun _ _ _ => Keeps.pushFrame h (fun _ _ hu => .done hu (fun _ => rfl)))
theorem popPc {i c mask} (h : Keeps s t) : KeepsR s (popPc t i c mask) := Keeps.popFrame h (fun _ => .done h (fun _ => by simp))
theorem doRetm {i} (h : Keeps s t) : Keeps s (doRetm i t) := .issue h (fun _ _ _ => Keeps.popPc h)
theorem doRet {i} (h : Keeps s t) : Keeps s (doRet i t) := .issue h (fun _ _ _ => Keeps.popPc h)
theorem doPushm {i} (h : Keeps s t) : Keeps s (doPushm i t) :=
  .issue h (fun _ _ _ => Keeps.pushFrame h (fun _ _ hu => Keeps.step1 hu (fun _ => rfl)))
theorem doPopm {i} (h : Keeps s t) : Keeps s (doPopm i t) :=
  .issue h (fun _ _ _ => Keeps.popFrame h (fun _ => Keeps.step1 h (fun _ => by simp)))

/-! ## String instructions (R215, R216) -/

theorem strElem {i c reads writes data f} (h : Keeps s t) (hf : ∀ u ws, Keeps s u → KeepsR s (f u ws)) :
    KeepsR s (strElem t i c reads writes data f) := by
  unfold Machine.strElem
  split
  · exact .exc (.accDeny h) (fun _ => rfl)
  · exact .hold
  · exact .ite .load (hf _ _ (.foldlSnd (.ite (.poisonedLoad h) h) (fun _ _ hr => .accRead hr)))
theorem movsBody {data i c w1 _w2} (h : Keeps s t) : KeepsR s (movsBody data t i c w1 _w2) :=
  .ite (Keeps.step1 h (fun _ => rfl)) (Keeps.strElem h (fun _ _ hu => .done (.accWrite hu) (fun _ => by simp)))
theorem doMovs {i} (h : Keeps s t) : Keeps s (doMovs i t) := .issue h (fun _ _ _ => Keeps.movsBody h)
theorem doFills {i} (h : Keeps s t) : Keeps s (doFills i t) :=
  .issue h (fun _ _ _ => .ite (Keeps.step1 h (fun _ => rfl)) (Keeps.strElem h (fun _ _ hu => .done (.accWrite hu) (fun _ => by
    simp))))
theorem cmpsBody {data i c w1 _w2} (h : Keeps s t) : KeepsR s (cmpsBody data t i c w1 _w2) :=
  .ite (Keeps.step1 h (fun _ => rfl)) (Keeps.strElem h (fun _ _ hu => .ite (Keeps.step1 hu (fun _ => rfl)) (.done hu (fun _ => by
    simp))))
theorem doCmps {i} (h : Keeps s t) : Keeps s (doCmps i t) := .issue h (fun _ _ _ => Keeps.cmpsBody h)
theorem scansBody {data i c w1 _w2} (h : Keeps s t) : KeepsR s (scansBody data t i c w1 _w2) :=
  .ite (Keeps.step1 h (fun _ => rfl)) (Keeps.strElem h (fun _ _ hu => .ite (Keeps.step1 hu (fun _ => rfl)) (.done hu (fun _ => by
    simp))))
theorem doScans {i} (h : Keeps s t) : Keeps s (doScans i t) := .issue h (fun _ _ _ => Keeps.scansBody h)
theorem doWindowLoadData {i} (h : Keeps s t) : Keeps s (doWindowLoadData i t) := by
  unfold Machine.doWindowLoadData
  refine .reissue h (fun _ _ _ _ => ?_)
  split
  · exact Keeps.ldBody h
  · exact Keeps.ldmBody h
  · exact Keeps.acldBody h
  · exact Keeps.movsBody h
  · exact Keeps.cmpsBody h
  · exact Keeps.scansBody h
  · exact .hold

/-! ## Answers (R2, R15, R18, R20) -/

theorem fabAnswer {r err data} (h : Keeps s t) : Keeps s (fabAnswer t r err data) := .ite h (.frame h rfl)
theorem coreFault {i addr code} (h : Keeps s t) : Keeps s (coreFault t i addr code) := by
  unfold Machine.coreFault
  dsimp only
  split
  · exact .ite (.syncExc (.coreUpd h (fun _ hc => hc))) h
  · exact h
theorem fabFail {r code st} (h : Keeps s t) : Keeps s (fabFail t r code st) := by
  unfold Machine.fabFail
  refine .ite (.coreFault (.fabAnswer h)) ?_
  split
  · exact .failItem (.fabAnswer h)
  · exact .fabAnswer h

/-! ## Service (R248, R251, R259) -/

theorem fabPoison {r} (h : Keeps s t) : Keeps s (fabPoison t r) := by
  unfold Machine.fabPoison
  refine .ite h (.ite (.poisonedLoad h) ?_)
  split
  · exact .failItem h
  · exact h
theorem serveScratch {r} (h : Keeps s t) : Keeps s (serveScratch t r) := by
  unfold Machine.serveScratch
  dsimp only
  split
  · exact .scratchStore (.wayError h)
  · exact .fabAnswer (.fabPoison (.wayError h))
theorem serveDram {r} (h : Keeps s t) : Keeps s (serveDram t r) := by
  unfold Machine.serveDram
  dsimp only
  split
  · refine .usePlace (.lineTraffic (.dramStore ?_))
    split
    · exact .wayError h
    · exact h
  · refine .ite (.prefetch (.fabAnswer (.fabPoison (.usePlace (.lineTraffic ?_))))) (.fabAnswer (.fabPoison (.usePlace (.lineTraffic
      ?_))))
    · split
      · exact .wayError h
      · exact h
    · split
      · exact .wayError h
      · exact h
theorem fabServe {r} (h : Keeps s t) : Keeps s (fabServe t r) := by
  unfold Machine.fabServe
  refine .ite (.fabFail h) ?_
  split
  · exact .fabFail (.deny h)
  · exact .ite (.frame h rfl) (.ite (.serveDram h) (.serveScratch h))
  · exact .fabFail h
theorem serveWaits (h : Keeps s t) : Keeps s (serveWaits t) := .foldl (.frame h rfl) (fun _ _ hu => .fabServe hu)
theorem doCacheAccess {init fn resv addr n bytes stream err item} (h : Keeps s t) : Keeps s (doCacheAccess init fn resv addr n bytes
  stream err item t) :=
  .fabServe (.serveWaits h)

/-! ## What waiting requests wait for -/

theorem doWayRetireDone {slice w bad} (h : Keeps s t) : Keeps s (doWayRetireDone slice w bad t) := .serveWaits (.wayRetireDone h)
theorem doScratchReady {q} (h : Keeps s t) : Keeps s (doScratchReady q t) := .serveWaits (.scratchReady h)

/-! ## CODEC (R58 to R60) -/

theorem doCodecEncode {id} (h : Keeps s t) : Keeps s (doCodecEncode id t) := by
  unfold Machine.doCodecEncode
  split
  · exact h
  · refine .ite h ?_
    split
    · exact .failItem h
    · exact .ite (.failItem h) (.ite (.itemReady h) (.ite (.failItem h) (.itemReady (.addEffects (.dramTouch (.dramTouch h))))))
theorem doCodecDecode {id} (h : Keeps s t) : Keeps s (doCodecDecode id t) := by
  unfold Machine.doCodecDecode
  split
  · exact h
  · refine .ite h ?_
    split
    · exact .failItem h
    · exact .ite (.failItem (.dramTouch h)) (.ite (.itemReady (.addEffects (.dramTouch h))) (.failItem (.ite (.dramTouch h) (.frame
        (.dramWrite (.dramTouch h)) rfl))))

/-! ## TABLE_APPEND (R294, R56, R57, R49) -/

theorem writeRaw {part base high at_ xs} (h : Keeps s t) : Keeps s (writeRaw t part base high at_ xs) :=
  .dramWrite (.ite (.dramWrite h) h)
theorem writePlanes {part full a l} (h : Keeps s t) : Keeps s (writePlanes part full t a l).1 := by
  induction l generalizing t a with
  | nil => exact h
  | cons ls l ih =>
    unfold Machine.writePlanes
    extract_lets coded one lo hi z
    have hone {v b high} (hv : Keeps s v) : Keeps s (one v b high).1 := by
      unfold one
      split
      · exact .dramWrite hv
      · exact .writeRaw hv
    exact ih (hone (hone h))
theorem writeSegs {part es ncols nrows full a row l} (h : Keeps s t) : Keeps s (writeSegs part es ncols nrows full t a row l).1 := by
  induction l generalizing t a row with
  | nil => exact h
  | cons n l ih => exact ih (.dramWrite (.writePlanes h))
theorem extendSeg {part es last k} (h : Keeps s t) : Keeps s (extendSeg part es last k t) :=
  .ite h (.foldl h (fun _ _ hu => .writeRaw (.writeRaw hu)))
theorem openMarks {last k full ents} (h : Keeps s t) : Keeps s (openMarks t last k full ents) := .frame h rfl
theorem doTableAppend {id} (h : Keeps s t) : Keeps s (doTableAppend id t) := by
  unfold Machine.doTableAppend
  split
  · exact h
  · dsimp only
    split
    · exact .failItem h
    · exact .ite (.itemReady h) (.itemReady (.openMarks (.addEffects (.writeSegs (.extendSeg h)))))

/-! ## The end of a DMA segment's count -/

theorem endOfCount {x i g} (h : Keeps s t) : Keeps s (endOfCount t x i g) := by
  unfold Machine.endOfCount
  refine .ite ?_ h
  dsimp only
  split
  · split
    · exact .sendMsix (.hostWrite h)
    · exact .hostWrite h
  · exact .hostWrite h
theorem countSeg {c} (h : Keeps s t) : Keeps s (countSeg t c) := .frame h rfl
theorem endAtBoundary {id st r0} (h : Keeps s t) : Keeps s (endAtBoundary t id st r0) := by
  unfold Machine.endAtBoundary
  split
  · exact h
  · exact .ite (.complete h) (.ite (.failItem h) (.engineFail h))
theorem moveEnd {c id x g srcErr backErr} (h : Keeps s t) : Keeps s (moveEnd t c id x g srcErr backErr) :=
  .ite (.endAtBoundary (.freeChannel h)) (.ite (.endAtBoundary (.freeChannel h)) (.ite (.endAtBoundary (.freeChannel (.segMove h)))
    (.ite (.endAtBoundary (.freeChannel (.endOfCount (.countSeg (.segMove h))))) (.ite (.engineDone (.freeChannel (.endOfCount (.countSeg
    (.segMove h))))) (.frame (.endOfCount (.countSeg (.segMove h))) rfl)))))
theorem zeroEnd {c x g} (h : Keeps s t) : Keeps s (zeroEnd t c x g) :=
  .ite (.freeChannel (.countSeg (.dramZero h))) (.ite (.frame (.freeChannel (.countSeg (.dramZero h))) rfl) (.frame (.dramZero h)
    rfl))
theorem xferDataEnd {c id cmd x g srcErr} (h : Keeps s t) : Keeps s (xferDataEnd t c id cmd x g srcErr) := by
  unfold Machine.xferDataEnd
  dsimp only
  split
  · exact .freeChannel (.countSeg h)
  · exact .ite (.complete (.freeChannel (.countSeg h))) (.ite (.stopItem (.freeChannel (.countSeg h))) (.ite (.stopItem (.freeChannel
      (.countSeg h))) (.ite (.ledTick (.freeChannel (.countSeg h))) (.freeChannel (.countSeg h)))))
theorem doDmaSegmentEnd {c srcErr backErr} (h : Keeps s t) : Keeps s (doDmaSegmentEnd c srcErr backErr t) := by
  unfold Machine.doDmaSegmentEnd
  refine .vfSettle ?_
  split
  · exact h
  · split
    · exact .freeChannel h
    · split
      · exact .moveEnd h
      · exact .zeroEnd h
      · exact .xferDataEnd h

/-! ## ABORT (R309) -/

theorem abortMark {id by_} (h : Keeps s t) : Keeps s (abortMark t id by_) := by
  unfold Machine.abortMark
  dsimp only
  split
  · exact .recalcFlow (.modItem h)
  · exact .modItem h
theorem abortTarget {id it by_} (h : Keeps s t) : Keeps s (abortTarget t id it by_) := by
  unfold Machine.abortTarget
  split
  · exact h
  · exact .failItem (.modItem h)
  · exact .schedule (.abortMark h)
  · exact .stopItem (.abortMark h)
theorem doAbort {id} (h : Keeps s t) : Keeps s (doAbort id t) := by
  unfold Machine.doAbort
  split
  · exact h
  · refine .ite h (.ite (.failItem h) ?_)
    split
    · exact .failItem h
    · split
      · exact .failItem h
      · exact .ite (.failItem h) (.abortTarget (.toEngine h))

/-! ## RESUME_QUEUE (R308, R482) -/

theorem flushN {n d} (h : Keeps s t) : Keeps s (flushN n t d).2 := by
  induction n generalizing t with
  | zero => exact h
  | succ n ih =>
    unfold Machine.flushN
    dsimp only
    split
    · exact h
    · split
      · dsimp only
        exact .modQ h
      · exact ih (.reject h)
theorem doResumeQueue {id} (h : Keeps s t) : Keeps s (doResumeQueue id t) := by
  unfold Machine.doResumeQueue
  split
  · exact h
  · refine .ite (.failItem h) ?_
    split
    · exact .failItem h
    · refine .ite (.failItem h) (.ite h (.ite (.commitNow h) (.ite (.failItem h) (.commitNow (.modQ ?_)))))
      split
      · exact .flushN h
      · exact h

/-! ## SPARE_REPORT (R470) -/

theorem doSpareReport {id} (h : Keeps s t) : Keeps s (doSpareReport id t) := by
  unfold Machine.doSpareReport
  split
  · exact h
  · exact .ite (.failItem h) (.ite (.failItem h) (.ite (.failItem h) (.itemReady (.addEffects h))))

/-! ## STATE_DUMP (R471, Table 22-7; assumption 30) -/

theorem doStateDump {id} (h : Keeps s t) : Keeps s (doStateDump id t) := by
  unfold Machine.doStateDump
  split
  · exact h
  · exact .ite (.failItem h) (.ite (.failItem h) (.ite (.failItem h) (.ite (.itemReady (.freeRes h)) (.itemReady (.addEffects (.xferAt
      h))))))

/-! ## DRAIN_TIMEOUT (R442) -/

theorem abortAll {own} (h : Keeps s t) : Keeps s (abortAll t own) := by
  unfold Machine.abortAll
  refine .foldl h (fun _ _ hu => ?_)
  split
  · exact .ite hu (.abortTarget hu)
  · exact hu
theorem doDrainTimeout (h : Keeps s t) : Keeps s (doDrainTimeout t) := by
  unfold Machine.doDrainTimeout
  split
  · exact .ite (.abortAll h) h
  · exact h

/-! ## Elements in memory (R227, R233) -/

theorem elemWrite {i b w x} (h : Keeps s t) : Keeps s (elemWrite t i b w x) := .byteWrite h

/-! ## Completing and faulting (R240, R241) -/

theorem vecDone {v f} (h : Keeps s t) (hf : ∀ c, (f c).mem = c.mem) : KeepsR s (vecDone t v f) :=
  Keeps.step1 h (fun _ => hf _)
theorem vecFault {v t'} (h : Keeps s t) : KeepsR s (vecFault t v t') := .exc h (fun _ => rfl)
theorem vecFinish {r} (h : Keeps s r.2.1) : KeepsR s (vecFinish r) := by
  unfold Machine.vecFinish
  split
  · exact Keeps.vecDone h (fun _ => rfl)
  · exact Keeps.vecFault h
theorem vecGate {v k} (h : Keeps s t) (hk : KeepsR s k) : KeepsR s (vecGate t v k) := .ite (Keeps.vecDone h (fun _ => rfl)) hk

/-! ## Lane operations -/

theorem shortLane {row c w1 w2 es} (h : Keeps s t) : Keeps s (shortLane row t c w1 w2 es).2.1 := h
theorem shortBody {row c w1 w2} (h : Keeps s t) : KeepsR s (shortBody row t c w1 w2) := Keeps.vecGate h (Keeps.vecFinish (Keeps.shortLane
  h))
theorem shortCmp {c w1 w2} (h : Keeps s t) : KeepsR s (shortCmp t c w1 w2) := Keeps.vecGate h (Keeps.vecDone h (fun _ => rfl))
theorem mulwBody {c w1 w2} (h : Keeps s t) : KeepsR s (mulwBody t c w1 w2) := Keeps.vecGate h (Keeps.vecDone h (fun _ => rfl))
theorem dot2wBody {c w1 w2} (h : Keeps s t) : KeepsR s (dot2wBody t c w1 w2) := Keeps.vecGate h (Keeps.vecFinish h)
theorem selBody {c w1 w2} (h : Keeps s t) : KeepsR s (selBody t c w1 w2) := Keeps.vecGate h (Keeps.vecDone h (fun _ => rfl))
theorem ptobBody {c w1 w2} (h : Keeps s t) : KeepsR s (ptobBody t c w1 w2) := Keeps.vecGate h (Keeps.vecDone h (fun _ => rfl))
theorem compactBody {c w1 w2} (h : Keeps s t) : KeepsR s (compactBody t c w1 w2) := Keeps.vecGate h (Keeps.vecDone h (fun _ => rfl))

/-! ## Memory (R233, R234) -/

theorem vldBody {indexed i c w1 w2} (h : Keeps s t) : KeepsR s (vldBody indexed t i c w1 w2) := Keeps.vecGate h (Keeps.vecFinish h)
theorem vstBody {indexed i c w1 w2} (h : Keeps s t) : KeepsR s (vstBody indexed t i c w1 w2) := by
  unfold Machine.vstBody
  refine Keeps.vecGate h (Keeps.vecFinish (Keeps.vecFold (g := id) h (fun e u hu => ?_)))
  split
  · exact .ok (.elemWrite hu)
  · exact .ok hu
  · exact .error
theorem vldffBody {indexed i c w1 w2} (h : Keeps s t) : KeepsR s (vldffBody indexed t i c w1 w2) := by
  unfold Machine.vldffBody
  refine Keeps.vecGate h ?_
  split
  · exact Keeps.vecDone h (fun _ => rfl)
  · exact .ite (Keeps.vecFault h) (Keeps.vecDone h (fun _ => rfl))

/-! ## Membership and search (R236, R237) -/

theorem membBody {i c w1 w2} (h : Keeps s t) : KeepsR s (membBody t i c w1 w2) :=
  .ite (Keeps.raise h) (Keeps.vecGate h (Keeps.vecFinish h))
theorem srchDeny {i c f} (h : Keeps s t) : Keeps s (srchDeny t i c f) := by
  unfold Machine.srchDeny
  split
  · dsimp only
    split
    · exact .accDeny h
    · exact h
  · exact h
theorem srchBody {i c w1 w2} (h : Keeps s t) : KeepsR s (srchBody t i c w1 w2) :=
  .ite .hold (Keeps.vecGate h (Keeps.vecFinish (.srchDeny h)))

/-! ## Predicates, moves, control registers (Table 11-5, R226) -/

theorem vxferFn {c w1 w2} (h : Keeps s t) : KeepsR s (vxferFn t c w1 w2) := by
  unfold Machine.vxferFn
  dsimp only
  split
  · exact Keeps.vecDone h (fun _ => rfl)
  · exact Keeps.vecDone h (fun _ => rfl)
  · exact Keeps.vecDone h (fun _ => rfl)
  · exact Keeps.vecDone h (fun _ => rfl)
  · exact Keeps.vecDone h (fun _ => rfl)
  · exact Keeps.vecDone h (fun _ => rfl)
  · exact Keeps.vecDone h (fun _ => rfl)
  · exact Keeps.vecDone h (fun _ => rfl)
theorem vxferBody {c w1 w2} (h : Keeps s t) : KeepsR s (vxferBody t c w1 w2) := Keeps.vecGate h (Keeps.vxferFn h)
theorem vctlBody {c w1 w2} (h : Keeps s t) : KeepsR s (vctlBody t c w1 w2) := by
  unfold Machine.vctlBody
  dsimp only
  split
  · exact Keeps.step1 h (fun _ => rfl)
  · exact .ite (Keeps.raise h) (Keeps.step1 h (fun _ => rfl))
  · exact Keeps.step1 h (fun _ => rfl)

/-! ## Elements of a chain (R229, R232, R240) -/

theorem chainLinks {i c e loose ls k q x} (h : Keeps s x.1) : KeepsE s ((chainLinks i c e loose ls k q x).map (·.1)) := by
  induction ls generalizing k q x with
  | nil => exact .ok h
  | cons l ls ih =>
    unfold Machine.chainLinks
    dsimp only
    split
    · split
      · exact .ok h
      · split
        · exact .error
        · exact .ok (.elemWrite h)
    · split
      · exact .error
      · split
        · exact ih h
        · exact .ok (.elemWrite h)
theorem chainElem {i c ls loose e x} (h : Keeps s x.1) : KeepsE s ((chainElem i c ls loose e x).map (·.1)) := by
  unfold Machine.chainElem
  split
  · exact .error
  · exact Keeps.chainLinks h
theorem chainRun {i c first ls stop} (h : Keeps s t) : KeepsR s (chainRun t i c first ls stop) := by
  unfold Machine.chainRun
  dsimp only
  split
  · exact Keeps.vecFault h
  · have hr {es : List Nat} {v loose ctr} : Keeps s { (Machine.vecFold (Machine.chainElem i c ls loose) es (t, v)).2.1 with freeCtr :=
      ctr } :=
      .frame (Keeps.vecFold (g := fun x : State × Vec => x.1) h (fun _ _ hx => Keeps.chainElem hx)) rfl
    split
    · exact Keeps.vecFault hr
    · exact .ite (Keeps.vecDone hr (fun _ => rfl)) (.done hr (fun _ => rfl))
theorem longBody {i c l stop} (h : Keeps s t) : KeepsR s (longBody t i c l stop) :=
  .ite (Keeps.raise h) (.ite (Keeps.step1 h (fun _ => rfl)) (Keeps.chainRun h))

/-! ## Issue -/

theorem issueV {i row stop body} (h : Keeps s t) (hb : ∀ c w1 w2, KeepsR s (body t i c w1 w2)) : Keeps s (issueV i row t stop body) := by
  unfold Machine.issueV
  refine .ite h ?_
  split
  · exact .syncExc h
  · exact .ite h (.ite (.applyRes h (Keeps.longBody h)) (.ite (.syncExc h) (.applyRes h (hb _ _ _))))
theorem doVarith {i} (h : Keeps s t) : Keeps s (doVarith i t) := .issueV h (fun _ _ _ => Keeps.shortBody h)
theorem doVlogic {i} (h : Keeps s t) : Keeps s (doVlogic i t) := .issueV h (fun _ _ _ => Keeps.shortBody h)
theorem doVcmp {i} (h : Keeps s t) : Keeps s (doVcmp i t) := .issueV h (fun _ _ _ => Keeps.shortCmp h)
theorem doVscale {i} (h : Keeps s t) : Keeps s (doVscale i t) := .issueV h (fun _ _ _ => Keeps.shortBody h)
theorem doVmulw {i} (h : Keeps s t) : Keeps s (doVmulw i t) := .issueV h (fun _ _ _ => Keeps.mulwBody h)
theorem doVdot4 {i} (h : Keeps s t) : Keeps s (doVdot4 i t) := .issueV h (fun _ _ _ => Keeps.shortBody h)
theorem doVdot2w {i} (h : Keeps s t) : Keeps s (doVdot2w i t) := .issueV h (fun _ _ _ => Keeps.dot2wBody h)
theorem vdivBody {stop c w1 w2} (h : Keeps s t) : KeepsR s (vdivBody stop t c w1 w2) := by
  unfold Machine.vdivBody
  dsimp only
  split
  · split
    · exact Keeps.vecFault h
    · exact .done h (fun _ => rfl)
  · exact Keeps.shortBody h
theorem doVdiv {i stop} (h : Keeps s t) : Keeps s (doVdiv i stop t) := .issueV h (fun _ _ _ => Keeps.vdivBody h)
theorem doVld {i} (h : Keeps s t) : Keeps s (doVld i t) := .issueV h (fun _ _ _ => Keeps.vldBody h)
theorem doVst {i} (h : Keeps s t) : Keeps s (doVst i t) := .issueV h (fun _ _ _ => Keeps.vstBody h)
theorem doVldff {i} (h : Keeps s t) : Keeps s (doVldff i t) := .issueV h (fun _ _ _ => Keeps.vldffBody h)
theorem doVgather {i} (h : Keeps s t) : Keeps s (doVgather i t) := .issueV h (fun _ _ _ => Keeps.vldBody h)
theorem doVgatherff {i} (h : Keeps s t) : Keeps s (doVgatherff i t) := .issueV h (fun _ _ _ => Keeps.vldffBody h)
theorem doVscatter {i} (h : Keeps s t) : Keeps s (doVscatter i t) := .issueV h (fun _ _ _ => Keeps.vstBody h)
theorem doVcompact {i} (h : Keeps s t) : Keeps s (doVcompact i t) := .issueV h (fun _ _ _ => Keeps.compactBody h)
theorem doVhash {i} (h : Keeps s t) : Keeps s (doVhash i t) := .issueV h (fun _ _ _ => Keeps.shortBody h)
theorem doVmemb {i} (h : Keeps s t) : Keeps s (doVmemb i t) := .issueV h (fun _ _ _ => .ite (Keeps.srchBody h) (Keeps.membBody h))
theorem doVsel {i} (h : Keeps s t) : Keeps s (doVsel i t) := .issueV h (fun _ _ _ => Keeps.selBody h)
theorem doVpred {i} (h : Keeps s t) : Keeps s (doVpred i t) :=
  .issueV h (fun _ _ _ => Keeps.vecGate h (Keeps.vecDone h (fun _ => rfl)))
theorem doVxfer {i} (h : Keeps s t) : Keeps s (doVxfer i t) := .issueV h (fun _ _ _ => Keeps.vxferBody h)
theorem doVconv {i} (h : Keeps s t) : Keeps s (doVconv i t) := .issueV h (fun _ _ _ => .ite (Keeps.ptobBody h) (Keeps.shortBody h))
theorem doVctl {i} (h : Keeps s t) : Keeps s (doVctl i t) := .issueV h (fun _ _ _ => Keeps.vctlBody h)
theorem doVectorChain {i stop} (h : Keeps s t) : Keeps s (doVectorChain i stop t) := by
  unfold Machine.doVectorChain
  refine .ite h ?_
  split
  · exact .ite (.applyRes h (Keeps.longBody h)) h
  · exact h

/-! ## The pipes of a tile -/

theorem doVpipe {i} (h : Keeps s t) : Keeps s (doVpipe i t) := by
  unfold Machine.doVpipe
  refine .issueV h (fun _ _ _ => ?_)
  dsimp only
  split
  · exact .exc h (fun _ => rfl)
  · exact .ite .hold (Keeps.step1 (.ownWrite h) (fun _ => rfl))

/-! ## Command blocks (Table 11-7) -/

theorem pipeEnd {i fn f} (h : Keeps s t) : Keeps s (pipeEnd i fn f t) := by
  unfold Machine.pipeEnd
  dsimp only
  split
  · exact h
  · refine .ite h ?_
    split
    · exact .coreUpd (.ownWrite (.freeRes h)) (fun _ hc => hc)
    · exact .coreUpd (.ownWrite (.foldl (.foldl (.foldl h (fun _ _ hu => .coreUpd hu (fun _ hc => memWf_mwrite _ _ hc))) (fun _ _ hu =>
        .ownWrite hu)) (fun _ _ hu => .ownWrite (.freeRes hu)))) (fun _ hc => hc)

/-! ## The commands -/

theorem doPipeDecode {i} (h : Keeps s t) : Keeps s (doPipeDecode i t) := .pipeEnd h
theorem doPipeEncode {i} (h : Keeps s t) : Keeps s (doPipeEncode i t) := .pipeEnd h
theorem doPipeSort32 {i} (h : Keeps s t) : Keeps s (doPipeSort32 i t) := .pipeEnd h
theorem doPipeMerge {i} (h : Keeps s t) : Keeps s (doPipeMerge i t) := .pipeEnd h
theorem doPipeEscpop {i} (h : Keeps s t) : Keeps s (doPipeEscpop i t) := .pipeEnd h

end Keeps

end

end Sys2Proof.Machine

/-! Every command keeps the queue, the ordering code and the canonical memories, and so does every step. -/

namespace Sys2Proof.Machine
open Sys2Proof Sys2Proof.Safety

/-- A command answers a next state, which keeps them. -/
theorem exec_keeps (c : Instr) (s : State) : ∃ t, exec c s = .next t ∧ KeepsMem s t := by
  cases c with
  | sqDb => exact ⟨_, rfl, Keeps.mem (.doSqDb .refl)⟩
  | cqDb => exact ⟨_, rfl, Keeps.mem (.doCqDb .refl)⟩
  | descriptorFetch => exact ⟨_, rfl, Keeps.mem (.doDescriptorFetch .refl)⟩
  | heldDescriptorInsert => exact ⟨_, rfl, Keeps.mem (.doHeldDescriptorInsert .refl)⟩
  | entryWaitGrant => exact ⟨_, rfl, Keeps.mem (.doEntryWaitGrant .refl)⟩
  | ikeyHeldInsert => exact ⟨_, rfl, Keeps.mem (.doIkeyHeldInsert .refl)⟩
  | ikeyExpiry => exact ⟨_, rfl, Keeps.mem (.doIkeyExpiry .refl)⟩
  | queueEnable => exact ⟨_, rfl, Keeps.mem (.rowWriteVal .refl (fun _ h => .doQueueEnable h))⟩
  | runPlan => exact ⟨_, rfl, Keeps.mem (.doRunPlan .refl)⟩
  | loadPlan => exact ⟨_, rfl, Keeps.mem (.doLoadPlan .refl)⟩
  | unloadPlan => exact ⟨_, rfl, Keeps.mem (.doUnloadPlan .refl)⟩
  | unloadComplete => exact ⟨_, rfl, Keeps.mem (.doUnloadComplete .refl)⟩
  | move => exact ⟨_, rfl, Keeps.mem (.doMove .refl)⟩
  | cipher => exact ⟨_, rfl, Keeps.mem (.doCipher .refl)⟩
  | digest => exact ⟨_, rfl, Keeps.mem (.doDigest .refl)⟩
  | codecEncode => exact ⟨_, rfl, Keeps.mem (.doCodecEncode .refl)⟩
  | codecDecode => exact ⟨_, rfl, Keeps.mem (.doCodecDecode .refl)⟩
  | camUpdate => exact ⟨_, rfl, Keeps.mem (.doCamUpdate .refl)⟩
  | camSearch => exact ⟨_, rfl, Keeps.mem (.doCamSearch .refl)⟩
  | ledgerRead => exact ⟨_, rfl, Keeps.mem (.doLedgerRead .refl)⟩
  | ledgerWrite => exact ⟨_, rfl, Keeps.mem (.doLedgerWrite .refl)⟩
  | ledgerAppend => exact ⟨_, rfl, Keeps.mem (.doLedgerAppend .refl)⟩
  | ledgerFlush => exact ⟨_, rfl, Keeps.mem (.doLedgerFlush .refl)⟩
  | ledgerTrim => exact ⟨_, rfl, Keeps.mem (.doLedgerTrim .refl)⟩
  | logRead => exact ⟨_, rfl, Keeps.mem (.doLogRead .refl)⟩
  | ledgerResume => exact ⟨_, rfl, Keeps.mem (.doLedgerResume .refl)⟩
  | tableAppend => exact ⟨_, rfl, Keeps.mem (.doTableAppend .refl)⟩
  | abort => exact ⟨_, rfl, Keeps.mem (.doAbort .refl)⟩
  | resumeQueue => exact ⟨_, rfl, Keeps.mem (.doResumeQueue .refl)⟩
  | stateDump => exact ⟨_, rfl, Keeps.mem (.doStateDump .refl)⟩
  | fnResize => exact ⟨_, rfl, Keeps.mem (.doFnResize .refl)⟩
  | resizeUnitMove => exact ⟨_, rfl, Keeps.mem (.doResizeUnitMove .refl)⟩
  | sanitise => exact ⟨_, rfl, Keeps.mem (.doSanitise .refl)⟩
  | format => exact ⟨_, rfl, Keeps.mem (.doFormat .refl)⟩
  | poolFormat => exact ⟨_, rfl, Keeps.mem (.doPoolFormat .refl)⟩
  | driveRebuild => exact ⟨_, rfl, Keeps.mem (.doDriveRebuild .refl)⟩
  | opProgressRecord => exact ⟨_, rfl, Keeps.mem (.doOpProgressRecord .refl)⟩
  | ledgerOpEnd => exact ⟨_, rfl, Keeps.mem (.doLedgerOpEnd .refl)⟩
  | spareReport => exact ⟨_, rfl, Keeps.mem (.doSpareReport .refl)⟩
  | modeRequest => exact ⟨_, rfl, Keeps.mem (.doModeRequest .refl)⟩
  | nop => exact ⟨_, rfl, Keeps.mem (.doNop .refl)⟩
  | runGrant => exact ⟨_, rfl, Keeps.mem (.doRunGrant .refl)⟩
  | scanBatch => exact ⟨_, rfl, Keeps.mem (.doScanBatch .refl)⟩
  | filterBatch => exact ⟨_, rfl, Keeps.mem (.doFilterBatch .refl)⟩
  | computeBatch => exact ⟨_, rfl, Keeps.mem (.doComputeBatch .refl)⟩
  | joinBuildBatch => exact ⟨_, rfl, Keeps.mem (.doJoinBuildBatch .refl)⟩
  | joinProbeBatch => exact ⟨_, rfl, Keeps.mem (.doJoinProbeBatch .refl)⟩
  | hashAggFold => exact ⟨_, rfl, Keeps.mem (.doHashAggFold .refl)⟩
  | hashAggMerge => exact ⟨_, rfl, Keeps.mem (.doHashAggMerge .refl)⟩
  | windowAggBatch => exact ⟨_, rfl, Keeps.mem (.doWindowAggBatch .refl)⟩
  | sortBatch => exact ⟨_, rfl, Keeps.mem (.doSortBatch .refl)⟩
  | topnBatch => exact ⟨_, rfl, Keeps.mem (.doTopnBatch .refl)⟩
  | mergeIntermediate => exact ⟨_, rfl, Keeps.mem (.doMergeIntermediate .refl)⟩
  | mergeFinal => exact ⟨_, rfl, Keeps.mem (.doMergeFinal .refl)⟩
  | exchangeSend => exact ⟨_, rfl, Keeps.mem (.doExchangeSend .refl)⟩
  | exchangeFragmentReceive => exact ⟨_, rfl, Keeps.mem (.doExchangeFragmentReceive .refl)⟩
  | outputBatch => exact ⟨_, rfl, Keeps.mem (.doOutputBatch .refl)⟩
  | checkpointTimer => exact ⟨_, rfl, Keeps.mem (.doCheckpointTimer .refl)⟩
  | checkpointComplete => exact ⟨_, rfl, Keeps.mem (.doCheckpointComplete .refl)⟩
  | commitPoint => exact ⟨_, rfl, Keeps.mem (.doCommitPoint .refl)⟩
  | msixCoalesceTimeout => exact ⟨_, rfl, Keeps.mem (.doMsixCoalesceTimeout .refl)⟩
  | clusterWakeComplete => exact ⟨_, rfl, Keeps.mem (.doClusterWakeCompleteAll .refl)⟩
  | clockGatedWakeDone => exact ⟨_, rfl, Keeps.mem (.doClockGatedWakeDone .refl)⟩
  | clusterPowerGate => exact ⟨_, rfl, Keeps.mem (.doClusterPowerGate .refl)⟩
  | schedWinSnapshot => exact ⟨_, rfl, Keeps.mem (.rowWrite .refl (fun _ h => .doSchedWinSnapshot h))⟩
  | ingestFrame => exact ⟨_, rfl, Keeps.mem (.doIngestFrame .refl)⟩
  | replyCacheExpiry => exact ⟨_, rfl, Keeps.mem (.doReplyCacheExpiry .refl)⟩
  | layoutValidate => exact ⟨_, rfl, Keeps.mem (.rowWrite .refl (fun _ h => .doLayoutValidate h))⟩
  | layoutInvalidate => exact ⟨_, rfl, Keeps.mem (.rowWrite .refl (fun _ h => .doLayoutInvalidate h))⟩
  | layoutMemWrite => exact ⟨_, rfl, Keeps.mem (.rowWriteMem .refl (fun _ h => .doLayoutMemWrite h))⟩
  | gwFloorWrite => exact ⟨_, rfl, Keeps.mem (.rowWriteVal .refl (fun _ h => .doGwFloorWrite h))⟩
  | sysNop => exact ⟨_, rfl, Keeps.mem (.doSysNop .refl)⟩
  | wfe => exact ⟨_, rfl, Keeps.mem (.doWfe .refl)⟩
  | wfeWake => exact ⟨_, rfl, Keeps.mem (.doWfeWake .refl)⟩
  | sev => exact ⟨_, rfl, Keeps.mem (.doSev .refl)⟩
  | waitt => exact ⟨_, rfl, Keeps.mem (.doWaitt .refl)⟩
  | waittDone => exact ⟨_, rfl, Keeps.mem (.doWaittDone .refl)⟩
  | timerFire => exact ⟨_, rfl, Keeps.mem (.doTimerFire .refl)⟩
  | reti => exact ⟨_, rfl, Keeps.mem (.doReti .refl)⟩
  | trap => exact ⟨_, rfl, Keeps.mem (.doTrap .refl)⟩
  | fence => exact ⟨_, rfl, Keeps.mem (.doFence .refl)⟩
  | brk => exact ⟨_, rfl, Keeps.mem (.doBreak .refl)⟩
  | ret => exact ⟨_, rfl, Keeps.mem (.doRet .refl)⟩
  | movc => exact ⟨_, rfl, Keeps.mem (.doMovc .refl)⟩
  | alu => exact ⟨_, rfl, Keeps.mem (.doAlu .refl)⟩
  | alux => exact ⟨_, rfl, Keeps.mem (.doAlux .refl)⟩
  | alui => exact ⟨_, rfl, Keeps.mem (.doAlui .refl)⟩
  | aluq => exact ⟨_, rfl, Keeps.mem (.doAluq .refl)⟩
  | aop => exact ⟨_, rfl, Keeps.mem (.doAop .refl)⟩
  | addai => exact ⟨_, rfl, Keeps.mem (.doAddai .refl)⟩
  | lia => exact ⟨_, rfl, Keeps.mem (.doLia .refl)⟩
  | ld => exact ⟨_, rfl, Keeps.mem (.doLd .refl)⟩
  | st => exact ⟨_, rfl, Keeps.mem (.doSt .refl)⟩
  | ldm => exact ⟨_, rfl, Keeps.mem (.doLdm .refl)⟩
  | stm => exact ⟨_, rfl, Keeps.mem (.doStm .refl)⟩
  | acld => exact ⟨_, rfl, Keeps.mem (.doAcld .refl)⟩
  | acst => exact ⟨_, rfl, Keeps.mem (.doAcst .refl)⟩
  | acldn => exact ⟨_, rfl, Keeps.mem (.doAcldn .refl)⟩
  | acstn => exact ⟨_, rfl, Keeps.mem (.doAcstn .refl)⟩
  | acop => exact ⟨_, rfl, Keeps.mem (.doAcop .refl)⟩
  | acxfer => exact ⟨_, rfl, Keeps.mem (.doAcxfer .refl)⟩
  | brd => exact ⟨_, rfl, Keeps.mem (.doBrd .refl)⟩
  | bra => exact ⟨_, rfl, Keeps.mem (.doBra .refl)⟩
  | brac => exact ⟨_, rfl, Keeps.mem (.doBrac .refl)⟩
  | dbnz => exact ⟨_, rfl, Keeps.mem (.doDbnz .refl)⟩
  | jmp => exact ⟨_, rfl, Keeps.mem (.doJmp .refl)⟩
  | jmpr => exact ⟨_, rfl, Keeps.mem (.doJmpr .refl)⟩
  | call => exact ⟨_, rfl, Keeps.mem (.doCall .refl)⟩
  | retm => exact ⟨_, rfl, Keeps.mem (.doRetm .refl)⟩
  | pushm => exact ⟨_, rfl, Keeps.mem (.doPushm .refl)⟩
  | popm => exact ⟨_, rfl, Keeps.mem (.doPopm .refl)⟩
  | movs => exact ⟨_, rfl, Keeps.mem (.doMovs .refl)⟩
  | fills => exact ⟨_, rfl, Keeps.mem (.doFills .refl)⟩
  | cmps => exact ⟨_, rfl, Keeps.mem (.doCmps .refl)⟩
  | scans => exact ⟨_, rfl, Keeps.mem (.doScans .refl)⟩
  | illegalOpcode => exact ⟨_, rfl, Keeps.mem (.doIllegalOpcode .refl)⟩
  | interruptEntry => exact ⟨_, rfl, Keeps.mem (.doInterruptEntry .refl)⟩
  | windowLoadData => exact ⟨_, rfl, Keeps.mem (.doWindowLoadData .refl)⟩
  | varith => exact ⟨_, rfl, Keeps.mem (.doVarith .refl)⟩
  | vlogic => exact ⟨_, rfl, Keeps.mem (.doVlogic .refl)⟩
  | vcmp => exact ⟨_, rfl, Keeps.mem (.doVcmp .refl)⟩
  | vscale => exact ⟨_, rfl, Keeps.mem (.doVscale .refl)⟩
  | vmulw => exact ⟨_, rfl, Keeps.mem (.doVmulw .refl)⟩
  | vdot4 => exact ⟨_, rfl, Keeps.mem (.doVdot4 .refl)⟩
  | vdot2w => exact ⟨_, rfl, Keeps.mem (.doVdot2w .refl)⟩
  | vdiv => exact ⟨_, rfl, Keeps.mem (.doVdiv .refl)⟩
  | vld => exact ⟨_, rfl, Keeps.mem (.doVld .refl)⟩
  | vst => exact ⟨_, rfl, Keeps.mem (.doVst .refl)⟩
  | vldff => exact ⟨_, rfl, Keeps.mem (.doVldff .refl)⟩
  | vgather => exact ⟨_, rfl, Keeps.mem (.doVgather .refl)⟩
  | vgatherff => exact ⟨_, rfl, Keeps.mem (.doVgatherff .refl)⟩
  | vscatter => exact ⟨_, rfl, Keeps.mem (.doVscatter .refl)⟩
  | vcompact => exact ⟨_, rfl, Keeps.mem (.doVcompact .refl)⟩
  | vhash => exact ⟨_, rfl, Keeps.mem (.doVhash .refl)⟩
  | vmemb => exact ⟨_, rfl, Keeps.mem (.doVmemb .refl)⟩
  | vsel => exact ⟨_, rfl, Keeps.mem (.doVsel .refl)⟩
  | vpred => exact ⟨_, rfl, Keeps.mem (.doVpred .refl)⟩
  | vxfer => exact ⟨_, rfl, Keeps.mem (.doVxfer .refl)⟩
  | vconv => exact ⟨_, rfl, Keeps.mem (.doVconv .refl)⟩
  | vctl => exact ⟨_, rfl, Keeps.mem (.doVctl .refl)⟩
  | vpipe => exact ⟨_, rfl, Keeps.mem (.doVpipe .refl)⟩
  | vectorChain => exact ⟨_, rfl, Keeps.mem (.doVectorChain .refl)⟩
  | pipeDecode => exact ⟨_, rfl, Keeps.mem (.doPipeDecode .refl)⟩
  | pipeEncode => exact ⟨_, rfl, Keeps.mem (.doPipeEncode .refl)⟩
  | pipeSort32 => exact ⟨_, rfl, Keeps.mem (.doPipeSort32 .refl)⟩
  | pipeMerge => exact ⟨_, rfl, Keeps.mem (.doPipeMerge .refl)⟩
  | pipeEscpop => exact ⟨_, rfl, Keeps.mem (.doPipeEscpop .refl)⟩
  | cacheAccess => exact ⟨_, rfl, Keeps.mem (.secondFault (.doCacheAccess .refl))⟩
  | wayRetireDone => exact ⟨_, rfl, Keeps.mem (.doWayRetireDone .refl)⟩
  | scClean => exact ⟨_, rfl, Keeps.mem (.rowWrite .refl (fun _ h => .doScClean h))⟩
  | scCleanInval => exact ⟨_, rfl, Keeps.mem (.rowWrite .refl (fun _ h => .doScCleanInval h))⟩
  | scLockLoad => exact ⟨_, rfl, Keeps.mem (.rowWrite .refl (fun _ h => .doScLockLoad h))⟩
  | scOpDone => exact ⟨_, rfl, Keeps.mem (.doScOpDone .refl)⟩
  | scLockWrite => exact ⟨_, rfl, Keeps.mem (.rowWriteVal .refl (fun _ h => .doScLockWrite h))⟩
  | cacheDisable => exact ⟨_, rfl, Keeps.mem (.rowWrite .refl (fun _ h => .doCacheDisable h))⟩
  | cacheDisableDone => exact ⟨_, rfl, Keeps.mem (.doCacheDisableDone .refl)⟩
  | cacheEnable => exact ⟨_, rfl, Keeps.mem (.rowWrite .refl (fun _ h => .doCacheEnable h))⟩
  | wayPowerDown => exact ⟨_, rfl, Keeps.mem (.rowWriteVal .refl (fun _ h => .doWayPowerDown h))⟩
  | wayPowerOffDone => exact ⟨_, rfl, Keeps.mem (.doWayPowerOffDone .refl)⟩
  | wayPowerUp => exact ⟨_, rfl, Keeps.mem (.rowWriteVal .refl (fun _ h => .doWayPowerUp h))⟩
  | scratchConvert => exact ⟨_, rfl, Keeps.mem (.rowWriteVal .refl (fun _ h => .doScratchConvert h))⟩
  | scratchReady => exact ⟨_, rfl, Keeps.mem (.doScratchReady .refl)⟩
  | scratchRelease => exact ⟨_, rfl, Keeps.mem (.rowWriteVal .refl (fun _ h => .doScratchRelease h))⟩
  | dramRead => exact ⟨_, rfl, Keeps.mem (.secondFault (.doDramRead .refl))⟩
  | rowRepairDone => exact ⟨_, rfl, Keeps.mem (.doRowRepairDone .refl)⟩
  | dramWrite => exact ⟨_, rfl, Keeps.mem (.doDramWrite .refl)⟩
  | writeBatchDrain => exact ⟨_, rfl, Keeps.mem (.doWriteBatchDrain .refl)⟩
  | refresh => exact ⟨_, rfl, Keeps.mem (.doRefresh .refl)⟩
  | refreshRatePoll => exact ⟨_, rfl, Keeps.mem (.doRefreshRatePoll .refl)⟩
  | patrolScrubRead => exact ⟨_, rfl, Keeps.mem (.secondFault (.doPatrolScrubRead .refl))⟩
  | selfRefreshEntry => exact ⟨_, rfl, Keeps.mem (.doSelfRefreshEntry .refl)⟩
  | delayApply => exact ⟨_, rfl, Keeps.mem (.rowWrite .refl (fun _ h => .doDelayApply h))⟩
  | delayCopy => exact ⟨_, rfl, Keeps.mem (.doDelayCopy .refl)⟩
  | delayShadowWrite => exact ⟨_, rfl, Keeps.mem (.rowWriteVal .refl (fun _ h => .doDelayShadowWrite h))⟩
  | pprSoft => exact ⟨_, rfl, Keeps.mem (.rowWrite .refl (fun _ h => .doPprSoft h))⟩
  | pprHard => exact ⟨_, rfl, Keeps.mem (.rowWrite .refl (fun _ h => .doPprHard h))⟩
  | dmcCtlWrite => exact ⟨_, rfl, Keeps.mem (.rowWriteVal .refl (fun _ h => .doDmcCtlWrite h))⟩
  | dmaChannelGrant => exact ⟨_, rfl, Keeps.mem (.doDmaChannelGrant .refl)⟩
  | dmaSegmentEnd => exact ⟨_, rfl, Keeps.mem (.doDmaSegmentEnd .refl)⟩
  | vfEnable => exact ⟨_, rfl, Keeps.mem (.doVfEnable .refl)⟩
  | vfEnableClear => exact ⟨_, rfl, Keeps.mem (.doVfEnableClear .refl)⟩
  | ledgerDataWriteDone => exact ⟨_, rfl, Keeps.mem (.secondFault (.doLedgerDataWriteDone .refl))⟩
  | commitSectorDone => exact ⟨_, rfl, Keeps.mem (.secondFault (.doCommitSectorDone .refl))⟩
  | snapshotDone => exact ⟨_, rfl, Keeps.mem (.doSnapshotDone .refl)⟩
  | ledgerReadDone => exact ⟨_, rfl, Keeps.mem (.secondFault (.doLedgerReadDone .refl))⟩
  | appendGroupClose => exact ⟨_, rfl, Keeps.mem (.doAppendGroupClose .refl)⟩
  | peerRspTimeout => exact ⟨_, rfl, Keeps.mem (.doPeerRspTimeout .refl)⟩
  | xferGrantTimeout => exact ⟨_, rfl, Keeps.mem (.doXferGrantTimeout .refl)⟩
  | payloadFlit => exact ⟨_, rfl, Keeps.mem (.doPayloadFlit .refl)⟩
  | idleFlit => exact ⟨_, rfl, Keeps.mem (.doIdleFlit .refl)⟩
  | retryReq => exact ⟨_, rfl, Keeps.mem (.doRetryReq .refl)⟩
  | retryReqRepeat => exact ⟨_, rfl, Keeps.mem (.doRetryReqRepeat .refl)⟩
  | swapReq => exact ⟨_, rfl, Keeps.mem (.secondFault (.doSwapReq .refl))⟩
  | laneFault => exact ⟨_, rfl, Keeps.mem (.secondFault (.doLaneFault .refl))⟩
  | trainFlit => exact ⟨_, rfl, Keeps.mem (.doTrainFlit .refl)⟩
  | linkSilent => exact ⟨_, rfl, Keeps.mem (.doLinkSilent .refl)⟩
  | retrainDelay => exact ⟨_, rfl, Keeps.mem (.doRetrainDelay .refl)⟩
  | bridyCmd => exact ⟨_, rfl, Keeps.mem (.doBridyCmd .refl)⟩
  | xferRdy => exact ⟨_, rfl, Keeps.mem (.doXferRdy .refl)⟩
  | dataPacket => exact ⟨_, rfl, Keeps.mem (.doDataPacket .refl)⟩
  | rspPacket => exact ⟨_, rfl, Keeps.mem (.doRspPacket .refl)⟩
  | msgPacket => exact ⟨_, rfl, Keeps.mem (.doMsgPacket .refl)⟩
  | mgmtPacket => exact ⟨_, rfl, Keeps.mem (.doMgmtPacket .refl)⟩
  | bridyPortEnable => exact ⟨_, rfl, Keeps.mem (.rowWriteVal .refl (fun _ h => .doBridyPortEnable h))⟩
  | bridyPortDisable => exact ⟨_, rfl, Keeps.mem (.rowWriteVal .refl (fun _ h => .doBridyPortDisable h))⟩
  | txEpochChange => exact ⟨_, rfl, Keeps.mem (.rowWriteVal .refl (fun _ h => .doTxEpochChange h))⟩
  | keyLoad => exact ⟨_, rfl, Keeps.mem (.rowWriteVal .refl (fun _ h => .doKeyLoad h))⟩
  | keyErase => exact ⟨_, rfl, Keeps.mem (.rowWriteVal .refl (fun _ h => .doKeyErase h))⟩
  | stagingZeroise => exact ⟨_, rfl, Keeps.mem (.rowWriteVal .refl (fun _ h => .doStagingZeroise h))⟩
  | keyEraseDone => exact ⟨_, rfl, Keeps.mem (.doKeyEraseDone .refl)⟩
  | cipherMessageDone => exact ⟨_, rfl, Keeps.mem (.doCipherMessageDone .refl)⟩
  | digestMessageDone => exact ⟨_, rfl, Keeps.mem (.doDigestMessageDone .refl)⟩
  | camWindowWrite => exact ⟨_, rfl, Keeps.mem (.doCamWindowWrite .refl)⟩
  | camLookup => exact ⟨_, rfl, Keeps.mem (.doCamLookup .refl)⟩
  | camScrub => exact ⟨_, rfl, Keeps.mem (.secondFault (.doCamScrub .refl))⟩
  | camSpareLoadDone => exact ⟨_, rfl, Keeps.mem (.doCamSpareLoadDone .refl)⟩
  | status => exact ⟨_, rfl, Keeps.mem (.doStatus .refl)⟩
  | attest => exact ⟨_, rfl, Keeps.mem (.doAttest .refl)⟩
  | certs => exact ⟨_, rfl, Keeps.mem (.doCerts .refl)⟩
  | fwWrite => exact ⟨_, rfl, Keeps.mem (.doFwWrite .refl)⟩
  | fwCommit => exact ⟨_, rfl, Keeps.mem (.doFwCommit .refl)⟩
  | fwAccept => exact ⟨_, rfl, Keeps.mem (.doFwAccept .refl)⟩
  | debugOpen => exact ⟨_, rfl, Keeps.mem (.doDebugOpen .refl)⟩
  | porAssert => exact ⟨_, rfl, .doPorAssert .refl⟩
  | porRelease => exact ⟨_, rfl, Keeps.mem (.doPorRelease .refl)⟩
  | driveReady => exact ⟨_, rfl, Keeps.mem (.doDriveReady .refl)⟩
  | driveReadyTimeout => exact ⟨_, rfl, Keeps.mem (.doDriveReadyTimeout .refl)⟩
  | dramFillDone => exact ⟨_, rfl, Keeps.mem (.doDramFillDone .refl)⟩
  | modeAutoMove => exact ⟨_, rfl, Keeps.mem (.doModeAutoMove .refl)⟩
  | modeReqResume => exact ⟨_, rfl, Keeps.mem (.doModeReqResume .refl)⟩
  | modeReqDrain => exact ⟨_, rfl, Keeps.mem (.doModeReqDrain .refl)⟩
  | modeReqRetain => exact ⟨_, rfl, Keeps.mem (.doModeReqRetain .refl)⟩
  | modeReqMaintain => exact ⟨_, rfl, Keeps.mem (.doModeReqMaintain .refl)⟩
  | modeReqOffReady => exact ⟨_, rfl, Keeps.mem (.doModeReqOffReady .refl)⟩
  | drainComplete => exact ⟨_, rfl, .doDrainComplete .refl⟩
  | drainTimeout => exact ⟨_, rfl, Keeps.mem (.doDrainTimeout .refl)⟩
  | wakePin => exact ⟨_, rfl, Keeps.mem (.doWakePin .refl)⟩
  | wakeTimer => exact ⟨_, rfl, Keeps.mem (.doWakeTimer .refl)⟩
  | wakeSmbus => exact ⟨_, rfl, Keeps.mem (.doWakeSmbus .refl)⟩
  | perstDeassert => exact ⟨_, rfl, Keeps.mem (.doPerstDeassert .refl)⟩
  | perstAssert => exact ⟨_, rfl, Keeps.mem (.doPerstAssert .refl)⟩
  | thermalSample => exact ⟨_, rfl, .doThermalSample .refl⟩
  | powerEstimate => exact ⟨_, rfl, Keeps.mem (.doPowerEstimate .refl)⟩
  | devtimeWrite => exact ⟨_, rfl, Keeps.mem (.doDevtimeWrite .refl)⟩
  | aonPostedWrite => exact ⟨_, rfl, Keeps.mem (.doAonPostedWrite .refl)⟩
  | detectedError => exact ⟨_, rfl, Keeps.mem (.doDetectedError .refl)⟩
  | spareTileRemap => exact ⟨_, rfl, Keeps.mem (.doSpareTileRemap .refl)⟩
  | tileBistDone => exact ⟨_, rfl, Keeps.mem (.doTileBistDone .refl)⟩
  | recoverEnd => exact ⟨_, rfl, Keeps.mem (.doRecoverEnd .refl)⟩
  | cfgParityScrub => exact ⟨_, rfl, Keeps.mem (.doCfgParityScrub .refl)⟩
  | cfgParityRewrite => exact ⟨_, rfl, Keeps.mem (.doCfgParityRewrite .refl)⟩
  | registerWrite => exact ⟨_, rfl, Keeps.mem (.doRegisterWrite .refl)⟩
  | aclkEdge => exact ⟨_, rfl, Keeps.mem (.doAclkEdge .refl)⟩
  | swapReqRepeat => exact ⟨_, rfl, Keeps.mem (.doSwapReqRepeat .refl)⟩
  | driveStopsAnswering => exact ⟨_, rfl, Keeps.mem (.secondFault (.doDriveStopsAnswering .refl))⟩
/-- Settles O60: every command answers a state that keeps the queue and the ordering code. -/
theorem commandsKeepTheQueue : Obligations.CommandsKeepTheQueue := by
  unfold Obligations.CommandsKeepTheQueue
  intro c s
  obtain ⟨t, ht, hk⟩ := exec_keeps c s
  exact ⟨t, ht, hk.pending, hk.code512⟩

/-- Settles O59: a step is a command on the state with the queue's rest, or one cycle of the fabric clock. -/
theorem stepKeepsMemoriesCanonical : Obligations.StepKeepsMemoriesCanonical := by
  unfold Obligations.StepKeepsMemoriesCanonical
  intro s t hs hstep
  unfold step at hstep
  split at hstep
  next c rest _ =>
    obtain ⟨u, hu, hk⟩ := exec_keeps c { s with pending := rest }
    rw [hu] at hstep
    cases hstep
    exact hk.memOk hs
  next =>
    cases hstep
    exact (Keeps.refl.fclkTick).memOk hs

end Sys2Proof.Machine

/-! Proofs for the sequencer's register and system instructions, its events and its exceptions (chapter 10, R197 to R221). -/

namespace Sys2Proof.Machine
open Sys2Proof Sys2Proof.Safety

/-! ## Issue and re-issue -/

section
variable {s : State} {n : Nat} {c : Core} {row : SRow} {w1 w2 : Nat}

/-- An instruction of `k` words that issues and changes registers only, by either of its words. -/
theorem issue_words (h : Issues s n c row w1 w2) (k : Nat) (f : Core → Nat → Nat → Core → Core) :
    issue n row s (fun s _ c w1 w2 => step1 s k (f c w1 w2)) = setCore s n (f c w1 w2 (pcAdd c k)) := by
  rw [issue_done h rfl]
/-- An instruction that issues and leaves core `x`. -/
theorem issue_to {x : Core} {body : State → Nat → Core → Nat → Nat → IRes} {f : Core → Core} (h : Issues s n c row w1 w2)
    (hb : body s n c w1 w2 = .done s f) (hx : f c = x) : issue n row s body = setCore s n x := by
  rw [issue_done h hb, hx]
/-- An instruction that issues and completes after it changed the cores: its own stands in `t` as `x`. -/
theorem issue_changed_to {t : State} {x y : Core} {body : State → Nat → Core → Nat → Nat → IRes} {f : Core → Core}
    (h : Issues s n c row w1 w2) (hb : body s n c w1 w2 = .done t f) (hx : tget t.cores n = some x) (hr : x.run = .run) (hy : f x = y) :
    issue n row s body = setCore t n y := by
  obtain ⟨hc, hrun, hlinks, hfetch⟩ := h
  simp [issue, getCore_of hc, hrun, hlinks, hfetch, applyRes, hb, coreUpd_of hx, hr, hy]
/-- A core that stands at an instruction, and completes it with effects on its registers only. -/
theorem reissue_to {st : CRun} (h : Stands s n c st row w1 w2) {body : SRow → State → Nat → Core → Nat → Nat → IRes}
    {f : Core → Core} {x : Core} (hb : body row s n c w1 w2 = .done s f)
    (hx : f (if st = .load then { c with run := .run } else c) = x) : reissue n s st body = setCore s n x := by
  obtain ⟨hc, rfl, hfetch⟩ := h
  simp only [reissue, getCore_of hc, ne_eq, not_true_eq_false, if_false, hfetch, hb, applyRes, coreUpd_of hc, hx]

/-- The value that EADDR holds after an entry that leaves it open (R219). -/
def freeAddr (s : State) : Nat := (freeRes s).1
/-- The state after a value the spec leaves open was taken. -/
def tookFree (s : State) : State := (freeRes s).2
@[simp] theorem tookFree_cores (s : State) : (tookFree s).cores = s.cores := rfl
theorem excEntry_none (hc : tget s.cores n = some c) (epc code svc : Nat) :
    excEntry s n epc code none svc = setCore (tookFree s) n (excCore c epc code svc (freeAddr s)) := by
  rw [excEntry]
  exact coreUpd_of (s := tookFree s) hc _
theorem syncExc_none (hc : tget s.cores n = some c) (hexl : c.exl = false) (epc code svc : Nat) :
    syncExc s n epc code none svc = setCore (tookFree s) n (excCore c epc code svc (freeAddr s)) := by
  rw [syncExc, getCore_of hc, hexl, if_neg (by simp), excEntry_none hc]
theorem getCore_tookFree (s : State) (k : Nat) : getCore (tookFree s) k = getCore s k := rfl
/-- An instruction that issues and raises a cause without an address. -/
theorem issue_raise (h : Issues s n c row w1 w2) (hexl : c.exl = false) {body : State → Nat → Core → Nat → Nat → IRes}
    {code : Nat} (hb : body s n c w1 w2 = raise s code) :
    issue n row s body = setCore (tookFree s) n (excCore c c.pc.toNat code 0 (freeAddr s)) := by
  rw [issue_exc h hb, syncExc_none (tget_setCore_self _ _ _) hexl]
  exact setCore_setCore (tookFree s) n c _

end

/-! ## Register and accumulator instructions (R199, R204) -/

/-- Settles O1: each register instruction by the rule of one that changes registers only, ACOP by the case of its result. -/
theorem registerInstructionsComplete : Obligations.RegisterInstructionsComplete := by
  unfold Obligations.RegisterInstructionsComplete
  refine ⟨fun s n c w1 w2 => ⟨?nop, ?alu, ?alux, ?alui, ?aluq, ?aop, ?addai, ?lia⟩,
    fun s n c w1 w2 h => ⟨fun v hv => ?value, fun hv hexl => ?overflow⟩⟩
  case nop => exact fun h => next_congr (issue_words h _ _)
  case alu => exact fun h => next_congr (issue_words h _ _)
  case alux => exact fun h => next_congr (issue_words h _ _)
  case alui => exact fun h => next_congr (issue_words h _ _)
  case aluq => exact fun h => next_congr (issue_words h _ _)
  case aop => exact fun h => next_congr (issue_words h _ _)
  case addai => exact fun h => next_congr (issue_words h _ _)
  case lia => exact fun h => next_congr (issue_words h _ _)
  case value =>
    refine next_congr ?_
    rw [doAcop, issue_done h (f := fun x => setAC (pcAdd x 1) (fld w1 4 3) v)]
    dsimp only
    rw [hv]
    rfl
  case overflow =>
    refine ⟨_, rfl, ?_⟩
    rw [doAcop, issue_raise h hexl (code := Exc.overflow)]
    · simp only [getCore_setCore_self]
      exact ⟨rfl, rfl, rfl, by simp, rfl⟩
    · dsimp only
      rw [hv]

/-! ## Jumps, waits, fences, MOVC, RETI and SEV (R197, R211 to R214, R219) -/

/-- The core after an event: EVPEND.SEV is set (R212). -/
def signalled (c : Core) : Core := { c with evpend := c.evpend ||| 8 }
theorem sevSet_of {s : State} {j : Nat} {e : Core} (h : tget s.cores j = some e) : sevSet s j = setCore s j (signalled e) := coreUpd_of h _
theorem tget_sevSet_ne {s : State} {j k : Nat} (h : k ≠ j) : tget (sevSet s j).cores k = tget s.cores k := tget_tupd_ne _ _ _ _ h
theorem tget_sevSet_self (s : State) (j : Nat) : tget (sevSet s j).cores j = (tget s.cores j).map signalled := by
  cases hc : tget s.cores j with
  | none =>
    rw [sevSet, coreUpd, tupd_none hc]
    exact hc
  | some c => rw [sevSet_of hc, tget_setCore_self]; rfl
theorem signalled_idem (c : Core) : signalled (signalled c) = signalled c := by
  unfold signalled
  rw [BitVec.or_assoc, BitVec.or_self]
theorem tget_foldl_sevSet (l : List Nat) (s : State) (k : Nat) :
    tget (l.foldl sevSet s).cores k = if k ∈ l then (tget s.cores k).map signalled else tget s.cores k := by
  induction l generalizing s with
  | nil => rfl
  | cons j l ih =>
    rw [List.foldl_cons, ih]
    rcases Decidable.em (k = j) with rfl | hkj
    · rw [tget_sevSet_self, if_pos List.mem_cons_self, Option.map_map]
      have hid : signalled ∘ signalled = signalled := funext signalled_idem
      rw [hid, ite_self]
    · simp only [tget_sevSet_ne hkj, List.mem_cons, hkj, false_or]

/-- Settles O4: each by its rule of issue or re-issue; SEV by what it sets on the cores of a list. -/
theorem systemInstructionsComplete : Obligations.SystemInstructionsComplete := by
  unfold Obligations.SystemInstructionsComplete
  refine ⟨fun s n c w1 w2 => ⟨?jmp, ?jmpr⟩,
    fun s n c w1 w2 => ⟨?wfe, ?sleep, ?wake, ?waitt, ?wait, ?waited, ?timer, ?fence, ?reti, ?movc⟩,
    fun s n c w1 w2 h => ⟨?one, ?all, ?illegal⟩⟩
  case jmp => exact fun h => next_congr (issue_to h rfl rfl)
  case jmpr => exact fun h => next_congr (issue_to h rfl rfl)
  case wfe => exact fun h hev => next_congr (issue_to h (if_neg hev) rfl)
  case sleep => exact fun h hev => next_congr (issue_to h (if_pos hev) rfl)
  case wake => exact fun h hev => next_congr (reissue_to h ((if_pos ⟨rfl, hev⟩).trans (if_neg hev)) rfl)
  case waitt => exact fun h hr => next_congr (issue_to h (if_pos hr) rfl)
  case wait => exact fun h hr => next_congr (issue_to h (if_neg hr) rfl)
  case waited => exact fun h hr => next_congr (reissue_to h (if_pos ⟨rfl, hr⟩) rfl)
  case timer =>
    intro t hc ht hr
    refine next_congr ((coreUpd_of hc _).trans ?_)
    rw [timerFire, ht]
    exact congrArg _ (if_pos hr)
  case fence => exact fun h hp => next_congr (issue_to h (if_neg (fun hw => hw.2 (hp hw.1))) rfl)
  case reti => exact fun h hk => next_congr (issue_to h (if_neg (by rw [hk]; decide)) rfl)
  case movc =>
    intro h hopen
    have hallowed : ¬ ((!c.k) = true ∧ (kernelReg (fld w1 8 4) = true ∨ bitOf w1 9 = true ∧ fld w1 8 4 = 0)) := by
      rintro ⟨hk, hreg⟩
      rcases hopen with hk' | ⟨hreg', hwrite⟩
      · simp [hk'] at hk
      · rcases hreg with hr | ⟨hb, h0⟩
        · simp [hreg'] at hr
        · exact hwrite hb h0
    by_cases hwrite : bitOf w1 9 = true
    · rw [if_pos hwrite]
      exact next_congr (issue_to h ((if_neg hallowed).trans (if_pos hwrite)) rfl)
    · rw [if_neg hwrite]
      exact next_congr (issue_to h ((if_neg hallowed).trans (if_neg hwrite)) rfl)
  case one =>
    intro j e hkind hone hat he
    have hres : doSev n s = setCore (sevSet s j) n (pcAdd (if n = j then signalled c else c) 1) := by
      refine issue_changed_to h ((if_neg hkind).trans ?_) (x := if n = j then signalled c else c) (f := fun x => pcAdd x 1) ?_ ?_ rfl
      · rw [hone, if_neg Bool.false_ne_true, hat]
        rfl
      · split
        next hnj => rw [← hnj, tget_sevSet_self, h.1]; rfl
        next hnj => rw [tget_sevSet_ne hnj, h.1]
      · split
        · exact h.2.1
        · exact h.2.1
    refine ⟨_, next_congr hres, ?_, ?_, fun k hkj hkn => ?_⟩
    · rcases Decidable.em (j = n) with rfl | hjn
      · rw [getCore_setCore_self, if_pos rfl]
        cases h.1.symm.trans he
        rfl
      · rw [getCore_setCore_ne _ _ _ _ hjn, getCore_of (c := signalled e) (by rw [tget_sevSet_self, he]; rfl)]
        rfl
    · rw [getCore_setCore_self]
      split
      · rfl
      · rfl
    · rw [setCore, tget_tset_ne _ _ _ _ hkn, tget_sevSet_ne hkj]
  case all =>
    intro hkind hall
    have hothers : tget (((sevGroup s n).filter (· != n)).foldl sevSet s).cores n = some c := by
      rw [tget_foldl_sevSet, if_neg (by simp), h.1]
    have hres : doSev n s = setCore (((sevGroup s n).filter (· != n)).foldl sevSet s) n (pcAdd c 1) :=
      issue_changed_to h ((if_neg hkind).trans (if_pos hall)) hothers h.2.1 rfl
    refine ⟨_, next_congr hres, fun j e hj hjn he => ?_, ?_⟩
    · have hmem : j ∈ (sevGroup s n).filter (· != n) := List.mem_filter.mpr ⟨hj, bne_iff_ne.mpr hjn⟩
      rw [getCore_setCore_ne _ _ _ _ hjn, getCore_of (c := signalled e) (by rw [tget_foldl_sevSet, if_pos hmem, he]; rfl)]
      rfl
    · rw [getCore_setCore_self]
      rfl
  case illegal =>
    intro hno hexl
    refine ⟨_, next_congr (issue_raise h hexl (code := Exc.illegal) ?_), ?_⟩
    · rcases hno with hkind | ⟨hone, hat⟩
      · exact if_pos hkind
      · split
        · rfl
        · rw [hone, if_neg Bool.false_ne_true, hat]
    · rw [getCore_setCore_self]
      exact ⟨rfl, by simp⟩

/-! ## Exceptions and interrupts (R217 to R219) -/

section
variable {s : State} {n : Nat} {c : Core} {w1 w2 : Nat}

theorem doTrap_of (h : Issues s n c .trap w1 w2) (hexl : c.exl = false) :
    doTrap n s = setCore (tookFree s) n (excCore c (wadd c.pc.toNat 1) Exc.trap (fld w1 5 0) (freeAddr s)) := by
  obtain ⟨hc, hrun, hlinks, hfetch⟩ := h
  rw [← syncExc_none hc hexl]
  simp [doTrap, getCore_of hc, hrun, hlinks, hfetch]
theorem doIllegalOpcode_of (hc : tget s.cores n = some c) (hrun : c.run = .run) (hlinks : c.vec.links = [])
    (hfetch : fetchAt n c c.pc.toNat = .ins none w1 w2) (hexl : c.exl = false) :
    doIllegalOpcode n s = setCore (tookFree s) n (excCore c c.pc.toNat Exc.illegal 0 (freeAddr s)) := by
  rw [← syncExc_none hc hexl]
  simp [doIllegalOpcode, getCore_of hc, hrun, hlinks, hfetch]
theorem doInterruptEntry_of (hc : tget s.cores n = some c) (hrun : c.run = .run ∨ c.run = .wfe ∨ c.run = .waitt) (hie : c.ie = true)
    (hlinks : c.vec.links = []) {code : Nat} (hirq : irqCode c = some code) :
    doInterruptEntry n false s = setCore (tookFree s) n (excCore (irqTaken c code) c.pc.toNat code 0 (freeAddr s)) := by
  have hopen : ¬ ((c.run ≠ .run ∧ c.run ≠ .wfe ∧ c.run ≠ .waitt) ∨ (!c.ie) = true ∨ c.vec.links ≠ []) := by
    rw [hie, hlinks]
    grind
  have htaken : coreUpd s n (fun c => irqTaken c code) = setCore s n (irqTaken c code) := coreUpd_of hc _
  simp only [doInterruptEntry, Bool.false_eq_true, false_and, if_false, getCore_of hc, if_neg hopen, hirq, htaken]
  rw [excEntry_none (tget_setCore_self _ _ _)]
  exact setCore_setCore (tookFree s) n _ _
/-- Taking an interrupt off changes its pending bits only. -/
theorem irqTaken_eq (c : Core) (code : Nat) : ∃ g d k e,
    irqTaken c code = { c with irqDebug := g, irqDispatch := d, irqCkpt := k, evpend := e } := by
  unfold irqTaken
  split
  · exact ⟨_, _, _, _, rfl⟩
  · split
    · exact ⟨_, _, _, _, rfl⟩
    · exact ⟨_, _, _, _, rfl⟩

end

/-- Settles O5: each goes to the entry of an exception, from the core as it stood, or with the interrupt taken off. -/
theorem exceptionEntrySavesAndVectors : Obligations.ExceptionEntrySavesAndVectors := by
  unfold Obligations.ExceptionEntrySavesAndVectors
  intro s n c w1 w2 entry
  have hentry (g d k : Bool) (e : BitVec 16) (epc code svc : Nat) : entry (setCore (tookFree s) n
      (excCore { c with irqDebug := g, irqDispatch := d, irqCkpt := k, evpend := e } epc code svc (freeAddr s))) epc code svc := by
    unfold entry
    rw [getCore_setCore_self]
    exact ⟨rfl, rfl, rfl, rfl, rfl, rfl, rfl, rfl, rfl, rfl, rfl, rfl, rfl, fun k hk => getCore_setCore_ne (tookFree s) n k _ hk⟩
  refine ⟨fun h hexl => ?trap, fun h hexl => ?brk, fun hc hrun hlinks hfetch hexl => ?illegal,
    fun code hc hrun hie hlinks hirq => ?interrupt⟩
  case trap => exact ⟨_, next_congr (doTrap_of h hexl), hentry _ _ _ _ _ _ _⟩
  case brk => exact ⟨_, next_congr (issue_raise h hexl rfl), hentry _ _ _ _ _ _ _⟩
  case illegal => exact ⟨_, next_congr (doIllegalOpcode_of hc hrun hlinks hfetch hexl), hentry _ _ _ _ _ _ _⟩
  case interrupt =>
    refine ⟨_, next_congr (doInterruptEntry_of hc hrun hie hlinks hirq), ?_⟩
    obtain ⟨g, d, k, e, htaken⟩ := irqTaken_eq c code
    rw [htaken]
    exact hentry _ _ _ _ _ _ _

end Sys2Proof.Machine

/-! # The loads through the window: what else a load waits for (R194, R468) -/

namespace Sys2Proof.Machine
open Sys2Proof Sys2Proof.Safety

/-- A core at LD of one word through the window, onto the first word of DRAM. -/
def windowCore : Core := setA (Tests.tcore [0x3000]) 0 winBase

/-- That core while the copy of a retirement runs for the way that holds the line. -/
def retiringSt : State := { Tests.tst windowCore with
  fns := { (Tests.tst windowCore).fns with windows := [(0, [⟨0, 2 ^ 38⟩])] },
  cache := { (Tests.tst windowCore).cache with lines := [(0, { line := 0, dirty := false })], retiring := [0] } }

theorem retiringSt_issues : Issues retiringSt 0 windowCore .ld 0x3000 0 := ⟨rfl, rfl, rfl, rfl⟩

/-- A load of a line whose way is being copied waits (R468): it has no effect, and issues again. -/
theorem retiringSt_waits : exec (.ld 0) retiringSt = .next retiringSt := rfl

theorem retiringSt_run : (getCore retiringSt 0).run = .run := rfl

/-- Refutes O6: a load through the window of a line whose way is being copied waits, and does not enter its load stall. -/
theorem not_loadsReadDataMemory : ¬ Obligations.LoadsReadDataMemory := by
  intro h
  have hw := (h.2 retiringSt 0 windowCore 0x3000 0 rfl (by decide) (by decide) (by decide) (by decide) (by decide)).1 retiringSt_issues
  have heq : retiringSt = setCore retiringSt 0 { windowCore with run := .load } :=
    Host.Outcome.next.inj (retiringSt_waits.symm.trans hw)
  have hrun : (getCore retiringSt 0).run = .load := by rw [heq]; simp
  exact absurd (retiringSt_run.symm.trans hrun) (by decide)

end Sys2Proof.Machine

/-! # Loads, stores and the stack in data memory (R200 to R216) -/

namespace Sys2Proof.Machine
open Sys2Proof Sys2Proof.Safety

/-! ## Stores of words (R200 to R203) -/

section
variable {s : State} {n : Nat} {c : Core} {row : SRow} {w1 w2 wa u k : Nat} {ws : List Nat}

theorem areg_lt (c : Core) (k : Nat) : areg c k < 2 ^ 24 := (c.a.toList.getD k 0).isLt
theorem dreg_lt (c : Core) (k : Nat) : dreg c k < 2 ^ 16 := (c.d.toList.getD k 0).isLt

/-- A store of words that the bounds allow changes the core's memory only. -/
theorem accWrite_stored (hc : tget s.cores n = some c) (hd : DataWords n c wa ws.length) (hu : u ∣ ws.length) (h0 : 0 < u)
    (hne : ws ≠ []) : ∃ m, accWrite s n c wa u ws = setCore s n { c with mem := m } ∧ StoredWords c.mem m wa ws := by
  obtain ⟨m, hm, hst⟩ := dataWords_accWrite hd hu h0 s hc
  exact ⟨m, hm.trans (if_neg hne), hst⟩

/-- A store instruction whose words the bounds allow: it completes with its words in memory. -/
theorem issue_store {ldm : Bool} {f : Core → Core} {body : State → Nat → Core → Nat → Nat → IRes} (h : Issues s n c row w1 w2)
    (hd : DataWords n c wa ws.length) (hu : u ∣ ws.length) (h0 : 0 < u) (hne : ws ≠ []) (hl : ldm = true → wa % ws.length = 0)
    (hb : body s n c w1 w2 = storeWords s n c wa u ldm ws (fun t => step1 t k f)) :
    ∃ m, issue n row s body = setCore s n (f { pcAdd c k with mem := m }) ∧ StoredWords c.mem m wa ws := by
  obtain ⟨m, hm, hst⟩ := accWrite_stored h.1 hd hu h0 hne
  refine ⟨m, ?_, hst⟩
  rw [storeWords, dataWords_accChk hd hu h0 s true ldm hl, hm] at hb
  rw [issue_changed_to h hb (tget_setCore_self _ _ _) h.2.1 rfl, setCore_setCore]
  rfl

end

theorem length_acWords (a : Lane) : (acWords a).length = 5 := by simp [acWords]
theorem aWords_areg (c : Core) (k : Nat) : aWords (areg c k) = [areg c k % 65536, areg c k / 65536] := by
  have := areg_lt c k
  rw [aWords, Nat.mod_eq_of_lt (a := areg c k / 65536) (by omega)]

/-- The words that ST stores are as many as it names. -/
theorem length_stWords (c : Core) (w1 : Nat) :
    (if bitOf w1 3 then aWords (areg c (fld w1 2 0)) else [dreg c (fld w1 2 0)]).length = regWords w1 := by
  cases h : bitOf w1 3 <;> simp [regWords, aWords, h]
theorem regWords_pos (w1 : Nat) : 0 < regWords w1 := by unfold regWords; split <;> decide
theorem ldmWords_pos (w1 : Nat) : 0 < ldmWords w1 := by unfold ldmWords; split <;> decide

/-- What ST does. -/
def stBody (s : State) (i : Nat) (c : Core) (w1 w2 : Nat) : IRes :=
  storeWords s i c (eaOf c w1 w2 (regWords w1)).1 (regWords w1) false
    (if bitOf w1 3 then aWords (areg c (fld w1 2 0)) else [dreg c (fld w1 2 0)])
    (fun t => step1 t (modeWords w1) (eaOf c w1 w2 (regWords w1)).2)
/-- What STM does. -/
def stmBody (s : State) (i : Nat) (c : Core) (w1 w2 : Nat) : IRes :=
  storeWords s i c (eaOf c w1 w2 (ldmWords w1)).1 (ldmWords w1) true
    ((List.range (ldmWords w1)).map (fun j => dreg c (fld w1 2 0 + j)))
    (fun t => step1 t (modeWords w1) (eaOf c w1 w2 (ldmWords w1)).2)
/-- What ACST does. -/
def acstBody (s : State) (i : Nat) (c : Core) (w1 w2 : Nat) : IRes :=
  storeWords s i c (eaOf c w1 w2 5).1 1 false (acWords (acreg c (fld w1 1 0))) (fun t => step1 t (modeWords w1) (eaOf c w1 w2 5).2)
theorem doSt_eq (n : Nat) (s : State) : doSt n s = issue n .st s stBody := rfl
theorem doStm_eq (n : Nat) (s : State) : doStm n s = issue n .stm s stmBody := rfl
theorem doAcst_eq (n : Nat) (s : State) : doAcst n s = issue n .acst s acstBody := rfl

/-- The accesses of a lane of nine bytes that pass the check touch that core's memory only. -/
theorem byteWrite_of {s : State} {n : Nat} {c : Core} (hc : tget s.cores n = some c) (b k v : Nat) :
    byteWrite s n b k v = setCore s n { c with mem := mput c.mem b k v } := coreUpd_of hc _

/-- Settles O7, each store by the one rule of a store of words, ACSTN by that of a number in memory. -/
theorem storesWriteDataMemory : Obligations.StoresWriteDataMemory := by
  unfold Obligations.StoresWriteDataMemory
  intro s n c w1 w2
  refine ⟨?st, ?stm, ?acst, ?acstn⟩
  case st =>
    intro h hd
    have hlen := length_stWords c w1
    rw [← aWords_areg]
    obtain ⟨m, hm, hst⟩ := issue_store (ldm := false) (body := stBody) h (by rwa [hlen]) (Nat.dvd_of_mod_eq_zero (by rw [hlen, Nat.mod_self])) (regWords_pos w1)
      (List.ne_nil_of_length_pos (by rw [hlen]; exact regWords_pos w1)) nofun rfl
    exact ⟨m, next_congr ((doSt_eq n s).trans hm), hst⟩
  case stm =>
    intro h hd hal
    have hlen : ((List.range (ldmWords w1)).map (fun j => dreg c (fld w1 2 0 + j))).length = ldmWords w1 := by simp
    obtain ⟨m, hm, hst⟩ := issue_store (body := stmBody) h (by rwa [hlen]) (Nat.dvd_of_mod_eq_zero (by rw [hlen, Nat.mod_self])) (ldmWords_pos w1)
      (List.ne_nil_of_length_pos (by rw [hlen]; exact ldmWords_pos w1)) (fun _ => by rwa [hlen]) rfl
    exact ⟨m, next_congr ((doStm_eq n s).trans hm), hst⟩
  case acst =>
    intro h hd
    obtain ⟨m, hm, hst⟩ := issue_store (ldm := false) (body := acstBody) h (by rwa [length_acWords]) (Nat.one_dvd _) Nat.one_pos
      (List.ne_nil_of_length_pos (by rw [length_acWords]; decide)) nofun rfl
    exact ⟨m, next_congr ((doAcst_eq n s).trans hm), hst⟩
  case acstn =>
    intro h hchk
    let x := { c with mem := mput c.mem (acnAddr c w1) 9 (acreg c (fld w1 1 0)).toNat }
    refine ⟨x.mem, next_congr ?_, ?_, fun x hx => mread_mput_out _ _ _ _ _ hx⟩
    · have hw := byteWrite_of h.1 (acnAddr c w1) 9 (acreg c (fld w1 1 0)).toNat
      rw [doAcstn, issue_changed_to (t := setCore s n x) h (by simp only [hchk, hw]; rfl) (tget_setCore_self _ _ _) h.2.1 rfl,
        setCore_setCore]
      rfl
    · rw [mnat_mput_self]
      exact Nat.mod_eq_of_lt (acreg c (fld w1 1 0)).isLt

/-! ## Frames on the stack (R208, R209) -/

theorem length_flatMap_bits (f : Nat → List Nat) (len : Nat) (hf : ∀ j, (f j).length = len) (k w : Nat) :
    ((List.range k).flatMap (fun j => if bitOf w j then f j else [])).length = len * popcount k w := by
  induction k generalizing w f with
  | zero => rfl
  | succ k ih =>
    have hbit : ∀ j, bitOf w (j + 1) = bitOf (w / 2) j := fun j => by
      rw [bitOf_eq_testBit, bitOf_eq_testBit, Nat.testBit_succ]
    have h0 : (if bitOf w 0 then f 0 else []).length = len * (w % 2) := by
      have hb : bitOf w 0 = (w % 2 == 1) := rfl
      rcases Nat.mod_two_eq_zero_or_one w with h | h <;> simp [hb, h, hf]
    rw [List.range_succ_eq_map, List.flatMap_cons, List.flatMap_map, List.length_append, h0]
    simp only [Nat.succ_eq_add_one, hbit]
    rw [ih (fun j => f (j + 1)) (fun j => hf _), popcount, Nat.mul_add]

theorem bitOf_add_eight (w k : Nat) : bitOf w (8 + k) = bitOf (w / 256) k := by
  rw [bitOf, bitOf, Nat.shiftRight_add, Nat.shiftRight_eq_div_pow w 8]

/-- A frame holds as many words as its mask names. -/
theorem length_maskFrame (c : Core) (mask : Nat) : (maskFrame c mask).length = maskWords mask := by
  have hd := length_flatMap_bits (fun k => [dreg c k]) 1 (fun _ => rfl) 8 mask
  have ha := length_flatMap_bits (fun k => aWords (areg c k)) 2 (fun _ => rfl) 7 (mask / 256)
  have hac : (if bitOf mask 15 then (List.range 4).flatMap (fun k => acWords (acreg c k)) else []).length
      = if bitOf mask 15 then 20 else 0 := by
    split
    · simp only [List.length_flatMap, length_acWords] <;> rfl
    · rfl
  simp only [maskFrame, maskWords, bitOf_add_eight, List.length_append, hd, ha, hac, Nat.one_mul]

section
variable {s : State} {n : Nat} {c : Core} {row : SRow} {w1 w2 wa k : Nat} {ws : List Nat}

theorem addrAdd_neg {a : Nat} (ha : a < 2 ^ 24) (hk : k ≤ a) : addrAdd a (-(k : Int)) = a - k := by
  unfold addrAdd unsgn
  omega

/-- A frame whose words the bounds allow has no bad word. -/
theorem frameBad_none (h : DataWords n c wa k) : frameBad n c wa k = none := by
  have hall : ∀ l : List Nat, (∀ x ∈ l, dataOk n c x = true) →
      l.foldl (fun b x => if dataOk n c x then b else some (match b with
        | some y => min y x
        | none => x)) none = none := fun l hl => by
    induction l with
    | nil => rfl
    | cons x l ih =>
      rw [List.foldl_cons, if_pos (hl x List.mem_cons_self)]
      exact ih fun y hy => hl y (List.mem_cons_of_mem _ hy)
  refine hall _ fun x hx => ?_
  obtain ⟨j, hj, rfl⟩ := List.mem_map.mp hx
  have hj := List.mem_range.mp hj
  rw [dataWords_wadd h j (Nat.le_of_lt hj)]
  exact h.2 j hj

/-- A push of a frame with room for it. -/
theorem pushFrame_stored (hc : tget s.cores n = some c) (hne : ws ≠ []) (hk : ws.length ≤ areg c 7)
    (hd : DataWords n c (areg c 7 - ws.length) ws.length) (hs : c.slim.toNat + ws.length ≤ areg c 7) :
    ∃ m, (∀ f, pushFrame s n c ws f = f (setCore s n { c with mem := m }) (areg c 7 - ws.length))
      ∧ StoredWords c.mem m (areg c 7 - ws.length) ws := by
  obtain ⟨m, hm, hst⟩ := accWrite_stored hc hd (Nat.one_dvd _) Nat.one_pos hne
  refine ⟨m, fun f => ?_, hst⟩
  rw [pushFrame, addrAdd_neg (areg_lt c 7) hk, frameBad_none hd, hm]
  exact if_neg (by omega)

/-- An instruction that pushes a frame with room for it, and completes. -/
theorem issue_push {f : Nat → Core → Core} {body : State → Nat → Core → Nat → Nat → IRes} (h : Issues s n c row w1 w2)
    (hne : ws ≠ []) (hk : ws.length ≤ areg c 7) (hd : DataWords n c (areg c 7 - ws.length) ws.length)
    (hs : c.slim.toNat + ws.length ≤ areg c 7) (hb : body s n c w1 w2 = pushFrame s n c ws (fun t a => .done t (f a))) :
    ∃ m, issue n row s body = setCore s n (f (areg c 7 - ws.length) { c with mem := m })
      ∧ StoredWords c.mem m (areg c 7 - ws.length) ws := by
  obtain ⟨m, hm, hst⟩ := pushFrame_stored h.1 hne hk hd hs
  refine ⟨m, ?_, hst⟩
  rw [hm] at hb
  rw [issue_changed_to h hb (tget_setCore_self _ _ _) h.2.1 rfl, setCore_setCore]

/-- A pop of a frame in data memory. -/
theorem popFrame_read (h : DataWords n c (areg c 7) k) (f : List Nat → IRes) :
    popFrame s n c k f = f ((List.range k).map (fun j => coreWord n c (areg c 7 + j))) := by
  have hw : (List.range k).map (fun j => coreWord n c (wadd (areg c 7) j)) = (List.range k).map (fun j => coreWord n c (areg c 7 + j)) :=
    List.map_congr_left fun j hj => by rw [dataWords_wadd h j (Nat.le_of_lt (List.mem_range.mp hj))]
  rw [popFrame, frameBad_none h, hw]

/-- A pop of the PC and of the masked registers. -/
theorem popPc_read (h : DataWords n c (areg c 7) (2 + maskWords k)) :
    popPc s n c k = .done s (fun x => pcTo (setA
      (maskPop x k (((List.range (2 + maskWords k)).map (fun j => coreWord n c (areg c 7 + j))).drop 2))
      7 (areg c 7 + (2 + maskWords k))) (coreWord n c (areg c 7) + coreWord n c (areg c 7 + 1) % 256 * 65536)) := by
  have hv : aValue ((List.range (2 + maskWords k)).map (fun j => coreWord n c (areg c 7 + j)))
      = coreWord n c (areg c 7) + coreWord n c (areg c 7 + 1) % 256 * 65536 := by
    rw [Nat.add_comm 2, List.range_succ_eq_map, List.range_succ_eq_map]
    rfl
  rw [popPc, popFrame_read h, hv]
  simp only [List.length_map, List.length_range]

/-! ## Strings (R215, R216) -/

/-- One word of data memory that an element reads or writes. -/
theorem unitChk_word (h : DataWords n c wa 1) (store : Bool) : unitChk s n c wa 1 store false = .ok :=
  dataWords_unit h s 0 1 (Nat.le_refl 1) store false Nat.one_pos
theorem accRead_word (h : DataWords n c wa 1) (t : State) : accRead t n c wa 1 1 = ([coreWord n c wa], t) := by
  rw [dataWords_accRead h (Nat.one_dvd 1) Nat.one_pos]
  rfl

/-- An element whose words stand in data memory reads them. -/
theorem strElem_read {reads writes : List Nat} (hr : ∀ wa ∈ reads, DataWords n c wa 1) (hw : ∀ wa ∈ writes, DataWords n c wa 1)
    (data : Bool) (f : State → List Nat → IRes) : strElem s n c reads writes data f = f s (reads.map (coreWord n c)) := by
  have hchk : elemChk s n c reads writes = .ok := by
    refine chkJoin_all_ok _ fun x hx => ?_
    rcases List.mem_append.mp hx with hx | hx <;> obtain ⟨wa, hwa, rfl⟩ := List.mem_map.mp hx
    · exact unitChk_word (hr wa hwa) false
    · exact unitChk_word (hw wa hwa) true
  have hwin : reads.any (fun wa => decide (winBase ≤ wa)) = false := by
    refine List.any_eq_false.mpr fun wa hwa => ?_
    have := dataEnd_le n
    have := (hr wa hwa).1
    simp [winBase]
    omega
  have hpoison : reads.any (fun wa => accPoisoned s c wa 1 1) = false := by
    refine List.any_eq_false.mpr fun wa hwa => ?_
    rw [dataWords_noPoison (hr wa hwa) (Nat.one_dvd 1) Nat.one_pos s]
    exact Bool.false_ne_true
  have hread : ∀ (l acc : List Nat), (∀ wa ∈ l, DataWords n c wa 1) →
      l.foldl (fun (r : List Nat × State) wa => (r.1 ++ (accRead r.2 n c wa 1 1).1, (accRead r.2 n c wa 1 1).2)) (acc, s)
        = (acc ++ l.map (coreWord n c), s) := fun l => by
    induction l with
    | nil => simp
    | cons wa l ih =>
      intro acc hl
      rw [List.foldl_cons, accRead_word (hl wa List.mem_cons_self), ih _ fun x hx => hl x (List.mem_cons_of_mem _ hx)]
      simp
  simp only [strElem, hchk, hwin, hpoison, hread reads [] hr, Bool.false_eq_true, false_and, if_false, List.nil_append]

/-- A string instruction that stores a word of an element, and completes. -/
theorem issue_strStore {f : Core → Core} {v : Nat} {body : State → Nat → Core → Nat → Nat → IRes} (h : Issues s n c row w1 w2)
    (hd : DataWords n c wa 1) (hb : body s n c w1 w2 = .done (accWrite s n c wa 1 [v]) f) :
    ∃ m, issue n row s body = setCore s n (f { c with mem := m }) ∧ StoredWords c.mem m wa [v] := by
  obtain ⟨m, hm, hst⟩ := accWrite_stored (ws := [v]) h.1 hd (Nat.one_dvd _) Nat.one_pos (List.cons_ne_nil _ _)
  refine ⟨m, ?_, hst⟩
  rw [hm] at hb
  rw [issue_changed_to h hb (tget_setCore_self _ _ _) h.2.1 rfl, setCore_setCore]

end

/-- What FILLS does. -/
def fillsBody (s : State) (i : Nat) (c : Core) (w1 _w2 : Nat) : IRes :=
  if dreg c 6 = 0 then step1 s 1 id
  else strElem s i c [] [areg c 5] false (fun s _ => .done (accWrite s i c (areg c 5) 1 [dreg c (fld w1 2 0)]) (strNext w1 false))
theorem doFills_eq (n : Nat) (s : State) : doFills n s = issue n .fills s fillsBody := rfl

/-- Settles O8: the stack by the rules of a frame pushed and popped, the strings by that of an element in data memory. -/
theorem stackAndStringInstructionsComplete : Obligations.StackAndStringInstructionsComplete := by
  unfold Obligations.StackAndStringInstructionsComplete
  refine ⟨fun s n c w1 w2 => ⟨?call, ?pushm, ?retm, ?ret, ?popm⟩,
    fun s n c w1 w2 => ⟨?movsEnd, ?fillsEnd, ?cmpsEnd, ?scansEnd, ?movs, ?fills, ?cmps, ?scans⟩⟩
  case call =>
    rintro h ⟨hk, hd, hs⟩
    have hlen : (aWords (wadd c.pc.toNat 2) ++ maskFrame c w2).length = 2 + maskWords w2 := by
      rw [List.length_append, length_maskFrame]
      rfl
    rw [← hlen] at hk hd hs ⊢
    obtain ⟨m, hm, hst⟩ := issue_push (body := fun s i c w1 w2 => pushFrame s i c (aWords (wadd c.pc.toNat 2) ++ maskFrame c w2)
      (fun s a => .done s (fun x => pcTo (setA x 7 a) (areg c (fld w1 2 0))))) h (List.cons_ne_nil _ _) hk hd hs rfl
    exact ⟨m, next_congr hm, hst⟩
  case pushm =>
    rintro h hpos ⟨hk, hd, hs⟩
    have hlen := length_maskFrame c w2
    rw [← hlen] at hpos hk hd hs ⊢
    obtain ⟨m, hm, hst⟩ := issue_push (body := fun s i c _ w2 => pushFrame s i c (maskFrame c w2)
      (fun s a => step1 s 2 (fun x => setA x 7 a))) h (List.ne_nil_of_length_pos hpos) hk hd hs rfl
    exact ⟨m, next_congr hm, hst⟩
  case retm => exact fun h hd => next_congr (issue_to h (popPc_read hd) rfl)
  case ret => exact fun h hd => next_congr (issue_to h (popPc_read (k := 0) hd) rfl)
  case popm =>
    intro h hd
    refine next_congr (issue_to h (popFrame_read hd _) ?_)
    simp only [List.length_map, List.length_range]
  case movsEnd => exact fun h h0 => next_congr (issue_to h (if_pos h0) rfl)
  case fillsEnd => exact fun h h0 => next_congr (issue_to h (if_pos h0) rfl)
  case cmpsEnd => exact fun h h0 => next_congr (issue_to h (if_pos h0) rfl)
  case scansEnd => exact fun h h0 => next_congr (issue_to h (if_pos h0) rfl)
  case movs =>
    intro h h0 hsrc hdst
    have hb := strElem_read (s := s) (List.forall_mem_singleton.mpr hsrc) (List.forall_mem_singleton.mpr hdst) false
    obtain ⟨m, hm, hst⟩ := issue_strStore (body := movsBody false) h hdst ((if_neg h0).trans (hb _))
    exact ⟨m, next_congr hm, hst⟩
  case fills =>
    intro h h0 hdst
    have hb := strElem_read (s := s) (List.forall_mem_nil _) (List.forall_mem_singleton.mpr hdst) false
    obtain ⟨m, hm, hst⟩ := issue_strStore (body := fillsBody) h hdst ((if_neg h0).trans (hb _))
    exact ⟨m, next_congr ((doFills_eq n s).trans hm), hst⟩
  case cmps =>
    intro h h0 hsrc hdst
    have hb := strElem_read (s := s) (List.forall_mem_cons.mpr ⟨hsrc, List.forall_mem_singleton.mpr hdst⟩) (List.forall_mem_nil _) false
    by_cases hne : coreWord n c (areg c 4) ≠ coreWord n c (areg c 5)
    · exact next_congr (issue_to h ((if_neg h0).trans ((hb _).trans (if_pos hne))) (if_pos hne).symm)
    · exact next_congr (issue_to h ((if_neg h0).trans ((hb _).trans (if_neg hne))) (if_neg hne).symm)
  case scans =>
    intro h h0 hdst
    have hb := strElem_read (s := s) (List.forall_mem_singleton.mpr hdst) (List.forall_mem_nil _) false
    by_cases hhit : ((coreWord n c (areg c 5) == dreg c (fld w1 2 0)) != bitOf w1 6) = true
    · exact next_congr (issue_to h ((if_neg h0).trans ((hb _).trans (if_pos hhit))) (if_pos hhit).symm)
    · exact next_congr (issue_to h ((if_neg h0).trans ((hb _).trans (if_neg hhit))) (if_neg hhit).symm)

end Sys2Proof.Machine

/-! # Predicates, selections, membership and search (chapter 11, R228, R231, R236, R237) -/

namespace Sys2Proof.Machine
open Sys2Proof Sys2Proof.Safety

/-! ## What the decoder asks of a vector row -/

theorem rowIf_some {b : Bool} {r row : SRow} (h : rowIf b r = some row) : b = true ∧ r = row := by
  unfold rowIf at h
  split at h
  case isTrue hb => exact ⟨hb, Option.some.inj h⟩
  case isFalse => cases h

/-- The rows of the vector unit (Tables 11-3 to 11-5). -/
def isVecRow : SRow → Bool
  | .varith | .vlogic | .vcmp | .vscale | .vmulw | .vdot4 | .vdot2w | .vdiv | .vld | .vst | .vldff | .vgather | .vgatherff
  | .vscatter | .vcompact | .vhash | .vmemb | .vsel | .vpred | .vxfer | .vconv | .vctl | .vpipe => true
  | _ => false

/-- The words of an instruction that was fetched decode to its row. -/
theorem instrRow_of_fetchAt {i pc w1 w2 : Nat} {c : Core} {row : SRow} (h : fetchAt i c pc = .ins (some row) w1 w2) :
    instrRow (coreKind i) w1 w2 = some row := by
  unfold fetchAt at h
  split at h
  case isTrue => cases h
  case isFalse =>
    dsimp only at h
    split at h
    case isFalse => injection h with hrow h1 h2; rw [← h1, ← h2, hrow]
    case isTrue =>
      split at h
      case isTrue => cases h
      case isFalse => injection h with hrow h1 h2; rw [← h1, ← h2, hrow]

theorem isVecRow_of_rowIf {b : Bool} {r row : SRow} (h : rowIf b r = some row) (hr : isVecRow r = false) : isVecRow row = false :=
  (rowIf_some h).2 ▸ hr
theorem isVecRow_of_some {r row : SRow} (h : some r = some row) (hr : isVecRow r = false) : isVecRow row = false :=
  Option.some.inj h ▸ hr

theorem isVecRow_rowSys {w1 : Nat} {row : SRow} (h : rowSys w1 = some row) : isVecRow row = false := by
  unfold rowSys at h
  dsimp only at h
  split at h
  case h_6 => exact isVecRow_of_some h rfl
  case h_10 => cases h
  all_goals exact isVecRow_of_rowIf h rfl

/-- A vector row is one of the vector table's. -/
theorem rowVec_of_instrRow {k w1 w2 : Nat} {row : SRow} (hv : isVecRow row = true) (h : instrRow k w1 w2 = some row) :
    rowVec w1 w2 = some row := by
  refine Decidable.byContradiction (fun hne => ?_)
  suffices hrow : isVecRow row = false from Bool.false_ne_true (hrow.symm.trans hv)
  unfold instrRow at h
  dsimp only at h
  split at h
  case h_1 => exact isVecRow_rowSys h
  case h_3 | h_9 | h_10 => exact isVecRow_of_some h rfl
  case h_29 =>
    split at h
    case isTrue => cases h
    case isFalse => split at h <;> exact isVecRow_of_some h rfl
  case h_30 => exact isVecRow_of_rowIf h (by split <;> rfl)
  case h_31 =>
    split at h
    case isTrue => exact absurd h hne
    case isFalse => cases h
  all_goals exact isVecRow_of_rowIf h rfl

/-- What the words of a row of the vector table meet, for the rows whose fields a statement speaks of. -/
def vecFields : SRow → Nat → Nat → Prop
  | .vcmp, w1, w2 => vcmpOk w1 w2 = true
  | .vmulw, w1, _ => vaD w1 % 2 = 0
  | .vdot2w, w1, _ => vaD w1 % 2 = 0
  | .vxfer, w1, w2 => vxOk w1 w2 = true
  | .vctl, w1, w2 => vctlOk w1 w2 = true
  | .vconv, w1, w2 => vconvOk w1 w2 = true
  | _, _, _ => True
theorem vecFields_of_rowVec {w1 w2 : Nat} {row : SRow} (h : rowVec w1 w2 = some row) : vecFields row w1 w2 := by
  unfold rowVec at h
  dsimp only at h
  split at h
  case h_24 => cases h
  all_goals
    obtain ⟨hb, rfl⟩ := rowIf_some h
    simp_all [vecFields]
theorem vecFields_of_issues {s : State} {n w1 w2 : Nat} {c : Core} {row : SRow} (h : Issues s n c row w1 w2) (hv : isVecRow row = true) :
    vecFields row w1 w2 := vecFields_of_rowVec (rowVec_of_instrRow hv (instrRow_of_fetchAt h.2.2.2))

/-! ## Lanes selected, and predicates -/

section
variable {c : Core} {v : Vec} {d pd : Nat} {y : Nat → Lane}

/-- What an instruction leaves that wrote lanes of its active elements only. -/
theorem vecCore_lanes (es : List Nat) :
    let x := vecCore c (es.foldl (fun v j => setLane v d j (y j)) c.vec)
    x.pc = BitVec.ofNat 24 (c.pc.toNat + 2) ∧ vidxOf x.vec = 0 ∧ x.mem = c.mem ∧ x.d = c.d ∧ x.a = c.a ∧ x.ac = c.ac
      ∧ ∀ m j, m < 16 → j < 32 → vlane x.vec m j = if m = d ∧ j ∈ es then y j else vlane c.vec m j := by
  have h := elemsPut_foldl es (fun v j _ => elemsPut_setLane v d j y) c.vec
  exact ⟨rfl, vidxOf_vecCore c _, rfl, rfl, rfl, rfl, h.vlane_toReg⟩

/-- What an instruction leaves that wrote a predicate only. -/
theorem vecCore_setPred (bits : Nat) :
    let x := vecCore c (setPred c.vec pd bits)
    x.pc = BitVec.ofNat 24 (c.pc.toNat + 2) ∧ vidxOf x.vec = 0 ∧ x.vec.v = c.vec.v ∧ x.d = c.d ∧ x.a = c.a ∧ x.ac = c.ac
      ∧ x.mem = c.mem ∧ ∀ m, m < 8 → m ≠ pd → vpred x.vec m = vpred c.vec m :=
  ⟨rfl, vidxOf_vecCore c _, rfl, rfl, rfl, rfl, rfl, fun _ hm hne => by rw [vpred_vecCore, vpred_setPred _ _ _ hm, if_neg hne]⟩

theorem testBit_below (n j : Nat) : (below n).testBit j = decide (j < n) := Nat.testBit_two_pow_sub_one n j
/-- The bits of the elements from VIDX up to VL. -/
theorem testBit_elemMask (v : Vec) (j : Nat) : (elemMask v).testBit j = decide (vidxOf v ≤ j ∧ j < vlOf v) := by
  have hle : min (vidxOf v) (vlOf v) ≤ vlOf v := Nat.min_le_right _ _
  have hmask : elemMask v = (2 ^ (vlOf v - min (vidxOf v) (vlOf v)) - 1) * 2 ^ min (vidxOf v) (vlOf v) := by
    have hp : 2 ^ vlOf v = 2 ^ (vlOf v - min (vidxOf v) (vlOf v)) * 2 ^ min (vidxOf v) (vlOf v) := by
      rw [← Nat.pow_add, Nat.sub_add_cancel hle]
    have h1 := Nat.two_pow_pos (min (vidxOf v) (vlOf v))
    rw [elemMask, below, below, hp, Nat.sub_mul, Nat.one_mul]
    omega
  rw [hmask, Nat.testBit_mul_two_pow, Nat.testBit_two_pow_sub_one]
  by_cases h1 : vidxOf v ≤ j <;> by_cases h2 : j < vlOf v <;> simp [h1, h2] <;> omega

theorem vpred_lt (v : Vec) (n : Nat) : vpred v n < 2 ^ 32 := (v.p.toList.getD n 0).isLt
/-- A predicate's complement, as the model takes it. -/
theorem testBit_complement {x : Nat} (hx : x < 2 ^ 32) {j : Nat} (hj : j < 32) : (0xFFFFFFFF - x).testBit j = ! x.testBit j := by
  have h := Nat.testBit_two_pow_sub_succ hx j
  rw [show 2 ^ 32 - (x + 1) = 0xFFFFFFFF - x by omega] at h
  simp [h, hj]

/-- A bit of VPRED's result. -/
theorem testBit_vpredFn (c : Core) (w1 w2 : Nat) {j : Nat} (hj : j < 32) :
    (vpredFn c w1 w2).testBit j = (decide (vidxOf c.vec ≤ j ∧ j < vlOf c.vec)
      && (let a := bitOf (vpred c.vec (fld w1 2 0)) j
          let b := bitOf (vpred c.vec (fld w2 15 13)) j
          match fld w1 9 6 with
          | 0 => a && b
          | 1 => a || b
          | 2 => a != b
          | 3 => a && ! b
          | 4 => ! a
          | 5 => a
          | 6 => true
          | _ => decide (j < dreg c (fld w2 12 10) % 64))) := by
  have hna := testBit_complement (vpred_lt c.vec (fld w1 2 0)) hj
  have hnb := testBit_complement (vpred_lt c.vec (fld w2 15 13)) hj
  rw [vpredFn, Nat.testBit_and, testBit_elemMask, Bool.and_comm]
  by_cases hlive : vidxOf c.vec ≤ j ∧ j < vlOf c.vec
  · dsimp only
    simp only [bitOf_eq_testBit]
    congr 1
    generalize fld w1 9 6 = fn
    match fn with
    | 0 => exact Nat.testBit_and ..
    | 1 => exact Nat.testBit_or ..
    | 2 => exact Nat.testBit_xor ..
    | 3 => exact (Nat.testBit_and ..).trans (congrArg _ hnb)
    | 4 => exact hna
    | 5 => rfl
    | 6 => exact (testBit_below _ _).trans (decide_eq_true hlive.2)
    | _ + 7 => exact (testBit_below _ _).trans (by simp [Nat.lt_min, hlive.2])
  · simp [hlive]

end

/-- What VCMP's bits are: those of the active elements that meet the comparison. -/
theorem testBit_shortCmp (c : Core) (p : Nat → Bool) (pg j : Nat) :
    ((vactives c.vec pg).foldl (fun t j => t + (if p j = true then 2 ^ j else 0)) 0).testBit j
      = (decide (j ∈ vactives c.vec pg) && p j) := by
  rw [testBit_foldl_bits p j _ 0 (vactives_pairwise _ _) (fun _ _ => Nat.two_pow_pos _), Nat.zero_testBit, Bool.false_or]

/-! ## Membership and search (R236, R237) -/

theorem foldl_prodMk {α β γ : Type} (f : α → γ → α) (g : β → γ → β) (l : List γ) (a : α) (b : β) :
    l.foldl (fun x j => (f x.1 j, g x.2 j)) (a, b) = (l.foldl f a, l.foldl g b) := by
  induction l generalizing a b with
  | nil => rfl
  | cons x l ih => exact ih _ _

/-- The lanes and bits that the elements of a membership or search write. -/
def memberStep (d : Nat) (write : Bool) (y : Nat → Lane) (p : Nat → Bool) (x : Vec × Nat) (j : Nat) : Vec × Nat :=
  (if write then setLane x.1 d j (y j) else x.1, x.2 + (if p j = true then 2 ^ j else 0))
theorem foldl_still {α β : Type} (l : List β) (x : α) : l.foldl (fun x _ => x) x = x := by
  induction l with
  | nil => rfl
  | cons y l ih => exact ih
theorem foldl_memberStep (d : Nat) (write : Bool) (y : Nat → Lane) (p : Nat → Bool) (es : List Nat) (v : Vec) (b : Nat) :
    es.foldl (memberStep d write y p) (v, b)
      = (if write then es.foldl (fun v j => setLane v d j (y j)) v else v,
        es.foldl (fun t j => t + (if p j = true then 2 ^ j else 0)) b) := by
  refine (foldl_prodMk (fun v j => if write then setLane v d j (y j) else v)
    (fun t j => t + (if p j = true then 2 ^ j else 0)) es v b).trans ?_
  cases write
  case true => rfl
  case false => exact congrArg (fun u => (u, es.foldl (fun t j => t + (if p j = true then 2 ^ j else 0)) b)) (foldl_still es v)

section
variable {s : State} {n : Nat} {c : Core} {w1 w2 : Nat}

/-- The core after a membership or search that ran over its active elements. -/
def memberCore (c : Core) (w1 w2 : Nat) (write : Bool) (y : Nat → Lane) (p : Nat → Bool) : Core :=
  let r := (vactives c.vec (vaPg w2)).foldl (memberStep (vaD w1) write y p) (c.vec, 0)
  vecCore c (setPred r.1 (vaFn w2 % 8) r.2)
theorem bitOf_memberCore (write : Bool) (y : Nat → Lane) (p : Nat → Bool) {j : Nat} (hj : j < 32) :
    bitOf (vpred (memberCore c w1 w2 write y p).vec (vaFn w2 % 8)) j = (decide (j ∈ vactives c.vec (vaPg w2)) && p j) := by
  rw [memberCore, foldl_memberStep, vpred_vecCore, bitOf_vpred_setPred_self _ _ (Nat.mod_lt _ (by decide)) hj, testBit_shortCmp]
theorem vlane_memberCore (write : Bool) (y : Nat → Lane) (p : Nat → Bool) {m j : Nat} (hm : m < 16) (hj : j < 32) :
    vlane (memberCore c w1 w2 write y p).vec m j
      = if m = vaD w1 ∧ j ∈ vactives c.vec (vaPg w2) ∧ write = true then y j else vlane c.vec m j := by
  rw [memberCore, foldl_memberStep, vlane_vecCore, vlane_setPred]
  cases write
  case true =>
    have h := elemsPut_foldl (vactives c.vec (vaPg w2)) (fun v j _ => elemsPut_setLane v (vaD w1) j y) c.vec
    simpa using h.vlane_toReg m j hm hj
  case false => simp

/-- What MEMB and LOOKUP write to a lane: FIRST of the key's slot, or NULL. -/
def foundLane : Option Nat → Lane
  | some k => natLane k
  | none => nullLane

/-- The probe that MEMB and LOOKUP make for element `j`. -/
def memberProbe (s : State) (n : Nat) (c : Core) (w1 w2 j : Nat) : Except VFault (Option Nat) :=
  let d := fld (vcr c.vec 12) 4 0
  let kw := fld (vcr c.vec 12) 7 5
  let key := (List.range kw).map (fun k => vlane c.vec (vaB w2 + k) j)
  let h := laneLow (vlane c.vec (vaA w1) j)
  if nullKey key then .ok none
  else dirProbe s n c j (2 * (vcr c.vec 10 + vcr c.vec 11 % 256 * 65536)) d (9 * (1 + kw + fld (vcr c.vec 12) 12 8)) h key (2 ^ d)
    (h % 2 ^ d)
/-- An element of MEMB or LOOKUP. -/
def membElem (s : State) (n : Nat) (c : Core) (w1 w2 j : Nat) (x : Vec × Nat) : Except VFault (Vec × Nat) :=
  match memberProbe s n c w1 w2 j with
  | .error t => .error t
  | .ok f => .ok (if vaFn w2 / 8 = 1 then setLane x.1 (vaD w1) j (match f with
        | some n => natLane n
        | none => nullLane) else x.1, x.2 + (if f.isSome then 2 ^ j else 0))
theorem membElem_found {found : Nat → Option Nat} {j : Nat} (h : memberProbe s n c w1 w2 j = .ok (found j)) (x : Vec × Nat) :
    membElem s n c w1 w2 j x = .ok (memberStep (vaD w1) (decide (vaFn w2 / 8 = 1)) (fun j => foundLane (found j))
      (fun j => (found j).isSome) x j) := by
  simp only [membElem, h, memberStep, decide_eq_true_eq]
  rfl

/-- VMEMB whose elements fault nowhere leaves their lanes and bits. -/
theorem doVmemb_member (h : Issues s n c .vmemb w1 w2) (hgate : vidxOf c.vec < vlOf c.vec) {write : Bool} {y : Nat → Lane}
    {p : Nat → Bool} {f : Nat → Vec × Nat → Except VFault (Vec × Nat)} {u : Option VFault → State} (hu : u none = s)
    (hf : ∀ x, ∀ j ∈ vactives c.vec (vaPg w2), f j x = .ok (memberStep (vaD w1) write y p x j))
    (hb : (if vaFn w2 / 8 = 2 then srchBody s n c w1 w2 else membBody s n c w1 w2)
      = let r := vecFold f (vactives c.vec (vaPg w2)) (c.vec, 0)
        vecGate s c.vec (vecFinish (r.1, u r.1, predAfter r.2.1 (vaFn w2 % 8) r.2.2 (r.1.map (·.elem))))) :
    doVmemb n s = setCore s n (memberCore c w1 w2 write y p) := by
  refine issueV_vecDone h rfl (hb.trans ?_)
  rw [vecFold_ok _ hf, vecGate_open hgate]
  simp only [hu]
  rfl

/-- The search of an array without faults: the first of its elements from `m` on that is not below `x`. -/
theorem srchFirst_spec (t : Stream) (x : Lane) (k m : Nat) :
    m ≤ srchFirst s n c t x k m ∧ srchFirst s n c t x k m ≤ m + k
      ∧ (∀ i, m ≤ i → i < srchFirst s n c t x k m → (srchLane s n c t i).toInt < x.toInt)
      ∧ (srchFirst s n c t x k m < m + k → x.toInt ≤ (srchLane s n c t (srchFirst s n c t x k m)).toInt) := by
  induction k generalizing m with
  | zero => exact ⟨Nat.le_refl m, Nat.le_refl m, fun i h1 h2 => absurd h2 (by simpa [srchFirst] using h1),
      fun h => absurd h (Nat.lt_irrefl m)⟩
  | succ k ih =>
    rw [srchFirst]
    split
    case isTrue hlt =>
      obtain ⟨h1, h2, h3, h4⟩ := ih (m + 1)
      refine ⟨by omega, by omega, fun i hi hi' => ?_, fun h => h4 (by omega)⟩
      rcases Nat.eq_or_lt_of_le hi with rfl | hi
      · exact hlt
      · exact h3 i hi hi'
    case isFalse hge => exact ⟨Nat.le_refl m, by omega, fun i h1 h2 => by omega, fun _ => Int.not_lt.mp hge⟩

/-- An element of SRCH. -/
def srchElem (s : State) (n : Nat) (c : Core) (w1 w2 j : Nat) (x : Vec × Nat) : Except VFault (Vec × Nat) :=
  let t := streamOf c.vec (vaB w2 % 4)
  let a := vlane c.vec (vaA w1) j
  if a = nullLane then .ok (setLane x.1 (vaD w1) j nullLane, x.2)
  else match (List.range t.count).findSome? (fun k => match srchChk s n c j t k with
      | .error f => some f
      | .ok _ => none) with
    | some f => .error f
    | none =>
      let k := srchFirst s n c t a t.count 0
      .ok (setLane x.1 (vaD w1) j (natLane k), x.2 + (if k < t.count ∧ srchLane s n c t k = a then 2 ^ j else 0))
/-- The lane that SRCH writes for element `j`, and whether the array holds the element. -/
def searchLane (s : State) (n : Nat) (c : Core) (w1 w2 j : Nat) : Lane :=
  let t := streamOf c.vec (vaB w2 % 4)
  let a := vlane c.vec (vaA w1) j
  if a = nullLane then nullLane else natLane (srchFirst s n c t a t.count 0)
def searchHit (s : State) (n : Nat) (c : Core) (w1 w2 j : Nat) : Bool :=
  let t := streamOf c.vec (vaB w2 % 4)
  let a := vlane c.vec (vaA w1) j
  let k := srchFirst s n c t a t.count 0
  ! decide (a = nullLane) && (decide (k < t.count) && srchLane s n c t k == a)
theorem srchElem_found {j : Nat} (h : vlane c.vec (vaA w1) j ≠ nullLane → ∀ k < (streamOf c.vec (vaB w2 % 4)).count,
      srchChk s n c j (streamOf c.vec (vaB w2 % 4)) k = .ok ()) (x : Vec × Nat) :
    srchElem s n c w1 w2 j x = .ok (memberStep (vaD w1) true (searchLane s n c w1 w2) (searchHit s n c w1 w2) x j) := by
  by_cases hnull : vlane c.vec (vaA w1) j = nullLane
  · simp [srchElem, memberStep, searchLane, searchHit, hnull]
  · have hnone : (List.range (streamOf c.vec (vaB w2 % 4)).count).findSome? (fun k =>
        match srchChk s n c j (streamOf c.vec (vaB w2 % 4)) k with
        | .error f => some f
        | .ok _ => none) = none :=
      List.findSome?_eq_none_iff.mpr fun k hk => by rw [h hnull k (List.mem_range.mp hk)]
    simp [srchElem, memberStep, searchLane, searchHit, hnull, hnone]

end

/-- Settles O10: lanes and predicates by what the fold over the active elements writes, VPRED bit by bit, VMEMB by its probes, SRCH by the
specification of its search. -/
theorem predicatesAndSelectionsComplete : Obligations.PredicatesAndSelectionsComplete := by
  unfold Obligations.PredicatesAndSelectionsComplete
  refine ⟨fun s n c w1 w2 => ⟨?vsel, ?ptob⟩, fun s n c w1 w2 hgate => ⟨?vcmp, ?vpred⟩, ?member, ?search⟩
  case vsel =>
    intro h
    exact ⟨_, next_congr (issueV_vecDone h rfl (vecGate_vecDone_foldl _ _ _)), vecCore_lanes _⟩
  case ptob =>
    intro h hl hfn
    exact ⟨_, next_congr (issueV_vecDone h (isLong_of_vaL _ hl) ((if_pos hfn).trans (vecGate_vecDone_foldl _ _ _))), vecCore_lanes _⟩
  case vcmp =>
    intro h hl
    have hd : vaD w1 < 8 := by
      have := vecFields_of_issues h rfl
      simp only [vecFields, vcmpOk, hl, Bool.and_eq_true, Bool.or_eq_true, decide_eq_true_eq, Bool.false_eq_true, false_or] at this
      exact this.2
    refine ⟨_, next_congr (issueV_vecDone h (isLong_of_vaL _ hl) (vecGate_open hgate _)), vecCore_setPred _, fun j hj => ?_⟩
    rw [vpred_vecCore, bitOf_vpred_setPred_self _ _ hd hj]
    exact testBit_shortCmp c (fun j => let r := vcmpLane (vaFn w2) (vlane c.vec (vaA w1) j) (shortB c w2 j)
      if vaX w2 then r == none else r == some true) _ _
  case vpred =>
    intro h
    refine ⟨_, next_congr (issueV_vecDone h rfl (vecGate_open hgate _)), vecCore_setPred _, fun j hj => ?_⟩
    rw [vpred_vecCore, bitOf_vpred_setPred_self _ _ (fld_lt w1 5 3) hj]
    exact testBit_vpredFn c w1 w2 hj
  case member =>
    intro s n c w1 w2 h hgate d kw pw dir key hash act hfn hb16 hkw hd hpw found hfound
    have hb : membBody s n c w1 w2 = _ := if_neg (by omega)
    have hprobe : ∀ j ∈ act, memberProbe s n c w1 w2 j = .ok (found j) := fun j hj => by
      have hfj := hfound j hj
      unfold memberProbe
      by_cases hnull : nullKey (key j) = true
      · rw [if_pos hnull] at hfj
        exact (if_pos hnull).trans (congrArg _ hfj.symm)
      · rw [if_neg hnull] at hfj
        exact (if_neg hnull).trans hfj
    refine ⟨_, next_congr (doVmemb_member (write := decide (vaFn w2 / 8 = 1)) (y := fun j => foundLane (found j))
      (p := fun j => (found j).isSome) (f := membElem s n c w1 w2) (u := fun _ => s)
      h hgate rfl ?_ ((if_neg hfn).trans hb)), rfl, vidxOf_vecCore c _, rfl, rfl, rfl, rfl,
      fun j hj => ?_, fun m j hm hj => ?_⟩
    · intro x j hj
      exact membElem_found (hprobe j hj) x
    · rw [List.contains_eq_mem]
      exact bitOf_memberCore _ _ _ hj
    · exact (vlane_memberCore _ _ _ hm hj).trans (by simp only [decide_eq_true_eq]; rfl)
  case search =>
    intro s n c w1 w2 h hgate hfn t act a hwait hchk
    have hb : srchBody s n c w1 w2 = _ := if_neg (by simp only [t] at hwait; simp [hwait])
    refine ⟨_, next_congr (doVmemb_member (write := true) (y := searchLane s n c w1 w2) (p := searchHit s n c w1 w2)
      (f := srchElem s n c w1 w2) (u := srchDeny s n c) h hgate rfl (fun x j hj => srchElem_found (hchk j hj) x)
      ((if_pos hfn).trans hb)), rfl, vidxOf_vecCore c _, rfl, rfl, rfl, rfl, fun m j hm hj hne => ?_,
      fun j hj hne => ?_, fun j hj hact => ?_⟩
    · exact (vlane_memberCore true _ _ hm hj).trans (if_neg fun ⟨hmd, hja, _⟩ => hne.elim (fun h => h hmd) (fun h => h hja))
    · exact (bitOf_memberCore true _ _ hj).trans (by simp [show ¬ j ∈ vactives c.vec (vaPg w2) from hne])
    · have hlane := (vlane_memberCore (c := c) (w1 := w1) (w2 := w2) true (searchLane s n c w1 w2) (searchHit s n c w1 w2)
        (vaD_lt w1) hj).trans (if_pos ⟨rfl, hact, rfl⟩)
      have hbit := bitOf_memberCore (c := c) (w1 := w1) (w2 := w2) true (searchLane s n c w1 w2) (searchHit s n c w1 w2) hj
      rw [decide_eq_true hact, Bool.true_and] at hbit
      obtain ⟨-, hle, hbelow, hat⟩ := srchFirst_spec (s := s) (n := n) (c := c) t (a j) t.count 0
      rw [Nat.zero_add] at hle hat
      split
      case isTrue hnull =>
        have hnull' : vlane c.vec (vaA w1) j = nullLane := hnull
        exact ⟨hlane.trans (if_pos hnull), hbit.trans (by simp [searchHit, hnull'])⟩
      case isFalse hnull =>
        refine ⟨_, hle, hlane.trans (if_neg hnull), fun m => hbelow m (Nat.zero_le m), hat, hbit.trans ?_⟩
        have hne : vlane c.vec (vaA w1) j ≠ nullLane := hnull
        simp only [searchHit, decide_eq_false hne, Bool.not_false, Bool.true_and]
        rfl

end Sys2Proof.Machine

/-! # Wide products, compaction, VXFER and VCTL (chapter 11, R226, R228, R232) -/

namespace Sys2Proof.Machine
open Sys2Proof Sys2Proof.Safety

/-! ## Lane pairs (R232) -/

/-- The lanes of a pair that holds `x`: the low one, and the high one. -/
def pairLo (x : Int) : Lane := natLane (unsgn 144 x % 2 ^ 72)
def pairHi (x : Int) : Lane := natLane (unsgn 144 x / 2 ^ 72)
/-- Elements that write their pair `y j` to registers `d` and `d + 1` only. -/
def toPair (d : Nat) (y : Nat → Int) (j m : Nat) : Option Lane :=
  if m = d + 1 then some (pairHi (y j)) else if m = d then some (pairLo (y j)) else none

theorem elemsPut_setPair (v : Vec) (d j : Nat) (y : Nat → Int) : ElemsPut v (setPair v d j (y j)) [j] (toPair d y) := by
  refine ⟨fun m i hm hi => ?_, (vecRest_setLane v d j _).trans (vecRest_setLane _ (d + 1) j _)⟩
  rw [setPair, vlane_setLane _ _ _ _ hm hi, vlane_setLane _ _ _ _ hm hi]
  by_cases hij : i = j <;> by_cases h1 : m = d + 1 <;> by_cases h0 : m = d <;> simp [toPair, pairLo, pairHi, hij, h1, h0]

/-- A pair holds every number of 144 bits. -/
theorem pair_value {x : Int} (h : -2 ^ 143 ≤ x) (h' : x < 2 ^ 143) :
    (pairLo x).toNat + (pairHi x).toInt * ((2 ^ 72 : Nat) : Int) = x := by
  simp only [pairLo, pairHi, natLane, unsgn, BitVec.toInt_eq_toNat_cond, BitVec.toNat_ofNat]
  omega

section
variable {v v' : Vec} {es : List Nat} {d : Nat} {y : Nat → Int}

theorem ElemsPut.getPair_toPair (h : ElemsPut v v' es (toPair d y)) (hd : d + 1 < 16) {j : Nat} (hj : j < 32) (he : j ∈ es)
    (h1 : -2 ^ 143 ≤ y j) (h2 : y j < 2 ^ 143) : getPair v' d j = y j := by
  have hne : d ≠ d + 1 := by omega
  rw [getPair, h.lane d j (by omega) hj, h.lane (d + 1) j hd hj, if_pos he, if_pos he]
  simpa [toPair] using pair_value h1 h2
theorem ElemsPut.vlane_toPair_out (h : ElemsPut v v' es (toPair d y)) {m j : Nat} (hm : m < 16) (hj : j < 32)
    (hout : m ≠ d ∧ m ≠ d + 1 ∨ j ∉ es) : vlane v' m j = vlane v m j := by
  rw [h.lane m j hm hj]
  rcases hout with ⟨h0, h1⟩ | hj
  · simp [toPair, h0, h1]
  · exact if_neg hj
end

theorem lane_bounds (x : Lane) : -2 ^ 71 ≤ x.toInt ∧ x.toInt < 2 ^ 71 := ⟨x.le_toInt, x.toInt_lt⟩
/-- The product of two lanes is exact in 144 bits. -/
theorem lane_mul_bounds (a b : Lane) : -2 ^ 143 ≤ a.toInt * b.toInt ∧ a.toInt * b.toInt < 2 ^ 143 := by
  obtain ⟨ha, ha'⟩ := lane_bounds a
  obtain ⟨hb, hb'⟩ := lane_bounds b
  have habs : (a.toInt * b.toInt).natAbs ≤ 2 ^ 71 * 2 ^ 71 := by
    rw [Int.natAbs_mul]
    exact Nat.mul_le_mul (by omega) (by omega)
  constructor
  · omega
  · omega
theorem narrow144_bounds {mode : Nat} {x : Int} {y : Int × Bool} (h : narrow144 mode x = some y) : -2 ^ 143 ≤ y.1 ∧ y.1 < 2 ^ 143 := by
  unfold narrow144 acc144Max at h
  split at h
  case isTrue hin => cases h; omega
  case isFalse =>
    split at h
    case isTrue => cases h
    case isFalse =>
      split at h
      case isTrue => cases h; dsimp only; split <;> omega
      case isFalse => cases h; simp only [sgn, unsgn]; omega

/-- What an element of VDOT2W writes: the narrowed sum, with its count. -/
def putPairCounted (d : Nat) (y : Nat → Int × Bool) (v : Vec) (j : Nat) : Vec := setPair (vcounts v (y j).2 false) d j (y j).1
theorem elemsPut_putPairCounted (d : Nat) (y : Nat → Int × Bool) (es : List Nat) (v : Vec) :
    ElemsPut v (es.foldl (putPairCounted d y) v) es (toPair d (fun j => (y j).1)) :=
  elemsPut_foldl es (fun v j _ => elemsPut_vcounts _ _ (elemsPut_setPair (vcounts v (y j).2 false) d j fun j => (y j).1)) v

/-! ## Compaction -/

/-- Packing a list by position is writing the lanes below its length. -/
theorem foldl_zipIdx {α : Type} (g : α → Nat → Nat → α) (l : List Nat) (x : α) :
    l.zipIdx.foldl (fun x p => g x p.1 p.2) x = (List.range l.length).foldl (fun x k => g x (l.getD k 0) k) x := by
  have hz : l.zipIdx = (List.range l.length).map (fun k => (l.getD k 0, k)) := by
    refine List.ext_getElem (by simp) fun i h1 h2 => ?_
    simp only [List.length_zipIdx] at h1
    simp [h1]
  rw [hz, List.foldl_map]

/-! ## Moves (VXFER) -/

section
variable {s : State} {n : Nat} {c : Core} {row : SRow} {w1 w2 : Nat} {stop : Option Nat}
  {body : State → Nat → Core → Nat → Nat → IRes}

/-- A short form that completes with the vector state `v` and a change of the core's registers. -/
theorem issueV_vecDone_with (h : Issues s n c row w1 w2) (hl : isLong row w2 = false) {v : Vec} {f : Core → Core}
    (hb : body s n c w1 w2 = vecDone s v f) : issueV n row s stop body = setCore s n (f (vecCore c v)) := by
  rw [issueV_short h hl, hb]
  exact applyRes_done h.1 h.2.1 _ _
theorem vxferFn_le (h : Issues s n c .vxfer w1 w2) : fld w1 9 6 ≤ 7 := by
  have := vecFields_of_issues h rfl
  simp only [vecFields, vxOk, Bool.and_eq_true, decide_eq_true_eq] at this
  omega

/-- The functions of VXFER that write no lane and no predicate. -/
theorem vxfer_registers (h : Issues s n c .vxfer w1 w2) (hgate : vidxOf c.vec < vlOf c.vec) {f : Core → Core}
    (hb : vxferFn s c w1 w2 = vecDone s c.vec f) : doVxfer n s = setCore s n (f (vecCore c c.vec)) :=
  issueV_vecDone_with h rfl ((vecGate_open hgate _).trans hb)
/-- The functions of VXFER that write the vector state only. -/
theorem vxfer_vectors (h : Issues s n c .vxfer w1 w2) (hgate : vidxOf c.vec < vlOf c.vec) {v : Vec}
    (hb : vxferFn s c w1 w2 = vecDone s v id) : doVxfer n s = setCore s n (vecCore c v) :=
  issueV_vecDone h rfl ((vecGate_open hgate _).trans hb)
end

theorem vlane_foldl_setLane (v : Vec) (es : List Nat) (d : Nat) (y : Nat → Lane) {m j : Nat} (hm : m < 16) (hj : j < 32) :
    vlane (es.foldl (fun v j => setLane v d j (y j)) v) m j = if m = d ∧ j ∈ es then y j else vlane v m j :=
  (elemsPut_foldl es (fun v j _ => elemsPut_setLane v d j y) v).vlane_toReg m j hm hj
theorem foldl_setLane_p (v : Vec) (es : List Nat) (d : Nat) (y : Nat → Lane) :
    (es.foldl (fun v j => setLane v d j (y j)) v).p = v.p :=
  (elemsPut_foldl es (fun v j _ => elemsPut_setLane v d j y) v).rest.p
theorem mem_vactives_zero (v : Vec) (j : Nat) : j ∈ vactives v 0 ↔ vidxOf v ≤ j ∧ j < vlOf v := by
  rw [mem_vactives]
  simp only [vactive]
  constructor
  · exact fun ⟨h1, h2, _⟩ => ⟨h2, h1⟩
  · exact fun ⟨h1, h2⟩ => ⟨h2, h1, by simp [h2]⟩

/-- What the instructions of this chapter leave of a core whose elements wrote lanes only. -/
def RestStands (c x : Core) : Prop :=
  x.pc = BitVec.ofNat 24 (c.pc.toNat + 2) ∧ vidxOf x.vec = 0 ∧ x.vec.p = c.vec.p ∧ x.d = c.d ∧ x.a = c.a ∧ x.ac = c.ac
    ∧ x.mem = c.mem
theorem restStands_vecCore {c : Core} {v : Vec} (h : v.p = c.vec.p) : RestStands c (vecCore c v) :=
  ⟨rfl, vidxOf_vecCore c v, h, rfl, rfl, rfl, rfl⟩

/-! ## VMULW, VDOT2W and VCOMPACT -/

section
variable {s : State} {n : Nat} {c : Core} {w1 w2 : Nat}

/-- A pair of registers of an even number lies below V16. -/
theorem vaD_pair (h : vaD w1 % 2 = 0) : vaD w1 + 1 < 16 := by
  have := vaD_lt w1
  omega

theorem doVmulw_of (h : Issues s n c .vmulw w1 w2) :
    ∃ v, doVmulw n s = setCore s n (vecCore c v) ∧ ElemsPut c.vec v (vactives c.vec (vaPg w2))
      (toPair (vaD w1) fun j => (vlane c.vec (vaA w1) j).toInt * (shortB c w2 j).toInt) :=
  ⟨_, issueV_vecDone h rfl (vecGate_vecDone_foldl _ _ _), elemsPut_foldl _ (fun v j _ => elemsPut_setPair v (vaD w1) j
    fun j => (vlane c.vec (vaA w1) j).toInt * (shortB c w2 j).toInt) c.vec⟩

/-- The sum of an element of VDOT2W. -/
def dot2Sum (c : Core) (w1 w2 j : Nat) : Int :=
  getPair c.vec (vaD w1) j + (vlane c.vec (vaA w1) j).toInt * (vlane c.vec (vaB w2) j).toInt
    + (vlane c.vec (vaA w1 + 1) j).toInt * (vlane c.vec (vaB w2 + 1) j).toInt
/-- An element of VDOT2W. -/
def dot2Elem (c : Core) (w1 w2 j : Nat) (v : Vec) : Except VFault Vec :=
  match narrow144 (vmOvf c.vec) (dot2Sum c w1 w2 j) with
  | some y => .ok (setPair (vcounts v y.2 false) (vaD w1) j y.1)
  | none => .error ⟨j, 0, 1, 7, 0⟩
theorem doVdot2w_of (h : Issues s n c .vdot2w w1 w2) {y : Nat → Int × Bool}
    (hy : ∀ j ∈ vactives c.vec (vaPg w2), narrow144 (vmOvf c.vec) (dot2Sum c w1 w2 j) = some (y j)) :
    ∃ v, doVdot2w n s = setCore s n (vecCore c v)
      ∧ ElemsPut c.vec v (vactives c.vec (vaPg w2)) (toPair (vaD w1) fun j => (y j).1) := by
  have hfold := vecFold_ok (f := dot2Elem c w1 w2) (g := putPairCounted (vaD w1) y) (vactives c.vec (vaPg w2))
    (fun v j hj => by simp only [dot2Elem, hy j hj]; rfl) c.vec
  have hb : dot2wBody s c w1 w2 = vecGate s c.vec (vecFinish ((vecFold (dot2Elem c w1 w2) (vactives c.vec (vaPg w2)) c.vec).1, s,
    (vecFold (dot2Elem c w1 w2) (vactives c.vec (vaPg w2)) c.vec).2)) := rfl
  rw [hfold] at hb
  exact ⟨_, issueV_vecDone h rfl (hb.trans (vecGate_vecDone_foldl _ _ _)), elemsPut_putPairCounted _ y _ _⟩

/-- The lanes packed from lane 0 up. -/
def packed (c : Core) (w1 : Nat) (es : List Nat) : Vec :=
  (List.range es.length).foldl (fun v k => setLane v (vaD w1) k (vlane c.vec (vaA w1) (es.getD k 0))) c.vec
theorem vlane_packed (c : Core) (w1 : Nat) (es : List Nat) {m j : Nat} (hm : m < 16) (hj : j < 32) :
    vlane (packed c w1 es) m j = if m = vaD w1 ∧ j < es.length then vlane c.vec (vaA w1) (es.getD j 0) else vlane c.vec m j := by
  rw [packed, vlane_foldl_setLane _ _ _ (fun k => vlane c.vec (vaA w1) (es.getD k 0)) hm hj]
  simp only [List.mem_range]
theorem vcr_vout (c : Core) (v : Vec) (k : Nat) : vcr (vecCore c (setVcr v 5 k)).vec 5 = k % 65536 := by
  rw [vcr_vecCore c _ (show 5 ≠ 1 by decide), vcr_setVcr, if_pos ⟨rfl, by decide⟩]
theorem doVcompact_of (h : Issues s n c .vcompact w1 w2) (hl : vaL w2 = false) (hgate : vidxOf c.vec < vlOf c.vec) :
    doVcompact n s = setCore s n (vecCore c (setVcr (packed c w1 (vactives c.vec (vaPg w2))) 5 (vactives c.vec (vaPg w2)).length)) := by
  refine issueV_vecDone h (isLong_of_vaL _ hl) ((vecGate_open hgate _).trans ?_)
  rw [packed, ← foldl_zipIdx (fun v j k => setLane v (vaD w1) k (vlane c.vec (vaA w1) j))]
end

/-! ## VCTL -/

section
variable {s : State} {n : Nat} {c : Core} {w1 w2 : Nat}

/-- A function of VCTL that changes the core only. -/
theorem doVctl_of (h : Issues s n c .vctl w1 w2) {f : Core → Core} (hb : vctlBody s c w1 w2 = step1 s 2 f) :
    doVctl n s = setCore s n (f (pcAdd c 2)) := by
  refine (issueV_short h rfl).trans ?_
  simp only [hb]
  exact applyRes_done h.1 h.2.1 _ _
theorem vctl_read (hfn : fld w1 9 6 = 0) : vctlBody s c w1 w2
    = step1 s 2 (fun x => setD { x with vec := setVcr x.vec 1 0 } (fld w1 5 3) (vcr c.vec (fld w2 15 10))) := by
  simp only [vctlBody, hfn]
theorem vctl_write (hfn : fld w1 9 6 = 1) (hbad : vcrBad (fld w2 15 10) (dreg c (fld w1 5 3)) = false) : vctlBody s c w1 w2
    = step1 s 2 (fun x => { x with
        vec := setVcr (setVcr x.vec 1 0) (fld w2 15 10) (dreg c (fld w1 5 3) &&& vcrMask (fld w2 15 10)) }) := by
  simp only [vctlBody, hfn, hbad, Bool.false_eq_true, if_false]
theorem vctl_illegal (hfn : fld w1 9 6 = 1) (hbad : vcrBad (fld w2 15 10) (dreg c (fld w1 5 3)) = true) :
    vctlBody s c w1 w2 = raise s Exc.illegal := by
  simp only [vctlBody, hfn, hbad, if_true]
theorem vctl_base (hfn : fld w1 9 6 = 2) : vctlBody s c w1 w2
    = step1 s 2 (fun x => { x with vec := setVcr (setVcr (setVcr x.vec (16 + 4 * fld w2 15 10) (areg c (fld w1 5 3) % 65536))
        (17 + 4 * fld w2 15 10) (fld (vcr x.vec (17 + 4 * fld w2 15 10)) 15 15 * 2 ^ 15 + areg c (fld w1 5 3) / 65536)) 1 0 }) := by
  simp only [vctlBody, hfn]
theorem vec_excCore (h : c.vec.links = []) (epc code svc ea : Nat) : (excCore c epc code svc ea).vec = c.vec := by
  change ({ c.vec with links := [] } : Vec) = c.vec
  rw [← h]
theorem doVctl_illegal (h : Issues s n c .vctl w1 w2) (hexl : c.exl = false) (hb : vctlBody s c w1 w2 = raise s Exc.illegal) :
    doVctl n s = setCore (tookFree s) n (excCore c c.pc.toNat Exc.illegal 0 (freeAddr s)) := by
  refine (issueV_short h rfl).trans ?_
  have hcore : coreUpd s n (fun c => id (if c.run = .load then { c with run := .run } else c)) = setCore s n c := by
    rw [coreUpd_of h.1, h.2.1]
    rfl
  simp only [hb, raise, applyRes, hcore]
  rw [syncExc_none (tget_setCore_self _ _ _) hexl]
  exact setCore_setCore (tookFree s) n c _
end

/-! ## VXFER by its function -/

section
variable {s : State} {n : Nat} {c : Core} {w1 w2 : Nat}

/-- What VXFER's function `fn` leaves, by Table 11-5. -/
def XferDone (c : Core) (w1 w2 fn : Nat) (x : Core) : Prop :=
  let ac := fld w2 15 14
  let dj := fld w2 13 11
  let pp := fld w2 10 8
  let vn := fld w1 5 2
  let lane := dreg c dj % 32
  let act := vactives c.vec (fld w2 7 5)
  let lanes := fun (x : Core) (p : Nat → Bool) (y : Nat → Lane) =>
    ∀ m j, m < 16 → j < 32 → vlane x.vec m j = if m = vn ∧ p j = true then y j else vlane c.vec m j
  let live := fun j => decide (vidxOf c.vec ≤ j ∧ j < vlOf c.vec)
  x.pc = BitVec.ofNat 24 (c.pc.toNat + 2) ∧ vidxOf x.vec = 0 ∧ x.mem = c.mem ∧ x.a = c.a
    ∧ x.ac = (if fn = 0 then (setAC c ac (vlane c.vec vn lane)).ac else c.ac)
    ∧ x.d = (if fn = 3 then (setD (setD c dj (vpred c.vec pp % 65536)) (dj + 1) (vpred c.vec pp / 65536)).d
        else if fn = 5 then (setD c dj (act.filter (fun j => bitOf (vpred c.vec pp) j)).length).d
        else if fn = 6 then (setD c dj (((vactives c.vec 0).find? (fun j => bitOf (vpred c.vec pp) j)).getD 32)).d else c.d)
    ∧ (fn = 1 → lanes x (fun j => j == lane && live j) (fun _ => acreg c ac))
    ∧ (fn = 2 → lanes x (fun j => act.contains j) (fun _ => acreg c ac))
    ∧ (fn = 7 → lanes x (fun j => act.contains j) (fun j => natLane j))
    ∧ (fn ∉ [1, 2, 7] → x.vec.v = c.vec.v)
    ∧ ∀ m, m < 8 → (m ≠ pp ∨ fn ≠ 4 → vpred x.vec m = vpred c.vec m)
      ∧ (m = pp → fn = 4 → ∀ j < 32, bitOf (vpred x.vec m) j = (live j && bitOf (dreg c (dj + 1) * 65536 + dreg c dj) j))

/-- A function that writes registers only, and no lane or predicate. -/
theorem xferDone_registers {fn : Nat} {x : Core} (hfn : fn ∈ [0, 3, 5, 6])
    (hx : x.vec = (vecCore c c.vec).vec ∧ x.pc = (vecCore c c.vec).pc ∧ x.mem = c.mem ∧ x.a = c.a)
    (hac : x.ac = if fn = 0 then (setAC c (fld w2 15 14) (vlane c.vec (fld w1 5 2) (dreg c (fld w2 13 11) % 32))).ac else c.ac)
    (hd : x.d
      = if fn = 3 then
          (setD (setD c (fld w2 13 11) (vpred c.vec (fld w2 10 8) % 65536)) (fld w2 13 11 + 1) (vpred c.vec (fld w2 10 8) / 65536)).d
        else if fn = 5 then
          (setD c (fld w2 13 11) ((vactives c.vec (fld w2 7 5)).filter (fun j => bitOf (vpred c.vec (fld w2 10 8)) j)).length).d
        else if fn = 6 then
          (setD c (fld w2 13 11) (((vactives c.vec 0).find? (fun j => bitOf (vpred c.vec (fld w2 10 8)) j)).getD 32)).d
        else c.d) :
    XferDone c w1 w2 fn x := by
  have hne : fn ≠ 1 ∧ fn ≠ 2 ∧ fn ≠ 7 ∧ fn ≠ 4 := by
    simp only [List.mem_cons, List.not_mem_nil, or_false] at hfn
    omega
  obtain ⟨h1, h2, h7, h4⟩ := hne
  obtain ⟨hvec, hpc, hmem, ha⟩ := hx
  refine ⟨hpc, ?_, hmem, ha, hac, hd, fun h => absurd h h1, fun h => absurd h h2, fun h => absurd h h7, fun _ => ?_,
    fun m _ => ⟨fun _ => ?_, fun _ h => absurd h h4⟩⟩
  · rw [hvec]; exact vidxOf_vecCore c _
  · rw [hvec]; rfl
  · rw [hvec]; rfl
/-- A function that writes lanes of V(n) only. -/
theorem xferDone_lanes {fn : Nat} (hfn : fn ∈ [1, 2, 7]) {es : List Nat} {y : Nat → Lane}
    (h1 : fn = 1 → (∀ j, j ∈ es ↔ j = dreg c (fld w2 13 11) % 32 ∧ vidxOf c.vec ≤ j ∧ j < vlOf c.vec)
      ∧ ∀ j, y j = acreg c (fld w2 15 14))
    (h2 : fn = 2 → es = vactives c.vec (fld w2 7 5) ∧ ∀ j, y j = acreg c (fld w2 15 14))
    (h7 : fn = 7 → es = vactives c.vec (fld w2 7 5) ∧ y = natLane) :
    XferDone c w1 w2 fn (vecCore c (es.foldl (fun v j => setLane v (fld w1 5 2) j (y j)) c.vec)) := by
  have hne : fn ≠ 0 ∧ fn ≠ 3 ∧ fn ≠ 5 ∧ fn ≠ 6 ∧ fn ≠ 4 := by
    simp only [List.mem_cons, List.not_mem_nil, or_false] at hfn
    omega
  obtain ⟨h0, h3, h5, h6, h4⟩ := hne
  have hlane := fun m j (hm : m < 16) (hj : j < 32) => vlane_foldl_setLane c.vec es (fld w1 5 2) y hm hj
  refine ⟨rfl, vidxOf_vecCore c _, rfl, rfl, (if_neg h0).symm, ?_, fun h m j hm hj => ?_, fun h m j hm hj => ?_, fun h m j hm hj => ?_,
    fun h => absurd hfn h, fun m _ => ⟨fun _ => vpred_congr (foldl_setLane_p _ _ _ _) m, fun _ h => absurd h h4⟩⟩
  · rw [if_neg h3, if_neg h5, if_neg h6]; rfl
  · obtain ⟨hes, hy⟩ := h1 h
    rw [vlane_vecCore, hlane m j hm hj]
    simp only [hes, hy, Bool.and_eq_true, beq_iff_eq, decide_eq_true_eq]
  · obtain ⟨rfl, hy⟩ := h2 h
    rw [vlane_vecCore, hlane m j hm hj]
    simp only [hy, List.contains_iff_mem]
  · obtain ⟨rfl, rfl⟩ := h7 h
    rw [vlane_vecCore, hlane m j hm hj]
    simp only [List.contains_iff_mem]
/-- The function that writes a predicate. -/
theorem xferDone_predicate : XferDone c w1 w2 4 (vecCore c (setPred c.vec (fld w2 10 8)
    ((dreg c (fld w2 13 11 + 1) * 65536 + dreg c (fld w2 13 11)) &&& elemMask c.vec))) := by
  refine ⟨rfl, vidxOf_vecCore c _, rfl, rfl, rfl, rfl, nofun, nofun, nofun, fun _ => rfl,
    fun m hm => ⟨fun h => ?_, fun h _ j hj => ?_⟩⟩
  · rw [vpred_vecCore, vpred_setPred _ _ _ hm, if_neg (h.resolve_right (fun h => h rfl))]
  · subst h
    rw [vpred_vecCore, bitOf_vpred_setPred_self _ _ hm hj, Nat.testBit_and, testBit_elemMask, bitOf_eq_testBit, Bool.and_comm]

/-- The element that VINS writes: the named one, where it lies from VIDX up to VL. -/
def insElems (v : Vec) (k : Nat) : List Nat := if (vactives v 0).contains k then [k] else []
theorem mem_insElems (v : Vec) (k j : Nat) : j ∈ insElems v k ↔ j = k ∧ vidxOf v ≤ j ∧ j < vlOf v := by
  unfold insElems
  simp only [List.contains_iff_mem, mem_vactives_zero]
  split
  case isTrue h => exact ⟨fun hj => by rw [List.mem_singleton] at hj; exact ⟨hj, hj ▸ h⟩, fun hj => List.mem_singleton.mpr hj.1⟩
  case isFalse h => exact ⟨fun hj => absurd hj List.not_mem_nil, fun ⟨hj, hlive⟩ => absurd (hj ▸ hlive) h⟩
theorem foldl_insElems (v : Vec) (d k : Nat) (x : Lane) :
    (insElems v k).foldl (fun v j => setLane v d j x) v = if (vactives v 0).contains k then setLane v d k x else v := by
  unfold insElems
  split <;> rfl

/-- VXFER by its function. -/
theorem doVxfer_of (h : Issues s n c .vxfer w1 w2) (hgate : vidxOf c.vec < vlOf c.vec) :
    ∃ x, doVxfer n s = setCore s n x ∧ XferDone c w1 w2 (fld w1 9 6) x := by
  have hle := vxferFn_le h
  generalize hfn : fld w1 9 6 = fn at hle
  match fn with
  | 0 =>
    have hb : vxferFn s c w1 w2 = vecDone s c.vec
        (fun x => setAC x (fld w2 15 14) (vlane c.vec (fld w1 5 2) (dreg c (fld w2 13 11) % 32))) := by simp only [vxferFn, hfn]
    exact ⟨_, vxfer_registers h hgate hb, xferDone_registers (fn := 0) (by decide) ⟨rfl, rfl, rfl, rfl⟩ rfl rfl⟩
  | 1 =>
    have hb : vxferFn s c w1 w2 = vecDone s ((insElems c.vec (dreg c (fld w2 13 11) % 32)).foldl
        (fun v j => setLane v (fld w1 5 2) j (acreg c (fld w2 15 14))) c.vec) id := by simp only [vxferFn, hfn, foldl_insElems]
    exact ⟨_, vxfer_vectors h hgate hb, xferDone_lanes (fn := 1) (by decide)
      (fun _ => ⟨mem_insElems _ _, fun _ => rfl⟩) nofun nofun⟩
  | 2 =>
    have hb : vxferFn s c w1 w2 = vecDone s ((vactives c.vec (fld w2 7 5)).foldl
        (fun v j => setLane v (fld w1 5 2) j (acreg c (fld w2 15 14))) c.vec) id := by simp only [vxferFn, hfn]
    exact ⟨_, vxfer_vectors h hgate hb, xferDone_lanes (fn := 2) (by decide) nofun (fun _ => ⟨rfl, fun _ => rfl⟩) nofun⟩
  | 3 =>
    have hb : vxferFn s c w1 w2 = vecDone s c.vec (fun x => setD (setD x (fld w2 13 11) (vpred c.vec (fld w2 10 8) % 65536))
        (fld w2 13 11 + 1) (vpred c.vec (fld w2 10 8) / 65536)) := by simp only [vxferFn, hfn]
    exact ⟨_, vxfer_registers h hgate hb, xferDone_registers (fn := 3) (by decide) ⟨rfl, rfl, rfl, rfl⟩ rfl rfl⟩
  | 4 =>
    have hb : vxferFn s c w1 w2 = vecDone s (setPred c.vec (fld w2 10 8)
        ((dreg c (fld w2 13 11 + 1) * 65536 + dreg c (fld w2 13 11)) &&& elemMask c.vec)) id := by simp only [vxferFn, hfn]
    exact ⟨_, vxfer_vectors h hgate hb, xferDone_predicate⟩
  | 5 =>
    have hb : vxferFn s c w1 w2 = vecDone s c.vec (fun x => setD x (fld w2 13 11)
        ((vactives c.vec (fld w2 7 5)).filter (fun j => bitOf (vpred c.vec (fld w2 10 8)) j)).length) := by simp only [vxferFn, hfn]
    exact ⟨_, vxfer_registers h hgate hb, xferDone_registers (fn := 5) (by decide) ⟨rfl, rfl, rfl, rfl⟩ rfl rfl⟩
  | 6 =>
    have hb : vxferFn s c w1 w2 = vecDone s c.vec (fun x => setD x (fld w2 13 11)
        (((vactives c.vec 0).find? (fun j => bitOf (vpred c.vec (fld w2 10 8)) j)).getD 32)) := by simp only [vxferFn, hfn]
    exact ⟨_, vxfer_registers h hgate hb, xferDone_registers (fn := 6) (by decide) ⟨rfl, rfl, rfl, rfl⟩ rfl rfl⟩
  | 7 =>
    have hb : vxferFn s c w1 w2 = vecDone s ((vactives c.vec (fld w2 7 5)).foldl
        (fun v j => setLane v (fld w1 5 2) j (natLane j)) c.vec) id := by simp only [vxferFn, hfn]
    exact ⟨_, vxfer_vectors h hgate hb, xferDone_lanes (fn := 7) (by decide) nofun nofun (fun _ => ⟨rfl, rfl⟩)⟩
  | k + 8 => omega

end

/-- Settles O11: pairs and packed lanes by what their folds write, VXFER and VCTL by their functions. -/
theorem wideProductsAndMovesComplete : Obligations.WideProductsAndMovesComplete := by
  unfold Obligations.WideProductsAndMovesComplete
  refine ⟨fun s n c w1 w2 => ⟨?vmulw, ?vdot2w, ?vcompact⟩, ?vxfer,
    fun s n c w1 w2 h => ⟨?vctlRead, ?vctlWrite, ?vctlBase, ?vctlIllegal⟩⟩
  case vmulw =>
    intro h
    obtain ⟨v, hv, hput⟩ := doVmulw_of h
    refine ⟨_, next_congr hv, restStands_vecCore hput.rest.p, fun j hj he => ?_, fun m j hm hj hout => hput.vlane_toPair_out hm hj hout⟩
    obtain ⟨h1, h2⟩ := lane_mul_bounds (vlane c.vec (vaA w1) j) (shortB c w2 j)
    exact hput.getPair_toPair (vaD_pair (vecFields_of_issues h rfl)) hj he h1 h2
  case vdot2w =>
    intro y h hy
    obtain ⟨v, hv, hput⟩ := doVdot2w_of h hy
    refine ⟨_, next_congr hv, restStands_vecCore hput.rest.p, fun j hj he => ?_, fun m j hm hj hout => hput.vlane_toPair_out hm hj hout⟩
    obtain ⟨h1, h2⟩ := narrow144_bounds (hy j he)
    exact hput.getPair_toPair (vaD_pair (vecFields_of_issues h rfl)) hj he h1 h2
  case vcompact =>
    intro h hl hgate
    refine ⟨_, next_congr (doVcompact_of h hl hgate), restStands_vecCore (foldl_setLane_p _ _ _ _), ?_,
      fun k hk hlt => ?_, fun m j hm hj hout => ?_⟩
    · exact vcr_vout c _ _
    · rw [vlane_vecCore, vlane_setVcr, vlane_packed c w1 _ (vaD_lt w1) hk]
      exact if_pos ⟨rfl, hlt⟩
    · rw [vlane_vecCore, vlane_setVcr, vlane_packed c w1 _ hm hj]
      exact if_neg fun ⟨hd, hlt⟩ => hout.elim (fun h => h hd) (fun h => absurd hlt (Nat.not_lt.mpr h))
  case vxfer =>
    intro s n c w1 w2 h hgate
    obtain ⟨x, hx, hdone⟩ := doVxfer_of h hgate
    exact ⟨x, next_congr hx, hdone⟩
  case vctlRead => exact fun hfn => next_congr (doVctl_of h (vctl_read hfn))
  case vctlWrite => exact fun hfn hbad => next_congr (doVctl_of h (vctl_write hfn hbad))
  case vctlBase => exact fun hfn => next_congr (doVctl_of h (vctl_base hfn))
  case vctlIllegal =>
    intro hfn hbad hexl
    refine ⟨_, next_congr (doVctl_illegal h hexl (vctl_illegal hfn hbad)), ?_⟩
    rw [getCore_setCore_self]
    exact ⟨rfl, by simp, vec_excCore h.2.2.1 _ _ _ _, rfl⟩

end Sys2Proof.Machine

/-! # The pipes and the chains (chapter 11, R229, R232, R238 to R244) -/

namespace Sys2Proof.Machine
open Sys2Proof Sys2Proof.Safety

/-! ## Pipes (R244) -/

section
variable {s t u : State} {n : Nat} {c : Core} {w1 w2 : Nat} {m : Mem}

theorem ownWrite_of (hc : tget s.cores n = some c) (wa k v : Nat) :
    ownWrite s n wa k v = setCore s n { c with mem := mput c.mem (2 * wa) k v } := coreUpd_of hc _

/-- The command that VPIPE queues. -/
def pipeCmdOf (n : Nat) (c : Core) (w1 : Nat) : PipeCmd :=
  ⟨fld w1 9 6, areg c (fld w1 5 3), (List.range 16).map (fun k => coreWord n c (areg c (fld w1 5 3) + k)), pipeLo c, pipeHi n c⟩
theorem pipeCmdOf_w (n : Nat) (c : Core) (w1 : Nat) {k : Nat} (hk : k < 16) :
    (pipeCmdOf n c w1).w k = coreWord n c (areg c (fld w1 5 3) + k) := by
  simp [pipeCmdOf, PipeCmd.w, hk]
/-- A core that queued its command. -/
def pipedCore (n : Nat) (c : Core) (w1 : Nat) : Core :=
  { pcAdd c 2 with
    mem := mput c.mem (2 * areg c (fld w1 5 3)) 2 0xFFFF
    vec := setVcr { c.vec with pipes := c.vec.pipes ++ [pipeCmdOf n c w1] } 1 0 }
theorem doVpipe_queued (h : Issues s n c .vpipe w1 w2) (hd : DataWords n c (areg c (fld w1 5 3)) 16) (hroom : c.vec.pipes.length < 2) :
    doVpipe n s = setCore s n (pipedCore n c w1) := by
  have hroom' : ¬ c.vec.pipes.length ≥ 2 := by omega
  refine (issueV_short h rfl).trans ?_
  simp only [frameBad_none hd, if_neg hroom', ownWrite_of h.1]
  have hload : ¬ c.run = .load := by rw [h.2.1]; decide
  simp only [step1, applyRes, coreUpd_setCore, if_neg hload]
  rfl
theorem doVpipe_full (h : Issues s n c .vpipe w1 w2) (hd : DataWords n c (areg c (fld w1 5 3)) 16) (hfull : 2 ≤ c.vec.pipes.length) :
    doVpipe n s = s := by
  refine (issueV_short h rfl).trans ?_
  simp only [frameBad_none hd, if_pos hfull, applyRes]

/-- The end of a pipe command leaves core `n` as `c` with another memory; only the counter of free values may move besides. -/
def PipeMem (s : State) (n : Nat) (c : Core) (u t : State) : Prop := u.cores = s.cores ∧ ∃ m, CoreIs u n t { c with mem := m }

theorem CoreIs.ownWrite (h : CoreIs u n t { c with mem := m }) (wa k v : Nat) :
    CoreIs u n (ownWrite t n wa k v) { c with mem := mput m (2 * wa) k v } := h.coreUpd _
theorem CoreIs.freeRes {c' : Core} (h : CoreIs u n t c') : CoreIs { u with freeCtr := t.freeCtr + 1 } n (freeRes t).2 c' := fun f =>
  congrArg (fun s : State => { s with freeCtr := t.freeCtr + 1 }) (h f)
theorem CoreIs.foldl_mwrite (bs : List (Nat × List Byte)) (h : CoreIs u n t { c with mem := m }) :
    ∃ m', CoreIs u n (bs.foldl (fun s b => Machine.coreUpd s n (fun x => { x with mem := mwrite x.mem b.1 b.2 })) t)
      { c with mem := m' } := by
  induction bs generalizing t m with
  | nil => exact ⟨m, h⟩
  | cons b bs ih => exact ih (h.coreUpd _)
theorem CoreIs.foldl_ownWrite (at_ : Nat) (qs : List (Nat × Nat)) (h : CoreIs u n t { c with mem := m }) :
    ∃ m', CoreIs u n (qs.foldl (fun s q => Machine.ownWrite s n (at_ + q.1) 2 q.2) t) { c with mem := m' } := by
  induction qs generalizing t m with
  | nil => exact ⟨m, h⟩
  | cons q qs ih => exact ih (h.ownWrite _ _ _)
theorem PipeMem.foldl_loose (at_ : Nat) (ks : List Nat) (h : PipeMem s n c u t) :
    ∃ u', PipeMem s n c u' (ks.foldl (fun s k => let r := freeRes s; Machine.ownWrite r.2 n (at_ + k) 4 (r.1 % 2 ^ 24)) t)
      ∧ (ks = [] → u' = u) := by
  induction ks generalizing t u with
  | nil => exact ⟨u, h, fun _ => rfl⟩
  | cons k ks ih =>
    obtain ⟨hu, m, hm⟩ := h
    obtain ⟨u', h', -⟩ := ih (u := { u with freeCtr := t.freeCtr + 1 }) ⟨hu, _, hm.freeRes.ownWrite (at_ + k) 4 _⟩
    exact ⟨u', h', fun hk => absurd hk (List.cons_ne_nil _ _)⟩

/-- A core whose oldest pipe command ended. -/
def pipeEnded (c : Core) (m : Mem) (rest : List PipeCmd) : Core :=
  { c with mem := m, vec := { c.vec with pipes := rest }, evpend := c.evpend ||| 2 }

/-- The oldest command ends: STATUS is written last. -/
theorem pipeEnd_of {p : PipeCmd} {rest : List PipeCmd} (f : PipeCmd → Mem → Option PipeOut) (hc : tget s.cores n = some c)
    (hrun : c.run ≠ .off) (hp : c.vec.pipes = p :: rest) :
    ∃ u m, pipeEnd n p.fn f s = setCore u n (pipeEnded c m rest) ∧ u.cores = s.cores
      ∧ (∀ o, f p c.mem = some o → mnat m (2 * p.block) 2 = o.status % 65536)
      ∧ (∀ o, f p c.mem = some o → o.loose = [] → u = s) := by
  have hcond : ¬ (p.fn ≠ p.fn ∨ c.run = .off) := fun h => h.elim (fun h => h rfl) hrun
  have hself : CoreIs s n s { c with mem := c.mem } := coreIs_self hc
  simp only [pipeEnd, getCore_of hc, hp, if_neg hcond]
  cases hf : f p c.mem with
  | none =>
    refine ⟨_, _, (hself.freeRes.ownWrite p.block 2 _) _, rfl, nofun, nofun⟩
  | some o =>
    obtain ⟨m1, h1⟩ := hself.foldl_mwrite o.bytes
    obtain ⟨m2, h2⟩ := h1.foldl_ownWrite p.block o.fields
    obtain ⟨u, ⟨hu, m3, h3⟩, hloose⟩ := PipeMem.foldl_loose (s := s) p.block o.loose ⟨rfl, m2, h2⟩
    refine ⟨u, _, (h3.ownWrite p.block 2 o.status) _, hu, fun o' ho => ?_, fun o' ho hl => hloose ?_⟩
    · cases ho
      exact mnat_mput_self _ _ _ _
    · cases ho
      exact hl
end

/-- Settles O14: VPIPE writes STATUS and queues its command, and the end of a command writes STATUS last. -/
theorem pipeCommandsQueueAndEnd : Obligations.PipeCommandsQueueAndEnd := by
  unfold Obligations.PipeCommandsQueueAndEnd
  refine fun s n c w1 w2 => ⟨?queue, ?full, ?ends⟩
  case queue =>
    intro h hd hroom
    refine ⟨_, pipeCmdOf n c w1, next_congr (doVpipe_queued h hd hroom), rfl, rfl, rfl, fun k hk => pipeCmdOf_w n c w1 hk,
      vcr_setVcr_self _ (by decide) (by decide), mnat_mput_self _ _ _ _, rfl, rfl, rfl⟩
  case full => exact fun h hd hfull => next_congr (doVpipe_full h hd hfull)
  case ends =>
    intro p rest cmd f hc hrun hp hcmd
    obtain ⟨u, m, hend, hu, hstatus, hloose⟩ := pipeEnd_of f hc hrun hp
    have hexec : exec cmd s = .next (pipeEnd n p.fn f s) := by
      simp only [List.mem_cons, Prod.mk.injEq, List.not_mem_nil, or_false] at hcmd
      rcases hcmd with ⟨hfn, rfl, rfl⟩ | ⟨hfn, rfl, rfl⟩ | ⟨hfn, rfl, rfl⟩ | ⟨hfn, rfl, rfl⟩ | ⟨hfn, rfl, rfl⟩ <;>
        exact hfn ▸ rfl
    refine ⟨_, pipeEnded c m rest, hexec.trans (next_congr hend), tget_setCore_self _ _ _, rfl, rfl, rfl, rfl, rfl, rfl, fun k hk => ?_,
      hstatus, fun o ho hl => by rw [hloose o ho hl]⟩
    rw [setCore, tget_tset_ne _ _ _ _ hk, hu]


/-! ## Chains (R229, R232, R238, R239) -/

/-- A fold whose every element succeeds and keeps an invariant that counts the elements. -/
theorem vecFold_range {α : Type} {f : Nat → α → Except VFault α} (P : Nat → α → Prop) (count : Nat)
    (hstep : ∀ e < count, ∀ x, P e x → ∃ y, f e x = .ok y ∧ P (e + 1) y) {x : α} (h0 : P 0 x) :
    ∃ y, vecFold f (List.range count) x = (none, y) ∧ P count y := by
  have key : ∀ k e (x : α), e + k = count → P e x → ∃ y, vecFold f (List.range' e k) x = (none, y) ∧ P count y := fun k => by
    induction k with
    | zero => exact fun e x he h => ⟨x, rfl, by rw [← he]; exact h⟩
    | succ k ih =>
      intro e x he h
      obtain ⟨y, hy, hPy⟩ := hstep e (by omega) x h
      obtain ⟨z, hz, hPz⟩ := ih (e + 1) y (by omega) hPy
      exact ⟨z, by rw [List.range'_succ, vecFold, hy]; exact hz, hPz⟩
  rw [List.range_eq_range']
  exact key count 0 x (Nat.zero_add _) h0

theorem vcr_lt (v : Vec) (k : Nat) : vcr v k < 65536 := (v.cr.toList.getD k 0).isLt

section
variable {s : State} {n : Nat} {c : Core} {row : SRow} {w1 w2 : Nat}

/-- What a chain leaves after `e` elements: the core's memory, and of the vector state VOUT. -/
structure ChainAt (s : State) (n : Nat) (c : Core) (m : Mem) (out : Nat) (x : State × Vec) : Prop where
  core : CoreIs s n x.1 { c with mem := m }
  mem : (getCore x.1 n).mem = m
  free : x.1.freeCtr = s.freeCtr
  lanes : x.2.v = c.vec.v
  preds : x.2.p = c.vec.p
  vout : vcr x.2 5 = out

theorem ChainAt.elemWrite {m : Mem} {out : Nat} {x : State × Vec} (h : ChainAt s n c m out x) (b : Int) (w : Nat) (y : Lane) {v : Vec}
    {out' : Nat} (hv : v.v = x.2.v) (hp : v.p = x.2.p) (ho : vcr v 5 = out') :
    ChainAt s n c (mput m b.toNat w y.toNat) out' (elemWrite x.1 n b w y, v) := by
  have hcore : CoreIs s n (Machine.elemWrite x.1 n b w y) { c with mem := mput m b.toNat w y.toNat } := h.core.coreUpd _
  have hset : Machine.elemWrite x.1 n b w y = setCore s n { c with mem := mput m b.toNat w y.toNat } := h.core _
  exact ⟨hcore, by rw [hset, getCore_setCore_self], h.free, hv.trans h.lanes, hp.trans h.preds, ho⟩

/-- The operands of the one link of a chain, from the memory before the element. -/
def chainA (c : Core) (m : Mem) (e k : Nat) : Lane := BitVec.ofNat 72 (mnat m (streamAt (streamOf c.vec k) e).toNat 9)
def chainB (c : Core) (w2 : Nat) (m : Mem) (e : Nat) : Lane := if vaBs w2 then acreg c (vaB w2 % 4) else chainA c m e (vaB w2)

theorem linkA_of {m : Mem} {out : Nat} {x : State × Vec} (h : ChainAt s n c m out x) (e : Nat) (q : Lane)
    (ha : VLink.readsA ⟨row, w1, w2⟩ = false) : linkA x.1 n c e q ⟨row, w1, w2⟩ = chainA c m e (vaA w1) := by
  have ha' : ¬ vaA w1 = 8 := by simpa [VLink.readsA] using ha
  simp only [linkA, linkOperand, if_neg ha', elemRead, h.mem, chainA]
theorem linkB_of {m : Mem} {out : Nat} {x : State × Vec} (h : ChainAt s n c m out x) (e : Nat) (q : Lane)
    (hb : VLink.readsB ⟨row, w1, w2⟩ = false) : linkB x.1 n c e q ⟨row, w1, w2⟩ = chainB c w2 m e := by
  rw [linkB, chainB]
  cases hbs : vaBs w2
  case true => simp only [if_true]
  case false =>
    have hb' : ¬ vaB w2 = 8 := by simpa [VLink.readsB, hbs] using hb
    simp only [Bool.false_eq_true, if_false, linkOperand, if_neg hb', elemRead, h.mem, chainA]
theorem linkD_of {m : Mem} {out : Nat} {x : State × Vec} (h : ChainAt s n c m out x) (e : Nat)
    (hq : VLink.writesQ ⟨row, w1, w2⟩ = false) : linkD x.1 n c e 0 ⟨row, w1, w2⟩
      = if VLink.readsD ⟨row, w1, w2⟩ then chainA c m e (vaD w1) else 0 := by
  rw [linkD, hq]
  cases VLink.readsD ⟨row, w1, w2⟩
  case true => simp [elemRead, h.mem, chainA]
  case false => rfl

/-- What element `e` of a chain of one link does to memory and to VOUT. -/
def ChainStep (n : Nat) (c : Core) (row : SRow) (w1 w2 e : Nat) (m m' : Mem) (out out' : Nat) : Prop :=
  let dst := streamOf c.vec (vaD w1)
  if row = .vcompact then
    if chainB c w2 m e = 0#72 ∨ chainB c w2 m e = nullLane then m' = m ∧ out' = out
    else elemOk n c (streamAt dst out) (formWidth dst.form) = true ∧ out' = out + 1
      ∧ m' = mput m (streamAt dst out).toNat (formWidth dst.form) (chainA c m e (vaA w1)).toNat
  else out' = out ∧ ∃ y sat wn, laneOp row w2 c.vec (chainA c m e (vaA w1)) (chainB c w2 m e)
      (if VLink.readsD ⟨row, w1, w2⟩ then chainA c m e (vaD w1) else 0) = .val y sat wn
    ∧ m' = mput m (streamAt dst e).toNat (formWidth dst.form) y.toNat

theorem vcr_vcounts_vout (v : Vec) (sat wn : Bool) : vcr (vcounts v sat wn) 5 = vcr v 5 := (vecRest_vcounts v sat wn).cr 5 (by decide)

/-- An element of a chain of one link. -/
theorem chainElem_step {m m' : Mem} {out out' e : Nat} {x : State × Vec} (h : ChainAt s n c m out x) (hout : out < 65535)
    (ha : VLink.readsA ⟨row, w1, w2⟩ = false) (hb : VLink.readsB ⟨row, w1, w2⟩ = false)
    (hq : VLink.writesQ ⟨row, w1, w2⟩ = false) (hacc : accessFault n c e [⟨row, w1, w2⟩] = none)
    (hs : ChainStep n c row w1 w2 e m m' out out') :
    ∃ y, chainElem n c [⟨row, w1, w2⟩] false e x = .ok y ∧ ChainAt s n c m' out' y := by
  have hA := fun q => linkA_of h e q ha
  have hB := fun q => linkB_of h e q hb
  by_cases hrow : row = .vcompact
  · subst hrow
    simp only [ChainStep, if_true] at hs
    by_cases hskip : chainB c w2 m e = 0#72 ∨ chainB c w2 m e = nullLane
    · obtain ⟨rfl, rfl⟩ := (if_pos hskip).mp hs
      refine ⟨x, ?_, h⟩
      rcases hskip with hz | hz <;> simp [chainElem, hacc, compactFault, hB, chainLinks, hz]
    · obtain ⟨hok, rfl, rfl⟩ := (if_neg hskip).mp hs
      refine ⟨_, ?_, h.elemWrite (streamAt (streamOf c.vec (vaD w1)) out) (formWidth (streamOf c.vec (vaD w1)).form)
        (chainA c m e (vaA w1)) (v := setVcr x.2 5 (out + 1)) rfl rfl (vcr_setVcr_self _ (by decide) (by omega))⟩
      simp [chainElem, hacc, compactFault, hA, hB, chainLinks, h.vout, hok, hskip]
  · obtain ⟨rfl, y, sat, wn, hval, rfl⟩ := (if_neg hrow).mp hs
    refine ⟨_, ?_, h.elemWrite (streamAt (streamOf c.vec (vaD w1)) e) (formWidth (streamOf c.vec (vaD w1)).form) y
      (v := vcounts x.2 sat wn) (vcounts_v _ _ _) (vecRest_vcounts _ _ _).p ((vcr_vcounts_vout _ _ _).trans h.vout)⟩
    have hop : laneOp row w2 c.vec (chainA c m e (vaA w1)) (chainB c w2 m e) (linkD x.1 n c e 0 ⟨row, w1, w2⟩) = .val y sat wn := by
      rw [linkD_of h e hq, hval]
    simp [chainElem, hacc, compactFault, hA, hB, hop, chainLinks, hrow, hq]

theorem chainStep_out {m m' : Mem} {out out' e : Nat} (hs : ChainStep n c row w1 w2 e m m' out out') : out' ≤ out + 1 := by
  unfold ChainStep at hs
  dsimp only at hs
  split at hs
  case isTrue =>
    split at hs
    case isTrue => omega
    case isFalse => omega
  case isFalse => omega

theorem streamOf_vout (v : Vec) (x k : Nat) : streamOf (setVcr v 5 x) k = streamOf v k := by
  unfold streamOf
  rw [vcr_setVcr_ne _ _ _ (by omega), vcr_setVcr_ne _ _ _ (by omega), vcr_setVcr_ne _ _ _ (by omega), vcr_setVcr_ne _ _ _ (by omega)]
theorem destMeets_vout (v : Vec) (x k : Nat) (ls : List VLink) : destMeets (setVcr v 5 x) k ls = destMeets v k ls := by
  simp only [destMeets, streamOf_vout]

/-- A chain of one link that runs over all its elements completes. -/
theorem chainRun_one (hc : tget s.cores n = some c) {stop : Option Nat} (hstop : stop = none ∨ stop = some 0) {epc : Nat}
    (ha : VLink.readsA ⟨row, w1, w2⟩ = false) (hb : VLink.readsB ⟨row, w1, w2⟩ = false)
    (hq : VLink.writesQ ⟨row, w1, w2⟩ = false)
    (hx : vidxOf c.vec = 0) (hlen : lengthFault c.vec (streamOf c.vec (vaA w1)).count [⟨row, w1, w2⟩] = none)
    (hmeet : destMeets c.vec (streamOf c.vec (vaA w1)).count [⟨row, w1, w2⟩] = false)
    (hacc : ∀ e < (streamOf c.vec (vaA w1)).count, accessFault n c e [⟨row, w1, w2⟩] = none) {mems : Nat → Mem} {out : Nat → Nat}
    (h0 : mems 0 = c.mem) (ho : out 0 = 0)
    (hs : ∀ e < (streamOf c.vec (vaA w1)).count, ChainStep n c row w1 w2 e (mems e) (mems (e + 1)) (out e) (out (e + 1))) :
    ∃ x : State × Vec, ChainAt s n c (mems (streamOf c.vec (vaA w1)).count) (out (streamOf c.vec (vaA w1)).count) x
      ∧ chainRun s n c epc [⟨row, w1, w2⟩] stop = vecDone x.1 x.2 id := by
  have hcount : (streamOf c.vec (vaA w1)).count < 65536 := vcr_lt _ _
  have hinit : ChainAt s n c (mems 0) (out 0) (s, setVcr c.vec 5 0) := by
    rw [h0, ho]
    exact ⟨coreIs_self hc, by rw [getCore_of hc], rfl, rfl, rfl, vcr_setVcr_self _ (by decide) (by decide)⟩
  obtain ⟨x, hfold, hat, -⟩ := vecFold_range (f := chainElem n c [⟨row, w1, w2⟩] false)
    (fun e x => ChainAt s n c (mems e) (out e) x ∧ out e ≤ e) (streamOf c.vec (vaA w1)).count (fun e he x ⟨hx, hle⟩ => by
      obtain ⟨y, hy, hat⟩ := chainElem_step hx (by omega) ha hb hq (hacc e he) (hs e he)
      exact ⟨y, hy, hat, Nat.le_trans (chainStep_out (hs e he)) (by omega)⟩) ⟨hinit, Nat.le_of_eq ho⟩
  refine ⟨x, hat, ?_⟩
  have hfree : { x.1 with freeCtr := s.freeCtr } = x.1 := by rw [← hat.free]
  rcases hstop with rfl | rfl <;> simp [chainRun, hlen, destMeets_vout, hmeet, hx, hq, hfold, hfree]

/-- The commands that run a chain of one link. -/
theorem chain_issue {cmd : Instr} (h : (row, cmd) ∈ [(SRow.varith, Instr.varith n), (.vlogic, .vlogic n), (.vcmp, .vcmp n),
      (.vscale, .vscale n), (.vdot4, .vdot4 n), (.vdiv, .vdiv n 0), (.vcompact, .vcompact n), (.vhash, .vhash n), (.vconv, .vconv n),
      (row, .vectorChain n 0)])
    (hi : Issues s n c row w1 w2) (hl : isLong row w2 = true) (hq : VLink.writesQ ⟨row, w1, w2⟩ = false) :
    ∃ stop, (stop = none ∨ stop = some 0)
      ∧ exec cmd s = .next (applyRes s n c.pc.toNat (longBody s n c ⟨row, w1, w2⟩ stop)) := by
  obtain ⟨hc, hrun, hlinks, hf⟩ := hi
  have hissue : ∀ st body, issueV n row s st body = applyRes s n c.pc.toNat (longBody s n c ⟨row, w1, w2⟩ st) := fun st body => by
    simp [issueV, getCore_of hc, hrun, hf, hl, hlinks]
  simp only [List.mem_cons, Prod.mk.injEq, List.not_mem_nil, or_false, true_and] at h
  rcases h with ⟨rfl, rfl⟩ | ⟨rfl, rfl⟩ | ⟨rfl, rfl⟩ | ⟨rfl, rfl⟩ | ⟨rfl, rfl⟩ | ⟨rfl, rfl⟩ | ⟨rfl, rfl⟩ | ⟨rfl, rfl⟩
    | ⟨rfl, rfl⟩ | rfl
  case inr.inr.inr.inr.inr.inr.inr.inr.inr =>
    refine ⟨some 0, .inr rfl, next_congr ?_⟩
    simp [doVectorChain, getCore_of hc, hrun, linkAt, hf, hl, hlinks, hq]
  case inr.inr.inr.inr.inr.inl => exact ⟨some 0, .inr rfl, next_congr (hissue _ _)⟩
  all_goals exact ⟨none, .inl rfl, next_congr (hissue _ _)⟩
/-- A chain of one link is one that the link's command runs. -/
theorem longBody_one (hi : Issues s n c row w1 w2) (ha : VLink.readsA ⟨row, w1, w2⟩ = false)
    (hb : VLink.readsB ⟨row, w1, w2⟩ = false)
    (hq : VLink.writesQ ⟨row, w1, w2⟩ = false) (stop : Option Nat) :
    longBody s n c ⟨row, w1, w2⟩ stop = chainRun s n c c.pc.toNat [⟨row, w1, w2⟩] stop := by
  simp [longBody, hi.2.2.1, linkOk, ha, hb, hq]
end

/-- The commands that collect a link of a chain. -/
theorem collect_issue {s : State} {n stop : Nat} {c : Core} {row : SRow} {w1 w2 : Nat} {cmd : Instr}
    (h : (row, cmd) ∈ [(SRow.varith, Instr.varith n), (.vlogic, .vlogic n), (.vcmp, .vcmp n), (.vscale, .vscale n), (.vdot4, .vdot4 n),
      (.vdiv, .vdiv n stop), (.vhash, .vhash n), (.vconv, .vconv n)])
    (hc : tget s.cores n = some c) (hrun : c.run = .run) (hf : fetchAt n c c.pc.toNat = .ins (some row) w1 w2) (hl : vaL w2 = true) :
    ∃ st, exec cmd s = .next (applyRes s n (c.vec.links.headD c.pc.toNat) (longBody s n c ⟨row, w1, w2⟩ st)) := by
  have hissue : isLong row w2 = true → ∀ st body, issueV n row s st body
      = applyRes s n (c.vec.links.headD c.pc.toNat) (longBody s n c ⟨row, w1, w2⟩ st) := fun hlong st body => by
    simp [issueV, getCore_of hc, hrun, hf, hlong]
  simp only [List.mem_cons, Prod.mk.injEq, List.not_mem_nil, or_false] at h
  rcases h with ⟨rfl, rfl⟩ | ⟨rfl, rfl⟩ | ⟨rfl, rfl⟩ | ⟨rfl, rfl⟩ | ⟨rfl, rfl⟩ | ⟨rfl, rfl⟩ | ⟨rfl, rfl⟩
    | ⟨rfl, rfl⟩ <;>
    exact ⟨_, next_congr (hissue (by simp [isLong, hl]) _ _)⟩

/-- Settles O15: a link that writes Q is collected; a chain of one link runs by the invariant of its elements. -/
theorem chainsCollectAndRun : Obligations.ChainsCollectAndRun := by
  unfold Obligations.ChainsCollectAndRun
  refine ⟨?collect, ?run⟩
  case collect =>
    intro s n stop c w1 w2 row cmd hcmd hc hrun hf hl hq hok
    obtain ⟨st, hexec⟩ := collect_issue hcmd hc hrun hf hl
    rw [hexec]
    refine next_congr ?_
    simp only [longBody, hok, hq, Bool.not_true, Bool.false_eq_true, if_false, if_true]
    exact applyRes_done hc hrun _ _
  case run =>
    intro s n c w1 w2 row cmd hcmd hi hl l count dst ha hb hq hx hlen hmeet hacc mems out rd a b h0 ho hs
    obtain ⟨stop, hstop, hexec⟩ := chain_issue hcmd hi hl hq
    obtain ⟨x, hat, hchain⟩ := chainRun_one (epc := c.pc.toNat) hi.1 hstop ha hb hq hx hlen hmeet hacc h0 ho hs
    rw [hexec, longBody_one hi ha hb hq, hchain, hat.core.applyRes_vecDone hi.2.1]
    exact ⟨_, rfl, rfl, vidxOf_vecCore _ _, rfl, rfl, (vcr_vecCore _ _ (by decide)).trans hat.vout, rfl, rfl, rfl, hat.lanes, hat.preds⟩

end Sys2Proof.Machine

/-! # Host queues: doorbells, completions, fetching, commit points (chapter 14) -/

namespace Sys2Proof.Machine
open Sys2Proof Sys2Proof.Safety

/-! ## Doorbells (R285, R288, R289) -/

theorem getQ_qm_congr {s t : State} (h : t.qm.queues = s.qm.queues) (d : Nat) : getQ t d = getQ s d := by rw [getQ, getQ, h]

/-- Places that no element of a list writes keep their entry. -/
theorem tget_foldl_tset_ne {α : Type} (p : Nat → Bool) (pos : Nat → Nat) (f : Nat → α) (l : List Nat) (t : Tab α) {k : Nat}
    (h : ∀ j ∈ l, pos j ≠ k) : tget (l.foldl (fun t j => if p j then tset t (pos j) (f j) else t) t) k = tget t k := by
  induction l generalizing t with
  | nil => rfl
  | cons j l ih =>
    rw [List.foldl_cons, ih _ fun i hi => h i (List.mem_cons_of_mem _ hi)]
    split
    · exact tget_tset_ne _ _ _ _ (h j List.mem_cons_self).symm
    · rfl
/-- A place that one element of a list writes holds what it wrote. -/
theorem tget_foldl_tset {α : Type} (p : Nat → Bool) (pos : Nat → Nat) (f : Nat → α) (l : List Nat) (hl : l.Nodup)
    (t : Tab α) {i : Nat} (hi : i ∈ l) (hinj : ∀ j ∈ l, pos j = pos i → j = i) (hp : p i = true) :
    tget (l.foldl (fun t j => if p j then tset t (pos j) (f j) else t) t) (pos i) = some (f i) := by
  induction l generalizing t with
  | nil => cases hi
  | cons j l ih =>
    obtain ⟨hj, hl⟩ := List.nodup_cons.mp hl
    rw [List.foldl_cons]
    rcases List.mem_cons.mp hi with rfl | hi
    · rw [tget_foldl_tset_ne p pos f l _ fun k hk hpos => hj (hinj k (List.mem_cons_of_mem _ hk) hpos ▸ hk), if_pos hp]
      exact tget_tset_self _ _ _
    · exact ih hl _ hi fun k hk => hinj k (List.mem_cons_of_mem _ hk)
/-- Slots of a ring before a position are as many as their distance. -/
theorem ring_pos_inj {base size n i j : Nat} (hn : n ≤ size) (hi : i < n) (hj : j < n) (h : (base + i) % size = (base + j) % size) :
    i = j := by
  have hle {i j : Nat} (hj : j < n) (h : (base + i) % size = (base + j) % size) : j ≤ i := by
    have hsub : (base + j - (base + i)) % size = 0 := Nat.sub_mod_eq_zero_of_mod_eq h.symm
    rw [Nat.add_sub_add_left, Nat.mod_eq_of_lt (by omega)] at hsub
    omega
  exact Nat.le_antisymm (hle hi h.symm) (hle hj h)

section
variable {s : State} {fn q v d : Nat} {slots : List (List Byte)}

theorem sqSize_modQ (s : State) (d e : Nat) (f : HostQ → HostQ) : sqSize (modQ s d f) e = sqSize s e := rfl
theorem unfetched_page (s : State) (d pos tail : Nat) (slots : List (List Byte)) :
    unfetched (modQ s d (fun x => { x with page := pageWrite x.page slots })) d pos tail = unfetched s d pos tail := by
  unfold unfetched
  rw [getQ_modQ_self]
  rfl
/-- The inline copies after a doorbell to `tail` with `n` slots. -/
def inlineCopies (s : State) (d tail n : Nat) (slots : List (List Byte)) : Tab (List Byte) :=
  (List.range n).foldl (fun t i => if unfetched s d ((tail + sqSize s d - n + i) % sqSize s d) tail
    then tset t ((tail + sqSize s d - n + i) % sqSize s d) (pageSlot (pageWrite (getQ s d).page slots) i) else t) (getQ s d).inl
/-- A queue that took a doorbell. -/
def rungQueue (s : State) (d tail n : Nat) (slots : List (List Byte)) : HostQ :=
  { getQ s d with
    page := pageWrite (getQ s d).page slots, tail := tail, inl := inlineCopies s d tail n slots, notOwnWait := false }
theorem doSqDb_of (hlive : liveQueue s fn q = some d) (htail : fld v 15 0 < sqSize s d) (hn : fld v 18 16 ≤ 4) :
    doSqDb fn q v slots s = setQ (modQ s d (fun x => { x with page := pageWrite x.page slots })) d
      (rungQueue s d (fld v 15 0) (fld v 18 16) slots) := by
  have hcond : ¬ (fld v 15 0 ≥ sqSize s d ∨ fld v 18 16 > 4) := by omega
  simp only [doSqDb, hlive, sqSize_modQ, if_neg hcond, getQ_modQ_self, unfetched_page]
  rw [modQ, getQ_modQ_self]
  rfl
theorem doSqDb_bad (hlive : liveQueue s fn q = some d) (hbad : fld v 15 0 ≥ sqSize s d ∨ fld v 18 16 > 4) :
    doSqDb fn q v slots s = modQ s d (fun x => { x with page := pageWrite x.page slots }) := by
  simp only [doSqDb, hlive, sqSize_modQ]
  exact if_pos hbad
theorem doCqDb_bad (hlive : liveQueue s fn q = some d) (hbad : fld v 15 0 ≥ cqSize s d) : doCqDb fn q v s = s := by
  simp only [doCqDb, hlive]
  exact if_pos hbad
theorem tget_inlineCopies {tail n i : Nat} (hn : n ≤ sqSize s d) (hi : i < n)
    (hu : unfetched s d ((tail + sqSize s d - n + i) % sqSize s d) tail = true) :
    tget (inlineCopies s d tail n slots) ((tail + sqSize s d - n + i) % sqSize s d)
      = some (pageSlot (pageWrite (getQ s d).page slots) i) :=
  tget_foldl_tset (fun i => unfetched s d ((tail + sqSize s d - n + i) % sqSize s d) tail)
    (fun i => (tail + sqSize s d - n + i) % sqSize s d) _ _ List.nodup_range _ (List.mem_range.mpr hi)
    (fun _ hj h => ring_pos_inj hn (List.mem_range.mp hj) hi h) hu

/-- A queue that QUEUE_ENABLE made ACTIVE. -/
def enabledQueue (x : HostQ) : HostQ :=
  { x with st := .active, head := 0, tail := 0, inl := [], notOwnWait := false, cqTail := 0, cqHead := 0, parityFrozen := false }
variable {p : Path}
theorem doQueueEnable_active (hdev : devQueue s (pathFn p) (fld (selGet s p Reg.QM_Q_SEL) 11 0) = some d) (hv : bitOf v 31 = true)
    (hst : (getQ s d).st = .disabled) (herr : enableErr s (pathFn p) (fld (selGet s p Reg.QM_Q_SEL) 11 0) d = 0) :
    doQueueEnable p v s = modQ s d enabledQueue := by
  simp [doQueueEnable, hdev, hv, hst, herr]
  rfl
theorem doQueueEnable_error (hdev : devQueue s (pathFn p) (fld (selGet s p Reg.QM_Q_SEL) 11 0) = some d) (hv : bitOf v 31 = true)
    (hst : (getQ s d).st = .disabled) (herr : enableErr s (pathFn p) (fld (selGet s p Reg.QM_Q_SEL) 11 0) d ≠ 0) :
    doQueueEnable p v s
      = modQ s d (fun x => { x with ctlErr := enableErr s (pathFn p) (fld (selGet s p Reg.QM_Q_SEL) 11 0) d }) := by
  simp [doQueueEnable, hdev, hv, hst, herr]
theorem doQueueEnable_kept (hdev : devQueue s (pathFn p) (fld (selGet s p Reg.QM_Q_SEL) 11 0) = some d)
    (h : bitOf v 31 = false ∨ (getQ s d).st ≠ .disabled) : doQueueEnable p v s = s := by
  rcases h with h | h <;> simp [doQueueEnable, hdev, h]
end

/-- Settles O16: the doorbells by the case of their values, QUEUE_ENABLE by its checks. -/
theorem doorbellsMoveTheirRings : Obligations.DoorbellsMoveTheirRings := by
  unfold Obligations.DoorbellsMoveTheirRings
  refine ⟨fun s fn q v slots d => ⟨?dead, ?sqBad, ?cqBad, ?sq, ?cq⟩, ?ctl⟩
  case dead => exact fun hlive => ⟨next_congr (by simp only [doSqDb, hlive]), next_congr (by simp only [doCqDb, hlive])⟩
  case sqBad => exact fun hlive hbad => next_congr (doSqDb_bad hlive hbad)
  case cqBad => exact fun hlive hbad => next_congr (doCqDb_bad hlive hbad)
  case sq =>
    intro hlive htail hn4 hn
    refine ⟨_, next_congr (doSqDb_of hlive htail hn4), ?_⟩
    rw [getQ_setQ_self]
    refine ⟨rfl, rfl, rfl, rfl, fun e he => ?_, rfl, fun i hi hu => tget_inlineCopies hn hi hu⟩
    rw [getQ_setQ_ne _ _ _ _ he, getQ_modQ_ne _ _ _ _ he]
  case cq => exact fun hlive hhead => next_congr (doCqDb_of hlive hhead)
  case ctl =>
    intro s p v d hreach u hdev
    have hexec : exec (.queueEnable p v) s = .next (doQueueEnable p v u) := next_congr (rowWriteVal_of hreach v _)
    refine ⟨fun hv hst herr => ?_, fun hv hst herr => ?_, fun h => ?_⟩
    · refine ⟨_, hexec.trans (next_congr (doQueueEnable_active hdev hv hst herr)), ?_⟩
      rw [getQ_modQ_self]
      exact ⟨rfl, rfl, rfl, rfl, rfl, fun e he => getQ_modQ_ne _ _ _ _ he⟩
    · refine ⟨_, hexec.trans (next_congr (doQueueEnable_error hdev hv hst herr)), ?_⟩
      rw [getQ_modQ_self]
      exact ⟨hst, rfl⟩
    · exact hexec.trans (next_congr (doQueueEnable_kept hdev h))

/-! ## Completions and consuming (R291, R296, R298, R301) -/

section
variable {s : State} {r : Nat} {e : CqEntry}

theorem placeEntry_free (ho : (getQ s r).overflow = []) (hf : ringFull s r = false) : placeEntry s r e = ringPut s r e := by
  simp [placeEntry, ho, hf]
theorem fnEvent_host (s : State) (fn : Nat) : (fnEvent s fn).host = s.host := by unfold fnEvent; split <;> simp
theorem getQ_fnEvent (s : State) (fn d : Nat) : getQ (fnEvent s fn) d = getQ s d := by unfold fnEvent; split <;> simp
/-- An entry that finds no place goes behind the overflow entries, and the first of them may signal (R301). -/
theorem placeEntry_waits (h : (getQ s r).overflow ≠ [] ∨ ringFull s r = true) :
    (getQ (placeEntry s r e) r).overflow = (getQ s r).overflow ++ [e] ∧ (placeEntry s r e).host = s.host := by
  have hcond : ((getQ s r).overflow.isEmpty && ! ringFull s r) = false := by
    rcases h with h | h <;> simp [h]
  simp only [placeEntry, hcond, Bool.false_eq_true, if_false]
  split
  · exact ⟨by rw [getQ_fnEvent, getQ_setQ_self], fnEvent_host _ _⟩
  · exact ⟨by rw [getQ_setQ_self], rfl⟩
end

/-- The queue that a descriptor was consumed from. -/
def consumedQueue (s : State) (d : Nat) : HostQ :=
  { getQ s d with
    head := ((getQ s d).head + 1) % sqSize s d, inl := terase (getQ s d).inl (getQ s d).head, fetched := satAdd 32 (getQ s d).fetched 1 }
theorem queues_consume (s : State) (d : Nat) (desc : List Byte) :
    (consume s d desc).qm.queues = tset s.qm.queues d (consumedQueue s d) := rfl
theorem getQ_consume_self (s : State) (d : Nat) (desc : List Byte) : getQ (consume s d desc) d = consumedQueue s d := by
  rw [getQ, queues_consume, tgetD_tset_self]
theorem getQ_consume_ne (s : State) {d e : Nat} (desc : List Byte) (h : e ≠ d) : getQ (consume s d desc) e = getQ s e := by
  rw [getQ, queues_consume, tgetD_tset_ne _ _ _ _ _ h, getQ]
theorem host_consume (s : State) (d : Nat) (desc : List Byte) :
    (consume s d desc).host = mput s.host (sqBase s d + 64 * (getQ s d).head) 8 (leAt desc 0 8 % 2 ^ 63) := rfl

/-- Settles O18: an entry by whether its ring has room, and the OWN bit of the slot that consuming writes. -/
theorem completionsAreWrittenWhole : Obligations.CompletionsAreWrittenWhole := by
  unfold Obligations.CompletionsAreWrittenWhole
  refine ⟨fun s r e => ⟨?placed, ?waits, ?own⟩, ?consumed⟩
  case placed =>
    intro ho hf
    rw [placeEntry_free ho hf, ringPut_host]
    obtain ⟨u, a, hq⟩ := getQ_ringPut_self s r e
    refine ⟨?_, by rw [hq], fun x hx => ?_⟩
    · have hself := mreads_mwrite_self s.host (cqBase s r + 32 * (getQ s r).cqTail) (entryBytes e)
      rwa [entryBytes_length] at hself
    · exact (mread_mwrite _ _ _ _).trans (if_neg (by rw [entryBytes_length]; omega))
  case waits => exact placeEntry_waits
  case own =>
    intro it n
    simp only [cqEntryOf]
    omega
  case consumed =>
    intro s d desc t
    refine ⟨?_, by rw [getQ_consume_self]; rfl, fun a ha => mread_mput_out _ _ _ _ _ ha, fun e he => getQ_consume_ne _ _ he⟩
    rw [host_consume, mnat_mput_self]
    omega

/-! ## Fetching and the timed events (R166, R168, R290, R304, R305, R310) -/

theorem removeKey_floor_le (s : State) (k : IKeyEnt) (c : Nat) : tgetD s.qm.floors c 0 ≤ tgetD (removeKey s k).qm.floors c 0 := by
  simp only [removeKey]
  rcases Decidable.em (c = k.fn * 65536 + fld k.ikey 63 48) with rfl | hne
  · rw [tgetD_tset_self]
    exact Nat.le_max_left _ _
  · exact Nat.le_of_eq (tgetD_tset_ne _ _ _ _ _ hne).symm
theorem foldl_removeKey_floor_le (ks : List IKeyEnt) (s : State) (c : Nat) :
    tgetD s.qm.floors c 0 ≤ tgetD (ks.foldl removeKey s).qm.floors c 0 := by
  induction ks generalizing s with
  | nil => exact Nat.le_refl _
  | cons k ks ih => exact Nat.le_trans (removeKey_floor_le s k c) (ih _)
theorem foldl_removeKey_subset (ks : List IKeyEnt) (s : State) : (ks.foldl removeKey s).qm.ikeys ⊆ s.qm.ikeys := by
  induction ks generalizing s with
  | nil => exact List.Subset.refl _
  | cons k ks ih => exact List.Subset.trans (ih _) (fun _ hx => (List.mem_filter.mp hx).1)
/-- A key that was removed is gone, and its floor is not below it. -/
theorem foldl_removeKey_mem {ks : List IKeyEnt} (s : State) {k : IKeyEnt} (hk : k ∈ ks) :
    k ∉ (ks.foldl removeKey s).qm.ikeys
      ∧ fld k.ikey 47 0 ≤ tgetD (ks.foldl removeKey s).qm.floors (k.fn * 65536 + fld k.ikey 63 48) 0 := by
  induction ks generalizing s with
  | nil => cases hk
  | cons j ks ih =>
    rcases List.mem_cons.mp hk with rfl | hk
    · refine ⟨fun hmem => ?_, Nat.le_trans ?_ (foldl_removeKey_floor_le ks _ _)⟩
      · have hfilter := (List.mem_filter.mp (foldl_removeKey_subset ks _ hmem)).2
        simp at hfilter
      · simp only [removeKey, tgetD_tset_self]
        exact Nat.le_max_right _ _
    · exact ih _ hk

/-- A held descriptor that is admitted. -/
theorem retryHeld_of {s s' : State} {p : HeldDesc → Bool} {h : HeldDesc}
    (hfind : s.qm.held.find? (fun h => p h && mayConsume s h.queue) = some h) (hcheck : checkIn s h.queue h.desc = (s', none)) :
    retryHeld s p = s' := by
  simp only [retryHeld, hfind, hcheck]

/-- Settles O19: each event by its definition, the expiry by what removing keys leaves. -/
theorem queueEngineCompletes : Obligations.QueueEngineCompletes := by
  unfold Obligations.QueueEngineCompletes
  refine fun s => ⟨?fetch, ?held, ?key, ?expiry, ?signal⟩
  case fetch => exact fun d h => next_congr (by simp only [doDescriptorFetch, h])
  case held => exact fun h s' hfind hcheck => next_congr (retryHeld_of hfind hcheck)
  case key => exact fun h s' hfind hcheck => next_congr (retryHeld_of hfind hcheck)
  case expiry =>
    have hmem : ∀ k ∈ s.qm.ikeys, k.item = none → k.doneAt + rfld s Reg.QM_IKEY_CTL 0 11 0 * 1000000000 ≤ now s →
        k ∈ s.qm.ikeys.filter (fun k => k.item.isNone && k.doneAt + rfld s Reg.QM_IKEY_CTL 0 11 0 * 1000000000 ≤ now s) :=
      fun k hk hn hd => List.mem_filter.mpr ⟨hk, by simp [hn, hd]⟩
    exact ⟨_, rfl, fun k hk hn hd => (foldl_removeKey_mem s (hmem k hk hn hd)).1,
      fun k hk hn hd => (foldl_removeKey_mem s (hmem k hk hn hd)).2, fun c => foldl_removeKey_floor_le _ s c⟩
  case signal => exact fun d hu hd => next_congr (if_pos ⟨hu, hd⟩)

/-! ## Commit points (R78, R300, R303, R312) -/

section
variable {s : State} {id : Nat} {it : Item}

theorem getItem_of_itemAt {op sub : Nat} (h : itemAt s id op sub = some it) : getItem s id = some it := by
  unfold itemAt at h
  split at h
  case h_1 it' hit =>
    split at h
    case isTrue => exact hit.trans h
    case isFalse => cases h
  case h_2 => cases h
theorem doCommitPoint_ready (hit : getItem s id = some it) (hp : it.phase = .ready) (hst : it.status = 0) (hdup : it.isDup = false)
    (htile : itemOnTile s it = true) (hmay : orderedMay s id it = true) (hmove : dataMoving s id = false) :
    doCommitPoint id s = if hasPlace (modItem (commitResults s id it) id (fun x => { x with reachedAt := now s })) it
      then releaseNow (modItem (commitResults s id it) id (fun x => { x with reachedAt := now s })) id it
      else modItem (modItem (commitResults s id it) id (fun x => { x with reachedAt := now s })) id
        (fun x => { x with phase := .held }) := by
  simp [doCommitPoint, hit, hp, hst, hdup, htile, hmay, hmove]
end

/-- Settles O20: each phase of an item by its branch of the commit point. -/
theorem itemsReachTheirCommitPoint : Obligations.ItemsReachTheirCommitPoint := by
  unfold Obligations.ItemsReachTheirCommitPoint
  refine fun s id it => ⟨?nop, ?ready, ?held, ?failed, ?committed⟩
  case nop =>
    intro h
    have hnop : doNop id s = itemReady s id 0 0 := by simp only [doNop, h]
    exact ⟨_, next_congr hnop, rfl, getItem_modItem_self (getItem_of_itemAt h) _, fun j hj => getItem_modItem_ne _ _ _ _ hj⟩
  case ready =>
    refine fun hit hp hst hdup => ⟨fun htile hmay hmove => ?_, fun h => next_congr ?_⟩
    · have hcommit := doCommitPoint_ready hit hp hst hdup htile hmay hmove
      exact ⟨fun hplace => next_congr (hcommit.trans (if_pos hplace)),
        fun hplace => next_congr (hcommit.trans (if_neg (by simp [hplace])))⟩
    · rcases h with h | h <;> simp [doCommitPoint, hit, hp, hst, hdup, h]
  case held => exact fun hit hp hplace => next_congr (by simp [doCommitPoint, hit, hp, hplace])
  case failed => exact fun hit hp hbad hc => next_congr (by rcases hbad with h | h <;> simp [doCommitPoint, hit, hp, h, hc])
  case committed => exact fun hit hp he hc => next_congr (by simp [doCommitPoint, hit, hp, he, hc])

end Sys2Proof.Machine

/-! # Plans and their runs (chapter 4) -/

namespace Sys2Proof.Machine
open Sys2Proof Sys2Proof.Safety

/-! ## What a write of DRAM leaves -/

theorem scratchLine_rest (s : State) (a : Nat) (bs : List Byte) : ∃ p m, scratchLine s a bs = { s with dram := m, poison := p } := by
  unfold scratchLine
  split
  · exact ⟨s.poison, s.dram, rfl⟩
  · exact ⟨_, _, rfl⟩
/-- A write of DRAM or of scratch changes memory, and what the memory side notes of it. -/
theorem dramWrite_rest (s : State) (part a : Nat) (bs : List Byte) :
    ∃ c p d m, dramWrite s part a bs = { s with dram := m, cache := c, poison := p, dmc := d } := by
  by_cases ha : a < scratchBase
  case pos =>
    obtain ⟨c, p, d, h⟩ := dramWrite_frame s part a bs ha
    exact ⟨c, p, d, _, h⟩
  case neg =>
    rw [dramWrite, if_pos (Nat.le_of_not_lt ha), scratchStore]
    split
    case isTrue => exact ⟨s.cache, _, s.dmc, _, rfl⟩
    case isFalse =>
      generalize List.range (lineEnd a bs.length - a / 128) = l
      suffices h : ∀ (t : State), (∃ c p d m, t = { s with dram := m, cache := c, poison := p, dmc := d }) →
          ∃ c p d m, l.foldl _ t = { s with dram := m, cache := c, poison := p, dmc := d } from
        h s ⟨s.cache, s.poison, s.dmc, s.dram, rfl⟩
      induction l with
      | nil => exact fun t h => h
      | cons i l ih =>
        rintro t ⟨c, p, d, m, rfl⟩
        obtain ⟨p', m', h⟩ := scratchLine_rest { s with dram := m, cache := c, poison := p, dmc := d } (max a ((a / 128 + i) * 128))
          ((bs.drop (max a ((a / 128 + i) * 128) - a)).take
            (min (a + bs.length) ((a / 128 + i + 1) * 128) - max a ((a / 128 + i) * 128)))
        exact ih _ ⟨c, p', d, m', h⟩
theorem plans_dramWrite (s : State) (part a : Nat) (bs : List Byte) : (dramWrite s part a bs).plans = s.plans := by
  obtain ⟨c, p, d, m, h⟩ := dramWrite_rest s part a bs
  rw [h]

/-! ## Plans (R68 to R70, R84) -/

section
variable {s : State} {id : Nat} {it : Item} {fn pid : Nat} {p : Plan}

theorem getPlan_setPlan_self (s : State) (fn : Nat) {pid : Nat} (p : Plan) (h : pid < 1024) :
    getPlan (setPlan s fn pid p) fn pid = some p := by
  rw [getPlan, if_pos h]
  exact tget_tset_self _ _ _
theorem getPlan_dropPlan (s : State) (fn pid : Nat) : getPlan (dropPlan s fn pid) fn pid = none := by
  unfold dropPlan
  cases h : getPlan s fn pid with
  | none => exact h
  | some p =>
    unfold getPlan
    split
    · exact tget_terase_self _ _
    · rfl
theorem freeCtr_dropPlan (s : State) (fn pid : Nat) : (dropPlan s fn pid).freeCtr = s.freeCtr := by
  unfold dropPlan
  split <;> rfl

theorem planState_startUnload (hle : pid ≤ 1023) (h : planState s fn pid = 2 ∨ planState s fn pid = 3) (us : List Nat) :
    planState (startUnload s fn pid us) fn pid = 4 := by
  have hlt : pid < 1024 := by omega
  cases hp : getPlan s fn pid with
  | none => simp [planState, hp] at h
  | some p =>
    have hget : getPlan (startUnload s fn pid us) fn pid = some { p with st := 4, unloaders := p.unloaders ++ us } := by
      simp only [startUnload, hp]
      exact getPlan_setPlan_self s fn _ hlt
    rw [planState, hget]
    rfl
theorem unbound_startUnload (h : planState s fn pid = 2 ∨ planState s fn pid = 3) (us : List Nat) :
    ∀ l ∈ (startUnload s fn pid us).ing.layouts, l.2.bound ≠ some (fn, pid) := by
  cases hp : getPlan s fn pid with
  | none => simp [planState, hp] at h
  | some p =>
    intro l hl
    simp only [startUnload, hp, unbindLayout] at hl
    obtain ⟨x, -, rfl⟩ := List.mem_map.mp hl
    split
    case isTrue => simp
    case isFalse hne => exact hne
theorem plans_deadlineCheck (s : State) (it : Item) (n : Nat) : (deadlineCheck s it n).plans = s.plans := by
  unfold deadlineCheck logEvent
  dsimp only
  split
  · split
    · split <;> rfl
    · rfl
  · rfl
theorem planState_congr {s t : State} (h : t.plans = s.plans) (fn pid : Nat) : planState t fn pid = planState s fn pid := by
  rw [planState, planState, getPlan, getPlan, h]
theorem doUnloadPlan_absent (hit : itemAt s id 0x03 0 = some it) (hle : it.body 32 2 ≤ 1023)
    (h : planState s it.fn (it.body 32 2) = 0 ∨ planState s it.fn (it.body 32 2) = 4) :
    doUnloadPlan id s = failItem s id St.planNotLoaded 0 0 := by
  simp only [doUnloadPlan, hit, if_neg (Nat.not_lt.mpr hle)]
  rcases h with h | h <;> simp only [h]
/-- A plan that is READY or BOUND enters UNLOADING at the item's turn. -/
theorem doUnloadPlan_loaded (hit : itemAt s id 0x03 0 = some it) (hle : it.body 32 2 ≤ 1023)
    (h : planState s it.fn (it.body 32 2) = 2 ∨ planState s it.fn (it.body 32 2) = 3) (hmay : orderedMay s id it = true) :
    doUnloadPlan id s = schedule (leaveFlow (endEntries (modItem (startUnload (deadlineCheck s it (now s)) it.fn (it.body 32 2) [id]) id
      (fun x => { x with phase := .committed, entry := none })) id) it.fn it.flowKey id) := by
  simp only [doUnloadPlan, hit, if_neg (Nat.not_lt.mpr hle)]
  rcases h with h | h <;> simp only [h, doUnloadPlan.unload, hmay, Bool.not_true, Bool.false_eq_true, if_false]
end

/-- Settles O21: LOAD_PLAN by its checks, UNLOAD_PLAN by the plan's state, UNLOAD_COMPLETE by its items. -/
theorem plansLoadAndUnload : Obligations.PlansLoadAndUnload := by
  unfold Obligations.PlansLoadAndUnload
  refine ⟨fun s id it hit => ⟨?early, ?image, ?tables⟩, fun s id it hit => ⟨?number, ?loading, ?absent, ?unload⟩,
    fun s fn pid p hp hst => ⟨?drop, fun _ => getPlan_dropPlan s fn pid, ?one, ?busy⟩⟩
  case early => exact fun st h => next_congr (by simp only [doLoadPlan, hit, h])
  case image => exact fun hearly st h => next_congr (by simp only [doLoadPlan, hit, hearly, h])
  case tables =>
    exact fun hearly himg => ⟨fun t h => next_congr (by simp only [doLoadPlan, hit, hearly, himg, h]),
      fun h => next_congr (by simp only [doLoadPlan, hit, hearly, himg, h]; rfl)⟩
  case number => exact fun h => next_congr (by simp only [doUnloadPlan, hit]; exact if_pos h)
  case loading =>
    intro hle h
    exact next_congr (by simp only [doUnloadPlan, hit, if_neg (Nat.not_lt.mpr hle), h])
  case absent =>
    exact fun hle h => next_congr (doUnloadPlan_absent hit hle h)
  case unload =>
    intro hle h hmay
    have hplans := planState_congr (plans_deadlineCheck s it (now s)) it.fn (it.body 32 2)
    refine ⟨next_congr (doUnloadPlan_loaded hit hle h hmay), ?_, ?_⟩
    · exact planState_startUnload (s := deadlineCheck s it (now s)) hle (by rwa [hplans]) [id]
    · exact unbound_startUnload (s := deadlineCheck s it (now s)) (by rwa [hplans]) [id]
  case drop => exact fun hact hu => next_congr (by simp only [doUnloadComplete, hp, if_pos (And.intro hst hact), hu, List.foldl_nil])
  case one =>
    intro u hact hu
    refine ⟨(freeRes (dropPlan s fn pid)).1, (freeRes (freeRes (dropPlan s fn pid)).2).1, next_congr ?_⟩
    simp only [doUnloadComplete, hp, if_pos (And.intro hst hact), hu, List.foldl_cons, List.foldl_nil]
    simp only [freeRes, freeCtr_dropPlan]
  case busy => exact fun hact => next_congr (by simp only [doUnloadComplete, hp]; exact if_neg fun h => hact h.2)

/-! ## Runs, grants and checkpoints (R73 to R79, R85, R168) -/

theorem mem_insertBy {α : Type} (le : α → α → Bool) (x y : α) (xs : List α) : y ∈ insertBy le x xs ↔ y = x ∨ y ∈ xs := by
  induction xs with
  | nil => simp [insertBy]
  | cons z zs ih =>
    rw [insertBy]
    split
    · simp
    · simp only [List.mem_cons, ih]
      grind
theorem mem_sortBy {α : Type} (le : α → α → Bool) (y : α) (xs : List α) : y ∈ sortBy le xs ↔ y ∈ xs := by
  induction xs with
  | nil => rfl
  | cons x xs ih =>
    rw [sortBy, List.foldr_cons, mem_insertBy, ← sortBy, ih, List.mem_cons]

/-- Items that cannot be granted are passed over. -/
theorem grantAll_none {s : State} {l : List Nat} (h : ∀ j ∈ l, grantItem s j = none) (post : List Nat) :
    grantAll s (l ++ post) = grantAll s post := by
  induction l with
  | nil => rfl
  | cons j l ih =>
    have hstep : grantAll s ((j :: l) ++ post) = grantAll s (l ++ post) := by
      simp only [grantAll, List.cons_append, List.foldl_cons, h j List.mem_cons_self]
    rw [hstep, ih fun i hi => h i (List.mem_cons_of_mem _ hi)]
theorem grantAll_cons {s t : State} {id : Nat} (h : grantItem s id = some t) (post : List Nat) :
    grantAll s (id :: post) = grantAll { t with plans := { t.plans with grantWait := t.plans.grantWait.filter (· != id) } } post := by
  simp only [grantAll, List.foldl_cons, h]

section
variable {s : State} {id k : Nat} {r : Run} {t : Task}

theorem getRun_of_getTask (h : getTask s id k = some t) : ∃ r, getRun s id = some r ∧ tget r.tasks k = some t := by
  unfold getTask at h
  cases hr : getRun s id with
  | none => simp [hr] at h
  | some r => exact ⟨r, rfl, by simpa [hr] using h⟩
theorem getTask_of_getRun (hr : getRun s id = some r) (ht : tget r.tasks k = some t) : getTask s id k = some t := by
  rw [getTask, hr]
  exact ht
/-- A task just changed, in its run. -/
theorem modTask_of (hr : getRun s id = some r) (ht : tget r.tasks k = some t) (f : Task → Task) :
    getRun (modTask s id k f) id = some { r with tasks := tset r.tasks k (f t) } ∧ getTask (modTask s id k f) id k = some (f t) := by
  have hrun : getRun (modTask s id k f) id = some { r with tasks := tset r.tasks k (f t) } := by
    simp only [modTask, hr, tupd_some ht, getRun_setRun_self]
  exact ⟨hrun, getTask_of_getRun hrun (tget_tset_self _ _ _)⟩
theorem dram_modTask (s : State) (id k : Nat) (f : Task → Task) : (modTask s id k f).dram = s.dram := by
  unfold modTask
  split <;> rfl
theorem getRun_congr {u : State} (h : u.plans = s.plans) (id : Nat) : getRun u id = getRun s id := by rw [getRun, getRun, h]
theorem plans_writeLines (s : State) (r : Run) (g : Image) (t : Task) (st : TaskSt) : (writeLines s r g t st).plans = s.plans := by
  simp only [writeLines]
  generalize dirtyLines _ _ = l
  induction l generalizing s with
  | nil => rfl
  | cons x l ih => exact (ih _).trans (plans_dramWrite _ _ _ _)
theorem plans_ckptIrq (s : State) (id k : Nat) : (ckptIrq s id k).plans = s.plans := by
  unfold ckptIrq
  split <;> rfl

theorem doCheckpointTimer_of (hr : getRun s id = some r) (ht : getTask s id k = some t) (hruns : taskRuns s id k = true)
    (hend : t.ended = false) (hw : t.writing = none) (hdue : t.since + 1000 * (planImage s r.fn r.planId).ckptUs ≤ now s) :
    doCheckpointTimer id k s = modTask (writeLines (ckptIrq s id k) r (planImage s r.fn r.planId) t (ckState t).1) id k
      (fun x => { x with
        writing := some (ckState t).1, unitsW := (ckState t).2, rangesW := x.ranges.length, since := now s
        ctxW := if now s ≥ t.since + 1000 * (planImage s r.fn r.planId).ckptUs + 64000 then some (tileContext s t.tile) else none
        blockSt := if x.mark.isNone then x.st else x.blockSt, blockUnits := if x.mark.isNone then x.units.length else x.blockUnits }) := by
  simp [doCheckpointTimer, hr, ht, hruns, hend, hw, hdue]
theorem doCheckpointComplete_of (hr : getRun s id = some r) (ht : getTask s id k = some t) {w : TaskSt} (hw : t.writing = some w)
    (hm : w.marks = []) : doCheckpointComplete id k s
      = modTask (setRun (writeRecord s r (planImage s r.fn r.planId) t) id { r with checkpoints := r.checkpoints + 1 }) id k
        (fun t => { t with
          ck := w, ctxCk := t.ctxW, writing := none, ctxW := none, ckSeq := t.ckSeq + 1,
          units := t.units.drop t.unitsW, ranges := t.ranges.drop t.rangesW, blockUnits := t.blockUnits - t.unitsW,
          mark := t.mark.map (fun m => (m.1, m.2 - t.unitsW)), unitsW := 0, rangesW := 0 }) := by
  simp only [doCheckpointComplete, hr, ht, hw, hm, List.foldl_nil]
end

section
variable {s : State} {id : Nat} {it : Item}

/-- RUN_PLAN of an item whose turn it is, by the answer of its checks. -/
theorem doRunPlan_error (hit : getItem s id = some it) (hop : it.opcode = 0x01) (hp : it.phase = .queued) (hmsg : it.msg = none)
    (hdup : it.dupOf = none) (hhead : headOfFlow s id it = true) (hab : it.abortBy = [])
    (hst : planState s it.fn (it.body 32 2) ≠ 1) {st : Nat} (hc : runCheck s it = .error st) :
    doRunPlan id s = failItem (writeArea s (newRun it) (now s)) id st 0 0 := by
  simp [doRunPlan, hit, hop, hp, hmsg, hdup, hhead, hab, hst, hc]
theorem doRunPlan_ok (hit : getItem s id = some it) (hop : it.opcode = 0x01) (hp : it.phase = .queued) (hmsg : it.msg = none)
    (hdup : it.dupOf = none) (hhead : headOfFlow s id it = true) (hab : it.abortBy = [])
    (hst : planState s it.fn (it.body 32 2) ≠ 1) {binds : List Bind} (hc : runCheck s it = .ok binds) :
    ∃ nsegs, doRunPlan id s = { modItem (setRun s id { newRun it with binds := binds, nsegs := nsegs }) id
        (fun it => { it with phase := .running }) with
      plans := { s.plans with
        runs := tset s.plans.runs id { newRun it with binds := binds, nsegs := nsegs }, grantWait := s.plans.grantWait ++ [id] } } := by
  refine ⟨(distinct (((planImage s it.fn (it.body 32 2)).pipes.filter (fun p => p.source == 0)).map (·.ref))).foldl
    (fun (t : Tab Nat) i => tset t i (readTable s.dram (((binds[i]?).map (·.addr)).getD 0)).nsegs) [], ?_⟩
  simp [doRunPlan, hit, hop, hp, hmsg, hdup, hhead, hab, hst, hc, -State.mk.injEq]
  rfl
end

theorem doEntryWaitGrant_task {s : State} {id k : Nat} {it : Item} {t : Task}
    (hfind : s.sched.waiters.find? (waiterMay s) = some (.task id k)) (hit : getItem s id = some it)
    (ht : getTask s id k = some t) : doEntryWaitGrant s
      = schedule (taskEntryIn { s with sched := { s.sched with waiters := s.sched.waiters.filter (· != .task id k) } } id it k) := by
  have hit' (u : Sched) : getItem { s with sched := u } id = some it := hit
  have ht' (u : Sched) : getTask { s with sched := u } id k = some t := ht
  simp only [doEntryWaitGrant, hfind, hit', ht']
/-- Settles O22: RUN_PLAN by the answer of its checks, grants by the order of waiting, checkpoints by what a task's writes leave. -/
theorem runsStartAndCheckpoint : Obligations.RunsStartAndCheckpoint := by
  unfold Obligations.RunsStartAndCheckpoint
  refine ⟨fun s id it hit hop hp hmsg hdup hhead hab => ⟨?waits, ?error, ?starts⟩,
    fun s => ⟨?grant, ?none, ?task, ?desc, fun id k r t hr ht => ⟨?timer, ?early, ?idle, ?complete⟩⟩⟩
  case waits => exact fun hst => next_congr (by simp [doRunPlan, hit, hst])
  case error => exact fun st hst hc => next_congr (doRunPlan_error hit hop hp hmsg hdup hhead hab hst hc)
  case starts =>
    intro binds hc hst
    obtain ⟨nsegs, hrun⟩ := doRunPlan_ok hit hop hp hmsg hdup hhead hab hst hc
    exact ⟨_, { newRun it with binds := binds, nsegs := nsegs }, next_congr hrun, tget_tset_self _ _ _, rfl, rfl, rfl, rfl, rfl, rfl, rfl,
      getItem_modItem_self (s := setRun s id { newRun it with binds := binds, nsegs := nsegs }) hit _, rfl, rfl, rfl⟩
  case grant =>
    intro pre id post t horder hpre hid
    refine next_congr ?_
    rw [doRunGrant, horder, grantAll_none hpre, grantAll_cons hid]
  case none =>
    intro h
    refine next_congr ?_
    have hnone : ∀ j ∈ grantOrder s, grantItem s j = none := fun j hj => h j ((mem_sortBy _ _ _).mp hj)
    have hall := grantAll_none hnone []
    rw [List.append_nil] at hall
    exact hall
  case task => exact fun id k it t hfind hit ht => next_congr (doEntryWaitGrant_task hfind hit ht)
  case desc => exact fun d hfind => next_congr (by simp only [doEntryWaitGrant, hfind])
  case timer =>
    intro hruns hend hw hdue
    obtain ⟨r', hr', htask⟩ := getRun_of_getTask ht
    have hplans := (plans_writeLines (ckptIrq s id k) r (planImage s r.fn r.planId) t (ckState t).1).trans (plans_ckptIrq s id k)
    obtain ⟨-, hv⟩ := modTask_of ((getRun_congr hplans id).trans hr') htask _
    refine ⟨_, _, next_congr (doCheckpointTimer_of hr ht hruns hend hw hdue), hv, rfl, rfl, rfl, rfl, ?_, rfl, rfl,
      dram_modTask _ _ _ _⟩
    dsimp only
    split <;> simp_all
  case early => exact fun hearly => next_congr (by simp [doCheckpointTimer, hr, ht, Nat.not_le.mpr hearly])
  case idle => exact fun hw => next_congr (by simp only [doCheckpointComplete, hr, ht, hw])
  case complete =>
    intro w hw hm
    obtain ⟨r', hr', htask⟩ := getRun_of_getTask ht
    cases hr.symm.trans hr'
    obtain ⟨hrun, hv⟩ := modTask_of (getRun_setRun_self (writeRecord s r (planImage s r.fn r.planId) t) id
      { r with checkpoints := r.checkpoints + 1 }) htask _
    exact ⟨_, _, _, next_congr (doCheckpointComplete_of hr ht hw hm), hrun, rfl, hv, rfl, rfl, rfl, rfl, rfl, rfl,
      (dram_modTask _ _ _ _).trans rfl⟩

end Sys2Proof.Machine

/-! # The row clauses of a pipeline (chapter 5) -/

namespace Sys2Proof.Machine
open Sys2Proof Sys2Proof.Safety

/-- How OUTPUT splits the rows of a batch: those for new places, those for ranges it takes again, and the ranges left. -/
def outSplit (x : Ctx) (b : Batch) : List Row × List (Nat × Row) × List (Nat × Nat × Nat) :=
  if bitOf (x.g.cb x.c 4) 0 then (b.rows, [], x.t.reuse) else reuseRanges x.t.reuse (x.g.cn x.c 2 2) b.rows
/-- What OUTPUT is to write of a batch: each row with the number of its place. -/
def outPlaced (x : Ctx) (b : Batch) : List (Option Int × Row) :=
  if bitOf (x.g.cb x.c 4) 0 then b.rows.map (fun r => (laneInt (rowCol r (x.g.cb x.c 5)), r))
  else ((outSplit x b).2.1 ++ ((outSplit x b).1.zipIdx).map (fun p => (tgetD x.run.outRows (x.g.cn x.c 2 2) 0 + p.2, p.1))).map
    (fun p => (some (p.1 : Int), p.2))
/-- The buffer of an OUTPUT clause. -/
def outBind (x : Ctx) : Bind := (x.run.binds[x.g.cn x.c 2 2]?).getD ⟨false, false, 0#72, 0, 0⟩
/-- Each row with its place as a natural number. -/
def placesOf (l : List (Option Int × Row)) : List (Nat × Row) := l.map (fun p => ((p.1.getD 0).toNat, p.2))
/-- The state after OUTPUT has written the rows `l` and counted their bytes. -/
def outWritten (s1 : State) (id k pos : Nat) (x : Ctx) (l : List (Option Int × Row)) : State :=
  dataXfer (writeRows (popBatch s1 id k pos) (outBind x).addr (outWidth x.g x.c) (x.g.cb x.c 1) (outCols x.g x.c) (placesOf l))
    id none false (l.length * outWidth x.g x.c)

section
variable {s s1 : State} {id k pos : Nat} {x : Ctx} {b : Batch}

theorem placesOf_some (l : List (Nat × Row)) : placesOf (l.map (fun p => (some (p.1 : Int), p.2))) = l := by
  rw [placesOf, List.map_map]
  exact List.map_id _
theorem outPlaced_byNumber (h : bitOf (x.g.cb x.c 4) 0 = true) :
    outPlaced x b = b.rows.map (fun r => (laneInt (rowCol r (x.g.cb x.c 5)), r)) := if_pos h
theorem outSplit_inSequence (h : bitOf (x.g.cb x.c 4) 0 = false) : outSplit x b = reuseRanges x.t.reuse (x.g.cn x.c 2 2) b.rows := by
  simp [outSplit, h]
theorem outPlaced_inSequence (h : bitOf (x.g.cb x.c 4) 0 = false) : outPlaced x b = ((reuseRanges x.t.reuse (x.g.cn x.c 2 2) b.rows).2.1
    ++ ((reuseRanges x.t.reuse (x.g.cn x.c 2 2) b.rows).1.zipIdx).map (fun p => (tgetD x.run.outRows (x.g.cn x.c 2 2) 0 + p.2, p.1))).map
    (fun p => (some (p.1 : Int), p.2)) := by
  simp [outPlaced, outSplit_inSequence h, h]

/-- Rows that fit, up to the first that does not. -/
theorem takeWhile_fits {len w : Nat} {ps : List (Option Int × Row)} {p} {qs : List (Option Int × Row)}
    (hps : ∀ q ∈ ps, beyond len w q.1 = false) (hp : beyond len w p.1 = true) :
    (ps ++ p :: qs).takeWhile (fun p => ! beyond len w p.1) = ps := by
  rw [List.takeWhile_append_of_pos fun q hq => by simp [hps q hq], List.takeWhile_cons_of_neg (by simp [hp]), List.append_nil]
theorem takeWhile_all_fit {len w : Nat} {ps : List (Option Int × Row)} (hps : ∀ q ∈ ps, beyond len w q.1 = false) :
    ps.takeWhile (fun p => ! beyond len w p.1) = ps := by
  have h := List.takeWhile_append_of_pos (p := fun p => ! beyond len w p.1) (l₁ := ps) (l₂ := []) fun q hq => by simp [hps q hq]
  rwa [List.append_nil, List.takeWhile_nil, List.append_nil] at h

/-- OUTPUT writes the rows before the first one that its buffer cannot take, and fails there. -/
theorem doOutputBatch_overflow (hb : batchAt s id k pos Kind.output = some (s1, x, b)) {ps : List (Option Int × Row)} {p qs}
    (hsplit : outPlaced x b = ps ++ p :: qs) (hps : ∀ q ∈ ps, beyond (outBind x).len (outWidth x.g x.c) q.1 = false)
    (hp : beyond (outBind x).len (outWidth x.g x.c) p.1 = true) :
    doOutputBatch id k pos s = failRun (countOutput (outWritten s1 id k pos x ps) id k x.c b.rows.length ps.length) id
      St.outputOverflow (rowPlace x.c b p.2) := by
  have hfits := takeWhile_fits (qs := qs) hps hp
  simp only [outPlaced, outSplit] at hsplit
  simp only [outBind] at hfits
  simp only [doOutputBatch, hb, hsplit, hfits, List.drop_left]
  rfl
/-- OUTPUT by row number whose rows all fit writes them and goes on. -/
theorem doOutputBatch_byNumber (hb : batchAt s id k pos Kind.output = some (s1, x, b)) (hnum : bitOf (x.g.cb x.c 4) 0 = true)
    (hfit : ∀ q ∈ outPlaced x b, beyond (outBind x).len (outWidth x.g x.c) q.1 = false) :
    doOutputBatch id k pos s = settleTask (countOutput (outWritten s1 id k pos x (outPlaced x b)) id k x.c b.rows.length
      (outPlaced x b).length) id k := by
  have hfits := takeWhile_all_fit hfit
  simp only [outPlaced, outBind, hnum, if_true] at hfits
  simp only [doOutputBatch, hb, hnum, if_true, hfits, List.drop_length, outWritten, outPlaced, outBind]
  rfl
/-- OUTPUT in sequence whose rows all fit writes them, and its next places and ranges move on. -/
theorem doOutputBatch_inSequence (hb : batchAt s id k pos Kind.output = some (s1, x, b)) (hnum : bitOf (x.g.cb x.c 4) 0 = false)
    (hfit : ∀ q ∈ outPlaced x b, beyond (outBind x).len (outWidth x.g x.c) q.1 = false) :
    doOutputBatch id k pos s = settleTask (modTask (match getRun (countOutput (outWritten s1 id k pos x (outPlaced x b)) id k x.c
        b.rows.length (outPlaced x b).length) id with
      | some r => setRun (countOutput (outWritten s1 id k pos x (outPlaced x b)) id k x.c b.rows.length (outPlaced x b).length) id
          { r with outRows := tset r.outRows (x.g.cn x.c 2 2) (tgetD x.run.outRows (x.g.cn x.c 2 2) 0 + (outSplit x b).1.length) }
      | none => countOutput (outWritten s1 id k pos x (outPlaced x b)) id k x.c b.rows.length (outPlaced x b).length) id k
      (fun t => { t with
        reuse := (outSplit x b).2.2
        ranges := t.ranges ++ x.t.reuse.filter (fun r => ! (outSplit x b).2.2.contains r)
          ++ (if (outSplit x b).1.isEmpty then []
            else [(x.g.cn x.c 2 2, tgetD x.run.outRows (x.g.cn x.c 2 2) 0, (outSplit x b).1.length)]) }))
      id k := by
  have hfits := takeWhile_all_fit hfit
  simp only [outPlaced, outSplit, outBind, hnum, Bool.false_eq_true, if_false] at hfits
  simp only [doOutputBatch, hb, hnum, Bool.false_eq_true, if_false, hfits, List.drop_length, outWritten, outPlaced, outSplit, outBind]
  rfl
end

theorem beyond_natCast (len w i : Nat) : beyond len w (some (i : Int)) = decide (len < (i + 1) * w) := by
  have hnat : ¬ (i : Int) < 0 := Int.not_lt.mpr (Int.natCast_nonneg i)
  simp [beyond, hnat]
theorem beyond_of_fits {len w : Nat} {n : Option Int} (h : ∃ i : Nat, n = some (i : Int) ∧ (i + 1) * w ≤ len) :
    beyond len w n = false := by
  obtain ⟨i, rfl, hle⟩ := h
  rw [beyond_natCast]
  exact decide_eq_false (Nat.not_lt.mpr hle)
theorem beyond_of_places {len w : Nat} {l : List (Nat × Row)} (h : ∀ p ∈ l, (p.1 + 1) * w ≤ len) {q : Option Int × Row}
    (hq : q ∈ l.map (fun p => (some (p.1 : Int), p.2))) : beyond len w q.1 = false := by
  obtain ⟨p, hp, rfl⟩ := List.mem_map.mp hq
  exact beyond_of_fits ⟨p.1, rfl, h p hp⟩

/-- Settles O23: each row clause by its checks, and OUTPUT by the first row that its buffer cannot take. -/
theorem rowClausesProcessABatch : Obligations.RowClausesProcessABatch := by
  unfold Obligations.RowClausesProcessABatch
  refine fun s id k pos => ⟨?claim, ?block, ?filter, ?compute, ?byNumber, ?inSequence, ?overNumber, ?overSequence⟩
  case claim =>
    intro x n u hx hempty hdone hclaim htab hu hwin hpoison sg hrows hseg
    have hstart : (if x.t.st.tabOk then none else descCheck s (winOk s x.run.fn) (scanTable s x).addr) = none := by
      split
      · rfl
      · next hn => exact htab.resolve_left hn
    refine next_congr ?_
    simp [doScanBatch, hx, hempty, hdone, hclaim, hstart, hu, hwin, hpoison, hrows, hseg, sg]
  case block =>
    intro x n v bt live hx hempty hdone hclaim hv htab s1 hblock
    have hstart : (if x.t.st.tabOk then none else descCheck s (winOk s x.run.fn) (scanTable s x).addr) = none := by
      split
      · rfl
      · next hn => exact htab.resolve_left hn
    refine next_congr ?_
    simp [doScanBatch, hx, hempty, hdone, hclaim, hv, hstart, hblock, s1]
  case filter =>
    intro s1 x b tab hb spans tables e hbad hord hsome hterms
    have hord' : (setsToCheck x).any (fun i => ! setOrdered (e.sets i)) = false := List.any_eq_false.mpr fun i hi => by simp [hord i hi]
    have hsome' : (tablesToBuild x).any (fun h => (tget tables h).isNone) = false :=
      List.any_eq_false.mpr fun h hh => by simp [Option.isSome_iff_ne_none.mp (hsome h hh)]
    refine next_congr ?_
    simp only [doFilterBatch, hb, List.isEmpty_iff]
    refine (if_neg (Bool.not_eq_true _ ▸ hbad)).trans ((if_neg (Bool.not_eq_true _ ▸ hord')).trans ((if_neg (Bool.not_eq_true _ ▸ hsome')).trans ?_))
    split
    next heq => cases hterms.symm.trans heq
    next heq =>
      cases hterms.symm.trans heq
      rfl
  case compute => exact fun s1 x b rows sat wrap hb hc => next_congr (by simp only [doComputeBatch, hb, hc])
  case byNumber =>
    intro s1 x b hb hnum bd w num hfit
    have hplaced := outPlaced_byNumber (b := b) hnum
    refine next_congr ((doOutputBatch_byNumber hb hnum ?_).trans ?_)
    · rw [hplaced]
      rintro q hq
      obtain ⟨r, hr, rfl⟩ := List.mem_map.mp hq
      exact beyond_of_fits (hfit r hr)
    · rw [hplaced, List.length_map, outWritten, placesOf, List.map_map, List.length_map]
      rfl
  case inSequence =>
    intro s1 x b hb hnum slot bd w z start places hfit
    have hplaced := outPlaced_inSequence (b := b) hnum
    refine next_congr ((doOutputBatch_inSequence hb hnum ?_).trans ?_)
    · rw [hplaced]
      exact fun q hq => beyond_of_places hfit hq
    · rw [hplaced, outSplit_inSequence hnum, outWritten, placesOf_some, List.length_map]
      rfl
  case overNumber =>
    intro s1 x b p ps qs hb hnum hrows bd w num hfit hp
    have hplaced : outPlaced x b = ps.map (fun r => (num r, r)) ++ (num p, p) :: qs.map (fun r => (num r, r)) := by
      rw [outPlaced_byNumber hnum, hrows, List.map_append, List.map_cons]
    refine next_congr ((doOutputBatch_overflow hb hplaced ?_ hp).trans ?_)
    · rintro q hq
      obtain ⟨r, hr, rfl⟩ := List.mem_map.mp hq
      exact beyond_of_fits (hfit r hr)
    · rw [List.length_map, outWritten, placesOf, List.map_map, List.length_map]
      rfl
  case overSequence =>
    intro s1 x b ps p qs hb hnum slot bd w z hsplit hfit hp
    have hplaced := (outPlaced_inSequence (b := b) hnum).trans (congrArg _ hsplit)
    rw [List.map_append, List.map_cons] at hplaced
    refine next_congr ((doOutputBatch_overflow hb hplaced (fun q hq => beyond_of_places hfit hq) ?_).trans ?_)
    · rw [beyond_natCast]
      exact decide_eq_true hp
    · rw [outWritten, placesOf_some, List.length_map]
      rfl

end Sys2Proof.Machine

/-! # Joins, aggregates, sorts and merges (chapters 6 and 7) -/

namespace Sys2Proof.Machine
open Sys2Proof Sys2Proof.Safety

/-- Settles O24: a build by its storage, a probe by where its table stands. -/
theorem joinClausesProcessABatch : Obligations.JoinClausesProcessABatch := by
  unfold Obligations.JoinClausesProcessABatch
  refine fun s id k pos s1 x => ⟨fun b hb => ⟨?append, ?stage⟩, ?flush, ?cam, fun b hb hk hpart => ⟨?known, ?build⟩, ?partition⟩
  case append => exact fun hk => next_congr (by simp only [doJoinBuildBatch, hb, if_pos hk])
  case stage => exact fun hk => next_congr (by simp only [doJoinBuildBatch, hb, if_neg hk])
  case flush =>
    intro x0 hb hx0 u hx hk hflushed hup hhead
    exact next_congr (by simp only [doJoinBuildBatch, hb, hx0, u, hx, hk, hflushed, hup, hhead]; rfl)
  case cam => exact fun b hb hk => next_congr (by simp only [doJoinProbeBatch, hb, if_pos hk])
  case known =>
    exact fun table nul total ht => next_congr (by simp only [doJoinProbeBatch, hb, if_neg hk, hpart, Bool.false_eq_true, if_false, ht])
  case build =>
    intro hempty hspans
    refine ⟨fun t ht => next_congr ?_, fun ht => next_congr ?_⟩
    all_goals simp only [doJoinProbeBatch, hb, if_neg hk, hpart, hempty, hspans, Bool.false_eq_true, if_false, ht]
  case partition =>
    intro b hb hk hpart hlower bk n w spans types d rows chunks nul total out spill hspans
    have hlow : (List.range pos).any (fun j => ! (tgetD x.t.st.inq j []).isEmpty) = false :=
      List.any_eq_false.mpr fun j hj => by simp [hlower j (List.mem_range.mp hj)]
    simp only [spans, bk, w, n] at hspans
    refine ⟨fun h => next_congr ?_, fun h => next_congr ?_⟩
    all_goals
      simp only [spill, chunks, rows, types, d, bk, w, n] at h
    · simp only [doJoinProbeBatch, hb, if_neg hk, hpart, hlow, hspans, Bool.false_eq_true, if_false, if_true, if_pos h]
      rfl
    · simp only [doJoinProbeBatch, hb, if_neg hk, hpart, hlow, hspans, Bool.false_eq_true, if_false, if_true, if_neg h]
      rfl

/-- Settles O25: a fold by its rows, a merge by the units it claims, a window by its state table. -/
theorem aggregatesProcessABatch : Obligations.AggregatesProcessABatch := by
  unfold Obligations.AggregatesProcessABatch
  refine fun s id k pos s1 x => ⟨?fold, ?flush, ?merge, ?finish, ?window⟩
  case fold =>
    intro b s2 tb hb hk type hf
    simp only [type] at hf
    exact next_congr (by simp only [doHashAggFold, hb, if_neg hk, hf])
  case flush =>
    intro x0 hb hx0 hx hk hflushed hup hhead u
    exact next_congr (by simp only [doHashAggFold, hb, hx0, Option.isSome_some, if_true, hx, hk, hflushed, hup, hhead]; rfl)
  case merge =>
    intro n tb hx hk hdone hclaim b lanes rows spans u hspans htb
    simp only [b, lanes, rows, spans, u] at hspans htb
    exact next_congr (by simp only [doHashAggMerge, hx, hk, hdone, hclaim, hspans, htb]; rfl)
  case finish =>
    intro hx hk hdone hclaim u
    exact next_congr (by simp only [doHashAggMerge, hx, hk, hdone, hclaim]; rfl)
  case window =>
    intro b rows sat wrap recs hb tab own hw u
    exact next_congr (by simp only [own, tab] at hw; simp only [doWindowAggBatch, hb]; erw [hw])

/-! ## Sorts and merges (R138 to R149) -/

theorem pairwise_zipIdx {α : Type} (l : List α) : l.zipIdx.Pairwise (fun a b => a.2 < b.2) := by
  rw [← List.pairwise_map (f := Prod.snd) (R := (· < ·)), List.zipIdx_map_snd]
  exact List.pairwise_lt_range'
/-- The rows of a unit of the last merge stand in the order of their ranks. -/
theorem finalRange_pairwise (s : State) (x : Ctx) (n : Nat) : (finalRange s x n).Pairwise (fun a b => a.2 < b.2) :=
  (pairwise_zipIdx _).filter _
/-- Their ranks are those the clause asks for. -/
theorem rank_of_mem_finalRange {s : State} {x : Ctx} {n : Nat} {r : List Lane × Nat} (h : r ∈ finalRange s x n) :
    x.g.cn x.c 8 8 ≤ r.2 ∧ (bitOf (x.g.cb x.c 1) 0 = true → r.2 < x.g.cn x.c 8 8 + x.g.cn x.c 16 8) := by
  have hok := (List.mem_filter.mp h).2
  simp only [Bool.and_eq_true, Bool.or_eq_true, decide_eq_true_eq, Bool.not_eq_true'] at hok
  obtain ⟨-, hoff, hlim⟩ := hok
  exact ⟨hoff, fun hb => hlim.resolve_left (by simp [hb])⟩

/-- Settles O26: TOPN by its heap, SORT by its open run, the merges by the unit they claim. -/
theorem sortClausesProcessABatch : Obligations.SortClausesProcessABatch := by
  unfold Obligations.SortClausesProcessABatch
  refine fun s id k pos s1 x => ⟨?topn, ?topnEnd, ?sort, ?sortEnd, ?merge, ?mergeEnd, ?fanin, ?final, ?finalEnd⟩
  case topn =>
    intro b hb heap rows
    exact next_congr (by simp only [doTopnBatch, hb]; rfl)
  case topnEnd =>
    intro x0 heap hb hx0 hx hflushed hup hhead hheap u
    exact next_congr (by simp only [doTopnBatch, hb, hx0, Option.isSome_some, if_true, hx, hflushed, hup, hhead, hheap]; rfl)
  case sort =>
    intro b v hb cur since passed rows u late hv cur2 full
    simp only [late, u, cur, since, rows, passed] at hv
    refine ⟨fun hlt => next_congr ?_, fun w hge hw => next_congr ?_⟩
    · simp only [full, cur2, late, u, cur, since, rows, passed] at hlt ⊢
      simp only [doSortBatch, hb, hv, if_pos hlt]
    · simp only [full, cur2, late, u, cur, since, rows, passed] at hge hw ⊢
      simp only [doSortBatch, hb, hv, if_neg (Nat.not_lt.mpr hge), hw]
  case sortEnd =>
    intro x0 hb hx0 hx hflushed hup hhead u
    exact next_congr (by simp only [doSortBatch, hb, hx0, Option.isSome_some, if_true, hx, hflushed, hup, hhead]; rfl)
  case merge =>
    intro n hx hk hdone hclaim kw pw b runs spans rows u hspans
    simp only [kw, pw, b, runs, spans, rows, u] at hspans
    exact next_congr (by simp only [doMergeIntermediate, hx, hk, hdone, hclaim, hspans]; rfl)
  case mergeEnd => exact fun hx hk hdone hclaim => next_congr (by simp only [doMergeIntermediate, hx, hk, hdone, hclaim]; rfl)
  case fanin =>
    exact fun hx hk hdone hin hfan => next_congr (by simp [doMergeFinal, hx, hk, hdone, hin, hfan])
  case final =>
    intro n hx hk hdone hin hfan hclaim range u hspans
    refine ⟨next_congr ?_, finalRange_pairwise s1 x n, fun r hr => rank_of_mem_finalRange hr⟩
    simp only [range, u] at hspans
    simp only [doMergeFinal, hx, hk, hdone, hin, if_neg (Nat.not_lt.mpr hfan), hclaim, hspans, ne_eq, not_true, Bool.false_eq_true,
      or_self, if_false, range, u]
  case finalEnd =>
    exact fun hx hk hdone hin hfan hclaim => next_congr (by
      simp [doMergeFinal, hx, hk, hdone, hin, Nat.not_lt.mpr hfan, hclaim])

/-! ## Exchanges (R150 to R154) -/

theorem one_le_fragRows (x : Ctx) : 1 ≤ fragRows x := Nat.le_max_left _ _
/-- Fragments hold the rows they are cut from, in order. -/
theorem rows_fragsOf (x : Ctx) (b : Batch) (dst : Nat) {n : Nat} (sub : Nat) {rows : List Row} (h : rows.length ≤ n) :
    (fragsOf x b dst n sub rows).flatMap (·.rows) = rows := by
  induction n generalizing sub rows with
  | zero => simp [List.length_eq_zero_iff.mp (Nat.le_zero.mp h), fragsOf]
  | succ n ih =>
    have hfrag := one_le_fragRows x
    rw [fragsOf]
    split
    case isTrue hnil => simpa using hnil.symm
    case isFalse => rw [List.flatMap_cons, ih (sub + 1) (by rw [List.length_drop]; omega), List.take_append_drop]
/-- What every fragment of a batch has. -/
theorem fragsOf_mem {x : Ctx} {b : Batch} {dst n sub : Nat} {rows : List Row} {f : Frag} (h : f ∈ fragsOf x b dst n sub rows) :
    f.dst = dst ∧ f.tag.unit = b.unit ∧ f.tag.block = b.block ∧ 1 ≤ f.rows.length ∧ f.rows.length ≤ fragRows x := by
  induction n generalizing sub rows with
  | zero => simp [fragsOf] at h
  | succ n ih =>
    rw [fragsOf] at h
    split at h
    case isTrue => simp at h
    case isFalse hne =>
      obtain rfl | h := List.mem_cons.mp h
      · have hpos : 0 < rows.length := List.length_pos_iff.mpr (by simpa using hne)
        have hfrag := one_le_fragRows x
        refine ⟨rfl, rfl, rfl, ?_, ?_⟩
        all_goals
          dsimp only
          rw [List.length_take]
          omega
      · exact ih h
/-- A fragment that finds room and credit goes to the outbox. -/
theorem sendReady_one {s : State} {x : Ctx} {id k : Nat} {r : Run} {t : Task} {f : Frag} {rest : List Frag} (hr : getRun s id = some r)
    (ht : getTask s id k = some t) (hp : t.st.outPend = f :: rest)
    (hroom : sumBy (fun q => fragBytes x q.rows.length) t.st.outbox + fragBytes x f.rows.length ≤ x.g.cn x.c 16 4)
    (hcredit : inboxLoad x r t.pipe f.dst + fragBytes x f.rows.length ≤ x.g.cn x.c 12 4) :
    sendReady x id k 1 s = modSt s id k (fun q => { q with outbox := q.outbox ++ [f], outPend := rest }) := by
  simp only [sendReady, hr, ht, hp]
  exact if_neg (by omega)

/-- Settles O27: a sender by what it has to send, a receiver by the fragment it takes. -/
theorem exchangeMovesFragments : Obligations.ExchangeMovesFragments := by
  unfold Obligations.ExchangeMovesFragments
  refine fun s id k pos s1 x => ⟨fun hx => ⟨?pending, ?batch, ?finish⟩, fun r t f rest => sendReady_one,
    fun b dst n sub rows h => ⟨rows_fragsOf x b dst sub h, fun f => fragsOf_mem⟩, ?receive⟩
  case pending => exact fun hp => next_congr (by simp [doExchangeSend, hx, hp])
  case batch =>
    intro y b hp hb hsplit
    refine next_congr ?_
    simp only [doExchangeSend, hx, hp, hb, List.isEmpty_nil, Bool.not_true, Bool.false_eq_true, if_false]
    rw [if_neg fun h => by simp [(hsplit h.1).1] at h, if_neg fun h => h.2 (hsplit h.1).2]
  case finish =>
    exact fun y hp hb hy hend hup hhead => next_congr (by simp [doExchangeSend, hx, hp, hb, hy, hend, hup, hhead])
  case receive =>
    intro sender t f hx ht hf u
    refine ⟨fun h => next_congr ?_, fun v h hv => next_congr ?_, fun h hv => next_congr ?_⟩
    · simp only [doExchangeFragmentReceive, hx, ht, Option.bind_some, hf, if_pos h, u]
    · simp only [u] at hv
      simp only [doExchangeFragmentReceive, hx, ht, Option.bind_some, hf, if_neg (Nat.not_lt.mpr h), hv]
    · simp only [u] at hv
      simp only [doExchangeFragmentReceive, hx, ht, Option.bind_some, hf, if_neg (Nat.not_lt.mpr h), hv, u]

end Sys2Proof.Machine

/-! # Clusters and message ingest (chapters 8 to 10) -/

namespace Sys2Proof.Machine
open Sys2Proof Sys2Proof.Safety

/-! ## Clusters (R160, R169, R172, R195) -/

theorem lookup_mshift_mslice (m : Mem) (base n a : Nat) (h : a < n) :
    List.lookup a (mshift (mslice m base (base + n)) base 0) = List.lookup (base + a) m := by
  induction m with
  | nil => rfl
  | cons c m ih =>
    obtain ⟨k, v⟩ := c
    by_cases hk : k = base + a
    case pos =>
      subst hk
      have hin : (decide (base ≤ base + a) && decide (base + a < base + n)) = true := by simp; omega
      have hka : (a == base + a - base + 0) = true := by simp
      simp only [mslice, List.filter_cons, hin, if_true, mshift, List.map_cons, List.lookup_cons, hka, beq_self_eq_true]
    case neg =>
      have hne : (base + a == k) = false := by simpa using Ne.symm hk
      rw [List.lookup_cons, hne, ← ih]
      by_cases hin : (decide (base ≤ k) && decide (k < base + n)) = true
      · have hle : base ≤ k := by simp at hin; omega
        have hka : (a == k - base + 0) = false := by simp; omega
        simp only [mslice, List.filter_cons, hin, if_true, mshift, List.map_cons, List.lookup_cons, hka]
      · simp only [mslice, List.filter_cons, hin, Bool.false_eq_true, if_false]
/-- What a copy of memory into an empty one holds. -/
theorem mread_mcopy_nil (src : Mem) {base n a : Nat} (h : a < n) : mread (mcopy [] src base 0 n) a = mread src (base + a) := by
  simp only [mread, mcopy, msplice, List.filter_nil, List.nil_append, List.append_nil, lookup_mshift_mslice src base n a h]

section
variable (s : State) (l : List Nat)

theorem pwr_foldl_coreOff : (l.foldl coreOff s).pwr = s.pwr := by
  induction l generalizing s with
  | nil => rfl
  | cons p l ih => exact ih (coreOff s p)
theorem tget_foldl_coreOff_of_not_mem {p : Nat} (h : p ∉ l) : tget (l.foldl coreOff s).cores p = tget s.cores p := by
  induction l generalizing s with
  | nil => rfl
  | cons q l ih =>
    rw [List.mem_cons, not_or] at h
    exact (ih (coreOff s q) h.2).trans (tget_terase_ne _ _ _ h.1)
theorem tget_foldl_coreOff_of_mem {p : Nat} (h : p ∈ l) : tget (l.foldl coreOff s).cores p = none := by
  induction l generalizing s with
  | nil => cases h
  | cons q l ih =>
    by_cases hp : p ∈ l
    · exact ih (coreOff s q) hp
    · obtain rfl : p = q := (List.mem_cons.mp h).resolve_right hp
      exact (tget_foldl_coreOff_of_not_mem (coreOff s p) l hp).trans (tget_terase_self _ _)
end
/-- A wake that has ended starts the tiles of its cluster. -/
theorem doClusterWakeComplete_due {s : State} {c : Nat} (hc : c < 16) (hst : (getCluster s c).st = .waking)
    (hend : (getCluster s c).wakeEnd ≤ now s) (hk : kimgValid s = true) :
    doClusterWakeComplete c s
      = let u := ((clusterTiles c).filter (tileInService s)).foldl tileStart s
        let placed := u.sched.entries.any (fun p => p.2.placed && (p.2.tile.map (· / 8)) == some c)
        schedule (startPlaced (setCluster u c { getCluster s c with
          st := if placed then .active else .clockGated, wakeEnd := 0, freeSince := if placed then none else some (now u) }) c) := by
  unfold doClusterWakeComplete
  exact if_pos ⟨hc, hst, hend, hk⟩
theorem srOf_coreInit (p : Nat) : srOf (coreInit p) = 0x8000 := by simp [srOf, coreInit, b2n]

/-- Settles O28: a cluster by its power state, a tile by its start, a snapshot by its path. -/
theorem clustersSleepAndWake : Obligations.ClustersSleepAndWake := by
  unfold Obligations.ClustersSleepAndWake
  refine ⟨fun s c => ⟨fun t hc hst hfree hdue => ⟨?warm, ?gate⟩, ?early, ?clock, ?wake, ?waking⟩,
    fun s p => ?start, fun s p v h => ?snap⟩
  case warm => exact fun hw => next_congr (by simp [doClusterPowerGate, hc, hst, hfree, hdue, hw])
  case gate =>
    intro hw
    have hoff : doClusterPowerGate c s = (clusterTiles c).foldl coreOff
        (setCluster s c { getCluster s c with st := .gated, freeSince := none }) := by
      simp [doClusterPowerGate, hc, hst, hfree, hdue, hw]
    have hcl (d : Nat) : getCluster (doClusterPowerGate c s) d
        = getCluster (setCluster s c { getCluster s c with st := .gated, freeSince := none }) d := by
      rw [hoff, getCluster, pwr_foldl_coreOff]
      rfl
    refine ⟨_, rfl, ?_, ?_, fun p hp => ?_, fun p hp => ?_, fun d hd => ?_⟩
    · rw [hcl, getCluster_setCluster_self]
    · rw [hcl, getCluster_setCluster_self]
    · rw [hoff]
      exact tget_foldl_coreOff_of_mem _ _ hp
    · rw [hoff]
      exact tget_foldl_coreOff_of_not_mem _ _ hp
    · rw [hcl, getCluster_setCluster_ne _ _ _ _ hd]
  case early => exact fun t hfree hlt => next_congr (by simp [doClusterPowerGate, hfree, Nat.not_le.mpr hlt])
  case clock => exact fun hst hp => next_congr (by simp only [doClockGatedWakeDone]; exact if_pos ⟨hst, hp⟩)
  case wake =>
    intro hc hst hend hk u placed
    have hdone := doClusterWakeComplete_due hc hst hend hk
    exact next_congr (congrArg remakeAbsent hdone)
  case waking =>
    intro hlt hst
    have hstay : doClusterWakeComplete c s = s := if_neg fun h => Nat.not_le.mpr hlt h.2.2.1
    exact next_congr (congrArg remakeAbsent hstay)
  case start =>
    have hcore : getCore (tileStart s p) p
        = { coreInit p with run := .run, mem := mcopy [] s.dram (rfld s Reg.TILE_KIMG 0 39 12 * 4096) 0 32768 } :=
      getCore_setCore_self _ _ _
    intro c
    have hc : c = _ := hcore
    clear_value c
    subst hc
    exact ⟨rfl, rfl, srOf_coreInit p, rfl, rfl, rfl, rfl, rfl, rfl, rfl, rfl, rfl, rfl, rfl, rfl, rfl, rfl, rfl,
      fun a ha => mread_mcopy_nil s.dram ha, fun q hq => tget_tset_ne _ _ _ _ hq, rfl⟩
  case snap =>
    refine ⟨_, next_congr (rowWrite_of h _), tget_tset_self _ _ _, fun q hq => tget_tset_ne _ _ _ _ hq, rfl, rfl⟩

/-! ## Message ingest (R174 to R184) -/

/-- Two states with the same items, plans, frames sent, port counters, replies and floors. -/
structure SameIngest (s t : State) : Prop where
  items : t.qm.items = s.qm.items
  plans : t.plans = s.plans
  frames : t.out.frames = s.out.frames
  ports : t.ing.ports = s.ing.ports
  cache : t.ing.cache = s.ing.cache
  floors : t.ing.floors = s.ing.floors

namespace SameIngest
theorem refl (s : State) : SameIngest s s := ⟨rfl, rfl, rfl, rfl, rfl, rfl⟩
theorem trans {s t u : State} (h : SameIngest s t) (h' : SameIngest t u) : SameIngest s u :=
  ⟨h'.items.trans h.items, h'.plans.trans h.plans, h'.frames.trans h.frames, h'.ports.trans h.ports, h'.cache.trans h.cache,
    h'.floors.trans h.floors⟩

variable (s : State)
theorem setQ (d : Nat) (v : HostQ) : SameIngest s (setQ s d v) := ⟨rfl, rfl, rfl, rfl, rfl, rfl⟩
theorem sendMsix (fn vec : Nat) : SameIngest s (sendMsix s fn vec) := by
  unfold Machine.sendMsix
  split
  · split
    · exact refl s
    · exact ⟨rfl, rfl, rfl, rfl, rfl, rfl⟩
  · exact ⟨rfl, rfl, rfl, rfl, rfl, rfl⟩
theorem signalRing (r : Nat) : SameIngest s (signalRing s r) := (setQ s r _).trans (sendMsix _ _ _)
theorem countIrq (r : Nat) : SameIngest s (countIrq s r) := by
  obtain ⟨u, a, h | h⟩ := countIrq_cases s r
  · exact h ▸ (setQ s r _).trans (signalRing _ r)
  · exact h ▸ setQ s r _
theorem ringPut (r : Nat) (e : CqEntry) : SameIngest s (ringPut s r e) := by
  have hput : SameIngest s (Machine.setQ (hostWrite s (cqBase s r + 32 * (getQ s r).cqTail)
      (natLE 8 e.w0 ++ natLE 8 e.w1 ++ natLE 8 e.w2 ++ natLE 8 e.w3)) r
      { getQ s r with cqTail := ((getQ s r).cqTail + 1) % cqSize s r }) := ⟨rfl, rfl, rfl, rfl, rfl, rfl⟩
  unfold Machine.ringPut
  dsimp only
  split
  · exact hput.trans (countIrq _ r)
  · exact hput
theorem fnEvent (fn : Nat) : SameIngest s (fnEvent s fn) := by
  unfold Machine.fnEvent
  split
  · exact sendMsix s _ _
  · exact refl s
/-- Placing a completion entry touches its ring and its interrupt only. -/
theorem placeEntry (r : Nat) (e : CqEntry) : SameIngest s (placeEntry s r e) := by
  unfold Machine.placeEntry
  dsimp only
  split
  · exact ringPut s r e
  · split
    · exact (setQ s r _).trans (fnEvent _ _)
    · exact setQ s r _
theorem reportDrop (k port layout key rx : Nat) : SameIngest s (reportDrop s k port layout key rx) := by
  unfold Machine.reportDrop
  dsimp only
  split
  · exact ⟨rfl, rfl, rfl, rfl, rfl, rfl⟩
  · split
    · exact ⟨rfl, rfl, rfl, rfl, rfl, rfl⟩
    · exact placeEntry s _ _
end SameIngest

section
variable {s : State} {port : Nat} {f : List Byte}

/-- The port's counters with one more drop of reason `k`. -/
def dropCounted (k : Nat) (p : PortCnt) : PortCnt := { p with drops := tset p.drops k (satAdd 32 (tgetD p.drops k 0) 1) }
/-- A drop counts, and may report. -/
theorem sameIngest_drop (s : State) (port k layout key rx : Nat) :
    SameIngest (modPort s port (dropCounted k)) (drop s port k layout key rx) := by
  unfold drop
  dsimp only
  split
  · split
    · exact .reportDrop _ _ _ _ _ _
    · exact .reportDrop _ _ _ _ _ _
  · exact .refl _
theorem getPort_congr {t : State} (h : t.ing.ports = s.ing.ports) (q : Nat) : getPort t q = getPort s q := by rw [getPort, getPort, h]

/-- Whether a frame meets its port's setting of the VLAN tag. -/
def frameTagged (s : State) (port : Nat) (f : List Byte) : Bool :=
  match (parseEth f).tag with
  | none => portCtl s port 27 16 == 0
  | some t => portCtl s port 27 16 != 0 && t % 4096 == portCtl s port 27 16
/-- What is done with a message of a layout that serves, by the reply cache and the floor (R184). -/
def serveKey (s : State) (port : Nat) (frame p : List Byte) (b : Nat × Nat) : State :=
  match cacheFind s (beAt p 8 8) with
  | some e => (match e.doneAt, e.reply with
    | none, _ => drop s port 7 (beAt p 4 1) (beAt p 8 8) (now s)
    | some _, none => s
    | some _, some u => sendFrame (modPort s port (fun c => { c with resent := satAdd 16 c.resent 1 })) port
        (replyFrame frame (u.take 16 ++ natBE 4 0 ++ u.drop 20)))
  | none =>
    if fld (beAt p 8 8) 47 0 ≤ tgetD s.ing.floors (fld (beAt p 8 8) 63 48) 0 then drop s port 8 (beAt p 4 1) (beAt p 8 8) (now s)
    else match cacheReserve s (beAt p 8 8) with
      | none => drop s port 7 (beAt p 4 1) (beAt p 8 8) (now s)
      | some u => admitMessage u port frame p (now s) b.1 b.2
/-- What the port does with a datagram that its tables let through. -/
def ingestDgram (s : State) (port : Nat) (f : List Byte) (d : Dgram) : State :=
  match parseUdp s port d with
  | .error 5 =>
    let p := (d.data.take (beAt d.data 4 2)).drop 8
    drop s port 5 (beAt p 4 1) (beAt p 8 8) (now s)
  | .error k => drop s port k 0 0 (now s)
  | .ok p => serveMessage s port f p
/-- What the port does with a frame that it may take (Table 9-1). -/
def ingestTaken (s : State) (port : Nat) (f : List Byte) : State :=
  let e := parseEth f
  if e.type = 0x0806 then
    if portCtl s port 30 30 = 1 ∧ e.body.length ≥ 28 ∧ beAt e.body 0 8 = 0x0001080006040001 ∧ beAt e.body 24 4 = portIp4 s port then
      sendFrame s port (arpReply s port e)
    else drop s port 0 0 0 (now s)
  else if e.type = 0x86DD ∧ portCtl s port 29 29 = 1 ∧ e.body.length ≥ 64 ∧ beAt e.body 6 1 = 58 ∧ beAt e.body 40 1 = 135
      ∧ beAt e.body 48 16 = portIp6 s port then sendFrame s port (naReply s port e)
  else match parseIp s port e with
    | .error k => drop s port k 0 0 (now s)
    | .ok d => ingestDgram s port f d
theorem frameTagged_iff : frameTagged s port f = true ↔ ((parseEth f).tag = none → portCtl s port 27 16 = 0)
    ∧ ∀ t, (parseEth f).tag = some t → portCtl s port 27 16 ≠ 0 ∧ t % 4096 = portCtl s port 27 16 := by
  unfold frameTagged
  cases (parseEth f).tag <;> simp
theorem doIngestFrame_eq (hport : port ≤ 1) (hup : portsUp s = true) (hdown : (getPort s port).down = false) :
    doIngestFrame port f s = if ingestServes s = true ∧ portCtl s port 31 31 = 1 ∧ 14 ≤ f.length ∧ f.length + 4 ≤ 9216
      ∧ frameTagged s port f = true then ingestTaken s port f else drop s port 0 0 0 (now s) := by
  have hbit : portCtl s port 31 31 < 2 := fld_lt _ 31 31
  have hskip : ¬ (port > 1 ∨ (! portsUp s) = true ∨ (getPort s port).down = true) := by
    simp [hup, hdown]
    omega
  have hunfit : ((! ingestServes s) = true ∨ portCtl s port 31 31 = 0 ∨ f.length < 14 ∨ f.length + 4 > 9216
      ∨ (! frameTagged s port f) = true) ↔ ¬ (ingestServes s = true ∧ portCtl s port 31 31 = 1 ∧ 14 ≤ f.length
      ∧ f.length + 4 ≤ 9216
      ∧ frameTagged s port f = true) := by
    cases ingestServes s <;> cases frameTagged s port f <;> simp
    omega
  rw [← ite_not]
  simp only [← hunfit]
  simp only [doIngestFrame, if_neg hskip]
  rfl
theorem ingestTaken_parse (ha : (parseEth f).type ≠ 0x0806)
    (hn : ¬ ((parseEth f).type = 0x86DD ∧ portCtl s port 29 29 = 1 ∧ (parseEth f).body.length ≥ 64
      ∧ beAt (parseEth f).body 6 1 = 58
      ∧ beAt (parseEth f).body 40 1 = 135 ∧ beAt (parseEth f).body 48 16 = portIp6 s port)) :
    (∀ k, parseIp s port (parseEth f) = .error k → ingestTaken s port f = drop s port k 0 0 (now s))
      ∧ ∀ d, parseIp s port (parseEth f) = .ok d → ingestTaken s port f = ingestDgram s port f d := by
  constructor
  all_goals
    intro z hz
    simp only [ingestTaken]
    rw [if_neg ha, if_neg hn, hz]
theorem ingestDgram_error {d : Dgram} {k : Nat} (hk : k ≠ 5) (hu : parseUdp s port d = .error k) :
    ingestDgram s port f d = drop s port k 0 0 (now s) := by
  simp only [ingestDgram, hu]
end

/-- Settles O29: a drop by its counter and report, a frame by the order of its tables. -/
theorem ingestServesTheFramesOfItsTable : Obligations.IngestServesTheFramesOfItsTable := by
  unfold Obligations.IngestServesTheFramesOfItsTable
  refine ⟨fun s port k layout key rx => ?drop, fun s port f hport hup hdown => ?frame⟩
  case drop =>
    intro t
    obtain ⟨hitems, hplans, hframes, hports, hcache, hfloors⟩ := sameIngest_drop s port k layout key rx
    have hself : getPort t port = dropCounted k (getPort s port) := (getPort_congr hports port).trans (tgetD_tset_self _ _ _ _)
    refine ⟨?_, fun j hj => ?_, fun q hq => ?_, hitems, hplans, hframes, hcache, hfloors⟩
    · rw [hself]
      exact tgetD_tset_self _ _ _ _
    · rw [hself]
      exact tgetD_tset_ne _ _ _ _ _ hj
    · exact (getPort_congr hports q).trans (tgetD_tset_ne _ _ _ _ _ hq)
  case frame =>
    intro e vid fits arp ndp
    have hrun := doIngestFrame_eq (f := f) hport hup hdown
    simp only [frameTagged_iff] at hrun
    have hfit : fits → doIngestFrame port f s = ingestTaken s port f := fun h => hrun.trans (if_pos h)
    refine ⟨fun h => next_congr (hrun.trans (if_neg h)), fun h ha harp => next_congr ((hfit h).trans ?_),
      fun h ha harp => next_congr ((hfit h).trans ?_), fun h hn => next_congr ((hfit h).trans ?_),
      fun h ha hn k hk => next_congr ((hfit h).trans ?_), fun h ha hn d hd => ?_⟩
    · exact (if_pos ha).trans (if_pos harp)
    · exact (if_pos ha).trans (if_neg harp)
    · exact (if_neg (by rw [hn.1]; decide)).trans (if_pos hn)
    · exact (ingestTaken_parse ha hn).1 k hk
    · have hip := (hfit h).trans ((ingestTaken_parse ha hn).2 d hd)
      refine ⟨fun k hk hu => next_congr (hip.trans (ingestDgram_error hk hu)), fun hu => next_congr (hip.trans ?_), fun p hu => ?_⟩
      · simp only [ingestDgram, hu]
      · have hserve : doIngestFrame port f s = serveMessage s port f p := hip.trans (by simp only [ingestDgram, hu])
        refine ⟨fun hz => next_congr (hserve.trans (if_pos hz)), fun hz hl => next_congr (hserve.trans ?_), fun b hz hb hv => ?_⟩
        · rcases hl with hl | hl
          · simp only [serveMessage, if_neg hz, hl]
          · cases hb : (getLayout s (beAt p 4 1)).bound with
            | none => simp only [serveMessage, if_neg hz, hb]
            | some b => simp only [serveMessage, if_neg hz, hb, hl, Bool.not_false, if_true]
        · have hkey : serveMessage s port f p = serveKey s port f p b := by
            simp only [serveMessage, if_neg hz, hb, hv, Bool.not_true, Bool.false_eq_true, if_false]
            rfl
          replace hserve := hserve.trans hkey
          refine ⟨fun c hc hdone => next_congr (hserve.trans ?_), fun c t u hc hdone hr => next_congr (hserve.trans ?_),
            fun c t hc hdone hr => next_congr (hserve.trans ?_), fun hc hle => next_congr (hserve.trans ?_),
            fun hc hlt => ⟨fun u hu => next_congr (hserve.trans ?_), fun hu => next_congr (hserve.trans ?_)⟩⟩
          · simp only [serveKey, hc, hdone]
          · simp only [serveKey, hc, hdone, hr]
          · simp only [serveKey, hc, hdone, hr]
          · simp only [serveKey, hc, if_pos hle]
          · simp only [serveKey, hc, if_neg (Nat.not_le.mpr hlt), hu]
          · simp only [serveKey, hc, if_neg (Nat.not_le.mpr hlt), hu]

/-! ## Replies, floors and layouts (R181, R184) -/

section
variable (s : State)

theorem floors_cacheRemove (key g : Nat) : tgetD (cacheRemove s key).ing.floors g 0
    = if g = fld key 63 48 then max (tgetD s.ing.floors g 0) (fld key 47 0) else tgetD s.ing.floors g 0 := by
  simp only [cacheRemove, raiseFloor]
  split
  case isTrue h => rw [h, tgetD_tset_self]
  case isFalse h => rw [tgetD_tset_ne _ _ _ _ _ h]
theorem le_floors_cacheRemove (key g : Nat) : tgetD s.ing.floors g 0 ≤ tgetD (cacheRemove s key).ing.floors g 0 := by
  rw [floors_cacheRemove]
  split
  · exact Nat.le_max_left _ _
  · exact Nat.le_refl _
theorem mem_cacheRemove (key : Nat) (e : ReplyEnt) : e ∈ (cacheRemove s key).ing.cache ↔ e ∈ s.ing.cache ∧ e.key ≠ key := by
  simp [cacheRemove, raiseFloor]

/-- Removing the replies of `l` keeps the others, lowers no floor, and raises those of the keys removed. -/
theorem mem_foldl_cacheRemove (l : List ReplyEnt) (e : ReplyEnt) :
    e ∈ (l.foldl (fun s e => cacheRemove s e.key) s).ing.cache ↔ e ∈ s.ing.cache ∧ ∀ d ∈ l, e.key ≠ d.key := by
  induction l generalizing s with
  | nil => simp
  | cons d l ih =>
    rw [List.foldl_cons, ih, mem_cacheRemove, and_assoc, List.forall_mem_cons]
theorem le_floors_foldl_cacheRemove (l : List ReplyEnt) (g : Nat) :
    tgetD s.ing.floors g 0 ≤ tgetD (l.foldl (fun s e => cacheRemove s e.key) s).ing.floors g 0 := by
  induction l generalizing s with
  | nil => exact Nat.le_refl _
  | cons d l ih => exact Nat.le_trans (le_floors_cacheRemove s d.key g) (ih _)
theorem key_le_floors_foldl_cacheRemove {l : List ReplyEnt} {e : ReplyEnt} (h : e ∈ l) :
    fld e.key 47 0 ≤ tgetD (l.foldl (fun s e => cacheRemove s e.key) s).ing.floors (fld e.key 63 48) 0 := by
  induction l generalizing s with
  | nil => cases h
  | cons d l ih =>
    obtain rfl | h := List.mem_cons.mp h
    · refine Nat.le_trans ?_ (le_floors_foldl_cacheRemove (cacheRemove s e.key) l _)
      rw [floors_cacheRemove, if_pos rfl]
      exact Nat.le_max_right _ _
    · exact ih _ h
theorem rest_foldl_cacheRemove (l : List ReplyEnt) : (l.foldl (fun s e => cacheRemove s e.key) s).qm = s.qm
    ∧ (l.foldl (fun s e => cacheRemove s e.key) s).dram = s.dram := by
  induction l generalizing s with
  | nil => exact ⟨rfl, rfl⟩
  | cons d l ih => exact ih (cacheRemove s d.key)
end

/-- The replies that have expired. -/
def expired (s : State) : List ReplyEnt := s.ing.cache.filter (fun e => match e.doneAt with
  | some t => decide (t + 10000000000 ≤ now s)
  | none => false)
theorem doReplyCacheExpiry_eq (s : State) : doReplyCacheExpiry s = (expired s).foldl (fun s e => cacheRemove s e.key) s := rfl
theorem mem_expired {s : State} {e : ReplyEnt} :
    e ∈ expired s ↔ e ∈ s.ing.cache ∧ ∃ d, e.doneAt = some d ∧ d + 10000000000 ≤ now s := by
  rw [expired, List.mem_filter]
  cases e.doneAt <;> simp

theorem getLayout_setLayout_self (s : State) (l : Nat) (v : Layout) : getLayout (setLayout s l v) l = v := tgetD_tset_self _ _ _ _
theorem getLayout_setLayout_ne (s : State) (l : Nat) (v : Layout) {m : Nat} (h : m ≠ l) : getLayout (setLayout s l v) m = getLayout s m :=
  tgetD_tset_ne _ _ _ _ _ h
theorem rowWriteMem_of {s : State} {p : Path} {off : Nat} (hup : pathUp s p = true) (hfn : pathFn p = 0)
    (hdeny : denyClass s p (some (.layMem off)) = none) (hopen : regOpen s p (.layMem off) = true) (f : State → State) :
    rowWriteMem s p off f = f (dropHalves s p) := by
  simp [rowWriteMem, hup, hfn, hdeny, hopen]

/-- Settles O30: expiry by what removing a reply does, layouts by their valid and bound bits. -/
theorem repliesAndLayouts : Obligations.RepliesAndLayouts := by
  unfold Obligations.RepliesAndLayouts
  refine ⟨⟨fun s => ?expiry, fun s p v h => ?floor⟩, fun s p off bs => ⟨fun hup hfn hdeny hopen => ⟨?write, ?valid⟩,
    fun h => ⟨?check, ?validated, ?invalidate, ?bound⟩⟩⟩
  case expiry =>
    obtain ⟨hqm, hdram⟩ := rest_foldl_cacheRemove s (expired s)
    refine ⟨_, next_congr (doReplyCacheExpiry_eq s), fun e he d hd hle => ?_, fun e he hnone => ?_,
      le_floors_foldl_cacheRemove s (expired s), hqm, hdram⟩
    · have hexp : e ∈ expired s := mem_expired.mpr ⟨he, d, hd, hle⟩
      refine ⟨fun h => ?_, key_le_floors_foldl_cacheRemove s hexp⟩
      exact ((mem_foldl_cacheRemove s _ e).mp h).2 e hexp rfl
    · refine (mem_foldl_cacheRemove s _ e).mpr ⟨he, fun d hd hkey => ?_⟩
      obtain ⟨hmem, t, ht, -⟩ := mem_expired.mp hd
      simp [hnone d hmem hkey.symm] at ht
  case floor =>
    exact ⟨_, next_congr (rowWriteVal_of h v _), tgetD_tset_self _ _ _ _, fun g hg => tgetD_tset_ne _ _ _ _ _ hg⟩
  case write =>
    intro hv hlen
    refine ⟨_, next_congr ((rowWriteMem_of hup hfn hdeny hopen _).trans (if_neg (by simp [hv]; omega))), ?_, ?_, ?_⟩
    · intro a
      rw [getLayout_setLayout_self, mread_mwrite]
    · rw [getLayout_setLayout_self]
      exact hv
    · exact fun m hm => getLayout_setLayout_ne _ _ _ hm
  case valid => exact fun hv => next_congr ((rowWriteMem_of hup hfn hdeny hopen _).trans (if_pos (.inl hv)))
  case check =>
    intro hv
    refine ⟨_, next_congr ((rowWrite_of h _).trans (if_neg (by simp [hv]))), ?_, ?_, ?_, fun m hm => getLayout_setLayout_ne _ _ _ hm⟩
    all_goals rw [getLayout_setLayout_self]
    rfl
  case validated => exact fun hv => next_congr ((rowWrite_of h _).trans (if_pos hv))
  case invalidate =>
    intro hb
    refine ⟨_, next_congr ((rowWrite_of h _).trans (if_neg (by simp [hb]))), ?_, ?_, fun m hm => getLayout_setLayout_ne _ _ _ hm⟩
    all_goals rw [getLayout_setLayout_self]
  case bound => exact fun hb => next_congr ((rowWrite_of h _).trans (if_pos (Option.isSome_iff_ne_none.mpr hb)))

end Sys2Proof.Machine

/-! # Codec and table append (chapters 3 and 14) -/

namespace Sys2Proof.Machine
open Sys2Proof Sys2Proof.Safety

/-! ## What a chain of writes of DRAM leaves -/

/-- Does `t` differ from `s` in memory and its side only? -/
def MemSide (s t : State) : Prop := ∃ c p d m, t = { s with dram := m, cache := c, poison := p, dmc := d }

namespace MemSide
theorem refl (s : State) : MemSide s s := ⟨s.cache, s.poison, s.dmc, s.dram, rfl⟩
theorem trans {s t u : State} (h : MemSide s t) (h' : MemSide t u) : MemSide s u := by
  obtain ⟨c, p, d, m, rfl⟩ := h
  obtain ⟨c', p', d', m', rfl⟩ := h'
  exact ⟨c', p', d', m', rfl⟩
theorem host {s t : State} (h : MemSide s t) : t.host = s.host := by
  obtain ⟨c, p, d, m, rfl⟩ := h
  rfl
theorem qm {s t : State} (h : MemSide s t) : t.qm = s.qm := by
  obtain ⟨c, p, d, m, rfl⟩ := h
  rfl
theorem dramWrite (s : State) (part a : Nat) (bs : List Byte) : MemSide s (dramWrite s part a bs) := dramWrite_rest s part a bs
theorem foldl {α : Type} {f : State → α → State} (hf : ∀ s x, MemSide s (f s x)) (l : List α) (s : State) :
    MemSide s (l.foldl f s) := by
  induction l generalizing s with
  | nil => exact refl s
  | cons x l ih => exact (hf s x).trans (ih _)
theorem writeRaw (s : State) (part base : Nat) (high : Bool) (at_ : Nat) (xs : List Nat) :
    MemSide s (writeRaw s part base high at_ xs) := by
  unfold Machine.writeRaw
  dsimp only
  split
  · exact (dramWrite _ _ _ _).trans (dramWrite _ _ _ _)
  · exact dramWrite _ _ _ _
/-- One plane, coded or raw. -/
theorem writePlanes (part : Nat) (full : Bool) (s : State) (a : Nat) (ls : List (List Lane)) :
    MemSide s (writePlanes part full s a ls).1 := by
  induction ls generalizing s a with
  | nil => exact refl s
  | cons l ls ih =>
    by_cases hc : l.length = 65536 ∨ full = true
    · simp only [Machine.writePlanes, if_pos hc]
      exact ((dramWrite _ _ _ _).trans (dramWrite _ _ _ _)).trans (ih _ _)
    · simp only [Machine.writePlanes, if_neg hc]
      exact ((writeRaw _ _ _ _ _ _).trans (writeRaw _ _ _ _ _ _)).trans (ih _ _)
theorem extendSeg (part : Nat) (es : List SrcEnt) (last : SegDesc) (k : Nat) (s : State) : MemSide s (extendSeg part es last k s) := by
  unfold Machine.extendSeg
  split
  · exact refl s
  · exact foldl (fun s p => (writeRaw _ _ _ _ _ _).trans (writeRaw _ _ _ _ _ _)) _ s
theorem writeSegs (part : Nat) (es : List SrcEnt) (ncols nrows : Nat) (full : Bool) (s : State) (a row : Nat) (ns : List Nat) :
    MemSide s (writeSegs part es ncols nrows full s a row ns).1 := by
  induction ns generalizing s a row with
  | nil => exact refl s
  | cons n ns ih => exact ((writePlanes _ _ _ _ _).trans (dramWrite _ _ _ _)).trans (ih _ _ _)
end MemSide

theorem length_writeSegs (part : Nat) (es : List SrcEnt) (ncols nrows : Nat) (full : Bool) (s : State) (a row : Nat) (ns : List Nat) :
    (writeSegs part es ncols nrows full s a row ns).2.length = ns.length := by
  induction ns generalizing s a row with
  | nil => rfl
  | cons n ns ih => exact congrArg (· + 1) (ih _ _ _)
theorem getLast?_appendEffects (t : TableDesc) (last : SegDesc) (k n : Nat) (ents : List (List Byte)) :
    (appendEffects t last k n ents).getLast? = some (.dram (t.addr + 56) (natLE 8 (t.generation + 1))) := by
  simp [appendEffects]

/-- Bytes that the spec leaves free. -/
def decodeRoom (s : State) (n : Nat) : List Byte := (List.range n).map (Config.freeByte s.freeCtr)
/-- How a decode whose checks pass ends, by what its stream gives. -/
def decodeEnd (s : State) (id : Nat) (it : Item) (r : DecodeEnd) : State :=
  let b := codecBody it
  let u := dramTouch s (partOf s it.fn) b.inAddr r.seen
  if poisonedIn s b.inAddr r.seen then failItem u id St.dataPoisoned 0 0
  else if r.status = 0 then itemReady (addEffects u id [.dram b.outAddr r.out]) id r.consumed r.out.length
  else failItem (if r.consumed = 0 then u
    else { dramWrite u (partOf s it.fn) b.outAddr (decodeRoom s b.outLen) with freeCtr := s.freeCtr + 1 })
      id r.status r.consumed r.out.length

section
variable (s : State) (part a n : Nat)
theorem dramTouch_dram : (dramTouch s part a n).dram = s.dram := by
  obtain ⟨c, h⟩ := dramTouch_frame s part a n
  rw [h]
theorem dramTouch_freeCtr : (dramTouch s part a n).freeCtr = s.freeCtr := by
  obtain ⟨c, h⟩ := dramTouch_frame s part a n
  rw [h]
theorem partOf_dramTouch (fn : Nat) : partOf (dramTouch s part a n) fn = partOf s fn := by
  obtain ⟨c, h⟩ := dramTouch_frame s part a n
  rw [h]
  rfl
theorem poisonedIn_dramTouch (b k : Nat) : poisonedIn (dramTouch s part a n) b k = poisonedIn s b k := by
  obtain ⟨c, h⟩ := dramTouch_frame s part a n
  rw [h]
  rfl
theorem dramTouch_cache : dramTouch s part a n = { s with cache := (dramTouch s part a n).cache } := by
  obtain ⟨c, h⟩ := dramTouch_frame s part a n
  rw [h]
end

section
variable {s : State} {id : Nat} {it : Item}

theorem firstFail_eq_none {l : List (Bool × Nat)} : firstFail l = none ↔ ∀ p ∈ l, p.1 = false := by
  induction l with
  | nil => simp [firstFail]
  | cons p l ih =>
    obtain ⟨b, st⟩ := p
    cases b <;> simp [firstFail, ih]
theorem codecCheck_eq_none {b : CodecBody} :
    codecCheck s it b = none ↔ b.inLen ≠ 2 ^ 32 - 1 ∧ b.outLen ≠ 2 ^ 32 - 1 ∧ b.nflush ≤ 4096
    ∧ winIt s it b.inAddr b.inLen = true ∧ winIt s it b.outAddr b.outLen = true ∧ winIt s it b.flushAddr (4 * b.nflush) = true
    ∧ (b.decode = false → poisonedIn s b.inAddr b.inLen = false) ∧ poisonedIn s b.flushAddr (4 * b.nflush) = false := by
  simp [codecCheck, firstFail_eq_none, and_assoc]
/-- A decode whose checks pass, by the status of its stream. -/
theorem doCodecDecode_of (hit : itemAt s id 0x22 0 = some it) (hd : (codecBody it).decode = true)
    (h : codecCheck s it (codecBody it) = none) : doCodecDecode id s = decodeEnd s id it
      (streamDecode (mreads s.dram (codecBody it).inAddr (codecBody it).inLen) (codecBody it).outLen) := by
  simp only [doCodecDecode, hit, hd, h, Bool.not_true, Bool.false_eq_true, if_false, decodeEnd, dramTouch_dram, dramTouch_freeCtr,
    partOf_dramTouch, poisonedIn_dramTouch, decodeRoom]
theorem decodeEnd_ready {r : DecodeEnd} (hp : poisonedIn s (codecBody it).inAddr r.seen = false) (hst : r.status = 0) :
    decodeEnd s id it r = itemReady (addEffects (dramTouch s (partOf s it.fn) (codecBody it).inAddr r.seen) id
      [.dram (codecBody it).outAddr r.out]) id r.consumed r.out.length := by
  simp [decodeEnd, hp, hst]
theorem decodeEnd_fails {r : DecodeEnd} (hp : poisonedIn s (codecBody it).inAddr r.seen = false) (hst : r.status ≠ 0) :
    decodeEnd s id it r = failItem (if r.consumed = 0 then dramTouch s (partOf s it.fn) (codecBody it).inAddr r.seen
      else { dramWrite (dramTouch s (partOf s it.fn) (codecBody it).inAddr r.seen) (partOf s it.fn) (codecBody it).outAddr
        (decodeRoom s (codecBody it).outLen) with freeCtr := s.freeCtr + 1 }) id r.status r.consumed r.out.length := by
  simp [decodeEnd, hp, hst]
end

/-- A list of flush points is bad when it does not rise, or holds 0 or a point past the input. -/
theorem flushBad_iff {fl : List Nat} {n : Nat} : (! rising fl || fl.any (fun f => f == 0 || decide (n ≤ f))) = true
    ↔ rising fl = false ∨ ∃ f ∈ fl, f = 0 ∨ n ≤ f := by
  simp

/-- Settles O31: CODEC by its checks and the stream, TABLE_APPEND by its first failing check. -/
theorem codecItemsHoldTheirOutput : Obligations.CodecItemsHoldTheirOutput := by
  unfold Obligations.CodecItemsHoldTheirOutput
  refine ⟨fun s id it hit => ⟨codecCheck_eq_none, fun hd => ⟨?failed, ?flush, ?nothing, ?small, ?encode⟩, fun hd => ?decode⟩,
    fun s id it hit => ⟨?bad, ?norows, ?append⟩⟩
  case failed => exact fun st h => next_congr (by simp [doCodecEncode, hit, hd, h])
  case flush =>
    intro h hbad
    refine next_congr ?_
    simp only [doCodecEncode, hit, hd, h, Bool.false_eq_true, if_false]
    exact if_pos (flushBad_iff.mpr hbad)
  case nothing =>
    intro h hbad hz
    refine next_congr ?_
    simp only [doCodecEncode, hit, hd, h, Bool.false_eq_true, if_false]
    exact (if_neg (mt flushBad_iff.mp hbad)).trans (if_pos hz)
  case small =>
    intro h hbad hz hlt
    refine next_congr ?_
    simp only [doCodecEncode, hit, hd, h, Bool.false_eq_true, if_false]
    exact (if_neg (mt flushBad_iff.mp hbad)).trans ((if_neg hz).trans (if_pos hlt))
  case encode =>
    intro h hbad hz hle u out
    have hu : u = { s with cache := u.cache } := by
      simp only [u]
      rw [dramTouch_cache (dramTouch s _ _ _), dramTouch_cache s]
    refine ⟨next_congr ?_, hu⟩
    simp only [doCodecEncode, hit, hd, h, Bool.false_eq_true, if_false, dramTouch_dram]
    exact (if_neg (mt flushBad_iff.mp hbad)).trans ((if_neg hz).trans (if_neg (Nat.not_lt.mpr hle)))
  case decode =>
    intro r u
    refine ⟨dramTouch_cache s _ _ _, fun st h => next_congr ?_, fun h hp => next_congr ?_, fun h hp hst => next_congr ?_,
      fun h hp hst => ⟨fun hr => next_congr ?_, fun hr => ⟨decodeRoom s (codecBody it).outLen, ?_, next_congr ?_⟩⟩⟩
    · simp only [doCodecDecode, hit, hd, Bool.not_true, Bool.false_eq_true, if_false, h]
    · exact (doCodecDecode_of hit hd h).trans (if_pos hp)
    · exact (doCodecDecode_of hit hd h).trans (decodeEnd_ready hp hst)
    · exact (doCodecDecode_of hit hd h).trans ((decodeEnd_fails hp hst).trans (by rw [if_pos hr, hr]))
    · exact (List.length_map _).trans List.length_range
    · exact (doCodecDecode_of hit hd h).trans ((decodeEnd_fails hp hst).trans (by rw [if_neg hr]))
  case bad => exact fun st h => next_congr (by simp only [doTableAppend, hit]; erw [h])
  case norows => exact fun h hn => next_congr (by simp only [doTableAppend, hit]; erw [h]; exact if_pos hn)
  case append =>
    intro h hn part z
    have hside : MemSide s z.1 := (MemSide.extendSeg _ _ _ _ s).trans (.writeSegs _ _ _ _ _ _ _ _ _)
    refine ⟨next_congr ?_, length_writeSegs _ _ _ _ _ _ _ _ _, getLast?_appendEffects _ _ _ _ _, hside.host, hside.qm⟩
    simp only [doTableAppend, hit]
    erw [h]
    exact if_neg hn

end Sys2Proof.Machine

/-! # The DMA engine and functions (chapter 15) -/

namespace Sys2Proof.Machine
open Sys2Proof Sys2Proof.Safety

/-! ## A byte that no write of a segment meets (R316) -/

theorem mread_mwrite_out (m : Mem) {a x : Nat} {bs : List Byte} (h : x < a ∨ a + bs.length ≤ x) :
    mread (mwrite m a bs) x = mread m x := by
  rw [mread_mwrite, if_neg (by omega)]
theorem mread_scratchLine_out (s : State) {a x : Nat} {bs : List Byte} (h : x < a ∨ a + bs.length ≤ x) :
    mread (scratchLine s a bs).dram x = mread s.dram x := by
  unfold scratchLine
  split
  · rfl
  · exact mread_mwrite_out _ h
theorem mread_scratchStore_out (s : State) {a x : Nat} {bs : List Byte} (h : x < a ∨ a + bs.length ≤ x) :
    mread (scratchStore s a bs).dram x = mread s.dram x := by
  unfold scratchStore
  split
  · exact mread_mwrite_out _ h
  · next habs =>
    clear habs
    generalize List.range (lineEnd a bs.length - a / 128) = l
    induction l generalizing s with
    | nil => rfl
    | cons i l ih =>
      refine (ih _).trans (mread_scratchLine_out s ?_)
      rw [List.length_take, List.length_drop]
      omega
/-- A write of DRAM or of scratch leaves every byte that it does not write. -/
theorem mread_dramWrite_outside (s : State) (part : Nat) {a x : Nat} {bs : List Byte} (h : x < a ∨ a + bs.length ≤ x) :
    mread (dramWrite s part a bs).dram x = mread s.dram x := by
  by_cases ha : a < scratchBase
  · exact mread_dramWrite_out s part a bs x ha h
  · rw [dramWrite, if_pos (Nat.le_of_not_lt ha)]
    exact mread_scratchStore_out s h

/-- Does `t` hold byte `x` as `s` does, and the memory that a move to `host` does not write? -/
def KeepsByte (host : Bool) (x : Nat) (s t : State) : Prop :=
  mread t.dram x = mread s.dram x ∧ mread t.host x = mread s.host x ∧ (host = true → t.dram = s.dram)
    ∧ (host = false → t.host = s.host)
theorem KeepsByte.trans {host : Bool} {x : Nat} {s t u : State} (h : KeepsByte host x s t) (h' : KeepsByte host x t u) :
    KeepsByte host x s u :=
  ⟨h'.1.trans h.1, h'.2.1.trans h.2.1, fun hh => (h'.2.2.1 hh).trans (h.2.2.1 hh), fun hh => (h'.2.2.2 hh).trans (h.2.2.2 hh)⟩
theorem keepsByte_memWrite (s : State) (part : Nat) (host : Bool) {a x : Nat} {bs : List Byte} (h : x < a ∨ a + bs.length ≤ x) :
    KeepsByte host x s (memWrite s part host a bs) := by
  cases host with
  | true => exact ⟨rfl, mread_mwrite_out _ h, fun _ => rfl, nofun⟩
  | false =>
    have hhost := (MemSide.dramWrite s part a bs).host
    exact ⟨mread_dramWrite_outside s part h, congrArg (mread · x) hhost, nofun, fun _ => hhost⟩
theorem keepsByte_segMove {s : State} {g : Seg} {x : Nat} (part : Nat) (h : ∀ w ∈ segWrites s g, x < w.1 ∨ w.1 + w.2.length ≤ x) :
    KeepsByte g.dstHost x s (segMove s part g) := by
  have htouch : KeepsByte g.dstHost x s (if g.srcHost then s else dramTouch (dramTouch s part g.src g.sizes.1) part g.aux g.sizes.2.1) := by
    split
    · exact ⟨rfl, rfl, fun _ => rfl, fun _ => rfl⟩
    · rw [dramTouch_cache (dramTouch s _ _ _), dramTouch_cache s]
      exact ⟨rfl, rfl, fun _ => rfl, fun _ => rfl⟩
  refine htouch.trans ?_
  simp only [segMove]
  generalize (if g.srcHost then s else _) = t
  generalize segWrites s g = ws at h
  induction ws generalizing t with
  | nil => exact ⟨rfl, rfl, fun _ => rfl, fun _ => rfl⟩
  | cons w ws ih =>
    have hw := h w List.mem_cons_self
    refine KeepsByte.trans ?_ (ih _ fun v hv => h v (List.mem_cons_of_mem _ hv))
    split
    · have hlen : (freeBytes t w.2.length).1.length = w.2.length := (List.length_map _).trans List.length_range
      exact keepsByte_memWrite (freeBytes t w.2.length).2 part g.dstHost (by rwa [hlen])
    · exact keepsByte_memWrite t part g.dstHost hw

/-! ## Moves, channels and segments (R313 to R325) -/

/-- One waiting transfer takes the free channel of its level. -/
theorem doDmaChannelGrant_one {s : State} {x : Xfer} {c : Nat} (hw : s.dma.wait = [x]) (hc : freeChan s x.level = some c) :
    doDmaChannelGrant s = { s with dma := { s.dma with wait := [], chan := tset s.dma.chan c x } } := by
  have hc' : freeChan { s with dma := { s.dma with wait := [] } } x.level = some c := hc
  rw [doDmaChannelGrant, hw, grantChans, hc']
  rfl
theorem getItem_freeChannel (s : State) (c id : Nat) : getItem (freeChannel s c) id = getItem s id := by
  unfold freeChannel
  split <;> rfl

section
variable {s : State} {c id : Nat} {x : Xfer} {g : Seg} {it : Item} {src back : Bool}

theorem moveEnd_poisoned (hp : segPoisoned s g = true) :
    moveEnd s c id x g src back = endAtBoundary (freeChannel s c) id St.dataPoisoned x.pos := by
  have hdev : g.srcHost = false := by
    cases h : g.srcHost
    · rfl
    · simp [segPoisoned, h] at hp
  simp [moveEnd, hp, hdev]
/-- A segment whose source reads well is moved, and ends as its read-back, its item and its place say. -/
theorem moveEnd_moved (hit : getItem s id = some it) (hp : segPoisoned s g = false)
    (hsrc : g.srcHost = true → src = false ∨ g.count = 0) :
    moveEnd s c id x g src back
      = if back = true ∧ g.dstHost = true ∧ fld g.ctl 12 11 = 2 then
          endAtBoundary (freeChannel (segMove s (partOf s it.fn) g) c) id St.dmaHostError x.pos
        else if (x.stop || itemFailed it || ! it.abortBy.isEmpty) = true then
          endAtBoundary (freeChannel (endOfCount (countSeg (segMove s (partOf s it.fn) g) c) x x.pos g) c) id St.aborted 0
        else if x.segs.length ≤ x.pos + 1 then
          engineDone (freeChannel (endOfCount (countSeg (segMove s (partOf s it.fn) g) c) x x.pos g) c) id
            (x.written + g.sizes.2.2.1 + g.sizes.2.2.2) x.segs.length
        else
          let v := endOfCount (countSeg (segMove s (partOf s it.fn) g) c) x x.pos g
          let q : Xfer := { x with pos := x.pos + 1, written := x.written + g.sizes.2.2.1 + g.sizes.2.2.2 }
          { v with dma := { v.dma with chan := tset v.dma.chan c q } } := by
  have herr : ¬ (g.srcHost = true ∧ src = true ∧ g.count ≠ 0) := by
    rintro ⟨hh, he, hn⟩
    rcases hsrc hh with h | h
    · simp [h] at he
    · exact hn h
  simp only [moveEnd, if_neg herr, hp, Bool.false_eq_true, if_false, hit, Option.map_some, Option.getD_some, Option.all_some,
    Bool.or_assoc, Bool.or_eq_true]
end

/-- Settles O33: a MOVE by its checks, a segment's end by its errors and its place in the list. -/
theorem movesRunSegmentBySegment : Obligations.MovesRunSegmentBySegment := by
  unfold Obligations.MovesRunSegmentBySegment
  refine ⟨⟨fun s id it e hit => ⟨?bad, ?list, ?seg, ?empty, ?queue⟩, fun s => rfl, ?grant, ?move, ?data⟩,
    fun s part g a h => keepsByte_segMove part h⟩
  case bad => exact fun st h => next_congr (by simp only [doMove, hit, h])
  case list => exact fun segs k h hl => next_congr (by simp [doMove, hit, h, hl])
  case seg => exact fun segs st i h hl hs => next_congr (by simp [doMove, hit, h, hl, hs])
  case empty =>
    intro h
    have hlist : listFails it [] e = none := by simp [listFails]
    have hnone : ((listFails it [] e).map (fun k => (St.dmaHostError, k)) <|> segsFail s it [] 0) = none := by
      rw [hlist]
      rfl
    exact next_congr (by simp only [doMove, hit, h, hnone, List.isEmpty_nil, if_true])
  case queue => exact fun segs h hl hs hne => next_congr (by simp [doMove, hit, h, hl, hs, hne])
  case grant =>
    intro s x c hw hc
    exact ⟨_, next_congr (doDmaChannelGrant_one hw hc), tget_tset_self _ _ _, rfl, rfl⟩
  case move =>
    intro s c id x g it src back hx hg hwho hit
    have hend : doDmaSegmentEnd c src back s = vfSettle (moveEnd s c id x g src back) := by
      simp only [doDmaSegmentEnd, hx, hg, hwho]
    refine ⟨fun hh he hn => ?_, fun hp => ?_, fun hp hsrc => ?_⟩
    · exact next_congr (hend.trans (congrArg vfSettle (if_pos ⟨hh, he, hn⟩)))
    · exact next_congr (hend.trans (congrArg vfSettle (moveEnd_poisoned hp)))
    intro u readBack
    have hmoved := hend.trans (congrArg vfSettle (moveEnd_moved hit hp hsrc))
    refine ⟨fun hr hb => next_congr (hmoved.trans (congrArg vfSettle (if_pos ⟨hb, hr⟩))), fun hr => ?_⟩
    have hback : ¬ (back = true ∧ g.dstHost = true ∧ fld g.ctl 12 11 = 2) := fun h => by simp [hr h.2] at h
    replace hmoved := hmoved.trans (congrArg vfSettle (if_neg hback))
    intro v written stops
    refine ⟨fun hs => next_congr (hmoved.trans (congrArg vfSettle ?_)), fun hs hlt => next_congr (hmoved.trans (congrArg vfSettle ?_)),
      fun hs hle => next_congr (hmoved.trans (congrArg vfSettle ?_))⟩
    · exact if_pos hs
    · exact (if_neg (by simp [stops] at hs; simp [hs])).trans (if_neg (Nat.not_le.mpr hlt))
    · exact (if_neg (by simp [stops] at hs; simp [hs])).trans (if_pos hle)
  case data =>
    intro s c id cmd x g it src back hx hg hwho hit hfail hab hstop hsrc u
    have hend : doDmaSegmentEnd c src back s = vfSettle (xferDataEnd s c id cmd x g src) := by
      simp only [doDmaSegmentEnd, hx, hg, hwho]
    have hitem : getItem u id = some it := (getItem_freeChannel _ c id).trans hit
    refine next_congr (hend.trans (congrArg vfSettle ?_))
    have herr : ¬ (g.srcHost = true ∧ src = true) := fun h => by simp [hsrc h.1] at h
    simp only [xferDataEnd, u] at hitem ⊢
    simp [hitem, hfail, hab, hstop, herr]

/-! ## Resizes and virtual functions (R327, R331 to R336) -/

section
variable {s : State} {u : Nat} {r : Resize}

/-- A unit that may leave takes its group with it. -/
theorem doResizeUnitMove_moves (hr : s.fns.resize = some r) (hu : u ∈ r.left) (hhost : r.kind = 1 → hosts s u = [])
    (hz : ¬ (r.kind = 9 ∧ r.zero = true ∧ rzWaited s r = true)) : doResizeUnitMove u s
      = if (! unitMay s r u) = true ∨ (! rzMay s r (unitGroup r u).length) = true then s
        else
          let v := assignNow (unitsTo s r (unitGroup r u)) r
          let q := { r with left := r.left.filter (fun x => ! (unitGroup r u).contains x), moved := r.moved + (unitGroup r u).length }
          if q.left.isEmpty then
            schedule (commitNow { v with fns := { v.fns with resize := none } } q.item
              (rzMoved { v with fns := { v.fns with resize := none } } q) (now { v with fns := { v.fns with resize := none } }))
          else schedule { v with fns := { v.fns with resize := some q } } := by
  have hleft : ¬ (! r.left.contains u) = true := by simp [hu]
  have hhosts : ¬ (r.kind = 1 ∧ (! (hosts s u).isEmpty) = true) := fun h => by simp [hhost h.1] at h
  simp only [doResizeUnitMove, hr, if_neg hleft, if_neg hhosts, if_neg hz]
end

/-- Settles O34: a resize by its checks, a unit by what still holds it, VF Enable by its bit. -/
theorem resizeMovesItsUnits : Obligations.ResizeMovesItsUnits := by
  unfold Obligations.ResizeMovesItsUnits
  refine ⟨⟨fun s id it hit => ⟨?earlier, ?check, ?nothing, ?start⟩, fun s u r hr hu => ⟨?remake, ?zero⟩,
    fun s u r hr hu hhost hz => ⟨?waits, ?moves⟩⟩, fun s n hup => ⟨?enable, ?noclear, ?clear⟩⟩
  case earlier => exact fun h => next_congr (by simp only [doFnResize, hit, h, if_true])
  case check => exact fun st h hc => next_congr (by simp only [doFnResize, hit, h, Bool.false_eq_true, if_false, hc])
  case nothing =>
    intro h hc hcount hfrom
    have hrun : doFnResize id s = if gateOpen s id it then commitNow s id 0 (now s) else s := by
      simp only [doFnResize, hit, h, Bool.false_eq_true, if_false, hc]
      exact if_pos ⟨hcount, hfrom⟩
    exact ⟨fun hg => next_congr (hrun.trans (if_pos hg)), fun hg => next_congr (hrun.trans (if_neg (by simp [hg])))⟩
  case start =>
    intro h hc hunits r
    refine next_congr ?_
    simp only [doFnResize, hit, h, Bool.false_eq_true, if_false, hc]
    refine if_neg fun hno => ?_
    rcases hunits with hcount | hfrom
    · exact hcount hno.1
    · simp [hfrom] at hno
  case remake =>
    intro hk hh
    exact next_congr (by simp [doResizeUnitMove, hr, hu, hk, hh])
  case zero =>
    intro hk hz hw
    exact next_congr (by simp [doResizeUnitMove, hr, hu, hk, hz, hw])
  case waits =>
    intro h
    refine next_congr ((doResizeUnitMove_moves hr hu hhost hz).trans (if_pos ?_))
    simpa using h
  case moves =>
    intro hm hz' us v q
    have hgo := (doResizeUnitMove_moves hr hu hhost hz).trans (if_neg (by simp [hm, hz']))
    exact ⟨fun hq => next_congr (hgo.trans (if_neg (mt List.isEmpty_iff.mp hq))),
      fun hq => next_congr (hgo.trans (if_pos (List.isEmpty_iff.mpr hq)))⟩
  case enable =>
    intro hen hclr hn
    have hrun : doVfEnable n s = { s with fns := { s.fns with vfEnable := true, numVFs := n } } := by
      simp [doVfEnable, hup, hen, hclr, hn]
    refine ⟨_, next_congr hrun, fun f => ?_, rfl, rfl⟩
    by_cases hf : f = 0
    · simp [fnExists, hf]
    · by_cases hle : f ≤ n
      · simp [fnExists, hle, Nat.le_trans hle hn]
      · simp [fnExists, hf, hle]
  case noclear => exact fun hen => next_congr (by simp [doVfEnableClear, vfClear, hup, hen])
  case clear => exact fun hen => next_congr (by simp only [doVfEnableClear, vfClear, hup, hen, if_true]; rfl)

end Sys2Proof.Machine

/-! # Cipher and digest engines (chapter 18) -/

namespace Sys2Proof.Machine
open Sys2Proof Sys2Proof.Safety

/-! ## Key slots and the staging data (R388, R389) -/

section
variable (s : State)

theorem keySlot_eraseSlot_ne {k j : Nat} (h : j ≠ k) : keySlot (eraseSlot s k) j = keySlot s j := by
  unfold eraseSlot
  split
  · rfl
  · exact keySlot_setSlot_ne s _ _ _ h
/-- A slot marked for erasure is present no more. -/
theorem slotPresent_eraseSlot (k : Nat) : slotPresent (eraseSlot s k) k = false := by
  by_cases h : (keySlot s k).typ = 0
  · rw [eraseSlot, if_pos h, slotPresent, h]
    rfl
  · rw [eraseSlot, if_neg h, slotPresent, keySlot_setSlot_self]
    simp

/-- Every write of CIPH_KEY_CMD leaves the staging data of its function empty and its error code, whatever slot `k` it changed before. -/
theorem keyCmdEnd_ends {t : State} (fn err k : Nat) (hst : t.ciph.staging = s.ciph.staging)
    (hk : ∀ j, j ≠ k → keySlot t j = keySlot s j) :
    tget (keyCmdEnd t fn err).ciph.staging fn = none ∧ tget (keyCmdEnd t fn err).ciph.err fn = some err
      ∧ (∀ f, f ≠ fn → tget (keyCmdEnd t fn err).ciph.staging f = tget s.ciph.staging f)
      ∧ ∀ j, j ≠ k → keySlot (keyCmdEnd t fn err) j = keySlot s j :=
  ⟨tget_terase_self _ _, tget_tset_self _ _ _, fun f hf => (tget_terase_ne _ _ _ hf).trans (by rw [hst]), hk⟩
theorem staging_eraseSlot (k : Nat) : (eraseSlot s k).ciph.staging = s.ciph.staging := by
  unfold eraseSlot
  split <;> rfl
theorem keySlot_terase_self (k : Nat) : keySlot { s with ciph := { s.ciph with slots := terase s.ciph.slots k } } k = {} := by
  simp only [keySlot, tgetD, tget_terase_self, Option.getD_none]
theorem keySlot_terase_ne {k j : Nat} (h : j ≠ k) :
    keySlot { s with ciph := { s.ciph with slots := terase s.ciph.slots k } } j = keySlot s j := by
  simp only [keySlot, tgetD, tget_terase_ne _ _ _ h]
end

/-- Settles O35: each key command by its code, with the same end. -/
theorem keyCommandsZeroiseTheStaging : Obligations.KeyCommandsZeroiseTheStaging := by
  unfold Obligations.KeyCommandsZeroiseTheStaging
  refine ⟨fun s p v h => ?commands, fun s k her hu => ?done, fun s i fn => ⟨?core, ?smbus, ?jtag⟩⟩
  case commands =>
    intro u fn w slot data e ends
    have hrun := rowWriteVal_of h v
    refine ⟨fun hv => ?_, fun hv hh => ?_, fun hv hh => ?_, fun hv => ?_⟩
    · have hload := (hrun (doKeyLoad p v)).trans (if_neg (Decidable.not_not.mpr hv))
      by_cases he : e = 0
      · simp only [e, fn, slot, w, data, u] at he
        simp only [he, if_true] at hload
        refine ⟨_, next_congr hload, ?_, fun _ => keySlot_setSlot_self u slot _, fun hne => absurd he hne⟩
        simp only [ends, e, fn, slot, w, data, u, he]
        exact keyCmdEnd_ends s _ _ _ rfl fun j hj => keySlot_setSlot_ne u _ _ _ hj
      · have hstay (x y : State) : (if e = 0 then x else y) = y := if_neg he
        refine ⟨_, next_congr (hload.trans (congrArg (keyCmdEnd · fn e) (hstay _ _))),
          keyCmdEnd_ends s _ _ _ rfl fun _ _ => rfl, fun h0 => absurd h0 he, fun _ => rfl⟩
    · refine ⟨_, next_congr (((hrun (doKeyErase p v)).trans (if_neg (Decidable.not_not.mpr hv))).trans (if_neg (Decidable.not_not.mpr hh))), ?_, ?_⟩
      · exact keyCmdEnd_ends s _ _ _ (staging_eraseSlot u slot) fun j hj => keySlot_eraseSlot_ne u hj
      · exact slotPresent_eraseSlot u slot
    · refine ⟨_, next_congr (((hrun (doKeyErase p v)).trans (if_neg (Decidable.not_not.mpr hv))).trans (if_pos hh)), ?_, rfl⟩
      exact keyCmdEnd_ends s _ _ _ rfl fun _ _ => rfl
    · refine ⟨_, next_congr ((hrun (doStagingZeroise p v)).trans (if_neg (by omega))), ?_, rfl⟩
      exact keyCmdEnd_ends s _ _ _ rfl fun _ _ => rfl
  case done =>
    refine ⟨_, next_congr (if_pos ⟨her, hu⟩), ?_, ?_, ?_, fun j hj => keySlot_terase_ne s hj⟩
    all_goals rw [keySlot_terase_self]
  case core => rfl
  case smbus => rfl
  case jtag => rfl

/-! ## Items of the engines (R393 to R400) -/

/-- A cipher request that ends, by the poison of what it read. -/
theorem doCipherMessageDone_of {s : State} {a : Nat} (pair : Option Nat) {r : CReq} {it : Item} (hr : tget s.ciph.creqs a = some r)
    (hcore : r.core.isSome = true) (hmv : dataMoving s r.item = false) (hit : getItem (ciphEnd s a) r.item = some it) :
    doCipherMessageDone a pair s
      = if ((cBody it).srcHost = false ∧ (poisonedIn (ciphEnd s a) (cBody it).src (cBody it).len = true
            ∨ ((cBody it).first = true ∧ poisonedIn (ciphEnd s a) (cBody it).aadAddr (cBody it).aadLen = true)))
          ∨ ((cBody it).dstHost = false ∧ (cBody it).verify = true
            ∧ poisonedIn (ciphEnd s a) (cBody it).tagAddr (cBody it).tagLen = true)
        then engineFail (ciphEnd s a) r.item St.dataPoisoned 0 0 else cipherFinish (ciphEnd s a) r.item it (cBody it) r pair := by
  have hcore' : r.core ≠ none := Option.isSome_iff_ne_none.mp hcore
  simp [doCipherMessageDone, hr, hcore', hmv, hit, and_assoc]
/-- A digest request of an item that ends. -/
theorem doDigestMessageDone_of {s : State} {a id : Nat} (pair : Option Nat) {r : DReq} (hr : tget s.ciph.dreqs a = some r)
    (hcore : r.core.isSome = true) (hitem : r.item = some id) (hmv : dataMoving s id = false) :
    doDigestMessageDone a pair s = digestItemDone (digEnd s a) id r pair := by
  have hcore' : r.core ≠ none := Option.isSome_iff_ne_none.mp hcore
  simp [doDigestMessageDone, hr, hcore', hitem, hmv]

/-- Settles O36: an item of an engine by its first failing check, a request's end by the poison of what it read. -/
theorem engineItemsCheckThenRun : Obligations.EngineItemsCheckThenRun := by
  unfold Obligations.EngineItemsCheckThenRun
  refine ⟨fun s id it hit => ⟨?cfail, ?cnothing, ?cruns⟩, fun s id it hit => ⟨?dfail, ?dnothing, ?druns⟩,
    fun s a pair r it hr hcore hmv => ?cdone, fun s a id pair r it hr hcore hitem hmv hit => ⟨?poisoned, ?digested⟩,
    fun s a pair r hr hcore hitem => ?sill⟩
  case cfail => exact fun st h => next_congr (by simp only [doCipher, hit, h])
  case cnothing =>
    intro h hl hm
    refine next_congr ?_
    simp only [doCipher, hit, h]
    exact if_pos ⟨hl, by simp [hm]⟩
  case cruns =>
    intro h hl k rq
    refine next_congr ?_
    simp only [doCipher, hit, h]
    refine if_neg fun hno => ?_
    rcases hl with hl | hm
    · exact hl hno.1
    · simp [hm] at hno
  case dfail => exact fun st h => next_congr (by simp only [doDigest, hit, h])
  case dnothing =>
    intro h hl hm
    refine next_congr ?_
    simp only [doDigest, hit, h]
    exact if_pos ⟨hl, by simp [hm]⟩
  case druns =>
    intro h hl rq
    refine next_congr ?_
    simp only [doDigest, hit, h]
    refine if_neg fun hno => ?_
    rcases hl with hl | hm
    · exact hl hno.1
    · simp [hm] at hno
  case cdone =>
    intro u hit b bad
    have hrun := doCipherMessageDone_of pair hr hcore hmv hit
    exact ⟨fun hb => next_congr (hrun.trans (if_pos hb)), fun hb => next_congr (hrun.trans (if_neg hb))⟩
  case poisoned =>
    intro hsrc hp
    refine next_congr ((doDigestMessageDone_of pair hr hcore hitem hmv).trans ?_)
    simp only [digestItemDone, hit]
    exact if_pos (by simp [hsrc, hp])
  case digested =>
    intro h
    refine next_congr ((doDigestMessageDone_of pair hr hcore hitem hmv).trans ?_)
    simp only [digestItemDone, hit]
    exact if_neg (by rcases h with h | h <;> simp [h])
  case sill =>
    have hcore' : r.core ≠ none := Option.isSome_iff_ne_none.mp hcore
    exact next_congr (by simp [doDigestMessageDone, hr, hcore', hitem])

end Sys2Proof.Machine

/-! # Bridy ports (chapter 17) -/

namespace Sys2Proof.Machine
open Sys2Proof Sys2Proof.Safety

section
variable (s : State) (n : Nat)

/-- What a disable makes of its port (R378). -/
def disabledPort (p : BPort) : BPort :=
  let q := if p.st = BSt.halt then
      { p with unacked := [], txFseq := 0, rxFseq := 0, classes := [], inbox := [], sinceMsg := 0, lastPeer := none }
    else p
  { q with st := BSt.disabled, preGrants := [], issued := [], granted := false, swapWait := none, retryAt := none }
theorem bryPort_bryDisable : bryPort (bryDisable s n) n = disabledPort (bryPort s n) := bryPort_modBry_self _ _ _
theorem bryPort_bryTrain : bryPort (bryTrain s n) n
    = { bryPort s n with st := BSt.training, cause := if bryKeys s n then (bryPort s n).cause else 5 } := bryPort_modBry_self _ _ _
end

/-- Settles O38: each event of a port by its state. -/
theorem portsTrainAndFail : Obligations.PortsTrainAndFail := by
  unfold Obligations.PortsTrainAndFail
  refine fun s n => ⟨fun p v hn h => ⟨?enable, ?again, ?disable⟩, fun p v hn h => ?epoch, fun hst hdue => ?silent,
    fun hst hdue => ?retrain,
    fun devser nextF rtt hn hst => ⟨fun hk => ?keys, fun d hk hd hne => ?halt, fun hk hd => ?up⟩⟩
  case enable =>
    intro hv hst
    refine ⟨_, next_congr ((rowWriteVal_of h v _).trans ((if_neg (by simp [hv]; omega)).trans (if_pos hst))), ?_, ?_, rfl,
      fun m hm => ?_⟩
    · rw [bryTrain, bryPort_modBry_self]
    · rw [bryTrain, bryPort_modBry_self, bryPort_modBry_self]
    · rw [bryTrain, bryPort_modBry_ne _ _ _ _ hm, bryPort_modBry_ne _ _ _ _ hm]
      rfl
  case again =>
    intro hv hst
    exact next_congr ((rowWriteVal_of h v _).trans ((if_neg (by simp [hv]; omega)).trans (if_neg hst)))
  case disable =>
    intro hv
    refine ⟨_, next_congr ((rowWriteVal_of h v _).trans (if_neg (by simp [hv]; omega))), ?_, ?_, ?_, fun hst => ?_, fun hst => ?_⟩
    · rw [bryPort_bryDisable]
      rfl
    · rw [bryPort_bryDisable]
      rfl
    · rfl
    · have hport : bryPort (bryCtlWrite (dropHalves s p) n v) n = bryPort s n := rfl
      rw [bryPort_bryDisable, hport, disabledPort, if_pos hst]
      exact ⟨rfl, rfl, rfl⟩
    · have hport : bryPort (bryCtlWrite (dropHalves s p) n v) n = bryPort s n := rfl
      rw [bryPort_bryDisable, hport, disabledPort, if_neg hst]
      exact ⟨rfl, rfl⟩
  case epoch =>
    intro u
    have hrun := (rowWriteVal_of h v (doTxEpochChange p n v)).trans (if_neg (Nat.not_le.mpr hn))
    by_cases he : bryEpoch u n = bryEpoch s n
    · exact ⟨_, next_congr (hrun.trans (if_pos he)), rfl, (if_pos he).symm⟩
    · refine ⟨_, next_congr (hrun.trans (if_neg he)), rfl, ?_⟩
      rw [bryPort_modBry_self, if_neg he]
  case silent =>
    refine ⟨_, next_congr (if_pos ⟨hst, hdue⟩), ?_, ?_, ?_, ?_⟩
    all_goals rw [bryDown, bryPort_modBry_self]
  case retrain =>
    refine ⟨_, next_congr (if_pos ⟨hst, hdue⟩), ?_, ?_⟩
    all_goals rw [bryPort_bryTrain]
    rw [bryPort_modBry_self]
  case keys =>
    refine ⟨_, next_congr ((if_neg (by simp [hst]; omega)).trans (if_pos (by simp [hk]))), ?_, ?_⟩
    all_goals rw [bryPort_modBry_self]
    exact hst
  case halt =>
    refine ⟨_, next_congr ((if_neg (by simp [hst]; omega)).trans ((if_neg (by simp [hk])).trans (if_pos (by simp [hd, hne])))), ?_, ?_⟩
    all_goals rw [bryHalt, bryPort_modBry_self]
  case up =>
    have hpeer : ¬ ((bryPort s n).lastPeer.any (fun d => d != devser)) = true := by
      cases hl : (bryPort s n).lastPeer with
      | none => simp
      | some d => simp [hd d hl]
    exact next_congr ((if_neg (by simp [hst]; omega)).trans ((if_neg (by simp [hk])).trans (if_neg hpeer)))

end Sys2Proof.Machine

/-! # Flits and packets of Bridy (chapter 17) -/

namespace Sys2Proof.Machine
open Sys2Proof Sys2Proof.Safety

section
variable (s : State) (n : Nat)

theorem bry_logEvent (evid fn a0 a1 a2 : Nat) : (logEvent s evid fn a0 a1 a2).bry = s.bry := by
  unfold logEvent
  split <;> rfl
theorem rxFseq_laneSwapped (dir lane : Nat) : (bryPort (laneSwapped s n dir lane) n).rxFseq = (bryPort s n).rxFseq := by
  have hbry : (laneSwapped s n dir lane).bry = (modBry s n (fun p => { p with swaps := satAdd 8 p.swaps 1 })).bry := by
    simp only [laneSwapped, bry_logEvent]
    rfl
  have hport : bryPort (laneSwapped s n dir lane) n = bryPort (modBry s n (fun p => { p with swaps := satAdd 8 p.swaps 1 })) n := by
    rw [bryPort, hbry, ← bryPort]
  rw [hport, bryPort_modBry_self]
/-- Taking what a flit says of the link leaves the next sequence number to come. -/
theorem rxFseq_takeLink (f : List Byte) : (bryPort (takeLink s n f) n).rxFseq = (bryPort s n).rxFseq := by
  have hlink : (bryPort (modBry s n (fun p =>
      let p := { p with goodAt := now s, unacked := dropAcked (beAt f 5 3) p.unacked }
      (List.range 3).foldl (fun p c => p.setCls c { p.cls c with cred := (p.cls c).cred + beAt f (8 + c) 1 }) p)) n).rxFseq
        = (bryPort s n).rxFseq := by
    rw [bryPort_modBry_self]
    rfl
  unfold takeLink
  dsimp only
  split
  · rw [rxFseq_laneSwapped, bryPort_setBry_self]
    exact hlink
  · exact hlink

variable {s n}
theorem takeInbox_eq {cls ptype : Nat} {k : BPacket} {u : State} (h : takeInbox s n cls ptype = some (k, u)) :
    u = modBry s n (fun p => { p with inbox := p.inbox.erase k }) := by
  unfold takeInbox at h
  split at h
  · split at h
    · cases h
      rfl
    · cases h
  · cases h
/-- A payload flit whose CRC is good but whose number is not the next is asked for again. -/
theorem doPayloadFlit_other {f : List Byte} {corr uncorr : Nat}
    (hgo : ¬ ((bryPort (fecCount s n corr uncorr) n).st ≠ BSt.up ∨ flitType f ≠ 1)) (hg : flitGood f = true)
    (hq : beAt f 2 3 ≠ (bryPort (fecCount s n corr uncorr) n).rxFseq) : doPayloadFlit n f corr uncorr s
      = askRetry (modBry (takeLink (fecCount s n corr uncorr) n f) n (fun p => { p with crcErr := satAdd 16 p.crcErr 1 })) n := by
  simp only [doPayloadFlit, if_neg hgo, hg, Bool.not_true, Bool.false_eq_true, if_false, if_pos hq]
end

/-- Settles O39: a flit by its type, its CRC and its number, a packet by its type and what waits for it. -/
theorem flitsAndPacketsAreTakenInOrder : Obligations.FlitsAndPacketsAreTakenInOrder := by
  unfold Obligations.FlitsAndPacketsAreTakenInOrder
  refine ⟨fun s n f corr uncorr => ⟨?idle, ?retry, ?payload, ?swap, ?swapped, ?again, ?swapRepeat, ?lane, ?down⟩,
    fun s n k u => ⟨?msg, ?cmd, ?preGrant, ?grant, ?data, ?rsp⟩⟩
  case idle => exact fun h => next_congr (if_pos h)
  case retry => exact fun h => next_congr (if_pos h)
  case payload =>
    intro hst hty bad v
    have hgo : ¬ ((bryPort (fecCount s n corr uncorr) n).st ≠ BSt.up ∨ flitType f ≠ 1) := by
      rw [fecCount, bryPort_modBry_self]
      simp [hst, hty]
    refine ⟨fun hg => next_congr ((if_neg hgo).trans (if_pos (by simp [hg]))), fun hg hq => next_congr ?_,
      fun hg hq => ⟨?_, next_congr ?_⟩⟩
    · exact doPayloadFlit_other hgo hg (by rwa [← rxFseq_takeLink _ n f])
    · rw [bryPort_modBry_self]
    · have hnot : ¬ (beAt f 2 3 ≠ (bryPort (fecCount s n corr uncorr) n).rxFseq) := Decidable.not_not.mpr (by rwa [← rxFseq_takeLink _ n f])
      simp only [doPayloadFlit, if_neg hgo, hg, Bool.not_true, Bool.false_eq_true, if_false, if_neg hnot, v]
  case swap =>
    intro h hsp lane v
    refine next_congr (congrArg (secondFault s) ((if_pos h).trans ?_))
    simp only [hsp]
    rfl
  case swapped =>
    intro h l hsp
    refine next_congr (congrArg (secondFault s) ((if_pos h).trans ?_))
    simp only [hsp]
    split
    · next hl => rw [hl]
    · rfl
  case again => exact fun t ht hst hle => next_congr (by simp only [doRetryReqRepeat, ht]; exact if_pos ⟨hst, hle⟩)
  case swapRepeat => exact fun lane t ht hst hle => next_congr (by simp only [doSwapReqRepeat, ht]; exact if_pos ⟨hst, hle⟩)
  case lane =>
    intro lane hst hl hsp hw
    refine next_congr (congrArg (secondFault s) ((if_neg (by simp [hst]; omega)).trans ((if_neg (by simp [hsp, hw])).trans (if_neg ?_))))
    simp [hw]
  case down =>
    intro lane hst hl hor
    refine next_congr (congrArg (secondFault s) ((if_neg (by simp [hst]; omega)).trans (if_pos ?_)))
    rcases hor with hsp | ⟨l, t, hw, hne⟩
    · exact .inl (Option.isSome_iff_ne_none.mpr hsp)
    · exact .inr (by simp [hw, hne])
  case msg =>
    intro hk
    have hu := takeInbox_eq hk
    refine ⟨_, next_congr (by simp only [doMsgPacket, hk]; rfl), ?_, ?_⟩
    all_goals rw [bryPort_modBry_self, hu, bryPort_modBry_self]
  case cmd => exact fun hk => next_congr (by simp only [doBridyCmd, hk])
  case preGrant =>
    intro hk hz
    refine ⟨_, next_congr (by simp only [doXferRdy, hk, if_pos hz]; rfl), ?_⟩
    rw [bryPort_modBry_self, takeInbox_eq hk, bryPort_modBry_self]
  case grant => exact fun a c f hk hne hf hcu => next_congr (by simp only [doXferRdy, hk, if_neg hne, hcu, hf]; rfl)
  case data =>
    intro hk peer found
    have hrun : doDataPacket n s = match found with
        | none => modBry u n (fun x => { x with dataDiscard := satAdd 4 x.dataDiscard 1 })
        | some (j, c) =>
          if beAt k.body 8 4 + beAt k.body 12 4 > c.decl then ledTick (endCmd u j St.ledgerOverrun 0 0)
          else ledTick (setCmd u j (placeData c (beAt k.body 8 4) (sub k.body 16 (beAt k.body 12 4)))) := by
      simp only [doDataPacket, hk]
      rfl
    refine ⟨fun hf => ?_, fun j c hf hlt => next_congr ?_, fun j c hf hle => next_congr ?_⟩
    · rw [hf] at hrun
      refine ⟨_, next_congr hrun, ?_, ?_⟩
      · rw [bryPort_modBry_self, takeInbox_eq hk, bryPort_modBry_self]
      · rw [takeInbox_eq hk]
        rfl
    · rw [hf] at hrun
      exact hrun.trans (if_pos hlt)
    · rw [hf] at hrun
      exact hrun.trans (if_neg (Nat.not_lt.mpr hle))
  case rsp =>
    intro a c hk hcu
    exact ⟨fun hst => next_congr (by simp only [doRspPacket, hk, hcu]; exact if_pos hst),
      fun hst => next_congr (by simp only [doRspPacket, hk, hcu]; exact if_neg (Decidable.not_not.mpr hst))⟩

end Sys2Proof.Machine

/-! # The Ledger Store (chapter 16) -/

namespace Sys2Proof.Machine
open Sys2Proof Sys2Proof.Safety

/-! ## LEDGER items (R342 to R346) -/

section
variable {s : State} {id : Nat} {it : Item} {codes : Nat → Bool} {go : State → Item → LBody → State}

/-- A LEDGER item with a command of `codes`, by the case its checks come to. -/
theorem ledItem_of (hit : itemAt s id 0x40 0 = some it) (hc : codes (lBody it).lcmd = true) :
    ledItem id codes go s = match ledCase s it (lBody it) with
      | .fail st => failItem s id st 0 0
      | .attach c => ledAttach s id c
      | .stored e => ledStored s id e
      | .none0 => ledNothing s id
      | .go => if slotFree s false then go s it (lBody it) else s := by
  simp only [ledItem, hit, hc, Bool.not_true, Bool.false_eq_true, if_false] <;> rfl
theorem ledItem_go (hit : itemAt s id 0x40 0 = some it) (hc : codes (lBody it).lcmd = true) (hcase : ledCase s it (lBody it) = .go)
    (hfree : slotFree s false = true) : ledItem id codes go s = go s it (lBody it) := by
  rw [ledItem_of hit hc, hcase]
  exact if_pos hfree
end

/-- The commands of the LEDGER items, by their code. -/
def ledCommands (id : Nat) : List (Nat × Instr) :=
  [(1, .ledgerRead id), (2, .ledgerWrite id), (3, .ledgerAppend id), (4, .ledgerFlush id), (5, .ledgerTrim id), (8, .logRead id),
    (9, .ledgerResume id)]
/-- Does `i` run the LEDGER items of code `n`, taking each but an append and a resume as it stands? -/
def RunsLedger (id n : Nat) (i : Instr) : Prop :=
  ∃ codes go, (∀ s, exec i s = .next (ledItem id codes go s)) ∧ codes n = true
    ∧ (n ≠ 3 → n ≠ 9 → ∀ s it b, go s it b = ledAccept s id it b [])
theorem runsLedger_of_mem {id : Nat} {x : Nat × Instr} (h : x ∈ ledCommands id) : RunsLedger id x.1 x.2 := by
  simp only [ledCommands, List.mem_cons, List.not_mem_nil, or_false] at h
  rcases h with rfl | rfl | rfl | rfl | rfl | rfl | rfl
  · exact ⟨_, _, fun _ => rfl, rfl, fun _ _ _ _ _ => rfl⟩
  · exact ⟨_, _, fun _ => rfl, rfl, fun _ _ _ _ _ => rfl⟩
  · exact ⟨_, _, fun _ => rfl, rfl, fun h => absurd rfl h⟩
  · exact ⟨_, _, fun _ => rfl, rfl, fun _ _ _ _ _ => rfl⟩
  · exact ⟨_, _, fun _ => rfl, rfl, fun _ _ _ _ _ => rfl⟩
  · exact ⟨_, _, fun _ => rfl, rfl, fun _ _ _ _ _ => rfl⟩
  · exact ⟨_, _, fun _ => rfl, rfl, fun _ h => absurd rfl h⟩

/-! ## Ledger ADMIN commands (R356 to R364) -/

section
variable {s : State} {id : Nat} {it : Item} {bad own : Bool} {v lcmd : Nat} {post : Option Nat} {go : State → State}

/-- An operation that no item resumes, by the case of its key. -/
theorem opItem_of (hbad : bad = false)
    (hop : s.led.op.any (fun o => o.item.isNone && some o.key == it.ikey && it.ikey.isSome && o.vol == v) = false) :
    opItem s id it bad own v lcmd post go = match ledKeyCase s it v lcmd own with
      | .fail st => failItem s id st 0 0
      | .attach c => ledAttach s id c
      | .stored e => ledStored s id e
      | .none0 => s
      | .go => (match post with
        | some st => failItem s id st 0 0
        | none => go s) := by
  simp only [opItem, hbad, hop, Bool.false_eq_true, if_false] <;> rfl
end

/-- Settles O40: each LEDGER item by its case, each ADMIN command by its body, its key and its checks. -/
theorem ledgerItemsAreAccepted : Obligations.LedgerItemsAreAccepted := by
  unfold Obligations.LedgerItemsAreAccepted
  refine ⟨fun s id it hit => ⟨?other, ?cases, ?append, ?resume⟩, fun s id it => ⟨?sanitise, ?format, ?pool, ?rebuild, ?operation⟩⟩
  case other =>
    intro st hc hcase
    refine next_congr ((ledItem_of hit ?_).trans ?_)
    · rw [hc, Bool.not_false, Bool.or_true]
    · rw [hcase]
  case cases =>
    intro x hx hcode
    obtain ⟨codes, go, hexec, hcodes, hgo⟩ := runsLedger_of_mem hx
    rw [← hcode] at hcodes
    have hrun := (hexec s).trans (next_congr (ledItem_of (go := go) hit hcodes))
    refine ⟨fun st h => ?_, fun c h => ?_, fun e h => ?_, fun h => ?_, fun h hf => ?_, fun h hf h3 h9 => ?_⟩
    all_goals simp only [h] at hrun
    · exact hrun
    · exact hrun
    · exact hrun
    · exact hrun
    · exact hrun.trans (next_congr (if_neg (by simp [hf])))
    · rw [hcode] at h3 h9
      exact hrun.trans (next_congr ((if_pos hf).trans (hgo h3 h9 _ _ _)))
  case append =>
    intro hcode hcase hfree
    have hrun : doLedgerAppend id s = _ := ledItem_go hit (by rw [hcode]; rfl) hcase hfree
    refine ⟨fun hb hp => next_congr (hrun.trans (if_pos (by simp [hb, hp]))), fun hor => next_congr (hrun.trans (if_neg ?_))⟩
    rcases hor with h | h <;> simp [h]
  case resume =>
    intro hcode hcase hfree v ws u w x r0
    have hrun : doLedgerResume id s = _ := ledItem_go hit (by rw [hcode]; rfl) hcase hfree
    exact ⟨by rw [getVol_modVol_self], (freeRes x).1, next_congr hrun⟩
  case sanitise => exact fun hit => next_congr (by simp only [doSanitise, hit])
  case format =>
    exact fun hit h1 h2 => next_congr (by simp only [doFormat, hit]; exact if_neg (not_or.mpr ⟨h1, h2⟩))
  case pool => exact fun hit h => next_congr (by simp only [doPoolFormat, hit]; exact if_neg (Decidable.not_not.mpr h))
  case rebuild =>
    intro hit h
    refine ⟨_, next_congr (by simp only [doDriveRebuild, hit]; exact if_neg (Decidable.not_not.mpr h)), fun hg => ?_, fun hg => ?_⟩
    all_goals simp [hg]
  case operation =>
    intro bad own v lcmd post go
    refine ⟨fun h => if_pos h, fun h hop => ⟨fun st hk => ?_, fun c hk => ?_, fun e hk => ?_, fun st hk => ?_, fun hk => ?_⟩,
      fun o h ho hi hkey hv => ?_⟩
    · rw [opItem_of h hop, hk]
    · rw [opItem_of h hop, hk]
    · rw [opItem_of h hop, hk]
    · rw [opItem_of h hop, hk]
    · rw [opItem_of h hop, hk]
    · have hres : s.led.op.any (fun o => o.item.isNone && some o.key == it.ikey && it.ikey.isSome && o.vol == v) = true := by
        simp [ho, hi, hkey, hv]
      simp only [opItem, h, Bool.false_eq_true, if_false]
      exact if_pos hres

end Sys2Proof.Machine

/-! # The Ledger engine's own events (chapter 16) -/

namespace Sys2Proof.Machine
open Sys2Proof Sys2Proof.Safety

section
variable {s : State} {u : Nat} {c : CU}

/-- A data write without a bad block makes its unit ready, with its blocks where they were. -/
theorem doLedgerDataWriteDone_good (hc : tget s.led.cus u = some c) (hst : c.st = .writing) : doLedgerDataWriteDone u [] s
    = ledTick (afterDrives (modCu (c.data.foldl (fun s d => drvWrite s d.1 d.2) s) u (fun c' => { c' with
        st := .ready, data := c.data, ents := if c'.ckind = 2 then c'.ents else joinRuns (c.ents.flatMap entBlocks) }))) := by
  have hready : ¬ (c.st = .ready) := by rw [hst]; decide
  simp only [doLedgerDataWriteDone, hc, if_neg hready, if_neg (Decidable.not_not.mpr hst), List.foldl_nil, List.find?_nil, Option.map_none,
    Option.getD_none, List.map_id']
/-- Any data write makes its unit ready. -/
theorem doLedgerDataWriteDone_writing (hc : tget s.led.cus u = some c) (hst : c.st = .writing) (bad : List (Nat × Nat)) :
    ∃ v f, doLedgerDataWriteDone u bad s = ledTick (afterDrives (modCu v u f)) ∧ ∀ c : CU, (f c).st = .ready := by
  have hready : ¬ (c.st = .ready) := by rw [hst]; decide
  simp only [doLedgerDataWriteDone, hc, if_neg hready, if_neg (Decidable.not_not.mpr hst)]
  exact ⟨_, _, rfl, fun _ => rfl⟩
theorem st_of_modCu {f : CU → CU} (hf : ∀ c, (f c).st = .ready) {x : CU}
    (h : tget (modCu s u f).led.cus u = some x) : x.st = .ready := by
  have hupd : tget (tupd s.led.cus u f) u = some x := h
  cases hc : tget s.led.cus u with
  | none =>
    rw [tupd, hc] at hupd
    exact absurd (hc.symm.trans hupd) (by simp)
  | some c =>
    rw [tupd_some hc, tget_tset_self] at hupd
    cases hupd
    exact hf c
end

/-- The state after an operation's work, with the operation gone and its volume free. -/
def opFreed (s : State) (o : LOp) : State :=
  let u := superMod (led (opWork s o) (fun l => { l with op := none }))
    (fun q => { q with opKind := 0, opVol := 0, opKey := 0, opDone := 0 })
  if o.vol < 64 then modVol u o.vol (fun v => { v with busy := false }) else u

/-- Settles O41: each event of the engine by the state of what it ends. -/
theorem ledgerEngineCompletes : Obligations.LedgerEngineCompletes := by
  unfold Obligations.LedgerEngineCompletes
  refine ⟨fun s u c hc hst => ?written, fun s u c bad hc hst => ?ready, fun s u c hc hst bad => ?sector, fun s x q hx hq => ?snapshot,
    fun s k bad c hc hst hl => ?read, fun s k bad c hc hst hl => ?log, fun s vol a b ha hb hor => ?group, fun s d x hx => ?drive,
    fun s u c f hc hf hd hle => ?peer, fun s k c hc hg hgot hle => ?grant, fun s o gib ho hst hle => ?progress, fun s o ho hst => ?finish⟩
  case written =>
    intro ents w
    refine ⟨next_congr (congrArg (secondFault s) (doLedgerDataWriteDone_good hc hst)), fun bad => ?_⟩
    obtain ⟨v, f, hrun, hf⟩ := doLedgerDataWriteDone_writing hc hst bad
    exact ⟨_, next_congr (congrArg (secondFault s) hrun), fun x hx => st_of_modCu hf hx⟩
  case ready => exact next_congr (by simp only [doLedgerDataWriteDone, hc, if_pos hst])
  case sector =>
    intro v w x
    refine next_congr (congrArg (secondFault s) ?_)
    simp only [doCommitSectorDone, hc]
    exact if_neg (Decidable.not_not.mpr hst)
  case snapshot => exact next_congr (by simp only [doSnapshotDone, hx, hq])
  case read =>
    have hgo := Decidable.not_not.mpr hst
    refine ⟨fun hr => next_congr (congrArg (secondFault s) ?_), fun hr => next_congr (congrArg (secondFault s) ?_)⟩
    all_goals simp only [doLedgerReadDone, hc, if_neg hgo, if_pos hl, hr]
    all_goals rfl
  case log =>
    intro v rs
    have hgo := Decidable.not_not.mpr hst
    refine ⟨fun hr => next_congr (congrArg (secondFault s) ?_), fun hr hch => next_congr (congrArg (secondFault s) ?_),
      fun hr hch => next_congr (congrArg (secondFault s) ?_)⟩
    · simp only [v] at hr
      simp only [doLedgerReadDone, hc, if_neg hgo, if_neg hl, hr, Bool.not_false, if_true]
    · simp only [v, rs] at hr hch
      simp only [doLedgerReadDone, hc, if_neg hgo, if_neg hl, hr, hch, Bool.not_true, Bool.false_eq_true, Bool.not_false, if_true, if_false]
    · simp only [v, rs] at hr hch ⊢
      simp only [doLedgerReadDone, hc, if_neg hgo, if_neg hl, hr, hch, Bool.not_true, Bool.false_eq_true, if_false]
  case group =>
    refine next_congr ?_
    simp only [doAppendGroupClose, ha, hb]
    refine if_pos ?_
    simpa [and_assoc] using hor
  case drive =>
    refine ⟨fun h => next_congr (congrArg (secondFault s) ?_), fun h1 h2 => next_congr (congrArg (secondFault s) ?_)⟩
    · simp only [doDriveStopsAnswering, hx, if_pos h]
    · simp only [doDriveStopsAnswering, hx]
      exact if_neg (not_or.mpr ⟨h1, h2⟩)
  case peer =>
    have hgo : ¬ (f.done.isSome = true ∨ now s < f.sentAt + 1000000 * rfld s Reg.LED_CTL 0 7 0) := by simp [hd, Nat.not_lt.mpr hle]
    refine ⟨fun h => next_congr ?_, fun h => next_congr ?_⟩
    · simp only [doPeerRspTimeout, hc, Option.bind_some, hf, if_neg hgo]
      exact if_pos h
    · simp only [doPeerRspTimeout, hc, Option.bind_some, hf, if_neg hgo]
      exact if_neg (Nat.not_le.mpr h)
  case grant =>
    refine next_congr ?_
    simp only [doXferGrantTimeout, hc]
    exact if_pos ⟨hg, by simp [hgot], hle⟩
  case progress =>
    refine next_congr ?_
    simp only [doOpProgressRecord, ho]
    exact if_neg (by simp [hst, Nat.not_lt.mpr hle])
  case finish =>
    refine ⟨(freeRes (opFreed s o)).1, (freeRes (freeRes (opFreed s o)).2).1, next_congr ?_⟩
    simp only [doLedgerOpEnd, ho]
    exact if_neg (Decidable.not_not.mpr hst)

end Sys2Proof.Machine

/-! # The DRAM controller (chapter 13) -/

namespace Sys2Proof.Machine
open Sys2Proof Sys2Proof.Safety

/-! ## The request served next (R270, R271) -/

/-- The request picked is of a free bank, and none such ranks higher. -/
theorem pickReq_spec {s : State} {qs : List MemReq} {q : MemReq} (h : pickReq s qs = some q) :
    q ∈ qs ∧ bankHeld s q.line = false ∧ ∀ r ∈ qs, bankHeld s r.line = false → rank s r ≤ rank s q := by
  rw [pickReq] at h
  have hmem := List.mem_filter.mp (List.mem_of_find?_eq_some h)
  have hall := List.find?_some h
  refine ⟨hmem.1, by simpa using hmem.2, fun r hr hfree => ?_⟩
  exact of_decide_eq_true (List.all_eq_true.mp hall r (List.mem_filter.mpr ⟨hr, by simp [hfree]⟩))
theorem exists_highest {α : Type} (f : α → Nat) {l : List α} (h : l ≠ []) : ∃ x ∈ l, ∀ y ∈ l, f y ≤ f x := by
  induction l with
  | nil => exact absurd rfl h
  | cons a l ih =>
    by_cases hl : l = []
    · exact ⟨a, List.mem_cons_self, fun y hy => by
        subst hl
        exact Nat.le_of_eq (congrArg f (List.mem_singleton.mp hy))⟩
    · obtain ⟨x, hx, hmax⟩ := ih hl
      by_cases hax : f a ≤ f x
      · exact ⟨x, List.mem_cons_of_mem a hx, fun y hy => (List.mem_cons.mp hy).elim (fun e => e ▸ hax) (hmax y)⟩
      · refine ⟨a, List.mem_cons_self, fun y hy => (List.mem_cons.mp hy).elim (fun e => Nat.le_of_eq (congrArg f e)) (fun hy => ?_)⟩
        exact Nat.le_trans (hmax y hy) (Nat.le_of_lt (Nat.not_le.mp hax))
/-- A queue whose banks are all free serves a request. -/
theorem exists_pickReq {s : State} {qs : List MemReq} (hne : qs ≠ []) (hfree : ∀ q ∈ qs, bankHeld s q.line = false) :
    ∃ q, pickReq s qs = some q := by
  obtain ⟨q, hmem, hmax⟩ := exists_highest (rank s) hne
  have hok : qs.filter (fun q => ! bankHeld s q.line) = qs := List.filter_eq_self.mpr fun q hq => by simp [hfree q hq]
  rw [← Option.isSome_iff_exists, pickReq, hok, List.find?_isSome]
  exact ⟨q, hmem, List.all_eq_true.mpr fun r hr => decide_eq_true (hmax r hr)⟩

/-! ## What opening a row leaves -/

/-- Do `s` and `t` hold the same requests, repairs, waiting writes and bytes? -/
structure SameQueues (s t : State) : Prop where
  wq : ∀ c, (getSub t c).wq = (getSub s c).wq
  repairs : ∀ c, (getSub t c).repairs = (getSub s c).repairs
  stops : t.dmc.stops = s.dmc.stops
  dram : t.dram = s.dram

theorem sameQueues_openLine (s : State) (l : Nat) : SameQueues s (openLine s l) := by
  unfold openLine activate
  dsimp only
  split
  · exact ⟨fun _ => rfl, fun _ => rfl, rfl, rfl⟩
  · refine ⟨fun c => ?_, fun c => ?_, rfl, rfl⟩
    all_goals
      by_cases hc : c = subOf l
      · subst hc
        rw [getSub_setSub_self]
      · rw [getSub_setSub_ne _ _ _ _ hc]
        rfl
theorem bankHeld_congr {s t : State} (h : ∀ c, (getSub t c).repairs = (getSub s c).repairs) (l : Nat) : bankHeld t l = bankHeld s l := by
  rw [bankHeld, bankHeld, h]

/-- A batch drains one queued write after the other while no bank is held. -/
theorem drainWrites_free (sc : Nat) {n : Nat} {s : State} (hn : n ≤ (getSub s sc).wq.length)
    (hfree : ∀ q ∈ (getSub s sc).wq, bankHeld s q.line = false) :
    (getSub (drainWrites sc n s) sc).wq.length = (getSub s sc).wq.length - n ∧ (drainWrites sc n s).dram = s.dram
      ∧ (drainWrites sc n s).dmc.stops = s.dmc.stops := by
  induction n generalizing s with
  | zero => exact ⟨rfl, rfl, rfl⟩
  | succ n ih =>
    have hne : (getSub s sc).wq ≠ [] := List.length_pos_iff.mp (by omega)
    obtain ⟨q, hq⟩ := exists_pickReq hne hfree
    have hmem := (pickReq_spec hq).1
    have hsame := sameQueues_openLine s q.line
    have hwq : (getSub (modSub (openLine s q.line) sc (fun c => { c with wq := c.wq.erase q })) sc).wq = (getSub s sc).wq.erase q := by
      rw [getSub_modSub_self, hsame.wq]
    have hrep (c : Nat) : (getSub (modSub (openLine s q.line) sc (fun c => { c with wq := c.wq.erase q })) c).repairs
        = (getSub s c).repairs := by
      by_cases hc : c = sc
      · subst hc
        rw [getSub_modSub_self, hsame.repairs]
      · rw [getSub_modSub_ne _ _ _ _ hc, hsame.repairs]
    have hlen : ((getSub s sc).wq.erase q).length = (getSub s sc).wq.length - 1 := List.length_erase_of_mem hmem
    obtain ⟨hl, hd, hst⟩ := ih (s := modSub (openLine s q.line) sc (fun c => { c with wq := c.wq.erase q })) (by rw [hwq]; omega)
      fun r hr => by
        rw [hwq] at hr
        rw [bankHeld_congr hrep]
        exact hfree r (List.mem_of_mem_erase hr)
    rw [hwq] at hl
    simp only [drainWrites, hq]
    exact ⟨by omega, hd.trans hsame.dram, hst.trans hsame.stops⟩
theorem stopMoveUp_nil {s : State} {k : Nat} (h : tgetD s.dmc.stops k [] = []) :
    (stopMoveUp s k).dram = s.dram ∧ ∀ c, getSub (stopMoveUp s k) c = getSub s c := by
  have hdrain : stopDrain (tgetD s.dmc.stops k []) s = ([], s) := by rw [h, stopDrain]
  simp only [stopMoveUp, hdrain]
  exact ⟨trivial, fun _ => rfl⟩

/-! ## Reads leave the bytes -/

section
variable (s : State) (l : Nat)

theorem dram_logEvent (evid fn a0 a1 a2 : Nat) : (logEvent s evid fn a0 a1 a2).dram = s.dram := by
  unfold logEvent
  split <;> rfl
theorem dmc_logEvent (evid fn a0 a1 a2 : Nat) : (logEvent s evid fn a0 a1 a2).dmc = s.dmc := by
  unfold logEvent
  split <;> rfl
theorem dram_repairRow : (repairRow s l).dram = s.dram := by
  unfold repairRow
  dsimp only
  split
  · rfl
  · split
    · exact dram_logEvent _ _ _ _ _ _
    · rfl
theorem dram_notePin (pin : Nat) : (notePin s l pin).dram = s.dram := by
  unfold notePin
  dsimp only
  split <;> rfl
theorem dram_corrected (pin again : Nat) : (corrected s l pin again).dram = s.dram := by
  unfold corrected
  dsimp only
  split
  · rfl
  · rw [dram_notePin, dram_repairRow]
    rfl
theorem dram_poisonLine : (poisonLine s l).dram = s.dram := by
  unfold poisonLine
  rw [dram_repairRow]
  unfold addPoison
  split <;> rfl
theorem dram_readLine (d0 d1 d2 pin : Nat) : (readLine s l d0 d1 d2 pin).dram = s.dram := by
  unfold readLine
  split
  · rfl
  · exact dram_corrected _ _ _ _
  · split
    · rfl
    · exact dram_corrected _ _ _ _
    · exact dram_poisonLine _ _
end

/-- The lines of a row are read one after the other. -/
def readLines (l : List (Nat × Nat × Nat × Nat × Nat)) (s : State) : State :=
  l.foldl (fun s p => readLine s p.1 p.2.1 p.2.2.1 p.2.2.2.1 p.2.2.2.2) s
theorem dram_readLines (l : List (Nat × Nat × Nat × Nat × Nat)) (s : State) : (readLines l s).dram = s.dram := by
  induction l generalizing s with
  | nil => rfl
  | cons p l ih => exact (ih _).trans (dram_readLine _ _ _ _ _ _)
/-- A repair made: the row of its bank, the repairs left, the list, and the bytes as they were. -/
theorem repairMade_spec (s : State) (sc : Nat) (r : Repair) :
    tget (getSub (repairMade s sc r) sc).rows r.bank = some (r.hard, r.row)
      ∧ (∀ x ∈ (getSub (repairMade s sc r) sc).repairs, x.bank ≠ r.bank)
      ∧ (sc, r.bank, r.row, r.hard) ∈ (repairMade s sc r).dmc.repairList ∧ (repairMade s sc r).dram = s.dram := by
  let f (c : SubCh) : SubCh := { c with
    repairs := c.repairs.filter (fun x => x.bank != r.bank), rows := tset c.rows r.bank (r.hard, r.row) }
  let u := modSub s sc f
  have hdmc : (repairMade s sc r).dmc = { u.dmc with
      repairList := u.dmc.repairList.filter (fun e => ! (e.1 == sc && e.2.1 == r.bank)) ++ [(sc, r.bank, r.row, r.hard)] } := by
    cases h : r.hard <;> simp [repairMade, h, u, f]
  have hdram : (repairMade s sc r).dram = s.dram := by
    cases h : r.hard <;> simp [repairMade, h]
  have hsub : getSub (repairMade s sc r) sc = { getSub s sc with
      repairs := (getSub s sc).repairs.filter (fun x => x.bank != r.bank), rows := tset (getSub s sc).rows r.bank (r.hard, r.row) } := by
    rw [getSub, hdmc]
    exact getSub_modSub_self s sc f
  rw [hsub, hdmc]
  exact ⟨tget_tset_self _ _ _, fun x hx => by simpa using (List.mem_filter.mp hx).2,
    List.mem_append_right _ (List.mem_singleton_self _), hdram⟩

/-! ## A write that its queue takes (R267, R272) -/

theorem length_sub (bs : List Byte) (a n : Nat) : (sub bs a n).length = n := by
  simp only [sub, List.length_append, List.length_take, List.length_drop, List.length_replicate]
  omega
theorem getD_sub_zero (bs : List Byte) {n i : Nat} (h : i < n) : (sub bs 0 n).getD i 0 = bs.getD i 0 := by
  simp only [sub, List.drop_zero, List.getD_eq_getElem?_getD]
  by_cases hi : i < bs.length
  · rw [List.getElem?_append_left (by rw [List.length_take]; omega), List.getElem?_take_of_lt h]
  · rw [List.getElem?_append_right (by rw [List.length_take]; omega), List.getElem?_eq_none (Nat.le_of_not_lt hi),
      List.getElem?_replicate]
    split <;> rfl
theorem mem_poison_addPoison (s : State) (l : Nat) : l ∈ (addPoison s l).poison := by
  unfold addPoison
  split
  · next h => simpa using h
  · exact List.mem_append_right _ (List.mem_singleton_self l)
theorem not_mem_poison_clearPoison (s : State) (l : Nat) : l ∉ (clearPoison s (128 * l) 128).poison := by
  intro h
  have hcond := (List.mem_filter.mp h).2
  simp only [Bool.not_eq_true', Bool.and_eq_false_iff, decide_eq_false_iff_not] at hcond
  omega
theorem verOk_stampVer (s : State) (l : Nat) : verOk (stampVer s l) l = true := by
  have hone : l + 1 - l = 1 := by omega
  by_cases he : s.dmc.epoch = s.dmc.fillVer
  · have hnone : tget (s.dmc.vers.filter (fun p => ! (decide (l ≤ p.1) && decide (p.1 < l + 1)))) l = none := by
      rw [tget, List.lookup_eq_none_iff]
      intro p hp
      have hcond := (List.mem_filter.mp hp).2
      simp only [Bool.not_eq_true', Bool.and_eq_false_iff, decide_eq_false_iff_not] at hcond
      exact bne_iff_ne.mpr (by omega)
    have hvers : (stampVer s l).dmc.vers = s.dmc.vers.filter (fun p => ! (decide (l ≤ p.1) && decide (p.1 < l + 1))) := if_pos he
    rw [verOk, verOf, tgetD, hvers, hnone]
    exact beq_iff_eq.mpr he.symm
  · simp only [verOk, verOf, stampVer, stampLines, if_neg he, hone, List.range_one, List.foldl_cons, List.foldl_nil, Nat.add_zero,
      tgetD_tset_self, beq_self_eq_true]

section
variable (s : State) (l : Nat)

theorem dram_addPoison : (addPoison s l).dram = s.dram := by
  unfold addPoison
  split <;> rfl
theorem dmc_addPoison : (addPoison s l).dmc = s.dmc := by
  unfold addPoison
  split <;> rfl
/-- The store of a write: its bytes, its version and its poison. -/
theorem lineStore_spec (bs : List Byte) (bad : Bool) (port t : Nat) :
    (lineStore s ⟨l, some bs, bad, port, t⟩).dram = mwrite s.dram (128 * l) (sub bs 0 128)
      ∧ (∀ c, getSub (lineStore s ⟨l, some bs, bad, port, t⟩) c = getSub s c) ∧ verOk (lineStore s ⟨l, some bs, bad, port, t⟩) l = true
      ∧ (bad = true → l ∈ (lineStore s ⟨l, some bs, bad, port, t⟩).poison)
      ∧ (bad = false → l ∉ (lineStore s ⟨l, some bs, bad, port, t⟩).poison) := by
  have hver := verOk_stampVer { s with dram := mwrite s.dram (128 * l) (sub bs 0 128) } l
  cases bad with
  | true =>
    refine ⟨dram_addPoison _ _, fun c => ?_, ?_, fun _ => mem_poison_addPoison _ _, nofun⟩
    all_goals simp only [lineStore, if_true]
    · rw [getSub, dmc_addPoison]
      rfl
    · rw [verOk, verOf, dmc_addPoison]
      exact hver
  | false => exact ⟨rfl, fun _ => rfl, hver, nofun, fun _ => not_mem_poison_clearPoison _ _⟩
end

/-! ## Delays and rates (R274, R276) -/

theorem tget_foldl_tset_key {α : Type} (f : Nat → α) (l : List Nat) (t : Tab α) (k : Nat) :
    tget (l.foldl (fun t k => tset t k (f k)) t) k = if k ∈ l then some (f k) else tget t k := by
  induction l generalizing t with
  | nil => simp
  | cons j l ih =>
    rw [List.foldl_cons, ih]
    by_cases hl : k ∈ l
    · simp [hl]
    · by_cases hj : k = j
      · subst hj
        simp [hl]
      · simp [hl, hj, tget_tset_ne _ _ _ _ hj]
/-- The delays copied: those of the channel's subchannels, its bin, and its pending bit. -/
theorem delayCopy_spec {s : State} {ch : Nat} (h : ch ∈ s.dmc.pend) :
    ch ∉ (delayCopy s ch).dmc.pend ∧ tget (delayCopy s ch).dmc.bins ch = some (rfld s Reg.DMC_DLY_BIN ch 5 0)
      ∧ (∀ sc pin, sc / 2 = ch → pin < 15 →
        tget (delayCopy s ch).dmc.delays (sc * 16 + pin) = some (regGet s Reg.DMC_DLY_VAL (sc * 16 + pin)))
      ∧ ∀ c, c ≠ ch → (c ∈ (delayCopy s ch).dmc.pend ↔ c ∈ s.dmc.pend) := by
  have hpend : ¬ (! s.dmc.pend.contains ch) = true := by simp [h]
  simp only [delayCopy, if_neg hpend]
  refine ⟨by simp, tget_tset_self _ _ _, fun sc pin hsc hpin => ?_, fun c hc => by simp [hc]⟩
  rw [tget_foldl_tset_key, if_pos]
  rw [List.mem_flatMap]
  exact ⟨sc, by simp; omega, List.mem_map.mpr ⟨pin, List.mem_range.mpr hpin, rfl⟩⟩
/-- A copy of delays leaves the subchannels, and its channel is pending no more. -/
theorem delayCopy_rest (s : State) (ch : Nat) : (∀ c, getSub (delayCopy s ch) c = getSub s c) ∧ (delayCopy s ch).dram = s.dram
    ∧ ch ∉ (delayCopy s ch).dmc.pend := by
  by_cases h : ch ∈ s.dmc.pend
  · have hpend : ¬ (! s.dmc.pend.contains ch) = true := by simp [h]
    simp only [delayCopy, if_neg hpend]
    exact ⟨fun _ => rfl, trivial, by simp⟩
  · have hpend : (! s.dmc.pend.contains ch) = true := by simp [h]
    simp only [delayCopy, if_pos hpend]
    exact ⟨fun _ => trivial, trivial, h⟩

/-- The subchannels of device `d` take the rate `r`. -/
def rateSet (s : State) (d r : Nat) : State := (List.range 8).foldl (fun s k => modSub s (8 * d + k) (fun c => { c with rate := r })) s
theorem rate_foldl_modSub (d r : Nat) (ks : List Nat) (s : State) (c : Nat) :
    (getSub (ks.foldl (fun s k => modSub s (8 * d + k) (fun c => { c with rate := r })) s) c).rate
      = if ∃ k ∈ ks, c = 8 * d + k then r else (getSub s c).rate := by
  induction ks generalizing s with
  | nil => simp
  | cons j ks ih =>
    rw [List.foldl_cons, ih]
    by_cases hks : ∃ k ∈ ks, c = 8 * d + k
    · rw [if_pos hks, if_pos (by obtain ⟨k, hk, hc⟩ := hks; exact ⟨k, List.mem_cons_of_mem _ hk, hc⟩)]
    · rw [if_neg hks]
      by_cases hj : c = 8 * d + j
      · rw [if_pos ⟨j, List.mem_cons_self, hj⟩, hj, getSub_modSub_self]
      · rw [getSub_modSub_ne _ _ _ _ hj, if_neg]
        rintro ⟨k, hk, hc⟩
        rcases List.mem_cons.mp hk with rfl | hk
        · exact hj hc
        · exact hks ⟨k, hk, hc⟩
theorem rate_rateSet (s : State) (d e r : Nat) {k : Nat} (hk : k < 8) :
    (getSub (rateSet s e r) (8 * d + k)).rate = if d = e then r else (getSub s (8 * d + k)).rate := by
  rw [rateSet, rate_foldl_modSub]
  by_cases hd : d = e
  · rw [if_pos hd, if_pos ⟨k, List.mem_range.mpr hk, by rw [hd]⟩]
  · rw [if_neg hd, if_neg]
    rintro ⟨j, hj, hc⟩
    have hj' := List.mem_range.mp hj
    omega
/-- A list of reports sets the rate of the device that one of them names. -/
theorem rate_foldl_rateSet {d r : Nat} (l : List (Nat × Nat)) (hl : ∀ p ∈ l, p.2 = d → p.1 = r) (s : State) {k : Nat} (hk : k < 8) :
    (getSub (l.foldl (fun s p => if p.1 > 2 then s else rateSet s p.2 p.1) s) (8 * d + k)).rate
      = if (∃ p ∈ l, p.2 = d) ∧ r ≤ 2 then r else (getSub s (8 * d + k)).rate := by
  induction l generalizing s with
  | nil => simp
  | cons p l ih =>
    rw [List.foldl_cons, ih fun q hq => hl q (List.mem_cons_of_mem _ hq)]
    have hp := hl p List.mem_cons_self
    by_cases hd : p.2 = d
    · have hpr := hp hd
      by_cases hr : r ≤ 2
      · rw [if_pos (c := (∃ q ∈ p :: l, q.2 = d) ∧ r ≤ 2) ⟨⟨p, List.mem_cons_self, hd⟩, hr⟩, if_neg (c := p.1 > 2) (by omega),
          rate_rateSet _ _ _ _ hk, if_pos hd.symm, hpr]
        split <;> rfl
      · rw [if_neg (c := _ ∧ r ≤ 2) fun h => hr h.2, if_neg (c := _ ∧ r ≤ 2) fun h => hr h.2, if_pos (c := p.1 > 2) (by omega)]
    · have hsame : (∃ q ∈ p :: l, q.2 = d) ↔ ∃ q ∈ l, q.2 = d := by simp [hd]
      simp only [hsame]
      have hstep : (getSub (if p.1 > 2 then s else rateSet s p.2 p.1) (8 * d + k)).rate = (getSub s (8 * d + k)).rate := by
        split
        · rfl
        · rw [rate_rateSet _ _ _ _ hk, if_neg (Ne.symm hd)]
      rw [hstep]

/-- Settles O42: a read by what its queue serves, a write by its memory stop, refresh, delays and repairs by their state. -/
theorem dramCommandsComplete : Obligations.DramCommandsComplete := by
  unfold Obligations.DramCommandsComplete
  refine fun s => ⟨fun l port d0 d1 d2 pin hl hpin hport => ?read, fun qs q h => ?pick,
    fun l port bytes bad hl hport hstop hlen hheld => ?write,
    fun l port bytes bad hl hport hwait => ?waits, fun sc n hsc hur hq => ?drain, fun sc n h => ?nodrain, fun sc hsc hawake => ?refresh,
    fun ch hch hpend => ?copy, fun rates => ?rates, fun sc d0 d1 d2 pin hsc hon hawake hpin => ?patrol,
    fun sc hsc hmode hidle hwq hrq hrep hstop hdue => ?sleep, fun sc bank r decs hr => ?repaired⟩
  case read =>
    intro w t pick
    have hskip : ¬ (l ≥ dramLines s ∨ pin > 11 ∨ port > 7) := by omega
    have hsub : getSub w (subOf l) = { getSub s (subOf l) with asleep := false, lastReq := now s } := getSub_modSub_self _ _ _
    refine ⟨?_, ?_, ?_, ?_⟩
    · rintro ⟨q, hq, hline⟩
      exact if_pos (.inr (by rw [hsub]; exact List.any_eq_true.mpr ⟨q, hq, by simp [hline]⟩))
    · intro hwq hrq
      have hnew : t = modSub w (subOf l) (fun c => { c with rq := c.rq ++ [⟨l, port, now w⟩] }) := by
        refine if_neg (not_or.mpr ⟨?_, ?_⟩)
        all_goals
          rw [hsub, Bool.not_eq_true, List.any_eq_false]
          intro q hq
        · simpa using hrq q hq
        · simpa using hwq q hq
      rw [hnew, getSub_modSub_self, hsub]
      rfl
    · intro q hp hline
      refine next_congr (congrArg (secondFault s) ?_)
      simp only [pick, t, w] at hp
      simp only [doDramRead, if_neg hskip, hp, if_pos hline, t, w]
    · intro h
      refine next_congr (congrArg (secondFault s) ?_)
      simp only [pick, t, w] at h
      rcases h with hp | ⟨q, hp, hline⟩
      · simp only [doDramRead, if_neg hskip, hp, t, w]
      · simp only [doDramRead, if_neg hskip, hp, if_neg hline, t, w]
  case pick =>
    obtain ⟨hmem, hfree, hmax⟩ := pickReq_spec h
    exact ⟨hmem, hfree, hmax⟩
  case write =>
    have hsub : getSub (subReq s (subOf l)) (subOf l) = { getSub s (subOf l) with asleep := false, lastReq := now s } :=
      getSub_modSub_self _ _ _
    have htakes : (tgetD (subReq s (subOf l)).dmc.stops (stopOf l) []).isEmpty = true
        ∧ (getSub (subReq s (subOf l)) (subOf l)).wq.length < 64 ∧ (! bankHeld (subReq s (subOf l)) l) = true := by
      rw [bankHeld, hsub]
      exact ⟨List.isEmpty_iff.mpr hstop, hlen, by rw [bankHeld] at hheld; simp [hheld]⟩
    have hrun : doDramWrite l port bytes bad s = queueWrite (subReq s (subOf l)) ⟨l, some bytes, bad, port, now s⟩ :=
      (if_neg (by omega)).trans (if_pos htakes)
    obtain ⟨hdram, hqueues, hver, hbad, hgood⟩ := lineStore_spec (subReq s (subOf l)) l bytes bad port (now s)
    refine ⟨_, next_congr hrun, fun a => ?_, ?_, hver, hbad, hgood⟩
    · refine (congrArg (mread · a) hdram).trans ?_
      rw [mread_mwrite, length_sub]
      split
      · next h => rw [getD_sub_zero _ (by omega)]
      · rfl
    · rw [queueWrite, enqWrite, getSub_modSub_self, hqueues, hsub]
  case waits =>
    have hsub : getSub (subReq s (subOf l)) (subOf l) = { getSub s (subOf l) with asleep := false, lastReq := now s } :=
      getSub_modSub_self _ _ _
    have hno : ¬ ((tgetD (subReq s (subOf l)).dmc.stops (stopOf l) []).isEmpty = true
        ∧ (getSub (subReq s (subOf l)) (subOf l)).wq.length < 64 ∧ (! bankHeld (subReq s (subOf l)) l) = true) := by
      rw [bankHeld, hsub]
      rintro ⟨hnil, hlt, hfree⟩
      rcases hwait with h | h | h
      · exact h (List.isEmpty_iff.mp hnil)
      · exact absurd hlt (Nat.not_lt.mpr h)
      · rw [bankHeld] at h
        simp [h] at hfree
    exact ⟨_, next_congr ((if_neg (by omega)).trans (if_neg hno)), rfl, tget_tset_self _ _ _⟩
  case drain =>
    intro t
    have hgo : ¬ (sc > 127 ∨ urgentRead s sc = true ∨ ((getSub s sc).wq.length < 48 ∧ (! (getSub s sc).rq.isEmpty) = true)) := by
      simp only [hur, Bool.not_eq_true', List.isEmpty_eq_false_iff]
      rintro (h | h | ⟨h, hne⟩)
      · omega
      · cases h
      · rcases hq with hq | hq
        · omega
        · exact hne hq
    refine ⟨next_congr (if_neg hgo), fun hstop hfree => ?_⟩
    obtain ⟨hl, hd, hst⟩ := drainWrites_free sc (Nat.min_le_right n _) hfree
    obtain ⟨hd', hsub⟩ := stopMoveUp_nil (s := drainWrites sc (min n (getSub s sc).wq.length) s) (k := sc / 8) (by rw [hst, hstop])
    refine ⟨?_, hd'.trans hd⟩
    rw [hsub, hl]
    omega
  case nodrain =>
    refine next_congr (if_pos ?_)
    rcases h with h | ⟨hlt, hne⟩
    · exact .inr (.inl h)
    · exact .inr (.inr ⟨hlt, by simpa using hne⟩)
  case refresh =>
    intro c urgent
    have hgo : ¬ (sc > 127 ∨ (getSub s sc).asleep = true) := by simp [hawake]; omega
    have hrun : doRefresh sc s = if urgent = true ∧ c.owed < Config.refreshLimit.toNat then
        modSub s sc (fun c => { c with owed := c.owed + 1 })
      else delayCopy (modSub s sc (fun c => { c with opened := [], owed := if urgent then c.owed else 0 })) (sc / 2) := if_neg hgo
    by_cases hlate : urgent = true ∧ c.owed < Config.refreshLimit.toNat
    · refine ⟨_, next_congr (hrun.trans (if_pos hlate)), rfl, ?_⟩
      rw [if_pos hlate, getSub_modSub_self]
      exact ⟨rfl, rfl, rfl⟩
    · obtain ⟨hsub, hdram, hpend⟩ := delayCopy_rest
        (modSub s sc (fun c => { c with opened := [], owed := if urgent then c.owed else 0 })) (sc / 2)
      refine ⟨_, next_congr (hrun.trans (if_neg hlate)), hdram, ?_⟩
      rw [if_neg hlate, hsub, getSub_modSub_self]
      exact ⟨rfl, hpend, rfl⟩
  case copy =>
    have hgo : ¬ (ch > 63 ∨ (! s.dmc.pend.contains ch) = true) := by simp [hpend]; omega
    obtain ⟨hnot, hbin, hdel, hrest⟩ := delayCopy_spec (s := modSub (modSub s (2 * ch) (fun c => { c with opened := [] })) (2 * ch + 1)
      (fun c => { c with opened := [] })) (ch := ch) hpend
    exact ⟨_, next_congr (if_neg hgo), hnot, hbin, hdel, hrest⟩
  case rates =>
    refine ⟨_, rfl, fun d r k hd hk hr => ?_⟩
    have huniq : ∀ p ∈ rates.zipIdx.take 16, p.2 = d → p.1 = r := by
      intro p hp hpd
      have hget := List.mk_mem_zipIdx_iff_getElem?.mp (List.mem_of_mem_take hp)
      rw [hpd, hr] at hget
      exact (Option.some.inj hget).symm
    have hin : ∃ p ∈ rates.zipIdx.take 16, p.2 = d := by
      refine ⟨(r, d), ?_, rfl⟩
      have hlt : d < rates.length := (List.getElem?_eq_some_iff.mp hr).1
      exact List.mem_take_iff_getElem.mpr ⟨d, by rw [List.length_zipIdx]; omega,
        by simp [(List.getElem?_eq_some_iff.mp hr).2]⟩
    refine (rate_foldl_rateSet _ huniq s hk).trans ?_
    by_cases h2 : r ≤ 2
    · rw [if_pos ⟨hin, h2⟩, if_neg (by omega)]
    · rw [if_neg fun h => h2 h.2, if_pos (by omega)]
  case patrol =>
    intro l q u
    have hgo : ¬ (sc > 127 ∨ rfld s Reg.DMC_CTL 0 7 0 = 0 ∨ (getSub s sc).asleep = true) := by simp [hawake, hon]; omega
    refine ⟨fun hp => next_congr (congrArg (secondFault s) ((if_neg hgo).trans (if_neg ?_))),
      fun hp => next_congr (congrArg (secondFault s) ((if_neg hgo).trans (if_pos (.inr hp))))⟩
    exact not_or.mpr ⟨by omega, Decidable.not_not.mpr hp⟩
  case sleep =>
    refine ⟨_, next_congr (if_pos ⟨hsc, hmode, hidle, hdue, hwq, hrq, hrep, hstop⟩), ?_, ?_, rfl⟩
    all_goals rw [getSub_modSub_self]
  case repaired =>
    have hbank : r.bank = bank := by simpa using List.find?_some hr
    obtain ⟨hrow, hrep, hlist, hdram⟩ := repairMade_spec (readLines ((rowLines sc bank r.row).zip decs) s) sc r
    have hrun : doRowRepairDone sc bank decs s = logEvent (repairMade (readLines ((rowLines sc bank r.row).zip decs) s) sc r)
        Ev.spareIn 0xFF 7 (sc * 2 ^ 21 + bank * 2 ^ 17 + r.row) (sc * 16 + bank) := by
      simp only [doRowRepairDone, hr, readLines]
    rw [hbank] at hrow hrep hlist
    refine ⟨_, next_congr hrun, ?_⟩
    rw [getSub, dmc_logEvent, dram_logEvent]
    exact ⟨hrow, hrep, hlist, hdram.trans (dram_readLines _ _)⟩

end Sys2Proof.Machine

/-! # The registers of the DRAM controller (R274 to R279) -/

namespace Sys2Proof.Machine
open Sys2Proof Sys2Proof.Safety

theorem fld_mod_self (v hi lo : Nat) : fld v hi lo % 2 ^ (hi + 1 - lo) = fld v hi lo := Nat.mod_mod _ _
/-- A write of DMC_CTL stores its NRR_K field. -/
theorem nrrK_regWrite (s : State) (v : Nat) : rfld (regWrite s Reg.DMC_CTL 0 v) Reg.DMC_CTL 0 15 12 = fld v 15 12 := by
  have hfields : (regFields Reg.DMC_CTL).getD [] = [⟨31, 16, .rwp, 100⟩, ⟨15, 12, .rwp, 10⟩, ⟨7, 0, .rwp, 24⟩] := by decide
  have hget : regGet (regWrite s Reg.DMC_CTL 0 v) Reg.DMC_CTL 0
      = mergeFields (regGet s Reg.DMC_CTL 0) v ((regFields Reg.DMC_CTL).getD []) := tgetD_tset_self _ _ _ _
  rw [rfld, hget, hfields]
  simp only [mergeFields, accWritable, if_true]
  rw [fld_setFld_apart _ _ (by omega) (by omega), fld_setFld_self _ _ (by omega), fld_mod_self]

/-- Settles O43: each register's rule, on the state after the write has reached it. -/
theorem dramRegistersKeepTheirRules : Obligations.DramRegistersKeepTheirRules := by
  unfold Obligations.DramRegistersKeepTheirRules
  refine fun s p v => ⟨fun h hp => ?apply, fun h hp => ?ctl, fun bin h hp => ?shadow, fun h hp => ?repair⟩
  case apply =>
    refine ⟨_, next_congr ((rowWrite_of h _).trans (if_neg (by simp [hp]))), fun c hc hbit => ?_, fun c hc => List.mem_append_left _ hc⟩
    by_cases hin : c ∈ (dropHalves s p).dmc.pend
    · exact List.mem_append_left _ hin
    · exact List.mem_append_right _ (List.mem_filter.mpr ⟨List.mem_range.mpr hc, by simpa [hbit] using hin⟩)
  case ctl =>
    refine ⟨_, next_congr ((rowWriteVal_of h v _).trans (if_neg (by simp [hp]))), ?_⟩
    rw [nrrK_regWrite]
    by_cases hk : 6 ≤ fld v 15 12 ∧ fld v 15 12 ≤ 14
    · rw [if_pos hk, if_neg (by omega)]
    · rw [if_neg hk, if_pos (by omega), fld_setFld_self _ _ (by omega), rfld, fld_mod_self]
      rfl
  case shadow =>
    intro off w
    refine ⟨fun hpend => next_congr ((rowWriteVal_of h v _).trans (if_pos ?_)),
      fun hpend hpin => next_congr ((rowWriteVal_of h v _).trans (if_neg ?_))⟩
    · simp only [Bool.or_eq_true]
      exact .inl (.inr (List.contains_iff_mem.mpr hpend))
    · rw [hp]
      cases bin
      · simpa [w] using ⟨hpend, hpin rfl⟩
      · simpa [w] using hpend
  case repair =>
    have hrep : repairing (dropHalves s p) = repairing s := rfl
    have hmode : modeOf (dropHalves s p) = modeOf s := rfl
    refine ⟨fun hv hr => next_congr ((rowWrite_of h _).trans (if_neg ?_)), fun hv hr hm => next_congr ((rowWrite_of h _).trans (if_neg ?_)),
      fun hr => ⟨next_congr ((rowWrite_of h _).trans (if_pos ?_)), next_congr ((rowWrite_of h _).trans (if_pos ?_))⟩,
      fun hm => next_congr ((rowWrite_of h _).trans (if_pos ?_))⟩
    · simp [hp, hv, hrep, hr]
    · simp [hp, hv, hrep, hr, hmode, hm]
    · simp [hrep, hr]
    · simp [hrep, hr]
    · simp [hmode, hm]

end Sys2Proof.Machine

/-! # Accesses of the cache and of scratch (R2, R15, R248, R253 to R261) -/

namespace Sys2Proof.Machine
open Sys2Proof Sys2Proof.Safety

/-! ## What leaves the bytes and the poison -/

/-- Do `s` and `t` hold the same bytes of DRAM and the same poisoned lines? -/
structure SameBytes (s t : State) : Prop where
  dram : t.dram = s.dram
  poison : t.poison = s.poison
namespace SameBytes
variable {s t u : State}

theorem refl (s : State) : SameBytes s s := ⟨rfl, rfl⟩
theorem trans (h : SameBytes s t) (h' : SameBytes t u) : SameBytes s u := ⟨h'.dram.trans h.dram, h'.poison.trans h.poison⟩
theorem stampVer (s : State) (l : Nat) : SameBytes s (stampVer s l) := ⟨rfl, rfl⟩
theorem dramReq (s : State) (l port : Nat) : SameBytes s (dramReq s l port) := by
  unfold Machine.dramReq queueRead
  dsimp only
  split <;> exact ⟨rfl, rfl⟩
theorem writeBack (s : State) (l port : Nat) : SameBytes s (writeBack s l port) := by
  unfold Machine.writeBack stopWrite
  dsimp only
  split <;> exact ⟨rfl, rfl⟩
theorem usePlace (s : State) (l : Nat) (write : Bool) (x : Place) : SameBytes s (usePlace s l write x) := by
  cases x <;> exact ⟨rfl, rfl⟩
theorem iteReq (s : State) (c : Prop) [Decidable c] (l port : Nat) : SameBytes s (if c then s else Machine.dramReq s l port) := by
  split
  · exact refl s
  · exact dramReq s l port
/-- The requests of an access carry lines whose values already stand in DRAM. -/
theorem lineTraffic (s : State) (l port : Nat) (write full : Bool) (x : Place) : SameBytes s (lineTraffic s l port write full x) := by
  cases x with
  | hit w => exact refl s
  | fill w =>
    simp only [Machine.lineTraffic]
    refine .trans ?_ (iteReq _ _ _ _)
    split
    · split
      · exact writeBack _ _ _
      · exact refl s
    · exact refl s
  | pass =>
    simp only [Machine.lineTraffic]
    split
    · exact .trans (iteReq _ _ _ _) (writeBack _ _ _)
    · exact iteReq _ _ _ _
theorem foldl {α : Type} {f : State → α → State} (h : ∀ s x, SameBytes s (f s x)) (l : List α) (s : State) : SameBytes s (l.foldl f s) := by
  induction l generalizing s with
  | nil => exact refl s
  | cons x l ih => exact (h s x).trans (ih _)
theorem prefetch (s : State) (fn tile stream l : Nat) : SameBytes s (prefetch s fn tile stream l) := by
  unfold Machine.prefetch
  dsimp only
  split
  · exact refl s
  · split
    · refine .trans ?_ (foldl (fun s i => ?_) _ _)
      · exact ⟨rfl, rfl⟩
      split
      · exact refl s
      · split
        · exact (lineTraffic _ _ _ _ _ _).trans (usePlace _ _ _ _)
        · exact refl s
    · exact ⟨rfl, rfl⟩
theorem fabAnswer (s : State) (r : FabReq) (err : Bool) (data : List Byte) : SameBytes s (fabAnswer s r err data) := by
  unfold Machine.fabAnswer
  split <;> exact ⟨rfl, rfl⟩
theorem rasCount (s : State) (cls : Nat) (lasting : Bool) : SameBytes s (rasCount s cls lasting) := by
  unfold Machine.rasCount
  split <;> exact ⟨rfl, rfl⟩
theorem retireWay (s : State) (slice w : Nat) : SameBytes s (retireWay s slice w) := by
  unfold Machine.retireWay
  split <;> exact ⟨rfl, rfl⟩
/-- An error of a way that is corrected or transient. -/
theorem wayError (s : State) (slice w set : Nat) {err : Nat} (h : err ≠ 3) : SameBytes s (wayError s slice w set err) := by
  unfold Machine.wayError
  dsimp only
  rw [if_neg h]
  split
  · split
    · refine .trans ?_ (retireWay _ _ _)
      exact ⟨rfl, rfl⟩
    · exact ⟨rfl, rfl⟩
  · split
    · refine .trans ?_ (rasCount _ _ _)
      exact ⟨rfl, rfl⟩
    · exact refl s
end SameBytes

/-! ## What an error of a way leaves: the bytes, the lost ways and the slots -/

/-- Do `s` and `t` hold the same bytes, the same lost ways, and in every register but the cache's status and error count the same value? -/
structure SameStore (s t : State) : Prop where
  dram : t.dram = s.dram
  absent : t.cache.absent = s.cache.absent
  regs : ∀ k, k ≠ regKey Reg.SC_STATUS 0 → k ≠ regKey Reg.SC_ERR_CNT 0 → tget t.regs.vals k = tget s.regs.vals k
namespace SameStore
variable {s t u : State}

theorem refl (s : State) : SameStore s s := ⟨rfl, rfl, fun _ _ _ => rfl⟩
theorem trans (h : SameStore s t) (h' : SameStore t u) : SameStore s u :=
  ⟨h'.dram.trans h.dram, h'.absent.trans h.absent, fun k h1 h2 => (h'.regs k h1 h2).trans (h.regs k h1 h2)⟩
theorem status (s : State) (hi lo v : Nat) : SameStore s (regSetFld s Reg.SC_STATUS 0 hi lo v) :=
  ⟨rfl, rfl, fun _ h _ => tget_tset_ne _ _ _ _ h⟩
theorem count (s : State) (hi lo k : Nat) : SameStore s (cntAdd s Reg.SC_ERR_CNT 0 hi lo k) :=
  ⟨rfl, rfl, fun _ _ h => tget_tset_ne _ _ _ _ h⟩
theorem addPoison (s : State) (l : Nat) : SameStore s (addPoison s l) := by
  unfold Machine.addPoison
  split <;> exact ⟨rfl, rfl, fun _ _ _ => rfl⟩
theorem rasCount (s : State) (cls : Nat) (lasting : Bool) : SameStore s (rasCount s cls lasting) := by
  unfold Machine.rasCount
  split <;> exact ⟨rfl, rfl, fun _ _ _ => rfl⟩
theorem retireWay (s : State) (slice w : Nat) : SameStore s (retireWay s slice w) := by
  unfold Machine.retireWay
  split
  · exact refl s
  · refine .trans ?_ (status _ _ _ _)
    exact ⟨rfl, rfl, fun _ _ _ => rfl⟩
theorem badLine (s : State) (slice w set : Nat) : SameStore s (badLine s slice w set) := by
  unfold Machine.badLine
  split
  · exact addPoison _ _
  · split
    · dsimp only
      split
      · refine .trans ?_ (addPoison _ _)
        exact ⟨rfl, rfl, fun _ _ _ => rfl⟩
      · exact ⟨rfl, rfl, fun _ _ _ => rfl⟩
    · exact refl s
theorem wayError (s : State) (slice w set err : Nat) : SameStore s (wayError s slice w set err) := by
  unfold Machine.wayError
  dsimp only
  split
  · split
    · refine .trans (.trans ?_ (count _ _ _ _)) (retireWay _ _ _)
      exact ⟨rfl, rfl, fun _ _ _ => rfl⟩
    · refine .trans ?_ (count _ _ _ _)
      exact ⟨rfl, rfl, fun _ _ _ => rfl⟩
  · split
    · exact (count _ _ _ _).trans (rasCount _ _ _)
    · split
      · exact (((count _ _ _ _).trans (rasCount _ _ _)).trans (badLine _ _ _ _)).trans (retireWay _ _ _)
      · exact refl s
/-- The register of a slot. -/
theorem slot (h : SameStore s t) {q : Nat} (hq : q < 12) (hi lo : Nat) : rfld t (slotReg q) 0 hi lo = rfld s (slotReg q) 0 hi lo := by
  have hkey : regKey (slotReg q) 0 ≠ regKey Reg.SC_STATUS 0 ∧ regKey (slotReg q) 0 ≠ regKey Reg.SC_ERR_CNT 0 := by
    simp only [regKey, slotReg, Reg.SC_STATUS, Reg.SC_ERR_CNT, Reg.SC_SCRATCH_SLOT0]
    omega
  rw [rfld, regGet, tgetD, h.regs _ hkey.1 hkey.2]
  rfl
/-- The way of a line of a slot. -/
theorem way (h : SameStore s t) {l : Nat} (hl : (l - scratchBase / 128) / 32768 < 12) : scratchWay t l = scratchWay s l := by
  simp only [scratchWay]
  rw [h.slot hl]
end SameStore

/-! ## What a request of good shape reads and writes -/

/-- A request of good shape lies in one line. -/
theorem line_of_dataShape {a n : Nat} (h : dataShape a n = true) : 0 < n ∧ a % 128 + n ≤ 128 := by
  simp only [dataShape, Bool.and_eq_true, List.contains_iff_mem, beq_iff_eq, List.mem_cons, List.not_mem_nil, or_false] at h
  obtain ⟨hn, ha⟩ := h
  rcases hn with rfl | rfl | rfl | rfl | rfl | rfl | rfl | rfl <;> omega
/-- A store to scratch within one line: all of it, or nothing where its way is lost. -/
theorem mread_scratchStore (s : State) {a : Nat} {bs : List Byte} (h : dataShape a bs.length = true) (x : Nat) :
    mread (scratchStore s a bs).dram x
      = if a ≤ x ∧ x < a + bs.length ∧ scratchWay s (a / 128) ∉ s.cache.absent then bs.getD (x - a) 0 else mread s.dram x := by
  obtain ⟨hpos, hin⟩ := line_of_dataShape h
  unfold scratchStore
  split
  · next hnil =>
    rw [hnil]
    simpa using mread_mwrite s.dram a bs x
  · have hend : lineEnd a bs.length - a / 128 = 1 := by
      rw [lineEnd, if_neg (by omega)]
      omega
    have hlo : max a ((a / 128 + 0) * 128) = a := by omega
    have hhi : min (a + bs.length) ((a / 128 + 0 + 1) * 128) = a + bs.length := by omega
    rw [hend, List.range_one, List.foldl_cons, List.foldl_nil]
    dsimp only
    rw [hlo, hhi, Nat.sub_self, List.drop_zero, Nat.add_sub_cancel_left, List.take_length, scratchLine]
    by_cases hab : scratchWay s (a / 128) ∈ s.cache.absent
    · rw [if_pos (List.contains_iff_mem.mpr hab), if_neg fun hc => hc.2.2 hab]
    · rw [if_neg fun hc => hab (List.contains_iff_mem.mp hc)]
      refine (mread_mwrite s.dram a bs x).trans ?_
      simp [hab]
theorem poisonedIn_congr {s t : State} (h : t.poison = s.poison) (a n : Nat) : poisonedIn t a n = poisonedIn s a n := by
  rw [poisonedIn, poisonedIn, h]
/-- A read that meets no poison, or that no item or core waits for. -/
theorem dram_fabPoison {s : State} {r : FabReq} (h : poisonedIn s r.addr r.len = false ∨ (r.item = none ∧ 148 ≤ r.init)) :
    (fabPoison s r).dram = s.dram := by
  unfold fabPoison
  split
  · rfl
  · next hbad =>
    rcases h with h | ⟨hi, hl⟩
    · simp [h] at hbad
    · rw [if_neg (by omega), hi]

/-- The state after the error that the line's way showed, if it is a hit. -/
def hitError (u : State) (r : FabReq) : State := match linePlace u (partFor u r.init r.fn r.item) (lineOf r.addr) with
  | .hit w => wayError u (sliceOf (lineOf r.addr)) w (setOf (lineOf r.addr)) r.err
  | _ => u
theorem sameStore_hitError (u : State) (r : FabReq) : SameStore u (hitError u r) := by
  unfold hitError
  split
  · exact .wayError _ _ _ _ _
  · exact .refl u
theorem sameBytes_hitError (u : State) {r : FabReq} (h : r.err ≠ 3) : SameBytes u (hitError u r) := by
  unfold hitError
  split
  · exact .wayError _ _ _ _ h
  · exact .refl u

section
variable {u : State} {r : FabReq} {b : List Byte}

theorem serveDram_read (hb : r.bytes = none) : serveDram u r
    = let l := lineOf r.addr
      let w := hitError u r
      let x := linePlace w (partFor u r.init r.fn r.item) l
      let t := fabAnswer (fabPoison (usePlace (lineTraffic w l (portOf u r.init) false false x) l false x) r) r false (mreads w.dram r.addr r.len)
      if r.stream < 8 ∧ r.init < 0x90 then prefetch t r.fn r.init r.stream l else t := by
  simp only [serveDram, hb]
  rfl
theorem serveDram_write (hb : r.bytes = some b) : serveDram u r
    = let l := lineOf r.addr
      let w := hitError u r
      let x := linePlace w (partFor u r.init r.fn r.item) l
      usePlace (lineTraffic (dramStore w r.addr b) l (portOf u r.init) true (r.len == 128) x) l true x := by
  simp only [serveDram, hb]
  rfl
/-- A read of DRAM leaves its bytes. -/
theorem dram_serveDram_read (hb : r.bytes = none) (h : (poisonedIn u r.addr r.len = false ∧ r.err ≠ 3) ∨ (r.item = none ∧ 148 ≤ r.init)) :
    (serveDram u r).dram = u.dram := by
  have hserved (x : Place) : (fabPoison (usePlace (lineTraffic (hitError u r) (lineOf r.addr) (portOf u r.init) false false x)
      (lineOf r.addr) false x) r).dram = u.dram := by
    have hkeep := (SameBytes.lineTraffic (hitError u r) (lineOf r.addr) (portOf u r.init) false false x).trans (.usePlace _ (lineOf r.addr) false x)
    refine (dram_fabPoison (h.imp_left fun hp => ?_)).trans (hkeep.dram.trans (sameStore_hitError u r).dram)
    rw [poisonedIn_congr ((sameBytes_hitError u hp.2).trans hkeep).poison, hp.1]
  rw [serveDram_read hb]
  dsimp only
  split
  · exact (SameBytes.prefetch _ _ _ _ _).dram.trans ((SameBytes.fabAnswer _ _ _ _).dram.trans (hserved _))
  · exact (SameBytes.fabAnswer _ _ _ _).dram.trans (hserved _)
/-- A write of DRAM writes its bytes. -/
theorem dram_serveDram_write (hb : r.bytes = some b) : (serveDram u r).dram = mwrite u.dram r.addr b := by
  rw [serveDram_write hb]
  refine ((SameBytes.lineTraffic _ _ _ _ _ _).trans (.usePlace _ _ _ _)).dram.trans ?_
  exact congrArg (mwrite · r.addr b) (sameStore_hitError u r).dram
/-- A read of scratch leaves its bytes. -/
theorem dram_serveScratch_read (hb : r.bytes = none)
    (h : (poisonedIn u r.addr r.len = false ∧ r.err ≠ 3) ∨ (r.item = none ∧ 148 ≤ r.init)) : (serveScratch u r).dram = u.dram := by
  simp only [serveScratch, hb]
  refine (SameBytes.fabAnswer _ _ _ _).dram.trans ((dram_fabPoison (h.imp_left fun hp => ?_)).trans (SameStore.wayError _ _ _ _ _).dram)
  rw [poisonedIn_congr (SameBytes.wayError _ _ _ _ hp.2).poison, hp.1]
/-- A write of scratch writes its bytes, but for those of a lost way. -/
theorem mread_serveScratch_write (hb : r.bytes = some b) (hshape : dataShape r.addr b.length = true)
    (hslot : (r.addr / 128 - scratchBase / 128) / 32768 < 12) (x : Nat) : mread (serveScratch u r).dram x
      = if r.addr ≤ x ∧ x < r.addr + b.length ∧ scratchWay u (r.addr / 128) ∉ u.cache.absent then b.getD (x - r.addr) 0 else mread u.dram x := by
  simp only [serveScratch, hb]
  rw [mread_scratchStore _ hshape, SameStore.way (.wayError _ _ _ _ _) hslot, (SameStore.wayError _ _ _ _ _).absent,
    (SameStore.wayError _ _ _ _ _).dram]
end

/-- The address of a request that is not unbacked: in DRAM, or in a slot. -/
theorem addr_of_reqCheck_ok {u : State} {r : FabReq} (h : reqCheck u r = .ok) (hscr : ¬ r.addr < 0x8000000000) :
    scratchBase ≤ r.addr ∧ (r.addr - scratchBase) / 4194304 < 12 := by
  unfold reqCheck at h
  rw [if_neg hscr] at h
  split at h
  · next hin =>
    refine ⟨hin.1, ?_⟩
    refine Decidable.byContradiction (fun hq => ?_)
    simp only [Nat.not_lt] at hq
    simp [hq] at h
  · cases h
section
variable {u : State} {r : FabReq}

theorem fabServe_align (h : dataShape r.addr r.len = false) : fabServe u r = fabFail u r Exc.align St.alignment := by
  simp only [fabServe, h, Bool.not_false, if_true]
theorem fabServe_denied (h : dataShape r.addr r.len = true) {cls : Nat} (hc : reqCheck u r = .denied cls) :
    fabServe u r = fabFail (deny u r.init (reqTag r) r.addr cls) r Exc.access St.accessDenied := by
  simp only [fabServe, h, hc, Bool.not_true, Bool.false_eq_true, if_false]
theorem fabServe_unbacked (h : dataShape r.addr r.len = true) (hc : reqCheck u r = .unbacked) :
    fabServe u r = fabFail u r Exc.access St.addressRange := by
  simp only [fabServe, h, hc, Bool.not_true, Bool.false_eq_true, if_false]
theorem fabServe_waits (h : dataShape r.addr r.len = true) (hc : reqCheck u r = .ok) (hw : reqWaits u r = true) :
    fabServe u r = { u with cache := { u.cache with waits := u.cache.waits ++ [r] } } := by
  simp only [fabServe, h, hc, hw, Bool.not_true, Bool.false_eq_true, if_false, if_true]
theorem fabServe_ok (h : dataShape r.addr r.len = true) (hc : reqCheck u r = .ok) (hw : reqWaits u r = false) :
    fabServe u r = if r.addr < 0x8000000000 then serveDram u r else serveScratch u r := by
  simp only [fabServe, h, hc, hw, Bool.not_true, Bool.false_eq_true, if_false]
/-- A read that is served leaves the bytes. -/
theorem dram_fabServe_read (h : dataShape r.addr r.len = true) (hc : reqCheck u r = .ok) (hw : reqWaits u r = false) (hb : r.bytes = none)
    (hp : (poisonedIn u r.addr r.len = false ∧ r.err ≠ 3) ∨ (r.item = none ∧ 148 ≤ r.init)) : (fabServe u r).dram = u.dram := by
  rw [fabServe_ok h hc hw]
  split
  · exact dram_serveDram_read hb hp
  · exact dram_serveScratch_read hb hp
/-- A write that is served writes its bytes, but for those of a lost way of scratch. -/
theorem mread_fabServe_write (hlen : ∀ b, r.bytes = some b → r.len = b.length) (h : dataShape r.addr r.len = true) (hc : reqCheck u r = .ok)
    (hw : reqWaits u r = false) {b : List Byte} (hb : r.bytes = some b) (x : Nat) : mread (fabServe u r).dram x
      = if r.addr ≤ x ∧ x < r.addr + b.length ∧ (r.addr < scratchBase ∨ scratchWay u (r.addr / 128) ∉ u.cache.absent) then
          b.getD (x - r.addr) 0 else mread u.dram x := by
  rw [hlen b hb] at h
  rw [fabServe_ok (by rw [hlen b hb]; exact h) hc hw]
  by_cases hdram : r.addr < 0x8000000000
  · have hbelow : r.addr < scratchBase := by unfold scratchBase; omega
    rw [if_pos hdram, dram_serveDram_write hb, mread_mwrite]
    simp only [hbelow, true_or, and_true]
  · obtain ⟨hge, hslot⟩ := addr_of_reqCheck_ok hc hdram
    have hnot : ¬ r.addr < scratchBase := by omega
    have hline : (r.addr / 128 - scratchBase / 128) / 32768 < 12 := by
      generalize hbase : scratchBase = base at hslot
      have : base = 128 * 7516192768 := hbase.symm
      omega
    rw [if_neg hdram, mread_serveScratch_write hb h hline]
    simp only [hnot, false_or]
/-- A slot that is not converted backs nothing. -/
theorem reqCheck_of_free_slot {q : Nat} (hq : q < 12) (hfree : rfld u (slotReg q) 0 31 31 = 0) (hlo : slotBase q ≤ r.addr)
    (hhi : r.addr < slotBase q + 4194304) : reqCheck u r = .unbacked := by
  unfold slotBase scratchBase at hlo hhi
  have hslot : (r.addr - scratchBase) / 4194304 = q := by unfold scratchBase; omega
  rw [reqCheck, if_neg (by omega), if_pos (by unfold scratchBase; omega), hslot]
  exact if_pos (.inr hfree)
/-- A request of an engine that windows bind, in memory below the Ledger's. -/
theorem reqCheck_iff_winOk (hres : r.resv = false) (hled : r.addr + r.len ≤ ledgerArea u) (hdram : r.addr + r.len ≤ dramSize u)
    (hinit : r.init < 0x94) (haddr : r.addr < 0x8000000000) : reqCheck u r = .ok ↔ winOk u r.fn r.addr r.len = true := by
  have hmay : dramMay u r = winOk u r.fn r.addr r.len := by
    rw [dramMay, if_neg (by omega), if_neg (by omega), if_neg (by omega)]
  rw [reqCheck, if_pos haddr, if_neg (by omega), if_neg (by simp [hres]), hmay]
  cases winOk u r.fn r.addr r.len <;> simp [hled]
end

end Sys2Proof.Machine

/-! # The commands of the cache (R252 to R261) -/

namespace Sys2Proof.Machine
open Sys2Proof Sys2Proof.Safety

/-! ## Registers of 16 bits, and zeros in memory -/

/-- The number whose bit `w` is `f w`, for `w` below 16. -/
def bits16 (f : Nat → Bool) : Nat := (List.range 16).foldl (fun n w => n + b2n (f w) * 2 ^ w) 0
theorem bitOf_bits16 (f : Nat → Bool) {w : Nat} (hw : w < 16) : bitOf (bits16 f) w = f w := by
  have hsum : bits16 f = (List.range 16).foldl (fun n w => n + if f w = true then 2 ^ w else 0) 0 := by
    unfold bits16
    congr 1
    funext n w
    cases f w <;> simp [b2n]
  have htest := testBit_foldl_bits f w (List.range 16) 0 List.pairwise_lt_range fun j _ => Nat.two_pow_pos j
  rw [← hsum] at htest
  simpa [hw, bitOf, Nat.testBit, Nat.and_comm, Nat.one_and_eq_mod_two] using htest
/-- Zeros are written to their range alone. -/
theorem mread_mzero (m : Mem) (a n x : Nat) : mread (mzero m a n) x = if a ≤ x ∧ x < a + n then 0 else mread m x := by
  simp only [mread, mzero, msplice, List.append_nil, lookup_append]
  by_cases hlo : x < a
  · rw [lookup_filter_true m (fun k => decide (k < a)) x (by simpa using hlo), if_neg (by omega)]
    by_cases hhi : a + n ≤ x
    · omega
    · rw [lookup_filter_false m (fun k => decide (a + n ≤ k)) x (by simpa using hhi)]
      cases List.lookup x m <;> rfl
  · rw [lookup_filter_false m (fun k => decide (k < a)) x (by simpa using hlo)]
    by_cases hhi : a + n ≤ x
    · rw [lookup_filter_true m (fun k => decide (a + n ≤ k)) x (by simpa using hhi), if_neg (by omega)]
    · rw [lookup_filter_false m (fun k => decide (a + n ≤ k)) x (by simpa using hhi), if_pos (by omega)]
      rfl

/-! ## Maintenance (R255, R256) -/

theorem lockLoad_spec (s : State) (l : Nat) : (lockLoad s l).dram = s.dram ∧ (lockLoad s l).cache.op = s.cache.op := by
  unfold lockLoad
  dsimp only
  split
  · split
    · exact ⟨rfl, rfl⟩
    · split <;> exact ⟨rfl, rfl⟩
  · split <;> exact ⟨rfl, rfl⟩
theorem foldl_lockLoad_spec (b : Nat) (l : List Nat) (s : State) :
    (l.foldl (fun s i => lockLoad s (b + i)) s).dram = s.dram ∧ (l.foldl (fun s i => lockLoad s (b + i)) s).cache.op = s.cache.op := by
  induction l generalizing s with
  | nil => exact ⟨rfl, rfl⟩
  | cons i l ih =>
    obtain ⟨hd, ho⟩ := lockLoad_spec s (b + i)
    exact ⟨(ih _).1.trans hd, (ih _).2.trans ho⟩

section
variable {s : State} {p : Path} (hp : pfPath p = true)
include hp

theorem scOp_running (cmd : Nat) (h : s.cache.op ≠ none) : scOp p cmd s = cntAdd s Reg.SC_OP_DISCARD 0 31 0 1 := by
  rw [scOp, if_neg (by simp [hp]), if_pos (Option.isSome_iff_ne_none.mpr h)]
/-- A command of SC_OP that no other one keeps from starting. -/
theorem scOp_free {cmd : Nat} (hc : 1 ≤ cmd ∧ cmd ≤ 3) (h : s.cache.op = none) : scOp p cmd s
    = let t := regSetFld (regPut s Reg.SC_OP 0 cmd) Reg.SC_STATUS 0 9 8 0
      if regGet s Reg.SC_OP_LEN 0 = 0 then t
      else if regGet s Reg.SC_OP_BASE 0 + regGet s Reg.SC_OP_LEN 0 > dramSize s then regSetFld t Reg.SC_STATUS 0 9 8 1
      else regSetFld { t with cache := { t.cache with op := some ⟨cmd, regGet s Reg.SC_OP_BASE 0, regGet s Reg.SC_OP_LEN 0⟩ } }
        Reg.SC_STATUS 0 1 1 1 := by
  have hnone : ¬ s.cache.op.isSome = true := by simp [h]
  have hcmd : ¬ (cmd = 0 ∨ cmd > 3) := by omega
  simp only [scOp, hp, Bool.not_true, Bool.false_eq_true, if_false, if_neg hnone, if_neg hcmd]
  rfl
end

/-! ## Ways and slots (R252 to R254, R258) -/

theorem regs_foldl_emptyWay (l : List Nat) (s : State) : (l.foldl (fun s w => emptyWay s w none) s).regs = s.regs := by
  induction l generalizing s with
  | nil => rfl
  | cons w l ih => exact ih _
theorem lostPoison_spec (s : State) (q k : Nat) : (lostPoison s q k).cache = s.cache ∧ (lostPoison s q k).dram = s.dram
    ∧ (lostPoison s q k).regs = s.regs := by
  unfold lostPoison
  induction List.range 1024 generalizing s with
  | nil => exact ⟨rfl, rfl, rfl⟩
  | cons x l ih =>
    have hadd : (addPoison s (slotBase q / 128 + x * 32 + k)).cache = s.cache ∧ (addPoison s (slotBase q / 128 + x * 32 + k)).dram = s.dram
        ∧ (addPoison s (slotBase q / 128 + x * 32 + k)).regs = s.regs := by
      unfold addPoison
      split <;> exact ⟨rfl, rfl, rfl⟩
    obtain ⟨hc, hd, hr⟩ := ih (addPoison s (slotBase q / 128 + x * 32 + k))
    exact ⟨hc.trans hadd.1, hd.trans hadd.2.1, hr.trans hadd.2.2⟩
theorem cache_foldl_lostPoison (q : Nat) (l : List Nat) (s : State) :
    (l.foldl (fun s k => lostPoison s q (k / 16)) s).cache = s.cache ∧ (l.foldl (fun s k => lostPoison s q (k / 16)) s).dram = s.dram := by
  induction l generalizing s with
  | nil => exact ⟨rfl, rfl⟩
  | cons k l ih =>
    obtain ⟨hc, hd, -⟩ := lostPoison_spec s q (k / 16)
    obtain ⟨hc', hd'⟩ := ih (lostPoison s q (k / 16))
    rw [List.foldl_cons, hc', hd', hc, hd]
    exact ⟨rfl, rfl⟩
theorem isOff_scPwr {s : State} {p : Path} (hp : pfPath p = true) (v : Nat) {w : Nat} (hw : w < 16) :
    isOff (scPwr p v s) w = (bitOf v w && ! isScratch s w) := by
  have hne : regKey Reg.SC_PWR 0 ≠ regKey Reg.SC_STATUS 0 := by decide
  have hreg : regGet (scPwr p v s) Reg.SC_PWR 0 = bits16 (fun w => bitOf v w && ! isScratch s w) := by
    rw [scPwr, if_neg (by simp [hp])]
    refine (regGet_regPut_ne _ _ _ _ _ _ hne).trans ?_
    exact regGet_regPut_self _ _ _ _
  rw [isOff, hreg, bitOf_bits16 _ hw]

/-! ## Retirement (R260, R261) -/

/-- What the end of a retirement copy needs of the states on its way. -/
structure SameWays (s t : State) : Prop where
  dram : t.dram = s.dram
  waits : t.cache.waits = s.cache.waits
  wstate : t.cache.wstate = s.cache.wstate
  pway : t.cache.pway = s.cache.pway
  absent : t.cache.absent = s.cache.absent
  retiring : t.cache.retiring = s.cache.retiring
namespace SameWays
variable {s t u : State}

theorem refl (s : State) : SameWays s s := ⟨rfl, rfl, rfl, rfl, rfl, rfl⟩
theorem trans (h : SameWays s t) (h' : SameWays t u) : SameWays s u :=
  ⟨h'.dram.trans h.dram, h'.waits.trans h.waits, h'.wstate.trans h.wstate, h'.pway.trans h.pway, h'.absent.trans h.absent,
    h'.retiring.trans h.retiring⟩
theorem addPoison (s : State) (l : Nat) : SameWays s (addPoison s l) := by
  unfold Machine.addPoison
  split <;> exact ⟨rfl, rfl, rfl, rfl, rfl, rfl⟩
theorem badLine (s : State) (slice w set : Nat) : SameWays s (badLine s slice w set) := by
  unfold Machine.badLine
  split
  · exact addPoison _ _
  · split
    · dsimp only
      split
      · refine .trans ?_ (addPoison _ _)
        exact ⟨rfl, rfl, rfl, rfl, rfl, rfl⟩
      · exact ⟨rfl, rfl, rfl, rfl, rfl, rfl⟩
    · exact refl s
theorem badLines (slice w : Nat) (bad : List Nat) (s : State) : SameWays s (bad.foldl (fun s set => Machine.badLine s slice w set) s) := by
  induction bad generalizing s with
  | nil => exact refl s
  | cons set bad ih => exact (badLine _ _ _ _).trans (ih _)
theorem lostPoison (s : State) (q k : Nat) : SameWays s (lostPoison s q k) := by
  obtain ⟨hc, hd, -⟩ := lostPoison_spec s q k
  generalize Machine.lostPoison s q k = t at hc hd ⊢
  exact ⟨hd, by rw [hc], by rw [hc], by rw [hc], by rw [hc], by rw [hc]⟩
theorem emptyWay (s : State) (w : Nat) (k : Option Nat) : SameWays s (emptyWay s w k) := ⟨rfl, rfl, rfl, rfl, rfl, rfl⟩
theorem logEvent (s : State) (evid fn a0 a1 a2 : Nat) : SameWays s (logEvent s evid fn a0 a1 a2) := by
  unfold Machine.logEvent
  split <;> exact ⟨rfl, rfl, rfl, rfl, rfl, rfl⟩
end SameWays

/-- The state where a copy has ended: its bad lines are given up, and the way retires no more. -/
def copyEnded (s : State) (slice w : Nat) (bad : List Nat) : State :=
  let s := bad.foldl (fun s set => badLine s slice w set) s
  let s := { s with cache := { s.cache with retiring := s.cache.retiring.filter (· != slice * 16 + w) } }
  let s := if s.cache.retiring.isEmpty then regSetFld s Reg.SC_STATUS 0 3 3 0 else s
  cntAdd s Reg.SC_ERR_CNT 0 15 0 1
/-- The physical way behind a way is retired. -/
def wayRetired (s : State) (slice w : Nat) : State :=
  { s with cache := { s.cache with wstate := tset s.cache.wstate (slice * 18 + physWay s slice w) 2 } }
/-- A spare takes a way's place. -/
def spareTaken (s : State) (slice w k : Nat) : State :=
  let t := wayRetired s slice w
  logEvent { t with cache := { t.cache with
    wstate := tset t.cache.wstate (slice * 18 + k) 0, pway := tset t.cache.pway (slice * 16 + w) k } }
    Ev.spareIn 0xFF 2 (slice * 18 + physWay s slice w) (slice * 18 + k)
/-- A way without a spare is lost. -/
def wayLost (s : State) (slice w : Nat) : State :=
  let t := wayRetired s slice w
  let t := { t with cache := { t.cache with absent := t.cache.absent ++ [slice * 16 + w] } }
  let t := match (List.range 12).find? (fun q => rfld t (slotReg q) 0 31 31 == 1 && rfld t (slotReg q) 0 19 16 == w) with
    | some q => lostPoison t q slice
    | none => emptyWay t w (some slice)
  logEvent (regSetFld t Reg.SC_STATUS 0 4 4 1) Ev.cacheDegraded 0xFF slice w 0

section
variable (s : State) (slice w : Nat)

theorem copyEnded_spec (bad : List Nat) : let t := copyEnded s slice w bad
    t.dram = s.dram ∧ t.cache.waits = s.cache.waits ∧ t.cache.wstate = s.cache.wstate ∧ slice * 16 + w ∉ t.cache.retiring := by
  have ha := SameWays.badLines slice w bad s
  let b : State := bad.foldl (fun s set => badLine s slice w set) s
  let b : State := { b with cache := { b.cache with retiring := b.cache.retiring.filter (· != slice * 16 + w) } }
  have hc : SameWays b (copyEnded s slice w bad) := by
    unfold copyEnded
    dsimp only
    split <;> exact ⟨rfl, rfl, rfl, rfl, rfl, rfl⟩
  refine ⟨hc.dram.trans ha.dram, hc.waits.trans ha.waits, hc.wstate.trans ha.wstate, ?_⟩
  rw [hc.retiring]
  intro hmem
  simpa using (List.mem_filter.mp hmem).2
theorem spareTaken_spec (k : Nat) : let t := spareTaken s slice w k
    t.dram = s.dram ∧ t.cache.waits = s.cache.waits ∧ t.cache.retiring = s.cache.retiring
      ∧ tget t.cache.pway (slice * 16 + w) = some k ∧ tget t.cache.wstate (slice * 18 + k) = some 0 := by
  have hlog := SameWays.logEvent
  simp only [spareTaken, (hlog _ _ _ _ _ _).waits, (hlog _ _ _ _ _ _).retiring, (hlog _ _ _ _ _ _).dram, (hlog _ _ _ _ _ _).pway,
    (hlog _ _ _ _ _ _).wstate]
  exact ⟨rfl, rfl, rfl, tget_tset_self _ _ _, tget_tset_self _ _ _⟩
theorem wayLost_spec : let t := wayLost s slice w
    t.dram = s.dram ∧ t.cache.waits = s.cache.waits ∧ t.cache.retiring = s.cache.retiring ∧ slice * 16 + w ∈ t.cache.absent := by
  let t := wayRetired s slice w
  let t : State := { t with cache := { t.cache with absent := t.cache.absent ++ [slice * 16 + w] } }
  let u : State := match (List.range 12).find? (fun q => rfld t (slotReg q) 0 31 31 == 1 && rfld t (slotReg q) 0 19 16 == w) with
    | some q => lostPoison t q slice
    | none => emptyWay t w (some slice)
  have hu : SameWays t u := by
    unfold u
    split
    · exact SameWays.lostPoison _ _ _
    · exact SameWays.emptyWay _ _ _
  have hreg : SameWays u (regSetFld u Reg.SC_STATUS 0 4 4 1) := ⟨rfl, rfl, rfl, rfl, rfl, rfl⟩
  have h : SameWays t (wayLost s slice w) := (hu.trans hreg).trans (SameWays.logEvent _ _ _ _ _ _)
  exact ⟨h.dram, h.waits, h.retiring, by rw [h.absent]; exact List.mem_append_right _ (List.mem_singleton_self _)⟩
variable {s slice w}
theorem wayRetireDone_eq (bad : List Nat) (h : slice * 16 + w ∈ s.cache.retiring) : wayRetireDone slice w bad s
    = match [16, 17].find? (fun p => tgetD (copyEnded s slice w bad).cache.wstate (slice * 18 + p) 1 == 1) with
      | some k => spareTaken (copyEnded s slice w bad) slice w k
      | none => wayLost (copyEnded s slice w bad) slice w :=
  if_neg (by simp [h])
/-- The end of a retirement copy: the bytes stand, the way retires no more, a spare takes its place or it is absent. -/
theorem wayRetireDone_spec (bad : List Nat) (h : slice * 16 + w ∈ s.cache.retiring) :
    let t := wayRetireDone slice w bad s
    t.cache.waits = s.cache.waits ∧ slice * 16 + w ∉ t.cache.retiring ∧ t.dram = s.dram
      ∧ (∀ k, [16, 17].find? (fun p => tgetD s.cache.wstate (slice * 18 + p) 1 == 1) = some k →
        tget t.cache.pway (slice * 16 + w) = some k ∧ tget t.cache.wstate (slice * 18 + k) = some 0)
      ∧ ([16, 17].find? (fun p => tgetD s.cache.wstate (slice * 18 + p) 1 == 1) = none → slice * 16 + w ∈ t.cache.absent) := by
  obtain ⟨hdram, hwaits, hstate, hgone⟩ := copyEnded_spec s slice w bad
  dsimp only
  rw [wayRetireDone_eq bad h, ← hstate, ← hwaits, ← hdram]
  split
  · next k hk =>
    obtain ⟨hd, hw, hr, hp, hst⟩ := spareTaken_spec (copyEnded s slice w bad) slice w k
    refine ⟨hw, by rw [hr]; exact hgone, hd, fun j hj => ?_, fun hn => absurd (hk.symm.trans hn) nofun⟩
    obtain rfl : j = k := Option.some.inj (hj.symm.trans hk)
    exact ⟨hp, hst⟩
  · next hk =>
    obtain ⟨hd, hw, hr, hab⟩ := wayLost_spec (copyEnded s slice w bad) slice w
    exact ⟨hw, by rw [hr]; exact hgone, hd, fun j hj => absurd (hj.symm.trans hk) nofun, fun _ => hab⟩
end

/-- Settles O44: an access by its check, each cache command by what it starts, ends or converts. -/
theorem cacheCommandsComplete : Obligations.CacheCommandsComplete := by
  unfold Obligations.CacheCommandsComplete
  refine ⟨fun s init fn resv addr n bytes stream err item => ?access, fun s p h hp => ?op, fun s o ho => ?done, fun s p h hp => ?ctl,
    fun s h => ?disabled, fun s p v h hp => ?pwr, fun s w hw hoff hlost => ?off, fun s p v h hp => ?lock, fun s p q v hq h hp hfree => ?slot,
    fun s q v hq h hheld => ?held, fun s q hq hv hr => ?ready, fun s slice w bad hret => ?retired⟩
  case access =>
    intro len r u run
    have hlen (b : List Byte) (hb : r.bytes = some b) : r.len = b.length := by
      simp only [r, len] at hb ⊢
      rw [hb]
    have hserve {t : State} (ht : fabServe u r = t) : run = .next (secondFault s t) := next_congr (congrArg (secondFault s) ht)
    refine ⟨fun hs => hserve (fabServe_align hs), fun hs => ⟨fun cls hc => hserve (fabServe_denied hs hc), fun hc => hserve (fabServe_unbacked hs hc),
      fun hc hw => hserve (fabServe_waits hs hc hw), fun hc hw => ⟨_, hserve rfl, fun hb hp => dram_fabServe_read hs hc hw hb hp,
        fun b hb a => mread_fabServe_write hlen hs hc hw hb a⟩⟩, fun q hq hfree hlo hhi => reqCheck_of_free_slot hq hfree hlo hhi,
      fun hres hled hdram hinit haddr => reqCheck_iff_winOk hres hled hdram hinit haddr⟩
  case op =>
    intro u ops x hx
    have hrun : (1 ≤ x.1 ∧ x.1 ≤ 3) ∧ exec x.2 s = .next (scOp p x.1 u) := by
      simp only [ops, List.mem_cons, List.not_mem_nil, or_false] at hx
      rcases hx with rfl | rfl | rfl
      all_goals exact ⟨⟨by omega, by omega⟩, next_congr (rowWrite_of h _)⟩
    obtain ⟨hcmd, hrun⟩ := hrun
    rw [hrun]
    refine ⟨fun ho => next_congr (scOp_running hp x.1 ho), fun ho hl hfit => ?_, fun ho hl => ?_, fun ho hl hout => ?_⟩
    · exact ⟨_, next_congr (((scOp_free (s := u) hp hcmd ho).trans (if_neg hl)).trans (if_neg (Nat.not_lt.mpr hfit))), rfl,
        rfld_regSetFld_self _ _ _ _ (by omega), rfl⟩
    · exact ⟨_, next_congr ((scOp_free (s := u) hp hcmd ho).trans (if_pos hl)), ho, rfld_regSetFld_self _ _ _ _ (by omega)⟩
    · exact ⟨_, next_congr (((scOp_free (s := u) hp hcmd ho).trans (if_neg hl)).trans (if_pos hout)), ho, rfld_regSetFld_self _ _ _ _ (by omega)⟩
  case done =>
    intro inRange
    refine ⟨_, rfl, ?_⟩
    simp only [doScOpDone, ho]
    split
    · next hc =>
      refine ⟨rfl, rfl, fun _ q hq hin => ?_, fun h2 => by omega⟩
      obtain ⟨x, -, rfl⟩ := List.mem_map.mp hq
      split
      · rfl
      · next hout =>
        rw [if_neg hout] at hin
        exact absurd hin (by simpa [inRange] using hout)
    · next hc =>
      split
      · next h2 =>
        refine ⟨rfl, rfl, fun h1 => absurd h1 hc, fun _ q => ?_⟩
        refine List.mem_filter.trans (and_congr_right fun _ => ?_)
        simp [inRange, Decidable.imp_iff_not_or]
      · next h2 =>
        obtain ⟨hd, hop⟩ := foldl_lockLoad_spec (o.base / 128) (List.range (o.len / 128))
          (regSetFld { s with cache := { s.cache with op := none } } Reg.SC_STATUS 0 1 1 0)
        exact ⟨hd, hop, fun h1 => absurd h1 hc, fun h => absurd h h2⟩
  case ctl =>
    have hne : regKey Reg.SC_CTL 0 ≠ regKey Reg.SC_STATUS 0 := by decide
    refine ⟨⟨_, next_congr ((rowWrite_of h _).trans (if_neg (by simp [hp]))), ?_⟩,
      ⟨_, next_congr ((rowWrite_of h _).trans (if_pos hp)), rfl, ?_, rfld_regSetFld_self _ _ _ _ (by omega), rfl⟩⟩
    · dsimp only
      split
      · exact ⟨(rfld_regPut_ne _ _ _ _ _ _ _ _ hne).trans (rfld_regSetFld_self _ _ _ _ (by omega)),
          fun _ => rfld_regSetFld_self _ _ _ _ (by omega), rfl, rfl⟩
      · next hon => exact ⟨rfld_regSetFld_self _ _ _ _ (by omega), fun h => absurd h hon, rfl, rfl⟩
    · exact (rfld_regPut_ne _ _ _ _ _ _ _ _ hne).trans (rfld_regSetFld_self _ _ _ _ (by omega))
  case disabled => exact ⟨_, next_congr (if_pos h), rfl, rfl, rfld_regSetFld_self _ _ _ _ (by omega), rfl⟩
  case pwr =>
    exact ⟨next_congr (rowWriteVal_of h v _), next_congr (rowWriteVal_of h v _), fun w hw => isOff_scPwr hp v hw⟩
  case off =>
    refine ⟨_, next_congr (if_pos ⟨hw, hoff, by simpa using hlost⟩), List.mem_append_right _ (List.mem_singleton_self w), fun q hq => ?_, rfl⟩
    simpa using (List.mem_filter.mp hq).2
  case lock =>
    refine ⟨_, next_congr ((rowWriteVal_of h v _).trans (if_neg (by simp [hp]))), fun w hw => ?_⟩
    exact (congrArg (bitOf · w) (regGet_regPut_self _ _ _ _)).trans
      (bitOf_bits16 (fun w => bitOf v w && (isLocked s w || ! (isScratch s w || isOff s w))) hw)
  case slot =>
    refine ⟨next_congr (rowWriteVal_of h v _), next_congr (rowWriteVal_of h v _), fun hv => ?_⟩
    have hgo : ¬ ((! pfPath p) = true ∨ q ≥ 12 ∨ (rfld (dropHalves s p) (slotReg q) 0 30 30 = 1 ∧ p = .host 0)) := by
      simp [hp, hfree]
      omega
    rw [scratchWrite, if_neg hgo, if_pos (by simp [hv])]
    refine (rfld_regPut_self _ _ _ _ _ _).trans ?_
    have hpart : fld v 26 24 < 8 := Nat.mod_lt _ (by omega)
    have hway : fld v 19 16 < 16 := Nat.mod_lt _ (by omega)
    rw [fld, Nat.shiftRight_eq_div_pow]
    omega
  case held =>
    exact ⟨next_congr ((rowWriteVal_of h v _).trans (if_pos (.inr (.inr ⟨hheld, rfl⟩)))),
      next_congr ((rowWriteVal_of h v _).trans (if_pos (.inr (.inr ⟨hheld, rfl⟩))))⟩
  case ready =>
    obtain ⟨hc, hd⟩ := cache_foldl_lostPoison q (s.cache.absent.filter (fun k => k % 16 == rfld s (slotReg q) 0 19 16)) s
    refine ⟨_, rfl, ?_⟩
    rw [scratchReady, if_pos ⟨hq, hv, hr⟩]
    refine ⟨congrArg (·.waits) hc, rfld_regSetFld_self _ _ _ _ (by omega), fun a hlo hhi => ?_, fun a hout => ?_⟩
    · exact (mread_mzero _ _ _ _).trans (if_pos ⟨hlo, hhi⟩)
    · refine (mread_mzero _ _ _ _).trans ((if_neg (by omega)).trans ?_)
      rw [hd]
  case retired => exact ⟨_, rfl, wayRetireDone_spec bad hret⟩

end Sys2Proof.Machine

/-! # The CAM's commands (R407 to R416) -/

namespace Sys2Proof.Machine
open Sys2Proof Sys2Proof.Safety

/-! ## Searches (R409, R413) -/

/-- The waiting lookup that is served next is of the lowest class. -/
theorem camPick_spec {qs : List CamReq} {q : CamReq} (h : camPick qs = some q) : q ∈ qs ∧ ∀ r ∈ qs, q.lc ≤ r.lc := by
  have hall := List.find?_some h
  exact ⟨List.mem_of_find?_eq_some h, fun r hr => of_decide_eq_true (List.all_eq_true.mp hall r hr)⟩
theorem cam_camCountHit (s : State) (h : Option CamHit) : (camCountHit s h).out = s.out ∧ (camCountHit s h).cam.waiting = s.cam.waiting
    ∧ (camCountHit s h).cam.mem = s.cam.mem := by
  unfold camCountHit camCount
  split <;> exact ⟨rfl, rfl, rfl⟩
theorem camNext_spec {s : State} {q : CamReq} (h : camPick s.cam.waiting = some q) :
    (camNext s).out.searches = s.out.searches ++ [(q, camFind s q.fn q.key)] ∧ (camNext s).cam.waiting = s.cam.waiting.erase q
      ∧ (camNext s).cam.mem = s.cam.mem := by
  obtain ⟨hout, hwait, hmem⟩ := cam_camCountHit { s with cam := { s.cam with waiting := s.cam.waiting.erase q } } (camFind s q.fn q.key)
  simp only [camNext, h, camServe]
  exact ⟨by rw [hout], hwait, hmem⟩
theorem camRecFail_congr {s t : State} (h : t.fns = s.fns) (fn : Nat) (rs : List (List Byte)) (n : Nat) :
    camRecFail t fn rs n = camRecFail s fn rs n := by
  induction rs generalizing n with
  | nil => rfl
  | cons r rs ih => simp only [camRecFail, h, ih]
theorem fns_itemTouch (s : State) (fn : Nat) (host : Bool) (a n : Nat) : (itemTouch s fn host a n).fns = s.fns := by
  obtain ⟨c, hc⟩ := itemTouch_frame s fn host a n
  rw [hc]

/-! ## Scrubs and spare loads (R416) -/

theorem mshift_self {m : Mem} {a : Nat} (h : ∀ c ∈ m, a ≤ c.1) : mshift m a a = m := by
  refine (List.map_congr_left fun c hc => ?_).trans (List.map_id m)
  rw [Nat.sub_add_cancel (h c hc)]
  rfl
/-- A copy to the same place: its range from the source, the rest as it was. -/
theorem mread_mcopy_self (dst src : Mem) (a n x : Nat) :
    mread (mcopy dst src a a n) x = if a ≤ x ∧ x < a + n then mread src x else mread dst x := by
  have hmid : mshift (mslice src a (a + n)) a a = src.filter (fun c => decide (a ≤ c.1) && decide (c.1 < a + n)) :=
    mshift_self fun c hc => by
      have hin := (List.mem_filter.mp hc).2
      simp only [Bool.and_eq_true, decide_eq_true_eq] at hin
      exact hin.1
  rw [mcopy, hmid]
  simp only [mread, msplice, lookup_append]
  by_cases hin : a ≤ x ∧ x < a + n
  · rw [lookup_filter_false dst (fun k => decide (k < a)) x (by simpa using hin.1),
      lookup_filter_true src (fun k => decide (a ≤ k) && decide (k < a + n)) x (by simpa using hin), if_pos hin,
      lookup_filter_false dst (fun k => decide (a + n ≤ k)) x (by simpa using hin.2)]
    cases List.lookup x src <;> rfl
  · rw [lookup_filter_false src (fun k => decide (a ≤ k) && decide (k < a + n)) x (by simp; omega), if_neg hin]
    by_cases hlo : x < a
    · rw [lookup_filter_true dst (fun k => decide (k < a)) x (by simpa using hlo),
        lookup_filter_false dst (fun k => decide (a + n ≤ k)) x (by simp; omega)]
      cases List.lookup x dst <;> rfl
    · rw [lookup_filter_false dst (fun k => decide (k < a)) x (by simpa using hlo),
        lookup_filter_true dst (fun k => decide (a + n ≤ k)) x (by simp; omega)]
theorem cam_rasCount (s : State) (cls : Nat) (lasting : Bool) : (rasCount s cls lasting).cam = s.cam := by
  unfold rasCount
  split <;> rfl
theorem cam_logEvent (s : State) (evid fn a0 a1 a2 : Nat) : (logEvent s evid fn a0 a1 a2).cam = s.cam := by
  unfold logEvent
  split <;> rfl

section
variable {s : State} {i : Nat} (hi : i < 131072)
include hi

/-- A good read of an entry whose error was transient: it is loaded from Frame's copy. -/
theorem camScrub_reload (h : i ∈ s.cam.reload) :
    i ∉ (doCamScrub i 0 s).cam.reload ∧ mreads (doCamScrub i 0 s).cam.mem (64 * i) 64 = mreads s.cam.copy (64 * i) 64 := by
  have hgo : ¬ i ≥ 131072 := by omega
  simp only [doCamScrub, if_neg hgo, if_true, List.contains_iff_mem.mpr h, cam_rasCount]
  refine ⟨fun hmem => by simpa using (List.mem_filter.mp hmem).2, ?_⟩
  have hwrite := mreads_mwrite_self s.cam.mem (64 * i) (mreads s.cam.copy (64 * i) 64)
  rw [mreads_length] at hwrite
  exact hwrite
/-- An entry's second error: its block is loaded into the spare, or the entry is dead. -/
theorem camScrub_lasting {err : Nat} (he : 2 ≤ err) : (doCamScrub i err s).cam.mem = s.cam.mem
    ∧ (rfld s Reg.CAM_STAT 0 17 17 = 0 → s.cam.load = none ∨ s.cam.load = some (i / 8192) →
      (doCamScrub i err s).cam.load = some (i / 8192) ∧ i ∈ (doCamScrub i err s).cam.reload)
    ∧ (rfld s Reg.CAM_STAT 0 17 17 ≠ 0 → i ∈ (doCamScrub i err s).cam.dead) := by
  let out : State := { s with cam := { s.cam with reload := s.cam.reload.filter (· != i) } }
  let a := rasCount (cntAdd out Reg.CAM_ERR_CNT 0 15 0 1) 5 true
  have hcam : a.cam = { s.cam with reload := s.cam.reload.filter (· != i) } := cam_rasCount _ _ _
  have hstat : rfld a Reg.CAM_STAT 0 17 17 = rfld s Reg.CAM_STAT 0 17 17 := rfld_regPut_ne out _ _ _ _ _ _ _ (by decide)
  have hrun : doCamScrub i err s = if rfld a Reg.CAM_STAT 0 17 17 = 0 ∧ (a.cam.load = none ∨ a.cam.load = some (i / 8192)) then
        camStat { a with cam := { a.cam with reload := a.cam.reload ++ [i], load := some (i / 8192) } }
      else
        logEvent (camStat (regSetFld { a with cam := { a.cam with dead := if a.cam.dead.contains i then a.cam.dead else a.cam.dead ++ [i] } }
          Reg.CAM_STAT 0 15 15 1)) Ev.camDegraded 0xFF (i / 8192) i 0 :=
    (if_neg (by omega)).trans ((if_neg (by omega)).trans (if_neg (by omega)))
  rw [hrun, hstat, hcam]
  split
  · next hc => exact ⟨rfl, fun _ _ => ⟨rfl, List.mem_append_right _ (List.mem_singleton_self i)⟩, fun h => absurd hc.1 h⟩
  · next hc =>
    rw [cam_logEvent]
    refine ⟨rfl, fun h1 h2 => absurd ⟨h1, h2⟩ hc, fun _ => ?_⟩
    change i ∈ if s.cam.dead.contains i = true then s.cam.dead else s.cam.dead ++ [i]
    split
    · next hin => exact List.contains_iff_mem.mp hin
    · exact List.mem_append_right _ (List.mem_singleton_self i)
end

/-- The state where a block has been loaded into the spare, before the updates that it held back. -/
def spareLoaded (s : State) (b : Nat) : State :=
  let t := { s with cam := { s.cam with
    load := none, reload := s.cam.reload.filter (fun i => i / 8192 != b),
    mem := mcopy s.cam.mem s.cam.copy (b * 524288) (b * 524288) 524288 } }
  let t := regSetFld (regSetFld t Reg.CAM_STAT 0 17 17 1) Reg.CAM_STAT 0 4 0 b
  logEvent (camStat { t with cam := { t.cam with updates := [] } }) Ev.spareIn 0xFF 3 b 16

/-! ## A search item that passes its checks (R415) -/

/-- How many answers of a search count more than one entry. -/
def searchMulti (hits : List (Option CamHit)) : Nat := (hits.filter (fun h => match h with
  | some x => decide (x.count > 1)
  | none => false)).length
theorem searchMulti_eq (hits : List (Option CamHit)) :
    searchMulti hits = (hits.filter (fun h => h.any (fun x => decide (1 < x.count)))).length := by
  unfold searchMulti
  congr 2
  funext h
  cases h <;> rfl
/-- A search item makes its results. -/
def searchReady (s : State) (id : Nat) (it : Item) : State :=
  let n := it.body 48 4
  let kh := bitOf (it.body 56 1) 0
  let hits := (chunks 32 n (itemRead s kh (it.body 32 8) (32 * n))).map (fun r => camFind s it.fn (key144 r))
  let multi := searchMulti hits
  let v := camCount (camBefore it.lc (itemTouch s it.fn kh (it.body 32 8) (32 * n))) n multi
  itemReady (if n = 0 then v else addEffects v id [writeEff (bitOf (it.body 56 1) 1) (it.body 40 8) (hits.flatMap camResult)]) id
    (hits.filter (·.isSome)).length multi

/-- Settles O45: lookups by their class, writes by who may write, items by their checks, scrubs by the entry's errors. -/
theorem camCommandsComplete : Obligations.CamCommandsComplete := by
  unfold Obligations.CamCommandsComplete
  refine fun s => ⟨fun fn key lc take => ?lookup, fun q hq => ?next, fun init fn addr bytes => ?window, fun id it hit => ?update,
    fun id it hit => ?search, fun i hi hr => ⟨_, rfl, camScrub_reload hi hr⟩, fun i hi hr => ?scrub,
    fun i err hi he => ⟨_, rfl, camScrub_lasting hi he⟩, fun b hb => ?spare⟩
  case lookup => exact rfl
  case next =>
    obtain ⟨hmem, hlc⟩ := camPick_spec hq
    exact ⟨hmem, hlc, camNext_spec hq⟩
  case window =>
    intro off allowed
    have hdenied : (addr < 0xFA00000000 ∨ off / 64 ≥ 131072 ∨ (init ≠ 0x94 ∧ (init > 0x93 ∨ holder s.fns.camFn (off / 64 / 8192) ≠ fn)))
        ↔ ¬ allowed := by
      simp only [allowed]
      omega
    refine ⟨fun hno => next_congr (if_pos (hdenied.mpr hno)), fun hok hload => ?_, fun hok hload hv hlow => ?_, fun hok hload hv => ?_⟩
    all_goals refine next_congr ((if_neg fun h => hdenied.mp h hok).trans ?_)
    · exact if_pos hload
    · exact (if_neg (by simpa using hload)).trans (if_pos ⟨hv, hlow⟩)
    · refine (if_neg (by simpa using hload)).trans (if_neg ?_)
      rintro ⟨hv', hlow⟩
      rcases hv with hv | hv
      · simp [off, hv] at hv'
      · omega
  case update =>
    intro n host a v recs
    have hrun : doCamUpdate id s = if a % 64 ≠ 0 then failItem s id St.alignment 0 0
        else if it.body 56 1 > 1 then failItem s id St.invalidField 0 0
        else if ¬ host ∧ ¬ winIt s it a (64 * n) then failItem s id St.addressRange 0 0
        else if ¬ host ∧ poisonedIn s a (64 * n) then failItem s id St.dataPoisoned 0 0
        else match camRecFail v it.fn recs 0 with
          | some (st, k) => failItem v id st k 0
          | none => itemReady (addEffects v id (recs.map (fun r => .cam (leAt r 48 4) (leAt r 45 1) r))) id n 0 := by
      simp only [doCamUpdate, hit] <;> rfl
    rw [camRecFail_congr (fns_itemTouch s it.fn host a (64 * n))] at hrun
    refine ⟨fun ha => next_congr (hrun.trans (if_pos ha)), fun ha hf => next_congr (hrun.trans ((if_neg (by omega)).trans (if_pos hf))),
      fun ha hf => ?_⟩
    have hrun := hrun.trans ((if_neg (by omega)).trans (if_neg (by omega)))
    refine ⟨fun hh hw => next_congr (hrun.trans (if_pos (by simp [hh, hw]))),
      fun hh hw hp => next_congr (hrun.trans ((if_neg (by simp [hw])).trans (if_pos (by simp [hh, hp])))), fun hok => ?_⟩
    have hwin : ¬ (¬ host = true ∧ ¬ winIt s it a (64 * n) = true) := fun h => h.2 (hok (by simpa using h.1)).1
    have hpois : ¬ (¬ host = true ∧ poisonedIn s a (64 * n) = true) := fun h => by simp [(hok (by simpa using h.1)).2] at h
    have hrun := hrun.trans ((if_neg hwin).trans (if_neg hpois))
    refine ⟨fun st k hf => next_congr (hrun.trans ?_), fun hf => next_congr (hrun.trans ?_)⟩
    · rw [hf]
    · rw [hf]
  case search =>
    intro n kh oh ka oa inside
    have hrun : doCamSearch id s = if ka % 64 ≠ 0 ∨ oa % 64 ≠ 0 then failItem s id St.alignment 0 0
        else if it.body 52 4 = 0xFFFFFFFF then failItem s id St.lengthInvalid 0 0
        else if it.body 52 4 < 16 * n then failItem s id St.bufferTooSmall 0 0
        else if (¬ kh ∧ ¬ winIt s it ka (32 * n)) ∨ (¬ oh ∧ ¬ winIt s it oa (16 * n)) then failItem s id St.addressRange 0 0
        else if ¬ kh ∧ poisonedIn s ka (32 * n) then failItem s id St.dataPoisoned 0 0
        else searchReady s id it := by
      simp only [doCamSearch, hit] <;> rfl
    refine ⟨fun h => next_congr (hrun.trans (if_pos h)), fun hka hoa => ?_⟩
    have hrun := hrun.trans (if_neg (by omega))
    have hinside : ((¬ kh = true ∧ ¬ winIt s it ka (32 * n) = true) ∨ (¬ oh = true ∧ ¬ winIt s it oa (16 * n) = true)) ↔ ¬ inside := by
      simp only [inside]
      grind
    refine ⟨fun hl => next_congr (hrun.trans (if_pos hl)), fun hl hb => next_congr (hrun.trans ((if_neg hl).trans (if_pos hb))),
      fun hl hb hin => next_congr (hrun.trans ((if_neg hl).trans ((if_neg (by omega)).trans (if_pos (hinside.mpr hin))))),
      fun hl hb hin hkh hp => ?_, fun hl hb hin hp => ?_⟩
    all_goals
      have hrun := hrun.trans ((if_neg hl).trans ((if_neg (by omega)).trans (if_neg fun h => hinside.mp h hin)))
    · exact next_congr (hrun.trans (if_pos (by simp [hkh, hp])))
    · refine ⟨_, searchMulti_eq _, next_congr (hrun.trans (if_neg fun h => ?_))⟩
      rw [hp (by simpa using h.1)] at h
      exact absurd h.2 (by simp)
  case scrub =>
    have hnot : s.cam.reload.contains i = false := by simpa using hr
    have hgo : ¬ i ≥ 131072 := by omega
    have hclean : doCamScrub i 0 s = s := by simp only [doCamScrub, if_neg hgo, if_true, hnot, Bool.false_eq_true, if_false]
    refine ⟨next_congr (congrArg (secondFault s) hclean), _, rfl, ?_⟩
    simp only [doCamScrub, if_neg hgo, hnot, Nat.one_ne_zero, Bool.false_eq_true, if_false, if_true]
    exact ⟨List.mem_append_right _ (List.mem_singleton_self i), rfl⟩
  case spare =>
    have hrun : doCamSpareLoadDone s = s.cam.updates.foldl camResume (spareLoaded s b) := by
      simp only [doCamSpareLoadDone, hb] <;> rfl
    refine ⟨_, next_congr hrun, ?_⟩
    rw [spareLoaded, cam_logEvent]
    exact ⟨rfl, rfl, fun a => mread_mcopy_self _ _ _ _ _⟩

end Sys2Proof.Machine

/-! # Modes and time (R435, R439 to R445) -/

namespace Sys2Proof.Machine
open Sys2Proof Sys2Proof.Safety

/-! ## A change of mode -/

/-- A change of mode away from Idle leaves the rest of the mode controller's state, but for the events. -/
theorem setMode_spec {s : State} {m : Nat} (hm : m ≠ Mode.idle) (hne : modeOf s ≠ m) (hpor : s.pwr.por = false) :
    modeOf (setMode s m) = m ∧ (setMode s m).pwr.req = s.pwr.req := by
  have hlog (t : State) (evid fn a0 a1 a2 : Nat) : modeOf (logEvent t evid fn a0 a1 a2) = modeOf t
      ∧ (logEvent t evid fn a0 a1 a2).pwr.req = t.pwr.req := by
    unfold logEvent modeOf
    split <;> exact ⟨rfl, rfl⟩
  simp only [setMode, if_neg hne, hm, false_and, if_false]
  let a := if modeOf s = Mode.idle then wakeDram s else s
  have hpwr : a.pwr = s.pwr := by
    unfold a
    split <;> rfl
  let b : State := { a with pwr := { a.pwr with mode := m, prev := modeOf s } }
  have hb : modeOf b = m ∧ b.pwr.req = s.pwr.req := by
    refine ⟨if_neg ?_, congrArg (·.req) hpwr⟩
    change ¬ a.pwr.por = true
    rw [hpwr, hpor]
    exact Bool.false_ne_true
  split
  · exact hb
  · obtain ⟨h1, h2⟩ := hlog b Ev.modeChange 0xFF (modeOf s) m b.pwr.holdCause
    exact ⟨h1.trans hb.1, h2.trans hb.2⟩
theorem por_of_workMode {s : State} (h : workMode (modeOf s) = true) : s.pwr.por = false := by
  unfold modeOf at h
  split at h
  · exact absurd h (by decide)
  · next hp => simpa using hp
theorem ne_of_workMode {m k : Nat} (h : workMode m = true) (hk : workMode k = false) : m ≠ k := by
  rintro rfl
  rw [h] at hk
  cases hk

/-! ## The register form of a request (R441) -/

section
variable {s : State} {target : Nat} {stop : Bool} (h2 : 2 ≤ target) (h5 : target ≤ 5) (hwork : workMode (modeOf s) = true)
include h2 h5 hwork

/-- A written request of target 2 to 5 in a mode that accepts work is judged. -/
theorem modeReqWrite_judged : modeReqWrite s (target + 16 * b2n stop) = regReq s (judgeReq s
    { target := target, ingestStop := stop, drainMs := 0, wakeAt := 0, item := none, since := 0 }) := by
  have htarget : fld (target + 16 * b2n stop) 3 0 = target := by
    rw [fld, Nat.shiftRight_zero]
    omega
  have hstop : bitOf (target + 16 * b2n stop) 4 = stop := by
    rw [bitOf, Nat.shiftRight_eq_div_pow]
    cases stop
    · simp only [b2n, Bool.false_eq_true, if_false]
      rw [show (target + 16 * 0) / 2 ^ 4 % 2 = 0 by omega]
      rfl
    · simp only [b2n, if_true]
      rw [show (target + 16 * 1) / 2 ^ 4 % 2 = 1 by omega]
      rfl
  rw [modeReqWrite, htarget, hstop, modeRequest, if_neg (ne_of_workMode hwork (by decide))]
theorem modeReqWrite_drains (hfree : s.pwr.req = none) : let t := modeReqWrite s (target + 16 * b2n stop)
    modeOf t = Mode.drain ∧ t.pwr.reqErr = 0 ∧ t.pwr.req.map (·.target) = some target := by
  let q : ModeReq := { target := target, ingestStop := stop, drainMs := 0, wakeAt := 0, item := none, since := 0 }
  let a : State := { s with pwr := { s.pwr with req := some { q with since := now s }, drainIngest := q.target = 2 && ! q.ingestStop } }
  have hjudge : judgeReq s q = .ok (setMode a Mode.drain) := by
    have h1 : ¬ q.target = 1 := by simp only [q]; omega
    have hin : ¬ (q.target < 2 ∨ q.target > 5) := by simp only [q]; omega
    rw [judgeReq, if_neg h1, if_neg hin, if_neg (by simp [hfree]), if_pos hwork]
  obtain ⟨hmode, hreq⟩ := setMode_spec (s := a) (m := Mode.drain) (by decide) (ne_of_workMode hwork (by decide)) (por_of_workMode hwork)
  rw [modeReqWrite_judged h2 h5 hwork, hjudge]
  exact ⟨hmode, rfl, congrArg (Option.map (·.target)) hreq⟩
theorem modeReqWrite_busy {q : ModeReq} (hq : s.pwr.req = some q) : let t := modeReqWrite s (target + 16 * b2n stop)
    t.pwr.reqErr = ReqErr.busy ∧ modeOf t = modeOf s := by
  have hjudge (r : ModeReq) (hr : r.target = target) : judgeReq s r = .error ReqErr.busy := by
    rw [judgeReq, if_neg (by omega), if_neg (by omega), if_pos (by simp [hq])]
  rw [modeReqWrite_judged h2 h5 hwork, hjudge _ rfl]
  exact ⟨rfl, rfl⟩
end

/-- Settles O47: the register rows by their path, their request by its judgement, the item by its target and its judgement. -/
theorem modeRequestsAreJudged : Obligations.ModeRequestsAreJudged := by
  unfold Obligations.ModeRequestsAreJudged
  refine ⟨fun s p hp => ?row, fun s p stop hp => ?closed, fun s id it hit => ?item⟩
  case row =>
    intro row
    refine ⟨next_congr (if_pos hp), next_congr (if_pos hp), next_congr (if_pos hp), next_congr (if_pos hp), fun stop => next_congr (if_pos hp),
      fun target stop h2 h5 => ⟨fun hwork hfree => modeReqWrite_drains h2 h5 hwork hfree, fun q hwork hq => modeReqWrite_busy h2 h5 hwork hq⟩⟩
  case closed =>
    intro t
    have hrow (target : Nat) (stop : Bool) : modeReqRow p target stop s = t := by
      simp only [modeReqRow, hp, Bool.false_eq_true, if_false, Bool.not_eq_true', t]
    exact ⟨next_congr (hrow 1 false), next_congr (hrow 2 stop), next_congr (hrow 3 false), next_congr (hrow 4 false), next_congr (hrow 5 false)⟩
  case item =>
    intro t
    let q : ModeReq := { target := t, ingestStop := bitOf (it.body 33 1) 0, drainMs := it.body 36 4,
                         wakeAt := if t = 3 then it.body 40 8 else 0, item := some id, since := 0 }
    have hrun : doModeRequest id s = if t < 2 ∨ t > 5 then failItem s id St.invalidField 0 0 else itemReq s id (modeRequest s q) := by
      simp only [doModeRequest, hit] <;> rfl
    refine ⟨fun ht => next_congr (hrun.trans (if_pos ht)), fun h2 h5 => ?_⟩
    have hrun := hrun.trans (if_neg (by omega))
    intro q
    refine ⟨fun u hu => next_congr (hrun.trans ?_), fun hu => next_congr (hrun.trans ?_), fun e he hu => next_congr (hrun.trans ?_)⟩
    · exact congrArg (itemReq s id) hu
    · exact congrArg (itemReq s id) hu
    · exact (congrArg (itemReq s id) hu).trans (by rw [itemReq, if_neg he])

/-- Settles O48: the end of a drain by its target and its snapshot, its time limit, and the moves of the mode controller. -/
theorem drainsCompleteInTheirMode : Obligations.DrainsCompleteInTheirMode := by
  unfold Obligations.DrainsCompleteInTheirMode
  refine ⟨fun s q hq hm => ?drain, fun s => ?auto⟩
  case drain =>
    have hrun : doDrainComplete s = if modeOf s ≠ Mode.drain ∨ ! drained s q ∨ ! reqMay s q then s
        else if (q.target = 3 ∨ q.target = 5) ∧ s.led.pool.isSome ∧ ! q.snapBegun then
          (if s.led.snap.isSome then s else beginSnap { s with pwr := { s.pwr with req := some { q with snapBegun := true } } })
        else if (q.target = 3 ∨ q.target = 5) ∧ s.led.snap.isSome then s
        else if q.target = 4 then
          if s.pwr.temps.any (fun t => decide (tripTemp s - 40 ≤ t.2)) then maintainRefused s q
          else reqDone (setMode s Mode.maintain) q Mode.maintain
        else if q.target = 3 then retainEntry (reqDone s q Mode.retain) q.wakeAt
        else reqDone s q Mode.drain := by
      simp only [doDrainComplete, hq] <;> rfl
    have hready (hd : drained s q = true) (hr : reqMay s q = true) : ¬ (modeOf s ≠ Mode.drain ∨ (! drained s q) = true ∨ (! reqMay s q) = true) := by
      simp [hm, hd, hr]
    have htime : doDrainTimeout s = if modeOf s = Mode.drain ∧ q.drainMs ≠ 0 ∧ q.since + 1000000 * q.drainMs ≤ now s then abortAll s q.item
        else s := by
      simp only [doDrainTimeout, hq] <;> rfl
    refine ⟨fun h => ?_, fun hd hr ht => ?_, fun hd hr ht => ⟨fun hot => ?_, fun hot => ?_⟩, fun hd hr ht hpool hbegun hsnap => ?_,
      fun hd ht hsnap => ?_, fun hd hr hpool hsnap => ⟨fun ht => ?_, fun ht => ?_⟩, fun hne hlate => ?_, fun h => ?_⟩
    · exact next_congr (hrun.trans (if_pos (.inr (by simpa using h))))
    · exact next_congr (hrun.trans ((if_neg (hready hd hr)).trans ((if_neg (by omega)).trans ((if_neg (by omega)).trans
        ((if_neg (by omega)).trans (if_neg (by omega)))))))
    · exact next_congr (hrun.trans ((if_neg (hready hd hr)).trans ((if_neg (by omega)).trans ((if_neg (by omega)).trans
        ((if_pos ht).trans (if_pos hot))))))
    · exact next_congr (hrun.trans ((if_neg (hready hd hr)).trans ((if_neg (by omega)).trans ((if_neg (by omega)).trans
        ((if_pos ht).trans (if_neg (by rw [hot]; exact Bool.false_ne_true)))))))
    · exact next_congr (hrun.trans ((if_neg (hready hd hr)).trans ((if_pos ⟨ht, hpool, by simp [hbegun]⟩).trans (if_neg (by simp [hsnap])))))
    · refine next_congr (hrun.trans ?_)
      split
      · rfl
      · split
        · rfl
        · rw [if_pos ⟨ht, hsnap⟩]
    · have hno : ¬ ((q.target = 3 ∨ q.target = 5) ∧ s.led.pool.isSome = true ∧ (! q.snapBegun) = true) := by
        rcases hpool with hpool | hpool <;> simp [hpool]
      exact next_congr (hrun.trans ((if_neg (hready hd hr)).trans ((if_neg hno).trans ((if_neg (by simp [hsnap])).trans
        ((if_neg (by omega)).trans (if_neg (by omega)))))))
    · have hno : ¬ ((q.target = 3 ∨ q.target = 5) ∧ s.led.pool.isSome = true ∧ (! q.snapBegun) = true) := by
        rcases hpool with hpool | hpool <;> simp [hpool]
      exact next_congr (hrun.trans ((if_neg (hready hd hr)).trans ((if_neg hno).trans ((if_neg (by simp [hsnap])).trans
        ((if_neg (by omega)).trans (if_pos ht))))))
    · exact next_congr (htime.trans (if_pos ⟨hm, hne, hlate⟩))
    · exact next_congr (htime.trans (if_neg (by omega)))
  case auto =>
    refine ⟨fun hw => next_congr ((if_pos hw).trans ?_), fun hm ha ho => ?_, fun hw hm => ?_⟩
    · split
      · rfl
      · split <;> rfl
    · exact next_congr ((if_neg (by rw [hm]; decide)).trans (if_pos ⟨hm, ha, by simp [ho]⟩))
    · exact next_congr ((if_neg (by simp [hw])).trans (if_neg fun h => hm h.1))

/-- Settles O49: an edge by what it applies, the posted writes by their path, DEVTIME by its rule. -/
theorem devtimeAdvancesAtEdges : Obligations.DevtimeAdvancesAtEdges := by
  unfold Obligations.DevtimeAdvancesAtEdges
  refine fun s => ⟨fun hp => ?edge, fun hp => next_congr (if_pos hp), by decide, fun p off v h => ?closed, fun p off v hp hw => ?posted,
    fun w hw => ?devtime⟩
  case edge =>
    intro u
    have hedge : exec .aclkEdge s = .next (aonCopy (drainEvents ((lastWrites (s.regs.posted.take 16)).foldl aonApply u))) :=
      next_congr (if_neg (by simp [hp]))
    refine ⟨hedge, fun hnil => ⟨_, hedge, ?_⟩⟩
    rw [hnil]
    exact ⟨rfl, rfl, rfl, rfl⟩
  case closed =>
    refine next_congr ?_
    rcases h with h | h
    · exact if_neg (by simp [h])
    · by_cases hp : reqPath p s = true
      · exact (if_pos hp).trans (if_neg (by simp [h]))
      · exact if_neg hp
  case posted => exact next_congr ((if_pos hp).trans (if_pos hw))
  case devtime =>
    let u : State := { s with regs := { s.regs with
      posted := (s.regs.posted.take 16).filter (fun x => x.off != Reg.AON_DEVTIME) ++ s.regs.posted.drop 16 } }
    have hrun : doDevtimeWrite s = devtimeSet u w.val := by
      simp only [doDevtimeWrite, inBuffer, hw] <;> rfl
    refine ⟨_, next_congr hrun, ?_⟩
    rw [devtimeSet]
    have hmode : modeOf u = modeOf s := rfl
    rw [hmode]
    split
    · exact ⟨rfl, rfl⟩
    · exact ⟨rfl, rfl⟩

end Sys2Proof.Machine

/-! # Sill's requests (R427 to R432) -/

namespace Sys2Proof.Machine
open Sys2Proof Sys2Proof.Safety

section
variable {s u : State} {cmd src : Nat} {data : List Byte} {r : SReq}

/-- What Sill does with a request of Table 20-4 whose turn it is. -/
theorem sillServe_asked (h : Asked s cmd src data u r) (hc : sillCmds.contains cmd = true) (go : State → SReq → State) :
    sillServe cmd src data s go = if modeOf s = Mode.lockdown ∧ cmd ≥ 0x10 then answerReq u r St.secDenied [] else go u r := by
  obtain ⟨hserves, hlock, hsrc, hrsrc, hrcmd, hhead, hcase⟩ := h
  have harrive : (if src = 1 then sillArrive s ⟨1, cmd, data⟩ else s) = u ∧ modeOf u = modeOf s := by
    rcases hcase with ⟨hne, rfl⟩ | ⟨h1, hnil, rfl, rfl⟩
    · exact ⟨if_neg hne, rfl⟩
    · refine ⟨(if_pos h1).trans ?_, rfl⟩
      simp only [sillArrive, hnil, List.any_nil, Bool.false_eq_true, if_false, List.nil_append, hc, if_true]
  obtain ⟨hu, hmode⟩ := harrive
  obtain ⟨rest, hreqs⟩ := List.head?_eq_some_iff.mp hhead
  have hgo : ¬ (r.src ≠ src ∨ r.cmd ≠ cmd ∨ (modeOf s = Mode.lockdown ∧ src > 1)) := by
    rintro (h | h | ⟨h, h'⟩)
    · exact h hrsrc
    · exact h hrcmd
    · have := hlock h
      omega
  rw [sillServe, if_neg (by omega), if_neg (by simp [hserves])]
  simp only [hu, hreqs, hmode, if_neg hgo]
theorem sillServe_lockdown (h : Asked s cmd src data u r) (hc : sillCmds.contains cmd = true) (hl : modeOf s = Mode.lockdown)
    (h10 : cmd ≥ 0x10) (go : State → SReq → State) : sillServe cmd src data s go = answerReq u r St.secDenied [] :=
  (sillServe_asked h hc go).trans (if_pos ⟨hl, h10⟩)
theorem sillServe_open (h : Asked s cmd src data u r) (hc : sillCmds.contains cmd = true) (hl : ¬ (modeOf s = Mode.lockdown ∧ cmd ≥ 0x10))
    (go : State → SReq → State) : sillServe cmd src data s go = go u r :=
  (sillServe_asked h hc go).trans (if_neg hl)
theorem modeOf_of_asked (h : Asked s cmd src data u r) : modeOf u = modeOf s := by
  obtain ⟨-, -, -, -, -, -, hcase⟩ := h
  rcases hcase with ⟨-, rfl⟩ | ⟨-, -, -, rfl⟩ <;> rfl

/-- What FW_COMMIT does with the verdict on its slot. -/
def fwVerdict (w : State) (r : SReq) : VerRes → State
  | .fault => sillFault w
  | .rollback => answerReq w r St.secFwRollback []
  | .bad => answerReq w r St.secFwVerify []
  | .ok _ =>
    if leAt (slotHead w (inactiveSlot w)) 12 4 + 512 ≠ leAt r.data 0 4 then answerReq w r St.secFwVerify []
    else match bootPtr w with
      | none => answerReq w r St.secFwVerify []
      | some p => answerReq (writePtr w { p with try_ := inactiveSlot w, tried := 0 }) r 0 []
theorem doFwCommit_open {faults : Nat} (h : Asked s 0x11 src data u r) (hl : modeOf s ≠ Mode.lockdown) (ho : fwOther u r = false)
    (hlen : r.data.length = 4) : doFwCommit src data faults s
      = let w := { u with sec := { u.sec with fwSrc := none } }
        fwVerdict w r (verifySlot w (inactiveSlot w) (bitOf faults 0) (bitOf faults 1)) := by
  rw [doFwCommit, sillServe_open h (by decide) (fun hc => hl hc.1)]
  rw [if_neg (by simp [ho])]
  lift_lets
  intro _ w k
  rw [if_neg (Decidable.not_not.mpr hlen)]
  generalize verifySlot w k (bitOf faults 0) (bitOf faults 1) = v
  cases v with
  | ok i => cases hp : bootPtr w <;> simp only [fwVerdict, hp, k]
  | fault => rfl
  | bad => rfl
  | rollback => rfl
end

/-- Settles O51: each request by what it asks, in the mode and for the source that it comes in and from. -/
theorem sillRequestsAreServed : Obligations.SillRequestsAreServed := by
  unfold Obligations.SillRequestsAreServed
  refine fun s src data u r => ⟨fun h => ?status, fun h => ?attest, fun h => ?certs, fun h => ?write, fun h faults => ?commit,
    fun h hl => ?acceptDenied, fun h hl p hp => ?accept, fun h hl fault => ?debugDenied, fun h hl => ?debug, fun w q st d hq => ?answer,
    fun n k w hfree hl hk => ?packet⟩
  case status => exact next_congr (sillServe_open h (by decide) (by omega) _)
  case attest =>
    have hrun := sillServe_open h (by decide) (by omega) (fun s r =>
      if r.data.length ≠ 32 then answerReq s r St.secBadCmd []
      else answerReq (nextFree s).2 r 0 (reportBytes s r.data ++ (List.range 96).map (Config.sigByte (nextFree s).1)))
    refine ⟨fun hlen => ⟨_, ?_, next_congr (hrun.trans (if_neg (Decidable.not_not.mpr hlen)))⟩, fun hlen => next_congr (hrun.trans (if_pos hlen))⟩
    simp
  case certs => exact next_congr (sillServe_open h (by decide) (by omega) _)
  case write =>
    refine ⟨fun hl => next_congr (sillServe_lockdown h (by decide) hl (by omega) _), fun hl ho => ?_, fun hl ho hbad => ?_,
      fun hl h4 h4096 hfit ho => ?_⟩
    all_goals
      refine next_congr ((sillServe_open h (by decide) (fun hc => hl hc.1) _).trans ?_)
    · exact if_pos ho
    · refine (if_neg (by simp [ho])).trans (if_pos ?_)
      rw [List.isEmpty_iff, List.drop_eq_nil_iff, List.length_drop]
      omega
    · refine (if_neg (by simp [ho])).trans ((if_neg ?_).trans ?_)
      · rw [List.isEmpty_iff, List.drop_eq_nil_iff, List.length_drop]
        omega
      · simp only [Option.isNone_iff_eq_none]
  case commit =>
    refine ⟨fun hl => next_congr (sillServe_lockdown h (by decide) hl (by omega) _), fun hl ho => ?_, fun hl ho hlen => ?_,
      fun hl ho hlen => ?_⟩
    · exact next_congr ((sillServe_open h (by decide) (fun hc => hl hc.1) _).trans (if_pos ho))
    · exact next_congr ((sillServe_open h (by decide) (fun hc => hl hc.1) _).trans ((if_neg (by simp [ho])).trans (if_pos hlen)))
    · intro w v
      have hrun {t : State} (ht : fwVerdict w r v = t) : exec (.fwCommit src data faults) s = .next t := by
        rw [← ht]
        exact next_congr (doFwCommit_open h hl ho hlen)
      refine ⟨fun hv => hrun (by rw [hv, fwVerdict]), fun hv => hrun (by rw [hv, fwVerdict]), fun hv => hrun (by rw [hv, fwVerdict]),
        fun i hv hne => hrun (by rw [hv, fwVerdict, if_pos hne]), fun i p hv heq hp => hrun ?_⟩
      rw [hv, fwVerdict, if_neg (Decidable.not_not.mpr heq)]
      simp only [hp]
  case acceptDenied => exact next_congr (sillServe_lockdown h (by decide) hl (by omega) _)
  case accept =>
    have hmode := modeOf_of_asked h
    have hrun : doFwAccept src data s = if fwOther u r ∨ ! workMode (modeOf u) ∨ p.try_ ≠ u.sec.slot then answerReq u r St.secBusy []
        else
          let w := writePtr u { p with active := u.sec.slot, try_ := 0xFF }
          answerReq { w with sec := { w.sec with svnFused := max w.sec.svnFused (min 64 w.sec.svnRun) } } r 0 [] := by
      refine (sillServe_open h (by decide) (fun hc => hl hc.1) _).trans ?_
      simp only [hp]
    rw [hmode] at hrun
    refine ⟨fun hc => next_congr (hrun.trans (if_pos (by simpa using hc))), fun ho hw ht => next_congr (hrun.trans (if_neg ?_))⟩
    simp [ho, hw, ht]
  case debugDenied => exact next_congr (sillServe_lockdown h (by decide) hl (by omega) _)
  case debug =>
    have hrun (fault : Bool) := sillServe_open h (by decide) (fun hc => hl hc.1) (fun s r =>
      if fault then sillFault s
      else if ! bitOf s.sec.revoked 3 ∧ Config.tokenOk r.data then
        let s := (List.range 64).foldl eraseSlot s
        answerReq { s with sec := { s.sec with debugOpen := true } } r 0 []
      else answerReq s r St.secDenied [])
    refine ⟨fun hrev htok => ?_, fun hc => ?_, next_congr (hrun true)⟩
    · exact next_congr ((hrun false).trans ((if_neg Bool.false_ne_true).trans (if_pos ⟨by simp [hrev], htok⟩)))
    · refine next_congr ((hrun false).trans ((if_neg Bool.false_ne_true).trans (if_neg ?_)))
      rcases hc with hc | hc <;> simp [hc]
  case answer =>
    simp only [answerReq, if_pos hq]
    exact ⟨trivial, trivial, trivial, trivial, trivial⟩
  case packet =>
    refine next_congr ((if_neg (by simp [hfree, hl])).trans ?_)
    simp only [hk]

end Sys2Proof.Machine

/-! # Register writes and the parity of registers (R475 to R482) -/

namespace Sys2Proof.Machine
open Sys2Proof Sys2Proof.Safety

/-! ## A write of a register (R475, R476) -/

/-- What a write of `n` bytes at `a` stores, by its target. -/
def targetWrite (s : State) (p : Path) (a n v : Nat) (t : RegTarget) : State :=
  let u := dropHalves s p
  match t with
  | .reg off =>
    if n = 8 then regStore u p (pathFn p) off v
    else if ! reg64 off then (if a % 8 = 0 then regStore u p (pathFn p) off (v % 2 ^ 32) else u)
    else if a % 8 = 0 then { u with regs := { u.regs with halfW := tset u.regs.halfW (pathNum p) (off, v % 2 ^ 32) } }
    else match tget s.regs.halfW (pathNum p) with
      | some (o, h) => if o = off then regStore u p (pathFn p) off (v % 2 ^ 32 * 2 ^ 32 + h) else u
      | none => u
  | .layMem o => doLayoutMemWrite p o (natLE n v) u
  | .mbox o => { u with sec := { u.sec with mbox := mwrite u.sec.mbox o (natLE n v) } }
  | .msix o => msixWrite u (pathFn p) o (natLE n v)
  | _ => u

section
variable {s : State} {p : Path} {a n v : Nat} {t : RegTarget}

/-- A write that its path may not make. -/
theorem regWriteAt_denied (h : regShape a n = false ∨ targetOf (pathFn p) a = none ∨ (denyClass s p (targetOf (pathFn p) a)).isSome = true) :
    regWriteAt s p (pathFn p) a n v = (dropHalves s p, true) := by
  simp only [regWriteAt]
  by_cases hs : regShape a n = true
  · have hdeny : (denyClass s p (targetOf (pathFn p) a)).isSome = true := by
      rcases h with h | h | h
      · rw [h] at hs
        cases hs
      · rw [h]
        rfl
      · exact h
    rw [if_neg (by simp [hs]), if_pos hdeny]
  · rw [if_pos (by simpa using hs)]
/-- A write that its path may make. -/
theorem doRegisterWrite_of (hup : pathUp s p = true) {w : State} (hw : regWriteAt s p (pathFn p) a n v = (w, false)) :
    doRegisterWrite p a n v s = w := by
  simp only [doRegisterWrite, hup, hw, Bool.not_true, Bool.false_eq_true, if_false]
section
variable (hs : regShape a n = true) (ht : targetOf (pathFn p) a = some t) (hd : denyClass s p (some t) = none)
include hs ht hd

theorem regWriteAt_closed (ho : regOpen s p t = false) : regWriteAt s p (pathFn p) a n v = (dropHalves s p, false) := by
  simp only [regWriteAt, hs, ht, hd, ho, Bool.not_true, Bool.not_false, Bool.false_eq_true, if_false, if_true, Option.isSome_none]
/-- A write that no gate holds up, by its target. -/
theorem regWriteAt_open (ho : regOpen s p t = true) : regWriteAt s p (pathFn p) a n v = (targetWrite s p a n v t, false) := by
  simp only [regWriteAt, hs, ht, hd, ho, Bool.not_true, Bool.false_eq_true, if_false, Option.isSome_none]
  cases t with
  | reg off =>
    dsimp only [targetWrite]
    split
    · rfl
    · split
      · rfl
      · split
        · rfl
        · cases tget s.regs.halfW (pathNum p) <;> rfl
  | errlog o => rfl
  | layMem o => rfl
  | mbox o => rfl
  | evlog o => rfl
  | msix o => rfl
  | pba o => rfl
end
end

/-! ## Queues frozen for a mismatch (R482) -/

/-- What a frozen queue leaves: the registers, the mode and the other queues. -/
structure SameButQueue (d : Nat) (s t : State) : Prop where
  regs : t.regs = s.regs
  pwr : t.pwr = s.pwr
  other : ∀ e, e ≠ d → getQ t e = getQ s e
namespace SameButQueue
variable {d : Nat} {s t u : State}

theorem trans (h : SameButQueue d s t) (h' : SameButQueue d t u) : SameButQueue d s u :=
  ⟨h'.regs.trans h.regs, h'.pwr.trans h.pwr, fun e he => (h'.other e he).trans (h.other e he)⟩
theorem modQ (s : State) (d : Nat) (f : HostQ → HostQ) : SameButQueue d s (modQ s d f) := ⟨rfl, rfl, fun e he => getQ_modQ_ne s d e f he⟩
end SameButQueue
theorem fnEvent_frame (s : State) (fn : Nat) : (fnEvent s fn).regs = s.regs ∧ (fnEvent s fn).pwr = s.pwr ∧ (fnEvent s fn).qm = s.qm := by
  unfold fnEvent sendMsix
  split
  · split
    · split <;> exact ⟨rfl, rfl, rfl⟩
    · exact ⟨rfl, rfl, rfl⟩
  · exact ⟨rfl, rfl, rfl⟩
/-- A queue that is frozen for an item's failure, or for none. -/
theorem freezeQueue_spec (s : State) (it : Item) : SameButQueue it.queue s (freezeQueue s it)
    ∧ (getQ (freezeQueue s it) it.queue).st = if (getQ s it.queue).st = .active then .frozen else (getQ s it.queue).st := by
  let f : HostQ → HostQ := fun q => { q with
    errTag := it.tag, errStatus := it.status, errSeq := (errLogOf s it.fn).nextSeq, parityFrozen := false,
    freezes := if q.st = .active then satAdd 16 q.freezes 1 else q.freezes, st := if q.st = .active then .frozen else q.st }
  have hrun : freezeQueue s it = fnEvent (modQ (errLogWrite s it.fn it false) it.queue f) it.fn := rfl
  obtain ⟨hregs, hpwr, hqm⟩ := fnEvent_frame (modQ (errLogWrite s it.fn it false) it.queue f) it.fn
  have hq (e : Nat) : getQ (freezeQueue s it) e = getQ (modQ (errLogWrite s it.fn it false) it.queue f) e := by
    rw [hrun, getQ, hqm]
    rfl
  refine ⟨⟨hrun ▸ hregs, hrun ▸ hpwr, fun e he => (hq e).trans (getQ_modQ_ne _ _ _ _ he)⟩, ?_⟩
  rw [hq, getQ_modQ_self]
  rfl
/-- Freeze an ACTIVE queue for a mismatching register. -/
def parityFreeze (s : State) (d : Nat) : State := modQ (freezeBare s d St.cfgParity) d (fun q => { q with parityFrozen := true })
theorem parityFreeze_spec (s : State) (d : Nat) : SameButQueue d s (parityFreeze s d)
    ∧ ((getQ s d).st ≠ .disabled → (getQ (parityFreeze s d) d).st = .frozen) := by
  have hbare : SameButQueue d s (freezeBare s d St.cfgParity)
      ∧ ((getQ s d).st ≠ .disabled → (getQ (freezeBare s d St.cfgParity) d).st = .frozen) := by
    unfold freezeBare
    split
    · next hact =>
      have hno : SameButQueue d s (noItem s d St.cfgParity).2 := ⟨rfl, rfl, fun _ _ => rfl⟩
      obtain ⟨hsame, hst⟩ := freezeQueue_spec (noItem s d St.cfgParity).2 (noItem s d St.cfgParity).1
      exact ⟨hno.trans hsame, fun _ => hst.trans (if_pos hact)⟩
    · next hact =>
      refine ⟨⟨rfl, rfl, fun _ _ => rfl⟩, fun hd => ?_⟩
      cases hst : (getQ s d).st with
      | disabled => exact absurd hst hd
      | active => exact absurd hst hact
      | frozen => rfl
  refine ⟨hbare.1.trans (.modQ _ _ _), fun hd => ?_⟩
  rw [parityFreeze, getQ_modQ_self]
  exact hbare.2 hd
/-- A list of queues is frozen. -/
theorem foldl_parityFreeze_spec (l : List Nat) (s : State) : (l.foldl parityFreeze s).regs = s.regs ∧ (l.foldl parityFreeze s).pwr = s.pwr
    ∧ ∀ d, (getQ s d).st ≠ .disabled → (d ∈ l ∨ (getQ s d).st = .frozen) → (getQ (l.foldl parityFreeze s) d).st = .frozen := by
  induction l generalizing s with
  | nil => exact ⟨rfl, rfl, fun d _ h => h.resolve_left List.not_mem_nil⟩
  | cons e l ih =>
    obtain ⟨hsame, hfrozen⟩ := parityFreeze_spec s e
    obtain ⟨hregs, hpwr, hall⟩ := ih (parityFreeze s e)
    refine ⟨hregs.trans hsame.regs, hpwr.trans hsame.pwr, fun d hd h => ?_⟩
    by_cases he : d = e
    · subst he
      have hst := hfrozen hd
      exact hall d (by rw [hst]; decide) (.inr hst)
    · have hq := hsame.other d he
      exact hall d (by rw [hq]; exact hd) (by rw [hq]; exact h.imp_left fun hm => (List.mem_cons.mp hm).resolve_left he)

/-- A new mismatch of a register, as it is counted and logged. -/
def parityFound (s : State) (off inst : Nat) : State :=
  logEvent { s with regs := { s.regs with bad := s.regs.bad ++ [(off, inst)], parCnt := satAdd 32 s.regs.parCnt 1 } }
    Ev.cfgParity (instOwner s off inst) off (instSel s off inst) (instOwner s off inst)
theorem parityFound_spec (s : State) (off inst : Nat) : (parityFound s off inst).regs.parCnt = min (s.regs.parCnt + 1) (2 ^ 32 - 1)
    ∧ (parityFound s off inst).regs.vals = s.regs.vals ∧ modeOf (parityFound s off inst) = modeOf s ∧ (parityFound s off inst).qm = s.qm
    ∧ (parityFound s off inst).fns = s.fns := by
  unfold parityFound logEvent modeOf
  split <;> exact ⟨rfl, rfl, rfl, rfl, rfl⟩
theorem queueHolder_congr {s t : State} (h : t.fns = s.fns) (d : Nat) : queueHolder t d = queueHolder s d := by
  rw [queueHolder, queueHolder, h]

/-- Settles O54: a register write by its target, a scrub by its mismatch and its owner, a rewrite by its register. -/
theorem registerWritesAreGated : Obligations.RegisterWritesAreGated := by
  unfold Obligations.RegisterWritesAreGated
  refine ⟨fun s p a n v => ?write, fun s off inst his hbad hoff hret => ?scrub, fun s p off v i hopen hf hi => ?rewrite⟩
  case write =>
    intro u at_
    have hrun {n : Nat} {t : RegTarget} {w : State} (h : at_ n t) (hw : regWriteAt s p (pathFn p) a n v = (w, false)) :
        exec (.registerWrite p a n v) s = .next w := next_congr (doRegisterWrite_of h.1 hw)
    have hopen {n : Nat} {t : RegTarget} (h : at_ n t) (ho : regOpen s p t = true) :
        exec (.registerWrite p a n v) s = .next (targetWrite s p a n v t) := by
      obtain ⟨-, hs, ht, hd⟩ := id h
      exact hrun h (regWriteAt_open hs ht hd ho)
    have hclosed {n : Nat} {t : RegTarget} (h : at_ n t) (ho : regOpen s p t = false) : exec (.registerWrite p a n v) s = .next u := by
      obtain ⟨-, hs, ht, hd⟩ := id h
      exact hrun h (regWriteAt_closed hs ht hd ho)
    have hread {n : Nat} {t : RegTarget} (h : at_ n t) (ht : targetWrite s p a n v t = u) : exec (.registerWrite p a n v) s = .next u := by
      cases ho : regOpen s p t with
      | false => exact hclosed h ho
      | true => exact (hopen h ho).trans (next_congr ht)
    refine ⟨fun hup => next_congr (if_pos (by simp [hup])), fun hup h => ?_, fun t h ho => hclosed h ho, fun off h ho => hopen h ho,
      fun off h ho => ⟨fun h32 => ?_, fun h64 ha => ?_, fun h64 ha => ?_⟩, fun o h => ?_, fun o h ho => hopen h ho, fun o h ho => hopen h ho,
      fun o h ho => hopen h ho⟩
    · refine next_congr ((if_neg (by simp [hup])).trans ?_)
      simp only [regWriteAt_denied h, if_true]
      rfl
    · exact (hopen h ho).trans (next_congr (if_pos (by simp [h32])))
    · exact (hopen h ho).trans (next_congr ((if_neg (by simp [h64])).trans (if_pos ha)))
    · refine (hopen h ho).trans (next_congr ((if_neg (by simp [h64])).trans ((if_neg ha).trans ?_)))
      cases tget s.regs.halfW (pathNum p) <;> rfl
    · rcases h with h | h | h <;> exact hread h rfl
  case scrub =>
    have hgo : ¬ ((! true) = true ∨ (! instIs s off inst) = true ∨ instBad s off inst = true ∨ modeOf s = Mode.off ∨ modeOf s = Mode.retain) := by
      simp [his, hbad, hoff, hret]
    have hclean : doCfgParityScrub off inst false s = s := by simp [doCfgParityScrub]
    refine ⟨next_congr hclean, fun hown => next_congr ((if_neg hgo).trans ((if_neg (by simp [hown])).trans ?_)), fun hown => ?_⟩
    · have hzero : instOwner s off inst = 0 := by
        have hne : off ≠ Reg.QM_FN_EVT := by
          rintro rfl
          exact absurd hown (by decide)
        rw [instOwner, if_neg hne, if_neg (by simp [hown])]
      rw [hzero]
      rfl
    · obtain ⟨hcnt, hvals, hmode, hqm, hfns⟩ := parityFound_spec s off inst
      let w := parityFound s off inst
      let l := (activeQueues w).filter (fun d => queueHolder w d == instOwner s off inst)
      obtain ⟨hregs, hpwr, hall⟩ := foldl_parityFreeze_spec l w
      refine ⟨l.foldl parityFreeze w, next_congr ((if_neg hgo).trans (if_pos hown)), by rw [hregs, hcnt], by rw [hregs, hvals], ?_, ?_⟩
      · rw [modeOf, hpwr]
        exact hmode
      · intro d hd hact hholder
        have hq : getQ w d = getQ s d := by rw [getQ, hqm]; rfl
        refine hall d (by rw [hq, hact]; decide) (.inl (List.mem_filter.mpr ⟨?_, ?_⟩))
        · rw [activeQueues, hqm]
          exact hd
        · rw [queueHolder_congr hfns, hholder, beq_self_eq_true]
  case rewrite =>
    have hrun : doCfgParityRewrite p off v s
        = if instBad s off i then parCured (parStore (dropHalves s p) p (pathFn p) off i v) off i else s := by
      rw [doCfgParityRewrite, if_pos ⟨hopen, hf⟩]
      simp only [hi]
    exact ⟨fun hb => next_congr (hrun.trans (if_pos hb)), fun hb => next_congr (hrun.trans (if_neg (by simp [hb])))⟩

end Sys2Proof.Machine

/-! # ABORT, RESUME_QUEUE, SPARE_REPORT and STATE_DUMP -/

namespace Sys2Proof.Machine
open Sys2Proof Sys2Proof.Safety

/-- Entries of one length make a list of that multiple. -/
theorem length_flatMap_const {α β : Type} (f : α → List β) (k : Nat) (l : List α) (h : ∀ x ∈ l, (f x).length = k) :
    (l.flatMap f).length = l.length * k := by
  induction l with
  | nil => simp
  | cons x l ih =>
    rw [List.flatMap_cons, List.length_append, h x List.mem_cons_self, ih fun y hy => h y (List.mem_cons_of_mem _ hy), List.length_cons,
      Nat.succ_mul, Nat.add_comm]
theorem length_spareEntries (s : State) : (spareEntries s).length = 128 := by
  have hlen : ((spareCounts s).zip (spareTotals s)).zipIdx.length = 8 := by
    simp [spareCounts, spareTotals]
  rw [spareEntries, length_flatMap_const _ 16, hlen]
  intro x _
  simp [natLE_length]

/-- Settles O56: each item by its checks in their order, and then by its effect. -/
theorem adminItemsComplete : Obligations.AdminItemsComplete := by
  unfold Obligations.AdminItemsComplete
  refine ⟨fun s id it hit => ?abort, fun s id it hit => ?resume, fun s id it hit => ?report, fun s id it hit => ?dump⟩
  case abort =>
    intro q r0 fn
    have hrun : doAbort id s = if ! gateOpen s id it then s
        else if ! fnExists s fn then failItem s id St.fnNotEnabled r0 0
        else match devQueue s fn q with
          | none => failItem s id (if it.fn = 0 then St.abortTooLate else St.accessDenied) r0 0
          | some d =>
            match itemTagged s d (it.body 34 2) with
            | none => failItem s id St.abortTooLate r0 0
            | some (t, x) =>
              if t = id ∨ abortCase s t x = .tooLate then failItem s id St.abortTooLate r0 0
              else abortTarget (toEngine s id) t x [id] := by
      simp only [doAbort, hit] <;> rfl
    refine ⟨fun hg => next_congr (hrun.trans (if_pos (by simp [hg]))), fun hg => ?_⟩
    have hrun := hrun.trans (if_neg (by simp [hg]))
    refine ⟨fun hf => next_congr (hrun.trans (if_pos (by simp [hf]))), fun hf hq => ?_, fun hf d hq => ?_⟩
    all_goals
      have hrun := hrun.trans (if_neg (by simp [hf]))
      rw [hq] at hrun
      dsimp only at hrun
    · exact next_congr hrun
    · refine ⟨fun ht => next_congr (hrun.trans ?_), fun t x ht => ?_⟩
      · rw [ht]
      · rw [ht] at hrun
        exact ⟨fun h => next_congr (hrun.trans (if_pos h)), fun h1 h2 => next_congr (hrun.trans (if_neg (by simp [h1, h2])))⟩
  case resume =>
    intro fn up
    have hrun : doResumeQueue id s = if ! fnExists s fn then failItem s id St.fnNotEnabled 0 0
        else match devQueue s fn (it.body 32 2 % 4096) with
          | none => failItem s id St.queueDisabled 0 0
          | some d =>
            if (getQ s d).st = .disabled then failItem s id St.queueDisabled 0 0
            else if ! gateOpen s id it then s
            else if (getQ s d).st = .active then commitNow s id 0 0
            else if (getQ s d).parityFrozen ∧ parLeft s fn then failItem s id St.cfgParity 1 0
            else
              let r := if bitOf (it.body 35 1) 0 then flushN 65536 s d else (0, s)
              commitNow (up r.2 d) id (1 + r.1 % 65536 * 65536) 0 := by
      simp only [doResumeQueue, hit] <;> rfl
    refine ⟨fun hf => next_congr (hrun.trans (if_pos (by simp [hf]))), fun hf hq => ?_, fun d hf hq => ?_⟩
    all_goals
      have hrun := hrun.trans (if_neg (by simp [hf]))
      rw [hq] at hrun
      dsimp only at hrun
    · exact next_congr hrun
    · refine ⟨fun hd => next_congr (hrun.trans (if_pos hd)),
        fun hd hg => next_congr (hrun.trans ((if_neg hd).trans (if_pos (by simp [hg])))), fun hg => ⟨fun ha => ?_, fun hfr hp hl => ?_, fun hfr hp => ?_⟩⟩
      · exact next_congr (hrun.trans ((if_neg (by simp [ha])).trans ((if_neg (by simp [hg])).trans (if_pos ha))))
      all_goals
        have hrun := hrun.trans ((if_neg (by simp [hfr])).trans ((if_neg (by simp [hg])).trans (if_neg (by simp [hfr]))))
      · exact next_congr (hrun.trans (if_pos ⟨hp, hl⟩))
      · have hrun := hrun.trans (if_neg fun h => by simp [hp h.1] at h)
        have hone : 1 + 0 % 65536 * 65536 = 1 := by decide
        refine ⟨fun hb => ?_, fun hb => ?_⟩
        · rw [if_neg (by simp [hb])] at hrun
          exact next_congr (hrun.trans (congrArg (commitNow (up s d) id · 0) hone))
        · rw [if_pos hb] at hrun
          exact next_congr hrun
  case report =>
    have hrun : doSpareReport id s = if it.body 32 8 % 64 ≠ 0 then failItem s id St.alignment 0 0
        else if it.body 40 4 = 0xFFFFFFFF then failItem s id St.lengthInvalid 0 0
        else if it.body 40 4 < 128 then failItem s id St.bufferTooSmall 0 0
        else itemReady (addEffects s id [.host (it.body 32 8) (spareEntries s)]) id 128 (now s) := by
      simp only [doSpareReport, hit]
    refine ⟨fun ha => next_congr (hrun.trans (if_pos ha)), fun ha hl => next_congr (hrun.trans ((if_neg (by omega)).trans (if_pos hl))),
      fun ha hl => next_congr (hrun.trans ((if_neg (by omega)).trans ((if_neg (by omega)).trans (if_pos hl)))), fun ha hl hne =>
      ⟨length_spareEntries s, next_congr (hrun.trans ((if_neg (by omega)).trans ((if_neg hne).trans (if_neg (by omega)))))⟩⟩
  case dump =>
    have hrun : doStateDump id s = let bytes := if it.body 44 2 % 1024 = 0 then [] else dumpBytes s (it.body 44 2 % 1024)
        if it.body 32 8 % 4096 ≠ 0 then failItem s id St.alignment 0 0
        else if it.body 40 4 = 0xFFFFFFFF then failItem s id St.lengthInvalid 0 0
        else if it.body 40 4 < bytes.length then failItem s id St.bufferTooSmall bytes.length 0
        else if it.body 44 2 % 1024 = 0 then itemReady (freeRes s).2 id 0 (freeRes s).1
        else itemReady (addEffects (xferAt s id it.fn 3 none false bytes.length) id [.host (it.body 32 8) bytes]) id bytes.length (now s) := by
      simp only [doStateDump, hit]
    refine ⟨fun ha => next_congr (hrun.trans (if_pos ha)), fun ha hl => next_congr (hrun.trans ((if_neg (by omega)).trans (if_pos hl))),
      fun ha hl => ⟨fun hm => ?_, fun hm => ?_⟩⟩
    all_goals have hrun := hrun.trans ((if_neg (by omega)).trans (if_neg hl))
    · rw [if_pos hm] at hrun
      exact ⟨_, next_congr (hrun.trans ((if_neg (Nat.not_lt_zero _)).trans (if_pos hm)))⟩
    · rw [if_neg hm] at hrun
      intro bytes
      exact ⟨fun hb => next_congr (hrun.trans (if_pos hb)), fun hb => next_congr (hrun.trans ((if_neg (Nat.not_lt.mpr hb)).trans (if_neg hm)))⟩

end Sys2Proof.Machine

/-! # Resets, wakes, start-up and recovery (R443, R456 to R469, R495 to R504) -/

namespace Sys2Proof.Machine
open Sys2Proof Sys2Proof.Safety

/-! ## Lockdown (R432) -/

theorem logEvent_frame (s : State) (evid fn a0 a1 a2 : Nat) : (logEvent s evid fn a0 a1 a2).sec = s.sec
    ∧ (logEvent s evid fn a0 a1 a2).pwr.por = s.pwr.por ∧ (logEvent s evid fn a0 a1 a2).ras = s.ras
    ∧ modeOf (logEvent s evid fn a0 a1 a2) = modeOf s := by
  unfold logEvent modeOf
  split <;> exact ⟨rfl, rfl, rfl, rfl⟩
theorem sec_setMode (s : State) {m : Nat} (hm : m ≠ Mode.idle) : (setMode s m).sec = s.sec := by
  have hwake : (if modeOf s = Mode.idle then wakeDram s else s).sec = s.sec := by split <;> rfl
  by_cases hne : modeOf s = m
  · simp only [setMode, if_pos hne]
  · simp only [setMode, if_neg hne, hm, false_and, if_false]
    split
    · exact hwake
    · exact (logEvent_frame _ _ _ _ _ _).1.trans hwake
/-- The state that enters Lockdown: the keys, the engines and the ports are off, and the cause is recorded. -/
def lockdownReady (s : State) (cause : Nat) : State :=
  let a : State := enginesOff { s with ciph := { wrapGone := true } }
  let a := regSetFld (regSetFld a Reg.ING_PORT0_CTL 0 31 31 0) Reg.ING_PORT1_CTL 0 31 31 0
  let a := regSetFld (regSetFld a Reg.BRY_PORT0_CTL 0 31 31 0) Reg.BRY_PORT1_CTL 0 31 31 0
  { a with sec := { a.sec with cause := cause, reqs := a.sec.reqs.filter (fun r => decide (r.src ≤ 1)) },
           pwr := { a.pwr with drivesOut := false, req := none, reqWait := none, drainIngest := false, linkRdy := true, clusters := [] } }
theorem lockdownReady_spec (s : State) (cause : Nat) : (lockdownReady s cause).sec.cause = cause
    ∧ (lockdownReady s cause).pwr.por = s.pwr.por ∧ modeOf (lockdownReady s cause) = modeOf s := by
  have hpor : (lockdownReady s cause).pwr.por = s.pwr.por := rfl
  have hmode : (lockdownReady s cause).pwr.mode = s.pwr.mode := rfl
  exact ⟨rfl, hpor, by rw [modeOf, hpor, hmode, modeOf]⟩
/-- The state that enters Lockdown, with its event logged. -/
def lockdownLogged (s : State) (cause : Nat) : State := logEvent (lockdownReady s cause) Ev.lockdown 0xFF cause 0 0
theorem lockdownLogged_spec (s : State) (cause : Nat) : (lockdownLogged s cause).sec.cause = cause
    ∧ (lockdownLogged s cause).pwr.por = s.pwr.por ∧ modeOf (lockdownLogged s cause) = modeOf s := by
  obtain ⟨hcause, hpor, hmode⟩ := lockdownReady_spec s cause
  obtain ⟨hsec, hpor', -, hmode'⟩ := logEvent_frame (lockdownReady s cause) Ev.lockdown 0xFF cause 0 0
  exact ⟨(congrArg (·.cause) hsec).trans hcause, hpor'.trans hpor, hmode'.trans hmode⟩
theorem lockdown_eq {s : State} (hoff : modeOf s ≠ Mode.off) (hl : modeOf s ≠ Mode.lockdown) (cause : Nat) :
    ∃ o, lockdown s cause = { setMode (lockdownLogged s cause) Mode.lockdown with out := o } :=
  ⟨_, if_neg (not_or.mpr ⟨hoff, hl⟩)⟩
theorem boot_eq (s : State) (w : Bool) (faults : Nat) (sens : List Int) : boot s w faults sens
    = if modeOf (bootVerify s faults) = Mode.provision then startFrame (bootVerify s faults) w sens else bootVerify s faults := rfl
theorem withOut_frame (t : State) (o : Outputs) : modeOf { t with out := o } = modeOf t ∧ ({ t with out := o } : State).sec = t.sec := ⟨rfl, rfl⟩
/-- Lockdown is entered from a mode that is neither Off nor Lockdown, with its cause. -/
theorem lockdown_spec {s : State} (hoff : modeOf s ≠ Mode.off) (hl : modeOf s ≠ Mode.lockdown) (cause : Nat) :
    modeOf (lockdown s cause) = Mode.lockdown ∧ (lockdown s cause).sec.cause = cause := by
  have hpor : s.pwr.por = false := by
    cases h : s.pwr.por
    · rfl
    · exact absurd (by rw [modeOf, h]; rfl) hoff
  obtain ⟨hcause, hpor', hmode⟩ := lockdownLogged_spec s cause
  obtain ⟨o, ho⟩ := lockdown_eq hoff hl cause
  obtain ⟨hout, hsec⟩ := withOut_frame (setMode (lockdownLogged s cause) Mode.lockdown) o
  rw [ho, hout, hsec, sec_setMode _ (by decide), hcause]
  exact ⟨(setMode_spec (by decide) (by rw [hmode]; exact hl) (hpor'.trans hpor)).1, rfl⟩

/-- Settles O52: POR_L, PERST# and the wakes by their pins and enables, the last start-up steps by what they wait for. -/
theorem resetsWakesAndStartUp : Obligations.ResetsWakesAndStartUp := by
  unfold Obligations.ResetsWakesAndStartUp
  refine ⟨⟨fun s => ?assert, fun s bad faults sens => ?release, fun s faults sens hm => ?wakes, fun s => ?perst⟩, fun s hm => ?start⟩
  case assert => exact ⟨_, rfl, rfl, rfl, rfl, rfl, rfl, rfl, rfl, rfl, rfl, rfl, rfl, rfl, rfl, rfl, rfl⟩
  case release =>
    refine ⟨fun h => next_congr (if_pos (by simp [h])), fun h => ?_⟩
    intro u
    have hrun : doPorRelease bad faults sens s = if bad then lockdown u 5 else boot u false faults sens := if_neg (by simp [h])
    refine ⟨fun hb => ⟨next_congr (hrun.trans (if_pos hb)), lockdown_spec ?_ ?_ 5⟩,
      fun hb hp => next_congr ((hrun.trans (if_neg (by simp [hb]))).trans ((boot_eq _ _ _ _).trans (if_pos hp))),
      fun hb hp => next_congr ((hrun.trans (if_neg (by simp [hb]))).trans ((boot_eq _ _ _ _).trans (if_neg hp)))⟩
    all_goals
      have hboot : modeOf u = Mode.boot := (logEvent_frame _ _ _ _ _ _).2.2.2.trans rfl
      rw [hboot]
      decide
  case wakes =>
    intro up
    have hup {u : State} {src : Nat} (hu : modeOf u = Mode.retain) (hen : bitOf u.pwr.wakeEn src = true) : wake u src faults sens = up u src :=
      if_pos ⟨hu, hen⟩
    have hstay {u : State} {src : Nat} (hen : bitOf u.pwr.wakeEn src = false) : wake u src faults sens = u := if_neg (by simp [hen])
    refine ⟨fun he => next_congr (hup hm he), fun he => next_congr (hstay he),
      fun he h0 hl => next_congr ((if_pos ⟨h0, hl⟩).trans (hup hm he)), fun h => ?_, ?_, fun hp => ?_⟩
    · refine next_congr ?_
      by_cases hl : s.pwr.wakeAt ≠ 0 ∧ s.pwr.wakeAt ≤ s.pwr.devtime
      · refine (if_pos hl).trans (hstay (h.resolve_right ?_))
        omega
      · exact if_neg hl
    · intro u
      exact ⟨fun he => next_congr ((if_pos hm).trans (hup (u := u) hm he)), fun he => next_congr ((if_pos hm).trans (hstay (u := u) he))⟩
    · intro u
      exact ⟨fun he => next_congr ((if_neg (by simp [hp])).trans (hup (u := u) hm he)),
        fun he => next_congr ((if_neg (by simp [hp])).trans (hstay (u := u) he))⟩
  case perst =>
    refine ⟨fun hp hm faults sens => next_congr ((if_neg (by simp [hp])).trans (if_neg fun h => hm h.1)), fun hp => ?_⟩
    intro u
    refine ⟨fun h1 h2 h3 => next_congr ((if_neg (by simp [hp])).trans (if_neg ?_)), fun h => next_congr ((if_neg (by simp [hp])).trans (if_pos h))⟩
    exact fun h => h.elim h1 fun h => h.elim h2 h3
  case start =>
    refine ⟨fun h5 found => ?_, fun h6 => ?_, fun h6 => next_congr (if_pos (.inr h6))⟩
    · have hawait : awaitDrives s = true := by simp [awaitDrives, hm, h5]
      exact ⟨fun h => next_congr (if_pos ⟨hawait, h⟩), fun h => next_congr (if_pos ⟨hawait, h⟩)⟩
    · intro u t
      have hrun : doDramFillDone s = if ledgerOp t then setMode { t with pwr := { t.pwr with maintAuto := true } } Mode.maintain
          else schedule (setMode t Mode.idle) := by
        unfold doDramFillDone
        rw [if_neg (by simp [hm, h6])]
      exact ⟨fun h => next_congr (hrun.trans (if_pos h)), fun h => next_congr (hrun.trans (if_neg (by simp [h])))⟩

/-! ## Detected errors (R456 to R469) -/

theorem logTile_congr {s t : State} (h : t.ras.lmap = s.ras.lmap) (p : Nat) : logTile t p = logTile s p := by
  simp only [logTile, physTile, tileAbsent, Ras.lmapOf, h]
/-- What follows when a redundancy row has come in. -/
def rowRepaired (u : State) (cls unit form : Nat) : State :=
  if cls = 1 ∧ form = 3 then
    (if unit ≥ 144 then holdEntry u 6
     else match logTile u unit with
      | some l => if mayRecover u then enterRecover u unit l 6 true else schedule (tileStart (takeBack u l) unit)
      | none => u)
  else if cls = 3 ∧ form = 3 then badLine u (unit / 16384) (unit / 1024 % 16) (unit % 1024)
  else u
/-- Settles O53: a detected error by its form and class, the end of Recover and of a self-test by the tile. -/
theorem detectedErrorsRecover : Obligations.DetectedErrorsRecover := by
  unfold Obligations.DetectedErrorsRecover
  refine ⟨fun s cls unit hoff hret hlock hon => ?error, fun s r hr hm => ?recover, fun s p hp => ?bist⟩
  case error =>
    intro v told u
    have hcounted (form : Nat) : (told form).ras.sramFree = s.ras.sramFree := by
      simp only [told, v]
      split
      · rfl
      · split <;> rfl
    have hform {form : Nat} (h1 : 1 ≤ form) (h3 : form ≤ 3) : doDetectedError cls unit form s
        = if modeOf s = Mode.recover ∧ cls ≠ 9 then holdEntry (told form) 5
          else if form = 1 ∨ (told form).ras.sramFree = 0 ∨ ! inArray cls then unitFault (told form) cls unit
          else rowRepaired (useRow (told form) cls unit) cls unit form := by
      have hgo : ¬ (modeOf s = Mode.off ∨ modeOf s = Mode.retain ∨ modeOf s = Mode.lockdown ∨ form > 3 ∨ (! unitOn s cls unit) = true) := by
        simp [hoff, hret, hlock, hon]
        omega
      exact (if_neg hgo).trans (if_neg (Nat.one_le_iff_ne_zero.mp h1))
    have htold {form : Nat} (h : form ≠ 1) : told form = rasCount v cls true := if_neg fun hc => h hc.2
    have hv : v.ras = s.ras ∧ modeOf v = modeOf s ∧ v.sched = s.sched := by
      simp only [v]
      split <;> exact ⟨rfl, rfl, rfl⟩
    obtain ⟨hvras, hvmode, hvsched⟩ := hv
    have hrow (hm : modeOf s ≠ Mode.recover) (ha : inArray cls = true) (hfree : 0 < s.ras.sramFree) {form : Nat} (h2 : 2 ≤ form) (h3 : form ≤ 3) :
        doDetectedError cls unit form s = rowRepaired u cls unit form := by
      refine (hform (by omega) h3).trans ((if_neg fun h => hm h.1).trans ((if_neg ?_).trans ?_))
      · rw [hcounted, ha]
        simp
        omega
      · rw [htold (by omega)]
    have hu : u.ras.lmap = s.ras.lmap ∧ modeOf u = modeOf s := by
      obtain ⟨-, -, hras, hmode⟩ := logEvent_frame { rasCount v cls true with
        ras := { (rasCount v cls true).ras with sramFree := (rasCount v cls true).ras.sramFree - 1 } } Ev.spareIn 0xFF 6 (cls * 2 ^ 32 + unit)
        (24576 - (rasCount v cls true).ras.sramFree)
      exact ⟨(congrArg (·.lmap) hras).trans (congrArg (·.lmap) hvras), hmode.trans hvmode⟩
    refine ⟨⟨next_congr ?_, ?_, hvmode, hvsched⟩, fun hm hc form h1 h3 => next_congr ((hform h1 h3).trans (if_pos ⟨hm, hc⟩)),
      fun hm form h1 h3 h => next_congr ((hform h1 h3).trans ((if_neg ?_).trans (if_pos ?_))), fun hm hc hunit m hlog => ?tile,
      fun hm ha hfree => ⟨?_, fun hc => ?_, fun hc hunit => ?_, fun hc hunit m hlog => ?_⟩⟩
    · have hgo : ¬ (modeOf s = Mode.off ∨ modeOf s = Mode.retain ∨ modeOf s = Mode.lockdown ∨ 0 > 3 ∨ (! unitOn s cls unit) = true) := by
        simp [hoff, hret, hlock, hon]
      exact (if_neg hgo).trans (if_pos rfl)
    · rw [← hvras]
      exact tgetD_tset_self _ _ _ _
    · exact fun h => hm.elim (fun hm => hm h.1) (fun hc => h.2 hc)
    · rw [hcounted]
      exact h.imp_right fun h => h.imp_right fun h => by simp [h]
    case tile =>
      intro w
      have hw : told 1 = w := by
        have h5 : ¬ (cls = 5 ∧ 1 = 1) := by omega
        have h3 : ¬ cls = 3 := by omega
        simp only [told, v, if_neg h5, if_neg h3, w]
      have hrun : exec (.detectedError cls unit 1) s = .next (tileFault w unit) := by
        refine next_congr ((hform (by omega) (by omega)).trans ((if_neg fun h => hm h.1).trans ((if_pos (.inl rfl)).trans ?_)))
        rw [hw, unitFault, if_pos hc, if_pos hunit]
      have hlog' : logTile w unit = some m := hlog
      have htile : tileFault w unit = if ! spareFreeIn w (unit / 9) then tileGone w unit m
          else if mayRecover w then enterRecover w unit m 1 false
          else remapTile (takeBack w m) unit m := by
        have hm' : ¬ modeOf w = Mode.recover := hm
        simp only [tileFault, if_neg hm', hlog']
      refine ⟨fun hs hr => hrun.trans (next_congr (htile.trans ((if_neg ?_).trans (if_pos hr)))),
        fun hs hr => hrun.trans (next_congr (htile.trans ((if_neg ?_).trans (if_neg ?_)))), fun hs => hrun.trans (next_congr (htile.trans (if_pos ?_)))⟩
      · exact fun h => by simp [show spareFreeIn w (unit / 9) = true from hs] at h
      · exact fun h => by simp [show spareFreeIn w (unit / 9) = true from hs] at h
      · exact fun h => by simp [show mayRecover w = false from hr] at h
      · rw [show spareFreeIn w (unit / 9) = false from hs]
        rfl
    · refine next_congr ((hrow hm ha hfree (by omega) (by omega)).trans ?_)
      rw [rowRepaired, if_neg (by omega), if_neg (by omega)]
    · refine next_congr ((hrow hm ha hfree (by omega) (by omega)).trans ?_)
      rw [rowRepaired, if_neg (by omega)]
      simp only [and_true]
    · refine next_congr ((hrow hm ha hfree (by omega) (by omega)).trans ?_)
      rw [rowRepaired, if_pos ⟨hc, rfl⟩, if_pos hunit]
    · refine next_congr ((hrow hm ha hfree (by omega) (by omega)).trans ?_)
      have hlog' : logTile u unit = some m := by
        rw [logTile_congr hu.1]
        exact hlog
      have hmay : mayRecover u = mayRecover s := by rw [mayRecover, hu.2, mayRecover]
      rw [rowRepaired, if_pos ⟨hc, rfl⟩, if_neg (by omega)]
      simp only [hlog', hmay]
  case recover =>
    refine ⟨fun hf hk => ?_, fun hd => ?_, fun hd => ?_⟩
    · have hrun : doSpareTileRemap s = remapTile { s with ras := { s.ras with rcv := some { r with fenced := false } } } r.phys r.logical := by
        simp [doSpareTileRemap, hr, hf, hm, hk]
      exact next_congr hrun
    · intro us u
      have hrun : doRecoverEnd s = judgeWaiting (schedule (logEvent (setMode u u.pwr.recoverFrom) Ev.recovery 0xFF r.kind us r.logical)) := by
        simp only [doRecoverEnd, hr, hm, hd, ne_eq, not_true_eq_false, Bool.not_true, Bool.false_eq_true, or_self, if_false] <;> rfl
      exact next_congr hrun
    · have hrun : doRecoverEnd s = s := by simp [doRecoverEnd, hr, hd]
      exact next_congr hrun
  case bist =>
    intro u done
    have hgo : ¬ (! s.ras.bist.contains p) = true := by rw [hp]; decide
    exact ⟨next_congr (if_neg hgo), next_congr (if_neg hgo)⟩

end Sys2Proof.Machine

/-! # Thermal samples and power estimates (R446 to R450) -/

namespace Sys2Proof.Machine
open Sys2Proof Sys2Proof.Safety

/-! ## Writes of a list of clusters -/

/-- Each cluster of `l` takes the value that `g` makes of its number and its present value. -/
def overClusters (g : Nat → Cluster → Cluster) (l : List Nat) (s : State) : State :=
  l.foldl (fun s c => setCluster s c (g c (getCluster s c))) s

theorem overClusters_frame (g : Nat → Cluster → Cluster) (l : List Nat) (s : State) :
    ∃ cs, overClusters g l s = { s with pwr := { s.pwr with clusters := cs } } := by
  induction l generalizing s with
  | nil => exact ⟨s.pwr.clusters, rfl⟩
  | cons c l ih =>
    obtain ⟨cs, hcs⟩ := ih (setCluster s c (g c (getCluster s c)))
    exact ⟨cs, hcs⟩

theorem getCluster_overClusters (g : Nat → Cluster → Cluster) {l : List Nat} (hl : l.Nodup) (s : State) (d : Nat) :
    getCluster (overClusters g l s) d = if d ∈ l then g d (getCluster s d) else getCluster s d := by
  induction l generalizing s with
  | nil => rfl
  | cons c l ih =>
    obtain ⟨hc, hl⟩ := List.nodup_cons.mp hl
    have hfirst : overClusters g (c :: l) s = overClusters g l (setCluster s c (g c (getCluster s c))) := rfl
    rw [hfirst, ih hl]
    by_cases hd : d = c
    · subst hd
      simp [hc]
    · rw [getCluster_setCluster_ne _ _ _ _ hd]
      simp [hd]

/-! ## The loss of the clusters' power -/

theorem getCluster_congr {s t : State} (h : s.pwr = t.pwr) (c : Nat) : getCluster s c = getCluster t c := by
  rw [getCluster, getCluster, h]

theorem getCluster_gateCluster (s : State) (c d : Nat) : getCluster (gateCluster s c) d
    = if d = c then { getCluster s c with st := .gated, wakeEnd := 0, freeSince := none } else getCluster s d := by
  have hpwr : (gateCluster s c).pwr = (setCluster s c { getCluster s c with st := .gated, wakeEnd := 0, freeSince := none }).pwr := by
    rw [gateCluster, pwr_foldl_coreOff]
    rfl
  rw [getCluster_congr hpwr]
  by_cases hd : d = c
  · rw [if_pos hd, hd, getCluster_setCluster_self]
  · rw [getCluster_setCluster_ne _ _ _ _ hd, if_neg hd]

theorem gated_foldl_gateCluster (l : List Nat) {s : State} {d : Nat} (h : d ∈ l ∨ (getCluster s d).st = .gated) :
    (getCluster (l.foldl gateCluster s) d).st = .gated := by
  induction l generalizing s with
  | nil => exact h.resolve_left List.not_mem_nil
  | cons c l ih =>
    rw [List.foldl_cons]
    refine ih ?_
    by_cases hd : d = c
    · right
      rw [getCluster_gateCluster, if_pos hd]
    · rw [getCluster_gateCluster, if_neg hd]
      exact h.imp_left (fun hm => (List.mem_cons.mp hm).resolve_left hd)

theorem gated_gateAll (s : State) {c : Nat} (hc : c < 16) : (getCluster (gateAll s) c).st = .gated :=
  gated_foldl_gateCluster _ (.inl (List.mem_range.mpr hc))

/-- A trip marks itself and gates every cluster. -/
theorem thermalTrip_spec (s : State) (k : Nat) (t : Int) :
    (thermalTrip s k t).pwr.therm = true ∧ ∀ c < 16, (getCluster (thermalTrip s k t) c).st = .gated :=
  ⟨(Keeps.gateAll (.holdEntry .refl)).therm, fun _ hc => gated_gateAll _ hc⟩

/-! ## What a sample leaves besides the readings -/

theorem foldl_frame {f : State → Nat → State} (hf : ∀ u x, (f u x).pwr = u.pwr ∧ (f u x).dram = u.dram) (l : List Nat) (s : State) :
    (l.foldl f s).pwr = s.pwr ∧ (l.foldl f s).dram = s.dram := by
  induction l generalizing s with
  | nil => exact ⟨rfl, rfl⟩
  | cons x l ih =>
    rw [List.foldl_cons]
    exact ⟨(ih _).1.trans (hf s x).1, (ih _).2.trans (hf s x).2⟩

theorem shadowSet_frame (s : State) (ch : Nat) (t : Int) : (shadowSet s ch t).pwr = s.pwr ∧ (shadowSet s ch t).dram = s.dram := by
  unfold shadowSet
  extract_lets b s1 s2
  have h2 : s2.pwr = s1.pwr ∧ s2.dram = s1.dram := by
    clear_value s1 b
    refine foldl_frame (fun u sc => ?_) _ _
    refine foldl_frame (fun v p => ?_) _ _
    generalize mergeFields _ _ _ = x
    exact ⟨rfl, rfl⟩
  clear_value s2
  exact h2

theorem shadowApply_frame (s : State) (ch : Nat) : (shadowApply s ch).pwr = s.pwr ∧ (shadowApply s ch).dram = s.dram := by
  unfold shadowApply
  split
  · exact ⟨rfl, rfl⟩
  · exact ⟨rfl, rfl⟩

theorem retuneStop_frame (s : State) (m : Nat) (t : Int) : (retuneStop s m t).pwr = s.pwr ∧ (retuneStop s m t).dram = s.dram := by
  unfold retuneStop
  refine foldl_frame (fun u c => ?_) _ _
  dsimp only
  split
  · split
    · exact ⟨(shadowApply_frame _ _).1.trans (shadowSet_frame _ _ _).1, (shadowApply_frame _ _).2.trans (shadowSet_frame _ _ _).2⟩
    · exact ⟨rfl, rfl⟩
  · exact ⟨rfl, rfl⟩

/-! ## A sample -/

/-- The readings of a sample, by the number of their sensor. -/
def readings (temps : List Int) : Tab Int := temps.zipIdx.map (fun p => (p.2, p.1))

theorem lookup_zipIdx (l : List Int) (n k : Nat) : List.lookup (n + k) ((l.zipIdx n).map (fun p => (p.2, p.1))) = l[k]? := by
  induction l generalizing n k with
  | nil => rfl
  | cons x l ih =>
    rw [List.zipIdx_cons, List.map_cons]
    cases k with
    | zero => simp
    | succ k =>
      have hne : (n + (k + 1) == n) = false := by simp
      rw [List.lookup_cons, hne, List.getElem?_cons_succ, ← ih (n + 1) k, Nat.add_assoc, Nat.add_comm 1 k]
theorem tget_readings (temps : List Int) (k : Nat) : tget (readings temps) k = temps[k]? := by
  simpa [tget, readings] using lookup_zipIdx temps 0 k

theorem mem_hotSensors (s : State) (temps : List Int) (k : Nat) :
    k ∈ hotSensors s (readings temps) ↔ ∃ t, temps[k]? = some t ∧ tripTemp s ≤ t := by
  simp only [hotSensors, readings, List.mem_map, List.mem_filter, decide_eq_true_eq]
  constructor
  · rintro ⟨_, ⟨⟨⟨t, j⟩, hp, rfl⟩, ht⟩, rfl⟩
    exact ⟨t, List.mk_mem_zipIdx_iff_getElem?.mp hp, ht⟩
  · rintro ⟨t, hk, ht⟩
    exact ⟨(k, t), ⟨⟨(t, k), List.mk_mem_zipIdx_iff_getElem?.mpr hk, rfl⟩, ht⟩, rfl⟩

/-- A sample's step of each cluster. -/
def stepCluster (temps : List Int) (c : Nat) (cl : Cluster) : Cluster :=
  { cl with step := nextStep stepAt cl.step (tgetD (readings temps) c 0) }
/-- The state of a sample before it looks for a trip: the readings, the steps of the clusters and of the CAM, and the delays of the memory
stops. -/
def sampled (temps : List Int) (s : State) : State :=
  let u := { s with pwr := { s.pwr with temps := readings temps, hot := hotSensors s (readings temps) } }
  let s := overClusters (stepCluster temps) (List.range 16) u
  let s := regSetFld s Reg.CAM_STAT 0 19 18 (nextStep camStepAt (rfld s Reg.CAM_STAT 0 19 18) (tgetD (readings temps) 48 0))
  if s.pwr.startStep ≥ 5 ∧ s.pwr.mode ≠ Mode.lockdown then
    (List.range 16).foldl (fun s m => retuneStop s m (tgetD (readings temps) (16 + m) 0)) s
  else s

theorem sampled_frame (temps : List Int) (s : State) : ∃ cs,
    (sampled temps s).pwr = { s.pwr with temps := readings temps, hot := hotSensors s (readings temps), clusters := cs }
      ∧ (sampled temps s).dram = s.dram
      ∧ ∀ c < 16, (cs.lookup c).getD {} = stepCluster temps c (getCluster s c) := by
  unfold sampled
  extract_lets _ u s1 s2
  obtain ⟨cs, hcs⟩ := overClusters_frame (stepCluster temps) (List.range 16) u
  have hstep (c : Nat) (hc : c < 16) : getCluster s1 c = stepCluster temps c (getCluster s c) :=
    (getCluster_overClusters _ List.nodup_range _ c).trans (if_pos (List.mem_range.mpr hc))
  have hs1 : s1 = _ := hcs
  rw [hs1] at hstep
  have hpwr : s2.pwr = s1.pwr := rfl
  have hdram : s2.dram = s1.dram := rfl
  rw [hs1] at hpwr hdram
  refine ⟨cs, ?_⟩
  suffices h : ∀ u : State, u.pwr = s2.pwr ∧ u.dram = s2.dram →
      u.pwr = { s.pwr with temps := readings temps, hot := hotSensors s (readings temps), clusters := cs } ∧ u.dram = s.dram
        ∧ ∀ c < 16, (cs.lookup c).getD {} = stepCluster temps c (getCluster s c) by
    refine h _ ?_
    split
    · exact foldl_frame (fun _ _ => retuneStop_frame _ _ _) _ _
    · exact ⟨rfl, rfl⟩
  exact fun u hu => ⟨hu.1.trans hpwr, hu.2.trans hdram, hstep⟩

/-- What a sample does on a device that runs and has no trip standing: a sensor that is hot a second time trips. -/
theorem doThermalSample_eq {s : State} {temps : List Int} (hpor : s.pwr.por = false) (hret : s.pwr.mode ≠ Mode.retain)
    (hlen : temps.length = 64) (hth : s.pwr.therm = false) :
    doThermalSample temps s = (match (hotSensors s (readings temps)).filter s.pwr.hot.contains with
      | [] => sampled temps s
      | k :: _ => thermalTrip (sampled temps s) k (tgetD (readings temps) k 0)) := by
  have hth' : (sampled temps s).pwr.therm = false := by
    obtain ⟨cs, hpwr, -⟩ := sampled_frame temps s
    rw [hpwr, hth]
  have hgo : ¬ (s.pwr.por = true ∨ s.pwr.mode = Mode.retain ∨ temps.length ≠ 64) := by simp [hpor, hret, hlen]
  unfold doThermalSample
  rw [if_neg hgo]
  extract_lets t hot twice _ s1 s2 s3 s4 _ s5
  have h4 : s4 = sampled temps s := rfl
  have h5 : s5 = s4 := if_neg (by rw [h4, hth']; exact Bool.false_ne_true)
  rw [h4] at h5
  have htwice : twice = (hotSensors s (readings temps)).filter s.pwr.hot.contains := rfl
  clear_value s5 twice
  subst h5 htwice
  generalize (hotSensors s (readings temps)).filter s.pwr.hot.contains = hits
  cases hits with
  | nil => rfl
  | cons k hits => exact if_neg (by rw [hth']; exact Bool.false_ne_true)

/-! ## The power limit -/

theorem holdsStanding_congr {s t : State} (h : t.plans = s.plans) (c : Nat) : holdsStanding t c = holdsStanding s c := by
  rw [holdsStanding, holdsStanding, standingTiles, standingTiles, h]
theorem warmFor_power (s : State) (p : Power) (lc : Nat) (l : List Nat) : warmFor { s with pwr := p } lc l = warmFor s lc l := by
  induction l with
  | nil => rfl
  | cons c l ih =>
    have htiles : classTiles { s with pwr := p } lc c = classTiles s lc c := rfl
    have hbusy : tileBusy { s with pwr := p } = tileBusy s := rfl
    simp only [warmFor, htiles, hbusy, ih]
theorem clProtected_power (s : State) (p : Power) (c : Nat) : clProtected { s with pwr := p } c = clProtected s c := by
  rw [clProtected, warmFor_power]
  rfl

/-- The state of an estimate before the ceilings move: its readings. -/
def estimated (total : Nat) (perCl : List Nat) (s : State) : State :=
  { s with pwr := { s.pwr with mwTotal := total % 2 ^ 32, clusterMw := (perCl.take 16).zipIdx.map (fun p => (p.2, p.1 % 2 ^ 20)) } }

section
variable (total : Nat) (perCl : List Nat) (s : State)

theorem limitable_estimated : limitable (estimated total perCl s) = limitable s := by
  unfold limitable estimated
  simp only [clProtected_power]
  rfl
theorem lowerSet_estimated : lowerSet (estimated total perCl s) = lowerSet s := by
  rw [lowerSet, limitable_estimated]
  rfl
theorem raiseSet_estimated : raiseSet (estimated total perCl s) = raiseSet s := by
  rw [raiseSet, limitable_estimated]
  rfl

end

theorem nodup_limitable (s : State) : (limitable s).Nodup := List.nodup_range.filter _
theorem lowerSet_sublist (s : State) : (lowerSet s).Sublist (limitable s) := by
  unfold lowerSet
  dsimp only
  split
  · exact List.filter_sublist
  · exact List.Sublist.refl _
theorem raiseSet_sublist (s : State) : (raiseSet s).Sublist (limitable s) := by
  unfold raiseSet
  dsimp only
  split
  · exact List.filter_sublist
  · exact List.Sublist.refl _

/-- The ceiling under the limit one step lower, and one step higher. -/
def lowered (cl : Cluster) : Cluster := { cl with limitMhz := max 400 (min cl.limitMhz (stepMhz cl.step false) - 200) }
def raised (cl : Cluster) : Cluster := { cl with limitMhz := min 2000 (min cl.limitMhz (stepMhz cl.step false) + 200) }

/-- The state of an estimate with its ceilings moved. -/
def relimited (total : Nat) (perCl : List Nat) (s : State) : State :=
  let u := estimated total perCl s
  if 1000 * rfld s Reg.PWR_LIMIT 0 8 0 < total then overClusters (fun _ => lowered) (lowerSet u) u
  else if 100 * total ≤ 95 * (1000 * rfld s Reg.PWR_LIMIT 0 8 0) then overClusters (fun _ => raised) (raiseSet u) u
  else u

theorem getCluster_relimited_lower {total : Nat} {perCl : List Nat} {s : State} (h : 1000 * rfld s Reg.PWR_LIMIT 0 8 0 < total) (c : Nat) :
    getCluster (relimited total perCl s) c = if c ∈ lowerSet s then lowered (getCluster s c) else getCluster s c := by
  rw [relimited, if_pos h, lowerSet_estimated, getCluster_overClusters _ ((lowerSet_sublist s).nodup (nodup_limitable s))]
  rfl
theorem getCluster_relimited_raise {total : Nat} {perCl : List Nat} {s : State}
    (h : 100 * total ≤ 95 * (1000 * rfld s Reg.PWR_LIMIT 0 8 0)) (c : Nat) :
    getCluster (relimited total perCl s) c = if c ∈ raiseSet s then raised (getCluster s c) else getCluster s c := by
  rw [relimited, if_neg (by omega), if_pos h, raiseSet_estimated,
    getCluster_overClusters _ ((raiseSet_sublist s).nodup (nodup_limitable s))]
  rfl
theorem getCluster_relimited_apart {total : Nat} {perCl : List Nat} {s : State} {c : Nat} (hc : c ∉ limitable s) :
    getCluster (relimited total perCl s) c = getCluster s c := by
  by_cases hlow : 1000 * rfld s Reg.PWR_LIMIT 0 8 0 < total
  · exact (getCluster_relimited_lower hlow c).trans (if_neg (fun hm => hc ((lowerSet_sublist s).subset hm)))
  · by_cases hraise : 100 * total ≤ 95 * (1000 * rfld s Reg.PWR_LIMIT 0 8 0)
    · exact (getCluster_relimited_raise hraise c).trans (if_neg (fun hm => hc ((raiseSet_sublist s).subset hm)))
    · rw [relimited, if_neg hlow, if_neg hraise]
      rfl
theorem relimited_frame (total : Nat) (perCl : List Nat) (s : State) : (relimited total perCl s).pwr.mwTotal = total % 2 ^ 32
    ∧ (relimited total perCl s).qm = s.qm ∧ (relimited total perCl s).dram = s.dram := by
  unfold relimited
  extract_lets u
  have hover (g : Nat → Cluster → Cluster) (l : List Nat) : (overClusters g l u).pwr.mwTotal = total % 2 ^ 32
      ∧ (overClusters g l u).qm = s.qm ∧ (overClusters g l u).dram = s.dram := by
    obtain ⟨cs, hcs⟩ := overClusters_frame g l u
    rw [hcs]
    exact ⟨rfl, rfl, rfl⟩
  split
  · exact hover _ _
  · split
    · exact hover _ _
    · exact ⟨rfl, rfl, rfl⟩

/-- Does the limit hold any cluster down? -/
def setLimiting (s : State) (b : Bool) : State := { s with pwr := { s.pwr with limiting := b } }
@[simp] theorem getCluster_setLimiting (s : State) (b : Bool) (c : Nat) : getCluster (setLimiting s b) c = getCluster s c := rfl
@[simp] theorem setLimiting_mwTotal (s : State) (b : Bool) : (setLimiting s b).pwr.mwTotal = s.pwr.mwTotal := rfl

theorem doPowerEstimate_eq {s : State} (hpor : s.pwr.por = false) (hret : s.pwr.mode ≠ Mode.retain) (total : Nat)
    (perCl : List Nat) :
    ∃ b, doPowerEstimate total perCl s = setLimiting (relimited total perCl s) b := by
  have hgo : ¬ (s.pwr.por = true ∨ s.pwr.mode = Mode.retain) := by simp [hpor, hret]
  unfold doPowerEstimate
  rw [if_neg hgo]
  extract_lets lim _ u v
  have hv : v = relimited total perCl s := rfl
  rw [← hv]
  exact ⟨_, rfl⟩

/-- Settles O50: the readings and the steps are those of the sample, a sensor that is hot a second time trips, and the ceilings that an
estimate moves are those of the clusters the limit may move. -/
theorem samplesDriveTheLoops : Obligations.SamplesDriveTheLoops := by
  unfold Obligations.SamplesDriveTheLoops
  intro s hpor hret
  refine ⟨?sample, ?trip, ?estimate⟩
  case sample =>
    intro temps hlen hcool hth
    obtain ⟨cs, hpwr, hdram, hstep⟩ := sampled_frame temps s
    have htwice : (hotSensors s (readings temps)).filter s.pwr.hot.contains = [] := by
      refine List.filter_eq_nil_iff.mpr (fun k hk hs => ?_)
      obtain ⟨t, hget, ht⟩ := (mem_hotSensors s temps k).mp hk
      exact absurd (hcool k (List.contains_iff_mem.mp hs) t hget) (Int.not_lt.mpr ht)
    have hcl (c : Nat) (hc : c < 16) : getCluster (sampled temps s) c = stepCluster temps c (getCluster s c) := by
      rw [getCluster, hpwr]
      exact hstep c hc
    refine ⟨sampled temps s, next_congr ?_, fun k _ => ?_, fun c hc => ?_, fun k => ?_, ?_, ?_, hdram⟩
    · rw [doThermalSample_eq hpor hret hlen hth, htwice]
    · rw [hpwr]
      exact tget_readings temps k
    · rw [hcl c hc, ← tget_readings temps c]
      exact ⟨rfl, rfl⟩
    · rw [hpwr]
      exact mem_hotSensors s temps k
    · rw [hpwr]
      exact hth
    · rw [modeOf, hpwr]
      rfl
  case trip =>
    intro temps k t hlen hk hget ht hth
    refine ⟨_, rfl, ?_⟩
    rw [doThermalSample_eq hpor hret hlen hth]
    have hmem : k ∈ (hotSensors s (readings temps)).filter s.pwr.hot.contains :=
      List.mem_filter.mpr ⟨(mem_hotSensors s temps k).mpr ⟨t, hget, ht⟩, List.contains_iff_mem.mpr hk⟩
    cases hhits : (hotSensors s (readings temps)).filter s.pwr.hot.contains with
    | nil => rw [hhits] at hmem; cases hmem
    | cons j hits => exact thermalTrip_spec _ _ _
  case estimate =>
    intro total perCl
    obtain ⟨b, hu⟩ := doPowerEstimate_eq hpor hret total perCl
    obtain ⟨hmw, hqm, hdram⟩ := relimited_frame total perCl s
    refine ⟨_, next_congr hu, ?_, fun hlow c hc => ?_, fun hraise c hc => ?_, fun c hc => ?_, ?_, ?_⟩
    · rw [setLimiting_mwTotal]
      exact hmw
    · rw [getCluster_setLimiting, getCluster_relimited_lower hlow, if_pos hc]
      rfl
    · rw [getCluster_setLimiting, getCluster_relimited_raise hraise, if_pos hc]
      rfl
    · exact getCluster_relimited_apart hc
    · exact hqm
    · exact hdram

end Sys2Proof.Machine
